-- ==== Sys2Proof/Word.lean ====
section
/-!
DEFINITION. Word.lean: the widths the VX5120 counts in, and nothing else. Registers are 64 bits wide
(spec/00_scope.md R12); host and line data are bytes (R22).
-/
namespace Sys2Proof

/-- A register word, R12. -/
abbrev W64 := BitVec 64

/-- Half a register word, as a 32-bit access carries it, R12 to R14. -/
abbrev W32 := BitVec 32

/-- One byte of a frame, a descriptor, a command block or a table image, R22. -/
abbrev Byte := BitVec 8

end Sys2Proof
end

