-- ==== Sys2Proof/Syntax.lean ====
section
/-!
DEFINITION. Syntax.lean: the commands of the block, one constructor of Instr per row of spec/opcode_table.json, and
what their operands are made of. The table gives its rows no operands (log entry 1): each row has here what its rules
need to know and the module's state does not hold: who acts, on which instance, what arrives and what the environment
decides.
-/
namespace Sys2Proof

/-- The blocks of the register map, spec/20_register_map.md R598. -/
inductive Block where
  | gen | pce | rng | mbx | sem | tim | prt | mil | dsc | lin | flx | pmn | prs | lkp | asa | cmt | egr | bpm | adm
  | ddc | qsc | shp | tgt | fab | fabCmn | crd
  deriving DecidableEq, Repr

/-- Who makes a register access, spec/00_scope.md R12. -/
inductive Req where
  | pf0 | pf1 | mill | mate | dbg
  deriving DecidableEq, Repr

/-- The two PCIe functions, spec/04_host_pcie.md. -/
inductive Fn where
  | pf0 | pf1
  deriving DecidableEq, Repr

/-- How much of a register an access reads: all 64 bits, or its high half alone (R14). -/
inductive RdPart where
  | full | high
  deriving DecidableEq, Repr

/-- The two directions of the couch link, in the order of the index d of R37: FX to QX and QX to FX. -/
inductive CouchDir where
  | fxToQx | qxToFx
  deriving DecidableEq, Repr

/-- The kinds of TLP that R117 tells apart. -/
inductive TlpKind where
  | read | write | other
  deriving DecidableEq, Repr

/-- An inbound request TLP as the endpoint accepts its header: the function and BAR its address falls in, the offset
in that BAR, its length in bytes, which of its bytes are not enabled, and the data of a write. -/
structure Tlp where
  fn : Fn
  /-- false BAR0, true BAR2 (R136) -/
  bar2 : Bool
  kind : TlpKind
  off : Nat
  len : Nat
  /-- bytes whose enable is 0, counted from the first -/
  disabled : List Nat
  reqId : BitVec 16
  /-- it carries a TLP prefix that the endpoint does not support (spec/04_host_pcie.md R117) -/
  badPrefix : Bool
  poisoned : Bool
  /-- a parity error inside the endpoint meets it (spec/04_host_pcie.md R133) -/
  parityErr : Bool
  data : List Byte
  deriving DecidableEq, Repr

/-- How a completion for a read of the module ends, spec/04_host_pcie.md R133. -/
inductive CplStatus where
  | ok | ur | ca | poison | ecrc
  deriving DecidableEq, Repr

/-- A TX descriptor as the module fetches it, spec/05_rings_mailboxes_locks.md R147. -/
structure TxDesc where
  bufAddr : W64
  len : BitVec 14
  sop : Bool
  eop : Bool
  mode : Bool
  cls : BitVec 3
  destPort : BitVec 9
  cookie : W64
  deriving DecidableEq, Repr

/-- Where a Mill command comes from: a mailbox pair or an SMBus command buffer (spec/05_rings_mailboxes_locks.md R165,
spec/19_mill.md R593). -/
inductive MillSrc where
  | mbx (i : Fin 8)
  | smbus (b : Bool)
  deriving DecidableEq, Repr

/-- A signal that can be lost: a line port or a fabric link (spec/07_line_monitoring.md R206, R207). -/
inductive SigUnit where
  | line (port : Fin 256)
  | fabric (link : Fin 320)
  deriving DecidableEq, Repr

/-- A declared defect (spec/07_line_monitoring.md R207). -/
inductive Defect where
  | los (u : SigUnit)
  | loa (u : SigUnit)
  | group (n : Fin 32)
  | client (c : Fin 512)
  deriving DecidableEq, Repr

/-- What an entity received in a second: its errored blocks and all its blocks (spec/07_line_monitoring.md R206,
R214). -/
structure SecondBlocks where
  ent : Fin 1120
  errored : BitVec 48
  blocks : BitVec 48
  deriving DecidableEq, Repr

/-- A stored word of the versioned tables, the stash, the trie storage, the ASA rows or the digests
(spec/09_lookup.md R620): version `ver` stored for an index of a table (0 the oldest), a slot of the exact-match pool
(the stash slots follow from 8,388,608), a trie node, an ASA row, the control and action words of the ASA entry whose
first unit is `u`, a digest word. -/
inductive TableWord where
  | entry (table : BitVec 8) (index : BitVec 32) (ver : Nat)
  | slot (i : BitVec 24)
  | trie (node : BitVec 24)
  | row (r : Fin 524288)
  | ctl (u : BitVec 20)
  | digest (i : Fin 6434)
  deriving DecidableEq, Repr

/-- What the dandy scan finds at a word: nothing, a parity error of the word, one of its occupancy bit (R620). -/
inductive WordFault where
  | good | word | occupancy
  deriving DecidableEq, Repr

/-- A change descriptor as the Commit Engine fetches it, its image with it (spec/11_reams.md R333). -/
structure ChgDesc where
  data : W64
  table : BitVec 8
  inline : Bool
  allSlices : Bool
  index : BitVec 32
  len : BitVec 16
  index2 : BitVec 32
  /-- the image bytes at DATA; with INLINE 1 the module takes DATA itself -/
  image : List Byte
  deriving DecidableEq, Repr

/-- What a read of a DRAM stripe finds in one of the eight words of 64 bytes (spec/13_memory.md R393, R401): a
single-bit error in data burst 0 to 7 or in the check burst, 8; or more than the code corrects. -/
inductive DramErr where
  | corrected (word : Fin 8) (burst : Fin 9)
  | uncorrectable (word : Fin 8)
  deriving DecidableEq, Repr

/-- A serial lane with alignment markers: a fabric link or a felt lane (spec/15_fabric.md R456, spec/18_protection.md
R536). -/
inductive Lane where
  | fab (l : Fin 320)
  | felt (i : Fin 4)
  deriving DecidableEq, Repr


/-- The three kinds of sensor point, spec/19_mill.md R577. -/
inductive SensorKind where
  | temperature | voltage | current
  deriving DecidableEq, Repr

/-- One reading of a sensor: the point and its value in the units of R577; none is a reading out of the sensor's
physical range. -/
structure Reading where
  kind : SensorKind
  point : Fin 128
  value : Option Int
  /-- whether a voltage or current lies outside the limits of R577, which the manual gives relative to a rail's
  nominal value or a stage's rating -/
  outside : Bool
  deriving DecidableEq, Repr

/-- The commands, in the order of spec/opcode_table.json, those without operands after those with them: Lean compiles
at most 244 constructors that have fields, and only where no more constructors stand before them. -/
inductive Instr where
  -- spec/00_scope.md, spec/20_register_map.md: registers and causes
  | registerWrite (req : Req) (off : BitVec 28) (v : W64)
  | rcRegisterRead (req : Req) (off : BitVec 28) (part : RdPart)
  | lowHalfWrite (req : Req) (off : BitVec 28) (v : W32)
  | highHalfWrite (req : Req) (off : BitVec 28) (v : W32)
  | lowHalfRead (req : Req) (off : BitVec 28)
  | fxWriteDelivery (req : Req)
  | rwFieldEffect (off : BitVec 28)
  | applyGo (req : Req) (b : Block) (inst : Fin 16)
  | stagedApply (b : Block) (inst : Fin 16)
  | intStatusClear (req : Req) (b : Block) (inst : Fin 16) (v : W64) (newCauses : W64)
  | msixUnmask (fn : Fn) (vec : Option (Fin 2048))
  -- spec/01_architecture.md: the path and the couch link
  | packetDispatch (slice : Fin 16) (idle : Fin 64) (older : Bool)
  | couchUnitReceive (d : CouchDir) (crcGood : Bool)
  -- spec/02_module.md: power, heat, the pair's contacts
  | powerGood (slotId : BitVec 6)
  | powerFail (overvoltage : Bool)
  | lastGaspEntry (vin : BitVec 16)
  | thermalTrip (point : Fin 128) (value : Int)
  -- spec/03_startup_reset.md: phases and resets
  | imageVerify (goodA goodB : Bool)
  | initComplete (fails : BitVec 144)
  | selftestFail (slices : BitVec 16) (qx : Bool)
  | phaseReqPark (req : Req)
  | phaseReqRun (req : Req)
  | phaseReqIsolate (req : Req)
  | cold (req : Req) (key : BitVec 16)
  | warmQx (req : Req) (key : BitVec 16)
  | warmQxComplete (fails : BitVec 144)
  | domainHold (req : Req) (hold : BitVec 29)
  | domainRelease (req : Req) (hold : BitVec 29)
  | domainReady (d : Fin 29)
  -- spec/04_host_pcie.md: the host's link and functions
  | hotReset (rate width : BitVec 4) (flit : Bool)
  | flr (fn : Fn)
  | flrComplete (fn : Fn)
  | d3hotEntry (fn : Fn)
  | d0Transition (fn : Fn)
  | bmeClear (fn : Fn)
  | pcieLaneFail (working : BitVec 8)
  | pcieMemRequest (t : Tlp)
  | peerWindowAccess (t : Tlp)
  | pceWinWrite (req : Req) (n : Fin 16) (v : W64)
  | pcieCompletion (tag : Fin 512) (status : CplStatus)
  | completionTimeout (tag : Fin 512)
  | pcieTagGrant (fn : Fn)
  | hwmWindowRead (fn : Fn) (off : BitVec 24)
  -- spec/05_rings_mailboxes_locks.md: rings, mailboxes, locks
  | ringDoorbell (r : Fin 16384) (hostIdx : W32)
  | ringEnable (req : Req) (r : Fin 16384) (cfg : W64)
  | ringDisable (req : Req) (r : Fin 16384) (cfg : W64)
  | ringDrained (r : Fin 16384)
  | ringArm (r : Fin 16384)
  | ringCoalTimer (r : Fin 16384)
  | dmaSlotAvailable (e : Fin 4)
  | txDescriptor (r : Fin 16384) (chain : List TxDesc) (data : List Byte)
  | rxPacketDeliver (r : Fin 16384) (bufs : List (W64 × BitVec 16)) (ue : Bool)
  | mbxH2mPost (i : Fin 8) (v : W64)
  | millTakeNotice (i : Fin 8) (readOk : Bool) (block : List Byte)
  | millAnswer (src : MillSrc)
  | mbxM2hTake (i : Fin 8) (v : W64)
  | mbxTimeout (i : Fin 8) (h2m : Bool)
  | mbxModeWrite (req : Req) (i : Fin 8) (v : W64)
  | semLockRead (n : Fin 64) (readers : List Req) (part : RdPart)
  | rel (m : Req) (n : Fin 64)
  | force (m : Req) (n : Fin 64)
  -- spec/06_line_flexe.md: slices, ports, frames, PFC, FlexE and the cross-connect
  | sliceRun (req : Req) (slice : Fin 16) (v : W64)
  | sliceStop (req : Req) (slice : Fin 16) (v : W64)
  | portEnable (req : Req) (port : Fin 256) (v : W64)
  | portLinkUp (port : Fin 256)
  | frameReceive (port : Fin 256) (frame : List Byte) (fcs : BitVec 32)
  | pfcReceive (port : Fin 256) (en : BitVec 8) (quanta : List (BitVec 16))
  | pfcPauseExpiry (port : Fin 256) (cls : Fin 8)
  | pfcXoffRepeat (port : Fin 256) (cls : Fin 8)
  | flxGroupEnable (req : Req) (n : Fin 32) (v : W64)
  | calReq (req : Req) (n : Fin 32) (v : W64)
  | calendarSwitch (n : Fin 32)
  | calFail (n : Fin 32)
  | flxClientEnable (req : Req) (c : Fin 512) (v : W64)
  | flxCktEnable (req : Req) (c : Fin 4096) (v : W64)
  | copy (req : Req) (v : W64)
  | arm (req : Req) (v : W64)
  | disarm (req : Req) (v : W64)
  | xcPageSwitch (joined : List (Fin 32))
  -- spec/07_line_monitoring.md: defects and performance monitoring
  | losDeclare (u : SigUnit)
  | loaDeclare (u : SigUnit)
  | groupFail (n : Fin 32)
  | clientFail (c : Fin 512)
  | defectClear (d : Defect)
  | sdPeriodEnd (u : SigUnit) (symbols corrected uncorrectable : BitVec 48)
  | holdOffExpiry (ent : Fin 1120) (sd : Bool)
  | pmSecondEnd (counts : List SecondBlocks)
  -- spec/08_parser.md: parse engines
  | parseStart (pipe : Fin 64) (bad : Bool)
  | nop (e : Fin 8192) (bad : Bool)
  | ldw (e : Fin 8192) (bad : Bool)
  | alu (e : Fin 8192) (bad : Bool)
  | adv (e : Fin 8192) (bad : Bool)
  | hdr (e : Fin 8192) (bad : Bool)
  | key (e : Fin 8192) (bad : Bool)
  | keyr (e : Fin 8192) (bad : Bool)
  | br (e : Fin 8192) (bad : Bool)
  | jmp (e : Fin 8192) (bad : Bool)
  | chk (e : Fin 8192) (bad : Bool)
  | trim (e : Fin 8192) (bad : Bool)
  | movs (e : Fin 8192) (bad : Bool)
  | flag (e : Fin 8192) (bad : Bool)
  | brw (e : Fin 8192) (bad : Bool)
  | dec (e : Fin 8192) (bad : Bool)
  | done (e : Fin 8192) (bad : Bool)
  | parseStepLimit (e : Fin 8192)
  | parseResultDelivery (pipe : Fin 64)
  -- spec/09_lookup.md: lookups, learning, replication, bad entries
  | keyBuild (pipe : Fin 64) (upset : List TableWord)
  | exactMatchLookup (pipe : Fin 64) (d : Fin 6) (upset : List TableWord) (stall : BitVec 32)
  | routeLookup (pipe : Fin 64) (d : Fin 6) (path : List (BitVec 24)) (upset : List TableWord) (stall : BitVec 32)
  | asaSearch (pipe : Fin 64) (d : Fin 6) (upset : List TableWord)
  | forwardingDecision (pipe : Fin 64) (upset : List TableWord) (stall : BitVec 32)
  | ageVisit (slot : BitVec 24) (met : Bool)
  | flushStart (req : Req) (v : W64)
  | flushComplete (late : List (BitVec 24))
  | replicatorExpand (upset : List TableWord) (stall : BitVec 32)
  | dandyScanCheck (w : TableWord) (found : WordFault)
  | trieRebuild (node : BitVec 24)
  | digestRecompute (i : Fin 6434)
  | poisonClr (req : Req) (v : W64)
  -- spec/10_associative_search.md: banks, host searches, relocation
  | asaBankRun (req : Req) (k : Fin 128) (v : W64)
  | asaBankStop (req : Req) (k : Fin 128) (v : W64)
  | start (req : Req) (c : Fin 4) (v : W64)
  | next (req : Req) (c : Fin 4) (v : W64)
  | srchEnd (req : Req) (c : Fin 4) (v : W64)
  | asaSearchStep (c : Fin 4) (upset : List TableWord)
  | asaPinExpiry (c : Fin 4)
  | asaOriginalFree (u : BitVec 20)
  -- spec/11_reams.md: change descriptors, commits, settlement, table reads
  | write (r : Fin 1024) (op : BitVec 8) (d : ChgDesc)
  | retire (r : Fin 1024) (d : ChgDesc)
  | emAdd (r : Fin 1024) (d : ChgDesc)
  | emDel (r : Fin 1024) (d : ChgDesc)
  | move (r : Fin 1024) (d : ChgDesc)
  | commit (r : Fin 1024) (number : BitVec 32) (numberEn resume : Bool)
  | tableRead (req : Req) (v : W64)
  -- spec/12_buffering.md: buffers, admission, the deep mover
  | alloc (r : Fin 32) (h : BitVec 32)
  | bufUse (r : Fin 32) (h : BitVec 32)
  | bufRef (r : Fin 32) (h : BitVec 32) (n : BitVec 8) (holder : Fin 32)
  | bufDec (r : Fin 32) (h : BitVec 32)
  | bufReturn (r : Fin 32) (h : BitVec 32)
  | cacheIdleReturn (h : BitVec 32)
  | refill (r : Fin 32)
  | refillRetryExpiry (r : Fin 32)
  | deepEvict (own : Option (Fin 8)) (ue : Option (BitVec 32))
  | partialPageTimer (q : BitVec 20) (ue : Option (BitVec 32))
  | deepPageWritten (page : BitVec 32)
  | deepRefill (q : BitVec 20)
  -- spec/13_memory.md: the DRAM clusters
  | dramRead (part : Fin 4) (off : BitVec 35) (err : DramErr)
  | setRetrain (fails : BitVec 9)
  | ddcRun (req : Req) (v : W64)
  | spareGo (req : Req) (n : Fin 9) (v : W64)
  | spareCopyDone (n : Fin 9) (bad : Bool)
  | spareTest (n : Fin 9) (ue : Bool) (corr : BitVec 32)
  | cntClr (req : Req) (v : W64)
  -- spec/14_scheduling.md: queues, credit, the egress hierarchy, gates
  | qscRun (req : Req) (v : W64)
  | queueFlushStart (req : Req) (v : W64)
  | creditRequest (q : BitVec 20)
  | deferBackoffExpiry (q : BitVec 20)
  | reqTimeout (q : BitVec 20)
  | voqDequeue (ue : Bool)
  | idleClr (g : Fin 32) (k : Fin 8)
  | crdResEnable (req : Req) (r : Fin 4096) (v : W64)
  | schedulerSelection (port : Fin 288) (ue : Bool)
  | gateEvent (port : Fin 288)
  | change (req : Req) (port : Fin 288) (v : W64)
  | gateListSwitch (port : Fin 288)
  -- spec/15_fabric.md: links, cells, reachability, reassembly
  | fabMacroRun (req : Req) (n : Fin 5) (v : W64)
  | markerReceive (lane : Lane) (pos : Fin 174080) (marker : List Byte)
  | searchWindowEnd (lane : Lane)
  | cellReceive (l : Fin 320) (cell : List Byte)
  | reachTimeout (l : Fin 320) (block : Fin 8)
  | sprayRejoin (l : Fin 320)
  | cellTransmit (l : Fin 320)
  | unreachHoldExpiry (d : Fin 2048) (pair : Bool)
  | reorderTimeout (src : Fin 2048)
  | reorderIdle (src : Fin 2048)
  | seqRestart (d : Fin 2048) (pair : Bool)
  | heartbeatLost (src : Fin 2048)
  | playoutTurn (src : Fin 2048) (ckt : Fin 4096) (member : Fin 256)
  -- spec/16_egress_rewrite.md
  | egressProcess (pipe : Fin 64) (upset : List TableWord) (paths : List (List (BitVec 24))) (older : Bool) (stall : BitVec 32)
  -- spec/17_time.md: the time counter and its sources
  | ppsEdge (sub : Fin 64)
  | todMessage (msg : List Byte) (inWindow : Bool)
  | timAdjSlew (req : Req) (v : W64)
  | timAdjStep (req : Req) (v : W64)
  | timAdjLoad (req : Req) (v : W64)
  | timeCaptureRead (req : Req)
  -- spec/18_protection.md: the felt link, roles, switches, comparison, recovery
  | feltHeartbeat (lane : Fin 4) (msg : List Byte)
  | protGroupEnable (req : Req) (g : Fin 32) (v : W64)
  | roleRelease (lane : Fin 4) (msg : List Byte)
  | roleAck (lane : Fin 4) (msg : List Byte)
  | roleDrained (lane : Fin 4) (msg : List Byte)
  | roleAbort (lane : Fin 4) (msg : List Byte)
  | switchAckTimeout (g : Fin 32)
  | switchInstant (g : Fin 32)
  | drainMaxExpiry (g : Fin 32)
  | ingressGapExpiry (g : Fin 32)
  | wtrExpiry (g : Fin 32)
  | boundary (slice : Fin 16) (msg : Option (List Byte))
  | digest (lane : Fin 4) (msg : List Byte)
  | testRequest (lane : Fin 4) (msg : List Byte)
  | sliceSelftest (slice : Fin 16) (pass : Bool)
  | testResult (lane : Fin 4) (msg : List Byte)
  | testResultTimeout (slice : Fin 16)
  | feltHealth (lane : Fin 4) (msg : List Byte)
  | feltLockRead (lane : Fin 4) (msg : List Byte)
  | feltLockRelease (lane : Fin 4) (msg : List Byte)
  | feltLockResult (lane : Fin 4) (msg : List Byte)
  | backgroundTest (sched buf spare asa : Bool)
  | recoveryDone (req : Req) (v : W64)
  -- spec/19_mill.md: the Mill, its sensors, its log, its commands, SMBus and the debug port
  | lockstepMismatch (pc0 pc1 : W64)
  | sramUncorrectable (addr : W64)
  | millWatchdog (pc0 pc1 : W64)
  | sensorSample (readings : List Reading)
  | identity (src : MillSrc)
  | sensors (src : MillSrc)
  | alertRead (src : MillSrc)
  | alertWrite (src : MillSrc)
  | alertAck (src : MillSrc)
  | logRead (src : MillSrc)
  | health (src : MillSrc)
  | selftest (src : MillSrc) (failed : BitVec 16)
  | phase (src : MillSrc)
  | domain (src : MillSrc)
  | reset (src : MillSrc)
  | spareStart (src : MillSrc)
  | spareAuto (src : MillSrc)
  | partitionRead (src : MillSrc)
  | partitionWrite (src : MillSrc)
  | tagRead (src : MillSrc)
  | tagWrite (src : MillSrc)
  | tagWpRead (src : MillSrc)
  | tagWpSet (src : MillSrc)
  | tagWpClear (src : MillSrc)
  | getFile (src : MillSrc) (file : Option (List Byte))
  | fwBegin (src : MillSrc)
  | fwData (src : MillSrc)
  | fwVerify (src : MillSrc) (signatureOk hashOk : Bool)
  | fwActivate (src : MillSrc)
  | fwCommit (src : MillSrc)
  | debugUnlock (src : MillSrc)
  | debugLock (src : MillSrc)
  | smbBlockWrite (off : BitVec 16) (data : List Byte) (pecOk : Bool)
  | execute (b : Bool) (pecOk : Bool)
  | smbReadSetup (off count : BitVec 16) (pecOk : Bool)
  -- rows of several chapters: R83, R85, R186, R164, R126, R613
  | perstDeassert (rate width : BitVec 4) (flit : Bool)
  | remoteFault (port : Fin 256) (started : Bool)
  | busMasterEnableSet (fn : Fn)
  | msixEnable (fn : Fn) (intDisable : Bool)
  -- commands without operands
  | couchRetrain
  | couchRetrainDone
  | couchDown
  | railsOff
  | heartbeatStrobe
  | watchdogStrobesMissed
  | matePresentChange
  | aliveInChange
  | regulatorsSequenced
  | selftestPass
  | modReset
  | perstAssert
  | dlDown
  | copyDone
  | pmSecondCommit
  | learnInsert
  | reamAbandon
  | commitInstant
  | drainWait
  | reamDrained
  | settlement
  | tableReadDone
  | admission
  | queueFlushDone
  | requestArrival
  | creditSlot
  | grant
  | defer
  | creditReturnReceive
  | egressEnqueue
  | advert
  | reach
  | dataCell
  | heartbeatSend
  | heartbeat
  | slotCell
  | ppsLoss
  | ppsOut
  | todSend
  | servoMeasurement
  | timeDreqSend
  | timeDreq
  | timeDresp
  | timeSync
  | timeExchangeTimeout
  | ref10mChange
  | feltHeartbeatSend
  | feltPathLost
  | fastHeartbeatSend
  | aliveFault
  | groupRoleInit
  | healthSend
  | millRestartDone
  | logFlashWrite
  | smbusAra
  | debugExpiry
  | millNotice
  | smbStateRead
  | smbBlockRead
  | modResetRelease
  | smbClkLowTimeout
  deriving DecidableEq, Repr

end Sys2Proof
end

