-- ==== Sys2Proof/Decode.lean ====
section
/-!
DEFINITION. Decode.lean: the command that a word of spec/opcode_table.json spells. Every row of the table has an empty
list of fields, so no row has a word and no word spells a command (log entry 1).
-/
namespace Sys2Proof

/-- No word of any width spells a command. -/
def decodeTableWord (_nbits _w : Nat) : Option Instr := none

end Sys2Proof
end

