-- ==== Sys2Proof/Config.lean ====
section
/-!
DEFINITION. Config.lean: what a module is built with, and the values the manual leaves open. A constant without a body
is a free value: nothing can be proved of it but what holds for every value.
-/
namespace Sys2Proof.Config

/-- The order number of the module: VX5120-2T, or else VX5120-1T (spec/00_scope.md R2, spec/20_register_map.md R604). -/
opaque is2T : Bool

/-- The factory serial number (spec/20_register_map.md R604, spec/04_host_pcie.md R108). -/
opaque serial : BitVec 64

/-- The version of the boot ROM and the manufacturing date, which IDENTITY returns (spec/19_mill.md R575). -/
opaque bootRomVersion : BitVec 32
opaque mfgDate : BitVec 64

/-- A free value for each count of the free-value counter of State: what the manual calls undefined, random or
unspecified, log entry 3. -/
opaque freeValue : Nat → BitVec 64

end Sys2Proof.Config
end

