-- ==== Sys2Proof/Machine/Bits.lean ====
section
/-!
DEFINITION. Machine/Bits.lean: bit fields of a word, bytes and numbers in either byte order, and sparse tables held
as lists of key and value in rising key order.
-/
namespace Sys2Proof.Machine

/-- Bits [lsb+w-1 : lsb] of a number. -/
def bitsOf (n lsb w : Nat) : Nat := (n >>> lsb) % 2 ^ w

/-- A number with bits [lsb+w-1 : lsb] replaced by the low w bits of x. -/
def withBits (n lsb w x : Nat) : Nat :=
  n - (bitsOf n lsb w) * 2 ^ lsb + (x % 2 ^ w) * 2 ^ lsb

/-- Ones in bits [lsb+w-1 : lsb]. -/
def maskBits (lsb w : Nat) : Nat := (2 ^ w - 1) * 2 ^ lsb

/-- Bit i of a number. -/
def bitAt (n i : Nat) : Bool := (n >>> i) % 2 == 1

/-- 0 or 1. -/
def ofBool (b : Bool) : Nat := if b then 1 else 0

/-- A count that stops at the largest number of w bits. -/
def satAdd (w a b : Nat) : Nat := min (2 ^ w - 1) (a + b)

/-- The number of ones among the low n bits. -/
def popcount : Nat → Nat → Nat
  | 0, _ => 0
  | n + 1, x => x % 2 + popcount n (x / 2)

/-- The indices below n whose bit is set, rising. -/
def onesUpTo (n x : Nat) : List Nat := (List.range n).filter (bitAt x)

/-- Two's complement of w bits read as an integer. -/
def signedOf (w n : Nat) : Int := if n % 2 ^ w < 2 ^ (w - 1) then (n % 2 ^ w : Nat) else ((n % 2 ^ w : Nat) : Int) - (2 ^ w : Nat)

/-- A byte string as a number, the first byte least significant (R22, host memory). -/
def leNat : List Byte → Nat
  | [] => 0
  | b :: bs => b.toNat + 256 * leNat bs

/-- A byte string as a number, the first byte most significant (R22, fabric, felt link and line). -/
def beNat (bs : List Byte) : Nat := bs.foldl (fun a b => a * 256 + b.toNat) 0

/-- A number as n bytes, least significant first. -/
def leBytes : Nat → Nat → List Byte
  | 0, _ => []
  | n + 1, x => BitVec.ofNat 8 x :: leBytes n (x / 256)

/-- A number as n bytes, most significant first. -/
def beBytes (n x : Nat) : List Byte := (leBytes n x).reverse

/-- n bytes from offset i, zero where the string has none. -/
def bytesAt (bs : List Byte) (i n : Nat) : List Byte :=
  let t := (bs.drop i).take n
  t ++ List.replicate (n - t.length) 0

/-- The string with the bytes at offset i replaced, as far as the string reaches. -/
def overwrite (bs : List Byte) (i : Nat) (new : List Byte) : List Byte :=
  bs.take i ++ new.take (bs.length - i) ++ bs.drop (i + new.length)

/-- n zero bytes. -/
def zeros (n : Nat) : List Byte := List.replicate n 0

/-- The value at a key. -/
def tblFind {α : Type} (k : Nat) : List (Nat × α) → Option α
  | [] => none
  | (k', v) :: t => if k' = k then some v else tblFind k t

/-- The value at a key, or the value every unlisted key has. -/
def tblGet {α : Type} (d : α) (t : List (Nat × α)) (k : Nat) : α := (tblFind k t).getD d

/-- The table with a value at a key; the keys stay in rising order. -/
def tblPut {α : Type} (k : Nat) (v : α) : List (Nat × α) → List (Nat × α)
  | [] => [(k, v)]
  | (k', v') :: t => if k < k' then (k, v) :: (k', v') :: t else if k = k' then (k, v) :: t else (k', v') :: tblPut k v t

/-- The table without a key. -/
def tblDel {α : Type} (k : Nat) (t : List (Nat × α)) : List (Nat × α) := t.filter fun e => e.1 != k

/-- The table with a function applied to the value at a key. -/
def tblMod {α : Type} (d : α) (k : Nat) (f : α → α) (t : List (Nat × α)) : List (Nat × α) :=
  tblPut k (f (tblGet d t k)) t

/-- The first i items of a list and the rest, without item i; none when there is no item i. -/
def takeAt {α : Type} : Nat → List α → Option (α × List α)
  | _, [] => none
  | 0, x :: t => some (x, t)
  | n + 1, x :: t => (takeAt n t).map fun (y, r) => (y, x :: r)

/-- The first item that satisfies p, and the list without it. -/
def takeFirst {α : Type} (p : α → Bool) : List α → Option (α × List α)
  | [] => none
  | x :: t => if p x then some (x, t) else (takeFirst p t).map fun (y, r) => (y, x :: r)

/-- The list with f applied to the first item that satisfies p. -/
def modFirst {α : Type} (p : α → Bool) (f : α → α) : List α → List α
  | [] => []
  | x :: t => if p x then f x :: t else x :: modFirst p f t

/-- The list with item i replaced. -/
def setAt {α : Type} : Nat → α → List α → List α
  | _, _, [] => []
  | 0, v, _ :: t => v :: t
  | n + 1, v, x :: t => x :: setAt n v t

end Sys2Proof.Machine
end

