-- ==== Sys2Proof/Machine/Regs.lean ====
section
/-!
DEFINITION. Machine/Regs.lean: the names of the registers of the map (spec/20_register_map.md R598, R606), one
constructor per register or register array, and what a field of a register is.
-/
namespace Sys2Proof.Machine

/-- The access codes of a field, spec/00_scope.md R6 to R11. -/
inductive Access where
  | ro | rw | rws | rwx | w1c | w1s | rc | wo
  deriving DecidableEq, Repr

/-- Every register of the map by name, R606 and the chapter that defines it. The two words of a register that is
more than one word wide are two constructors. `qscNodeStore`, `shpCirStore`, `shpPirStore` and `shpPolStore` are not
registers of their own: they are the entries behind the windows that QSC_WIN_SEL and SHP_WIN_SEL move (R441, R448). -/
inductive Reg where
  | genIdOrder
  | genIdRev
  | genIdSerial
  | genIntSummary
  | genIntInst
  | genIntStatus
  | genIntEnable
  | genPhase
  | genPhaseCtrl
  | genDomainReset
  | genDomainStatus
  | genResetCtrl
  | genResetCause
  | genCouchStatus
  | genCouchCrcErr
  | genCouchRetry
  | genOfflineAcc
  | genPinStatus
  | pceLinkStatus
  | pceIntStatus
  | pceIntEnable
  | pceUrLogAddr
  | pceUrLogInfo
  | pceTagCtrl
  | pceWin
  | pceWinGen
  | pceCntWin
  | pceHwmBase
  | pceDiscardCpl
  | pcePoisonRx
  | pcePoisonTx
  | rngAddr
  | rngCfg
  | rngState
  | rngIntStatus
  | rngIntEnable
  | rngDmaCtrl
  | rngHaltLog
  | rngEvtMap
  | mbxH2mPtr
  | mbxH2mPost
  | mbxH2mStat
  | mbxM2hPtr
  | mbxM2hNote
  | mbxM2hTake
  | mbxMode
  | mbxIntStatus
  | mbxIntEnable
  | mbxSvcCtrl
  | semLock
  | semRelease
  | semHeld
  | semForeign
  | semIntStatus
  | semIntEnable
  | timIntStatus
  | timIntEnable
  | timApply
  | timCtrl
  | timCal
  | timStatus
  | timNowSec
  | timNowNs
  | timAdj
  | timFreq
  | timLoadSec
  | timFabDiscard
  | timSynce
  | prtIntStatus
  | prtIntEnable
  | prtApply
  | prtCtrl
  | prtStatus
  | prtRecovery
  | prtHealth
  | prtMateHealth
  | prtShadowDiscard
  | prtSwitchDiscard
  | prtFeltErr
  | prtGroupCfg
  | prtGroupStatus
  | prtSliceStatus
  | prtCmp
  | prtGroupMembers
  | prtGroupFlexe
  | milStatus
  | milCtrl
  | milIntStatus
  | milIntEnable
  | milSmbErr
  | dscStatus
  | linSliceCtrl
  | linIntStatus
  | linIntEnable
  | linLaneCfg
  | linPortCfg
  | linPortStatus
  | linRxDiscard
  | linPfcRx
  | linPfcTx
  | linCouchDiscard
  | linRxFcsErr
  | linRxRunt
  | linRxOversize
  | flxIntStatus
  | flxIntEnable
  | flxXcCtrl
  | flxXcTime
  | flxXcStatus
  | flxGroupCfg
  | flxGroupPhy
  | flxClient
  | flxCkt
  | flxXcSby0
  | flxXcSby1
  | flxXcAct0
  | flxXcAct1
  | flxCal
  | pmnCtrl
  | pmnApply
  | pmnIntStatus
  | pmnIntEnable
  | pmnStatus
  | pmnEntCfg
  | pmnEntStatus
  | pmnSymCorr
  | pmnCwUncorr
  | pmnBin0
  | pmnBin1
  | pmnBin2
  | prsIntStatus
  | prsIntEnable
  | prsApply
  | prsErrLog
  | prsTrimCnt
  | prsTruncCnt
  | prsMalCnt
  | prsMalAct
  | prsEntry
  | prsStore
  | lkpIntStatus
  | lkpIntEnable
  | lkpApply
  | lkpErrLog
  | lkpLearnCtrl
  | lkpFlush
  | lkpLearnFail
  | lkpLearnDrop
  | lkpMoveDeny
  | lkpXbarStall
  | lkpPoisonExp
  | lkpPoisonClr
  | lkpPoisonStatus
  | lkpOccEm
  | lkpOccRoute
  | lkpPort
  | lkpHprof0
  | lkpHprof1
  | lkpHprof2
  | lkpDig0
  | lkpDig1
  | asaIntStatus
  | asaIntEnable
  | asaApply
  | asaErrLog
  | asaCtrl
  | asaDisabled
  | asaViewSel
  | asaGroupCfg
  | asaGrpMulti
  | asaGrpEqpri
  | asaBankCfg
  | asaBankStatus
  | asaSrchKey
  | asaSrchCmd
  | asaSrchToken0
  | asaSrchToken1
  | asaSrchStatus
  | asaSrchResult
  | asaSrchAct0
  | asaSrchAct1
  | asaView
  | cmtIntStatus
  | cmtIntEnable
  | cmtApply
  | cmtCtrl
  | cmtStatus
  | cmtCommits
  | cmtRejects
  | cmtRejectLog
  | cmtMaxWait
  | cmtRdCmd
  | cmtRdReam
  | cmtRdData
  | cmtHeadroom
  | egrIntStatus
  | egrIntEnable
  | egrApply
  | egrErrLog
  | egrCtrl
  | egrPtpNoTs
  | egrPort
  | egrSmac
  | egrSrc4
  | egrSrc6
  | egrMirror0
  | egrMirror1
  | egrSampler
  | bpmIntStatus
  | bpmIntEnable
  | bpmApply
  | bpmCtrl
  | bpmStatus
  | bpmDeepStatus
  | bpmDoubleFree
  | bpmForeignFree
  | bpmErrLog
  | bpmTreeCopies
  | bpmReqCfg
  | bpmReqStatus
  | bpmReqNone
  | admIntStatus
  | admIntEnable
  | admApply
  | admDropLog
  | admDeepStatus
  | admProf0
  | admProf1
  | admProf2
  | admPfc
  | admPfcStatus
  | admDeepBw
  | admDropPkt
  | admDropByte
  | admDeepSat
  | admQset
  | ddcCtrl
  | ddcPart
  | ddcErrLog
  | ddcUe
  | ddcCntClr
  | ddcIntStatus
  | ddcIntEnable
  | ddcSpare
  | ddcCeCfg
  | ddcCe
  | ddcChStatus
  | qscIntStatus
  | qscIntEnable
  | qscApply
  | qscCtrl
  | qscWinSel
  | qscFlush
  | qscEqMap
  | qscNode
  | qscNodeStatus
  | shpIntStatus
  | shpIntEnable
  | shpApply
  | shpWinSel
  | shpColorMap
  | shpCir
  | shpPir
  | shpLevel
  | shpPolCfg
  | tgtIntStatus
  | tgtIntEnable
  | tgtApply
  | tgtCtrl
  | tgtBaseSec
  | tgtBaseNs
  | tgtStatus
  | tgtAdmin
  | tgtOper
  | fabIntStatus
  | fabIntEnable
  | fabMacroCtrl
  | fabLinkCfg
  | fabLinkStatus
  | fabAmbig
  | fabCandOvf
  | fabHcsErr
  | fabCmnIntStatus
  | fabCmnIntEnable
  | fabCmnApply
  | fabCmnCtrl
  | fabCmnPairMap
  | fabCmnHbSet
  | fabCmnDestSel
  | fabCmnDestStatus
  | fabCmnCellsLost
  | fabCmnCellsLate
  | fabCmnMisaddr
  | fabCmnSlotNopath
  | crdIntStatus
  | crdIntEnable
  | crdApply
  | crdCtrl
  | crdFab
  | crdStatus
  | crdGrants
  | crdDefers
  | crdReqTimeout
  | crdReqOvf
  | crdVoqSel
  | crdVoqState
  | crdPgCfg
  | crdClass
  | crdRes
  | qscNodeStore | shpCirStore | shpPirStore | shpPolStore
  deriving DecidableEq, Repr

/-- A field of a register: its place, its class and its value after the reset of its domain (R18). -/
structure Field where
  reg : Reg
  lsb : Nat
  width : Nat
  acc : Access
  rst : Nat
  deriving DecidableEq, Repr

/-- Which register of an array, of which instance of a block: instance, first index, second index. -/
structure Ix where
  inst : Nat := 0
  i : Nat := 0
  j : Nat := 0
  deriving DecidableEq, Repr

/-- A register named by its address: the register and its place in its array. -/
structure RegRef where
  reg : Reg
  ix : Ix
  deriving DecidableEq, Repr

end Sys2Proof.Machine
end

