-- ==== Sys2Proof/Machine/Fields.lean ====
section
/-!
DEFINITION. Machine/Fields.lean: every field of every register, in the manual's own names: the block prefix, the
register, the field. Bit places, classes and reset values are those of the field tables of spec/01 to spec/20. The
fields of an INT_ENABLE register are those of its INT_STATUS, class RW, reset 0 (spec/20_register_map.md R598), and
are not named again.
-/
namespace Sys2Proof.Machine.Fld

-- GEN_ID_ORDER: R604, spec/20_register_map.md
def GEN_ID_ORDER_ORDER : Field := ⟨.genIdOrder, 0, 64, .ro, 0⟩
-- GEN_ID_REV: R604, spec/20_register_map.md
def GEN_ID_REV_MOD_REV : Field := ⟨.genIdRev, 0, 8, .ro, 0xa1⟩
def GEN_ID_REV_FX_REV : Field := ⟨.genIdRev, 8, 8, .ro, 0xb0⟩
def GEN_ID_REV_QX_REV : Field := ⟨.genIdRev, 16, 8, .ro, 0xb0⟩
-- GEN_ID_SERIAL: R604, spec/20_register_map.md
def GEN_ID_SERIAL_SERIAL : Field := ⟨.genIdSerial, 0, 64, .ro, 0⟩
-- GEN_INT_SUMMARY: R600, spec/20_register_map.md
def GEN_INT_SUMMARY_GEN : Field := ⟨.genIntSummary, 0, 1, .ro, 0⟩
def GEN_INT_SUMMARY_PCE : Field := ⟨.genIntSummary, 1, 1, .ro, 0⟩
def GEN_INT_SUMMARY_RNG : Field := ⟨.genIntSummary, 2, 1, .ro, 0⟩
def GEN_INT_SUMMARY_MBX : Field := ⟨.genIntSummary, 3, 1, .ro, 0⟩
def GEN_INT_SUMMARY_SEM : Field := ⟨.genIntSummary, 4, 1, .ro, 0⟩
def GEN_INT_SUMMARY_TIM : Field := ⟨.genIntSummary, 5, 1, .ro, 0⟩
def GEN_INT_SUMMARY_PRT : Field := ⟨.genIntSummary, 6, 1, .ro, 0⟩
def GEN_INT_SUMMARY_MIL : Field := ⟨.genIntSummary, 7, 1, .ro, 0⟩
def GEN_INT_SUMMARY_LIN : Field := ⟨.genIntSummary, 8, 1, .ro, 0⟩
def GEN_INT_SUMMARY_FLX : Field := ⟨.genIntSummary, 9, 1, .ro, 0⟩
def GEN_INT_SUMMARY_PMN : Field := ⟨.genIntSummary, 10, 1, .ro, 0⟩
def GEN_INT_SUMMARY_PRS : Field := ⟨.genIntSummary, 11, 1, .ro, 0⟩
def GEN_INT_SUMMARY_LKP : Field := ⟨.genIntSummary, 12, 1, .ro, 0⟩
def GEN_INT_SUMMARY_ASA : Field := ⟨.genIntSummary, 13, 1, .ro, 0⟩
def GEN_INT_SUMMARY_CMT : Field := ⟨.genIntSummary, 14, 1, .ro, 0⟩
def GEN_INT_SUMMARY_EGR : Field := ⟨.genIntSummary, 15, 1, .ro, 0⟩
def GEN_INT_SUMMARY_BPM : Field := ⟨.genIntSummary, 16, 1, .ro, 0⟩
def GEN_INT_SUMMARY_ADM : Field := ⟨.genIntSummary, 17, 1, .ro, 0⟩
def GEN_INT_SUMMARY_DDC : Field := ⟨.genIntSummary, 18, 1, .ro, 0⟩
def GEN_INT_SUMMARY_QSC : Field := ⟨.genIntSummary, 19, 1, .ro, 0⟩
def GEN_INT_SUMMARY_SHP : Field := ⟨.genIntSummary, 20, 1, .ro, 0⟩
def GEN_INT_SUMMARY_TGT : Field := ⟨.genIntSummary, 21, 1, .ro, 0⟩
def GEN_INT_SUMMARY_FAB : Field := ⟨.genIntSummary, 22, 1, .ro, 0⟩
def GEN_INT_SUMMARY_FAB_CMN : Field := ⟨.genIntSummary, 23, 1, .ro, 0⟩
def GEN_INT_SUMMARY_CRD : Field := ⟨.genIntSummary, 24, 1, .ro, 0⟩
-- GEN_INT_INST: R602, spec/20_register_map.md
def GEN_INT_INST_LIN : Field := ⟨.genIntInst, 0, 16, .ro, 0⟩
def GEN_INT_INST_PRS : Field := ⟨.genIntInst, 16, 16, .ro, 0⟩
def GEN_INT_INST_DDC : Field := ⟨.genIntInst, 32, 9, .ro, 0⟩
def GEN_INT_INST_FAB : Field := ⟨.genIntInst, 41, 5, .ro, 0⟩
-- GEN_INT_STATUS: R603, spec/20_register_map.md
def GEN_INT_STATUS_CFG_VIOLATION : Field := ⟨.genIntStatus, 0, 1, .w1c, 0⟩
def GEN_INT_STATUS_PHASE_CHG : Field := ⟨.genIntStatus, 1, 1, .w1c, 0⟩
def GEN_INT_STATUS_PHASE_REQ_REJ : Field := ⟨.genIntStatus, 2, 1, .w1c, 0⟩
def GEN_INT_STATUS_COUCH_RETRAIN : Field := ⟨.genIntStatus, 3, 1, .w1c, 0⟩
def GEN_INT_STATUS_COUCH_DOWN : Field := ⟨.genIntStatus, 4, 1, .w1c, 0⟩
def GEN_INT_STATUS_MATE_PRESENT_CHG : Field := ⟨.genIntStatus, 5, 1, .w1c, 0⟩
def GEN_INT_STATUS_ALIVE_IN_CHG : Field := ⟨.genIntStatus, 6, 1, .w1c, 0⟩
def GEN_INT_STATUS_THERMAL_WARN : Field := ⟨.genIntStatus, 7, 1, .w1c, 0⟩
def GEN_INT_STATUS_THERMAL_CRIT : Field := ⟨.genIntStatus, 8, 1, .w1c, 0⟩
def GEN_INT_STATUS_OFFLINE_ACC : Field := ⟨.genIntStatus, 9, 1, .w1c, 0⟩
-- GEN_PHASE: R99, spec/03_startup_reset.md
def GEN_PHASE_PHASE : Field := ⟨.genPhase, 0, 3, .ro, 1⟩
def GEN_PHASE_IMAGE : Field := ⟨.genPhase, 3, 1, .ro, 0⟩
def GEN_PHASE_ISO_CAUSE : Field := ⟨.genPhase, 8, 8, .ro, 0⟩
def GEN_PHASE_TEST_MAP : Field := ⟨.genPhase, 16, 16, .ro, 0⟩
def GEN_PHASE_BOOT_FAIL : Field := ⟨.genPhase, 32, 1, .ro, 0⟩
def GEN_PHASE_TEST_QX : Field := ⟨.genPhase, 33, 1, .ro, 0⟩
-- GEN_PHASE_CTRL: R100, spec/03_startup_reset.md
def GEN_PHASE_CTRL_REQ : Field := ⟨.genPhaseCtrl, 0, 3, .wo, 0⟩
-- GEN_DOMAIN_RESET: R101, spec/03_startup_reset.md
def GEN_DOMAIN_RESET_HOLD : Field := ⟨.genDomainReset, 0, 29, .rw, 0⟩
-- GEN_DOMAIN_STATUS: R102, spec/03_startup_reset.md
def GEN_DOMAIN_STATUS_READY : Field := ⟨.genDomainStatus, 0, 29, .ro, 0x1c000000⟩
def GEN_DOMAIN_STATUS_POWERED : Field := ⟨.genDomainStatus, 32, 29, .ro, 0x1c000000⟩
-- GEN_RESET_CTRL: R103, spec/03_startup_reset.md
def GEN_RESET_CTRL_COLD : Field := ⟨.genResetCtrl, 0, 1, .wo, 0⟩
def GEN_RESET_CTRL_WARM_QX : Field := ⟨.genResetCtrl, 1, 1, .wo, 0⟩
def GEN_RESET_CTRL_KEY : Field := ⟨.genResetCtrl, 16, 16, .wo, 0⟩
-- GEN_RESET_CAUSE: R104, spec/03_startup_reset.md
def GEN_RESET_CAUSE_POWER_ON : Field := ⟨.genResetCause, 0, 1, .w1c, 0⟩
def GEN_RESET_CAUSE_MOD_RESET : Field := ⟨.genResetCause, 1, 1, .w1c, 0⟩
def GEN_RESET_CAUSE_SW_COLD : Field := ⟨.genResetCause, 2, 1, .w1c, 0⟩
def GEN_RESET_CAUSE_PREV_THERMAL : Field := ⟨.genResetCause, 3, 1, .w1c, 0⟩
def GEN_RESET_CAUSE_PREV_POWER_FAIL : Field := ⟨.genResetCause, 4, 1, .w1c, 0⟩
def GEN_RESET_CAUSE_WARM_QX : Field := ⟨.genResetCause, 5, 1, .w1c, 0⟩
def GEN_RESET_CAUSE_ML_RESTART : Field := ⟨.genResetCause, 6, 1, .w1c, 0⟩
def GEN_RESET_CAUSE_HOST_RESET : Field := ⟨.genResetCause, 7, 1, .w1c, 0⟩
-- GEN_COUCH_STATUS: R37, spec/01_architecture.md
def GEN_COUCH_STATUS_STATE : Field := ⟨.genCouchStatus, 0, 2, .ro, 0⟩
def GEN_COUCH_STATUS_REPLAYING : Field := ⟨.genCouchStatus, 2, 1, .ro, 0⟩
def GEN_COUCH_STATUS_RETRAINS : Field := ⟨.genCouchStatus, 8, 8, .ro, 0⟩
-- GEN_COUCH_CRC_ERR: R38, spec/01_architecture.md
def GEN_COUCH_CRC_ERR_COUNT : Field := ⟨.genCouchCrcErr, 0, 48, .rc, 0⟩
-- GEN_COUCH_RETRY: R38, spec/01_architecture.md
def GEN_COUCH_RETRY_COUNT : Field := ⟨.genCouchRetry, 0, 48, .rc, 0⟩
-- GEN_OFFLINE_ACC: R42, spec/01_architecture.md
def GEN_OFFLINE_ACC_OFFSET : Field := ⟨.genOfflineAcc, 0, 28, .ro, 0⟩
def GEN_OFFLINE_ACC_DOMAIN : Field := ⟨.genOfflineAcc, 28, 5, .ro, 0⟩
def GEN_OFFLINE_ACC_WRITE : Field := ⟨.genOfflineAcc, 33, 1, .ro, 0⟩
def GEN_OFFLINE_ACC_COUCH : Field := ⟨.genOfflineAcc, 34, 1, .ro, 0⟩
def GEN_OFFLINE_ACC_REQ : Field := ⟨.genOfflineAcc, 35, 3, .ro, 0⟩
def GEN_OFFLINE_ACC_COUNT : Field := ⟨.genOfflineAcc, 48, 16, .rc, 0⟩
-- GEN_PIN_STATUS: R74, spec/02_module.md
def GEN_PIN_STATUS_SLOT_ID : Field := ⟨.genPinStatus, 0, 6, .ro, 0⟩
def GEN_PIN_STATUS_MATE_PRESENT : Field := ⟨.genPinStatus, 6, 1, .ro, 0⟩
def GEN_PIN_STATUS_ALIVE_IN : Field := ⟨.genPinStatus, 7, 1, .ro, 0⟩
def GEN_PIN_STATUS_ALIVE_OUT : Field := ⟨.genPinStatus, 8, 1, .ro, 0⟩
def GEN_PIN_STATUS_PERST : Field := ⟨.genPinStatus, 9, 1, .ro, 0⟩
def GEN_PIN_STATUS_SAMPLED : Field := ⟨.genPinStatus, 15, 1, .ro, 0⟩
-- PCE_LINK_STATUS: R134, spec/04_host_pcie.md
def PCE_LINK_STATUS_RATE : Field := ⟨.pceLinkStatus, 0, 3, .ro, 0⟩
def PCE_LINK_STATUS_WIDTH : Field := ⟨.pceLinkStatus, 3, 4, .ro, 0⟩
def PCE_LINK_STATUS_FLIT : Field := ⟨.pceLinkStatus, 7, 1, .ro, 0⟩
def PCE_LINK_STATUS_LTSSM : Field := ⟨.pceLinkStatus, 8, 8, .ro, 0⟩
def PCE_LINK_STATUS_RETRAINS : Field := ⟨.pceLinkStatus, 16, 8, .ro, 0⟩
-- PCE_INT_STATUS: R135, spec/04_host_pcie.md
def PCE_INT_STATUS_UR_LOGGED : Field := ⟨.pceIntStatus, 0, 1, .w1c, 0⟩
def PCE_INT_STATUS_WIN_CFG_VIOL : Field := ⟨.pceIntStatus, 1, 1, .w1c, 0⟩
def PCE_INT_STATUS_UIE : Field := ⟨.pceIntStatus, 2, 1, .w1c, 0⟩
def PCE_INT_STATUS_LINK_CHG : Field := ⟨.pceIntStatus, 3, 1, .w1c, 0⟩
def PCE_INT_STATUS_DL_DOWN : Field := ⟨.pceIntStatus, 4, 1, .w1c, 0⟩
-- PCE_UR_LOG_ADDR: R136, spec/04_host_pcie.md
def PCE_UR_LOG_ADDR_OFFSET : Field := ⟨.pceUrLogAddr, 0, 64, .ro, 0⟩
-- PCE_UR_LOG_INFO: R136, spec/04_host_pcie.md
def PCE_UR_LOG_INFO_REQ_ID : Field := ⟨.pceUrLogInfo, 0, 16, .ro, 0⟩
def PCE_UR_LOG_INFO_FUNC : Field := ⟨.pceUrLogInfo, 16, 1, .ro, 0⟩
def PCE_UR_LOG_INFO_BAR : Field := ⟨.pceUrLogInfo, 17, 1, .ro, 0⟩
def PCE_UR_LOG_INFO_TYPE : Field := ⟨.pceUrLogInfo, 18, 2, .ro, 0⟩
def PCE_UR_LOG_INFO_REASON : Field := ⟨.pceUrLogInfo, 20, 4, .ro, 0⟩
def PCE_UR_LOG_INFO_VALID : Field := ⟨.pceUrLogInfo, 24, 1, .rc, 0⟩
def PCE_UR_LOG_INFO_COUNT : Field := ⟨.pceUrLogInfo, 48, 16, .rc, 0⟩
-- PCE_TAG_CTRL: R137, spec/04_host_pcie.md
def PCE_TAG_CTRL_ALPHA : Field := ⟨.pceTagCtrl, 0, 4, .rw, 6⟩
-- PCE_WIN: R138, spec/04_host_pcie.md
def PCE_WIN_OPEN : Field := ⟨.pceWin, 0, 1, .rw, 0⟩
def PCE_WIN_WRITE_EN : Field := ⟨.pceWin, 1, 1, .rw, 0⟩
def PCE_WIN_SIZE : Field := ⟨.pceWin, 16, 13, .rw, 0⟩
def PCE_WIN_BASE : Field := ⟨.pceWin, 32, 21, .rw, 0⟩
-- PCE_WIN_GEN: R138, spec/04_host_pcie.md
def PCE_WIN_GEN_GEN : Field := ⟨.pceWinGen, 0, 32, .ro, 0⟩
def PCE_WIN_GEN_INFLIGHT : Field := ⟨.pceWinGen, 32, 16, .ro, 0⟩
-- PCE_CNT_WIN: R139, spec/04_host_pcie.md
def PCE_CNT_WIN_BASE : Field := ⟨.pceCntWin, 0, 16, .rw, 0⟩
def PCE_CNT_WIN_SPACE : Field := ⟨.pceCntWin, 16, 1, .rw, 0⟩
-- PCE_HWM_BASE: R139, spec/04_host_pcie.md
def PCE_HWM_BASE_BLOCK : Field := ⟨.pceHwmBase, 0, 3, .rw, 0⟩
-- PCE_DISCARD_CPL: R139, spec/04_host_pcie.md
def PCE_DISCARD_CPL_COUNT : Field := ⟨.pceDiscardCpl, 0, 48, .rc, 0⟩
-- PCE_POISON_RX: R139, spec/04_host_pcie.md
def PCE_POISON_RX_COUNT : Field := ⟨.pcePoisonRx, 0, 48, .rc, 0⟩
-- PCE_POISON_TX: R139, spec/04_host_pcie.md
def PCE_POISON_TX_COUNT : Field := ⟨.pcePoisonTx, 0, 48, .rc, 0⟩
-- RNG_ADDR: R156, spec/05_rings_mailboxes_locks.md
def RNG_ADDR_BASE : Field := ⟨.rngAddr, 12, 52, .rwx, 0⟩
-- RNG_CFG: R156, spec/05_rings_mailboxes_locks.md
def RNG_CFG_ENABLE : Field := ⟨.rngCfg, 0, 1, .rw, 0⟩
def RNG_CFG_SIZE : Field := ⟨.rngCfg, 4, 4, .rwx, 0⟩
def RNG_CFG_VECTOR : Field := ⟨.rngCfg, 8, 11, .rwx, 0⟩
def RNG_CFG_IRQ_EN : Field := ⟨.rngCfg, 19, 1, .rw, 0⟩
def RNG_CFG_COAL_COUNT : Field := ⟨.rngCfg, 24, 8, .rw, 1⟩
def RNG_CFG_COAL_TIME : Field := ⟨.rngCfg, 32, 12, .rw, 0⟩
def RNG_CFG_GUAR : Field := ⟨.rngCfg, 44, 2, .rwx, 1⟩
def RNG_CFG_SLICE : Field := ⟨.rngCfg, 48, 4, .rwx, 0⟩
-- RNG_STATE: R156, spec/05_rings_mailboxes_locks.md
def RNG_STATE_STATE : Field := ⟨.rngState, 0, 2, .ro, 0⟩
def RNG_STATE_HALT_CODE : Field := ⟨.rngState, 4, 4, .ro, 0⟩
def RNG_STATE_INFLIGHT : Field := ⟨.rngState, 16, 16, .ro, 0⟩
-- RNG_INT_STATUS: R157, spec/05_rings_mailboxes_locks.md
def RNG_INT_STATUS_RING_HALTED : Field := ⟨.rngIntStatus, 0, 1, .w1c, 0⟩
def RNG_INT_STATUS_GUAR_VIOL : Field := ⟨.rngIntStatus, 1, 1, .w1c, 0⟩
def RNG_INT_STATUS_EVT_LOST : Field := ⟨.rngIntStatus, 2, 1, .w1c, 0⟩
def RNG_INT_STATUS_CFG_VIOLATION : Field := ⟨.rngIntStatus, 3, 1, .w1c, 0⟩
-- RNG_DMA_CTRL: R157, spec/05_rings_mailboxes_locks.md
def RNG_DMA_CTRL_ALPHA : Field := ⟨.rngDmaCtrl, 0, 4, .rw, 6⟩
-- RNG_HALT_LOG: R157, spec/05_rings_mailboxes_locks.md
def RNG_HALT_LOG_RING : Field := ⟨.rngHaltLog, 0, 14, .rc, 0⟩
def RNG_HALT_LOG_CODE : Field := ⟨.rngHaltLog, 14, 4, .rc, 0⟩
def RNG_HALT_LOG_COUNT : Field := ⟨.rngHaltLog, 48, 16, .rc, 0⟩
-- RNG_EVT_MAP: R157, spec/05_rings_mailboxes_locks.md
def RNG_EVT_MAP_RING : Field := ⟨.rngEvtMap, 0, 10, .rw, 0⟩
def RNG_EVT_MAP_EN : Field := ⟨.rngEvtMap, 15, 1, .rw, 0⟩
-- MBX_H2M_PTR: R167, spec/05_rings_mailboxes_locks.md
def MBX_H2M_PTR_ADDR : Field := ⟨.mbxH2mPtr, 3, 61, .rw, 0⟩
-- MBX_H2M_POST: R167, spec/05_rings_mailboxes_locks.md
def MBX_H2M_POST_LEN : Field := ⟨.mbxH2mPost, 0, 16, .wo, 0⟩
def MBX_H2M_POST_TAG : Field := ⟨.mbxH2mPost, 16, 8, .wo, 0⟩
def MBX_H2M_POST_SEQ : Field := ⟨.mbxH2mPost, 24, 8, .wo, 0⟩
-- MBX_H2M_STAT: R167, spec/05_rings_mailboxes_locks.md
def MBX_H2M_STAT_FULL : Field := ⟨.mbxH2mStat, 0, 1, .ro, 0⟩
def MBX_H2M_STAT_COLLISION : Field := ⟨.mbxH2mStat, 1, 1, .w1c, 0⟩
def MBX_H2M_STAT_TIMEOUT : Field := ⟨.mbxH2mStat, 2, 1, .w1c, 0⟩
def MBX_H2M_STAT_CROSS : Field := ⟨.mbxH2mStat, 3, 1, .ro, 0⟩
def MBX_H2M_STAT_ACK_CODE : Field := ⟨.mbxH2mStat, 8, 8, .ro, 0⟩
def MBX_H2M_STAT_ACK_SEQ : Field := ⟨.mbxH2mStat, 16, 8, .ro, 0⟩
-- MBX_M2H_PTR: R167, spec/05_rings_mailboxes_locks.md
def MBX_M2H_PTR_ADDR : Field := ⟨.mbxM2hPtr, 0, 64, .ro, 0⟩
-- MBX_M2H_NOTE: R167, spec/05_rings_mailboxes_locks.md
def MBX_M2H_NOTE_LEN : Field := ⟨.mbxM2hNote, 0, 16, .ro, 0⟩
def MBX_M2H_NOTE_TAG : Field := ⟨.mbxM2hNote, 16, 8, .ro, 0⟩
def MBX_M2H_NOTE_SEQ : Field := ⟨.mbxM2hNote, 24, 8, .ro, 0⟩
def MBX_M2H_NOTE_FULL : Field := ⟨.mbxM2hNote, 32, 1, .ro, 0⟩
-- MBX_M2H_TAKE: R167, spec/05_rings_mailboxes_locks.md
def MBX_M2H_TAKE_TAKE : Field := ⟨.mbxM2hTake, 0, 1, .wo, 0⟩
def MBX_M2H_TAKE_CODE : Field := ⟨.mbxM2hTake, 8, 8, .wo, 0⟩
-- MBX_MODE: R167, spec/05_rings_mailboxes_locks.md
def MBX_MODE_FR_ACK : Field := ⟨.mbxMode, 0, 1, .rwx, 0⟩
-- MBX_INT_STATUS: R168, spec/05_rings_mailboxes_locks.md
def MBX_INT_STATUS_H2M_EMPTY : Field := ⟨.mbxIntStatus, 0, 8, .w1c, 0⟩
def MBX_INT_STATUS_M2H_NOTICE : Field := ⟨.mbxIntStatus, 8, 8, .w1c, 0⟩
def MBX_INT_STATUS_COLLISION : Field := ⟨.mbxIntStatus, 16, 8, .w1c, 0⟩
def MBX_INT_STATUS_TIMEOUT : Field := ⟨.mbxIntStatus, 24, 8, .w1c, 0⟩
def MBX_INT_STATUS_CROSS : Field := ⟨.mbxIntStatus, 32, 8, .w1c, 0⟩
def MBX_INT_STATUS_CFG_VIOLATION : Field := ⟨.mbxIntStatus, 40, 1, .w1c, 0⟩
-- MBX_SVC_CTRL: R168, spec/05_rings_mailboxes_locks.md
def MBX_SVC_CTRL_ALPHA : Field := ⟨.mbxSvcCtrl, 0, 4, .rw, 6⟩
-- SEM_LOCK: R173, spec/05_rings_mailboxes_locks.md
def SEM_LOCK_OWNER : Field := ⟨.semLock, 0, 8, .ro, 0⟩
-- SEM_RELEASE: R173, spec/05_rings_mailboxes_locks.md
def SEM_RELEASE_REL : Field := ⟨.semRelease, 0, 1, .wo, 0⟩
def SEM_RELEASE_FORCE : Field := ⟨.semRelease, 1, 1, .wo, 0⟩
-- SEM_HELD: R173, spec/05_rings_mailboxes_locks.md
def SEM_HELD_HELD : Field := ⟨.semHeld, 0, 64, .ro, 0⟩
-- SEM_FOREIGN: R173, spec/05_rings_mailboxes_locks.md
def SEM_FOREIGN_COUNT : Field := ⟨.semForeign, 0, 48, .rc, 0⟩
-- SEM_INT_STATUS: R173, spec/05_rings_mailboxes_locks.md
def SEM_INT_STATUS_AUTO_REL : Field := ⟨.semIntStatus, 0, 1, .w1c, 0⟩
-- TIM_INT_STATUS: R527, spec/17_time.md
def TIM_INT_STATUS_STATE_CHG : Field := ⟨.timIntStatus, 0, 1, .w1c, 0⟩
def TIM_INT_STATUS_STEPPED : Field := ⟨.timIntStatus, 1, 1, .w1c, 0⟩
def TIM_INT_STATUS_SRC_LOST : Field := ⟨.timIntStatus, 2, 1, .w1c, 0⟩
def TIM_INT_STATUS_TOD_ERR : Field := ⟨.timIntStatus, 3, 1, .w1c, 0⟩
def TIM_INT_STATUS_SYNCE_SQUELCH : Field := ⟨.timIntStatus, 4, 1, .w1c, 0⟩
def TIM_INT_STATUS_CFG_VIOLATION : Field := ⟨.timIntStatus, 5, 1, .w1c, 0⟩
-- TIM_APPLY: R380, spec/12_buffering.md
def TIM_APPLY_GO : Field := ⟨.timApply, 0, 1, .wo, 0⟩
def TIM_APPLY_PENDING : Field := ⟨.timApply, 1, 1, .ro, 0⟩
-- TIM_CTRL: R528, spec/17_time.md
def TIM_CTRL_SRC : Field := ⟨.timCtrl, 0, 2, .rws, 0⟩
def TIM_CTRL_FAB_MASTER : Field := ⟨.timCtrl, 2, 1, .rws, 0⟩
def TIM_CTRL_REF10M_EN : Field := ⟨.timCtrl, 3, 1, .rws, 0⟩
def TIM_CTRL_MASTER_ID : Field := ⟨.timCtrl, 4, 11, .rws, 0⟩
def TIM_CTRL_LOG_RATE : Field := ⟨.timCtrl, 15, 3, .rws, 4⟩
def TIM_CTRL_FILTER_NS : Field := ⟨.timCtrl, 18, 14, .rws, 0x32⟩
def TIM_CTRL_STEP_NS : Field := ⟨.timCtrl, 32, 16, .rws, 0x3e8⟩
def TIM_CTRL_LOCK_NS : Field := ⟨.timCtrl, 48, 16, .rws, 0x64⟩
-- TIM_CAL: R528, spec/17_time.md
def TIM_CAL_ASYM : Field := ⟨.timCal, 0, 16, .rws, 0⟩
def TIM_CAL_PPS_IN_DELAY : Field := ⟨.timCal, 16, 16, .rws, 0⟩
def TIM_CAL_PPS_OUT_ADV : Field := ⟨.timCal, 32, 16, .rws, 0⟩
-- TIM_STATUS: R528, spec/17_time.md
def TIM_STATUS_STATE : Field := ⟨.timStatus, 0, 2, .ro, 0⟩
def TIM_STATUS_REF10M_OK : Field := ⟨.timStatus, 2, 1, .ro, 0⟩
def TIM_STATUS_HOLD_SEC : Field := ⟨.timStatus, 16, 16, .ro, 0⟩
def TIM_STATUS_OFFSET : Field := ⟨.timStatus, 32, 32, .ro, 0⟩
-- TIM_NOW_SEC: R528, spec/17_time.md
def TIM_NOW_SEC_SEC : Field := ⟨.timNowSec, 0, 48, .ro, 0⟩
-- TIM_NOW_NS: R528, spec/17_time.md
def TIM_NOW_NS_FRAC : Field := ⟨.timNowNs, 0, 16, .ro, 0⟩
def TIM_NOW_NS_NS : Field := ⟨.timNowNs, 16, 32, .ro, 0⟩
-- TIM_ADJ: R529, spec/17_time.md
def TIM_ADJ_PHASE : Field := ⟨.timAdj, 0, 32, .wo, 0⟩
def TIM_ADJ_STEP : Field := ⟨.timAdj, 32, 1, .wo, 0⟩
def TIM_ADJ_LOAD : Field := ⟨.timAdj, 33, 1, .wo, 0⟩
-- TIM_FREQ: R529, spec/17_time.md
def TIM_FREQ_PPB : Field := ⟨.timFreq, 0, 40, .rw, 0⟩
-- TIM_LOAD_SEC: R529, spec/17_time.md
def TIM_LOAD_SEC_SEC : Field := ⟨.timLoadSec, 0, 48, .rw, 0⟩
-- TIM_FAB_DISCARD: R530, spec/17_time.md
def TIM_FAB_DISCARD_COUNT : Field := ⟨.timFabDiscard, 0, 48, .rc, 0⟩
-- TIM_SYNCE: R530, spec/17_time.md
def TIM_SYNCE_LANE : Field := ⟨.timSynce, 0, 8, .rw, 0⟩
def TIM_SYNCE_FREQ : Field := ⟨.timSynce, 8, 2, .rw, 0⟩
def TIM_SYNCE_SQUELCH_EN : Field := ⟨.timSynce, 10, 1, .rw, 1⟩
def TIM_SYNCE_SQUELCHED : Field := ⟨.timSynce, 11, 1, .ro, 0⟩
-- PRT_INT_STATUS: R562, spec/18_protection.md
def PRT_INT_STATUS_SWITCHED : Field := ⟨.prtIntStatus, 0, 1, .w1c, 0⟩
def PRT_INT_STATUS_MATE_CLAIMED : Field := ⟨.prtIntStatus, 1, 1, .w1c, 0⟩
def PRT_INT_STATUS_PAIR_STATE_CHG : Field := ⟨.prtIntStatus, 2, 1, .w1c, 0⟩
def PRT_INT_STATUS_FELT_CHG : Field := ⟨.prtIntStatus, 3, 1, .w1c, 0⟩
def PRT_INT_STATUS_MISMATCH : Field := ⟨.prtIntStatus, 4, 1, .w1c, 0⟩
def PRT_INT_STATUS_DIVERGENCE : Field := ⟨.prtIntStatus, 5, 1, .w1c, 0⟩
def PRT_INT_STATUS_SELFTEST_ALARM : Field := ⟨.prtIntStatus, 6, 1, .w1c, 0⟩
def PRT_INT_STATUS_ALIVE_FAULT : Field := ⟨.prtIntStatus, 7, 1, .w1c, 0⟩
def PRT_INT_STATUS_SWITCH_BLOCKED : Field := ⟨.prtIntStatus, 8, 1, .w1c, 0⟩
def PRT_INT_STATUS_RECOVERY_DONE : Field := ⟨.prtIntStatus, 9, 1, .w1c, 0⟩
def PRT_INT_STATUS_HEALTH_CHG : Field := ⟨.prtIntStatus, 10, 1, .w1c, 0⟩
def PRT_INT_STATUS_CFG_VIOLATION : Field := ⟨.prtIntStatus, 11, 1, .w1c, 0⟩
-- PRT_APPLY: R380, spec/12_buffering.md
def PRT_APPLY_GO : Field := ⟨.prtApply, 0, 1, .wo, 0⟩
def PRT_APPLY_PENDING : Field := ⟨.prtApply, 1, 1, .ro, 0⟩
-- PRT_CTRL: R563, spec/18_protection.md
def PRT_CTRL_LANE_EN : Field := ⟨.prtCtrl, 0, 4, .rw, 0xf⟩
def PRT_CTRL_TX_INV : Field := ⟨.prtCtrl, 4, 4, .rw, 0⟩
def PRT_CTRL_RX_INV : Field := ⟨.prtCtrl, 8, 4, .rw, 0⟩
def PRT_CTRL_INGRESS_GAP : Field := ⟨.prtCtrl, 16, 16, .rws, 0x3e8⟩
def PRT_CTRL_DRAIN_MAX : Field := ⟨.prtCtrl, 32, 16, .rws, 0x3e8⟩
-- PRT_STATUS: R563, spec/18_protection.md
def PRT_STATUS_PAIR_STATE : Field := ⟨.prtStatus, 0, 3, .ro, 0⟩
def PRT_STATUS_RECOVERING : Field := ⟨.prtStatus, 3, 1, .ro, 0⟩
def PRT_STATUS_LEADER : Field := ⟨.prtStatus, 4, 1, .ro, 0⟩
def PRT_STATUS_LANES_LOCKED : Field := ⟨.prtStatus, 5, 4, .ro, 0⟩
def PRT_STATUS_FELT_UP : Field := ⟨.prtStatus, 9, 1, .ro, 0⟩
def PRT_STATUS_FAB_UP : Field := ⟨.prtStatus, 10, 1, .ro, 0⟩
def PRT_STATUS_FAST : Field := ⟨.prtStatus, 11, 1, .ro, 0⟩
def PRT_STATUS_ALIVE_FAULT : Field := ⟨.prtStatus, 12, 1, .ro, 0⟩
-- PRT_RECOVERY: R563, spec/18_protection.md
def PRT_RECOVERY_DONE : Field := ⟨.prtRecovery, 0, 1, .wo, 0⟩
-- PRT_HEALTH: R564, spec/18_protection.md
def PRT_HEALTH_SLICE_FAIL : Field := ⟨.prtHealth, 0, 16, .ro, 0⟩
def PRT_HEALTH_SCHED_FAIL : Field := ⟨.prtHealth, 16, 1, .w1c, 0⟩
def PRT_HEALTH_BUF_FAIL : Field := ⟨.prtHealth, 17, 1, .w1c, 0⟩
def PRT_HEALTH_SPARE_FAIL : Field := ⟨.prtHealth, 18, 1, .w1c, 0⟩
def PRT_HEALTH_ASA_FAIL : Field := ⟨.prtHealth, 19, 1, .w1c, 0⟩
def PRT_HEALTH_COUCH : Field := ⟨.prtHealth, 20, 1, .w1c, 0⟩
def PRT_HEALTH_LOCKSTEP : Field := ⟨.prtHealth, 21, 1, .w1c, 0⟩
def PRT_HEALTH_DIVERGENCES : Field := ⟨.prtHealth, 32, 16, .rc, 0⟩
-- PRT_MATE_HEALTH: R564, spec/18_protection.md
def PRT_MATE_HEALTH_SLICE_FAIL : Field := ⟨.prtMateHealth, 0, 16, .ro, 0⟩
def PRT_MATE_HEALTH_SCHED_FAIL : Field := ⟨.prtMateHealth, 16, 1, .ro, 0⟩
def PRT_MATE_HEALTH_BUF_FAIL : Field := ⟨.prtMateHealth, 17, 1, .ro, 0⟩
def PRT_MATE_HEALTH_SPARE_FAIL : Field := ⟨.prtMateHealth, 18, 1, .ro, 0⟩
def PRT_MATE_HEALTH_ASA_FAIL : Field := ⟨.prtMateHealth, 19, 1, .ro, 0⟩
def PRT_MATE_HEALTH_COUCH : Field := ⟨.prtMateHealth, 20, 1, .ro, 0⟩
def PRT_MATE_HEALTH_LOCKSTEP : Field := ⟨.prtMateHealth, 21, 1, .ro, 0⟩
def PRT_MATE_HEALTH_DIVERGENCES : Field := ⟨.prtMateHealth, 32, 16, .ro, 0⟩
-- PRT_SHADOW_DISCARD: R565, spec/18_protection.md
def PRT_SHADOW_DISCARD_COUNT : Field := ⟨.prtShadowDiscard, 0, 48, .rc, 0⟩
-- PRT_SWITCH_DISCARD: R565, spec/18_protection.md
def PRT_SWITCH_DISCARD_COUNT : Field := ⟨.prtSwitchDiscard, 0, 48, .rc, 0⟩
-- PRT_FELT_ERR: R565, spec/18_protection.md
def PRT_FELT_ERR_COUNT : Field := ⟨.prtFeltErr, 0, 48, .rc, 0⟩
-- PRT_GROUP_CFG: R566, spec/18_protection.md
def PRT_GROUP_CFG_EN : Field := ⟨.prtGroupCfg, 0, 1, .rw, 0⟩
def PRT_GROUP_CFG_REVERTIVE : Field := ⟨.prtGroupCfg, 1, 1, .rwx, 0⟩
def PRT_GROUP_CFG_HOME : Field := ⟨.prtGroupCfg, 2, 1, .rwx, 0⟩
def PRT_GROUP_CFG_CMD : Field := ⟨.prtGroupCfg, 4, 2, .rw, 0⟩
def PRT_GROUP_CFG_WTR : Field := ⟨.prtGroupCfg, 8, 12, .rws, 0x12c⟩
-- PRT_GROUP_STATUS: R566, spec/18_protection.md
def PRT_GROUP_STATUS_ACTIVE : Field := ⟨.prtGroupStatus, 0, 1, .ro, 0⟩
def PRT_GROUP_STATUS_LEVEL : Field := ⟨.prtGroupStatus, 1, 2, .ro, 0⟩
def PRT_GROUP_STATUS_MATE_LEVEL : Field := ⟨.prtGroupStatus, 3, 2, .ro, 0⟩
def PRT_GROUP_STATUS_REQ : Field := ⟨.prtGroupStatus, 5, 3, .ro, 0⟩
def PRT_GROUP_STATUS_WTR_LEFT : Field := ⟨.prtGroupStatus, 8, 12, .ro, 0⟩
def PRT_GROUP_STATUS_SWITCHES : Field := ⟨.prtGroupStatus, 24, 16, .ro, 0⟩
-- PRT_SLICE_STATUS: R568, spec/18_protection.md
def PRT_SLICE_STATUS_RUN : Field := ⟨.prtSliceStatus, 0, 2, .ro, 0⟩
def PRT_SLICE_STATUS_TESTING : Field := ⟨.prtSliceStatus, 2, 1, .ro, 0⟩
def PRT_SLICE_STATUS_LAST_TEST : Field := ⟨.prtSliceStatus, 3, 3, .ro, 0⟩
def PRT_SLICE_STATUS_LAST_NC : Field := ⟨.prtSliceStatus, 6, 3, .ro, 0⟩
def PRT_SLICE_STATUS_EPOCH : Field := ⟨.prtSliceStatus, 32, 32, .ro, 0⟩
-- PRT_CMP: R568, spec/18_protection.md
def PRT_CMP_COUNT : Field := ⟨.prtCmp, 0, 48, .rc, 0⟩
-- PRT_GROUP_MEMBERS: R567, spec/18_protection.md
def PRT_GROUP_MEMBERS_PORTS : Field := ⟨.prtGroupMembers, 0, 64, .rwx, 0⟩
-- PRT_GROUP_FLEXE: R567, spec/18_protection.md
def PRT_GROUP_FLEXE_FLEXE : Field := ⟨.prtGroupFlexe, 0, 32, .rwx, 0⟩
-- MIL_STATUS: R596, spec/19_mill.md
def MIL_STATUS_READY : Field := ⟨.milStatus, 0, 1, .ro, 0⟩
def MIL_STATUS_IMAGE : Field := ⟨.milStatus, 1, 1, .ro, 0⟩
def MIL_STATUS_BOOT_ROM : Field := ⟨.milStatus, 2, 1, .ro, 0⟩
def MIL_STATUS_DEBUG : Field := ⟨.milStatus, 3, 1, .ro, 0⟩
def MIL_STATUS_ROLLBACK : Field := ⟨.milStatus, 8, 8, .ro, 0⟩
def MIL_STATUS_FW_VERSION : Field := ⟨.milStatus, 16, 32, .ro, 0⟩
def MIL_STATUS_RESTARTS : Field := ⟨.milStatus, 48, 16, .ro, 0⟩
-- MIL_CTRL: R596, spec/19_mill.md
def MIL_CTRL_NOTE_MASK : Field := ⟨.milCtrl, 0, 8, .rw, 0⟩
-- MIL_INT_STATUS: R597, spec/19_mill.md
def MIL_INT_STATUS_MILL_RESTART : Field := ⟨.milIntStatus, 0, 1, .w1c, 0⟩
def MIL_INT_STATUS_FW_ACTIVATED : Field := ⟨.milIntStatus, 1, 1, .w1c, 0⟩
def MIL_INT_STATUS_FW_FALLBACK : Field := ⟨.milIntStatus, 2, 1, .w1c, 0⟩
def MIL_INT_STATUS_LOG_SUPPRESSED : Field := ⟨.milIntStatus, 3, 1, .w1c, 0⟩
def MIL_INT_STATUS_SENSOR_FAIL : Field := ⟨.milIntStatus, 4, 1, .w1c, 0⟩
def MIL_INT_STATUS_TAG_WORN : Field := ⟨.milIntStatus, 5, 1, .w1c, 0⟩
-- MIL_SMB_ERR: R596, spec/19_mill.md
def MIL_SMB_ERR_COUNT : Field := ⟨.milSmbErr, 0, 48, .rc, 0⟩
-- DSC_STATUS: R605, spec/20_register_map.md
def DSC_STATUS_PASSES : Field := ⟨.dscStatus, 0, 32, .ro, 0⟩
def DSC_STATUS_LAST_MS : Field := ⟨.dscStatus, 32, 16, .ro, 0⟩
-- LIN_SLICE_CTRL: R183, spec/06_line_flexe.md
def LIN_SLICE_CTRL_RUN : Field := ⟨.linSliceCtrl, 0, 1, .rw, 0⟩
def LIN_SLICE_CTRL_STOPPED : Field := ⟨.linSliceCtrl, 1, 1, .ro, 1⟩
def LIN_SLICE_CTRL_MAP : Field := ⟨.linSliceCtrl, 4, 4, .rwx, 0⟩
-- LIN_INT_STATUS: R183, spec/06_line_flexe.md
def LIN_INT_STATUS_LINK_CHG : Field := ⟨.linIntStatus, 0, 16, .w1c, 0⟩
def LIN_INT_STATUS_CFG_VIOLATION : Field := ⟨.linIntStatus, 16, 1, .w1c, 0⟩
-- LIN_LANE_CFG: R184, spec/06_line_flexe.md
def LIN_LANE_CFG_TX_INV : Field := ⟨.linLaneCfg, 0, 1, .rwx, 0⟩
def LIN_LANE_CFG_RX_INV : Field := ⟨.linLaneCfg, 1, 1, .rwx, 0⟩
def LIN_LANE_CFG_TX_PRESET : Field := ⟨.linLaneCfg, 8, 4, .rwx, 0⟩
-- LIN_PORT_CFG: R185, spec/06_line_flexe.md
def LIN_PORT_CFG_ENABLE : Field := ⟨.linPortCfg, 0, 1, .rw, 0⟩
def LIN_PORT_CFG_FLEXE : Field := ⟨.linPortCfg, 1, 1, .rwx, 0⟩
def LIN_PORT_CFG_PFC_EN : Field := ⟨.linPortCfg, 8, 8, .rw, 0⟩
def LIN_PORT_CFG_MAX_FRAME : Field := ⟨.linPortCfg, 16, 14, .rw, 0x2600⟩
def LIN_PORT_CFG_PFC_QUANTA : Field := ⟨.linPortCfg, 32, 16, .rw, 0xffff⟩
-- LIN_PORT_STATUS: R186, spec/06_line_flexe.md
def LIN_PORT_STATUS_LINK_UP : Field := ⟨.linPortStatus, 0, 1, .ro, 0⟩
def LIN_PORT_STATUS_LOCAL_FAULT : Field := ⟨.linPortStatus, 1, 1, .ro, 0⟩
def LIN_PORT_STATUS_REMOTE_FAULT : Field := ⟨.linPortStatus, 2, 1, .ro, 0⟩
def LIN_PORT_STATUS_PAUSED : Field := ⟨.linPortStatus, 8, 8, .ro, 0⟩
-- LIN_RX_DISCARD: R186, spec/06_line_flexe.md
def LIN_RX_DISCARD_COUNT : Field := ⟨.linRxDiscard, 0, 48, .rc, 0⟩
-- LIN_PFC_RX: R186, spec/06_line_flexe.md
def LIN_PFC_RX_COUNT : Field := ⟨.linPfcRx, 0, 48, .rc, 0⟩
-- LIN_PFC_TX: R186, spec/06_line_flexe.md
def LIN_PFC_TX_COUNT : Field := ⟨.linPfcTx, 0, 48, .rc, 0⟩
-- LIN_COUCH_DISCARD: R186, spec/06_line_flexe.md
def LIN_COUCH_DISCARD_COUNT : Field := ⟨.linCouchDiscard, 0, 48, .rc, 0⟩
-- LIN_RX_FCS_ERR: R187, spec/06_line_flexe.md
def LIN_RX_FCS_ERR_COUNT : Field := ⟨.linRxFcsErr, 0, 48, .rc, 0⟩
-- LIN_RX_RUNT: R187, spec/06_line_flexe.md
def LIN_RX_RUNT_COUNT : Field := ⟨.linRxRunt, 0, 48, .rc, 0⟩
-- LIN_RX_OVERSIZE: R187, spec/06_line_flexe.md
def LIN_RX_OVERSIZE_COUNT : Field := ⟨.linRxOversize, 0, 48, .rc, 0⟩
-- FLX_INT_STATUS: R200, spec/06_line_flexe.md
def FLX_INT_STATUS_CFG_VIOLATION : Field := ⟨.flxIntStatus, 0, 1, .w1c, 0⟩
def FLX_INT_STATUS_CAL_FAIL : Field := ⟨.flxIntStatus, 1, 1, .w1c, 0⟩
def FLX_INT_STATUS_CAL_SWITCHED : Field := ⟨.flxIntStatus, 2, 1, .w1c, 0⟩
def FLX_INT_STATUS_XC_SWITCHED : Field := ⟨.flxIntStatus, 3, 1, .w1c, 0⟩
def FLX_INT_STATUS_XC_LATE : Field := ⟨.flxIntStatus, 4, 1, .w1c, 0⟩
def FLX_INT_STATUS_XC_FAB_LOSS : Field := ⟨.flxIntStatus, 5, 1, .w1c, 0⟩
-- FLX_XC_CTRL: R204, spec/06_line_flexe.md
def FLX_XC_CTRL_ARM : Field := ⟨.flxXcCtrl, 0, 1, .wo, 0⟩
def FLX_XC_CTRL_DISARM : Field := ⟨.flxXcCtrl, 1, 1, .wo, 0⟩
def FLX_XC_CTRL_COPY : Field := ⟨.flxXcCtrl, 2, 1, .wo, 0⟩
def FLX_XC_CTRL_MODE : Field := ⟨.flxXcCtrl, 3, 1, .rw, 0⟩
def FLX_XC_CTRL_CAL_GROUP : Field := ⟨.flxXcCtrl, 4, 5, .rw, 0⟩
def FLX_XC_CTRL_PLAYOUT : Field := ⟨.flxXcCtrl, 16, 6, .rw, 0x10⟩
-- FLX_XC_TIME: R204, spec/06_line_flexe.md
def FLX_XC_TIME_SEC : Field := ⟨.flxXcTime, 0, 32, .rw, 0⟩
def FLX_XC_TIME_NS : Field := ⟨.flxXcTime, 32, 30, .rw, 0⟩
-- FLX_XC_STATUS: R204, spec/06_line_flexe.md
def FLX_XC_STATUS_ACTIVE : Field := ⟨.flxXcStatus, 0, 1, .ro, 0⟩
def FLX_XC_STATUS_ARMED : Field := ⟨.flxXcStatus, 1, 1, .ro, 0⟩
def FLX_XC_STATUS_COPY_BUSY : Field := ⟨.flxXcStatus, 2, 1, .ro, 0⟩
def FLX_XC_STATUS_SWITCHES : Field := ⟨.flxXcStatus, 16, 8, .ro, 0⟩
def FLX_XC_STATUS_WR_VIOL : Field := ⟨.flxXcStatus, 24, 8, .rc, 0⟩
def FLX_XC_STATUS_LATE : Field := ⟨.flxXcStatus, 32, 8, .rc, 0⟩
def FLX_XC_STATUS_SRC_ERR : Field := ⟨.flxXcStatus, 40, 8, .rc, 0⟩
def FLX_XC_STATUS_FAB_LOSS : Field := ⟨.flxXcStatus, 48, 16, .rc, 0⟩
-- FLX_GROUP_CFG: R200, spec/06_line_flexe.md
def FLX_GROUP_CFG_EN : Field := ⟨.flxGroupCfg, 0, 1, .rw, 0⟩
def FLX_GROUP_CFG_CAL_REQ : Field := ⟨.flxGroupCfg, 1, 1, .wo, 0⟩
def FLX_GROUP_CFG_CAL_ACTIVE : Field := ⟨.flxGroupCfg, 2, 1, .ro, 0⟩
def FLX_GROUP_CFG_GROUP_NUM : Field := ⟨.flxGroupCfg, 8, 20, .rwx, 0⟩
-- FLX_GROUP_PHY: R201, spec/06_line_flexe.md
def FLX_GROUP_PHY_VALID : Field := ⟨.flxGroupPhy, 0, 1, .rwx, 0⟩
def FLX_GROUP_PHY_PORT : Field := ⟨.flxGroupPhy, 8, 8, .rwx, 0⟩
def FLX_GROUP_PHY_PHY_NUM : Field := ⟨.flxGroupPhy, 16, 8, .rwx, 0⟩
-- FLX_CLIENT: R202, spec/06_line_flexe.md
def FLX_CLIENT_EN : Field := ⟨.flxClient, 0, 1, .rw, 0⟩
def FLX_CLIENT_TERM : Field := ⟨.flxClient, 1, 1, .rwx, 0⟩
def FLX_CLIENT_GROUP : Field := ⟨.flxClient, 4, 5, .rwx, 0⟩
def FLX_CLIENT_WIRE_ID : Field := ⟨.flxClient, 16, 16, .rwx, 0⟩
def FLX_CLIENT_PORT : Field := ⟨.flxClient, 32, 8, .rwx, 0⟩
def FLX_CLIENT_MAX_FRAME : Field := ⟨.flxClient, 40, 14, .rwx, 0x2600⟩
-- FLX_CKT: R202, spec/06_line_flexe.md
def FLX_CKT_EN : Field := ⟨.flxCkt, 0, 1, .rw, 0⟩
def FLX_CKT_DEST_MOD : Field := ⟨.flxCkt, 8, 11, .rwx, 0⟩
def FLX_CKT_LAST_MEMBER : Field := ⟨.flxCkt, 24, 8, .rwx, 0⟩
-- FLX_XC_SBY0: R205, spec/06_line_flexe.md
def FLX_XC_SBY0_TX_SRC : Field := ⟨.flxXcSby0, 0, 2, .rw, 0⟩
def FLX_XC_SBY0_SRC_SLOT : Field := ⟨.flxXcSby0, 16, 14, .rw, 0⟩
def FLX_XC_SBY0_SRC_MOD : Field := ⟨.flxXcSby0, 32, 11, .rw, 0⟩
def FLX_XC_SBY0_SRC_CKT : Field := ⟨.flxXcSby0, 44, 12, .rw, 0⟩
def FLX_XC_SBY0_SRC_MEMBER : Field := ⟨.flxXcSby0, 56, 8, .rw, 0⟩
-- FLX_XC_SBY1: R205, spec/06_line_flexe.md
def FLX_XC_SBY1_RX_FAB : Field := ⟨.flxXcSby1, 0, 1, .rw, 0⟩
def FLX_XC_SBY1_RX_CKT : Field := ⟨.flxXcSby1, 16, 12, .rw, 0⟩
def FLX_XC_SBY1_RX_MEMBER : Field := ⟨.flxXcSby1, 32, 8, .rw, 0⟩
-- FLX_XC_ACT0: R205, spec/06_line_flexe.md
def FLX_XC_ACT0_TX_SRC : Field := ⟨.flxXcAct0, 0, 2, .ro, 0⟩
def FLX_XC_ACT0_SRC_SLOT : Field := ⟨.flxXcAct0, 16, 14, .ro, 0⟩
def FLX_XC_ACT0_SRC_MOD : Field := ⟨.flxXcAct0, 32, 11, .ro, 0⟩
def FLX_XC_ACT0_SRC_CKT : Field := ⟨.flxXcAct0, 44, 12, .ro, 0⟩
def FLX_XC_ACT0_SRC_MEMBER : Field := ⟨.flxXcAct0, 56, 8, .ro, 0⟩
-- FLX_XC_ACT1: R205, spec/06_line_flexe.md
def FLX_XC_ACT1_RX_FAB : Field := ⟨.flxXcAct1, 0, 1, .ro, 0⟩
def FLX_XC_ACT1_RX_CKT : Field := ⟨.flxXcAct1, 16, 12, .ro, 0⟩
def FLX_XC_ACT1_RX_MEMBER : Field := ⟨.flxXcAct1, 32, 8, .ro, 0⟩
-- FLX_CAL: R203, spec/06_line_flexe.md
def FLX_CAL_USED : Field := ⟨.flxCal, 0, 1, .rw, 0⟩
def FLX_CAL_CLIENT : Field := ⟨.flxCal, 4, 9, .rw, 0⟩
-- PMN_CTRL: R219, spec/07_line_monitoring.md
def PMN_CTRL_DAY_OFFSET : Field := ⟨.pmnCtrl, 0, 17, .rws, 0⟩
-- PMN_APPLY: R219, spec/07_line_monitoring.md
def PMN_APPLY_GO : Field := ⟨.pmnApply, 0, 1, .wo, 0⟩
def PMN_APPLY_PENDING : Field := ⟨.pmnApply, 1, 1, .ro, 0⟩
-- PMN_INT_STATUS: R220, spec/07_line_monitoring.md
def PMN_INT_STATUS_SF_CHG : Field := ⟨.pmnIntStatus, 0, 1, .w1c, 0⟩
def PMN_INT_STATUS_SD_CHG : Field := ⟨.pmnIntStatus, 1, 1, .w1c, 0⟩
def PMN_INT_STATUS_UAT_CHG : Field := ⟨.pmnIntStatus, 2, 1, .w1c, 0⟩
def PMN_INT_STATUS_BIN15_CLOSED : Field := ⟨.pmnIntStatus, 3, 1, .w1c, 0⟩
def PMN_INT_STATUS_BIN24_CLOSED : Field := ⟨.pmnIntStatus, 4, 1, .w1c, 0⟩
def PMN_INT_STATUS_TIME_STEP : Field := ⟨.pmnIntStatus, 5, 1, .w1c, 0⟩
def PMN_INT_STATUS_CFG_VIOLATION : Field := ⟨.pmnIntStatus, 6, 1, .w1c, 0⟩
-- PMN_STATUS: R219, spec/07_line_monitoring.md
def PMN_STATUS_COMMITTED : Field := ⟨.pmnStatus, 0, 48, .ro, 0⟩
def PMN_STATUS_CLOSES : Field := ⟨.pmnStatus, 48, 8, .ro, 0⟩
-- PMN_ENT_CFG: R221, spec/07_line_monitoring.md
def PMN_ENT_CFG_MON_EN : Field := ⟨.pmnEntCfg, 0, 1, .rw, 1⟩
def PMN_ENT_CFG_SD_SET_EXP : Field := ⟨.pmnEntCfg, 4, 4, .rw, 3⟩
def PMN_ENT_CFG_SD_CLR_EXP : Field := ⟨.pmnEntCfg, 8, 4, .rw, 4⟩
def PMN_ENT_CFG_SD_PERIODS : Field := ⟨.pmnEntCfg, 12, 8, .rw, 0xa⟩
def PMN_ENT_CFG_HOLD_OFF : Field := ⟨.pmnEntCfg, 20, 10, .rw, 0⟩
-- PMN_ENT_STATUS: R221, spec/07_line_monitoring.md
def PMN_ENT_STATUS_LOS : Field := ⟨.pmnEntStatus, 0, 1, .ro, 0⟩
def PMN_ENT_STATUS_LOA : Field := ⟨.pmnEntStatus, 1, 1, .ro, 0⟩
def PMN_ENT_STATUS_FAIL : Field := ⟨.pmnEntStatus, 2, 1, .ro, 0⟩
def PMN_ENT_STATUS_NOT_MON : Field := ⟨.pmnEntStatus, 3, 1, .ro, 1⟩
def PMN_ENT_STATUS_SF : Field := ⟨.pmnEntStatus, 4, 1, .ro, 1⟩
def PMN_ENT_STATUS_SD : Field := ⟨.pmnEntStatus, 5, 1, .ro, 0⟩
def PMN_ENT_STATUS_UNAVAIL : Field := ⟨.pmnEntStatus, 6, 1, .ro, 0⟩
-- PMN_SYM_CORR: R222, spec/07_line_monitoring.md
def PMN_SYM_CORR_COUNT : Field := ⟨.pmnSymCorr, 0, 48, .rc, 0⟩
-- PMN_CW_UNCORR: R222, spec/07_line_monitoring.md
def PMN_CW_UNCORR_COUNT : Field := ⟨.pmnCwUncorr, 0, 48, .rc, 0⟩
-- PMN_BIN0: R223, spec/07_line_monitoring.md
def PMN_BIN0_ES : Field := ⟨.pmnBin0, 0, 17, .ro, 0⟩
def PMN_BIN0_SES : Field := ⟨.pmnBin0, 17, 17, .ro, 0⟩
def PMN_BIN0_UAS : Field := ⟨.pmnBin0, 34, 17, .ro, 0⟩
def PMN_BIN0_SUSPECT : Field := ⟨.pmnBin0, 51, 1, .ro, 0⟩
def PMN_BIN0_VALID : Field := ⟨.pmnBin0, 52, 1, .ro, 0⟩
-- PMN_BIN1: R223, spec/07_line_monitoring.md
def PMN_BIN1_BBE : Field := ⟨.pmnBin1, 0, 48, .ro, 0⟩
-- PMN_BIN2: R223, spec/07_line_monitoring.md
def PMN_BIN2_START : Field := ⟨.pmnBin2, 0, 48, .ro, 0⟩
-- PRS_INT_STATUS: R247, spec/08_parser.md
def PRS_INT_STATUS_PAR_ERR : Field := ⟨.prsIntStatus, 0, 1, .w1c, 0⟩
def PRS_INT_STATUS_CFG_VIOLATION : Field := ⟨.prsIntStatus, 1, 1, .w1c, 0⟩
def PRS_INT_STATUS_MAL_SEEN : Field := ⟨.prsIntStatus, 2, 1, .w1c, 0⟩
def PRS_INT_STATUS_TRUNC_SEEN : Field := ⟨.prsIntStatus, 3, 1, .w1c, 0⟩
-- PRS_APPLY: R247, spec/08_parser.md
def PRS_APPLY_GO : Field := ⟨.prsApply, 0, 1, .wo, 0⟩
def PRS_APPLY_PENDING : Field := ⟨.prsApply, 1, 1, .ro, 0⟩
-- PRS_ERR_LOG: R247, spec/08_parser.md
def PRS_ERR_LOG_INDEX : Field := ⟨.prsErrLog, 0, 13, .ro, 0⟩
def PRS_ERR_LOG_ENTRY : Field := ⟨.prsErrLog, 13, 1, .ro, 0⟩
def PRS_ERR_LOG_SCAN : Field := ⟨.prsErrLog, 14, 1, .ro, 0⟩
def PRS_ERR_LOG_VALID : Field := ⟨.prsErrLog, 15, 1, .rc, 0⟩
def PRS_ERR_LOG_COUNT : Field := ⟨.prsErrLog, 48, 16, .rc, 0⟩
-- PRS_TRIM_CNT: R247, spec/08_parser.md
def PRS_TRIM_CNT_COUNT : Field := ⟨.prsTrimCnt, 0, 48, .rc, 0⟩
-- PRS_TRUNC_CNT: R248, spec/08_parser.md
def PRS_TRUNC_CNT_COUNT : Field := ⟨.prsTruncCnt, 0, 48, .rc, 0⟩
-- PRS_MAL_CNT: R248, spec/08_parser.md
def PRS_MAL_CNT_COUNT : Field := ⟨.prsMalCnt, 0, 48, .rc, 0⟩
-- PRS_MAL_ACT: R248, spec/08_parser.md
def PRS_MAL_ACT_ACTION : Field := ⟨.prsMalAct, 0, 2, .rws, 0⟩
def PRS_MAL_ACT_RING : Field := ⟨.prsMalAct, 16, 13, .rws, 0⟩
-- PRS_ENTRY: R249, spec/08_parser.md
def PRS_ENTRY_START_PC : Field := ⟨.prsEntry, 0, 13, .ro, 0⟩
def PRS_ENTRY_PROFILE : Field := ⟨.prsEntry, 16, 16, .ro, 0⟩
def PRS_ENTRY_VALID : Field := ⟨.prsEntry, 32, 1, .ro, 0⟩
-- PRS_STORE: R249, spec/08_parser.md
def PRS_STORE_WORD : Field := ⟨.prsStore, 0, 64, .ro, 0⟩
-- LKP_INT_STATUS: R288, spec/09_lookup.md
def LKP_INT_STATUS_PAR_ERR : Field := ⟨.lkpIntStatus, 0, 1, .w1c, 0⟩
def LKP_INT_STATUS_CFG_VIOLATION : Field := ⟨.lkpIntStatus, 1, 1, .w1c, 0⟩
def LKP_INT_STATUS_LEARN_FAIL : Field := ⟨.lkpIntStatus, 2, 1, .w1c, 0⟩
def LKP_INT_STATUS_TRIE_REBUILT : Field := ⟨.lkpIntStatus, 3, 1, .w1c, 0⟩
def LKP_INT_STATUS_POISON_CLR_FAIL : Field := ⟨.lkpIntStatus, 4, 1, .w1c, 0⟩
def LKP_INT_STATUS_XBAR_STALL : Field := ⟨.lkpIntStatus, 5, 1, .w1c, 0⟩
def LKP_INT_STATUS_FLUSH_DONE : Field := ⟨.lkpIntStatus, 6, 1, .w1c, 0⟩
-- LKP_APPLY: R288, spec/09_lookup.md
def LKP_APPLY_GO : Field := ⟨.lkpApply, 0, 1, .wo, 0⟩
def LKP_APPLY_PENDING : Field := ⟨.lkpApply, 1, 1, .ro, 0⟩
-- LKP_ERR_LOG: R288, spec/09_lookup.md
def LKP_ERR_LOG_TABLE : Field := ⟨.lkpErrLog, 0, 8, .ro, 0⟩
def LKP_ERR_LOG_INDEX : Field := ⟨.lkpErrLog, 8, 24, .ro, 0⟩
def LKP_ERR_LOG_SCAN : Field := ⟨.lkpErrLog, 32, 1, .ro, 0⟩
def LKP_ERR_LOG_VALID : Field := ⟨.lkpErrLog, 33, 1, .rc, 0⟩
def LKP_ERR_LOG_COUNT : Field := ⟨.lkpErrLog, 48, 16, .rc, 0⟩
-- LKP_LEARN_CTRL: R289, spec/09_lookup.md
def LKP_LEARN_CTRL_EN : Field := ⟨.lkpLearnCtrl, 0, 1, .rws, 0⟩
def LKP_LEARN_CTRL_EXPORT_EN : Field := ⟨.lkpLearnCtrl, 1, 1, .rws, 0⟩
def LKP_LEARN_CTRL_EXPORT_RING : Field := ⟨.lkpLearnCtrl, 2, 11, .rws, 0⟩
def LKP_LEARN_CTRL_AGE_PERIOD : Field := ⟨.lkpLearnCtrl, 16, 16, .rws, 0x12c⟩
def LKP_LEARN_CTRL_LIMIT : Field := ⟨.lkpLearnCtrl, 32, 23, .rws, 0x400000⟩
def LKP_LEARN_CTRL_EVT_GAP : Field := ⟨.lkpLearnCtrl, 56, 8, .rws, 0xa⟩
-- LKP_FLUSH: R289, spec/09_lookup.md
def LKP_FLUSH_BD : Field := ⟨.lkpFlush, 0, 16, .rw, 0⟩
def LKP_FLUSH_PORT : Field := ⟨.lkpFlush, 16, 9, .rw, 0⟩
def LKP_FLUSH_BY_BD : Field := ⟨.lkpFlush, 25, 1, .rw, 0⟩
def LKP_FLUSH_BY_PORT : Field := ⟨.lkpFlush, 26, 1, .rw, 0⟩
def LKP_FLUSH_GO : Field := ⟨.lkpFlush, 27, 1, .wo, 0⟩
def LKP_FLUSH_BUSY : Field := ⟨.lkpFlush, 28, 1, .ro, 0⟩
def LKP_FLUSH_EXPORT : Field := ⟨.lkpFlush, 29, 1, .rw, 0⟩
-- LKP_LEARN_FAIL: R290, spec/09_lookup.md
def LKP_LEARN_FAIL_COUNT : Field := ⟨.lkpLearnFail, 0, 48, .rc, 0⟩
-- LKP_LEARN_DROP: R290, spec/09_lookup.md
def LKP_LEARN_DROP_COUNT : Field := ⟨.lkpLearnDrop, 0, 48, .rc, 0⟩
-- LKP_MOVE_DENY: R290, spec/09_lookup.md
def LKP_MOVE_DENY_COUNT : Field := ⟨.lkpMoveDeny, 0, 48, .rc, 0⟩
-- LKP_XBAR_STALL: R290, spec/09_lookup.md
def LKP_XBAR_STALL_COUNT : Field := ⟨.lkpXbarStall, 0, 48, .rc, 0⟩
-- LKP_POISON_EXP: R291, spec/09_lookup.md
def LKP_POISON_EXP_EXPECT : Field := ⟨.lkpPoisonExp, 0, 64, .rw, 0⟩
-- LKP_POISON_CLR: R291, spec/09_lookup.md
def LKP_POISON_CLR_BLOCK : Field := ⟨.lkpPoisonClr, 0, 11, .wo, 0⟩
-- LKP_POISON_STATUS: R291, spec/09_lookup.md
def LKP_POISON_STATUS_SLOTS : Field := ⟨.lkpPoisonStatus, 0, 16, .ro, 0⟩
def LKP_POISON_STATUS_LAST_OK : Field := ⟨.lkpPoisonStatus, 16, 1, .ro, 0⟩
-- LKP_OCC_EM: R291, spec/09_lookup.md
def LKP_OCC_EM_SLOTS : Field := ⟨.lkpOccEm, 0, 24, .ro, 0⟩
def LKP_OCC_EM_LEARNED : Field := ⟨.lkpOccEm, 24, 23, .ro, 0⟩
def LKP_OCC_EM_STASH : Field := ⟨.lkpOccEm, 48, 11, .ro, 0⟩
-- LKP_OCC_ROUTE: R291, spec/09_lookup.md
def LKP_OCC_ROUTE_UNITS : Field := ⟨.lkpOccRoute, 0, 24, .ro, 0⟩
-- LKP_PORT: R292, spec/09_lookup.md
def LKP_PORT_VRF : Field := ⟨.lkpPort, 0, 16, .rws, 0⟩
def LKP_PORT_BD : Field := ⟨.lkpPort, 16, 16, .rws, 0⟩
def LKP_PORT_PSET : Field := ⟨.lkpPort, 32, 4, .rws, 0⟩
def LKP_PORT_LEARN_EN : Field := ⟨.lkpPort, 36, 1, .rws, 0⟩
-- LKP_HPROF0: R293, spec/09_lookup.md
def LKP_HPROF0_SEED : Field := ⟨.lkpHprof0, 0, 32, .rws, 0xffffffff⟩
def LKP_HPROF0_SYM : Field := ⟨.lkpHprof0, 32, 1, .rws, 1⟩
-- LKP_HPROF1: R293, spec/09_lookup.md
def LKP_HPROF1_SEL0_SEL3 : Field := ⟨.lkpHprof1, 0, 64, .rws, 0x4510030ca0c06080⟩
-- LKP_HPROF2: R293, spec/09_lookup.md
def LKP_HPROF2_SEL4_SEL7 : Field := ⟨.lkpHprof2, 0, 64, .rws, 0x8518⟩
-- LKP_DIG0: R294, spec/09_lookup.md
def LKP_DIG0_DIGEST : Field := ⟨.lkpDig0, 0, 64, .ro, 0⟩
-- LKP_DIG1: R294, spec/09_lookup.md
def LKP_DIG1_STALE : Field := ⟨.lkpDig1, 0, 1, .ro, 0⟩
def LKP_DIG1_POISON : Field := ⟨.lkpDig1, 1, 1, .ro, 0⟩
def LKP_DIG1_REAM : Field := ⟨.lkpDig1, 32, 32, .ro, 0⟩
-- ASA_INT_STATUS: R322, spec/10_associative_search.md
def ASA_INT_STATUS_ROW_DIS : Field := ⟨.asaIntStatus, 0, 1, .w1c, 0⟩
def ASA_INT_STATUS_CFG_VIOLATION : Field := ⟨.asaIntStatus, 1, 1, .w1c, 0⟩
def ASA_INT_STATUS_TABLE_ERR : Field := ⟨.asaIntStatus, 2, 1, .w1c, 0⟩
def ASA_INT_STATUS_PIN_EXPIRED : Field := ⟨.asaIntStatus, 3, 1, .w1c, 0⟩
-- ASA_APPLY: R322, spec/10_associative_search.md
def ASA_APPLY_GO : Field := ⟨.asaApply, 0, 1, .wo, 0⟩
def ASA_APPLY_PENDING : Field := ⟨.asaApply, 1, 1, .ro, 0⟩
-- ASA_ERR_LOG: R322, spec/10_associative_search.md
def ASA_ERR_LOG_ARRAY : Field := ⟨.asaErrLog, 0, 5, .ro, 0⟩
def ASA_ERR_LOG_BANK : Field := ⟨.asaErrLog, 5, 2, .ro, 0⟩
def ASA_ERR_LOG_SLOT : Field := ⟨.asaErrLog, 7, 13, .ro, 0⟩
def ASA_ERR_LOG_KIND : Field := ⟨.asaErrLog, 20, 2, .ro, 0⟩
def ASA_ERR_LOG_SCAN : Field := ⟨.asaErrLog, 22, 1, .ro, 0⟩
def ASA_ERR_LOG_VALID : Field := ⟨.asaErrLog, 23, 1, .rc, 0⟩
def ASA_ERR_LOG_COUNT : Field := ⟨.asaErrLog, 48, 16, .rc, 0⟩
-- ASA_CTRL: R323, spec/10_associative_search.md
def ASA_CTRL_PIN_TIMEOUT : Field := ⟨.asaCtrl, 0, 16, .rws, 0x3e8⟩
-- ASA_DISABLED: R323, spec/10_associative_search.md
def ASA_DISABLED_ROWS : Field := ⟨.asaDisabled, 0, 20, .ro, 0⟩
-- ASA_VIEW_SEL: R323, spec/10_associative_search.md
def ASA_VIEW_SEL_BANK : Field := ⟨.asaViewSel, 0, 7, .rw, 0⟩
-- ASA_GROUP_CFG: R324, spec/10_associative_search.md
def ASA_GROUP_CFG_ERR_MODE : Field := ⟨.asaGroupCfg, 0, 1, .rws, 0⟩
-- ASA_GRP_MULTI: R324, spec/10_associative_search.md
def ASA_GRP_MULTI_COUNT : Field := ⟨.asaGrpMulti, 0, 48, .rc, 0⟩
-- ASA_GRP_EQPRI: R324, spec/10_associative_search.md
def ASA_GRP_EQPRI_COUNT : Field := ⟨.asaGrpEqpri, 0, 48, .rc, 0⟩
-- ASA_BANK_CFG: R325, spec/10_associative_search.md
def ASA_BANK_CFG_RUN : Field := ⟨.asaBankCfg, 0, 1, .rw, 0⟩
def ASA_BANK_CFG_STOPPED : Field := ⟨.asaBankCfg, 1, 1, .ro, 1⟩
def ASA_BANK_CFG_WIDTH : Field := ⟨.asaBankCfg, 2, 2, .rwx, 1⟩
def ASA_BANK_CFG_GROUP : Field := ⟨.asaBankCfg, 4, 4, .rwx, 0⟩
-- ASA_BANK_STATUS: R325, spec/10_associative_search.md
def ASA_BANK_STATUS_ENTRIES : Field := ⟨.asaBankStatus, 0, 14, .ro, 0⟩
def ASA_BANK_STATUS_HELD : Field := ⟨.asaBankStatus, 14, 14, .ro, 0⟩
def ASA_BANK_STATUS_DIS_ROWS : Field := ⟨.asaBankStatus, 28, 13, .ro, 0⟩
-- ASA_SRCH_KEY: R326, spec/10_associative_search.md
def ASA_SRCH_KEY_KEY : Field := ⟨.asaSrchKey, 0, 64, .rw, 0⟩
-- ASA_SRCH_CMD: R326, spec/10_associative_search.md
def ASA_SRCH_CMD_OP : Field := ⟨.asaSrchCmd, 0, 2, .wo, 0⟩
def ASA_SRCH_CMD_GROUP : Field := ⟨.asaSrchCmd, 4, 4, .rw, 0⟩
-- ASA_SRCH_TOKEN0: R326, spec/10_associative_search.md
def ASA_SRCH_TOKEN0_REAM : Field := ⟨.asaSrchToken0, 0, 32, .ro, 0⟩
def ASA_SRCH_TOKEN0_GEN : Field := ⟨.asaSrchToken0, 32, 8, .ro, 0⟩
-- ASA_SRCH_TOKEN1: R326, spec/10_associative_search.md
def ASA_SRCH_TOKEN1_PRIO : Field := ⟨.asaSrchToken1, 0, 24, .rw, 0⟩
def ASA_SRCH_TOKEN1_INDEX : Field := ⟨.asaSrchToken1, 24, 20, .rw, 0⟩
def ASA_SRCH_TOKEN1_FIRST : Field := ⟨.asaSrchToken1, 44, 1, .rw, 1⟩
-- ASA_SRCH_STATUS: R326, spec/10_associative_search.md
def ASA_SRCH_STATUS_STATE : Field := ⟨.asaSrchStatus, 0, 3, .ro, 0⟩
def ASA_SRCH_STATUS_FOUND : Field := ⟨.asaSrchStatus, 3, 1, .ro, 0⟩
def ASA_SRCH_STATUS_COUNT : Field := ⟨.asaSrchStatus, 4, 4, .ro, 0⟩
def ASA_SRCH_STATUS_MULTI : Field := ⟨.asaSrchStatus, 8, 1, .ro, 0⟩
def ASA_SRCH_STATUS_EQPRI : Field := ⟨.asaSrchStatus, 9, 1, .ro, 0⟩
def ASA_SRCH_STATUS_ROW_LOST : Field := ⟨.asaSrchStatus, 10, 1, .ro, 0⟩
-- ASA_SRCH_RESULT: R326, spec/10_associative_search.md
def ASA_SRCH_RESULT_PRIO : Field := ⟨.asaSrchResult, 0, 24, .ro, 0⟩
def ASA_SRCH_RESULT_INDEX : Field := ⟨.asaSrchResult, 24, 20, .ro, 0⟩
-- ASA_SRCH_ACT0: R326, spec/10_associative_search.md
def ASA_SRCH_ACT0_ACT : Field := ⟨.asaSrchAct0, 0, 64, .ro, 0⟩
-- ASA_SRCH_ACT1: R326, spec/10_associative_search.md
def ASA_SRCH_ACT1_ACT : Field := ⟨.asaSrchAct1, 0, 64, .ro, 0⟩
-- ASA_VIEW: R327, spec/10_associative_search.md
def ASA_VIEW_WORD : Field := ⟨.asaView, 0, 64, .ro, 0⟩
-- CMT_INT_STATUS: R351, spec/11_reams.md
def CMT_INT_STATUS_REJECTED : Field := ⟨.cmtIntStatus, 0, 1, .w1c, 0⟩
def CMT_INT_STATUS_CFG_VIOLATION : Field := ⟨.cmtIntStatus, 1, 1, .w1c, 0⟩
def CMT_INT_STATUS_DISCARDED : Field := ⟨.cmtIntStatus, 2, 1, .w1c, 0⟩
def CMT_INT_STATUS_DRAIN_WAIT : Field := ⟨.cmtIntStatus, 3, 1, .w1c, 0⟩
-- CMT_APPLY: R351, spec/11_reams.md
def CMT_APPLY_GO : Field := ⟨.cmtApply, 0, 1, .wo, 0⟩
def CMT_APPLY_PENDING : Field := ⟨.cmtApply, 1, 1, .ro, 0⟩
-- CMT_CTRL: R352, spec/11_reams.md
def CMT_CTRL_WAIT_WARN : Field := ⟨.cmtCtrl, 0, 16, .rws, 0x64⟩
def CMT_CTRL_IDLE_MAX : Field := ⟨.cmtCtrl, 16, 16, .rws, 0x64⟩
-- CMT_STATUS: R352, spec/11_reams.md
def CMT_STATUS_REAM : Field := ⟨.cmtStatus, 0, 32, .ro, 0⟩
def CMT_STATUS_UNDRAINED : Field := ⟨.cmtStatus, 32, 4, .ro, 1⟩
def CMT_STATUS_STAGING : Field := ⟨.cmtStatus, 36, 1, .ro, 0⟩
def CMT_STATUS_WAITING : Field := ⟨.cmtStatus, 37, 1, .ro, 0⟩
def CMT_STATUS_RING : Field := ⟨.cmtStatus, 38, 10, .ro, 0⟩
def CMT_STATUS_FL_HOLD : Field := ⟨.cmtStatus, 48, 1, .ro, 0⟩
-- CMT_COMMITS: R353, spec/11_reams.md
def CMT_COMMITS_COUNT : Field := ⟨.cmtCommits, 0, 48, .ro, 0⟩
-- CMT_REJECTS: R353, spec/11_reams.md
def CMT_REJECTS_COUNT : Field := ⟨.cmtRejects, 0, 48, .rc, 0⟩
-- CMT_REJECT_LOG: R353, spec/11_reams.md
def CMT_REJECT_LOG_STATUS : Field := ⟨.cmtRejectLog, 0, 8, .ro, 0⟩
def CMT_REJECT_LOG_TABLE : Field := ⟨.cmtRejectLog, 8, 8, .ro, 0⟩
def CMT_REJECT_LOG_POS : Field := ⟨.cmtRejectLog, 16, 16, .ro, 0⟩
def CMT_REJECT_LOG_RING : Field := ⟨.cmtRejectLog, 32, 10, .ro, 0⟩
def CMT_REJECT_LOG_VALID : Field := ⟨.cmtRejectLog, 42, 1, .rc, 0⟩
def CMT_REJECT_LOG_COUNT : Field := ⟨.cmtRejectLog, 48, 16, .rc, 0⟩
-- CMT_MAX_WAIT: R353, spec/11_reams.md
def CMT_MAX_WAIT_NS : Field := ⟨.cmtMaxWait, 0, 32, .rc, 0⟩
-- CMT_RD_CMD: R355, spec/11_reams.md
def CMT_RD_CMD_TABLE : Field := ⟨.cmtRdCmd, 0, 8, .rw, 0⟩
def CMT_RD_CMD_RAW : Field := ⟨.cmtRdCmd, 8, 1, .rw, 0⟩
def CMT_RD_CMD_GO : Field := ⟨.cmtRdCmd, 9, 1, .wo, 0⟩
def CMT_RD_CMD_BUSY : Field := ⟨.cmtRdCmd, 10, 1, .ro, 0⟩
def CMT_RD_CMD_FOUND : Field := ⟨.cmtRdCmd, 11, 1, .ro, 0⟩
def CMT_RD_CMD_INDEX : Field := ⟨.cmtRdCmd, 32, 32, .rw, 0⟩
-- CMT_RD_REAM: R355, spec/11_reams.md
def CMT_RD_REAM_REAM : Field := ⟨.cmtRdReam, 0, 32, .ro, 0⟩
-- CMT_RD_DATA: R355, spec/11_reams.md
def CMT_RD_DATA_DATA : Field := ⟨.cmtRdData, 0, 64, .ro, 0⟩
-- CMT_HEADROOM: R354, spec/11_reams.md
def CMT_HEADROOM_SHIFT : Field := ⟨.cmtHeadroom, 0, 4, .rws, 4⟩
def CMT_HEADROOM_LIVE : Field := ⟨.cmtHeadroom, 8, 24, .ro, 0⟩
def CMT_HEADROOM_HELD : Field := ⟨.cmtHeadroom, 32, 24, .ro, 0⟩
-- EGR_INT_STATUS: R509, spec/16_egress_rewrite.md
def EGR_INT_STATUS_PAR_ERR : Field := ⟨.egrIntStatus, 0, 1, .w1c, 0⟩
def EGR_INT_STATUS_CFG_VIOLATION : Field := ⟨.egrIntStatus, 1, 1, .w1c, 0⟩
def EGR_INT_STATUS_PTP_NO_TS : Field := ⟨.egrIntStatus, 2, 1, .w1c, 0⟩
-- EGR_APPLY: R380, spec/12_buffering.md
def EGR_APPLY_GO : Field := ⟨.egrApply, 0, 1, .wo, 0⟩
def EGR_APPLY_PENDING : Field := ⟨.egrApply, 1, 1, .ro, 0⟩
-- EGR_ERR_LOG: R509, spec/16_egress_rewrite.md
def EGR_ERR_LOG_INDEX : Field := ⟨.egrErrLog, 0, 21, .ro, 0⟩
def EGR_ERR_LOG_SCAN : Field := ⟨.egrErrLog, 21, 1, .ro, 0⟩
def EGR_ERR_LOG_VALID : Field := ⟨.egrErrLog, 22, 1, .rc, 0⟩
def EGR_ERR_LOG_COUNT : Field := ⟨.egrErrLog, 48, 16, .rc, 0⟩
-- EGR_CTRL: R509, spec/16_egress_rewrite.md
def EGR_CTRL_HPROF : Field := ⟨.egrCtrl, 0, 4, .rws, 0⟩
def EGR_CTRL_PTP_EXP_EN : Field := ⟨.egrCtrl, 4, 1, .rws, 0⟩
def EGR_CTRL_PTP_RING : Field := ⟨.egrCtrl, 5, 11, .rws, 0⟩
def EGR_CTRL_TPID : Field := ⟨.egrCtrl, 16, 16, .rws, 0x8100⟩
-- EGR_PTP_NO_TS: R509, spec/16_egress_rewrite.md
def EGR_PTP_NO_TS_COUNT : Field := ⟨.egrPtpNoTs, 0, 48, .rc, 0⟩
-- EGR_PORT: R510, spec/16_egress_rewrite.md
def EGR_PORT_MTU : Field := ⟨.egrPort, 0, 14, .rws, 0x2600⟩
def EGR_PORT_MTU_ACT : Field := ⟨.egrPort, 14, 1, .rws, 0⟩
def EGR_PORT_TTL_ACT : Field := ⟨.egrPort, 15, 1, .rws, 0⟩
def EGR_PORT_PUNT_RING : Field := ⟨.egrPort, 16, 13, .rws, 0⟩
def EGR_PORT_PROFILE : Field := ⟨.egrPort, 32, 8, .rws, 0⟩
def EGR_PORT_SAMPLER : Field := ⟨.egrPort, 40, 8, .rws, 0⟩
def EGR_PORT_PTP_MODE : Field := ⟨.egrPort, 48, 2, .rws, 0⟩
def EGR_PORT_MIRROR : Field := ⟨.egrPort, 50, 4, .rws, 0⟩
-- EGR_SMAC: R511, spec/16_egress_rewrite.md
def EGR_SMAC_MAC : Field := ⟨.egrSmac, 0, 48, .rws, 0⟩
-- EGR_SRC4: R511, spec/16_egress_rewrite.md
def EGR_SRC4_ADDR : Field := ⟨.egrSrc4, 0, 32, .rws, 0⟩
-- EGR_SRC6: R511, spec/16_egress_rewrite.md
def EGR_SRC6_ADDR : Field := ⟨.egrSrc6, 0, 64, .rws, 0⟩
-- EGR_MIRROR0: R512, spec/16_egress_rewrite.md
def EGR_MIRROR0_DEST_MOD : Field := ⟨.egrMirror0, 0, 11, .rws, 0⟩
def EGR_MIRROR0_PORT_GROUP : Field := ⟨.egrMirror0, 11, 5, .rws, 0⟩
def EGR_MIRROR0_DEST_PORT : Field := ⟨.egrMirror0, 16, 9, .rws, 0⟩
def EGR_MIRROR0_CLASS : Field := ⟨.egrMirror0, 25, 3, .rws, 0⟩
def EGR_MIRROR0_EN : Field := ⟨.egrMirror0, 28, 1, .rws, 0⟩
-- EGR_MIRROR1: R512, spec/16_egress_rewrite.md
def EGR_MIRROR1_REWRITE : Field := ⟨.egrMirror1, 0, 21, .rws, 0⟩
def EGR_MIRROR1_REWRITE_EN : Field := ⟨.egrMirror1, 21, 1, .rws, 0⟩
def EGR_MIRROR1_TRUNC : Field := ⟨.egrMirror1, 22, 8, .rws, 0⟩
-- EGR_SAMPLER: R513, spec/16_egress_rewrite.md
def EGR_SAMPLER_N : Field := ⟨.egrSampler, 0, 24, .rws, 0⟩
def EGR_SAMPLER_RANDOM : Field := ⟨.egrSampler, 24, 1, .rws, 0⟩
def EGR_SAMPLER_RING : Field := ⟨.egrSampler, 25, 13, .rws, 0⟩
def EGR_SAMPLER_TRUNC : Field := ⟨.egrSampler, 38, 8, .rws, 0⟩
-- BPM_INT_STATUS: R380, spec/12_buffering.md
def BPM_INT_STATUS_DOUBLE_FREE : Field := ⟨.bpmIntStatus, 0, 1, .w1c, 0⟩
def BPM_INT_STATUS_FOREIGN_FREE : Field := ⟨.bpmIntStatus, 1, 1, .w1c, 0⟩
def BPM_INT_STATUS_CFG_VIOLATION : Field := ⟨.bpmIntStatus, 2, 1, .w1c, 0⟩
def BPM_INT_STATUS_POOL_LOW : Field := ⟨.bpmIntStatus, 3, 1, .w1c, 0⟩
-- BPM_APPLY: R380, spec/12_buffering.md
def BPM_APPLY_GO : Field := ⟨.bpmApply, 0, 1, .wo, 0⟩
def BPM_APPLY_PENDING : Field := ⟨.bpmApply, 1, 1, .ro, 0⟩
-- BPM_CTRL: R380, spec/12_buffering.md
def BPM_CTRL_LOW_WATER : Field := ⟨.bpmCtrl, 0, 21, .rws, 0x10000⟩
-- BPM_STATUS: R381, spec/12_buffering.md
def BPM_STATUS_FREE : Field := ⟨.bpmStatus, 0, 21, .ro, 0x100000⟩
def BPM_STATUS_SHARED_FREE : Field := ⟨.bpmStatus, 21, 21, .ro, 0xc6000⟩
-- BPM_DEEP_STATUS: R381, spec/12_buffering.md
def BPM_DEEP_STATUS_TOTAL : Field := ⟨.bpmDeepStatus, 0, 30, .ro, 0⟩
def BPM_DEEP_STATUS_FREE : Field := ⟨.bpmDeepStatus, 30, 30, .ro, 0⟩
-- BPM_DOUBLE_FREE: R382, spec/12_buffering.md
def BPM_DOUBLE_FREE_COUNT : Field := ⟨.bpmDoubleFree, 0, 48, .rc, 0⟩
-- BPM_FOREIGN_FREE: R382, spec/12_buffering.md
def BPM_FOREIGN_FREE_COUNT : Field := ⟨.bpmForeignFree, 0, 48, .rc, 0⟩
-- BPM_ERR_LOG: R383, spec/12_buffering.md
def BPM_ERR_LOG_REQ : Field := ⟨.bpmErrLog, 0, 5, .ro, 0⟩
def BPM_ERR_LOG_OP : Field := ⟨.bpmErrLog, 5, 3, .ro, 0⟩
def BPM_ERR_LOG_BUF : Field := ⟨.bpmErrLog, 8, 32, .ro, 0⟩
def BPM_ERR_LOG_KIND : Field := ⟨.bpmErrLog, 40, 1, .ro, 0⟩
def BPM_ERR_LOG_VALID : Field := ⟨.bpmErrLog, 41, 1, .rc, 0⟩
def BPM_ERR_LOG_COUNT : Field := ⟨.bpmErrLog, 48, 16, .rc, 0⟩
-- BPM_TREE_COPIES: R382, spec/12_buffering.md
def BPM_TREE_COPIES_COUNT : Field := ⟨.bpmTreeCopies, 0, 48, .rc, 0⟩
-- BPM_REQ_CFG: R384, spec/12_buffering.md
def BPM_REQ_CFG_GUAR : Field := ⟨.bpmReqCfg, 0, 20, .rws, 0⟩
def BPM_REQ_CFG_ALPHA : Field := ⟨.bpmReqCfg, 20, 4, .rws, 6⟩
def BPM_REQ_CFG_CEIL : Field := ⟨.bpmReqCfg, 24, 21, .rws, 0x100000⟩
-- BPM_REQ_STATUS: R384, spec/12_buffering.md
def BPM_REQ_STATUS_USED : Field := ⟨.bpmReqStatus, 0, 21, .ro, 0⟩
def BPM_REQ_STATUS_CACHED : Field := ⟨.bpmReqStatus, 21, 8, .ro, 0⟩
-- BPM_REQ_NONE: R382, spec/12_buffering.md
def BPM_REQ_NONE_COUNT : Field := ⟨.bpmReqNone, 0, 48, .rc, 0⟩
-- ADM_INT_STATUS: R385, spec/12_buffering.md
def ADM_INT_STATUS_CFG_VIOLATION : Field := ⟨.admIntStatus, 0, 1, .w1c, 0⟩
def ADM_INT_STATUS_HDRM_OVERFLOW : Field := ⟨.admIntStatus, 1, 1, .w1c, 0⟩
def ADM_INT_STATUS_DEEP_SAT : Field := ⟨.admIntStatus, 2, 1, .w1c, 0⟩
-- ADM_APPLY: R380, spec/12_buffering.md
def ADM_APPLY_GO : Field := ⟨.admApply, 0, 1, .wo, 0⟩
def ADM_APPLY_PENDING : Field := ⟨.admApply, 1, 1, .ro, 0⟩
-- ADM_DROP_LOG: R386, spec/12_buffering.md
def ADM_DROP_LOG_CAUSE : Field := ⟨.admDropLog, 0, 8, .ro, 0⟩
def ADM_DROP_LOG_PORT : Field := ⟨.admDropLog, 8, 9, .ro, 0⟩
def ADM_DROP_LOG_QUEUE : Field := ⟨.admDropLog, 17, 20, .ro, 0⟩
def ADM_DROP_LOG_VALID : Field := ⟨.admDropLog, 37, 1, .rc, 0⟩
def ADM_DROP_LOG_COUNT : Field := ⟨.admDropLog, 48, 16, .rc, 0⟩
-- ADM_DEEP_STATUS: R386, spec/12_buffering.md
def ADM_DEEP_STATUS_QUEUES : Field := ⟨.admDeepStatus, 0, 21, .ro, 0⟩
def ADM_DEEP_STATUS_WR_SLOTS : Field := ⟨.admDeepStatus, 21, 8, .ro, 0⟩
def ADM_DEEP_STATUS_RD_SLOTS : Field := ⟨.admDeepStatus, 29, 8, .ro, 0⟩
-- ADM_PROF0: R387, spec/12_buffering.md
def ADM_PROF0_MIN_CELLS : Field := ⟨.admProf0, 0, 16, .rws, 0x100⟩
def ADM_PROF0_ALPHA : Field := ⟨.admProf0, 16, 4, .rws, 4⟩
def ADM_PROF0_DEEP_EN : Field := ⟨.admProf0, 24, 1, .rws, 0⟩
def ADM_PROF0_HEAD_CELLS : Field := ⟨.admProf0, 32, 8, .rws, 0x40⟩
def ADM_PROF0_EVICT_CELLS : Field := ⟨.admProf0, 48, 16, .rws, 0x1000⟩
-- ADM_PROF1: R387, spec/12_buffering.md
def ADM_PROF1_MAX_BYTES : Field := ⟨.admProf1, 0, 40, .rws, 0xffffffffff⟩
-- ADM_PROF2: R387, spec/12_buffering.md
def ADM_PROF2_DEEP_ALPHA : Field := ⟨.admProf2, 0, 4, .rws, 6⟩
def ADM_PROF2_DEEP_MAX : Field := ⟨.admProf2, 32, 30, .rws, 0x3fffffff⟩
-- ADM_PFC: R388, spec/12_buffering.md
def ADM_PFC_HDRM : Field := ⟨.admPfc, 0, 16, .rws, 0⟩
def ADM_PFC_XOFF : Field := ⟨.admPfc, 16, 16, .rws, 0x200⟩
def ADM_PFC_XON : Field := ⟨.admPfc, 32, 16, .rws, 0x100⟩
-- ADM_PFC_STATUS: R388, spec/12_buffering.md
def ADM_PFC_STATUS_XOFF : Field := ⟨.admPfcStatus, 0, 8, .ro, 0⟩
def ADM_PFC_STATUS_HDRM_USED : Field := ⟨.admPfcStatus, 8, 16, .ro, 0⟩
-- ADM_DEEP_BW: R389, spec/12_buffering.md
def ADM_DEEP_BW_GUAR : Field := ⟨.admDeepBw, 0, 8, .rws, 0⟩
def ADM_DEEP_BW_ALPHA : Field := ⟨.admDeepBw, 8, 4, .rws, 6⟩
-- ADM_DROP_PKT: R390, spec/12_buffering.md
def ADM_DROP_PKT_COUNT : Field := ⟨.admDropPkt, 0, 48, .rc, 0⟩
-- ADM_DROP_BYTE: R390, spec/12_buffering.md
def ADM_DROP_BYTE_COUNT : Field := ⟨.admDropByte, 0, 48, .rc, 0⟩
-- ADM_DEEP_SAT: R389, spec/12_buffering.md
def ADM_DEEP_SAT_COUNT : Field := ⟨.admDeepSat, 0, 48, .rc, 0⟩
-- ADM_QSET: R391, spec/12_buffering.md
def ADM_QSET_SET : Field := ⟨.admQset, 0, 3, .rws, 0⟩
-- DDC_CTRL: R408, spec/13_memory.md
def DDC_CTRL_RUN : Field := ⟨.ddcCtrl, 0, 1, .rw, 0⟩
def DDC_CTRL_STOPPED : Field := ⟨.ddcCtrl, 1, 1, .ro, 1⟩
def DDC_CTRL_SPARE_EN : Field := ⟨.ddcCtrl, 2, 1, .rwx, 1⟩
-- DDC_PART: R408, spec/13_memory.md
def DDC_PART_CNT_GIB : Field := ⟨.ddcPart, 0, 5, .rwx, 0x10⟩
def DDC_PART_FLOW_GIB : Field := ⟨.ddcPart, 16, 11, .rwx, 0⟩
def DDC_PART_WIN_GIB : Field := ⟨.ddcPart, 32, 11, .rwx, 0x40⟩
def DDC_PART_DEEP_GIB : Field := ⟨.ddcPart, 48, 11, .ro, 0⟩
-- DDC_ERR_LOG: R409, spec/13_memory.md
def DDC_ERR_LOG_PART : Field := ⟨.ddcErrLog, 0, 2, .ro, 0⟩
def DDC_ERR_LOG_OFFSET : Field := ⟨.ddcErrLog, 2, 35, .ro, 0⟩
def DDC_ERR_LOG_VALID : Field := ⟨.ddcErrLog, 37, 1, .rc, 0⟩
def DDC_ERR_LOG_COUNT : Field := ⟨.ddcErrLog, 48, 16, .rc, 0⟩
-- DDC_UE: R409, spec/13_memory.md
def DDC_UE_COUNT : Field := ⟨.ddcUe, 0, 48, .rc, 0⟩
-- DDC_CNT_CLR: R409, spec/13_memory.md
def DDC_CNT_CLR_PAIR : Field := ⟨.ddcCntClr, 0, 30, .wo, 0⟩
-- DDC_INT_STATUS: R410, spec/13_memory.md
def DDC_INT_STATUS_CFG_VIOLATION : Field := ⟨.ddcIntStatus, 0, 1, .w1c, 0⟩
def DDC_INT_STATUS_CE_THRESH : Field := ⟨.ddcIntStatus, 1, 1, .w1c, 0⟩
def DDC_INT_STATUS_UE : Field := ⟨.ddcIntStatus, 2, 1, .w1c, 0⟩
def DDC_INT_STATUS_RETRAIN_FAIL : Field := ⟨.ddcIntStatus, 3, 1, .w1c, 0⟩
def DDC_INT_STATUS_SPARE_DONE : Field := ⟨.ddcIntStatus, 4, 1, .w1c, 0⟩
def DDC_INT_STATUS_SPARE_FAIL : Field := ⟨.ddcIntStatus, 5, 1, .w1c, 0⟩
def DDC_INT_STATUS_SPARE_TEST_FAIL : Field := ⟨.ddcIntStatus, 6, 1, .w1c, 0⟩
-- DDC_SPARE: R410, spec/13_memory.md
def DDC_SPARE_SRC : Field := ⟨.ddcSpare, 0, 4, .wo, 0⟩
def DDC_SPARE_GO : Field := ⟨.ddcSpare, 4, 1, .wo, 0⟩
def DDC_SPARE_STATE : Field := ⟨.ddcSpare, 5, 3, .ro, 0⟩
def DDC_SPARE_MAPPED : Field := ⟨.ddcSpare, 8, 4, .ro, 0⟩
def DDC_SPARE_PROGRESS : Field := ⟨.ddcSpare, 16, 7, .ro, 0⟩
-- DDC_CE_CFG: R410, spec/13_memory.md
def DDC_CE_CFG_THRESH : Field := ⟨.ddcCeCfg, 0, 16, .rw, 0x3e8⟩
-- DDC_CE: R411, spec/13_memory.md
def DDC_CE_COUNT : Field := ⟨.ddcCe, 0, 48, .rc, 0⟩
-- DDC_CH_STATUS: R411, spec/13_memory.md
def DDC_CH_STATUS_STATE : Field := ⟨.ddcChStatus, 0, 3, .ro, 0⟩
def DDC_CH_STATUS_PAUSED : Field := ⟨.ddcChStatus, 3, 1, .ro, 0⟩
def DDC_CH_STATUS_RETRAIN_OK : Field := ⟨.ddcChStatus, 4, 1, .ro, 0⟩
def DDC_CH_STATUS_SELF_REFRESH : Field := ⟨.ddcChStatus, 5, 1, .ro, 0⟩
-- QSC_INT_STATUS: R441, spec/14_scheduling.md
def QSC_INT_STATUS_CFG_VIOLATION : Field := ⟨.qscIntStatus, 0, 1, .w1c, 0⟩
def QSC_INT_STATUS_FLUSH_DONE : Field := ⟨.qscIntStatus, 1, 1, .w1c, 0⟩
-- QSC_APPLY: R380, spec/12_buffering.md
def QSC_APPLY_GO : Field := ⟨.qscApply, 0, 1, .wo, 0⟩
def QSC_APPLY_PENDING : Field := ⟨.qscApply, 1, 1, .ro, 0⟩
-- QSC_CTRL: R441, spec/14_scheduling.md
def QSC_CTRL_RUN : Field := ⟨.qscCtrl, 0, 1, .rw, 0⟩
def QSC_CTRL_STOPPED : Field := ⟨.qscCtrl, 1, 1, .ro, 1⟩
def QSC_CTRL_VOQ_BLOCKS : Field := ⟨.qscCtrl, 2, 4, .rwx, 8⟩
-- QSC_WIN_SEL: R441, spec/14_scheduling.md
def QSC_WIN_SEL_LEVEL : Field := ⟨.qscWinSel, 0, 3, .rw, 0⟩
def QSC_WIN_SEL_BASE : Field := ⟨.qscWinSel, 8, 4, .rw, 0⟩
-- QSC_FLUSH: R441, spec/14_scheduling.md
def QSC_FLUSH_QUEUE : Field := ⟨.qscFlush, 0, 20, .rw, 0⟩
def QSC_FLUSH_GO : Field := ⟨.qscFlush, 20, 1, .wo, 0⟩
def QSC_FLUSH_BUSY : Field := ⟨.qscFlush, 21, 1, .ro, 0⟩
-- QSC_EQ_MAP: R442, spec/14_scheduling.md
def QSC_EQ_MAP_BASE : Field := ⟨.qscEqMap, 0, 20, .rws, 0⟩
def QSC_EQ_MAP_MODE : Field := ⟨.qscEqMap, 20, 1, .rws, 0⟩
def QSC_EQ_MAP_SPAN : Field := ⟨.qscEqMap, 24, 16, .rws, 0⟩
def QSC_EQ_MAP_RW_BASE : Field := ⟨.qscEqMap, 40, 21, .rws, 0⟩
-- QSC_NODE: R443, spec/14_scheduling.md
def QSC_NODE_EN : Field := ⟨.qscNode, 0, 1, .rw, 0⟩
def QSC_NODE_PRIO : Field := ⟨.qscNode, 1, 3, .rws, 0⟩
def QSC_NODE_WEIGHT : Field := ⟨.qscNode, 4, 12, .rws, 1⟩
def QSC_NODE_PARENT : Field := ⟨.qscNode, 16, 18, .rwx, 0⟩
-- QSC_NODE_STATUS: R443, spec/14_scheduling.md
def QSC_NODE_STATUS_BYTES : Field := ⟨.qscNodeStatus, 0, 40, .ro, 0⟩
def QSC_NODE_STATUS_ELIGIBLE : Field := ⟨.qscNodeStatus, 40, 1, .ro, 0⟩
def QSC_NODE_STATUS_GREEN : Field := ⟨.qscNodeStatus, 41, 1, .ro, 0⟩
def QSC_NODE_STATUS_BLOCKED : Field := ⟨.qscNodeStatus, 42, 1, .ro, 0⟩
def QSC_NODE_STATUS_DEEP : Field := ⟨.qscNodeStatus, 43, 1, .ro, 0⟩
-- SHP_INT_STATUS: R448, spec/14_scheduling.md
def SHP_INT_STATUS_CFG_VIOLATION : Field := ⟨.shpIntStatus, 0, 1, .w1c, 0⟩
-- SHP_APPLY: R380, spec/12_buffering.md
def SHP_APPLY_GO : Field := ⟨.shpApply, 0, 1, .wo, 0⟩
def SHP_APPLY_PENDING : Field := ⟨.shpApply, 1, 1, .ro, 0⟩
-- SHP_WIN_SEL: R441, spec/14_scheduling.md
def SHP_WIN_SEL_LEVEL : Field := ⟨.shpWinSel, 0, 3, .rw, 0⟩
def SHP_WIN_SEL_BASE : Field := ⟨.shpWinSel, 8, 4, .rw, 0⟩
-- SHP_COLOR_MAP: R450, spec/14_scheduling.md
def SHP_COLOR_MAP_COLORS : Field := ⟨.shpColorMap, 0, 64, .rws, 0⟩
-- SHP_CIR: R449, spec/14_scheduling.md
def SHP_CIR_RATE : Field := ⟨.shpCir, 0, 25, .rws, 0⟩
def SHP_CIR_CLEAR_DEBT : Field := ⟨.shpCir, 25, 1, .rws, 0⟩
def SHP_CIR_BURST : Field := ⟨.shpCir, 32, 25, .rws, 0x10000⟩
-- SHP_PIR: R449, spec/14_scheduling.md
def SHP_PIR_RATE : Field := ⟨.shpPir, 0, 25, .rws, 0⟩
def SHP_PIR_CLEAR_DEBT : Field := ⟨.shpPir, 25, 1, .rws, 0⟩
def SHP_PIR_BURST : Field := ⟨.shpPir, 32, 25, .rws, 0x10000⟩
def SHP_PIR_ADJ : Field := ⟨.shpPir, 57, 7, .rws, 0⟩
-- SHP_LEVEL: R449, spec/14_scheduling.md
def SHP_LEVEL_CIR_BUCKET : Field := ⟨.shpLevel, 0, 32, .ro, 0⟩
def SHP_LEVEL_PIR_BUCKET : Field := ⟨.shpLevel, 32, 32, .ro, 0⟩
-- SHP_POL_CFG: R449, spec/14_scheduling.md
def SHP_POL_CFG_MODE : Field := ⟨.shpPolCfg, 0, 2, .rws, 0⟩
def SHP_POL_CFG_AWARE : Field := ⟨.shpPolCfg, 2, 1, .rws, 0⟩
def SHP_POL_CFG_MAP : Field := ⟨.shpPolCfg, 3, 4, .rws, 0⟩
def SHP_POL_CFG_YELLOW_ACT : Field := ⟨.shpPolCfg, 7, 2, .rws, 0⟩
def SHP_POL_CFG_RED_ACT : Field := ⟨.shpPolCfg, 9, 1, .rws, 0⟩
def SHP_POL_CFG_YELLOW_CLASS : Field := ⟨.shpPolCfg, 10, 3, .rws, 0⟩
def SHP_POL_CFG_CNT_EN : Field := ⟨.shpPolCfg, 13, 1, .rws, 0⟩
def SHP_POL_CFG_CNT : Field := ⟨.shpPolCfg, 14, 30, .rws, 0⟩
-- TGT_INT_STATUS: R451, spec/14_scheduling.md
def TGT_INT_STATUS_CFG_VIOLATION : Field := ⟨.tgtIntStatus, 0, 1, .w1c, 0⟩
def TGT_INT_STATUS_SWITCHED : Field := ⟨.tgtIntStatus, 1, 1, .w1c, 0⟩
def TGT_INT_STATUS_OVERSIZE : Field := ⟨.tgtIntStatus, 2, 1, .w1c, 0⟩
-- TGT_APPLY: R380, spec/12_buffering.md
def TGT_APPLY_GO : Field := ⟨.tgtApply, 0, 1, .wo, 0⟩
def TGT_APPLY_PENDING : Field := ⟨.tgtApply, 1, 1, .ro, 0⟩
-- TGT_CTRL: R452, spec/14_scheduling.md
def TGT_CTRL_EN : Field := ⟨.tgtCtrl, 0, 1, .rw, 0⟩
def TGT_CTRL_CHANGE : Field := ⟨.tgtCtrl, 1, 1, .wo, 0⟩
def TGT_CTRL_SWITCH_PENDING : Field := ⟨.tgtCtrl, 2, 1, .ro, 0⟩
def TGT_CTRL_ADMIN_LEN_M1 : Field := ⟨.tgtCtrl, 8, 10, .rw, 0⟩
def TGT_CTRL_ADMIN_CYCLE : Field := ⟨.tgtCtrl, 32, 30, .rw, 0x3b9aca00⟩
-- TGT_BASE_SEC: R452, spec/14_scheduling.md
def TGT_BASE_SEC_SEC : Field := ⟨.tgtBaseSec, 0, 48, .rw, 0⟩
-- TGT_BASE_NS: R452, spec/14_scheduling.md
def TGT_BASE_NS_NS : Field := ⟨.tgtBaseNs, 0, 30, .rw, 0⟩
def TGT_BASE_NS_GUARD : Field := ⟨.tgtBaseNs, 32, 16, .rws, 0xd4⟩
def TGT_BASE_NS_LEAD : Field := ⟨.tgtBaseNs, 48, 16, .rws, 0x1f4⟩
-- TGT_STATUS: R452, spec/14_scheduling.md
def TGT_STATUS_GATES : Field := ⟨.tgtStatus, 0, 8, .ro, 0xff⟩
def TGT_STATUS_ENTRY : Field := ⟨.tgtStatus, 8, 10, .ro, 0⟩
-- TGT_ADMIN: R453, spec/14_scheduling.md
def TGT_ADMIN_GATES : Field := ⟨.tgtAdmin, 0, 8, .rw, 0⟩
def TGT_ADMIN_INTERVAL : Field := ⟨.tgtAdmin, 8, 30, .rw, 0⟩
-- TGT_OPER: R453, spec/14_scheduling.md
def TGT_OPER_GATES : Field := ⟨.tgtOper, 0, 8, .ro, 0⟩
def TGT_OPER_INTERVAL : Field := ⟨.tgtOper, 8, 30, .ro, 0⟩
-- FAB_INT_STATUS: R481, spec/15_fabric.md
def FAB_INT_STATUS_CFG_VIOLATION : Field := ⟨.fabIntStatus, 0, 1, .w1c, 0⟩
def FAB_INT_STATUS_LOCK_CHG : Field := ⟨.fabIntStatus, 1, 1, .w1c, 0⟩
def FAB_INT_STATUS_AMBIGUOUS : Field := ⟨.fabIntStatus, 2, 1, .w1c, 0⟩
def FAB_INT_STATUS_RDI_CHG : Field := ⟨.fabIntStatus, 3, 1, .w1c, 0⟩
def FAB_INT_STATUS_SPRAY_CHG : Field := ⟨.fabIntStatus, 4, 1, .w1c, 0⟩
-- FAB_MACRO_CTRL: R481, spec/15_fabric.md
def FAB_MACRO_CTRL_RUN : Field := ⟨.fabMacroCtrl, 0, 1, .rw, 0⟩
def FAB_MACRO_CTRL_STOPPED : Field := ⟨.fabMacroCtrl, 1, 1, .ro, 1⟩
def FAB_MACRO_CTRL_LEGACY : Field := ⟨.fabMacroCtrl, 2, 1, .rwx, 0⟩
-- FAB_LINK_CFG: R482, spec/15_fabric.md
def FAB_LINK_CFG_EN : Field := ⟨.fabLinkCfg, 0, 1, .rw, 0⟩
def FAB_LINK_CFG_TX_INV : Field := ⟨.fabLinkCfg, 1, 1, .rwx, 0⟩
def FAB_LINK_CFG_RX_INV : Field := ⟨.fabLinkCfg, 2, 1, .rwx, 0⟩
def FAB_LINK_CFG_TX_PRESET : Field := ⟨.fabLinkCfg, 8, 4, .rwx, 0⟩
-- FAB_LINK_STATUS: R482, spec/15_fabric.md
def FAB_LINK_STATUS_STATE : Field := ⟨.fabLinkStatus, 0, 2, .ro, 0⟩
def FAB_LINK_STATUS_CANDIDATES : Field := ⟨.fabLinkStatus, 2, 6, .ro, 0⟩
def FAB_LINK_STATUS_RDI_RX : Field := ⟨.fabLinkStatus, 8, 1, .ro, 0⟩
def FAB_LINK_STATUS_IN_SPRAY : Field := ⟨.fabLinkStatus, 9, 1, .ro, 0⟩
def FAB_LINK_STATUS_REACH_RX : Field := ⟨.fabLinkStatus, 10, 1, .ro, 0⟩
def FAB_LINK_STATUS_FAR_ID : Field := ⟨.fabLinkStatus, 16, 11, .ro, 0⟩
def FAB_LINK_STATUS_FAR_LINK : Field := ⟨.fabLinkStatus, 27, 9, .ro, 0⟩
def FAB_LINK_STATUS_FAR_LEGACY : Field := ⟨.fabLinkStatus, 36, 1, .ro, 0⟩
-- FAB_AMBIG: R482, spec/15_fabric.md
def FAB_AMBIG_COUNT : Field := ⟨.fabAmbig, 0, 48, .rc, 0⟩
-- FAB_CAND_OVF: R482, spec/15_fabric.md
def FAB_CAND_OVF_COUNT : Field := ⟨.fabCandOvf, 0, 48, .rc, 0⟩
-- FAB_HCS_ERR: R482, spec/15_fabric.md
def FAB_HCS_ERR_COUNT : Field := ⟨.fabHcsErr, 0, 48, .rc, 0⟩
-- FABCMN_INT_STATUS: R483, spec/15_fabric.md
def FABCMN_INT_STATUS_CFG_VIOLATION : Field := ⟨.fabCmnIntStatus, 0, 1, .w1c, 0⟩
def FABCMN_INT_STATUS_HB_LOST : Field := ⟨.fabCmnIntStatus, 1, 1, .w1c, 0⟩
def FABCMN_INT_STATUS_HB_RESTORED : Field := ⟨.fabCmnIntStatus, 2, 1, .w1c, 0⟩
def FABCMN_INT_STATUS_UNREACH : Field := ⟨.fabCmnIntStatus, 3, 1, .w1c, 0⟩
def FABCMN_INT_STATUS_REASM_TIMEOUT : Field := ⟨.fabCmnIntStatus, 4, 1, .w1c, 0⟩
def FABCMN_INT_STATUS_MISADDR : Field := ⟨.fabCmnIntStatus, 5, 1, .w1c, 0⟩
-- FABCMN_APPLY: R380, spec/12_buffering.md
def FABCMN_APPLY_GO : Field := ⟨.fabCmnApply, 0, 1, .wo, 0⟩
def FABCMN_APPLY_PENDING : Field := ⟨.fabCmnApply, 1, 1, .ro, 0⟩
-- FABCMN_CTRL: R483, spec/15_fabric.md
def FABCMN_CTRL_MODULE_ID : Field := ⟨.fabCmnCtrl, 0, 11, .rwx, 0⟩
def FABCMN_CTRL_REORDER_TIMEOUT : Field := ⟨.fabCmnCtrl, 16, 16, .rws, 0x10⟩
def FABCMN_CTRL_UNREACH_HOLD : Field := ⟨.fabCmnCtrl, 32, 16, .rws, 0x3e8⟩
def FABCMN_CTRL_REJOIN_FRAMES : Field := ⟨.fabCmnCtrl, 48, 12, .rws, 0x400⟩
-- FABCMN_PAIR_MAP: R484, spec/15_fabric.md
def FABCMN_PAIR_MAP_PAIRS : Field := ⟨.fabCmnPairMap, 0, 64, .rwx, 0⟩
-- FABCMN_HB_SET: R484, spec/15_fabric.md
def FABCMN_HB_SET_MODULES : Field := ⟨.fabCmnHbSet, 0, 64, .rw, 0⟩
-- FABCMN_DEST_SEL: R484, spec/15_fabric.md
def FABCMN_DEST_SEL_DEST : Field := ⟨.fabCmnDestSel, 0, 11, .rw, 0⟩
def FABCMN_DEST_SEL_P : Field := ⟨.fabCmnDestSel, 11, 1, .rw, 0⟩
-- FABCMN_DEST_STATUS: R484, spec/15_fabric.md
def FABCMN_DEST_STATUS_LINKS : Field := ⟨.fabCmnDestStatus, 0, 9, .ro, 0⟩
def FABCMN_DEST_STATUS_HB : Field := ⟨.fabCmnDestStatus, 9, 2, .ro, 0⟩
def FABCMN_DEST_STATUS_REACHABLE : Field := ⟨.fabCmnDestStatus, 11, 1, .ro, 0⟩
def FABCMN_DEST_STATUS_DROPPING : Field := ⟨.fabCmnDestStatus, 12, 1, .ro, 0⟩
def FABCMN_DEST_STATUS_EPOCH : Field := ⟨.fabCmnDestStatus, 13, 8, .ro, 0⟩
def FABCMN_DEST_STATUS_SEQ_NEXT : Field := ⟨.fabCmnDestStatus, 21, 32, .ro, 0⟩
-- FABCMN_CELLS_LOST: R485, spec/15_fabric.md
def FABCMN_CELLS_LOST_COUNT : Field := ⟨.fabCmnCellsLost, 0, 48, .rc, 0⟩
-- FABCMN_CELLS_LATE: R485, spec/15_fabric.md
def FABCMN_CELLS_LATE_COUNT : Field := ⟨.fabCmnCellsLate, 0, 48, .rc, 0⟩
-- FABCMN_MISADDR: R485, spec/15_fabric.md
def FABCMN_MISADDR_COUNT : Field := ⟨.fabCmnMisaddr, 0, 48, .rc, 0⟩
-- FABCMN_SLOT_NOPATH: R485, spec/15_fabric.md
def FABCMN_SLOT_NOPATH_COUNT : Field := ⟨.fabCmnSlotNopath, 0, 48, .rc, 0⟩
-- CRD_INT_STATUS: R444, spec/14_scheduling.md
def CRD_INT_STATUS_CFG_VIOLATION : Field := ⟨.crdIntStatus, 0, 1, .w1c, 0⟩
def CRD_INT_STATUS_REQ_TIMEOUT : Field := ⟨.crdIntStatus, 1, 1, .w1c, 0⟩
def CRD_INT_STATUS_REQ_OVF : Field := ⟨.crdIntStatus, 2, 1, .w1c, 0⟩
-- CRD_APPLY: R380, spec/12_buffering.md
def CRD_APPLY_GO : Field := ⟨.crdApply, 0, 1, .wo, 0⟩
def CRD_APPLY_PENDING : Field := ⟨.crdApply, 1, 1, .ro, 0⟩
-- CRD_CTRL: R444, spec/14_scheduling.md
def CRD_CTRL_QUANTUM : Field := ⟨.crdCtrl, 0, 3, .rws, 2⟩
def CRD_CTRL_REQ_MAX : Field := ⟨.crdCtrl, 3, 4, .rws, 2⟩
def CRD_CTRL_DEFER_BACKOFF : Field := ⟨.crdCtrl, 8, 8, .rws, 0x10⟩
def CRD_CTRL_REQ_TIMEOUT : Field := ⟨.crdCtrl, 16, 8, .rws, 0x14⟩
def CRD_CTRL_IDLE_CLR : Field := ⟨.crdCtrl, 24, 16, .rws, 0x64⟩
-- CRD_FAB: R444, spec/14_scheduling.md
def CRD_FAB_FAB_RATE : Field := ⟨.crdFab, 0, 30, .rws, 0x37e11d60⟩
def CRD_FAB_MEMBER_MBPS : Field := ⟨.crdFab, 32, 16, .rws, 0x1482⟩
-- CRD_STATUS: R444, spec/14_scheduling.md
def CRD_STATUS_RES_RATE : Field := ⟨.crdStatus, 0, 30, .ro, 0⟩
-- CRD_GRANTS: R447, spec/14_scheduling.md
def CRD_GRANTS_COUNT : Field := ⟨.crdGrants, 0, 48, .rc, 0⟩
-- CRD_DEFERS: R447, spec/14_scheduling.md
def CRD_DEFERS_COUNT : Field := ⟨.crdDefers, 0, 48, .rc, 0⟩
-- CRD_REQ_TIMEOUT: R447, spec/14_scheduling.md
def CRD_REQ_TIMEOUT_COUNT : Field := ⟨.crdReqTimeout, 0, 48, .rc, 0⟩
-- CRD_REQ_OVF: R447, spec/14_scheduling.md
def CRD_REQ_OVF_COUNT : Field := ⟨.crdReqOvf, 0, 48, .rc, 0⟩
-- CRD_VOQ_SEL: R447, spec/14_scheduling.md
def CRD_VOQ_SEL_QUEUE : Field := ⟨.crdVoqSel, 0, 20, .rw, 0⟩
-- CRD_VOQ_STATE: R447, spec/14_scheduling.md
def CRD_VOQ_STATE_BALANCE : Field := ⟨.crdVoqState, 0, 32, .ro, 0⟩
def CRD_VOQ_STATE_OUT : Field := ⟨.crdVoqState, 32, 4, .ro, 0⟩
-- CRD_PG_CFG: R445, spec/14_scheduling.md
def CRD_PG_CFG_EN : Field := ⟨.crdPgCfg, 0, 1, .rw, 0⟩
def CRD_PG_CFG_ANSWER : Field := ⟨.crdPgCfg, 1, 1, .ro, 0⟩
def CRD_PG_CFG_PROT_EN : Field := ⟨.crdPgCfg, 2, 1, .rws, 0⟩
def CRD_PG_CFG_PROT : Field := ⟨.crdPgCfg, 3, 5, .rws, 0⟩
def CRD_PG_CFG_WINDOW : Field := ⟨.crdPgCfg, 8, 10, .rws, 0x100⟩
def CRD_PG_CFG_RATE : Field := ⟨.crdPgCfg, 22, 25, .rws, 0x17d7840⟩
def CRD_PG_CFG_BURST : Field := ⟨.crdPgCfg, 47, 8, .rws, 0x10⟩
-- CRD_CLASS: R445, spec/14_scheduling.md
def CRD_CLASS_GUAR : Field := ⟨.crdClass, 0, 10, .rws, 0⟩
def CRD_CLASS_ALPHA : Field := ⟨.crdClass, 12, 4, .rws, 6⟩
def CRD_CLASS_USED : Field := ⟨.crdClass, 24, 25, .ro, 0⟩
-- CRD_RES: R446, spec/14_scheduling.md
def CRD_RES_EN : Field := ⟨.crdRes, 0, 1, .rw, 0⟩
def CRD_RES_SRC_MOD : Field := ⟨.crdRes, 8, 11, .rwx, 0⟩
def CRD_RES_SRC_CKT : Field := ⟨.crdRes, 20, 12, .rwx, 0⟩
def CRD_RES_MEMBERS_M1 : Field := ⟨.crdRes, 32, 8, .rwx, 0⟩

end Sys2Proof.Machine.Fld
end

