-- ==== Sys2Proof/Machine/RegTable.lean ====
section
/-!
DEFINITION. Machine/RegTable.lean: the register map: where each register lies (spec/20_register_map.md R598, R606), the fields it has, and the
address of a register and the register of an address.
-/
namespace Sys2Proof.Machine

/-- Where a block lies: base, instances, stride (R598), and how many bytes of PF0 BAR0 are its range (R110, R599). -/
structure BlockInfo where
  base : Nat
  count : Nat
  stride : Nat
  size : Nat
  deriving DecidableEq, Repr

/-- R598, with the range of each block up to the next base (R110). -/
def blockInfo : Block → BlockInfo
  | .gen => ⟨0x0, 1, 0x0, 0x100000⟩
  | .pce => ⟨0x100000, 1, 0x0, 0x100000⟩
  | .rng => ⟨0x200000, 1, 0x0, 0x100000⟩
  | .mbx => ⟨0x300000, 1, 0x0, 0x10000⟩
  | .sem => ⟨0x310000, 1, 0x0, 0xf0000⟩
  | .tim => ⟨0x400000, 1, 0x0, 0x100000⟩
  | .prt => ⟨0x500000, 1, 0x0, 0x100000⟩
  | .mil => ⟨0x600000, 1, 0x0, 0x100000⟩
  | .dsc => ⟨0x700000, 1, 0x0, 0x900000⟩
  | .lin => ⟨0x1000000, 16, 0x100000, 0x1000000⟩
  | .flx => ⟨0x2000000, 1, 0x0, 0x100000⟩
  | .pmn => ⟨0x2100000, 1, 0x0, 0xf00000⟩
  | .prs => ⟨0x3000000, 16, 0x20000, 0x1000000⟩
  | .lkp => ⟨0x4000000, 1, 0x0, 0x1000000⟩
  | .asa => ⟨0x5000000, 1, 0x0, 0x1000000⟩
  | .cmt => ⟨0x6000000, 1, 0x0, 0x1000000⟩
  | .egr => ⟨0x7000000, 1, 0x0, 0x1000000⟩
  | .bpm => ⟨0x8000000, 1, 0x0, 0x100000⟩
  | .adm => ⟨0x8100000, 1, 0x0, 0xf00000⟩
  | .ddc => ⟨0x9000000, 9, 0x100000, 0x1000000⟩
  | .qsc => ⟨0xa000000, 1, 0x0, 0x1000000⟩
  | .shp => ⟨0xb000000, 1, 0x0, 0x800000⟩
  | .tgt => ⟨0xb800000, 1, 0x0, 0x800000⟩
  | .fab => ⟨0xc000000, 5, 0x100000, 0x800000⟩
  | .fabCmn => ⟨0xc800000, 1, 0x0, 0x800000⟩
  | .crd => ⟨0xd000000, 1, 0x0, 0x1000000⟩

/-- A register array: its block, its offset from the instance base, the counts and strides of its two indices, and
its fields (R606 and the field tables). -/
structure RegInfo where
  block : Block
  off : Nat
  n1 : Nat
  s1 : Nat
  n2 : Nat
  s2 : Nat
  fields : List Field
  deriving DecidableEq, Repr

/-- The fields of an INT_ENABLE register: those of the INT_STATUS, class RW, reset 0 (R598). -/
def enableFields (en : Reg) (causes : List Field) : List Field :=
  causes.map fun f => { f with reg := en, acc := .rw, rst := 0 }

open Fld

/-- R606 with the field tables of each chapter. The four stores behind the windows have no address in BAR0: they lie
beyond it, one instance per level. -/
def Reg.info : Reg → RegInfo
  | .genIdOrder => ⟨.gen, 0x0, 2, 8, 1, 8, [GEN_ID_ORDER_ORDER]⟩
  | .genIdRev => ⟨.gen, 0x10, 1, 8, 1, 8, [GEN_ID_REV_MOD_REV, GEN_ID_REV_FX_REV, GEN_ID_REV_QX_REV]⟩
  | .genIdSerial => ⟨.gen, 0x18, 1, 8, 1, 8, [GEN_ID_SERIAL_SERIAL]⟩
  | .genIntSummary => ⟨.gen, 0x100, 1, 8, 1, 8, [GEN_INT_SUMMARY_GEN, GEN_INT_SUMMARY_PCE, GEN_INT_SUMMARY_RNG,
      GEN_INT_SUMMARY_MBX, GEN_INT_SUMMARY_SEM, GEN_INT_SUMMARY_TIM, GEN_INT_SUMMARY_PRT, GEN_INT_SUMMARY_MIL,
      GEN_INT_SUMMARY_LIN, GEN_INT_SUMMARY_FLX, GEN_INT_SUMMARY_PMN, GEN_INT_SUMMARY_PRS, GEN_INT_SUMMARY_LKP,
      GEN_INT_SUMMARY_ASA, GEN_INT_SUMMARY_CMT, GEN_INT_SUMMARY_EGR, GEN_INT_SUMMARY_BPM, GEN_INT_SUMMARY_ADM,
      GEN_INT_SUMMARY_DDC, GEN_INT_SUMMARY_QSC, GEN_INT_SUMMARY_SHP, GEN_INT_SUMMARY_TGT, GEN_INT_SUMMARY_FAB,
      GEN_INT_SUMMARY_FAB_CMN, GEN_INT_SUMMARY_CRD]⟩
  | .genIntInst => ⟨.gen, 0x108, 1, 8, 1, 8, [GEN_INT_INST_LIN, GEN_INT_INST_PRS, GEN_INT_INST_DDC, GEN_INT_INST_FAB]⟩
  | .genIntStatus => ⟨.gen, 0x110, 1, 8, 1, 8, [GEN_INT_STATUS_CFG_VIOLATION, GEN_INT_STATUS_PHASE_CHG,
      GEN_INT_STATUS_PHASE_REQ_REJ, GEN_INT_STATUS_COUCH_RETRAIN, GEN_INT_STATUS_COUCH_DOWN,
      GEN_INT_STATUS_MATE_PRESENT_CHG, GEN_INT_STATUS_ALIVE_IN_CHG, GEN_INT_STATUS_THERMAL_WARN,
      GEN_INT_STATUS_THERMAL_CRIT, GEN_INT_STATUS_OFFLINE_ACC]⟩
  | .genIntEnable => ⟨.gen, 0x118, 1, 8, 1, 8, enableFields .genIntEnable [GEN_INT_STATUS_CFG_VIOLATION,
      GEN_INT_STATUS_PHASE_CHG, GEN_INT_STATUS_PHASE_REQ_REJ, GEN_INT_STATUS_COUCH_RETRAIN,
      GEN_INT_STATUS_COUCH_DOWN, GEN_INT_STATUS_MATE_PRESENT_CHG, GEN_INT_STATUS_ALIVE_IN_CHG,
      GEN_INT_STATUS_THERMAL_WARN, GEN_INT_STATUS_THERMAL_CRIT, GEN_INT_STATUS_OFFLINE_ACC]⟩
  | .genPhase => ⟨.gen, 0x200, 1, 8, 1, 8, [GEN_PHASE_PHASE, GEN_PHASE_IMAGE, GEN_PHASE_ISO_CAUSE,
      GEN_PHASE_TEST_MAP, GEN_PHASE_BOOT_FAIL, GEN_PHASE_TEST_QX]⟩
  | .genPhaseCtrl => ⟨.gen, 0x208, 1, 8, 1, 8, [GEN_PHASE_CTRL_REQ]⟩
  | .genDomainReset => ⟨.gen, 0x210, 1, 8, 1, 8, [GEN_DOMAIN_RESET_HOLD]⟩
  | .genDomainStatus => ⟨.gen, 0x218, 1, 8, 1, 8, [GEN_DOMAIN_STATUS_READY, GEN_DOMAIN_STATUS_POWERED]⟩
  | .genResetCtrl => ⟨.gen, 0x220, 1, 8, 1, 8, [GEN_RESET_CTRL_COLD, GEN_RESET_CTRL_WARM_QX, GEN_RESET_CTRL_KEY]⟩
  | .genResetCause => ⟨.gen, 0x228, 1, 8, 1, 8, [GEN_RESET_CAUSE_POWER_ON, GEN_RESET_CAUSE_MOD_RESET,
      GEN_RESET_CAUSE_SW_COLD, GEN_RESET_CAUSE_PREV_THERMAL, GEN_RESET_CAUSE_PREV_POWER_FAIL,
      GEN_RESET_CAUSE_WARM_QX, GEN_RESET_CAUSE_ML_RESTART, GEN_RESET_CAUSE_HOST_RESET]⟩
  | .genCouchStatus => ⟨.gen, 0x800, 1, 8, 1, 8, [GEN_COUCH_STATUS_STATE, GEN_COUCH_STATUS_REPLAYING,
      GEN_COUCH_STATUS_RETRAINS]⟩
  | .genCouchCrcErr => ⟨.gen, 0x810, 2, 8, 1, 8, [GEN_COUCH_CRC_ERR_COUNT]⟩
  | .genCouchRetry => ⟨.gen, 0x820, 2, 8, 1, 8, [GEN_COUCH_RETRY_COUNT]⟩
  | .genOfflineAcc => ⟨.gen, 0x830, 1, 8, 1, 8, [GEN_OFFLINE_ACC_OFFSET, GEN_OFFLINE_ACC_DOMAIN,
      GEN_OFFLINE_ACC_WRITE, GEN_OFFLINE_ACC_COUCH, GEN_OFFLINE_ACC_REQ, GEN_OFFLINE_ACC_COUNT]⟩
  | .genPinStatus => ⟨.gen, 0x840, 1, 8, 1, 8, [GEN_PIN_STATUS_SLOT_ID, GEN_PIN_STATUS_MATE_PRESENT,
      GEN_PIN_STATUS_ALIVE_IN, GEN_PIN_STATUS_ALIVE_OUT, GEN_PIN_STATUS_PERST, GEN_PIN_STATUS_SAMPLED]⟩
  | .pceLinkStatus => ⟨.pce, 0x0, 1, 8, 1, 8, [PCE_LINK_STATUS_RATE, PCE_LINK_STATUS_WIDTH, PCE_LINK_STATUS_FLIT,
      PCE_LINK_STATUS_LTSSM, PCE_LINK_STATUS_RETRAINS]⟩
  | .pceIntStatus => ⟨.pce, 0x10, 1, 8, 1, 8, [PCE_INT_STATUS_UR_LOGGED, PCE_INT_STATUS_WIN_CFG_VIOL,
      PCE_INT_STATUS_UIE, PCE_INT_STATUS_LINK_CHG, PCE_INT_STATUS_DL_DOWN]⟩
  | .pceIntEnable => ⟨.pce, 0x18, 1, 8, 1, 8, enableFields .pceIntEnable [PCE_INT_STATUS_UR_LOGGED,
      PCE_INT_STATUS_WIN_CFG_VIOL, PCE_INT_STATUS_UIE, PCE_INT_STATUS_LINK_CHG, PCE_INT_STATUS_DL_DOWN]⟩
  | .pceUrLogAddr => ⟨.pce, 0x100, 1, 8, 1, 8, [PCE_UR_LOG_ADDR_OFFSET]⟩
  | .pceUrLogInfo => ⟨.pce, 0x108, 1, 8, 1, 8, [PCE_UR_LOG_INFO_REQ_ID, PCE_UR_LOG_INFO_FUNC, PCE_UR_LOG_INFO_BAR,
      PCE_UR_LOG_INFO_TYPE, PCE_UR_LOG_INFO_REASON, PCE_UR_LOG_INFO_VALID, PCE_UR_LOG_INFO_COUNT]⟩
  | .pceTagCtrl => ⟨.pce, 0x200, 1, 8, 1, 8, [PCE_TAG_CTRL_ALPHA]⟩
  | .pceWin => ⟨.pce, 0x400, 16, 16, 1, 8, [PCE_WIN_OPEN, PCE_WIN_WRITE_EN, PCE_WIN_SIZE, PCE_WIN_BASE]⟩
  | .pceWinGen => ⟨.pce, 0x408, 16, 16, 1, 8, [PCE_WIN_GEN_GEN, PCE_WIN_GEN_INFLIGHT]⟩
  | .pceCntWin => ⟨.pce, 0x600, 32, 8, 1, 8, [PCE_CNT_WIN_BASE, PCE_CNT_WIN_SPACE]⟩
  | .pceHwmBase => ⟨.pce, 0x700, 1, 8, 1, 8, [PCE_HWM_BASE_BLOCK]⟩
  | .pceDiscardCpl => ⟨.pce, 0x710, 1, 8, 1, 8, [PCE_DISCARD_CPL_COUNT]⟩
  | .pcePoisonRx => ⟨.pce, 0x718, 1, 8, 1, 8, [PCE_POISON_RX_COUNT]⟩
  | .pcePoisonTx => ⟨.pce, 0x720, 1, 8, 1, 8, [PCE_POISON_TX_COUNT]⟩
  | .rngAddr => ⟨.rng, 0x0, 16384, 32, 1, 8, [RNG_ADDR_BASE]⟩
  | .rngCfg => ⟨.rng, 0x8, 16384, 32, 1, 8, [RNG_CFG_ENABLE, RNG_CFG_SIZE, RNG_CFG_VECTOR, RNG_CFG_IRQ_EN,
      RNG_CFG_COAL_COUNT, RNG_CFG_COAL_TIME, RNG_CFG_GUAR, RNG_CFG_SLICE]⟩
  | .rngState => ⟨.rng, 0x10, 16384, 32, 1, 8, [RNG_STATE_STATE, RNG_STATE_HALT_CODE, RNG_STATE_INFLIGHT]⟩
  | .rngIntStatus => ⟨.rng, 0x80000, 1, 8, 1, 8, [RNG_INT_STATUS_RING_HALTED, RNG_INT_STATUS_GUAR_VIOL,
      RNG_INT_STATUS_EVT_LOST, RNG_INT_STATUS_CFG_VIOLATION]⟩
  | .rngIntEnable => ⟨.rng, 0x80008, 1, 8, 1, 8, enableFields .rngIntEnable [RNG_INT_STATUS_RING_HALTED,
      RNG_INT_STATUS_GUAR_VIOL, RNG_INT_STATUS_EVT_LOST, RNG_INT_STATUS_CFG_VIOLATION]⟩
  | .rngDmaCtrl => ⟨.rng, 0x80010, 1, 8, 1, 8, [RNG_DMA_CTRL_ALPHA]⟩
  | .rngHaltLog => ⟨.rng, 0x80018, 1, 8, 1, 8, [RNG_HALT_LOG_RING, RNG_HALT_LOG_CODE, RNG_HALT_LOG_COUNT]⟩
  | .rngEvtMap => ⟨.rng, 0x80100, 29, 8, 1, 8, [RNG_EVT_MAP_RING, RNG_EVT_MAP_EN]⟩
  | .mbxH2mPtr => ⟨.mbx, 0x0, 8, 64, 1, 8, [MBX_H2M_PTR_ADDR]⟩
  | .mbxH2mPost => ⟨.mbx, 0x8, 8, 64, 1, 8, [MBX_H2M_POST_LEN, MBX_H2M_POST_TAG, MBX_H2M_POST_SEQ]⟩
  | .mbxH2mStat => ⟨.mbx, 0x10, 8, 64, 1, 8, [MBX_H2M_STAT_FULL, MBX_H2M_STAT_COLLISION, MBX_H2M_STAT_TIMEOUT,
      MBX_H2M_STAT_CROSS, MBX_H2M_STAT_ACK_CODE, MBX_H2M_STAT_ACK_SEQ]⟩
  | .mbxM2hPtr => ⟨.mbx, 0x18, 8, 64, 1, 8, [MBX_M2H_PTR_ADDR]⟩
  | .mbxM2hNote => ⟨.mbx, 0x20, 8, 64, 1, 8, [MBX_M2H_NOTE_LEN, MBX_M2H_NOTE_TAG, MBX_M2H_NOTE_SEQ,
      MBX_M2H_NOTE_FULL]⟩
  | .mbxM2hTake => ⟨.mbx, 0x28, 8, 64, 1, 8, [MBX_M2H_TAKE_TAKE, MBX_M2H_TAKE_CODE]⟩
  | .mbxMode => ⟨.mbx, 0x30, 8, 64, 1, 8, [MBX_MODE_FR_ACK]⟩
  | .mbxIntStatus => ⟨.mbx, 0x200, 1, 8, 1, 8, [MBX_INT_STATUS_H2M_EMPTY, MBX_INT_STATUS_M2H_NOTICE,
      MBX_INT_STATUS_COLLISION, MBX_INT_STATUS_TIMEOUT, MBX_INT_STATUS_CROSS, MBX_INT_STATUS_CFG_VIOLATION]⟩
  | .mbxIntEnable => ⟨.mbx, 0x208, 1, 8, 1, 8, enableFields .mbxIntEnable [MBX_INT_STATUS_H2M_EMPTY,
      MBX_INT_STATUS_M2H_NOTICE, MBX_INT_STATUS_COLLISION, MBX_INT_STATUS_TIMEOUT, MBX_INT_STATUS_CROSS,
      MBX_INT_STATUS_CFG_VIOLATION]⟩
  | .mbxSvcCtrl => ⟨.mbx, 0x210, 1, 8, 1, 8, [MBX_SVC_CTRL_ALPHA]⟩
  | .semLock => ⟨.sem, 0x0, 64, 8, 1, 8, [SEM_LOCK_OWNER]⟩
  | .semRelease => ⟨.sem, 0x200, 64, 8, 1, 8, [SEM_RELEASE_REL, SEM_RELEASE_FORCE]⟩
  | .semHeld => ⟨.sem, 0x400, 1, 8, 1, 8, [SEM_HELD_HELD]⟩
  | .semForeign => ⟨.sem, 0x408, 1, 8, 1, 8, [SEM_FOREIGN_COUNT]⟩
  | .semIntStatus => ⟨.sem, 0x410, 1, 8, 1, 8, [SEM_INT_STATUS_AUTO_REL]⟩
  | .semIntEnable => ⟨.sem, 0x418, 1, 8, 1, 8, enableFields .semIntEnable [SEM_INT_STATUS_AUTO_REL]⟩
  | .timIntStatus => ⟨.tim, 0x0, 1, 8, 1, 8, [TIM_INT_STATUS_STATE_CHG, TIM_INT_STATUS_STEPPED,
      TIM_INT_STATUS_SRC_LOST, TIM_INT_STATUS_TOD_ERR, TIM_INT_STATUS_SYNCE_SQUELCH, TIM_INT_STATUS_CFG_VIOLATION]⟩
  | .timIntEnable => ⟨.tim, 0x8, 1, 8, 1, 8, enableFields .timIntEnable [TIM_INT_STATUS_STATE_CHG,
      TIM_INT_STATUS_STEPPED, TIM_INT_STATUS_SRC_LOST, TIM_INT_STATUS_TOD_ERR, TIM_INT_STATUS_SYNCE_SQUELCH,
      TIM_INT_STATUS_CFG_VIOLATION]⟩
  | .timApply => ⟨.tim, 0x10, 1, 8, 1, 8, [TIM_APPLY_GO, TIM_APPLY_PENDING]⟩
  | .timCtrl => ⟨.tim, 0x20, 1, 8, 1, 8, [TIM_CTRL_SRC, TIM_CTRL_FAB_MASTER, TIM_CTRL_REF10M_EN, TIM_CTRL_MASTER_ID,
      TIM_CTRL_LOG_RATE, TIM_CTRL_FILTER_NS, TIM_CTRL_STEP_NS, TIM_CTRL_LOCK_NS]⟩
  | .timCal => ⟨.tim, 0x28, 1, 8, 1, 8, [TIM_CAL_ASYM, TIM_CAL_PPS_IN_DELAY, TIM_CAL_PPS_OUT_ADV]⟩
  | .timStatus => ⟨.tim, 0x30, 1, 8, 1, 8, [TIM_STATUS_STATE, TIM_STATUS_REF10M_OK, TIM_STATUS_HOLD_SEC,
      TIM_STATUS_OFFSET]⟩
  | .timNowSec => ⟨.tim, 0x40, 1, 8, 1, 8, [TIM_NOW_SEC_SEC]⟩
  | .timNowNs => ⟨.tim, 0x48, 1, 8, 1, 8, [TIM_NOW_NS_FRAC, TIM_NOW_NS_NS]⟩
  | .timAdj => ⟨.tim, 0x50, 1, 8, 1, 8, [TIM_ADJ_PHASE, TIM_ADJ_STEP, TIM_ADJ_LOAD]⟩
  | .timFreq => ⟨.tim, 0x58, 1, 8, 1, 8, [TIM_FREQ_PPB]⟩
  | .timLoadSec => ⟨.tim, 0x60, 1, 8, 1, 8, [TIM_LOAD_SEC_SEC]⟩
  | .timFabDiscard => ⟨.tim, 0x70, 1, 8, 1, 8, [TIM_FAB_DISCARD_COUNT]⟩
  | .timSynce => ⟨.tim, 0x100, 4, 8, 1, 8, [TIM_SYNCE_LANE, TIM_SYNCE_FREQ, TIM_SYNCE_SQUELCH_EN,
      TIM_SYNCE_SQUELCHED]⟩
  | .prtIntStatus => ⟨.prt, 0x0, 1, 8, 1, 8, [PRT_INT_STATUS_SWITCHED, PRT_INT_STATUS_MATE_CLAIMED,
      PRT_INT_STATUS_PAIR_STATE_CHG, PRT_INT_STATUS_FELT_CHG, PRT_INT_STATUS_MISMATCH, PRT_INT_STATUS_DIVERGENCE,
      PRT_INT_STATUS_SELFTEST_ALARM, PRT_INT_STATUS_ALIVE_FAULT, PRT_INT_STATUS_SWITCH_BLOCKED,
      PRT_INT_STATUS_RECOVERY_DONE, PRT_INT_STATUS_HEALTH_CHG, PRT_INT_STATUS_CFG_VIOLATION]⟩
  | .prtIntEnable => ⟨.prt, 0x8, 1, 8, 1, 8, enableFields .prtIntEnable [PRT_INT_STATUS_SWITCHED,
      PRT_INT_STATUS_MATE_CLAIMED, PRT_INT_STATUS_PAIR_STATE_CHG, PRT_INT_STATUS_FELT_CHG, PRT_INT_STATUS_MISMATCH,
      PRT_INT_STATUS_DIVERGENCE, PRT_INT_STATUS_SELFTEST_ALARM, PRT_INT_STATUS_ALIVE_FAULT,
      PRT_INT_STATUS_SWITCH_BLOCKED, PRT_INT_STATUS_RECOVERY_DONE, PRT_INT_STATUS_HEALTH_CHG,
      PRT_INT_STATUS_CFG_VIOLATION]⟩
  | .prtApply => ⟨.prt, 0x10, 1, 8, 1, 8, [PRT_APPLY_GO, PRT_APPLY_PENDING]⟩
  | .prtCtrl => ⟨.prt, 0x20, 1, 8, 1, 8, [PRT_CTRL_LANE_EN, PRT_CTRL_TX_INV, PRT_CTRL_RX_INV, PRT_CTRL_INGRESS_GAP,
      PRT_CTRL_DRAIN_MAX]⟩
  | .prtStatus => ⟨.prt, 0x28, 1, 8, 1, 8, [PRT_STATUS_PAIR_STATE, PRT_STATUS_RECOVERING, PRT_STATUS_LEADER,
      PRT_STATUS_LANES_LOCKED, PRT_STATUS_FELT_UP, PRT_STATUS_FAB_UP, PRT_STATUS_FAST, PRT_STATUS_ALIVE_FAULT]⟩
  | .prtRecovery => ⟨.prt, 0x30, 1, 8, 1, 8, [PRT_RECOVERY_DONE]⟩
  | .prtHealth => ⟨.prt, 0x38, 1, 8, 1, 8, [PRT_HEALTH_SLICE_FAIL, PRT_HEALTH_SCHED_FAIL, PRT_HEALTH_BUF_FAIL,
      PRT_HEALTH_SPARE_FAIL, PRT_HEALTH_ASA_FAIL, PRT_HEALTH_COUCH, PRT_HEALTH_LOCKSTEP, PRT_HEALTH_DIVERGENCES]⟩
  | .prtMateHealth => ⟨.prt, 0x40, 1, 8, 1, 8, [PRT_MATE_HEALTH_SLICE_FAIL, PRT_MATE_HEALTH_SCHED_FAIL,
      PRT_MATE_HEALTH_BUF_FAIL, PRT_MATE_HEALTH_SPARE_FAIL, PRT_MATE_HEALTH_ASA_FAIL, PRT_MATE_HEALTH_COUCH,
      PRT_MATE_HEALTH_LOCKSTEP, PRT_MATE_HEALTH_DIVERGENCES]⟩
  | .prtShadowDiscard => ⟨.prt, 0x48, 1, 8, 1, 8, [PRT_SHADOW_DISCARD_COUNT]⟩
  | .prtSwitchDiscard => ⟨.prt, 0x50, 1, 8, 1, 8, [PRT_SWITCH_DISCARD_COUNT]⟩
  | .prtFeltErr => ⟨.prt, 0x58, 1, 8, 1, 8, [PRT_FELT_ERR_COUNT]⟩
  | .prtGroupCfg => ⟨.prt, 0x100, 32, 8, 1, 8, [PRT_GROUP_CFG_EN, PRT_GROUP_CFG_REVERTIVE, PRT_GROUP_CFG_HOME,
      PRT_GROUP_CFG_CMD, PRT_GROUP_CFG_WTR]⟩
  | .prtGroupStatus => ⟨.prt, 0x200, 32, 8, 1, 8, [PRT_GROUP_STATUS_ACTIVE, PRT_GROUP_STATUS_LEVEL,
      PRT_GROUP_STATUS_MATE_LEVEL, PRT_GROUP_STATUS_REQ, PRT_GROUP_STATUS_WTR_LEFT, PRT_GROUP_STATUS_SWITCHES]⟩
  | .prtSliceStatus => ⟨.prt, 0x400, 16, 8, 1, 8, [PRT_SLICE_STATUS_RUN, PRT_SLICE_STATUS_TESTING,
      PRT_SLICE_STATUS_LAST_TEST, PRT_SLICE_STATUS_LAST_NC, PRT_SLICE_STATUS_EPOCH]⟩
  | .prtCmp => ⟨.prt, 0x600, 16, 32, 3, 8, [PRT_CMP_COUNT]⟩
  | .prtGroupMembers => ⟨.prt, 0x1000, 32, 64, 4, 8, [PRT_GROUP_MEMBERS_PORTS]⟩
  | .prtGroupFlexe => ⟨.prt, 0x1020, 32, 64, 1, 8, [PRT_GROUP_FLEXE_FLEXE]⟩
  | .milStatus => ⟨.mil, 0x0, 1, 8, 1, 8, [MIL_STATUS_READY, MIL_STATUS_IMAGE, MIL_STATUS_BOOT_ROM, MIL_STATUS_DEBUG,
      MIL_STATUS_ROLLBACK, MIL_STATUS_FW_VERSION, MIL_STATUS_RESTARTS]⟩
  | .milCtrl => ⟨.mil, 0x8, 1, 8, 1, 8, [MIL_CTRL_NOTE_MASK]⟩
  | .milIntStatus => ⟨.mil, 0x10, 1, 8, 1, 8, [MIL_INT_STATUS_MILL_RESTART, MIL_INT_STATUS_FW_ACTIVATED,
      MIL_INT_STATUS_FW_FALLBACK, MIL_INT_STATUS_LOG_SUPPRESSED, MIL_INT_STATUS_SENSOR_FAIL, MIL_INT_STATUS_TAG_WORN]⟩
  | .milIntEnable => ⟨.mil, 0x18, 1, 8, 1, 8, enableFields .milIntEnable [MIL_INT_STATUS_MILL_RESTART,
      MIL_INT_STATUS_FW_ACTIVATED, MIL_INT_STATUS_FW_FALLBACK, MIL_INT_STATUS_LOG_SUPPRESSED,
      MIL_INT_STATUS_SENSOR_FAIL, MIL_INT_STATUS_TAG_WORN]⟩
  | .milSmbErr => ⟨.mil, 0x20, 1, 8, 1, 8, [MIL_SMB_ERR_COUNT]⟩
  | .dscStatus => ⟨.dsc, 0x0, 1, 8, 1, 8, [DSC_STATUS_PASSES, DSC_STATUS_LAST_MS]⟩
  | .linSliceCtrl => ⟨.lin, 0x0, 1, 8, 1, 8, [LIN_SLICE_CTRL_RUN, LIN_SLICE_CTRL_STOPPED, LIN_SLICE_CTRL_MAP]⟩
  | .linIntStatus => ⟨.lin, 0x10, 1, 8, 1, 8, [LIN_INT_STATUS_LINK_CHG, LIN_INT_STATUS_CFG_VIOLATION]⟩
  | .linIntEnable => ⟨.lin, 0x18, 1, 8, 1, 8, enableFields .linIntEnable [LIN_INT_STATUS_LINK_CHG,
      LIN_INT_STATUS_CFG_VIOLATION]⟩
  | .linLaneCfg => ⟨.lin, 0x100, 16, 8, 1, 8, [LIN_LANE_CFG_TX_INV, LIN_LANE_CFG_RX_INV, LIN_LANE_CFG_TX_PRESET]⟩
  | .linPortCfg => ⟨.lin, 0x200, 16, 8, 1, 8, [LIN_PORT_CFG_ENABLE, LIN_PORT_CFG_FLEXE, LIN_PORT_CFG_PFC_EN,
      LIN_PORT_CFG_MAX_FRAME, LIN_PORT_CFG_PFC_QUANTA]⟩
  | .linPortStatus => ⟨.lin, 0x300, 16, 8, 1, 8, [LIN_PORT_STATUS_LINK_UP, LIN_PORT_STATUS_LOCAL_FAULT,
      LIN_PORT_STATUS_REMOTE_FAULT, LIN_PORT_STATUS_PAUSED]⟩
  | .linRxDiscard => ⟨.lin, 0x400, 16, 8, 1, 8, [LIN_RX_DISCARD_COUNT]⟩
  | .linPfcRx => ⟨.lin, 0x500, 16, 8, 1, 8, [LIN_PFC_RX_COUNT]⟩
  | .linPfcTx => ⟨.lin, 0x600, 16, 8, 1, 8, [LIN_PFC_TX_COUNT]⟩
  | .linCouchDiscard => ⟨.lin, 0x700, 1, 8, 1, 8, [LIN_COUCH_DISCARD_COUNT]⟩
  | .linRxFcsErr => ⟨.lin, 0x800, 16, 8, 1, 8, [LIN_RX_FCS_ERR_COUNT]⟩
  | .linRxRunt => ⟨.lin, 0x900, 16, 8, 1, 8, [LIN_RX_RUNT_COUNT]⟩
  | .linRxOversize => ⟨.lin, 0xa00, 16, 8, 1, 8, [LIN_RX_OVERSIZE_COUNT]⟩
  | .flxIntStatus => ⟨.flx, 0x10, 1, 8, 1, 8, [FLX_INT_STATUS_CFG_VIOLATION, FLX_INT_STATUS_CAL_FAIL,
      FLX_INT_STATUS_CAL_SWITCHED, FLX_INT_STATUS_XC_SWITCHED, FLX_INT_STATUS_XC_LATE, FLX_INT_STATUS_XC_FAB_LOSS]⟩
  | .flxIntEnable => ⟨.flx, 0x18, 1, 8, 1, 8, enableFields .flxIntEnable [FLX_INT_STATUS_CFG_VIOLATION,
      FLX_INT_STATUS_CAL_FAIL, FLX_INT_STATUS_CAL_SWITCHED, FLX_INT_STATUS_XC_SWITCHED, FLX_INT_STATUS_XC_LATE,
      FLX_INT_STATUS_XC_FAB_LOSS]⟩
  | .flxXcCtrl => ⟨.flx, 0x100, 1, 8, 1, 8, [FLX_XC_CTRL_ARM, FLX_XC_CTRL_DISARM, FLX_XC_CTRL_COPY, FLX_XC_CTRL_MODE,
      FLX_XC_CTRL_CAL_GROUP, FLX_XC_CTRL_PLAYOUT]⟩
  | .flxXcTime => ⟨.flx, 0x108, 1, 8, 1, 8, [FLX_XC_TIME_SEC, FLX_XC_TIME_NS]⟩
  | .flxXcStatus => ⟨.flx, 0x118, 1, 8, 1, 8, [FLX_XC_STATUS_ACTIVE, FLX_XC_STATUS_ARMED, FLX_XC_STATUS_COPY_BUSY,
      FLX_XC_STATUS_SWITCHES, FLX_XC_STATUS_WR_VIOL, FLX_XC_STATUS_LATE, FLX_XC_STATUS_SRC_ERR,
      FLX_XC_STATUS_FAB_LOSS]⟩
  | .flxGroupCfg => ⟨.flx, 0x200, 32, 8, 1, 8, [FLX_GROUP_CFG_EN, FLX_GROUP_CFG_CAL_REQ, FLX_GROUP_CFG_CAL_ACTIVE,
      FLX_GROUP_CFG_GROUP_NUM]⟩
  | .flxGroupPhy => ⟨.flx, 0x400, 32, 64, 8, 8, [FLX_GROUP_PHY_VALID, FLX_GROUP_PHY_PORT, FLX_GROUP_PHY_PHY_NUM]⟩
  | .flxClient => ⟨.flx, 0x1000, 512, 8, 1, 8, [FLX_CLIENT_EN, FLX_CLIENT_TERM, FLX_CLIENT_GROUP, FLX_CLIENT_WIRE_ID,
      FLX_CLIENT_PORT, FLX_CLIENT_MAX_FRAME]⟩
  | .flxCkt => ⟨.flx, 0x2000, 4096, 8, 1, 8, [FLX_CKT_EN, FLX_CKT_DEST_MOD, FLX_CKT_LAST_MEMBER]⟩
  | .flxXcSby0 => ⟨.flx, 0x10000, 10240, 16, 1, 8, [FLX_XC_SBY0_TX_SRC, FLX_XC_SBY0_SRC_SLOT, FLX_XC_SBY0_SRC_MOD,
      FLX_XC_SBY0_SRC_CKT, FLX_XC_SBY0_SRC_MEMBER]⟩
  | .flxXcSby1 => ⟨.flx, 0x10008, 10240, 16, 1, 8, [FLX_XC_SBY1_RX_FAB, FLX_XC_SBY1_RX_CKT, FLX_XC_SBY1_RX_MEMBER]⟩
  | .flxXcAct0 => ⟨.flx, 0x40000, 10240, 16, 1, 8, [FLX_XC_ACT0_TX_SRC, FLX_XC_ACT0_SRC_SLOT, FLX_XC_ACT0_SRC_MOD,
      FLX_XC_ACT0_SRC_CKT, FLX_XC_ACT0_SRC_MEMBER]⟩
  | .flxXcAct1 => ⟨.flx, 0x40008, 10240, 16, 1, 8, [FLX_XC_ACT1_RX_FAB, FLX_XC_ACT1_RX_CKT, FLX_XC_ACT1_RX_MEMBER]⟩
  | .flxCal => ⟨.flx, 0x80000, 2, 131072, 10240, 8, [FLX_CAL_USED, FLX_CAL_CLIENT]⟩
  | .pmnCtrl => ⟨.pmn, 0x0, 1, 8, 1, 8, [PMN_CTRL_DAY_OFFSET]⟩
  | .pmnApply => ⟨.pmn, 0x8, 1, 8, 1, 8, [PMN_APPLY_GO, PMN_APPLY_PENDING]⟩
  | .pmnIntStatus => ⟨.pmn, 0x10, 1, 8, 1, 8, [PMN_INT_STATUS_SF_CHG, PMN_INT_STATUS_SD_CHG, PMN_INT_STATUS_UAT_CHG,
      PMN_INT_STATUS_BIN15_CLOSED, PMN_INT_STATUS_BIN24_CLOSED, PMN_INT_STATUS_TIME_STEP,
      PMN_INT_STATUS_CFG_VIOLATION]⟩
  | .pmnIntEnable => ⟨.pmn, 0x18, 1, 8, 1, 8, enableFields .pmnIntEnable [PMN_INT_STATUS_SF_CHG,
      PMN_INT_STATUS_SD_CHG, PMN_INT_STATUS_UAT_CHG, PMN_INT_STATUS_BIN15_CLOSED, PMN_INT_STATUS_BIN24_CLOSED,
      PMN_INT_STATUS_TIME_STEP, PMN_INT_STATUS_CFG_VIOLATION]⟩
  | .pmnStatus => ⟨.pmn, 0x20, 1, 8, 1, 8, [PMN_STATUS_COMMITTED, PMN_STATUS_CLOSES]⟩
  | .pmnEntCfg => ⟨.pmn, 0x10000, 1120, 8, 1, 8, [PMN_ENT_CFG_MON_EN, PMN_ENT_CFG_SD_SET_EXP, PMN_ENT_CFG_SD_CLR_EXP,
      PMN_ENT_CFG_SD_PERIODS, PMN_ENT_CFG_HOLD_OFF]⟩
  | .pmnEntStatus => ⟨.pmn, 0x20000, 1120, 8, 1, 8, [PMN_ENT_STATUS_LOS, PMN_ENT_STATUS_LOA, PMN_ENT_STATUS_FAIL,
      PMN_ENT_STATUS_NOT_MON, PMN_ENT_STATUS_SF, PMN_ENT_STATUS_SD, PMN_ENT_STATUS_UNAVAIL]⟩
  | .pmnSymCorr => ⟨.pmn, 0x30000, 1120, 8, 1, 8, [PMN_SYM_CORR_COUNT]⟩
  | .pmnCwUncorr => ⟨.pmn, 0x40000, 1120, 8, 1, 8, [PMN_CW_UNCORR_COUNT]⟩
  | .pmnBin0 => ⟨.pmn, 0x400000, 1120, 2048, 35, 32, [PMN_BIN0_ES, PMN_BIN0_SES, PMN_BIN0_UAS, PMN_BIN0_SUSPECT,
      PMN_BIN0_VALID]⟩
  | .pmnBin1 => ⟨.pmn, 0x400008, 1120, 2048, 35, 32, [PMN_BIN1_BBE]⟩
  | .pmnBin2 => ⟨.pmn, 0x400010, 1120, 2048, 35, 32, [PMN_BIN2_START]⟩
  | .prsIntStatus => ⟨.prs, 0x0, 1, 8, 1, 8, [PRS_INT_STATUS_PAR_ERR, PRS_INT_STATUS_CFG_VIOLATION,
      PRS_INT_STATUS_MAL_SEEN, PRS_INT_STATUS_TRUNC_SEEN]⟩
  | .prsIntEnable => ⟨.prs, 0x8, 1, 8, 1, 8, enableFields .prsIntEnable [PRS_INT_STATUS_PAR_ERR,
      PRS_INT_STATUS_CFG_VIOLATION, PRS_INT_STATUS_MAL_SEEN, PRS_INT_STATUS_TRUNC_SEEN]⟩
  | .prsApply => ⟨.prs, 0x10, 1, 8, 1, 8, [PRS_APPLY_GO, PRS_APPLY_PENDING]⟩
  | .prsErrLog => ⟨.prs, 0x18, 1, 8, 1, 8, [PRS_ERR_LOG_INDEX, PRS_ERR_LOG_ENTRY, PRS_ERR_LOG_SCAN,
      PRS_ERR_LOG_VALID, PRS_ERR_LOG_COUNT]⟩
  | .prsTrimCnt => ⟨.prs, 0x20, 1, 8, 1, 8, [PRS_TRIM_CNT_COUNT]⟩
  | .prsTruncCnt => ⟨.prs, 0x100, 8, 8, 1, 8, [PRS_TRUNC_CNT_COUNT]⟩
  | .prsMalCnt => ⟨.prs, 0x200, 64, 8, 1, 8, [PRS_MAL_CNT_COUNT]⟩
  | .prsMalAct => ⟨.prs, 0x400, 64, 8, 1, 8, [PRS_MAL_ACT_ACTION, PRS_MAL_ACT_RING]⟩
  | .prsEntry => ⟨.prs, 0x800, 18, 8, 1, 8, [PRS_ENTRY_START_PC, PRS_ENTRY_PROFILE, PRS_ENTRY_VALID]⟩
  | .prsStore => ⟨.prs, 0x10000, 8192, 8, 1, 8, [PRS_STORE_WORD]⟩
  | .lkpIntStatus => ⟨.lkp, 0x0, 1, 8, 1, 8, [LKP_INT_STATUS_PAR_ERR, LKP_INT_STATUS_CFG_VIOLATION,
      LKP_INT_STATUS_LEARN_FAIL, LKP_INT_STATUS_TRIE_REBUILT, LKP_INT_STATUS_POISON_CLR_FAIL,
      LKP_INT_STATUS_XBAR_STALL, LKP_INT_STATUS_FLUSH_DONE]⟩
  | .lkpIntEnable => ⟨.lkp, 0x8, 1, 8, 1, 8, enableFields .lkpIntEnable [LKP_INT_STATUS_PAR_ERR,
      LKP_INT_STATUS_CFG_VIOLATION, LKP_INT_STATUS_LEARN_FAIL, LKP_INT_STATUS_TRIE_REBUILT,
      LKP_INT_STATUS_POISON_CLR_FAIL, LKP_INT_STATUS_XBAR_STALL, LKP_INT_STATUS_FLUSH_DONE]⟩
  | .lkpApply => ⟨.lkp, 0x10, 1, 8, 1, 8, [LKP_APPLY_GO, LKP_APPLY_PENDING]⟩
  | .lkpErrLog => ⟨.lkp, 0x18, 1, 8, 1, 8, [LKP_ERR_LOG_TABLE, LKP_ERR_LOG_INDEX, LKP_ERR_LOG_SCAN,
      LKP_ERR_LOG_VALID, LKP_ERR_LOG_COUNT]⟩
  | .lkpLearnCtrl => ⟨.lkp, 0x40, 1, 8, 1, 8, [LKP_LEARN_CTRL_EN, LKP_LEARN_CTRL_EXPORT_EN,
      LKP_LEARN_CTRL_EXPORT_RING, LKP_LEARN_CTRL_AGE_PERIOD, LKP_LEARN_CTRL_LIMIT, LKP_LEARN_CTRL_EVT_GAP]⟩
  | .lkpFlush => ⟨.lkp, 0x48, 1, 8, 1, 8, [LKP_FLUSH_BD, LKP_FLUSH_PORT, LKP_FLUSH_BY_BD, LKP_FLUSH_BY_PORT,
      LKP_FLUSH_GO, LKP_FLUSH_BUSY, LKP_FLUSH_EXPORT]⟩
  | .lkpLearnFail => ⟨.lkp, 0x80, 1, 8, 1, 8, [LKP_LEARN_FAIL_COUNT]⟩
  | .lkpLearnDrop => ⟨.lkp, 0x88, 1, 8, 1, 8, [LKP_LEARN_DROP_COUNT]⟩
  | .lkpMoveDeny => ⟨.lkp, 0x90, 1, 8, 1, 8, [LKP_MOVE_DENY_COUNT]⟩
  | .lkpXbarStall => ⟨.lkp, 0x98, 1, 8, 1, 8, [LKP_XBAR_STALL_COUNT]⟩
  | .lkpPoisonExp => ⟨.lkp, 0xc0, 1, 8, 1, 8, [LKP_POISON_EXP_EXPECT]⟩
  | .lkpPoisonClr => ⟨.lkp, 0xc8, 1, 8, 1, 8, [LKP_POISON_CLR_BLOCK]⟩
  | .lkpPoisonStatus => ⟨.lkp, 0xd0, 1, 8, 1, 8, [LKP_POISON_STATUS_SLOTS, LKP_POISON_STATUS_LAST_OK]⟩
  | .lkpOccEm => ⟨.lkp, 0x100, 1, 8, 1, 8, [LKP_OCC_EM_SLOTS, LKP_OCC_EM_LEARNED, LKP_OCC_EM_STASH]⟩
  | .lkpOccRoute => ⟨.lkp, 0x108, 1, 8, 1, 8, [LKP_OCC_ROUTE_UNITS]⟩
  | .lkpPort => ⟨.lkp, 0x200, 288, 8, 1, 8, [LKP_PORT_VRF, LKP_PORT_BD, LKP_PORT_PSET, LKP_PORT_LEARN_EN]⟩
  | .lkpHprof0 => ⟨.lkp, 0x1000, 16, 32, 1, 8, [LKP_HPROF0_SEED, LKP_HPROF0_SYM]⟩
  | .lkpHprof1 => ⟨.lkp, 0x1008, 16, 32, 1, 8, [LKP_HPROF1_SEL0_SEL3]⟩
  | .lkpHprof2 => ⟨.lkp, 0x1010, 16, 32, 1, 8, [LKP_HPROF2_SEL4_SEL7]⟩
  | .lkpDig0 => ⟨.lkp, 0x100000, 6434, 16, 1, 8, [LKP_DIG0_DIGEST]⟩
  | .lkpDig1 => ⟨.lkp, 0x100008, 6434, 16, 1, 8, [LKP_DIG1_STALE, LKP_DIG1_POISON, LKP_DIG1_REAM]⟩
  | .asaIntStatus => ⟨.asa, 0x0, 1, 8, 1, 8, [ASA_INT_STATUS_ROW_DIS, ASA_INT_STATUS_CFG_VIOLATION,
      ASA_INT_STATUS_TABLE_ERR, ASA_INT_STATUS_PIN_EXPIRED]⟩
  | .asaIntEnable => ⟨.asa, 0x8, 1, 8, 1, 8, enableFields .asaIntEnable [ASA_INT_STATUS_ROW_DIS,
      ASA_INT_STATUS_CFG_VIOLATION, ASA_INT_STATUS_TABLE_ERR, ASA_INT_STATUS_PIN_EXPIRED]⟩
  | .asaApply => ⟨.asa, 0x10, 1, 8, 1, 8, [ASA_APPLY_GO, ASA_APPLY_PENDING]⟩
  | .asaErrLog => ⟨.asa, 0x18, 1, 8, 1, 8, [ASA_ERR_LOG_ARRAY, ASA_ERR_LOG_BANK, ASA_ERR_LOG_SLOT, ASA_ERR_LOG_KIND,
      ASA_ERR_LOG_SCAN, ASA_ERR_LOG_VALID, ASA_ERR_LOG_COUNT]⟩
  | .asaCtrl => ⟨.asa, 0x20, 1, 8, 1, 8, [ASA_CTRL_PIN_TIMEOUT]⟩
  | .asaDisabled => ⟨.asa, 0x28, 1, 8, 1, 8, [ASA_DISABLED_ROWS]⟩
  | .asaViewSel => ⟨.asa, 0x30, 1, 8, 1, 8, [ASA_VIEW_SEL_BANK]⟩
  | .asaGroupCfg => ⟨.asa, 0x100, 16, 8, 1, 8, [ASA_GROUP_CFG_ERR_MODE]⟩
  | .asaGrpMulti => ⟨.asa, 0x180, 16, 8, 1, 8, [ASA_GRP_MULTI_COUNT]⟩
  | .asaGrpEqpri => ⟨.asa, 0x200, 16, 8, 1, 8, [ASA_GRP_EQPRI_COUNT]⟩
  | .asaBankCfg => ⟨.asa, 0x400, 128, 8, 1, 8, [ASA_BANK_CFG_RUN, ASA_BANK_CFG_STOPPED, ASA_BANK_CFG_WIDTH,
      ASA_BANK_CFG_GROUP]⟩
  | .asaBankStatus => ⟨.asa, 0x800, 128, 8, 1, 8, [ASA_BANK_STATUS_ENTRIES, ASA_BANK_STATUS_HELD,
      ASA_BANK_STATUS_DIS_ROWS]⟩
  | .asaSrchKey => ⟨.asa, 0x1000, 4, 256, 10, 8, [ASA_SRCH_KEY_KEY]⟩
  | .asaSrchCmd => ⟨.asa, 0x1050, 4, 256, 1, 8, [ASA_SRCH_CMD_OP, ASA_SRCH_CMD_GROUP]⟩
  | .asaSrchToken0 => ⟨.asa, 0x1058, 4, 256, 1, 8, [ASA_SRCH_TOKEN0_REAM, ASA_SRCH_TOKEN0_GEN]⟩
  | .asaSrchToken1 => ⟨.asa, 0x1060, 4, 256, 1, 8, [ASA_SRCH_TOKEN1_PRIO, ASA_SRCH_TOKEN1_INDEX,
      ASA_SRCH_TOKEN1_FIRST]⟩
  | .asaSrchStatus => ⟨.asa, 0x1068, 4, 256, 1, 8, [ASA_SRCH_STATUS_STATE, ASA_SRCH_STATUS_FOUND,
      ASA_SRCH_STATUS_COUNT, ASA_SRCH_STATUS_MULTI, ASA_SRCH_STATUS_EQPRI, ASA_SRCH_STATUS_ROW_LOST]⟩
  | .asaSrchResult => ⟨.asa, 0x1070, 4, 256, 1, 8, [ASA_SRCH_RESULT_PRIO, ASA_SRCH_RESULT_INDEX]⟩
  | .asaSrchAct0 => ⟨.asa, 0x1078, 4, 256, 1, 8, [ASA_SRCH_ACT0_ACT]⟩
  | .asaSrchAct1 => ⟨.asa, 0x1080, 4, 256, 1, 8, [ASA_SRCH_ACT1_ACT]⟩
  | .asaView => ⟨.asa, 0x80000, 8192, 64, 8, 8, [ASA_VIEW_WORD]⟩
  | .cmtIntStatus => ⟨.cmt, 0x0, 1, 8, 1, 8, [CMT_INT_STATUS_REJECTED, CMT_INT_STATUS_CFG_VIOLATION,
      CMT_INT_STATUS_DISCARDED, CMT_INT_STATUS_DRAIN_WAIT]⟩
  | .cmtIntEnable => ⟨.cmt, 0x8, 1, 8, 1, 8, enableFields .cmtIntEnable [CMT_INT_STATUS_REJECTED,
      CMT_INT_STATUS_CFG_VIOLATION, CMT_INT_STATUS_DISCARDED, CMT_INT_STATUS_DRAIN_WAIT]⟩
  | .cmtApply => ⟨.cmt, 0x10, 1, 8, 1, 8, [CMT_APPLY_GO, CMT_APPLY_PENDING]⟩
  | .cmtCtrl => ⟨.cmt, 0x20, 1, 8, 1, 8, [CMT_CTRL_WAIT_WARN, CMT_CTRL_IDLE_MAX]⟩
  | .cmtStatus => ⟨.cmt, 0x28, 1, 8, 1, 8, [CMT_STATUS_REAM, CMT_STATUS_UNDRAINED, CMT_STATUS_STAGING,
      CMT_STATUS_WAITING, CMT_STATUS_RING, CMT_STATUS_FL_HOLD]⟩
  | .cmtCommits => ⟨.cmt, 0x30, 1, 8, 1, 8, [CMT_COMMITS_COUNT]⟩
  | .cmtRejects => ⟨.cmt, 0x38, 1, 8, 1, 8, [CMT_REJECTS_COUNT]⟩
  | .cmtRejectLog => ⟨.cmt, 0x40, 1, 8, 1, 8, [CMT_REJECT_LOG_STATUS, CMT_REJECT_LOG_TABLE, CMT_REJECT_LOG_POS,
      CMT_REJECT_LOG_RING, CMT_REJECT_LOG_VALID, CMT_REJECT_LOG_COUNT]⟩
  | .cmtMaxWait => ⟨.cmt, 0x48, 1, 8, 1, 8, [CMT_MAX_WAIT_NS]⟩
  | .cmtRdCmd => ⟨.cmt, 0x200, 1, 8, 1, 8, [CMT_RD_CMD_TABLE, CMT_RD_CMD_RAW, CMT_RD_CMD_GO, CMT_RD_CMD_BUSY,
      CMT_RD_CMD_FOUND, CMT_RD_CMD_INDEX]⟩
  | .cmtRdReam => ⟨.cmt, 0x208, 1, 8, 1, 8, [CMT_RD_REAM_REAM]⟩
  | .cmtRdData => ⟨.cmt, 0x240, 35, 8, 1, 8, [CMT_RD_DATA_DATA]⟩
  | .cmtHeadroom => ⟨.cmt, 0x400, 64, 8, 1, 8, [CMT_HEADROOM_SHIFT, CMT_HEADROOM_LIVE, CMT_HEADROOM_HELD]⟩
  | .egrIntStatus => ⟨.egr, 0x0, 1, 8, 1, 8, [EGR_INT_STATUS_PAR_ERR, EGR_INT_STATUS_CFG_VIOLATION,
      EGR_INT_STATUS_PTP_NO_TS]⟩
  | .egrIntEnable => ⟨.egr, 0x8, 1, 8, 1, 8, enableFields .egrIntEnable [EGR_INT_STATUS_PAR_ERR,
      EGR_INT_STATUS_CFG_VIOLATION, EGR_INT_STATUS_PTP_NO_TS]⟩
  | .egrApply => ⟨.egr, 0x10, 1, 8, 1, 8, [EGR_APPLY_GO, EGR_APPLY_PENDING]⟩
  | .egrErrLog => ⟨.egr, 0x18, 1, 8, 1, 8, [EGR_ERR_LOG_INDEX, EGR_ERR_LOG_SCAN, EGR_ERR_LOG_VALID,
      EGR_ERR_LOG_COUNT]⟩
  | .egrCtrl => ⟨.egr, 0x20, 1, 8, 1, 8, [EGR_CTRL_HPROF, EGR_CTRL_PTP_EXP_EN, EGR_CTRL_PTP_RING, EGR_CTRL_TPID]⟩
  | .egrPtpNoTs => ⟨.egr, 0x80, 1, 8, 1, 8, [EGR_PTP_NO_TS_COUNT]⟩
  | .egrPort => ⟨.egr, 0x1000, 288, 8, 1, 8, [EGR_PORT_MTU, EGR_PORT_MTU_ACT, EGR_PORT_TTL_ACT, EGR_PORT_PUNT_RING,
      EGR_PORT_PROFILE, EGR_PORT_SAMPLER, EGR_PORT_PTP_MODE, EGR_PORT_MIRROR]⟩
  | .egrSmac => ⟨.egr, 0x2000, 256, 8, 1, 8, [EGR_SMAC_MAC]⟩
  | .egrSrc4 => ⟨.egr, 0x2800, 256, 8, 1, 8, [EGR_SRC4_ADDR]⟩
  | .egrSrc6 => ⟨.egr, 0x3000, 256, 16, 2, 8, [EGR_SRC6_ADDR]⟩
  | .egrMirror0 => ⟨.egr, 0x4000, 16, 16, 1, 8, [EGR_MIRROR0_DEST_MOD, EGR_MIRROR0_PORT_GROUP, EGR_MIRROR0_DEST_PORT,
      EGR_MIRROR0_CLASS, EGR_MIRROR0_EN]⟩
  | .egrMirror1 => ⟨.egr, 0x4008, 16, 16, 1, 8, [EGR_MIRROR1_REWRITE, EGR_MIRROR1_REWRITE_EN, EGR_MIRROR1_TRUNC]⟩
  | .egrSampler => ⟨.egr, 0x5000, 256, 8, 1, 8, [EGR_SAMPLER_N, EGR_SAMPLER_RANDOM, EGR_SAMPLER_RING,
      EGR_SAMPLER_TRUNC]⟩
  | .bpmIntStatus => ⟨.bpm, 0x0, 1, 8, 1, 8, [BPM_INT_STATUS_DOUBLE_FREE, BPM_INT_STATUS_FOREIGN_FREE,
      BPM_INT_STATUS_CFG_VIOLATION, BPM_INT_STATUS_POOL_LOW]⟩
  | .bpmIntEnable => ⟨.bpm, 0x8, 1, 8, 1, 8, enableFields .bpmIntEnable [BPM_INT_STATUS_DOUBLE_FREE,
      BPM_INT_STATUS_FOREIGN_FREE, BPM_INT_STATUS_CFG_VIOLATION, BPM_INT_STATUS_POOL_LOW]⟩
  | .bpmApply => ⟨.bpm, 0x10, 1, 8, 1, 8, [BPM_APPLY_GO, BPM_APPLY_PENDING]⟩
  | .bpmCtrl => ⟨.bpm, 0x20, 1, 8, 1, 8, [BPM_CTRL_LOW_WATER]⟩
  | .bpmStatus => ⟨.bpm, 0x28, 1, 8, 1, 8, [BPM_STATUS_FREE, BPM_STATUS_SHARED_FREE]⟩
  | .bpmDeepStatus => ⟨.bpm, 0x30, 1, 8, 1, 8, [BPM_DEEP_STATUS_TOTAL, BPM_DEEP_STATUS_FREE]⟩
  | .bpmDoubleFree => ⟨.bpm, 0x40, 1, 8, 1, 8, [BPM_DOUBLE_FREE_COUNT]⟩
  | .bpmForeignFree => ⟨.bpm, 0x48, 1, 8, 1, 8, [BPM_FOREIGN_FREE_COUNT]⟩
  | .bpmErrLog => ⟨.bpm, 0x50, 1, 8, 1, 8, [BPM_ERR_LOG_REQ, BPM_ERR_LOG_OP, BPM_ERR_LOG_BUF, BPM_ERR_LOG_KIND,
      BPM_ERR_LOG_VALID, BPM_ERR_LOG_COUNT]⟩
  | .bpmTreeCopies => ⟨.bpm, 0x58, 1, 8, 1, 8, [BPM_TREE_COPIES_COUNT]⟩
  | .bpmReqCfg => ⟨.bpm, 0x100, 32, 8, 1, 8, [BPM_REQ_CFG_GUAR, BPM_REQ_CFG_ALPHA, BPM_REQ_CFG_CEIL]⟩
  | .bpmReqStatus => ⟨.bpm, 0x200, 32, 8, 1, 8, [BPM_REQ_STATUS_USED, BPM_REQ_STATUS_CACHED]⟩
  | .bpmReqNone => ⟨.bpm, 0x300, 32, 8, 1, 8, [BPM_REQ_NONE_COUNT]⟩
  | .admIntStatus => ⟨.adm, 0x0, 1, 8, 1, 8, [ADM_INT_STATUS_CFG_VIOLATION, ADM_INT_STATUS_HDRM_OVERFLOW,
      ADM_INT_STATUS_DEEP_SAT]⟩
  | .admIntEnable => ⟨.adm, 0x8, 1, 8, 1, 8, enableFields .admIntEnable [ADM_INT_STATUS_CFG_VIOLATION,
      ADM_INT_STATUS_HDRM_OVERFLOW, ADM_INT_STATUS_DEEP_SAT]⟩
  | .admApply => ⟨.adm, 0x10, 1, 8, 1, 8, [ADM_APPLY_GO, ADM_APPLY_PENDING]⟩
  | .admDropLog => ⟨.adm, 0x28, 1, 8, 1, 8, [ADM_DROP_LOG_CAUSE, ADM_DROP_LOG_PORT, ADM_DROP_LOG_QUEUE,
      ADM_DROP_LOG_VALID, ADM_DROP_LOG_COUNT]⟩
  | .admDeepStatus => ⟨.adm, 0x30, 1, 8, 1, 8, [ADM_DEEP_STATUS_QUEUES, ADM_DEEP_STATUS_WR_SLOTS,
      ADM_DEEP_STATUS_RD_SLOTS]⟩
  | .admProf0 => ⟨.adm, 0x1000, 64, 32, 1, 8, [ADM_PROF0_MIN_CELLS, ADM_PROF0_ALPHA, ADM_PROF0_DEEP_EN,
      ADM_PROF0_HEAD_CELLS, ADM_PROF0_EVICT_CELLS]⟩
  | .admProf1 => ⟨.adm, 0x1008, 64, 32, 1, 8, [ADM_PROF1_MAX_BYTES]⟩
  | .admProf2 => ⟨.adm, 0x1010, 64, 32, 1, 8, [ADM_PROF2_DEEP_ALPHA, ADM_PROF2_DEEP_MAX]⟩
  | .admPfc => ⟨.adm, 0x2000, 256, 8, 1, 8, [ADM_PFC_HDRM, ADM_PFC_XOFF, ADM_PFC_XON]⟩
  | .admPfcStatus => ⟨.adm, 0x2800, 256, 8, 1, 8, [ADM_PFC_STATUS_XOFF, ADM_PFC_STATUS_HDRM_USED]⟩
  | .admDeepBw => ⟨.adm, 0x3000, 8, 8, 1, 8, [ADM_DEEP_BW_GUAR, ADM_DEEP_BW_ALPHA]⟩
  | .admDropPkt => ⟨.adm, 0x4000, 256, 16, 1, 8, [ADM_DROP_PKT_COUNT]⟩
  | .admDropByte => ⟨.adm, 0x4008, 256, 16, 1, 8, [ADM_DROP_BYTE_COUNT]⟩
  | .admDeepSat => ⟨.adm, 0x5000, 8, 8, 1, 8, [ADM_DEEP_SAT_COUNT]⟩
  | .admQset => ⟨.adm, 0x100000, 131072, 8, 1, 8, [ADM_QSET_SET]⟩
  | .ddcCtrl => ⟨.ddc, 0x0, 1, 8, 1, 8, [DDC_CTRL_RUN, DDC_CTRL_STOPPED, DDC_CTRL_SPARE_EN]⟩
  | .ddcPart => ⟨.ddc, 0x8, 1, 8, 1, 8, [DDC_PART_CNT_GIB, DDC_PART_FLOW_GIB, DDC_PART_WIN_GIB, DDC_PART_DEEP_GIB]⟩
  | .ddcErrLog => ⟨.ddc, 0x20, 1, 8, 1, 8, [DDC_ERR_LOG_PART, DDC_ERR_LOG_OFFSET, DDC_ERR_LOG_VALID,
      DDC_ERR_LOG_COUNT]⟩
  | .ddcUe => ⟨.ddc, 0x30, 4, 8, 1, 8, [DDC_UE_COUNT]⟩
  | .ddcCntClr => ⟨.ddc, 0x60, 1, 8, 1, 8, [DDC_CNT_CLR_PAIR]⟩
  | .ddcIntStatus => ⟨.ddc, 0x100, 1, 8, 1, 8, [DDC_INT_STATUS_CFG_VIOLATION, DDC_INT_STATUS_CE_THRESH,
      DDC_INT_STATUS_UE, DDC_INT_STATUS_RETRAIN_FAIL, DDC_INT_STATUS_SPARE_DONE, DDC_INT_STATUS_SPARE_FAIL,
      DDC_INT_STATUS_SPARE_TEST_FAIL]⟩
  | .ddcIntEnable => ⟨.ddc, 0x108, 1, 8, 1, 8, enableFields .ddcIntEnable [DDC_INT_STATUS_CFG_VIOLATION,
      DDC_INT_STATUS_CE_THRESH, DDC_INT_STATUS_UE, DDC_INT_STATUS_RETRAIN_FAIL, DDC_INT_STATUS_SPARE_DONE,
      DDC_INT_STATUS_SPARE_FAIL, DDC_INT_STATUS_SPARE_TEST_FAIL]⟩
  | .ddcSpare => ⟨.ddc, 0x110, 1, 8, 1, 8, [DDC_SPARE_SRC, DDC_SPARE_GO, DDC_SPARE_STATE, DDC_SPARE_MAPPED,
      DDC_SPARE_PROGRESS]⟩
  | .ddcCeCfg => ⟨.ddc, 0x118, 1, 8, 1, 8, [DDC_CE_CFG_THRESH]⟩
  | .ddcCe => ⟨.ddc, 0x200, 16, 8, 1, 8, [DDC_CE_COUNT]⟩
  | .ddcChStatus => ⟨.ddc, 0x300, 16, 8, 1, 8, [DDC_CH_STATUS_STATE, DDC_CH_STATUS_PAUSED, DDC_CH_STATUS_RETRAIN_OK,
      DDC_CH_STATUS_SELF_REFRESH]⟩
  | .qscIntStatus => ⟨.qsc, 0x0, 1, 8, 1, 8, [QSC_INT_STATUS_CFG_VIOLATION, QSC_INT_STATUS_FLUSH_DONE]⟩
  | .qscIntEnable => ⟨.qsc, 0x8, 1, 8, 1, 8, enableFields .qscIntEnable [QSC_INT_STATUS_CFG_VIOLATION,
      QSC_INT_STATUS_FLUSH_DONE]⟩
  | .qscApply => ⟨.qsc, 0x10, 1, 8, 1, 8, [QSC_APPLY_GO, QSC_APPLY_PENDING]⟩
  | .qscCtrl => ⟨.qsc, 0x20, 1, 8, 1, 8, [QSC_CTRL_RUN, QSC_CTRL_STOPPED, QSC_CTRL_VOQ_BLOCKS]⟩
  | .qscWinSel => ⟨.qsc, 0x28, 1, 8, 1, 8, [QSC_WIN_SEL_LEVEL, QSC_WIN_SEL_BASE]⟩
  | .qscFlush => ⟨.qsc, 0x30, 1, 8, 1, 8, [QSC_FLUSH_QUEUE, QSC_FLUSH_GO, QSC_FLUSH_BUSY]⟩
  | .qscEqMap => ⟨.qsc, 0x1000, 288, 8, 1, 8, [QSC_EQ_MAP_BASE, QSC_EQ_MAP_MODE, QSC_EQ_MAP_SPAN, QSC_EQ_MAP_RW_BASE]⟩
  | .qscNode => ⟨.qsc, 0x100000, 65536, 8, 1, 8, [QSC_NODE_EN, QSC_NODE_PRIO, QSC_NODE_WEIGHT, QSC_NODE_PARENT]⟩
  | .qscNodeStatus => ⟨.qsc, 0x180000, 65536, 8, 1, 8, [QSC_NODE_STATUS_BYTES, QSC_NODE_STATUS_ELIGIBLE,
      QSC_NODE_STATUS_GREEN, QSC_NODE_STATUS_BLOCKED, QSC_NODE_STATUS_DEEP]⟩
  | .shpIntStatus => ⟨.shp, 0x0, 1, 8, 1, 8, [SHP_INT_STATUS_CFG_VIOLATION]⟩
  | .shpIntEnable => ⟨.shp, 0x8, 1, 8, 1, 8, enableFields .shpIntEnable [SHP_INT_STATUS_CFG_VIOLATION]⟩
  | .shpApply => ⟨.shp, 0x10, 1, 8, 1, 8, [SHP_APPLY_GO, SHP_APPLY_PENDING]⟩
  | .shpWinSel => ⟨.shp, 0x20, 1, 8, 1, 8, [SHP_WIN_SEL_LEVEL, SHP_WIN_SEL_BASE]⟩
  | .shpColorMap => ⟨.shp, 0x100, 16, 16, 2, 8, [SHP_COLOR_MAP_COLORS]⟩
  | .shpCir => ⟨.shp, 0x100000, 65536, 8, 1, 8, [SHP_CIR_RATE, SHP_CIR_CLEAR_DEBT, SHP_CIR_BURST]⟩
  | .shpPir => ⟨.shp, 0x180000, 65536, 8, 1, 8, [SHP_PIR_RATE, SHP_PIR_CLEAR_DEBT, SHP_PIR_BURST, SHP_PIR_ADJ]⟩
  | .shpLevel => ⟨.shp, 0x200000, 65536, 8, 1, 8, [SHP_LEVEL_CIR_BUCKET, SHP_LEVEL_PIR_BUCKET]⟩
  | .shpPolCfg => ⟨.shp, 0x280000, 65536, 8, 1, 8, [SHP_POL_CFG_MODE, SHP_POL_CFG_AWARE, SHP_POL_CFG_MAP,
      SHP_POL_CFG_YELLOW_ACT, SHP_POL_CFG_RED_ACT, SHP_POL_CFG_YELLOW_CLASS, SHP_POL_CFG_CNT_EN, SHP_POL_CFG_CNT]⟩
  | .tgtIntStatus => ⟨.tgt, 0x0, 1, 8, 1, 8, [TGT_INT_STATUS_CFG_VIOLATION, TGT_INT_STATUS_SWITCHED,
      TGT_INT_STATUS_OVERSIZE]⟩
  | .tgtIntEnable => ⟨.tgt, 0x8, 1, 8, 1, 8, enableFields .tgtIntEnable [TGT_INT_STATUS_CFG_VIOLATION,
      TGT_INT_STATUS_SWITCHED, TGT_INT_STATUS_OVERSIZE]⟩
  | .tgtApply => ⟨.tgt, 0x10, 1, 8, 1, 8, [TGT_APPLY_GO, TGT_APPLY_PENDING]⟩
  | .tgtCtrl => ⟨.tgt, 0x10000, 288, 32, 1, 8, [TGT_CTRL_EN, TGT_CTRL_CHANGE, TGT_CTRL_SWITCH_PENDING,
      TGT_CTRL_ADMIN_LEN_M1, TGT_CTRL_ADMIN_CYCLE]⟩
  | .tgtBaseSec => ⟨.tgt, 0x10008, 288, 32, 1, 8, [TGT_BASE_SEC_SEC]⟩
  | .tgtBaseNs => ⟨.tgt, 0x10010, 288, 32, 1, 8, [TGT_BASE_NS_NS, TGT_BASE_NS_GUARD, TGT_BASE_NS_LEAD]⟩
  | .tgtStatus => ⟨.tgt, 0x10018, 288, 32, 1, 8, [TGT_STATUS_GATES, TGT_STATUS_ENTRY]⟩
  | .tgtAdmin => ⟨.tgt, 0x100000, 288, 8192, 1024, 8, [TGT_ADMIN_GATES, TGT_ADMIN_INTERVAL]⟩
  | .tgtOper => ⟨.tgt, 0x400000, 288, 8192, 1024, 8, [TGT_OPER_GATES, TGT_OPER_INTERVAL]⟩
  | .fabIntStatus => ⟨.fab, 0x0, 1, 8, 1, 8, [FAB_INT_STATUS_CFG_VIOLATION, FAB_INT_STATUS_LOCK_CHG,
      FAB_INT_STATUS_AMBIGUOUS, FAB_INT_STATUS_RDI_CHG, FAB_INT_STATUS_SPRAY_CHG]⟩
  | .fabIntEnable => ⟨.fab, 0x8, 1, 8, 1, 8, enableFields .fabIntEnable [FAB_INT_STATUS_CFG_VIOLATION,
      FAB_INT_STATUS_LOCK_CHG, FAB_INT_STATUS_AMBIGUOUS, FAB_INT_STATUS_RDI_CHG, FAB_INT_STATUS_SPRAY_CHG]⟩
  | .fabMacroCtrl => ⟨.fab, 0x20, 1, 8, 1, 8, [FAB_MACRO_CTRL_RUN, FAB_MACRO_CTRL_STOPPED, FAB_MACRO_CTRL_LEGACY]⟩
  | .fabLinkCfg => ⟨.fab, 0x100, 64, 8, 1, 8, [FAB_LINK_CFG_EN, FAB_LINK_CFG_TX_INV, FAB_LINK_CFG_RX_INV,
      FAB_LINK_CFG_TX_PRESET]⟩
  | .fabLinkStatus => ⟨.fab, 0x300, 64, 8, 1, 8, [FAB_LINK_STATUS_STATE, FAB_LINK_STATUS_CANDIDATES,
      FAB_LINK_STATUS_RDI_RX, FAB_LINK_STATUS_IN_SPRAY, FAB_LINK_STATUS_REACH_RX, FAB_LINK_STATUS_FAR_ID,
      FAB_LINK_STATUS_FAR_LINK, FAB_LINK_STATUS_FAR_LEGACY]⟩
  | .fabAmbig => ⟨.fab, 0x500, 64, 8, 1, 8, [FAB_AMBIG_COUNT]⟩
  | .fabCandOvf => ⟨.fab, 0x700, 64, 8, 1, 8, [FAB_CAND_OVF_COUNT]⟩
  | .fabHcsErr => ⟨.fab, 0x900, 64, 8, 1, 8, [FAB_HCS_ERR_COUNT]⟩
  | .fabCmnIntStatus => ⟨.fabCmn, 0x0, 1, 8, 1, 8, [FABCMN_INT_STATUS_CFG_VIOLATION, FABCMN_INT_STATUS_HB_LOST,
      FABCMN_INT_STATUS_HB_RESTORED, FABCMN_INT_STATUS_UNREACH, FABCMN_INT_STATUS_REASM_TIMEOUT,
      FABCMN_INT_STATUS_MISADDR]⟩
  | .fabCmnIntEnable => ⟨.fabCmn, 0x8, 1, 8, 1, 8, enableFields .fabCmnIntEnable [FABCMN_INT_STATUS_CFG_VIOLATION,
      FABCMN_INT_STATUS_HB_LOST, FABCMN_INT_STATUS_HB_RESTORED, FABCMN_INT_STATUS_UNREACH,
      FABCMN_INT_STATUS_REASM_TIMEOUT, FABCMN_INT_STATUS_MISADDR]⟩
  | .fabCmnApply => ⟨.fabCmn, 0x10, 1, 8, 1, 8, [FABCMN_APPLY_GO, FABCMN_APPLY_PENDING]⟩
  | .fabCmnCtrl => ⟨.fabCmn, 0x20, 1, 8, 1, 8, [FABCMN_CTRL_MODULE_ID, FABCMN_CTRL_REORDER_TIMEOUT,
      FABCMN_CTRL_UNREACH_HOLD, FABCMN_CTRL_REJOIN_FRAMES]⟩
  | .fabCmnPairMap => ⟨.fabCmn, 0x100, 16, 8, 1, 8, [FABCMN_PAIR_MAP_PAIRS]⟩
  | .fabCmnHbSet => ⟨.fabCmn, 0x200, 32, 8, 1, 8, [FABCMN_HB_SET_MODULES]⟩
  | .fabCmnDestSel => ⟨.fabCmn, 0x300, 1, 8, 1, 8, [FABCMN_DEST_SEL_DEST, FABCMN_DEST_SEL_P]⟩
  | .fabCmnDestStatus => ⟨.fabCmn, 0x308, 1, 8, 1, 8, [FABCMN_DEST_STATUS_LINKS, FABCMN_DEST_STATUS_HB,
      FABCMN_DEST_STATUS_REACHABLE, FABCMN_DEST_STATUS_DROPPING, FABCMN_DEST_STATUS_EPOCH,
      FABCMN_DEST_STATUS_SEQ_NEXT]⟩
  | .fabCmnCellsLost => ⟨.fabCmn, 0x400, 1, 8, 1, 8, [FABCMN_CELLS_LOST_COUNT]⟩
  | .fabCmnCellsLate => ⟨.fabCmn, 0x408, 1, 8, 1, 8, [FABCMN_CELLS_LATE_COUNT]⟩
  | .fabCmnMisaddr => ⟨.fabCmn, 0x410, 1, 8, 1, 8, [FABCMN_MISADDR_COUNT]⟩
  | .fabCmnSlotNopath => ⟨.fabCmn, 0x418, 1, 8, 1, 8, [FABCMN_SLOT_NOPATH_COUNT]⟩
  | .crdIntStatus => ⟨.crd, 0x0, 1, 8, 1, 8, [CRD_INT_STATUS_CFG_VIOLATION, CRD_INT_STATUS_REQ_TIMEOUT,
      CRD_INT_STATUS_REQ_OVF]⟩
  | .crdIntEnable => ⟨.crd, 0x8, 1, 8, 1, 8, enableFields .crdIntEnable [CRD_INT_STATUS_CFG_VIOLATION,
      CRD_INT_STATUS_REQ_TIMEOUT, CRD_INT_STATUS_REQ_OVF]⟩
  | .crdApply => ⟨.crd, 0x10, 1, 8, 1, 8, [CRD_APPLY_GO, CRD_APPLY_PENDING]⟩
  | .crdCtrl => ⟨.crd, 0x20, 1, 8, 1, 8, [CRD_CTRL_QUANTUM, CRD_CTRL_REQ_MAX, CRD_CTRL_DEFER_BACKOFF,
      CRD_CTRL_REQ_TIMEOUT, CRD_CTRL_IDLE_CLR]⟩
  | .crdFab => ⟨.crd, 0x28, 1, 8, 1, 8, [CRD_FAB_FAB_RATE, CRD_FAB_MEMBER_MBPS]⟩
  | .crdStatus => ⟨.crd, 0x30, 1, 8, 1, 8, [CRD_STATUS_RES_RATE]⟩
  | .crdGrants => ⟨.crd, 0x40, 1, 8, 1, 8, [CRD_GRANTS_COUNT]⟩
  | .crdDefers => ⟨.crd, 0x48, 4, 8, 1, 8, [CRD_DEFERS_COUNT]⟩
  | .crdReqTimeout => ⟨.crd, 0x68, 1, 8, 1, 8, [CRD_REQ_TIMEOUT_COUNT]⟩
  | .crdReqOvf => ⟨.crd, 0x70, 1, 8, 1, 8, [CRD_REQ_OVF_COUNT]⟩
  | .crdVoqSel => ⟨.crd, 0x80, 1, 8, 1, 8, [CRD_VOQ_SEL_QUEUE]⟩
  | .crdVoqState => ⟨.crd, 0x88, 1, 8, 1, 8, [CRD_VOQ_STATE_BALANCE, CRD_VOQ_STATE_OUT]⟩
  | .crdPgCfg => ⟨.crd, 0x100, 32, 8, 1, 8, [CRD_PG_CFG_EN, CRD_PG_CFG_ANSWER, CRD_PG_CFG_PROT_EN, CRD_PG_CFG_PROT,
      CRD_PG_CFG_WINDOW, CRD_PG_CFG_RATE, CRD_PG_CFG_BURST]⟩
  | .crdClass => ⟨.crd, 0x800, 32, 64, 8, 8, [CRD_CLASS_GUAR, CRD_CLASS_ALPHA, CRD_CLASS_USED]⟩
  | .crdRes => ⟨.crd, 0x2000, 4096, 8, 1, 8, [CRD_RES_EN, CRD_RES_SRC_MOD, CRD_RES_SRC_CKT, CRD_RES_MEMBERS_M1]⟩
  | .qscNodeStore => ⟨.qsc, 0x10000000, 6, 0x1000000, 1048576, 8,
      [{ QSC_NODE_EN with reg := .qscNodeStore }, { QSC_NODE_PRIO with reg := .qscNodeStore }, { QSC_NODE_WEIGHT with reg := .qscNodeStore }, { QSC_NODE_PARENT with reg := .qscNodeStore }]⟩
  | .shpCirStore => ⟨.shp, 0x20000000, 6, 0x1000000, 1048576, 8,
      [{ SHP_CIR_RATE with reg := .shpCirStore }, { SHP_CIR_CLEAR_DEBT with reg := .shpCirStore }, { SHP_CIR_BURST with reg := .shpCirStore }]⟩
  | .shpPirStore => ⟨.shp, 0x30000000, 6, 0x1000000, 1048576, 8,
      [{ SHP_PIR_RATE with reg := .shpPirStore }, { SHP_PIR_CLEAR_DEBT with reg := .shpPirStore }, { SHP_PIR_BURST with reg := .shpPirStore }, { SHP_PIR_ADJ with reg := .shpPirStore }]⟩
  | .shpPolStore => ⟨.shp, 0x40000000, 6, 0x1000000, 1048576, 8,
      [{ SHP_POL_CFG_MODE with reg := .shpPolStore }, { SHP_POL_CFG_AWARE with reg := .shpPolStore }, { SHP_POL_CFG_MAP with reg := .shpPolStore }, { SHP_POL_CFG_YELLOW_ACT with reg := .shpPolStore }, { SHP_POL_CFG_RED_ACT with reg := .shpPolStore }, { SHP_POL_CFG_YELLOW_CLASS with reg := .shpPolStore }, { SHP_POL_CFG_CNT_EN with reg := .shpPolStore }, { SHP_POL_CFG_CNT with reg := .shpPolStore }]⟩

/-- The registers whose addresses lie in a block, R606. -/
def blockRegs : Block → List Reg
  | .gen => [.genIdOrder, .genIdRev, .genIdSerial, .genIntSummary, .genIntInst, .genIntStatus, .genIntEnable,
      .genPhase, .genPhaseCtrl, .genDomainReset, .genDomainStatus, .genResetCtrl, .genResetCause, .genCouchStatus,
      .genCouchCrcErr, .genCouchRetry, .genOfflineAcc, .genPinStatus]
  | .pce => [.pceLinkStatus, .pceIntStatus, .pceIntEnable, .pceUrLogAddr, .pceUrLogInfo, .pceTagCtrl, .pceWin,
      .pceWinGen, .pceCntWin, .pceHwmBase, .pceDiscardCpl, .pcePoisonRx, .pcePoisonTx]
  | .rng => [.rngAddr, .rngCfg, .rngState, .rngIntStatus, .rngIntEnable, .rngDmaCtrl, .rngHaltLog, .rngEvtMap]
  | .mbx => [.mbxH2mPtr, .mbxH2mPost, .mbxH2mStat, .mbxM2hPtr, .mbxM2hNote, .mbxM2hTake, .mbxMode, .mbxIntStatus,
      .mbxIntEnable, .mbxSvcCtrl]
  | .sem => [.semLock, .semRelease, .semHeld, .semForeign, .semIntStatus, .semIntEnable]
  | .tim => [.timIntStatus, .timIntEnable, .timApply, .timCtrl, .timCal, .timStatus, .timNowSec, .timNowNs, .timAdj,
      .timFreq, .timLoadSec, .timFabDiscard, .timSynce]
  | .prt => [.prtIntStatus, .prtIntEnable, .prtApply, .prtCtrl, .prtStatus, .prtRecovery, .prtHealth, .prtMateHealth,
      .prtShadowDiscard, .prtSwitchDiscard, .prtFeltErr, .prtGroupCfg, .prtGroupStatus, .prtSliceStatus, .prtCmp,
      .prtGroupMembers, .prtGroupFlexe]
  | .mil => [.milStatus, .milCtrl, .milIntStatus, .milIntEnable, .milSmbErr]
  | .dsc => [.dscStatus]
  | .lin => [.linSliceCtrl, .linIntStatus, .linIntEnable, .linLaneCfg, .linPortCfg, .linPortStatus, .linRxDiscard,
      .linPfcRx, .linPfcTx, .linCouchDiscard, .linRxFcsErr, .linRxRunt, .linRxOversize]
  | .flx => [.flxIntStatus, .flxIntEnable, .flxXcCtrl, .flxXcTime, .flxXcStatus, .flxGroupCfg, .flxGroupPhy,
      .flxClient, .flxCkt, .flxXcSby0, .flxXcSby1, .flxXcAct0, .flxXcAct1, .flxCal]
  | .pmn => [.pmnCtrl, .pmnApply, .pmnIntStatus, .pmnIntEnable, .pmnStatus, .pmnEntCfg, .pmnEntStatus, .pmnSymCorr,
      .pmnCwUncorr, .pmnBin0, .pmnBin1, .pmnBin2]
  | .prs => [.prsIntStatus, .prsIntEnable, .prsApply, .prsErrLog, .prsTrimCnt, .prsTruncCnt, .prsMalCnt, .prsMalAct,
      .prsEntry, .prsStore]
  | .lkp => [.lkpIntStatus, .lkpIntEnable, .lkpApply, .lkpErrLog, .lkpLearnCtrl, .lkpFlush, .lkpLearnFail,
      .lkpLearnDrop, .lkpMoveDeny, .lkpXbarStall, .lkpPoisonExp, .lkpPoisonClr, .lkpPoisonStatus, .lkpOccEm,
      .lkpOccRoute, .lkpPort, .lkpHprof0, .lkpHprof1, .lkpHprof2, .lkpDig0, .lkpDig1]
  | .asa => [.asaIntStatus, .asaIntEnable, .asaApply, .asaErrLog, .asaCtrl, .asaDisabled, .asaViewSel, .asaGroupCfg,
      .asaGrpMulti, .asaGrpEqpri, .asaBankCfg, .asaBankStatus, .asaSrchKey, .asaSrchCmd, .asaSrchToken0,
      .asaSrchToken1, .asaSrchStatus, .asaSrchResult, .asaSrchAct0, .asaSrchAct1, .asaView]
  | .cmt => [.cmtIntStatus, .cmtIntEnable, .cmtApply, .cmtCtrl, .cmtStatus, .cmtCommits, .cmtRejects, .cmtRejectLog,
      .cmtMaxWait, .cmtRdCmd, .cmtRdReam, .cmtRdData, .cmtHeadroom]
  | .egr => [.egrIntStatus, .egrIntEnable, .egrApply, .egrErrLog, .egrCtrl, .egrPtpNoTs, .egrPort, .egrSmac,
      .egrSrc4, .egrSrc6, .egrMirror0, .egrMirror1, .egrSampler]
  | .bpm => [.bpmIntStatus, .bpmIntEnable, .bpmApply, .bpmCtrl, .bpmStatus, .bpmDeepStatus, .bpmDoubleFree,
      .bpmForeignFree, .bpmErrLog, .bpmTreeCopies, .bpmReqCfg, .bpmReqStatus, .bpmReqNone]
  | .adm => [.admIntStatus, .admIntEnable, .admApply, .admDropLog, .admDeepStatus, .admProf0, .admProf1, .admProf2,
      .admPfc, .admPfcStatus, .admDeepBw, .admDropPkt, .admDropByte, .admDeepSat, .admQset]
  | .ddc => [.ddcCtrl, .ddcPart, .ddcErrLog, .ddcUe, .ddcCntClr, .ddcIntStatus, .ddcIntEnable, .ddcSpare, .ddcCeCfg,
      .ddcCe, .ddcChStatus]
  | .qsc => [.qscIntStatus, .qscIntEnable, .qscApply, .qscCtrl, .qscWinSel, .qscFlush, .qscEqMap, .qscNode,
      .qscNodeStatus]
  | .shp => [.shpIntStatus, .shpIntEnable, .shpApply, .shpWinSel, .shpColorMap, .shpCir, .shpPir, .shpLevel,
      .shpPolCfg]
  | .tgt => [.tgtIntStatus, .tgtIntEnable, .tgtApply, .tgtCtrl, .tgtBaseSec, .tgtBaseNs, .tgtStatus, .tgtAdmin,
      .tgtOper]
  | .fab => [.fabIntStatus, .fabIntEnable, .fabMacroCtrl, .fabLinkCfg, .fabLinkStatus, .fabAmbig, .fabCandOvf,
      .fabHcsErr]
  | .fabCmn => [.fabCmnIntStatus, .fabCmnIntEnable, .fabCmnApply, .fabCmnCtrl, .fabCmnPairMap, .fabCmnHbSet,
      .fabCmnDestSel, .fabCmnDestStatus, .fabCmnCellsLost, .fabCmnCellsLate, .fabCmnMisaddr, .fabCmnSlotNopath]
  | .crd => [.crdIntStatus, .crdIntEnable, .crdApply, .crdCtrl, .crdFab, .crdStatus, .crdGrants, .crdDefers,
      .crdReqTimeout, .crdReqOvf, .crdVoqSel, .crdVoqState, .crdPgCfg, .crdClass, .crdRes]

/-- All blocks, in the order of R598. -/
def allBlocks : List Block :=
  [.gen, .pce, .rng, .mbx, .sem, .tim, .prt, .mil, .dsc, .lin, .flx, .pmn, .prs, .lkp, .asa, .cmt, .egr, .bpm, .adm, .ddc, .qsc, .shp, .tgt, .fab, .fabCmn, .crd]

end Sys2Proof.Machine
end

