-- ==== Sys2Proof/Machine/RegMap.lean ====
section
/-!
DEFINITION. Machine/RegMap.lean: the address of a register, the register of an address, reset values, and fields of a
word.
-/
namespace Sys2Proof.Machine

/-- The address of a register: base + stride × instance + offset + the strides of its indices (R606). -/
def regAddr (r : Reg) (ix : Ix) : Nat :=
  let t := r.info
  let b := blockInfo t.block
  b.base + b.stride * ix.inst + t.off + t.s1 * ix.i + t.s2 * ix.j

/-- The index of an offset in an array of two strides; none when the offset falls between its elements or beyond. -/
def idxOf (off n1 s1 n2 s2 : Nat) : Option (Nat × Nat) :=
  let i := if n1 ≤ 1 then 0 else off / s1
  let o := off - i * s1
  let j := if n2 ≤ 1 then 0 else o / s2
  if i < n1 ∧ j < n2 ∧ o = j * s2 then some (i, j) else none

/-- Elements of an array that the map reserves: PRT_CMP has no k = 3, EGR_MIRROR no m = 0, EGR_SAMPLER no k = 0
(R568, R512, R513); DDC's registers below 0x100 exist in instance 0 only (R606). -/
def regExists (r : Reg) (ix : Ix) : Bool :=
  match r with
  | .egrMirror0 | .egrMirror1 | .egrSampler => ix.i != 0
  | .ddcCtrl | .ddcPart | .ddcErrLog | .ddcUe | .ddcCntClr => ix.inst == 0
  | _ => true

/-- The register of a block at an offset from the instance base. -/
def findIn (inst off : Nat) : List Reg → Option RegRef
  | [] => none
  | r :: rs =>
    let t := r.info
    if t.off ≤ off then
      match idxOf (off - t.off) t.n1 t.s1 t.n2 t.s2 with
      | some (i, j) => if regExists r ⟨inst, i, j⟩ then some ⟨r, ⟨inst, i, j⟩⟩ else findIn inst off rs
      | none => findIn inst off rs
    else findIn inst off rs

/-- The block whose range holds a BAR0 offset (R110, R598). -/
def findBlock (off : Nat) : Option Block :=
  allBlocks.find? fun b => (blockInfo b).base ≤ off && off < (blockInfo b).base + (blockInfo b).size

/-- The instance of a block that holds a BAR0 offset, and the offset within it. -/
def instOf (b : Block) (off : Nat) : Nat × Nat :=
  let t := blockInfo b
  let o := off - t.base
  if t.count ≤ 1 then (0, o) else (o / t.stride, o % t.stride)

/-- The register at a BAR0 offset (R606); none where the map has no register (R599). -/
def findReg (off : Nat) : Option RegRef :=
  match findBlock off with
  | none => none
  | some b =>
    let (k, o) := instOf b off
    if k < (blockInfo b).count then findIn k o (blockRegs b) else none

/-- The register, or the store behind a window, at a storage address. -/
def findStored (a : Nat) : Option RegRef :=
  if a < 0x10000000 then findReg a
  else
    let r : Reg := if a < 0x2B000000 then .qscNodeStore else if a < 0x3B000000 then .shpCirStore
      else if a < 0x4B000000 then .shpPirStore else .shpPolStore
    let t := r.info
    let o := a - ((blockInfo t.block).base + t.off)
    some ⟨r, ⟨0, o / t.s1, (o % t.s1) / t.s2⟩⟩

/-- The number of guaranteed cells of BPM requester r at reset (spec/12_buffering.md R363). -/
def guarReset (r : Nat) : Nat :=
  if r < 16 then 0x2000 else if r = 16 then 0x10000 else if r = 17 then 0x2000 else if r = 18 then 0x1000
  else if r = 19 then 0x2000 else if r = 20 then 0x4000 else if r = 21 then 0x1000 else 0

/-- The value of a register right after the reset of its domain (R18): the reset values of its fields, and the few
that differ along an array: the order number's two words (R604), the serial number (R604), the cells guaranteed to
each BPM requester (R363), and the first entry of an operating gate list (R453). -/
def regReset (r : Reg) (ix : Ix) : W64 :=
  match r with
  | .genIdOrder =>
    if ix.i = 0 then (if Config.is2T then 0x322D303231355856#64 else 0x312D303231355856#64) else 0x2020202020202054#64
  | .genIdSerial => Config.serial
  | .bpmReqCfg =>
    if ix.i < 22 then
      BitVec.ofNat 64 ((r.info.fields.foldl (fun a f => a + f.rst * 2 ^ f.lsb) 0) + guarReset ix.i)
    else 0
  | .tgtOper => if ix.j = 0 then 0xFF#64 else 0
  | _ => BitVec.ofNat 64 (r.info.fields.foldl (fun a f => a + f.rst * 2 ^ f.lsb) 0)

/-- The reset value of whatever is stored at an address. -/
def resetAt (a : Nat) : W64 :=
  match findStored a with
  | some ⟨r, ix⟩ => regReset r ix
  | none => 0

/-- The value of a field of a word. -/
def Field.get (f : Field) (v : W64) : Nat := bitsOf v.toNat f.lsb f.width

/-- A word with a field replaced. -/
def Field.put (f : Field) (v : W64) (x : Nat) : W64 := BitVec.ofNat 64 (withBits v.toNat f.lsb f.width x)

/-- The bits of a register whose fields are of a class. -/
def classMask (r : Reg) (a : Access) : W64 :=
  BitVec.ofNat 64 ((r.info.fields.filter (fun f => f.acc == a)).foldl (fun m f => m + maskBits f.lsb f.width) 0)

/-- The bits of a register that a field covers. -/
def Field.mask (f : Field) : W64 := BitVec.ofNat 64 (maskBits f.lsb f.width)

/-- A word with the masked bits taken from another. -/
def blend (old new mask : W64) : W64 := (old &&& ~~~mask) ||| (new &&& mask)

end Sys2Proof.Machine
end

