-- ==== Sys2Proof/Machine/State.lean ====
section
/-!
DEFINITION. Machine/State.lean: everything the manual gives the module, as plain data, and the state right after reset.
-/
namespace Sys2Proof.Machine

/-! ## Register access, spec/00_scope.md R6 to R17 -/

/-- A register word and the address that names it. -/
abbrev RegCell := Nat × W64

/-- An RW write that its island has not taken yet (R6): the address, the bits it covers and their value. -/
structure RwPend where
  off : Nat
  addr : Nat
  mask : W64
  val : W64
  deriving DecidableEq, Repr

/-- A posted write of an FX register (R16): its requester, where and what, and whether it is an unpaired high half,
which leaves the low half as it is (log entry 7). -/
structure Posted where
  req : Req
  off : Nat
  v : W64
  hi : Bool
  deriving DecidableEq, Repr

/-- A read of a register: whole, or of one half (R12, R14). -/
inductive RegPart where
  | whole | low | high
  deriving DecidableEq, Repr

/-- A read that waits for the couch link (spec/01_architecture.md R35): of a requester's register, or a request of the
host's link as it came. -/
inductive WaitAcc where
  | read (req : Req) (off : Nat) (part : RegPart)
  | tlp (t : Tlp)
  deriving DecidableEq, Repr

/-- A half register that a requester's access holds: a pending low half of a write (R12) or a captured high half of a
read (R14). -/
structure Half where
  req : Req
  off : Nat
  v : W32
  deriving DecidableEq, Repr

/-- Who staged fields of a block instance since its last application, and who wrote GO (R8, R44). -/
structure ApplySt where
  block : Block
  inst : Nat
  /-- who wrote GO; PENDING reads 1 while this is some -/
  go : Option Req
  stagers : List Req
  deriving DecidableEq, Repr

/-- What stands between a requester and the registers. -/
structure AccSt where
  rwPend : List RwPend
  /-- posted writes that have crossed the couch link and have not reached their blocks (R16) -/
  posted : List Posted
  /-- posted writes for which the couch link has no room: the endpoint withholds credit
  (spec/01_architecture.md R41) -/
  held : List Posted
  /-- reads that wait for the couch link to be UP again (spec/01_architecture.md R35) -/
  waits : List WaitAcc
  lows : List Half
  highs : List Half
  applies : List ApplySt
  /-- nanoseconds and fraction captured by a read of TIM_NOW_SEC (spec/17_time.md R516) -/
  nsCapt : List (Req × W64)
  deriving DecidableEq, Repr

/-! ## Phases, domains, contacts, spec/02_module.md and spec/03_startup_reset.md -/

/-- R79. -/
inductive Phase where
  | off | boot | init | test | run | park | isolate
  deriving DecidableEq, Repr

/-- Where the power sequence stands between power-good and the end of regulator sequencing (R54, R83), and between
power-fail and rails off (R57, R58). -/
inductive Power where
  | absent | sequencing | up | failing
  deriving DecidableEq, Repr

/-- Module-wide state: the phase and what GEN_PHASE shows of it (R99), the 29 domains (R102), the pair's and the
reset contacts (R74), the heartbeat watchdog (R63), the transmitters (R79) and the carrier's reset line (R85). -/
structure GenSt where
  phase : Phase
  power : Power
  image : Bool
  isoCause : Nat
  testMap : BitVec 16
  bootFail : Bool
  testQx : Bool
  powered : BitVec 29
  inReset : BitVec 29
  ready : BitVec 29
  /-- a phase request not yet at its end (R82) -/
  reqBusy : Bool
  /-- a warm QX restart under way (R91) -/
  warmBusy : Bool
  /-- the last ISOLATE was a thermal trip (R53) -/
  tripped : Bool
  slotId : BitVec 6
  matePresent : Bool
  aliveIn : Bool
  aliveOut : Bool
  perst : Bool
  /-- PERST_N has been driven low after it was released since power-good (R104) -/
  perstReset : Bool
  sampled : Bool
  modResetLow : Bool
  hbOn : Bool
  hbCount : Nat
  /-- when the last strobe came, in units of `State.now` -/
  hbLast : Nat
  lineTx : Bool
  fabTx : Bool
  feltTx : Bool
  selfRefresh : Bool
  /-- INIT is passed with the contents of DRAM retained (R92, R95, R397) -/
  retain : Bool
  /-- when power-good was declared (R580), in units of `State.now` -/
  goodAt : Nat
  auxOn : Bool
  /-- the power-fail under way is of overvoltage (spec/19_mill.md R580) -/
  overvolt : Bool
  deriving DecidableEq, Repr

/-! ## The host's functions, spec/04_host_pcie.md -/

/-- An MSI-X table entry (R124). -/
structure MsixEntry where
  addr : W64
  data : W32
  mask : Bool
  deriving DecidableEq, Repr

/-- The AER reports that the manual names (R133). -/
inductive AerKind where
  | unsupported | advisory | poisoned | ecrc | cplTimeout | internal
  deriving DecidableEq, Repr

/-- A severity of AER. -/
inductive AerSev where
  | correctable | nonFatal | fatal
  deriving DecidableEq, Repr

/-- A function's AER capability (R133), whose fields are sticky (R130): errors recorded, errors that software masks,
and errors of severity Fatal. -/
structure AerSt where
  status : List AerKind
  masked : List AerKind
  fatal : List AerKind
  deriving DecidableEq, Repr

/-- The capabilities that R105 lists. -/
inductive Capability where
  | powerManagement | msix | pciExpress | aer | serialNumber | dataLinkFeature | physical16 | physical32 | physical64
  | laneMargining
  deriving DecidableEq, Repr

/-- A base address register of R108: 64-bit, prefetchable or not, and its size. -/
structure Bar where
  prefetchable : Bool
  size : Nat
  deriving DecidableEq, Repr

/-- What a function's configuration space tells of it and nothing changes (R105, R108, R131). -/
structure FnIdent where
  vendor : Nat
  subVendor : Nat
  device : Nat
  subsystem : Nat
  revision : Nat
  classCode : Nat
  /-- 1 is INTA -/
  intPin : Nat
  bar01 : Bar
  bar23 : Option Bar
  vectors : Nat
  serial : W64
  noSoftReset : Bool
  /-- Read Completion Boundary, in bytes -/
  rcb : Nat
  maxPayload : Nat
  maxRead : Nat
  caps : List Capability
  deriving DecidableEq, Repr

/-- What software programs in a function's configuration space beside what commands of their own change (R105, R133):
Max_Payload_Size and Max_Read_Request_Size in bytes, ECRC generation and checking, the Completion Timeout range (0 is
50 µs to 50 ms). -/
structure FnCfg where
  payload : Nat
  readReq : Nat
  ecrcGen : Bool
  ecrcCheck : Bool
  cplRange : Nat
  deriving DecidableEq, Repr

/-- One PCIe function: its configuration space, its MSI-X table and pending bits, its INTx, and its power state. -/
structure FnSt where
  ident : FnIdent
  cfg : FnCfg
  aer : AerSt
  bme : Bool
  d3 : Bool
  flr : Bool
  msixEn : Bool
  msixMask : Bool
  intDis : Bool
  intx : Bool
  table : List (Nat × MsixEntry)
  pend : List Nat
  deriving DecidableEq, Repr

/-- What an outstanding read of the module is for. -/
inductive ReadUse where
  | ring (r : Nat)
  | millBlock (i : Nat)
  deriving DecidableEq, Repr

/-- A tag of an outstanding read (R127), and whether its data is still wanted (R128). -/
structure TagUse where
  tag : Nat
  fn : Fn
  use : ReadUse
  dead : Bool
  deriving DecidableEq, Repr

/-- A read that waits for a tag (R127). -/
structure TagWait where
  fn : Fn
  use : ReadUse
  deriving DecidableEq, Repr

/-- The endpoint: link status (R134), outstanding reads, reads waiting for a tag, and accesses of each peer window
still on their way in deep memory (R121). -/
structure PceSt where
  rate : Nat
  width : Nat
  flit : Bool
  ltssm : Nat
  retrains : Nat
  tags : List TagUse
  waits : List TagWait
  inflight : List (Nat × Nat)
  deriving DecidableEq, Repr

/-! ## Rings, mailboxes, locks, spec/05_rings_mailboxes_locks.md -/

/-- R145. -/
inductive RingState where
  | disabled | run | stopping | halted
  deriving DecidableEq, Repr

/-- One ring: indices (R141), state and halt code (R156), reads in flight, interrupt gathering (R155), losses (R158),
the event record count (R150), work slots held (R152). -/
structure Ring where
  hostIdx : W32
  modIdx : W32
  state : RingState
  haltCode : Nat
  inflight : Nat
  /-- ENABLE was written 0: the ring becomes DISABLED once nothing is in flight (R146) -/
  closing : Bool
  armed : Bool
  /-- completions since the last request of the vector -/
  gathered : Nat
  irqPend : Bool
  drop : Nat
  seq : BitVec 16
  slots : Nat
  deriving DecidableEq, Repr

/-- A record for an event or export ring that waits for a work slot (R153). -/
structure HeldRec where
  ring : Nat
  bytes : List Byte
  deriving DecidableEq, Repr

/-- The rings that differ from a ring at reset, and each engine's FIFO of records. -/
structure RingsSt where
  rings : List (Nat × Ring)
  fifos : List HeldRec
  deriving DecidableEq, Repr

/-- A notice (R159). -/
structure Notice where
  ptr : W64
  len : BitVec 16
  tag : BitVec 8
  seq : BitVec 8
  deriving DecidableEq, Repr

/-- A mailbox pair (R159, R162 to R167). -/
structure MbxPair where
  h2m : Option Notice
  m2h : Option Notice
  ackCode : BitVec 8
  ackSeq : BitVec 8
  collision : Bool
  timeout : Bool
  frAck : Bool
  /-- the CODE that the host wrote with TAKE in forerunner mode, which the Mill reads (R162) -/
  takeCode : BitVec 8
  deriving DecidableEq, Repr

/-- A command in one of the Mill's service slots (R165): where it came from, its block and what it asks; the answer
once the Mill has made it; and whether its block can no longer be answered (R128). -/
structure MillSlot where
  src : MillSrc
  notice : Notice
  /-- the whole command block as the Mill read it, header included -/
  block : List Byte
  done : Bool
  status : BitVec 8
  detail : BitVec 24
  resp : List Byte
  abandoned : Bool
  deriving DecidableEq, Repr

/-- The mailboxes and the Mill's service slots. -/
structure MbxSt where
  pairs : List (Nat × MbxPair)
  slots : List MillSlot
  deriving DecidableEq, Repr

/-- The lock registers that are owned, by lock number, with the owner's ID (R169). -/
abbrev LockTable := List (Nat × Nat)
/-! ## What the module puts out -/

/-- A message of a control cell, spec/15_fabric.md R474. A time is the counter in units of 2^-16 ns. -/
inductive CtlMsg where
  | request (pg cls addr : Nat) (pair : Bool)
  | grant (pg cls addr : Nat) (pair : Bool) (bytes : Nat)
  | defer (pg cls addr : Nat) (pair : Bool) (reason : Nat)
  | creditReturn (pg cls bytes : Nat)
  | heartbeat (phase hbSeq active : Nat)
  | timeSync (xseq t : Nat)
  | timeDreq (xseq t : Nat)
  | timeDresp (xseq t : Nat)
  deriving DecidableEq, Repr

/-- What the module has sent to the world outside it. Nothing in the module reads it back. -/
inductive Out where
  /-- a register read's answer to its requester, R12 to R16 -/
  | answer (req : Req) (v : W64)
  /-- a completion with data, for a read of a window, R113 to R119 -/
  | completion (fn : Fn) (data : List Byte)
  /-- a completion with EP set, R123 -/
  | poisonedCompletion (fn : Fn)
  /-- a completion with status Unsupported Request, R117 -/
  | unsupported (fn : Fn) (reason : Nat)
  /-- an AER report, R117 and R133 -/
  | aer (fn : Fn) (k : AerKind) (sev : AerSev)
  /-- an MSI-X message, R124 and R125 -/
  | msix (fn : Fn) (vec : Nat) (addr : W64) (data : W32)
  /-- Assert_INTx or Deassert_INTx, R126 -/
  | intx (fn : Fn) (assert : Bool)
  /-- a memory read request of the module, R127 -/
  | readReq (fn : Fn) (tag : Nat) (use : ReadUse)
  /-- a memory write of the module to host memory, R107 and R144 -/
  | hostWrite (fn : Fn) (addr : Nat) (data : List Byte)
  /-- a cell on a fabric link, header and payload, spec/15_fabric.md R463 -/
  | cell (link : Nat) (bytes : List Byte)
  /-- bytes 0x08 to 0x0A of the markers that a fabric link or a felt lane sends from now on: TX_ID, TX_LINK, RDI, LEGACY,
  spec/15_fabric.md R457 -/
  | marker (felt : Bool) (lane word : Nat)
  /-- a message on a felt lane, spec/18_protection.md R537 -/
  | felt (lane : Nat) (bytes : List Byte)
  /-- a frame on a MAC port, with its FCS, spec/16_egress_rewrite.md R507 -/
  | frame (port : Nat) (bytes : List Byte)
  /-- the value of a proxy access to a lock of the mate, for whoever asked (spec/05_rings_mailboxes_locks.md R171) -/
  | lockResult (lock value : Nat)
  /-- 66-bit blocks of a slot cell played in a member's slot, or Local Fault in their place, spec/15_fabric.md R478 -/
  | played (src ckt member : Nat) (lf : Bool) (blocks : List Byte)
  /-- a PFC frame on a port: class and quanta, spec/06_line_flexe.md R182 -/
  | pfc (port cls quanta : Nat)
  /-- PPS_OUT rises, spec/17_time.md R522 -/
  | pps
  /-- a ToD message on TOD_TX, spec/17_time.md R522 -/
  | tod (msg : List Byte)
  /-- bytes the module returns to an SMBus read, spec/19_mill.md R593; the module releases the bus, R613 -/
  | smbData (bytes : List Byte)
  | smbRelease
  /-- ALERT_N driven (true) or released, R578 -/
  | alert (driven : Bool)
  deriving DecidableEq, Repr

/-! ## The Mill's log, spec/19_mill.md R579 to R582 -/

/-- A log entry (R579); its number and the CRC are made when it is written or read. -/
structure LogEntry where
  kind : Nat
  locked : Bool
  holdUp : Bool
  sec : Nat
  ns : Nat
  frac : Nat
  source : Nat
  arg0 : Nat
  arg1 : Nat
  phase : Nat
  deriving DecidableEq, Repr
/-! ## Packets between the mechanisms -/

/-- What a packet entering a slice brings with it: its source port (R29), its bytes without FCS, its receive time-stamp
if a MAC took one (R525), and, for a TX packet of MODE 1, the port and class it goes to (R147). -/
structure Arrival where
  port : Nat
  bytes : List Byte
  ts : Option (Nat × Nat)
  direct : Option (Nat × Nat)
  /-- the frame sequence number of its port (spec/18_protection.md R553) -/
  fseq : Nat
  deriving DecidableEq, Repr

/-- A packet for the host, waiting for its RX ring (R149, R153). -/
structure HostPkt where
  ring : Nat
  bytes : List Byte
  srcPort : Nat
  cause : Nat
  tsSec : Nat
  tsNs : Nat
  /-- in its host queue: its cells and the requester that holds them (spec/12_buffering.md R363) -/
  cells : List Nat := []
  holder : Nat := 0
  deriving DecidableEq, Repr

/-! ## Line ports and FlexE, spec/06_line_flexe.md -/

/-- A slot cell in a playout buffer (spec/15_fabric.md R477): its place in the member's order, whether its source is in
signal fail, and its payload. -/
structure SlotCell where
  mseq : BitVec 16
  lf : Bool
  blocks : List Byte
  deriving DecidableEq, Repr

/-- A member's playout buffer (R197, R198, R478): whether it has filled, the place that plays next, and its cells. -/
structure Playout where
  filled : Bool
  next : BitVec 16
  cells : List SlotCell
  deriving DecidableEq, Repr

/-- Frames delimited at a port (spec/18_protection.md R553): how many, the FCS of the last 64, newest first, and the
numbers of those since the port's last epoch boundary that had a bad FCS (R554). -/
structure FrameSeq where
  seq : BitVec 32
  fcs : List (BitVec 32)
  bad : List Nat
  deriving DecidableEq, Repr

/-- Line ports whose PCS is aligned; classes of ports that admission asks to pause (R182), as 8 × port + class; FlexE
groups with a calendar switch under way (R192); playout buffers of the fabric members played here, by member (R197);
and when each LD domain left reset (spec/17_time.md R525), in units of `State.now`; frames counted by port. -/
structure LinSt where
  aligned : List Nat
  xoff : List Nat
  calReq : List Nat
  playout : List (Nat × Playout)
  ldOut : List (Nat × Nat)
  frames : List (Nat × FrameSeq)
  deriving DecidableEq, Repr

/-! ## Monitoring, spec/07_line_monitoring.md -/

/-- A bin (R223). -/
structure PmBin where
  es : Nat
  ses : Nat
  uas : Nat
  bbe : Nat
  suspect : Bool
  valid : Bool
  start : Nat
  deriving DecidableEq, Repr

/-- The bins of an entity: the current and past 15-minute bins, most recent first, and the two 24-hour bins (R217,
R223). -/
structure PmBins where
  cur15 : PmBin
  hist : List PmBin
  cur24 : PmBin
  prev24 : PmBin
  deriving DecidableEq, Repr

/-- An entity: its defects (R207), SD and the periods counted towards its change (R209), conditions not yet passed on
(R210), availability and the seconds counted towards its change (R215); whether a defect was declared, and whether it
could not be monitored, in any part of the second in progress (R214, R218); its bins. -/
structure EntSt where
  los : Bool
  loa : Bool
  fail : Bool
  sd : Bool
  sdBad : Nat
  sdGood : Nat
  sfHeld : Bool
  sdHeld : Bool
  unavail : Bool
  run : Nat
  hit : Bool
  lapse : Bool
  bins : PmBins
  deriving DecidableEq, Repr

/-- A judged second of an entity (R214, R215). -/
structure SecJudge where
  ses : Bool
  es : Bool
  bbe : Nat
  uas : Bool
  deriving DecidableEq, Repr

/-- A second not yet committed (R216): the entities that were judged in it, and whether it makes bins suspect. -/
structure PmSecond where
  sec : Nat
  suspect : Bool
  ents : List (Nat × SecJudge)
  deriving DecidableEq, Repr

/-- PMN: the entities that differ from one at reset, the seconds that wait for commitment, oldest first, the second in
progress, and the DAY_OFFSET of the 24-hour bins in progress (R219). -/
structure PmnSt where
  ents : List (Nat × EntSt)
  pend : List PmSecond
  sec : Nat
  dayOff : Nat
  deriving DecidableEq, Repr
/-! ## Packets in the ingress pipelines, spec/08_parser.md and spec/09_lookup.md -/

/-- An entry of HI (R237). -/
structure HiEnt where
  type : Nat
  off : Nat
  len : Nat
  deriving DecidableEq, Repr

/-- The state of a parse engine (R227), with the instructions executed and whether TRIM has lowered FEND (R238). PC is
one bit wider than R227 gives it, to hold 8,192 (R233). -/
structure EngSt where
  pc : Nat
  cur : Nat
  g : List (BitVec 16)
  flags : BitVec 16
  fend : Nat
  hi : List HiEnt
  kv : List Byte
  steps : Nat
  trimmed : Bool
  /-- PROFILE of the entry (R228) -/
  profile : BitVec 16
  deriving DecidableEq, Repr

/-- How a parse ends (R233). -/
inductive ParseEnd where
  | normal (cls : Nat)
  | truncated (reason : Nat)
  | malformed (cause : Nat)
  deriving DecidableEq, Repr

/-- Where a packet stands in its ingress pipeline: waiting for an engine, in an engine, its parse ended but its engine
still held (R225), waiting for key build, with lookups out, waiting at the exit reorder stage (R30). -/
inductive PktStage where
  | dispatched | parsing (e : Nat) | ended (e : Nat) | parsed | lookups | exit
  deriving DecidableEq, Repr

/-- A lookup issued and not yet answered: its descriptor's number, target, PARAM and FWD, and its key (R254, R255). -/
structure LkReq where
  d : Nat
  target : Nat
  param : Nat
  fwd : Bool
  key : List Byte
  deriving DecidableEq, Repr

/-- What a lookup found: nothing; an exact-match or route result with its DATA and whether a learned entry gave it; an
ASA hit with its action words; or TABLE_ERROR (R257 to R262, R305, R283). -/
inductive LkRes where
  | miss
  | hit (result data : Nat) (learned : Bool)
  | asa (act0 act1 : Nat)
  | tableError
  /-- a search of a group in ERR_MODE 1 with disabled rows (R319) -/
  | groupError
  deriving DecidableEq, Repr

/-- An answered descriptor of a packet. -/
structure LkAns where
  d : Nat
  fwd : Bool
  res : LkRes
  deriving DecidableEq, Repr

/-- Where a packet goes from its forwarding decision: a VOQ with its destination port and rewrite entry (R258, R268),
a multicast group (R275), or, for an egress copy, a mirror session (spec/16_egress_rewrite.md R503). -/
inductive XDest where
  | voq (mod pg port rewrite : Nat)
  | group (g : Nat) (flood : Bool)
  | session (m : Nat)
  deriving DecidableEq, Repr

/-- A packet on its way to admission: its source port, its bytes, its time-stamp, class and key-vector byte 65 (R439),
the policer and the mirror session that its ASA actions name, where it goes, and its ream. -/
structure XPkt where
  src : Nat
  bytes : List Byte
  ts : Option (Nat × Nat)
  cls : Nat
  tos : Byte
  policer : Option Nat
  mirror : Nat
  dest : XDest
  ream : Nat
  deriving DecidableEq, Repr

/-- What leaves an ingress pipeline. -/
inductive PipeOut where
  | fwd (p : XPkt)
  | host (p : HostPkt)
  deriving DecidableEq, Repr

/-- A packet between its dispatch and the exit of its ingress pipeline. -/
structure Pkt where
  arr : Arrival
  slice : Nat
  pipe : Nat
  /-- the ream it was stamped with at dispatch (R329) -/
  ream : Nat
  stage : PktStage
  eng : EngSt
  fin : Option ParseEnd
  /-- the metadata vector (R252) -/
  mv : List Byte
  /-- the images of the profile of R253 and of the one that phase B uses (R256) -/
  prof : Nat
  profB : Nat
  phaseB : Bool
  /-- a profile or selection entry that it needed was bad (R283) -/
  bad : Bool
  open_ : List LkReq
  ans : List LkAns
  outs : List PipeOut
  deriving DecidableEq, Repr

/-- The ingress pipelines: the packets in them, oldest first; the pipeline that each slice's dispatcher takes next; the
number of its next slot, modulo 64 (R31); the engine that each pipeline takes next; the newest ream each pipeline has
stamped (R30, R224, R339), egress pipelines from 64 on. -/
structure IngSt where
  pkts : List Pkt
  nextPipe : List (Nat × Nat)
  slots : List (Nat × Nat)
  nextEng : List (Nat × Nat)
  stamped : List (Nat × Nat)
  deriving DecidableEq, Repr

/-- A forwarding decision as its decision record tells it (spec/18_protection.md R551, R552). -/
structure Decision where
  fate : Nat
  cause : Nat
  result : Nat
  nh : Nat
  mod : Nat
  pg : Nat
  port : Nat
  cls : Nat
  rewrite : Nat
  policer : Nat
  mirror : Nat
  copyHost : Bool
  copyRing : Nat
  deriving DecidableEq, Repr
/-! ## Versioned tables, spec/09_lookup.md and spec/11_reams.md -/

/-- A stored version of an entry (R340, R342): its tags, its image as a number of `len` bytes (R331), and
whether its stored word is bad (R283, R620). -/
structure Ver where
  born : Nat
  retired : Nat
  img : Nat
  len : Nat
  bad : Bool
  deriving DecidableEq, Repr

/-- What an exact-match or stash slot holds (R259): an entry, which for a wide KIND fills this slot and the next, or
POISON with its block (R283). `bad` stays false: a bad slot is POISON at once. -/
inductive EmSlot where
  | entry (kind key result data : Nat) (learned hit : Bool) (born retired : Nat)
  | poison (block : Nat)
  deriving DecidableEq, Repr

/-- A learn request in the FIFO (R276, R277): the key (BD and MAC) and the source port. -/
structure LearnReq where
  key : Nat
  port : Nat
  deriving DecidableEq, Repr

/-- A flush under way (R281): what it selects, whether it exports, and the slots that the learning engine or a commit
has written since GO. -/
structure FlushSt where
  bd : Option Nat
  port : Option Nat
  export_ : Bool
  fresh : List Nat
  deriving DecidableEq, Repr

/-- The tables of block LKP and the parse tables: versions by table × 2^32 + index, oldest first; the exact-match pool
and the stash by slot; slots reserved for the ream being staged (R263); on-die counter pairs as packets and bytes; the
learn FIFO; when LEARN_FAIL was last cleared (R278); the flush under way; stale regions, with what their digest words
hold beyond the digest of their good entries (R286); bad trie nodes (R283); when FL left reset last, from which the
dandy scan counts its passes (spec/20_register_map.md R605). -/
structure TablesSt where
  vers : List (Nat × List Ver)
  em : List (Nat × EmSlot)
  counters : List (Nat × Nat × Nat)
  fifo : List LearnReq
  failClear : Option Nat
  flush : Option FlushSt
  stale : List (Nat × W64)
  badTrie : List Nat
  flOut : Nat
  deriving DecidableEq, Repr

/-! ## Associative search arrays, spec/10_associative_search.md -/

/-- A stored ASA entry (R300): the unit index it answers to, the first unit it is stored in (another one only while an
update waits for settlement, R342), its width code, value and mask as numbers, its control fields and action words, and
whether its control or action words have been found bad (R318), and whether it matches nothing because the row it
shares was enabled again without it (R320). -/
structure AsaEnt where
  idx : Nat
  loc : Nat
  width : Nat
  value : Nat
  mask : Nat
  prio : Nat
  valid : Bool
  act0 : W64
  act1 : W64
  born : Nat
  retired : Nat
  shadow : Bool
  reloc : Bool
  link : Nat
  bad : Bool
  off : Bool
  deriving DecidableEq, Repr

/-- A host search context (R309 to R313) beyond its registers: the latched key (80 bytes) and
group, and the pinned ream while it holds a pin. -/
structure AsaCtx where
  key : List Byte
  group : Nat
  pin : Option Nat
  deriving DecidableEq, Repr

/-- The arrays: entries, disabled rows (unit index ÷ 2), search contexts that differ from one at reset. -/
structure AsaSt where
  ents : List AsaEnt
  disRows : List Nat
  ctxs : List (Nat × AsaCtx)
  deriving DecidableEq, Repr

/-! ## The Commit Engine, spec/11_reams.md -/

/-- What a staged change will do at the commit instant. -/
inductive Edit where
  /-- WRITE: an entry of a table other than the exact-match pool and the ASA; whether its stored word has gone bad
  while it is staged (R620) -/
  | put (key img len : Nat) (bad : Bool)
  | retire (key : Nat)
  /-- EM_ADD: the entry, the slot reserved for it, and the relocations that make room, as pairs of slots (R263); no
  slot where the entry is there already -/
  | emAdd (kind key result data : Nat) (slot : Option Nat) (moves : List (Nat × Nat))
  /-- the relocations of an EM_ADD that a later command of the ream has superseded -/
  | emMoves (moves : List (Nat × Nat))
  | emDel (kind key : Nat)
  /-- WRITE to the ASA: the entry and the unit it will be stored in -/
  | asaPut (e : AsaEnt)
  | asaRetire (idx : Nat)
  | asaMove (src dst : Nat)
  deriving DecidableEq, Repr

/-- A ream that is staged and waits for its commit instant (R345): its ring, its number, RESUME, when it began to wait,
whether that has been reported (R348), and when nothing held it back any more. -/
structure CommitWait where
  ring : Nat
  number : Nat
  numberEn : Bool
  resume : Bool
  since : Nat
  warned : Bool
  ended : Option Nat
  deriving DecidableEq, Repr

/-- The first failure of a ream: code, table, position (R336). -/
structure ReamFail where
  code : Nat
  table : Nat
  pos : Nat
  deriving DecidableEq, Repr

/-- The rest of a ream that the engine has given up: its ring, and what its COMMIT will carry (R336, R337); `first`
where a reset of FC discarded it, so that the engine completes it before it takes another ream (R348). -/
structure RestReam where
  ring : Nat
  fail : ReamFail
  changes : Nat
  pos : Nat
  first : Bool
  deriving DecidableEq, Repr

/-- The Commit Engine: the newest ream and when it was committed; the ream before it; the undrained reams, oldest first,
the newest included (R345); the reams not yet settled, oldest first; those settled but for ASA originals that wait for
R315; the ring whose ream is being staged, what is staged, the changes counted and the descriptors completed; the first
failure; reams given up whose descriptors are still to be completed (R337, R348); the staged ream that waits; the last
ring taken (R337); a reset of FC after which no new ream starts until all have settled (R348); the table read under way:
its table, index and RAW (R350, R355). -/
structure CmtSt where
  newest : Nat
  prev : Nat
  at_ : Nat
  undrained : List Nat
  unsettled : List Nat
  half : List Nat
  ring : Option Nat
  edits : List Edit
  changes : Nat
  pos : Nat
  fail : Option ReamFail
  rest : List RestReam
  wait : Option CommitWait
  last : Nat
  hold : Bool
  rd : Option (Nat × Nat × Bool)
  deriving DecidableEq, Repr

/-! ## Buffers and queues, spec/12_buffering.md -/

/-- A buffer that is not FREE (R359): CACHED or BUSY, its OWNER, COUNT and HOLDERS, and the packet chain it belongs to
(R358). An OWNER of 32 + 8 × p + k is the headroom of port p, taken by its class k (R377). `loss` is the port and class
in whose IN_CELLS it counts (R375). -/
structure Buf where
  busy : Bool
  owner : Nat
  count : Nat
  holders : BitVec 32
  chain : Nat
  loss : Option (Nat × Nat)
  deriving DecidableEq, Repr

/-- BPM: the buffers that are not FREE, by handle; the number of the next chain; the requesters whose 64-cycle retry
has ended without a grant (R363); the requester that the allocator served last (R364); the last cycle with a DEC, and of
the buffers that it met their DECs and what they held before (R362). -/
structure BpmSt where
  bufs : List (Nat × Buf)
  nextChain : Nat
  spent : List Nat
  last : Nat
  cycle : Nat
  decs : List (Nat × Nat × Buf)
  deriving DecidableEq, Repr

/-- Where a cell of a queued packet lies: on die with the requester that holds it, on die while its page is written,
in a page (R371). -/
inductive CellAt where
  | die (h holder : Nat)
  | moving (h holder page : Nat)
  | deep (page : Nat)
  deriving DecidableEq, Repr

/-- A queued packet: its bytes and cells; its ingress port, 0x1FF from the fabric; the port group and class of its VOQ;
destination port and rewrite entry (R268, R471); its time-stamp; when it was enqueued; the port and class for which
its cells count in IN_CELLS (R375). -/
structure QPkt where
  bytes : List Byte
  cells : List CellAt
  port : Nat
  pg : Nat
  cls : Nat
  dport : Nat
  rewrite : Nat
  ts : Option (Nat × Nat)
  enq : Nat
  loss : Option (Nat × Nat)
  deriving DecidableEq, Repr

/-- A page of a queue: its handle, whether its write is complete, the cause its packets are dropped with at refill
(0 while it is sound; R373), and how many cells were packed into it (R371). -/
structure DeepPage where
  h : Nat
  written : Bool
  lost : Nat
  size : Nat
  deriving DecidableEq, Repr

/-- A queue: its packets, head first; pages in queue order, deep mode and the mark of a refused eviction (R371, R373);
BALANCE, OUT and a running back-off (R417, R418), and the module that granted last (R474); the payload of the cell
being cut from its stream, with its PTR (R471); the packets a flush has still to drop (R416); the high-water marks
(R440). -/
structure Queue where
  pkts : List QPkt
  pages : List DeepPage
  deepMode : Bool
  refused : Bool
  balance : Int
  out : Nat
  backoff : Bool
  granter : Nat
  frag : List Byte
  fragPtr : Nat
  hwmBytes : Nat
  hwmNs : Nat
  deriving DecidableEq, Repr

/-- A packet that has arrived at its destination and waits for its egress queue (R415). -/
structure EgrArr where
  bytes : List Byte
  cells : List Nat
  pair : Bool
  pg : Nat
  cls : Nat
  dport : Nat
  rewrite : Nat
  ts : Option (Nat × Nat)
  deriving DecidableEq, Repr

/-- The deep mover's slots in a microsecond (R372): which one, the write slots used by each class, the slots that have
come up for each class that owns them, the read slots used; and the totals of the microsecond before. -/
structure MoverSt where
  us : Nat
  wr : List (Nat × Nat)
  own : List (Nat × Nat)
  rd : Nat
  lastWr : Nat
  lastRd : Nat
  deriving DecidableEq, Repr

/-- A packet that waits for the multicast replicator, with its cells and their holder (spec/09_lookup.md R275). -/
structure ReplPkt where
  pkt : XPkt
  cells : List Nat
  holder : Nat
  deriving DecidableEq, Repr

/-- Admission: packets that wait for it, packets that wait for an egress queue, copies of the mirror engine, the deep
mover, and the queues whose refills it has been asked for, oldest first (R372). -/
structure AdmSt where
  waiting : List XPkt
  egress : List EgrArr
  mover : MoverSt
  reads : List Nat
  deriving DecidableEq, Repr

/-! ## Deep memory, spec/13_memory.md -/

/-- A cluster's spare (R403 to R406): whether its background test has passed, whether it has failed, the channel being
copied, the channel mapped onto it. -/
structure SpareSt where
  tested : Bool
  failed : Bool
  copying : Option Nat
  mapped : Option Nat
  deriving DecidableEq, Repr

/-- The DRAM clusters: the bytes of the window partition and the counter pairs (packets and bytes) that are not zero;
pairs stored as invalid; uncorrectable words, as partition × 2^40 + number, rising (R401); the channel set that retrains
next, and the set of the last pause with its start (R400); spares by cluster; the corrections of the present second of
the time counter, by 16 × cluster + channel (R401). -/
structure DdcSt where
  win : List (Nat × Byte)
  pairs : List (Nat × Nat × Nat)
  invalid : List Nat
  bad : List Nat
  set : Nat
  paused : Option (Nat × Nat)
  spares : List (Nat × SpareSt)
  ceSec : Nat
  /-- channels whose first CE_THRESH event has been, as 16 × cluster + channel (spec/19_mill.md R576) -/
  ceFirst : List Nat
  ce : List (Nat × Nat)
  deriving DecidableEq, Repr

/-! ## Queues, scheduling and credit, spec/14_scheduling.md -/

/-- The two buckets of a node or policer (R431, R439), in units of 10^-7 byte, and the scheduler slot up to which they
have been refilled. -/
structure Bucket where
  cir : Int
  pir : Int
  at_ : Nat
  deriving DecidableEq, Repr

/-- An arrival for a queue that is being flushed, which is judged once the flush is over (R416): the queue, the
requester, the cells that a copy holds, the packet. -/
structure LateArr where
  q : Nat
  req : Nat
  cells : Option (List Nat)
  pkt : QPkt
  deriving DecidableEq, Repr

/-- QSC, SHP: the queues; VOQs with a positive balance, in the order in which it became positive (R419); deficits of
nodes, and the child whose turn it is at a parent in a colour and priority (R429); buckets of nodes by level × 2^20 +
index, of policers at level 5; the queue being flushed, how many of its packets are left to drop, and what has arrived
for it since (R416); high-water
marks of ports (R440); the slot in which selections were last made, and the selections of it by port (R430). -/
structure QscSt where
  qs : List (Nat × Queue)
  elig : List Nat
  deficits : List (Nat × Int)
  turns : List (Nat × Nat)
  buckets : List (Nat × Bucket)
  flush : Option (Nat × Nat)
  late : List LateArr
  portHwm : List (Nat × Nat × Nat)
  slot : Nat
  picks : List (Nat × Nat)
  deriving DecidableEq, Repr

/-- A credit request at the destination (R421). -/
structure CrdReq where
  src : Nat
  pg : Nat
  cls : Nat
  addr : Nat
  pair : Bool
  deriving DecidableEq, Repr

/-- CRD: the requests of the slot to come, the arrival queue, the position that the rotation starts from; the module
bucket and the groups' buckets in units of 10^-7 byte, and the slot up to which they have been refilled (R422,
R423). -/
structure CrdSt where
  slotReqs : List CrdReq
  queue : List CrdReq
  ptr : Nat
  modBucket : Nat
  groups : List (Nat × Nat)
  at_ : Nat
  deriving DecidableEq, Repr

/-- The gate list of a port (R434 to R438), times in nanoseconds of the counter: the instant a cycle of the operating
list starts from, its cycle and entries; the instant of a pending switch; whether the list waits for its next computed
cycle start after the counter was stepped, with that start. -/
structure GateSt where
  base : Nat
  cycle : Nat
  entries : Nat
  switchAt : Option Nat
  resume : Option Nat
  deriving DecidableEq, Repr

/-! ## The fabric, spec/15_fabric.md -/

/-- A candidate marker position (R459): its bit modulo the frame, its count, and whether its marker of this window has
been seen. -/
structure Cand where
  pos : Nat
  count : Nat
  seen : Bool
  deriving DecidableEq, Repr

/-- The alignment of a lane (R459 to R461): LOCKED at a position or not, its candidates, and the run of errored
markers. -/
structure AlignSt where
  locked : Option Nat
  cands : List Cand
  errRun : Nat
  deriving DecidableEq, Repr

/-- A link (R461, R464, R467, R468): its alignment; whether delineation is lost; whether it has been LOCKED cleanly
for REJOIN_FRAMES; its reachability map by block; the transmit FIFO: link cells, control cells (destination and
messages), slot cells and data cells (R469); whether it was last seen in the spray sets. -/
structure LinkSt where
  align : AlignSt
  skip : Bool
  rejoined : Bool
  maps : List (Nat × Nat)
  txLink : List (List Byte)
  txCtl : List (Nat × List CtlMsg)
  txSlot : List (List Byte)
  txData : List (List Byte)
  sprayed : Bool
  deriving DecidableEq, Repr

/-- A data cell as received (R463, R479); legacy cells carry 24 bits of SEQ and no EPOCH. -/
structure DataCell where
  src : Nat
  pair : Bool
  pg : Nat
  cls : Nat
  epoch : Nat
  seq : Nat
  legacy : Bool
  ptr : Nat
  payload : List Byte
  deriving DecidableEq, Repr

/-- What a link has received and the module has accepted (R466): a data cell, a slot cell (source, circuit, member,
MSEQ, LF and blocks), a link cell of a link, a message of a control cell with its source and arrival time. -/
inductive RxCell where
  | data (c : DataCell)
  | slot (src ckt member mseq : Nat) (lf : Bool) (blocks : List Byte)
  | link (l : Nat) (payload : List Byte)
  | msg (src : Nat) (m : CtlMsg) (at_ : Nat)
  deriving DecidableEq, Repr

/-- A stream of a reorder context (R473): the packet in progress as its prefix and the bytes received, and whether it
discards up to the next first prefix. -/
structure StreamSt where
  cur : Option (List Byte × List Byte)
  skip : Bool
  deriving DecidableEq, Repr

/-- A reorder context (R473): EPOCH once it has one, the next SEQ, the cells held with their arrival time, the streams
by 8 × PG + CLASS. -/
structure ReorderSt where
  epoch : Option Nat
  next : Nat
  held : List (DataCell × Nat)
  streams : List (Nat × StreamSt)
  /-- no cell has come for 5 ms: a packet in progress is dropped at the next one -/
  idle : Bool
  deriving DecidableEq, Repr

/-- The fabric: links by number; cells accepted and not yet acted on; addresses (2 × module + P) that were last seen
reachable, that have ever been since entry to RUN, and that drop (R470); modules whose HEARTBEAT is up (R475) and
those monitored; the next SEQ by address and the next MSEQ by member (R472, R477); reorder contexts by source; the
EPOCH (R472), which domain TM holds; when QC was last released and when RUN was entered; the next HB_SEQ; the tie-break
of R469. -/
structure FabSt where
  links : List (Nat × LinkSt)
  rx : List RxCell
  reach : List Nat
  dropping : List Nat
  hbUp : List Nat
  monitored : List Nat
  seqs : List (Nat × Nat)
  mseqs : List (Nat × Nat)
  ctxs : List (Nat × ReorderSt)
  epoch : BitVec 8
  qcOut : Nat
  hbSeq : BitVec 16
  rot : Nat
  deriving DecidableEq, Repr
/-! ## Egress, spec/16_egress_rewrite.md -/

/-- A packet that the scheduler has selected, on its way over the couch link to its egress pipeline (R30, R486). -/
structure EgrPkt where
  bytes : List Byte
  dport : Nat
  cls : Nat
  rewrite : Nat
  ts : Option (Nat × Nat)
  deriving DecidableEq, Repr

/-- A packet in egress pipeline `pipe` of a slice (R30). Once it has been processed, `out` tells what is left of it: the
frame that waits for the packets before it to its port, or nothing. -/
structure EgrSlot where
  slice : Nat
  pipe : Nat
  pkt : EgrPkt
  out : Option (Option (List Byte))
  deriving DecidableEq, Repr

/-- Packets in the egress pipelines, oldest first; the pipeline that each slice's next packet goes to (R30); the packets
counted by each sampler (R504). -/
structure EgrSt where
  waiting : List EgrSlot
  nextPipe : List (Nat × Nat)
  sampled : List (Nat × Nat)
  deriving DecidableEq, Repr

/-! ## The couch link, spec/01_architecture.md R34 to R39 -/

/-- R37. -/
inductive CouchState where
  | training | up | retrain | down
  deriving DecidableEq, Repr

/-- A unit of the couch link: from FX to QX what leaves a slice's ingress pipelines, the copies and punts of its egress
pipelines (spec/16_egress_rewrite.md R500, R503) and learn notifications; from QX to FX packets for a slice's egress
pipelines and register writes. -/
inductive CouchUnit where
  | pipe (slice : Nat) (o : PipeOut)
  | back (slice : Nat) (o : PipeOut)
  | egress (slice : Nat) (p : EgrPkt)
  /-- a learn notification for export ring 14,336 + n (R34, spec/05_rings_mailboxes_locks.md R151) -/
  | learn (n kind : Nat) (body : List Byte)
  /-- a posted write of an FX register (R34, R41) -/
  | write (p : Posted)
  deriving DecidableEq, Repr

/-- The link's state, the units sent and not yet delivered in each direction (oldest first), and how often the oldest
one has been replayed. -/
structure CouchSt where
  st : CouchState
  retrains : Nat
  failed : Nat
  fxToQx : List CouchUnit
  qxToFx : List CouchUnit
  replaysF : Nat
  replaysQ : Nat
  deriving DecidableEq, Repr

/-! ## The time counter and its servo, spec/17_time.md -/

/-- R518. -/
inductive ServoState where
  | freerun | acquiring | locked | holdover
  deriving DecidableEq, Repr

/-- What the module keeps of a good ToD message (R520). -/
structure TodMsg where
  sec : Nat
  utcOffset : Nat
  clockClass : Nat
  traceable : Bool
  deriving DecidableEq, Repr

/-- A fabric-time exchange under way: its number and departure (R523), and the arrival of the request once TIME_DRESP
has told it. Times are in units of 2^-16 ns. -/
structure Exchange where
  xseq : BitVec 8
  t3 : Nat
  t4 : Option Nat
  deriving DecidableEq, Repr

/-- The counter (R514), the sub-fraction its frequency correction has gathered, the correction and what is left to
slew (units of 2^-16 ppb and of 2^-16 ns × 10^-9), the servo (R518), the PPS and ToD side (R520 to R522) and the
fabric side (R523, R524). -/
structure TimSt where
  sec : Nat
  ns : Nat
  frac : Nat
  acc : Int
  freq : Int
  slew : Int
  servo : ServoState
  ref10m : Bool
  holdSec : Nat
  offset : Int
  mayStep : Bool
  lockRun : Nat
  badRun : Nat
  meas : List Int
  tod : Option TodMsg
  lastTod : Option TodMsg
  edgesNoMsg : Nat
  xseq : BitVec 8
  exch : Option Exchange
  delays : List Nat
  discRun : Nat
  deriving DecidableEq, Repr

/-! ## Pair protection, spec/18_protection.md -/

/-- What the mate's last felt HEARTBEAT told (R538). -/
structure MateSt where
  phase : Nat
  pairState : Nat
  recovering : Bool
  active : Nat
  levels : Nat
  cmds : Nat
  ream : Nat
  deriving DecidableEq, Repr

/-- A coordinated switch of a group under way (R547): its ID, T (units of 2^-16 ns), whether this module gives the
group away, whether ACK has been seen or sent, and whether T has passed. -/
structure SwitchSt where
  id : Nat
  t : Nat
  giver : Bool
  acked : Bool
  done : Bool
  /-- the request that it serves, by the codes of PRT_GROUP_STATUS.REQ; 8 for the handover of R556 -/
  code : Nat
  deriving DecidableEq, Repr

/-- A protection group's state: this module's role once it has one (R545); a switch; whether its members' transmitters
are still off after the group was taken (R547); whether this module still drains it (R547); whether ingress packets of
it wait for INGRESS_GAP (R547); a request that was blocked and reported, and not judged again before it changes
(R546, R547); since when the conditions of WTR have held (R549). -/
structure GroupSt where
  role : Option Bool
  switch : Option SwitchSt
  txHeld : Bool
  draining : Bool
  gap : Bool
  blocked : Option Nat
  wtr : Option Nat
  /-- SHADOW only because both paths were lost when roles were taken (R545) -/
  undecided : Bool
  deriving DecidableEq, Repr

/-- A decision record in a slice's history (R553): its port, frame number, ream and hash. -/
structure RecHash where
  port : Nat
  seq : Nat
  ream : Nat
  hash : W64
  deriving DecidableEq, Repr

/-- The digest of an epoch (R554): its number, reason for not being comparable, digest, count of bad FCS, ream. -/
structure DigestMsg where
  epoch : Nat
  nc : Nat
  digest : W64
  fcsErr : Nat
  ream : Nat
  deriving DecidableEq, Repr

/-- A slice's self-test (R555, R556): T, and the results so far. -/
structure TestSt where
  t : Nat
  mine : Option Bool
  mate : Option Bool
  deriving DecidableEq, Repr

/-- A slice's comparison (R553 to R556): records since the last boundary, newest first; whether the history filled,
and whether the felt path was lost, in the epoch; the digests of the last epoch; a self-test. -/
structure CmpSt where
  hist : List RecHash
  full : Bool
  felt : Bool
  mine : Option DigestMsg
  mate : Option DigestMsg
  test : Option TestSt
  deriving DecidableEq, Repr

/-- PRT: the felt lanes; the three signs (R540) and the fast rate (R541), with the arrival of the mate's last fabric
HEARTBEAT; ALIVE_FAULT (R544) and since when ALIVE_N has been released with a path up; the mate as last heard;
whether roles have been taken since entry to RUN (R545); the next ID and HB_SEQ; groups; slices; RECOVERING (R558);
the last PAIR_STATE; sequence numbers of felt messages by lane. -/
structure PrtSt where
  lanes : List (Nat × AlignSt)
  felt : Bool
  fab : Bool
  fast : Bool
  lastFab : Option Nat
  fabActive : Nat
  aliveFault : Bool
  mate : Option MateSt
  ready : Bool
  nextId : Nat
  hbSeq : BitVec 16
  groups : List (Nat × GroupSt)
  slices : List (Nat × CmpSt)
  recovering : Bool
  pairState : Nat
  laneSeq : List (Nat × Nat)
  /-- a failed self-test: the groups are being handed over, and ISOLATE follows with this ISO_CAUSE (R556) -/
  leaving : Option Nat
  deriving DecidableEq, Repr
/-! ## The Mill, spec/19_mill.md -/

/-- A firmware image slot (R572, R586): whether FW_VERIFY or the boot ROM found it good, what its header says, and the
bytes written to it, newest first. -/
structure ImageSlot where
  valid : Bool
  version : Nat
  svn : Nat
  size : Nat
  chunks : List (Nat × List Byte)
  deriving DecidableEq, Repr

/-- The flash (R572): it survives every reset and power cycle. The log's entries are numbered from 0 over the
module's life; `log` holds those the flash still has, oldest first. -/
structure FlashSt where
  slotA : ImageSlot
  slotB : ImageSlot
  bootPref : Bool
  /-- the boot preference was set by FW_ACTIVATE and FW_COMMIT has not come yet (R590) -/
  trial : Bool
  rollback : Nat
  log : List (Nat × LogEntry)
  nextSeq : Nat
  alertMask : Nat
  tagWp : Bool
  tag : List (Nat × Byte)
  tagWrites : Nat
  /-- partition record: SPARE_EN, CNT_GIB, FLOW_GIB, WIN_GIB (R575) -/
  partSpare : Nat
  partCnt : Nat
  partFlow : Nat
  partWin : Nat
  /-- sparing mappings: cluster and channel (R403, R576) -/
  spares : List (Nat × Nat)
  spareAuto : Bool
  deriving DecidableEq, Repr

/-- A sensor point as last sampled (R577): value, state, and samples in a row out of its physical range. -/
structure SensorPt where
  value : Int
  state : Nat
  badRun : Nat
  /-- its warning and critical events have been raised and it has not yet fallen 5 K below (R53) -/
  warned : Bool
  crit : Bool
  deriving DecidableEq, Repr

/-- The Mill. -/
structure MilSt where
  ready : Bool
  bootRom : Bool
  running : Bool
  /-- a restart of FW_ACTIVATE is under way (R589) -/
  activating : Bool
  /-- when the image on trial restarted, and whether it failed to serve the watchdog after its start (R590) -/
  trialTimes : List Nat
  trialFailed : Bool
  fallback : Bool
  restarts : Nat
  flash : FlashSt
  staged : List LogEntry
  /-- entries written in the present second of the time counter, and those not written (R581) -/
  writtenSec : Nat
  writtenIn : Nat
  suppressed : Nat
  supFirst : Nat
  pendingAlerts : Nat
  sensors : List (Nat × SensorPt)
  sensorFail : Bool
  tempMax : Int
  debug : Bool
  debugLeft : Nat
  lockstep : Nat
  watchdog : Nat
  sramCe : Nat
  /-- SMBus command buffers: bytes 0x000 to 0x7FF, the STATE of each, and what code 0x04 set (R593) -/
  smb : List (Nat × Byte)
  smb0 : Nat
  smb1 : Nat
  smbOff : Nat
  smbCount : Nat
  /-- TAGs of unsolicited notices that wait (R592) -/
  notices : List Nat
  /-- commands taken whose reset follows their answer (R576) -/
  cmdReset : Nat
  fwSize : Nat
  fwSlot : Option Bool
  deriving DecidableEq, Repr
/-! ## The state -/

/-- Why the module could stop. No rule of the manual makes a command of this block stop the module: every error it
describes is recorded, answered or counted and the module goes on. -/
inductive Fault where
  /-- Raised by no meaning. It stands for a stop the manual does not have, so that the type is not empty; safe. -/
  | none
  deriving DecidableEq, Repr

/-- Why a command has no meaning. -/
inductive Refusal where
  /-- Raised by an arm of exec whose command is not modelled yet, with the row's mnemonic; safe. -/
  | notModelled (mnemonic : String)
  deriving DecidableEq, Repr

/-- The module. -/
structure State where
  /-- commands that wait, first in, first out -/
  pending : List Instr
  /-- time since power-up in units of 0.2 ns, which divides both a nanosecond of the counter and a scheduler slot -/
  now : Nat
  /-- how many free values have been used (the model's own field, not the manual's) -/
  freeCtr : Nat
  /-- the registers in force that differ from their reset value, by address -/
  regs : List RegCell
  /-- shadow copies of staged fields that differ from the value in force (R7), by address -/
  shadow : List RegCell
  acc : AccSt
  gen : GenSt
  couch : CouchSt
  pf0 : FnSt
  pf1 : FnSt
  pce : PceSt
  rng : RingsSt
  hostQ : List HostPkt
  mbx : MbxSt
  sem : LockTable
  ing : IngSt
  tab : TablesSt
  asa : AsaSt
  cmt : CmtSt
  /-- packets that wait for the multicast replicator (spec/09_lookup.md R275) -/
  replQ : List ReplPkt
  bpm : BpmSt
  adm : AdmSt
  ddc : DdcSt
  qsc : QscSt
  crd : CrdSt
  gates : List (Nat × GateSt)
  fab : FabSt
  egr : EgrSt
  prt : PrtSt
  lin : LinSt
  pmn : PmnSt
  tim : TimSt
  mil : MilSt
  arrivals : List (Nat × Arrival)
  /-- what the module has put out, newest first -/
  out : List Out
  deriving DecidableEq, Repr

/-! ## Right after reset -/

/-- No access under way. -/
def AccSt.init : AccSt :=
  { rwPend := [], posted := [], held := [], waits := [], lows := [], highs := [], applies := [], nsCapt := [] }

/-- The module right after a cold reset: BOOT, domains HP, ML and TM powered and ready (R99, R102), every contact field
of GEN_PIN_STATUS at 0 (R74). -/
def GenSt.init : GenSt :=
  { phase := .boot, power := .up, image := false, isoCause := 0, testMap := 0, bootFail := false, testQx := false,
    powered := 0x1C000000, inReset := 0x03FFFFFF, ready := 0x1C000000, reqBusy := false, warmBusy := false,
    tripped := false, slotId := 0, matePresent := false, aliveIn := false, aliveOut := false, perst := false,
    sampled := false, modResetLow := false, hbOn := false, hbCount := 0, hbLast := 0, perstReset := false,
    lineTx := false,
    fabTx := false, feltTx := false, selfRefresh := false, retain := false, goodAt := 0, auxOn := true,
    overvolt := false }

/-- R37. -/
def CouchSt.init : CouchSt :=
  { st := .training, retrains := 0, failed := 0, fxToQx := [], qxToFx := [], replaysF := 0, replaysQ := 0 }

/-- R105, R108, R131. -/
def FnIdent.of (f : Fn) : FnIdent :=
  { vendor := 0x1F5E, subVendor := 0x1F5E, revision := 0xA1, classCode := 0x028000, intPin := 1
    device := match f with | .pf0 => 0x5120 | .pf1 => 0x5121
    subsystem := match f with | .pf0 => 0x5120 | .pf1 => 0x5121
    bar01 := match f with | .pf0 => ⟨false, 2 ^ 28⟩ | .pf1 => ⟨false, 2 ^ 24⟩
    bar23 := match f with | .pf0 => some ⟨true, 2 ^ 36⟩ | .pf1 => none
    vectors := match f with | .pf0 => 64 | .pf1 => 2048
    serial := Config.serial, noSoftReset := false, rcb := 64, maxPayload := 512, maxRead := 4096
    caps := [.powerManagement, .msix, .pciExpress, .aer, .serialNumber, .dataLinkFeature, .physical16, .physical32,
             .physical64, .laneMargining] }

/-- The values that PCI Express Base 6.0 resets these fields to (PRESUMED, log entry 92). -/
def FnCfg.init : FnCfg := { payload := 128, readReq := 512, ecrcGen := false, ecrcCheck := false, cplRange := 0 }

/-- Nothing recorded, nothing masked, the default severities of PCI Express Base 6.0: of the errors that the manual
names only the internal error is Fatal (PRESUMED, log entry 92). -/
def AerSt.init : AerSt := { status := [], masked := [], fatal := [.internal] }

/-- A function after its reset: nothing enabled, every vector masked (R130). -/
def FnSt.init (f : Fn) : FnSt :=
  { ident := FnIdent.of f, cfg := FnCfg.init, aer := AerSt.init, bme := false, d3 := false, flr := false,
    msixEn := false, msixMask := false, intDis := false, intx := false,
    table := [], pend := [] }

/-- R134. -/
def PceSt.init : PceSt :=
  { rate := 0, width := 0, flit := false, ltssm := 0, retrains := 0, tags := [], waits := [], inflight := [] }

def RingsSt.init : RingsSt := { rings := [], fifos := [] }

/-- An empty pair in native mode (R167). -/
def MbxPair.init : MbxPair :=
  { h2m := none, m2h := none, ackCode := 0, ackSeq := 0, collision := false, timeout := false, frAck := false,
    takeCode := 0 }

def MbxSt.init : MbxSt := { pairs := [], slots := [] }

/-- The counter holds 0 after a cold start (R516); the servo is in FREERUN (R528). -/
def TimSt.init : TimSt :=
  { sec := 0, ns := 0, frac := 0, acc := 0, freq := 0, slew := 0, servo := .freerun, ref10m := false, holdSec := 0,
    offset := 0, mayStep := false, lockRun := 0, badRun := 0, meas := [], tod := none, lastTod := none,
    edgesNoMsg := 0, xseq := 0, exch := none, delays := [], discRun := 0 }

/-- The flash as delivered, log entry 9: a good image in slot A, slot B empty, no log, the tag area all zero (R584),
the alert mask at its reset value (R578), sparing automatic (R576), the partition record at the reset values of
DDC_PART and DDC_CTRL. -/
def FlashSt.init : FlashSt :=
  { slotA := { valid := true, version := 0, svn := 0, size := 0, chunks := [] },
    slotB := { valid := false, version := 0, svn := 0, size := 0, chunks := [] },
    bootPref := false, trial := false, rollback := 0, log := [], nextSeq := 0, alertMask := 3, tagWp := false, tag := [],
    tagWrites := 0, partSpare := 1, partCnt := 16, partFlow := 0, partWin := 64, spares := [], spareAuto := true }

/-- The Mill before it has started an image (R596). -/
def MilSt.init (f : FlashSt) : MilSt :=
  { ready := false, bootRom := true, running := f.bootPref, activating := false, trialTimes := [],
    trialFailed := false, fallback := false, restarts := 0, flash := f, staged := [], writtenSec := 0, writtenIn := 0,
    suppressed := 0, supFirst := 0, pendingAlerts := 0,
    sensors := [], sensorFail := false, tempMax := -32768, debug := false, debugLeft := 0, lockstep := 0, watchdog := 0,
    sramCe := 0, smb := [], smb0 := 0, smb1 := 0, smbOff := 0, smbCount := 0, notices := [], cmdReset := 0, fwSize := 0,
    fwSlot := none }

def LinSt.init : LinSt := { aligned := [], xoff := [], calReq := [], playout := [], ldOut := [], frames := [] }

/-- A bin that has just opened. -/
def PmBin.init : PmBin := { es := 0, ses := 0, uas := 0, bbe := 0, suspect := false, valid := false, start := 0 }

/-- An entity after the reset of FC: without defects and not monitored (R221). -/
def EntSt.init : EntSt :=
  { los := false, loa := false, fail := false, sd := false, sdBad := 0, sdGood := 0, sfHeld := false, sdHeld := false,
    unavail := false, run := 0, hit := false, lapse := true,
    bins := { cur15 := PmBin.init, hist := [], cur24 := PmBin.init, prev24 := PmBin.init } }

def PmnSt.init : PmnSt := { ents := [], pend := [], sec := 0, dayOff := 0 }

def IngSt.init : IngSt := { pkts := [], nextPipe := [], slots := [], nextEng := [], stamped := [] }

/-- Every table empty (R328). -/
def TablesSt.init : TablesSt :=
  { vers := [], em := [], counters := [], fifo := [], failClear := none, flush := none, stale := [], badTrie := [],
    flOut := 0 }

def AsaSt.init : AsaSt := { ents := [], disRows := [], ctxs := [] }

/-- The newest ream is 0 (R328). -/
def CmtSt.init : CmtSt :=
  { newest := 0, prev := 0, at_ := 0, undrained := [0], unsettled := [], half := [], ring := none, edits := [],
    changes := 0, pos := 0,
    fail := none, rest := [], wait := none, last := 1023, hold := false,
    rd := none }

/-- Every buffer FREE (R362). -/
def BpmSt.init : BpmSt := { bufs := [], nextChain := 0, spent := [], last := 31, cycle := 0, decs := [] }

def Queue.init : Queue :=
  { pkts := [], pages := [], deepMode := false, refused := false, balance := 0, out := 0, backoff := false,
    granter := 0, frag := [], fragPtr := 0x1FF, hwmBytes := 0, hwmNs := 0 }

def MoverSt.init : MoverSt := { us := 0, wr := [], own := [], rd := 0, lastWr := 0, lastRd := 0 }

def AdmSt.init : AdmSt := { waiting := [], egress := [], mover := MoverSt.init, reads := [] }

def SpareSt.init : SpareSt := { tested := false, failed := false, copying := none, mapped := none }

/-- Every partition zero (R402). -/
def DdcSt.init : DdcSt :=
  { win := [], pairs := [], invalid := [], bad := [], set := 0, paused := none, spares := [], ceSec := 0,
    ceFirst := [], ce := [] }

def QscSt.init : QscSt :=
  { qs := [], elig := [], deficits := [], turns := [], buckets := [], flush := none, late := [], portHwm := [], slot := 0,
    picks := [] }

def CrdSt.init : CrdSt := { slotReqs := [], queue := [], ptr := 0, modBucket := 0, groups := [], at_ := 0 }

/-- The list after reset: one entry with every gate open and a cycle of 1 s (R434). -/
def GateSt.init : GateSt := { base := 0, cycle := 1000000000, entries := 1, switchAt := none, resume := none }

def AlignSt.init : AlignSt := { locked := none, cands := [], errRun := 0 }

def LinkSt.init : LinkSt :=
  { align := AlignSt.init, skip := false, rejoined := false, maps := [], txLink := [], txCtl := [], txSlot := [],
    txData := [], sprayed := false }

def StreamSt.init : StreamSt := { cur := none, skip := false }

/-- A context that is empty and expects SEQ 0 (R473). -/
def ReorderSt.init : ReorderSt := { epoch := none, next := 0, held := [], streams := [], idle := false }

/-- The fabric part with an EPOCH (R472). -/
def FabSt.init (epoch : BitVec 8) : FabSt :=
  { links := [], rx := [], reach := [], dropping := [], hbUp := [], monitored := [], seqs := [], mseqs := [],
    ctxs := [], epoch := epoch, qcOut := 0, hbSeq := 0, rot := 0 }

def EgrSt.init : EgrSt := { waiting := [], nextPipe := [], sampled := [] }

def GroupSt.init : GroupSt :=
  { role := none, switch := none, txHeld := false, draining := false, gap := false, blocked := none, wtr := none,
    undecided := false }

def CmpSt.init : CmpSt := { hist := [], full := false, felt := false, mine := none, mate := none, test := none }

def PrtSt.init : PrtSt :=
  { lanes := [], felt := false, fab := false, fast := false, lastFab := none, fabActive := 0, aliveFault := false,
    mate := none, ready := false, nextId := 0, hbSeq := 0, groups := [], slices := [], recovering := false,
    pairState := 0, laneSeq := [], leaving := none }

/-- The module right after a cold reset: every register at its Reset value (spec/00_scope.md R18), every table and
queue empty (spec/03_startup_reset.md R84), nothing pending. EPOCH is random at power-up (spec/15_fabric.md R472): the
first free value. The flash is as delivered (log entry 9). -/
def State.reset : State :=
  { pending := [], now := 0, freeCtr := 1, regs := [], shadow := [], acc := AccSt.init, gen := GenSt.init,
    couch := CouchSt.init, pf0 := FnSt.init .pf0, pf1 := FnSt.init .pf1, pce := PceSt.init, rng := RingsSt.init,
    hostQ := [],
    mbx := MbxSt.init, sem := [], ing := IngSt.init, tab := TablesSt.init, asa := AsaSt.init, cmt := CmtSt.init,
    replQ := [], bpm := BpmSt.init, adm := AdmSt.init, ddc := DdcSt.init, qsc := QscSt.init, crd := CrdSt.init,
    gates := [], fab := FabSt.init ((Config.freeValue 0).setWidth 8), egr := EgrSt.init, prt := PrtSt.init,
    lin := LinSt.init, pmn := PmnSt.init, tim := TimSt.init, mil := MilSt.init FlashSt.init, arrivals := [], out := [] }

end Sys2Proof.Machine
end

