-- ==== Sys2Proof/Machine/Ops.lean ====
section
/-!
DEFINITION. Machine/Ops.lean: the named operations over registers, domains, the host's interrupts, records, the Mill's
log and the shared-resource rule, which every family of commands uses.
-/
namespace Sys2Proof.Machine

open Fld

/-! ## Registers in force -/

/-- The only instance, the only register. -/
def ix0 : Ix := ⟨0, 0, 0⟩
/-- Register i of an array in the only instance. -/
def ixI (i : Nat) : Ix := ⟨0, i, 0⟩
/-- Element (i, j) of an array in the only instance. -/
def ixIJ (i j : Nat) : Ix := ⟨0, i, j⟩
/-- A register of instance n. -/
def ixN (n : Nat) : Ix := ⟨n, 0, 0⟩
/-- Register i of an array in instance n. -/
def ixNI (n i : Nat) : Ix := ⟨n, i, 0⟩

/-- A register's value in force. -/
def State.rd (s : State) (r : Reg) (ix : Ix) : W64 := (tblFind (regAddr r ix) s.regs).getD (regReset r ix)

/-- The register file with a register's value; a value equal to the reset value is not listed. -/
def putReg (r : Reg) (ix : Ix) (v : W64) (regs : List RegCell) : List RegCell :=
  if v = regReset r ix then tblDel (regAddr r ix) regs else tblPut (regAddr r ix) v regs

/-- A register's value in force, set. -/
def State.wr (s : State) (r : Reg) (ix : Ix) (v : W64) : State := { s with regs := putReg r ix v s.regs }

/-- A field in force. -/
def State.fld (s : State) (f : Field) (ix : Ix) : Nat := f.get (s.rd f.reg ix)

/-- A one-bit field in force. -/
def State.flag (s : State) (f : Field) (ix : Ix) : Bool := s.fld f ix != 0

/-- A field in force, set. -/
def State.set (s : State) (f : Field) (ix : Ix) (x : Nat) : State := s.wr f.reg ix (f.put (s.rd f.reg ix) x)

/-- A counter field, increased and stopped at all ones. -/
def State.count (s : State) (f : Field) (ix : Ix) (n : Nat) : State := s.set f ix (satAdd f.width (s.fld f ix) n)

/-- Something sent to the world outside. -/
def State.emit (s : State) (o : Out) : State := { s with out := o :: s.out }

/-- The next free value, and the state that has used it. -/
def State.free (s : State) : W64 := Config.freeValue s.freeCtr
def State.used (s : State) : State := { s with freeCtr := s.freeCtr + 1 }

/-- The shadow copy of a register (R7): the value in force where nothing is staged. -/
def State.shadowOf (s : State) (r : Reg) (ix : Ix) : W64 := (tblFind (regAddr r ix) s.shadow).getD (s.rd r ix)

/-! ## Domains, spec/01_architecture.md R42, R45 -/

def domFC : Nat := 8
def domFL : Nat := 9
def domQC : Nat := 10
def domQB : Nat := 11
def domDC (n : Nat) : Nat := 12 + n
def domFB (n : Nat) : Nat := 21 + n
def domHP : Nat := 26
def domML : Nat := 27
def domTM : Nat := 28

/-- The domain that holds an instance of a block (R45). -/
def blockDomain (b : Block) (inst : Nat) : Nat :=
  match b with
  | .gen | .pce | .rng | .mbx | .sem => domHP
  | .tim => domTM
  | .mil => domML
  | .lin => inst / 2
  | .flx | .pmn | .prs | .cmt | .egr => domFC
  | .lkp | .asa | .dsc => domFL
  | .prt | .bpm | .adm | .qsc | .shp | .tgt | .fabCmn | .crd => domQC
  | .ddc => domDC inst
  | .fab => domFB inst

/-- The couch registers are GEN registers held in QC (R37). -/
def regDomain (r : Reg) (inst : Nat) : Nat :=
  match r with
  | .genCouchStatus | .genCouchCrcErr | .genCouchRetry => domQC
  | r => blockDomain r.info.block inst

/-- FX registers in the sense of R16 and R40: those of domains 0 to 9 (R45). -/
def isFx (d : Nat) : Bool := d < 10

/-- A domain that is powered and out of reset. -/
def State.domUp (s : State) (d : Nat) : Bool := s.gen.powered.getLsbD d && !s.gen.inReset.getLsbD d

/-- A domain whose blocks can be reached (R42). Before INIT all of HP, ML and TM can be: spec/03_startup_reset.md R83
first says that blocks outside HP, ML and TM are unreachable, and then names fewer registers (DESIGN CHOICE, log entry
87). -/
def State.reachable (s : State) (d : Nat) : Bool := s.domUp d && !(isFx d && s.couch.st == .down)

/-- The GEN registers that a reset of HP leaves as they are (spec/03_startup_reset.md R86). -/
def retained : Reg → Bool
  | .genPhase | .genDomainReset | .genDomainStatus | .genResetCtrl | .genResetCause => true
  | _ => false

/-- A register that can be reached: its block can be (R42), or it is one of those that outlast a reset of HP, through
which the Mill releases HP again (spec/03_startup_reset.md R86, R88; log entry 88). -/
def State.regReachable (s : State) (r : Reg) (inst : Nat) : Bool :=
  s.reachable (regDomain r inst) || (retained r && s.gen.powered.getLsbD domHP)

/-! ## The time counter, spec/17_time.md R514 -/

/-- The counter as one number, in units of 2^-16 ns. -/
def TimSt.total (t : TimSt) : Nat := (t.sec * 1000000000 + t.ns) * 65536 + t.frac

/-- The counter set from one number. -/
def TimSt.ofTotal (t : TimSt) (n : Nat) : TimSt :=
  { t with sec := n / 65536000000000 % 2 ^ 48, ns := n / 65536 % 1000000000, frac := n % 65536 }

/-! ## The host's interrupts, spec/04_host_pcie.md R124 to R126 -/

/-- INT_STATUS and INT_ENABLE of a block (R598). -/
def intRegs : Block → Option (Reg × Reg)
  | .gen => some (.genIntStatus, .genIntEnable)
  | .pce => some (.pceIntStatus, .pceIntEnable)
  | .rng => some (.rngIntStatus, .rngIntEnable)
  | .mbx => some (.mbxIntStatus, .mbxIntEnable)
  | .sem => some (.semIntStatus, .semIntEnable)
  | .tim => some (.timIntStatus, .timIntEnable)
  | .prt => some (.prtIntStatus, .prtIntEnable)
  | .mil => some (.milIntStatus, .milIntEnable)
  | .dsc => none
  | .lin => some (.linIntStatus, .linIntEnable)
  | .flx => some (.flxIntStatus, .flxIntEnable)
  | .pmn => some (.pmnIntStatus, .pmnIntEnable)
  | .prs => some (.prsIntStatus, .prsIntEnable)
  | .lkp => some (.lkpIntStatus, .lkpIntEnable)
  | .asa => some (.asaIntStatus, .asaIntEnable)
  | .cmt => some (.cmtIntStatus, .cmtIntEnable)
  | .egr => some (.egrIntStatus, .egrIntEnable)
  | .bpm => some (.bpmIntStatus, .bpmIntEnable)
  | .adm => some (.admIntStatus, .admIntEnable)
  | .ddc => some (.ddcIntStatus, .ddcIntEnable)
  | .qsc => some (.qscIntStatus, .qscIntEnable)
  | .shp => some (.shpIntStatus, .shpIntEnable)
  | .tgt => some (.tgtIntStatus, .tgtIntEnable)
  | .fab => some (.fabIntStatus, .fabIntEnable)
  | .fabCmn => some (.fabCmnIntStatus, .fabCmnIntEnable)
  | .crd => some (.crdIntStatus, .crdIntEnable)

/-- The blocks in the order of the bits of GEN_INT_SUMMARY (R600). -/
def summaryBlocks : List Block :=
  [.gen, .pce, .rng, .mbx, .sem, .tim, .prt, .mil, .lin, .flx, .pmn, .prs, .lkp, .asa, .cmt, .egr, .bpm, .adm, .ddc,
   .qsc, .shp, .tgt, .fab, .fabCmn, .crd]

/-- The bit of a block in GEN_INT_SUMMARY (R600): its place in `summaryBlocks`. -/
def summaryIndex (b : Block) : Nat := summaryBlocks.findIdx (· == b)

/-- A cause is set and enabled in an instance that can be reached (R600, R601). -/
def State.instIrq (s : State) (b : Block) (k : Nat) : Bool :=
  match intRegs b with
  | none => false
  | some (st, en) => s.reachable (blockDomain b k) && (s.rd st (ixN k) &&& s.rd en (ixN k)) != 0

/-- The summary bit of a block (R600). -/
def State.summaryBit (s : State) (b : Block) : Bool := (List.range (blockInfo b).count).any (s.instIrq b)

/-- GEN_INT_SUMMARY (R600). -/
def State.summary (s : State) : Nat :=
  (List.range 25).foldl (fun a i => a + ofBool (s.summaryBit (summaryBlocks.getD i .dsc)) * 2 ^ i) 0

/-- GEN_INT_INST (R602). -/
def State.intInst (s : State) : Nat :=
  (List.range 16).foldl (fun a i => a + ofBool (s.instIrq .lin i) * 2 ^ i) 0
  + (List.range 16).foldl (fun a i => a + ofBool (s.instIrq .prs i) * 2 ^ (16 + i)) 0
  + (List.range 9).foldl (fun a i => a + ofBool (s.instIrq .ddc i) * 2 ^ (32 + i)) 0
  + (List.range 5).foldl (fun a i => a + ofBool (s.instIrq .fab i) * 2 ^ (41 + i)) 0

/-- The state of a function. -/
def State.fn (s : State) : Fn → FnSt
  | .pf0 => s.pf0
  | .pf1 => s.pf1

/-- A function's state, set. -/
def State.setFn (s : State) (f : Fn) (x : FnSt) : State :=
  match f with
  | .pf0 => { s with pf0 := x }
  | .pf1 => { s with pf1 := x }

/-- An error is recorded in a function's AER capability and, unless software masks it, reported (spec/04_host_pcie.md
R133). -/
def State.aer (s : State) (f : Fn) (k : AerKind) : State :=
  let x := s.fn f
  let a := x.aer
  let s := s.setFn f { x with aer := { a with status := if a.status.contains k then a.status else a.status ++ [k] } }
  if a.masked.contains k then s
  else s.emit (.aer f k (if k = .advisory then .correctable else if a.fatal.contains k then .fatal else .nonFatal))

/-- A write to host memory cut into requests of at most `n` bytes that do not cross a 4 KiB boundary; `fuel` bounds
their number. -/
def cutWrite (n : Nat) : Nat → Nat → List Byte → List (Nat × List Byte)
  | 0, _, _ => []
  | _, _, [] => []
  | fuel + 1, a, bs =>
    let k := min n (4096 - a % 4096)
    if bs.length ≤ k then [(a, bs)] else (a, bs.take k) :: cutWrite n fuel (a + k) (bs.drop k)

/-- The module writes host memory as a function, in requests of the programmed Max_Payload_Size (spec/04_host_pcie.md
R105). -/
def State.dmaWrite (s : State) (f : Fn) (addr : Nat) (data : List Byte) : State :=
  (cutWrite (s.fn f).cfg.payload data.length addr data).foldl (fun s (e : Nat × List Byte) =>
    s.emit (.hostWrite f e.1 e.2)) s

/-- Whether a function may send requests of its own (R128). -/
def State.canMaster (s : State) (f : Fn) : Bool :=
  (s.fn f).bme && !(s.fn f).d3 && !(s.fn f).flr && !s.gen.perst && s.domUp domHP

/-- A vector's table entry; the reset of a function leaves every vector masked. -/
def FnSt.entry (x : FnSt) (v : Nat) : MsixEntry := tblGet ⟨0, 0, true⟩ x.table v

/-- A vector becomes due (R124, R125, R128). -/
def State.sendVector (s : State) (f : Fn) (v : Nat) : State :=
  let x := s.fn f
  if !x.msixEn then s
  else if x.pend.contains v then s
  else if x.msixMask || (x.entry v).mask || !s.canMaster f then s.setFn f { x with pend := x.pend ++ [v] }
  else s.emit (.msix f v (x.entry v).addr (x.entry v).data)

/-- Whether a function's INTx condition holds (R126). -/
def State.intxCond (s : State) : Fn → Bool
  | .pf0 => s.summary != 0
  | .pf1 => s.rng.rings.any (fun e => e.2.irqPend)

/-- INTx of a function follows its condition (R126). -/
def State.settleIntx (s : State) (f : Fn) : State :=
  let x := s.fn f
  let want := !x.msixEn && !x.intDis && !x.d3 && !x.flr && s.intxCond f
  if want == x.intx then s else (s.setFn f { x with intx := want }).emit (.intx f want)

/-- After INT_STATUS or INT_ENABLE of a block has changed: a rise of its summary bit sends its vector (R601). -/
def State.settleIrq (s : State) (b : Block) (was : Bool) : State :=
  let s := if !was && s.summaryBit b then s.sendVector .pf0 (summaryIndex b) else s
  s.settleIntx .pf0

/-! ## The shared-resource rule, spec/12_buffering.md R365 -/

/-- Whether a consumer that holds `u` units against a guarantee `g` is granted `n` more, of a resource of `t` units
with guarantees `sumG` and reserve `res`, when `sumX` shared units are held. `alpha` is the register's code. -/
def shareOk (t sumG res sumX u g n alpha : Nat) : Bool :=
  let pool := t - sumG - res
  let x := u - g
  u + n ≤ g || ((x + n) * 64 ≤ 2 ^ (min alpha 9) * (pool - sumX) && x + n ≤ pool)

/-! ## The Mill's log and alerts, spec/19_mill.md R578 to R581 -/

/-- ALERT_N is driven while a pending class is enabled (R578). -/
def State.alertLow (s : State) : Bool := (s.mil.pendingAlerts &&& s.mil.flash.alertMask) != 0

/-- After the pending classes or the mask have changed. -/
def State.settleAlert (s : State) (was : Bool) : State :=
  if s.alertLow == was then s else s.emit (.alert s.alertLow)

/-- An unsolicited notice of a TAG waits; notices of one TAG coalesce (R592). -/
def State.queueNotice (s : State) (tag : Nat) : State :=
  if s.mil.notices.contains tag then s else { s with mil := { s.mil with notices := s.mil.notices ++ [tag] } }

/-- An alert class becomes pending (R578); newly pending, it is announced (R592). -/
def State.alertClass (s : State) (c : Nat) : State :=
  let was := s.alertLow
  let newly := !bitAt s.mil.pendingAlerts c
  let s := { s with mil := { s.mil with pendingAlerts := s.mil.pendingAlerts ||| 2 ^ c } }
  (if newly then s.queueNotice 1 else s).settleAlert was

/-- The phase's code (R79). -/
def Phase.code : Phase → Nat
  | .off => 0 | .boot => 1 | .init => 2 | .test => 3 | .run => 4 | .park => 5 | .isolate => 6

/-- A log entry's critical kinds (R578, class 4). -/
def criticalEntry (kind arg0 : Nat) : Bool :=
  (kind == 4 && 2 ≤ bitsOf arg0 32 2) || kind == 5 || kind == 7 || kind == 0xB || kind == 0xC

/-- An entry as it stands at this instant (R579). -/
def State.mkEntry (s : State) (kind source arg0 arg1 : Nat) : LogEntry :=
  { kind := kind, locked := s.tim.servo == .locked, holdUp := false, sec := s.tim.sec, ns := s.tim.ns,
    frac := s.tim.frac, source := source, arg0 := arg0, arg1 := arg1, phase := s.gen.phase.code }

/-- An entry enters the staging buffer; with the buffer full it is counted as not written (R581). -/
def State.stageLog (s : State) (kind source arg0 arg1 : Nat) : State :=
  let e := s.mkEntry kind source arg0 arg1
  let s := if s.mil.staged.length < 256 then { s with mil := { s.mil with staged := s.mil.staged ++ [e] } }
    else { s with mil := { s.mil with
      suppressed := s.mil.suppressed + 1
      supFirst := if s.mil.suppressed = 0 then s.mil.flash.nextSeq + s.mil.staged.length else s.mil.supFirst } }
  if criticalEntry kind arg0 then (s.alertClass 4).queueNotice 4 else s

/-- All ones, what a read of a block that cannot be reached returns (R42). -/
def allOnes : W64 := 0xFFFFFFFFFFFFFFFF

/-! ## Checksums -/

/-- One bit of CRC-16 with polynomial x^16 + x^12 + x^5 + 1, most significant bit first (spec/15_fabric.md R463). -/
def crc16Bit (c : Nat) (b : Bool) : Nat :=
  let c' := (c * 2) % 65536
  if bitAt c 15 != b then c' ^^^ 0x1021 else c'

/-- CRC-16 of R463 over bytes, bit 7 of byte 0 first, initial value all ones. -/
def crc16 (bs : List Byte) : Nat :=
  bs.foldl (fun c b => (List.range 8).foldl (fun c i => crc16Bit c (b.getLsbD (7 - i))) c) 0xFFFF

/-- One bit of CRC-32C of IETF RFC 3720, reflected. -/
def crc32cBit (c : Nat) (b : Bool) : Nat :=
  if bitAt c 0 != b then (c / 2) ^^^ 0x82F63B78 else c / 2

/-- CRC-32C of IETF RFC 3720 over bytes with a given initial value. -/
def crc32c (init : Nat) (bs : List Byte) : Nat :=
  (bs.foldl (fun c b => (List.range 8).foldl (fun c i => crc32cBit c (b.getLsbD i)) c) init) ^^^ 0xFFFFFFFF

/-- CRC-32 of IEEE 802.3, the FCS of a frame, reflected. -/
def crc32 (bs : List Byte) : Nat :=
  (bs.foldl (fun c b => (List.range 8).foldl
    (fun c i => if bitAt c 0 != b.getLsbD i then (c / 2) ^^^ 0xEDB88320 else c / 2) c) 0xFFFFFFFF) ^^^ 0xFFFFFFFF

/-- CRC-64 with the polynomial of ECMA-182, most significant bit first, initial value and final XOR all ones
(spec/09_lookup.md R285). -/
def crc64 (bs : List Byte) : W64 :=
  (bs.foldl (fun (c : W64) b => (List.range 8).foldl
    (fun (c : W64) i => if c.getLsbD 63 != b.getLsbD (7 - i) then (c <<< 1) ^^^ 0x42F0E1EBA9EA3693 else c <<< 1) c)
    allOnes) ^^^ allOnes

/-! ## Rings as data, spec/05_rings_mailboxes_locks.md -/

/-- A ring at reset. -/
def Ring.init : Ring :=
  { hostIdx := 0, modIdx := 0, state := .disabled, haltCode := 0, inflight := 0, closing := false, armed := true,
    gathered := 0, irqPend := false, drop := 0, seq := 0, slots := 0 }

/-- A ring's state. -/
def State.ring (s : State) (r : Nat) : Ring := tblGet Ring.init s.rng.rings r

/-- A ring's state, set. -/
def State.setRing (s : State) (r : Nat) (x : Ring) : State :=
  { s with rng := { s.rng with rings := tblPut r x s.rng.rings } }

/-- The number of descriptors of a ring, R141. -/
def State.ringSize (s : State) (r : Nat) : Nat := 2 ^ (6 + s.fld RNG_CFG_SIZE (ixI r))

/-- The types of ring, R140. -/
def isRx (r : Nat) : Bool := r < 6144
def isTx (r : Nat) : Bool := 6144 ≤ r && r < 12288
def isCommit (r : Nat) : Bool := 12288 ≤ r && r < 13312
def isEvent (r : Nat) : Bool := 13312 ≤ r && r < 14336
def isExport (r : Nat) : Bool := 14336 ≤ r

/-- A loss of a ring, counted (R153, R158). -/
def State.ringDrop (s : State) (r : Nat) : State :=
  let x := s.ring r
  s.setRing r { x with drop := satAdd 48 x.drop 1 }

/-- A ring requests its vector (R155). -/
def State.ringRequest (s : State) (r : Nat) : State :=
  let x := s.ring r
  ((s.setRing r { x with armed := false, gathered := 0, irqPend := true }).sendVector .pf1
    (s.fld RNG_CFG_VECTOR (ixI r))).settleIntx .pf1

/-- COAL_COUNT, with 0 acting as 1 (R156). -/
def State.coalCount (s : State) (r : Nat) : Nat := max 1 (s.fld RNG_CFG_COAL_COUNT (ixI r))

/-- The vector is requested when enough completions have gathered and the ring is armed (R155). -/
def State.ringGather (s : State) (r : Nat) : State :=
  let x := s.ring r
  if s.flag RNG_CFG_IRQ_EN (ixI r) && x.armed && s.coalCount r ≤ x.gathered then s.ringRequest r else s

/-- A completion of a ring (R155). -/
def State.ringCompletion (s : State) (r : Nat) : State :=
  let x := s.ring r
  (s.setRing r { x with gathered := x.gathered + 1 }).ringGather r

/-- The host address of descriptor index i of a ring (R141). -/
def State.descAddr (s : State) (r i : Nat) : Nat :=
  s.fld RNG_ADDR_BASE (ixI r) * 4096 + 32 * (i % s.ringSize r)

/-- The phase bit that the module writes on descriptor index i (R144). -/
def State.phaseBit (s : State) (r i : Nat) : Nat := 1 - (i / s.ringSize r) % 2

/-- A descriptor's 32 bytes with the phase bit in bit 7 of the last (R144). -/
def withPhase (bytes : List Byte) (ph : Nat) : List Byte :=
  let b := bytesAt bytes 0 32
  b.take 31 ++ [BitVec.ofNat 8 ((b.getD 31 0).toNat % 128 + 128 * ph)]

/-- Work slots: the guarantees of the rings in RUN of an engine, and the shared slots held (R152). -/
def State.slotSums (s : State) (e : Nat) : Nat × Nat :=
  s.rng.rings.foldl (fun a (r, x) =>
    if r % 4 = e && x.state == .run then
      (a.1 + s.fld RNG_CFG_GUAR (ixI r), a.2 + (x.slots - s.fld RNG_CFG_GUAR (ixI r)))
    else a) (0, 0)

/-- Whether a ring gets n more work slots, one for each descriptor or record in progress (R152, R365). -/
def State.slotsOk (s : State) (r n : Nat) : Bool :=
  let (g, x) := s.slotSums (r % 4)
  shareOk 2048 g 0 x (s.ring r).slots (s.fld RNG_CFG_GUAR (ixI r)) n (s.fld RNG_DMA_CTRL_ALPHA ix0)

/-- Whether a ring gets one more work slot. -/
def State.slotOk (s : State) (r : Nat) : Bool := s.slotsOk r 1

/-- A record ring is full (R141, R153). -/
def State.recFull (s : State) (r : Nat) : Bool :=
  s.ringSize r ≤ ((s.ring r).modIdx - (s.ring r).hostIdx).toNat

/-- The module writes a record to an event or export ring with room (R144, R155). -/
def State.writeRec (s : State) (r : Nat) (bytes : List Byte) : State :=
  let x := s.ring r
  let i := x.modIdx.toNat
  let s := s.dmaWrite .pf1 (s.descAddr r i) (withPhase bytes (s.phaseBit r i))
  (s.setRing r { x with modIdx := x.modIdx + 1 }).ringCompletion r

/-- How a record fared. -/
inductive RecFate where
  | stands | closed | lost
  deriving DecidableEq, Repr

/-- A record for an event or export ring (R153): written, held in the engine's FIFO of 4,096 records while there is no
work slot or PF1 sends no requests (spec/04_host_pcie.md R128), or discarded and counted. A record that finds a slot is
written even while older records of its ring are held (DESIGN CHOICE, log entry 99). -/
def State.putRec (s : State) (r : Nat) (bytes : List Byte) : State × RecFate :=
  if (s.ring r).state != .run then (if isExport r then (s.ringDrop r, .closed) else (s, .closed))
  else if s.recFull r then (s.ringDrop r, .lost)
  else if s.slotOk r && s.canMaster .pf1 then (s.writeRec r bytes, .stands)
  else if (s.rng.fifos.filter (fun h => h.ring % 4 = r % 4)).length < 4096 then
    ({ s with rng := { s.rng with fifos := s.rng.fifos ++ [⟨r, bytes⟩] } }, .stands)
  else (s.ringDrop r, .lost)

/-- An export record of a KIND, with a body that starts at byte 0x01 (R151), for export ring 14,336 + n. -/
def State.exportRec (s : State) (n kind : Nat) (body : List Byte) : State :=
  if s.domUp domHP then (s.putRec (14336 + n) (BitVec.ofNat 8 kind :: bytesAt body 0 31)).1 else s

/-! ## Causes, spec/20_register_map.md R600, R601 and spec/05_rings_mailboxes_locks.md R150 -/

/-- Word 0x08 of the event record of a cause (R150). -/
def eventWord (f : Field) (inst bit seq : Nat) : Nat :=
  regAddr f.reg (ixN inst) + regDomain f.reg inst * 2 ^ 28 + (f.lsb + bit) * 2 ^ 33 + seq * 2 ^ 48

/-- The event record of a cause (R150). -/
def State.eventBytes (s : State) (word arg0 arg1 : Nat) : List Byte :=
  leBytes 4 s.tim.ns ++ leBytes 4 s.tim.sec ++ leBytes 8 word ++ leBytes 8 arg0 ++ leBytes 8 (arg1 % 2 ^ 63)

/-- The event ring of a domain, where one is mapped (R150, R157). -/
def State.eventRing (s : State) (d : Nat) : Option Nat :=
  if s.flag RNG_EVT_MAP_EN (ixI d) && s.domUp domHP then some (13312 + s.fld RNG_EVT_MAP_RING (ixI d)) else none

/-- A cause bit becomes set: its record goes to the event ring of its domain and to the Mill's log, and a rise of the
summary bit is signalled (R19, R150, R601). A cause that is already set is not counted again (R19); a cause of a
domain in reset or powered down does not arise. SEQ counts the records that were written or are held, over every ENABLE
of the ring (DESIGN CHOICE, log entry 100). `n` bounds the causes that losing a record itself raises. -/
def State.raiseN (n : Nat) (s : State) (f : Field) (inst bit arg0 arg1 : Nat) : State :=
  match n with
  | 0 => s
  | n + 1 =>
    let b := f.reg.info.block
    let old := s.rd f.reg (ixN inst)
    if !s.domUp (regDomain f.reg inst) || bitAt old.toNat (f.lsb + bit) then s
    else
      let was := s.summaryBit b
      let s := s.wr f.reg (ixN inst) (old ||| BitVec.ofNat 64 (2 ^ (f.lsb + bit)))
      let s :=
        match s.eventRing (regDomain f.reg inst) with
        | none => s.stageLog 1 (eventWord f inst bit 0) arg0 arg1
        | some r =>
          let w := eventWord f inst bit (s.ring r).seq.toNat
          let s := s.stageLog 1 w arg0 arg1
          match s.putRec r (s.eventBytes w arg0 arg1) with
          | (s, .stands) => s.setRing r { s.ring r with seq := (s.ring r).seq + 1 }
          | (s, .closed) => s
          | (s, .lost) => State.raiseN n s RNG_INT_STATUS_EVT_LOST 0 0 r 0
      s.settleIrq b was

/-- A cause of instance `inst` becomes set, `bit` places above its field's lowest bit. -/
def State.raiseAt (s : State) (f : Field) (inst bit arg0 arg1 : Nat) : State := State.raiseN 3 s f inst bit arg0 arg1

/-- A cause of the only instance becomes set, with no detail. -/
def State.raise (s : State) (f : Field) : State := s.raiseAt f 0 0 0 0

/-- The CFG_VIOLATION cause of a block, where it has one (R8, R10). -/
def cfgViolation : Block → Option Field
  | .gen => some GEN_INT_STATUS_CFG_VIOLATION
  | .rng => some RNG_INT_STATUS_CFG_VIOLATION
  | .mbx => some MBX_INT_STATUS_CFG_VIOLATION
  | .tim => some TIM_INT_STATUS_CFG_VIOLATION
  | .prt => some PRT_INT_STATUS_CFG_VIOLATION
  | .lin => some LIN_INT_STATUS_CFG_VIOLATION
  | .flx => some FLX_INT_STATUS_CFG_VIOLATION
  | .pmn => some PMN_INT_STATUS_CFG_VIOLATION
  | .prs => some PRS_INT_STATUS_CFG_VIOLATION
  | .lkp => some LKP_INT_STATUS_CFG_VIOLATION
  | .asa => some ASA_INT_STATUS_CFG_VIOLATION
  | .cmt => some CMT_INT_STATUS_CFG_VIOLATION
  | .egr => some EGR_INT_STATUS_CFG_VIOLATION
  | .bpm => some BPM_INT_STATUS_CFG_VIOLATION
  | .adm => some ADM_INT_STATUS_CFG_VIOLATION
  | .ddc => some DDC_INT_STATUS_CFG_VIOLATION
  | .qsc => some QSC_INT_STATUS_CFG_VIOLATION
  | .shp => some SHP_INT_STATUS_CFG_VIOLATION
  | .tgt => some TGT_INT_STATUS_CFG_VIOLATION
  | .fab => some FAB_INT_STATUS_CFG_VIOLATION
  | .fabCmn => some FABCMN_INT_STATUS_CFG_VIOLATION
  | .crd => some CRD_INT_STATUS_CFG_VIOLATION
  | .pce | .sem | .mil | .dsc => none

/-- A write was discarded in an instance of a block (R8, R10). -/
def State.violation (s : State) (b : Block) (inst : Nat) : State :=
  match cfgViolation b with
  | some f => s.raiseAt f inst 0 0 0
  | none => s

/-! ## Health, spec/18_protection.md R557, R564 -/

/-- A bit of PRT_HEALTH takes a value; a change of the word sets HEALTH_CHG (R562) and is
announced as an alert of class 3 (spec/19_mill.md R578). -/
def State.healthTo (s : State) (f : Field) (bit : Nat) (on : Bool) : State :=
  let v := s.rd .prtHealth ix0
  let w := BitVec.ofNat 64 (withBits v.toNat (f.lsb + bit) 1 (ofBool on))
  if !s.domUp domQC || w = v then s else ((s.wr .prtHealth ix0 w).raise PRT_INT_STATUS_HEALTH_CHG).alertClass 3

/-! ## Unreachable accesses, spec/01_architecture.md R42 -/

/-- The number of a requester in GEN_OFFLINE_ACC. -/
def reqCode : Req → Nat
  | .pf0 => 0 | .pf1 => 1 | .mill => 2 | .mate => 3 | .dbg => 4

/-- UNREACHABLE_ACCESS: an access to a block that cannot be reached is recorded, and its cause set (R42, R603), in HP,
unless HP itself is down. -/
def State.offline (s : State) (req : Req) (off dom : Nat) (write couch : Bool) : State :=
  if !s.domUp domHP then s
  else
  let s := s.set GEN_OFFLINE_ACC_OFFSET ix0 off
  let s := s.set GEN_OFFLINE_ACC_DOMAIN ix0 dom
  let s := s.set GEN_OFFLINE_ACC_WRITE ix0 (ofBool write)
  let s := s.set GEN_OFFLINE_ACC_COUCH ix0 (ofBool couch)
  let s := s.set GEN_OFFLINE_ACC_REQ ix0 (reqCode req)
  (s.count GEN_OFFLINE_ACC_COUNT ix0 1).raise GEN_INT_STATUS_OFFLINE_ACC

/-! ## Drop causes, spec/12_buffering.md R378, R379 -/

def causeNone : Nat := 0x00
/-- The causes of R378. -/
def listedCauses : List Nat :=
  [0x00, 0x01, 0x02, 0x03, 0x04, 0x05, 0x06, 0x07, 0x08, 0x10, 0x11, 0x12, 0x13, 0x14, 0x15, 0x16, 0x17, 0x18, 0x20, 0x21,
   0x28, 0x29, 0x30, 0x31, 0x38, 0x39, 0x3A, 0x3B, 0x3C]

def causePoolEmpty : Nat := 0x01
def causeQueueFull : Nat := 0x02
def causeQueueMax : Nat := 0x03
def causeDeepSaturated : Nat := 0x04
def causeDeepFull : Nat := 0x05
def causeHeadroomOverflow : Nat := 0x06
def causeDomainDown : Nat := 0x07
def causeMemUncorrectable : Nat := 0x08
def causeMalformed : Nat := 0x10
def causeTruncated : Nat := 0x11
def causeNoRoute : Nat := 0x12
def causeLookupMiss : Nat := 0x13
def causeTableError : Nat := 0x14
def causeAclDeny : Nat := 0x15
def causeAclCopy : Nat := 0x16
def causePoliced : Nat := 0x17
def causeRoutePunt : Nat := 0x18
def causeHostRingDown : Nat := 0x20
def causeHostRingFull : Nat := 0x21
def causeFabricUnreachable : Nat := 0x28
def causeReassemblyTimeout : Nat := 0x29
def causeGateClosedOversize : Nat := 0x30
def causeQueueFlush : Nat := 0x31
def causeMtu : Nat := 0x38
def causeTtlExpired : Nat := 0x39
def causeRewriteInvalid : Nat := 0x3A
def causeGrowthLimit : Nat := 0x3B
def causeSampled : Nat := 0x3C

/-- A drop, counted once under its cause (R379), and kept in ADM_DROP_LOG if it is the first since the last read
(R386). `queue` is the queue when the drop was at admission; a drop elsewhere logs queue 0. -/
def State.countDrop (s : State) (cause bytes port queue : Nat) : State :=
  if !s.domUp domQC then s
  else
  let s := s.count ADM_DROP_PKT_COUNT (ixI cause) 1
  let s := s.count ADM_DROP_BYTE_COUNT (ixI cause) bytes
  let s := if s.flag ADM_DROP_LOG_VALID ix0 then s
    else (((s.set ADM_DROP_LOG_CAUSE ix0 cause).set ADM_DROP_LOG_PORT ix0 port).set ADM_DROP_LOG_QUEUE ix0 queue).set
      ADM_DROP_LOG_VALID ix0 1
  s.count ADM_DROP_LOG_COUNT ix0 1

/-- A packet reaches a slice's dispatcher (R30). -/
def State.arrive (s : State) (slice : Nat) (a : Arrival) : State := { s with arrivals := s.arrivals ++ [(slice, a)] }

end Sys2Proof.Machine
end

