-- ==== Sys2Proof/Machine/QueueBase.lean ====
section
/-!
DEFINITION. Machine/QueueBase.lean: the queues as data (spec/12_buffering.md R368, R369, spec/14_scheduling.md R412).
-/
namespace Sys2Proof.Machine

open Fld

/-- A queue. -/
def State.queue (s : State) (q : Nat) : Queue := tblGet Queue.init s.qsc.qs q

/-- A queue, set; a queue like one at reset is not listed. -/
def State.setQueue (s : State) (q : Nat) (x : Queue) : State :=
  { s with qsc := { s.qsc with qs := if x = Queue.init then tblDel q s.qsc.qs else tblPut q x s.qsc.qs } }

/-- A change of a queue. -/
def State.modQueue (s : State) (q : Nat) (f : Queue → Queue) : State := s.setQueue q (f (s.queue q))

/-- BYTES of a queue, on die and in deep memory. -/
def Queue.bytes (x : Queue) : Nat := x.pkts.foldl (fun a (p : QPkt) => a + p.bytes.length) 0

/-- The cells of a queue, in order. -/
def Queue.cells (x : Queue) : List CellAt := x.pkts.flatMap (·.cells)

/-- A cell that is on die. -/
def CellAt.onDie : CellAt → Bool
  | .deep _ => false
  | _ => true

/-- Q of R369: a queue's on-die cells. -/
def Queue.onDie (x : Queue) : Nat := (x.cells.filter CellAt.onDie).length

/-- No queue holds a packet (R413). -/
def State.noQueues (s : State) : Bool := s.qsc.qs.all fun e => e.2.pkts.isEmpty

/-- The first egress queue ID (R412). -/
def State.voqEnd (s : State) : Nat := 65536 * s.fld QSC_CTRL_VOQ_BLOCKS ix0

/-- The profile of a queue (R368). -/
def State.profOf (s : State) (q : Nat) : Nat := 8 * s.fld ADM_QSET_SET (ixI (q / 8)) + q % 8

end Sys2Proof.Machine
end

