-- ==== Sys2Proof/Machine/RegWrite.lean ====
section
/-!
DEFINITION. Machine/RegWrite.lean: what a register write does to a register's fields by their classes
(spec/00_scope.md R6 to R11, R17), for every row that is a register write.
-/
namespace Sys2Proof.Machine

open Fld

/-- An RW write reaches its field whole (R6); an enabled cause then shows (R601). -/
def State.takeRw (s : State) (p : RwPend) : State :=
  match findStored p.addr with
  | none => s
  | some ⟨r, ix⟩ =>
    let b := r.info.block
    let was := s.summaryBit b
    let s := s.wr r ix (blend (s.rd r ix) p.val p.mask)
    match intRegs b with
    | some (_, en) => if en = r then s.settleIrq b was else s
    | none => s

/-- Whether a pending RW write is for an instance of a block. -/
def pendOf (b : Block) (inst : Nat) (p : RwPend) : Bool :=
  match findStored p.addr with
  | none => false
  | some ⟨r, ix⟩ => r.info.block == b && ix.inst == inst

/-- Every RW write that an instance of a block has received takes effect, in order: what comes before the effect of a
later write to the same instance (R6, R43). -/
def State.flushRw (s : State) (b : Block) (inst : Nat) : State :=
  let mine := s.acc.rwPend.filter (pendOf b inst)
  mine.foldl State.takeRw { s with acc := { s.acc with rwPend := s.acc.rwPend.filter (fun p => !pendOf b inst p) } }

/-- Whether an RWX field of a register may be written: the block instance that it belongs to is STOPPED (R10; for each
block the rule that names its run control: R145, R162, R177, R191, R193, R197, R297, R397, R412, R441, R446, R455,
R465, R532). -/
def State.rwxOpen (s : State) (r : Reg) (ix : Ix) : Bool :=
  match r with
  | .rngAddr | .rngCfg => (s.ring ix.i).state == .disabled
  | .linSliceCtrl | .linLaneCfg | .linPortCfg => !s.flag LIN_SLICE_CTRL_RUN (ixN ix.inst)
  | .flxGroupCfg | .flxGroupPhy => !s.flag FLX_GROUP_CFG_EN (ixI ix.i)
  | .flxClient => !s.flag FLX_CLIENT_EN ix
  | .flxCkt => !s.flag FLX_CKT_EN ix
  | .asaBankCfg => !s.flag ASA_BANK_CFG_RUN ix
  | .ddcCtrl | .ddcPart => !s.flag DDC_CTRL_RUN ix0
  | .qscCtrl => !s.flag QSC_CTRL_RUN ix0 && s.noQueues
  | .qscNodeStore => !bitAt (s.rd .qscNodeStore ix).toNat 0
  | .fabMacroCtrl | .fabLinkCfg => !s.flag FAB_MACRO_CTRL_RUN (ixN ix.inst)
  | .fabCmnCtrl | .fabCmnPairMap => (List.range 5).all (fun m => !s.flag FAB_MACRO_CTRL_RUN (ixN m))
  | .crdRes => !s.flag CRD_RES_EN ix
  | .prtGroupCfg | .prtGroupMembers | .prtGroupFlexe => !s.flag PRT_GROUP_CFG_EN (ixI ix.i)
  | _ => true

/-- The RWX fields of a write: taken while the instance is STOPPED; a change at any other time is discarded and sets
CFG_VIOLATION (R10). -/
def State.writeRwx (s : State) (r : Reg) (ix : Ix) (v : W64) : State :=
  let m := classMask r .rwx
  let old := s.rd r ix
  if (old ^^^ v) &&& m = 0 then s
  else if s.rwxOpen r ix then s.wr r ix (blend old v m)
  else s.violation r.info.block ix.inst

/-- What stands between a block instance's shadow copies and their application (R8). -/
def State.applySt (s : State) (b : Block) (inst : Nat) : ApplySt :=
  (s.acc.applies.find? (fun a => a.block == b && a.inst == inst)).getD ⟨b, inst, none, []⟩

/-- The same, set; an instance with nothing staged and no GO is not listed. -/
def State.setApply (s : State) (a : ApplySt) : State :=
  let rest := s.acc.applies.filter (fun x => !(x.block == a.block && x.inst == a.inst))
  { s with acc := { s.acc with applies := if a.go.isNone && a.stagers.isEmpty then rest else rest ++ [a] } }

/-- The RWS fields of a write go to the shadow copies (R7), or are discarded while an application is pending (R8). -/
def State.writeRws (s : State) (req : Req) (r : Reg) (ix : Ix) (v : W64) : State :=
  let m := classMask r .rws
  let sh := s.shadowOf r ix
  if (sh ^^^ v) &&& m = 0 then s
  else
    let a := s.applySt r.info.block ix.inst
    if a.go.isSome then s.violation r.info.block ix.inst
    else
      let new := blend (s.rd r ix) v m
      let s := { s with shadow := if new = s.rd r ix then tblDel (regAddr r ix) s.shadow
                                  else tblPut (regAddr r ix) new s.shadow }
      if a.stagers.contains req then s else s.setApply { a with stagers := a.stagers ++ [req] }

/-- The RW fields of a write, but for those that the row itself decides, take effect. -/
def State.writeRw (s : State) (r : Reg) (ix : Ix) (v skip : W64) : State :=
  s.wr r ix (blend (s.rd r ix) v (classMask r .rw &&& ~~~skip))

/-- A write to a register with a row of its own: what the instance received before takes effect first, then the fields
that the row does not decide, by their classes. -/
def State.ownWrite (s : State) (req : Req) (r : Reg) (ix : Ix) (v skip : W64) : State :=
  (((s.flushRw r.info.block ix.inst).writeRwx r ix v).writeRws req r ix v).writeRw r ix v skip

end Sys2Proof.Machine
end

