-- ==== Sys2Proof/Machine/Monitor.lean ====
section
/-!
DEFINITION. Machine/Monitor.lean: the ports of a slice and the groups and clients of FlexE as their registers give
them, and signal fail and degrade of the entities (spec/06_line_flexe.md R174 to R193, spec/07_line_monitoring.md
R206 to R213).
-/
namespace Sys2Proof.Machine

open Fld

/-! ## Ports, R174, R175, R185 -/

/-- Lanes per port of a map; 0 where the map has no port (R174). -/
def mapLanes (m : Nat) : Nat := [0, 8, 4, 8, 2, 4, 1, 2, 4, 1, 2, 4].getD m 0

/-- FlexE instances of 100 Gb/s of a PHY under a map; 0 where the map has no FlexE PHYs (R185, R189). -/
def mapInstances (m : Nat) : Nat := [0, 0, 8, 8, 4, 4, 2, 2, 2, 1, 1, 1].getD m 0

/-- The map in force of a slice. -/
def State.sliceMap (s : State) (k : Nat) : Nat := s.fld LIN_SLICE_CTRL_MAP (ixN k)

/-- The per-port registers of a port number (R175). -/
def portIx (p : Nat) : Ix := ixNI (p / 16) (p % 16)

/-- Whether a number is a port's lowest lane under its slice's map (R175). -/
def State.isPort (s : State) (p : Nat) : Bool :=
  let l := mapLanes (s.sliceMap (p / 16))
  l != 0 && p % l = 0

/-- Whether a slice is in RUN (R177). -/
def State.sliceRuns (s : State) (k : Nat) : Bool := s.flag LIN_SLICE_CTRL_RUN (ixN k)

/-- The LD domain of a port (R45). -/
def portDomain (p : Nat) : Nat := p / 32

/-- Whether a port is a FlexE PHY (R185). -/
def State.isPhy (s : State) (p : Nat) : Bool :=
  s.isPort p && s.flag LIN_PORT_CFG_FLEXE (portIx p) && mapInstances (s.sliceMap (p / 16)) != 0

/-- Whether a port may carry traffic (R178). -/
def State.portOn (s : State) (p : Nat) : Bool :=
  s.domUp (portDomain p) && s.sliceRuns (p / 16) && s.flag LIN_PORT_CFG_ENABLE (portIx p)

/-! ## FlexE groups and clients, R190, R191, R193 -/

/-- The PHYs of a group in order (R191, R201). -/
def State.groupPhys (s : State) (n : Nat) : List Nat :=
  ((List.range 8).takeWhile (fun k => s.flag FLX_GROUP_PHY_VALID (ixIJ n k))).map
    (fun k => s.fld FLX_GROUP_PHY_PORT (ixIJ n k))

/-- Whether a group runs. -/
def State.groupRuns (s : State) (n : Nat) : Bool := s.flag FLX_GROUP_CFG_EN (ixI n)

/-- The lanes of a group's PHYs (R193). -/
def State.groupLanes (s : State) (n : Nat) : List Nat :=
  (s.groupPhys n).flatMap (fun p => (List.range (mapLanes (s.sliceMap (p / 16)))).map (p + ·))

/-- Whether a group carries traffic: it runs, and so does each of its PHYs (R178, R191). -/
def State.groupOn (s : State) (n : Nat) : Bool := s.domUp domFC && s.groupRuns n && (s.groupPhys n).all s.portOn

/-- The running group that has an instance (R190). -/
def State.groupOfInst (s : State) (i : Nat) : Option Nat :=
  (List.range 32).find? fun n => s.groupRuns n &&
    (s.groupPhys n).any fun p => 2 * p ≤ i && i < 2 * p + mapInstances (s.sliceMap (p / 16))

/-- The running group of a global slot (R190). -/
def State.groupOfSlot (s : State) (g : Nat) : Option Nat := s.groupOfInst (g / 20)

/-- The enabled client that a slot's calendar entry in force names (R192, R193). -/
def State.slotClient (s : State) (g : Nat) : Option Nat :=
  match s.groupOfSlot g with
  | none => none
  | some n =>
    let ix := ixIJ (s.fld FLX_GROUP_CFG_CAL_ACTIVE (ixI n)) g
    let c := s.fld FLX_CAL_CLIENT ix
    if s.flag FLX_CAL_USED ix && s.flag FLX_CLIENT_EN (ixI c) && s.fld FLX_CLIENT_GROUP (ixI c) = n then some c else none

/-- Whether a slot's calendar entry in force belongs to an enabled circuit client (R194). -/
def State.circuitSlot (s : State) (g : Nat) : Bool :=
  match s.slotClient g with
  | some c => s.flag FLX_CLIENT_TERM (ixI c)
  | none => false

/-- The enabled packet client whose MAC has a port number (R193). -/
def State.clientOfPort (s : State) (p : Nat) : Option Nat :=
  (List.range 512).find? fun c =>
    s.flag FLX_CLIENT_EN (ixI c) && !s.flag FLX_CLIENT_TERM (ixI c) && s.fld FLX_CLIENT_PORT (ixI c) = p

/-- The MAC behind a port number: an Ethernet port, or a FlexE packet client (R180, R193). -/
inductive Mac where
  | ether
  | client (c : Nat)
  deriving DecidableEq, Repr

/-- The MAC of a port number. -/
def State.macOf (s : State) (p : Nat) : Option Mac :=
  if s.isPort p && !s.isPhy p then some .ether else (s.clientOfPort p).map .client

/-- Whether a MAC carries traffic. -/
def State.macOn (s : State) (p : Nat) : Mac → Bool
  | .ether => s.portOn p
  | .client c => s.groupOn (s.fld FLX_CLIENT_GROUP (ixI c))

/-- The largest frame that a MAC accepts (R180, R187). -/
def State.macMax (s : State) (p : Nat) : Mac → Nat
  | .ether => s.fld LIN_PORT_CFG_MAX_FRAME (portIx p)
  | .client c => s.fld FLX_CLIENT_MAX_FRAME (ixI c)

/-- Whether the pipelines take frames (R47, R81, R349). -/
def State.pipesUp (s : State) : Bool :=
  s.domUp domFC && s.domUp domFL && !s.flag CMT_STATUS_FL_HOLD ix0 && s.gen.phase == .run

/-! ## Entities, R206 to R213 -/

def entGroup (n : Nat) : Nat := 256 + n
def entClient (c : Nat) : Nat := 288 + c
def entLink (l : Nat) : Nat := 800 + l

/-- The entity of a signal (R206). -/
def unitEnt : SigUnit → Nat
  | .line p => p.val
  | .fabric l => entLink l.val

/-- An entity's state. -/
def State.ent (s : State) (e : Nat) : EntSt := tblGet EntSt.init s.pmn.ents e

/-- An entity's state, set. -/
def State.setEnt (s : State) (e : Nat) (x : EntSt) : State := { s with pmn := { s.pmn with ents := tblPut e x s.pmn.ents } }

/-- Whether an entity cannot be monitored (R206, R208). -/
def State.notMon (s : State) (e : Nat) : Bool :=
  if e < 256 then !s.isPort e || !s.domUp (portDomain e) || !s.sliceRuns (e / 16)
  else if e < 288 then !s.domUp domFC || !s.groupRuns (e - 256)
  else if e < 800 then !s.domUp domFC || !s.groupRuns (s.fld FLX_CLIENT_GROUP (ixI (e - 288)))
  else !s.domUp (domFB ((e - 800) / 64))

/-- LOA of an entity: a fabric link is in LOA while it is not locked (R207). -/
def State.loaOf (s : State) (e : Nat) : Bool :=
  if e < 800 then (s.ent e).loa
  else !s.notMon e && (tblGet LinkSt.init s.fab.links (e - 800)).align.locked.isNone

/-- A defect of an entity is declared (R207). -/
def State.declared (s : State) (e : Nat) : Bool := (s.ent e).los || s.loaOf e || (s.ent e).fail

/-- Signal fail (R208). -/
def State.sf (s : State) (e : Nat) : Bool := s.declared e || s.notMon e

/-- Signal degrade (R209). -/
def State.sd (s : State) (e : Nat) : Bool := (s.ent e).sd && !s.sf e

/-- SF and SD as the consequent actions see them (R210). -/
def State.sfActs (s : State) (e : Nat) : Bool := s.sf e && !(s.ent e).sfHeld
def State.sdActs (s : State) (e : Nat) : Bool := s.sd e && !(s.ent e).sdHeld

/-- A SyncE output whose lane's port is in SF is held low (spec/17_time.md R526). -/
def State.squelch (s : State) (e : Nat) : State :=
  (List.range 4).foldl (fun s i =>
    let lane := s.fld TIM_SYNCE_LANE (ixI i)
    let l := max 1 (mapLanes (s.sliceMap (lane / 16)))
    if lane / l * l = e && s.flag TIM_SYNCE_SQUELCH_EN (ixI i) then
      let on := s.sf e
      let was := s.flag TIM_SYNCE_SQUELCHED (ixI i)
      let s := s.set TIM_SYNCE_SQUELCHED (ixI i) (ofBool on)
      if on && !was then s.raise TIM_INT_STATUS_SYNCE_SQUELCH else s
    else s) s

/-- What the second in progress must show of an entity (R214, R218): that it could not be monitored, or that a defect
was declared, even if that clears in the same second. -/
def State.markSecond (s : State) (e : Nat) : State :=
  let x := s.ent e
  let y := { x with lapse := x.lapse || s.notMon e, hit := x.hit || s.declared e }
  if y = x then s else s.setEnt e y

/-- After something that bears on an entity's SF: a change is recorded and reported, starts its hold-off, and starts SD
from a fresh count (R208 to R210, R220). -/
def State.sfSettle (s : State) (e : Nat) (was : Bool) : State :=
  let now := s.sf e
  let s := s.markSecond e
  if now == was then s
  else
    let x := s.ent e
    let hadSd := x.sd
    let held := now && s.fld PMN_ENT_CFG_HOLD_OFF (ixI e) != 0
    let s := s.setEnt e { x with sfHeld := held, sd := false, sdBad := 0, sdGood := 0, sdHeld := false }
    let s := s.raiseAt PMN_INT_STATUS_SF_CHG 0 0 (e + 2048 * ofBool now) 0
    let s := if hadSd then s.raiseAt PMN_INT_STATUS_SD_CHG 0 0 e 0 else s
    if e < 256 then s.squelch e else s

/-- SD of an entity takes a value: reported (R220), and held off when declared (R210). -/
def State.sdTo (s : State) (e : Nat) (on : Bool) : State :=
  let x := s.ent e
  if x.sd == on then s
  else
    let s := s.setEnt e { x with sd := on, sdBad := 0, sdGood := 0, sdHeld := on && s.fld PMN_ENT_CFG_HOLD_OFF (ixI e) != 0 }
    s.raiseAt PMN_INT_STATUS_SD_CHG 0 0 (e + 2048 * ofBool on) 0

/-- A group is in SD while any of its PHYs is, unless it is in SF (R209). -/
def State.groupsSd (s : State) : State :=
  (List.range 32).foldl (fun s n => s.sdTo (entGroup n) (!s.sf (entGroup n) && (s.groupPhys n).any s.sd)) s

/-- A change of the module that bears on the SF of some entities. -/
def State.watchSf (s : State) (es : List Nat) (f : State → State) : State :=
  let was := es.map (fun e => (e, s.sf e))
  (was.foldl (fun s (e, w) => s.sfSettle e w) (f s)).groupsSd

/-- GROUP_FAIL or CLIENT_FAIL is declared in an entity that can be monitored (R207). -/
def State.declareFail (s : State) (e : Nat) : State :=
  if (s.ent e).fail || s.notMon e then s else s.watchSf [e] fun s => s.setEnt e { s.ent e with fail := true }

/-- A PHY of a group is in LOS or LOA (R207). -/
def State.phyFails (s : State) (n : Nat) : Bool := (s.groupPhys n).any fun p => (s.ent p).los || s.loaOf p

/-- A PHY in LOS or LOA puts its groups in GROUP_FAIL, and a group in GROUP_FAIL its clients in CLIENT_FAIL (R207). -/
def State.failSettle (s : State) : State :=
  let s := (List.range 32).foldl (fun s n => if s.phyFails n then s.declareFail (entGroup n) else s) s
  if (List.range 32).any (fun n => (s.ent (entGroup n)).fail) then
    (List.range 512).foldl (fun s c =>
      if (s.ent (entGroup (s.fld FLX_CLIENT_GROUP (ixI c)))).fail then s.declareFail (entClient c) else s) s
  else s

/-- The entities of a slice's ports (R206). -/
def sliceEnts (k : Nat) : List Nat := (List.range 16).map (16 * k + ·)

/-- A group's entity and those of its clients (R206, R208). -/
def State.groupEnts (s : State) (n : Nat) : List Nat :=
  entGroup n :: ((List.range 512).filter (fun c => s.fld FLX_CLIENT_GROUP (ixI c) = n)).map entClient

/-- All entities that FC's reset bears on (R208). -/
def fcEnts : List Nat := (List.range 544).map (256 + ·)

end Sys2Proof.Machine
end

