-- ==== Sys2Proof/Machine/Servo.lean ====
section
/-!
DEFINITION. Machine/Servo.lean: what the loss of the time source does to the servo (spec/17_time.md R517, R518), which the
fabric's reachability brings about too (R524).
-/
namespace Sys2Proof.Machine

open Fld

/-- ±100 ppm in units of 2^-16 ppb, the bound of R518 and R529. -/
def ppm100 : Int := 6553600000

/-- A correction held within ±100 ppm. -/
def clampFreq (x : Int) : Int := if x < -ppm100 then -ppm100 else if ppm100 < x then ppm100 else x

/-- The source in force (R517). -/
def State.timSrc (s : State) : Nat := s.fld TIM_CTRL_SRC ix0

/-- The servo's next correction: the manual gives the loop's bandwidth and no gains, so it is a free value within
±100 ppm (R518, log entry 3). -/
def State.servoSlew (s : State) : State :=
  { s with tim := { s.tim with freq := clampFreq (signedOf 64 s.free.toNat) } }.used

/-- The source is lost (R518): LOCKED goes to HOLDOVER with a held frequency, ACQUIRING to FREERUN; measurements of it
that have not acted are gone. -/
def State.sourceLost (s : State) : State :=
  let t := { s.tim with meas := [] }
  match s.tim.servo with
  | .locked => (({ s with tim := { t with servo := .holdover, holdSec := 0 } }).servoSlew).raise TIM_INT_STATUS_SRC_LOST
  | .acquiring => ({ s with tim := { t with servo := .freerun } }).raise TIM_INT_STATUS_SRC_LOST
  | .freerun | .holdover => s

end Sys2Proof.Machine
end

