-- ==== Sys2Proof/Machine/FabLink.lean ====
section
/-!
DEFINITION. Machine/FabLink.lean: links, addresses, spray sets and reachability, and how cells are formed
(spec/15_fabric.md R454 to R470, R474).
-/
namespace Sys2Proof.Machine

open Fld

/-! ## Links, R454, R455 -/

def State.link (s : State) (l : Nat) : LinkSt := tblGet LinkSt.init s.fab.links l
def State.setLink (s : State) (l : Nat) (x : LinkSt) : State :=
  { s with fab := { s.fab with links := if x = LinkSt.init then tblDel l s.fab.links else tblPut l x s.fab.links } }
def State.modLink (s : State) (l : Nat) (f : LinkSt → LinkSt) : State := s.setLink l (f (s.link l))

/-- The register index of a link's registers. -/
def linkIx (l : Nat) : Ix := ixNI (l / 64) (l % 64)

/-- A macro runs; a macro is in legacy mode (R454, R455). -/
def State.macroRuns (s : State) (m : Nat) : Bool := s.domUp (domFB m) && s.flag FAB_MACRO_CTRL_RUN (ixN m)
def State.legacy (s : State) (l : Nat) : Bool := s.flag FAB_MACRO_CTRL_LEGACY (ixN (l / 64))

/-- A link that transmits: its macro runs, EN is 1, and the fabric transmitters are on (R455). -/
def State.linkRuns (s : State) (l : Nat) : Bool := s.macroRuns (l / 64) && s.flag FAB_LINK_CFG_EN (linkIx l)
def State.linkTx (s : State) (l : Nat) : Bool := s.linkRuns l && s.gen.fabTx

/-- Every condition of R468 but REACH. -/
def State.inSpray (s : State) (l : Nat) : Bool :=
  s.linkRuns l && (s.link l).align.locked.isSome && !s.flag FAB_LINK_STATUS_RDI_RX (linkIx l) && !s.sfActs (entLink l)
    && (s.link l).rejoined

/-! ## Addresses, R465 -/

/-- The module's own fabric ID, and its mate's. -/
def State.ownId (s : State) : Nat := s.fld FABCMN_CTRL_MODULE_ID ix0
def mateOf (d : Nat) : Nat := if d % 2 = 0 then d + 1 else d - 1

/-- The pair of a module is declared protected. -/
def State.mapped (s : State) (d : Nat) : Bool :=
  bitAt (s.fld FABCMN_PAIR_MAP_PAIRS (ixI (d / 2 / 64))) (d / 2 % 64)

/-- The data address of a module as 2 × module + P. -/
def State.addrOf (s : State) (d : Nat) : Nat := if s.mapped d then 2 * (d / 2 * 2) + 1 else 2 * d

/-- The VOQ of a destination, port group and class (R412, R465). -/
def State.voqOf (s : State) (d pg cls : Nat) : Nat := (s.addrOf d / 2) * 256 + pg * 8 + cls

/-- The address that a VOQ's cells go to. -/
def State.voqAddr (s : State) (q : Nat) : Nat := s.addrOf (q / 256)

/-- The module's own address with P = 0: its traffic never leaves the die (R466). -/
def State.isLocal (s : State) (a : Nat) : Bool := a == 2 * s.ownId

/-! ## Spray sets, R467 to R470 -/

/-- A link's map names a module. -/
def LinkSt.reaches (x : LinkSt) (d : Nat) : Bool := bitAt (tblGet 0 x.maps (d / 256)) (255 - d % 256)

/-- A link's map names an address: for a pair, either mate. -/
def LinkSt.reachesAddr (x : LinkSt) (a : Nat) : Bool :=
  if a % 2 = 1 then x.reaches (a / 2) || x.reaches (a / 2 + 1) else x.reaches (a / 2)

/-- The native spray set of an address, and the legacy links that can carry it (R468, R480). -/
def State.spray (s : State) (a : Nat) (leg : Bool) : List Nat :=
  (s.fab.links.filter fun e => (s.legacy e.1 == leg) && e.2.sprayed && e.2.reachesAddr a && !(leg && a % 2 = 1)).map (·.1)

/-- The links that cells to an address go on: the native ones, otherwise legacy ones (R480). -/
def State.sprayFor (s : State) (a : Nat) : List Nat :=
  match s.spray a false with
  | [] => s.spray a true
  | ls => ls

/-- The modules that HEARTBEAT is expected from (R475). -/
def State.monitors (s : State) (d : Nat) : Bool :=
  bitAt (s.fld FABCMN_HB_SET_MODULES (ixI (d / 64))) (d % 64) || (s.mapped s.ownId && d == mateOf s.ownId)
def State.hbLost (s : State) (d : Nat) : Bool := s.monitors d && !s.fab.hbUp.contains d

/-- The heartbeat condition of R470. -/
def State.addrLost (s : State) (a : Nat) : Bool :=
  if a % 2 = 1 then
    let ms := [a / 2, a / 2 + 1].filter s.monitors
    !ms.isEmpty && ms.all s.hbLost
  else s.hbLost (a / 2)

/-- An address can be reached (R470); the module's own always can. -/
def State.canReach (s : State) (a : Nat) : Bool :=
  s.isLocal a || (!(s.sprayFor a).isEmpty && !s.addrLost a)

/-- The spray sets follow their conditions (R468). -/
def State.settleSpray (s : State) : State :=
  s.fab.links.foldl (fun s e =>
    let on := s.inSpray e.1
    if on == e.2.sprayed then s
    else (s.modLink e.1 fun x => { x with sprayed := on }).raiseAt FAB_INT_STATUS_SPRAY_CHG (e.1 / 64) 0 e.1 0) s

/-- The modules whose monitoring has begun start LOST (R475). -/
def State.settleMonitors (s : State) : State :=
  let now := if s.fab.monitored.isEmpty && !s.mapped s.ownId && (List.range 32).all (fun w => s.rd .fabCmnHbSet (ixI w) == 0)
    then [] else (List.range 2048).filter s.monitors
  { s with fab := { s.fab with monitored := now, hbUp := s.fab.hbUp.filter fun d => now.contains d && s.fab.monitored.contains d } }

/-- The fabric time master in use cannot be reached: the time source is lost (spec/17_time.md R524). -/
def State.masterSettle (s : State) : State :=
  if s.timSrc = 2 && s.domUp domTM && !s.canReach (2 * s.fld TIM_CTRL_MASTER_ID ix0) then s.sourceLost else s

/-- An address is a destination: the VOQs of some module are for it, its own or that of its mapped pair (R465). -/
def State.isDest (s : State) (a : Nat) : Bool := s.addrOf (a / 2) == a

/-- Reachability follows the spray sets and heartbeats; a destination that was reachable and no longer is raises
UNREACH; one that is reachable drops nothing; a master that cannot be reached loses the time source (R470). -/
def State.settleReach (s : State) : State :=
  let up := if s.fab.links.any (fun e => e.2.sprayed) then
      (List.range 4096).filter fun a => s.isDest a && !s.isLocal a && s.canReach a
    else []
  let gone := s.fab.reach.filter fun a => !up.contains a
  let s := { s with fab := { s.fab with reach := up, dropping := s.fab.dropping.filter fun a => !up.contains a } }
  (gone.foldl (fun s a => s.raiseAt FABCMN_INT_STATUS_UNREACH 0 0 (a / 2) 0) s).masterSettle

/-- After anything that bears on the fabric's links. -/
def State.settleFab (s : State) : State := s.settleSpray.settleMonitors.settleReach

/-- TX_ID, TX_LINK, RDI and LEGACY of a marker (R457). -/
def markerWord (id lane : Nat) (rdi leg : Bool) : Nat := id * 2 ^ 13 + lane * 16 + ofBool rdi * 8 + ofBool leg * 4

/-- The markers of a link that transmits, from now on: RDI is 1 while its receiver is not LOCKED (R457, R461). -/
def State.newMarkers (s : State) (l : Nat) : State :=
  if s.linkTx l then
    s.emit (.marker false l (markerWord s.ownId l (s.link l).align.locked.isNone (s.legacy l)))
  else s

/-- A link leaves LOCKED: it searches again, its map is cleared at once and it is no longer clean (R461, R467, R468). -/
def State.linkUnlock (s : State) (l : Nat) : State :=
  if (s.link l).align.locked.isNone then s
  else
    let s := s.modLink l fun x => { x with align := AlignSt.init, skip := false, rejoined := false, maps := [] }
    let rx := s.fab.rx.filter fun c => match c with | .link k _ => k != l | _ => true
    (({ s with fab := { s.fab with rx := rx } }).raiseAt FAB_INT_STATUS_LOCK_CHG (l / 64) 0 l 0).newMarkers l

/-- A link starts afresh: its macro or its EN has been written (R455, R459). -/
def State.linkReset (s : State) (l : Nat) : State :=
  (s.linkUnlock l).modLink l fun x => { LinkSt.init with sprayed := x.sprayed }

/-! ## Cells, R463, R474, R479 -/

/-- The 16-byte header of a native cell. -/
def nativeHdr (type len w1 w3 w5 w7 wB : Nat) : List Byte :=
  let h := beBytes 1 (type * 16 + len) ++ beBytes 2 w1 ++ beBytes 2 w3 ++ beBytes 2 w5 ++ beBytes 4 w7 ++ beBytes 2 wB ++ [0]
  h ++ beBytes 2 (crc16 h)

/-- The 12-byte header of a legacy cell (R479). -/
def legacyHdr (type len w1 w3 w5 w8 : Nat) : List Byte :=
  let h := beBytes 1 (type * 16 + len) ++ beBytes 2 w1 ++ beBytes 2 w3 ++ beBytes 3 w5 ++ beBytes 2 w8
  h ++ beBytes 2 (crc16 h)

/-- The second word of a header: DEST and P. -/
def destWord (a : Nat) : Nat := a / 2 * 32 + a % 2 * 16

/-- The counter in the 96-bit format of R476. -/
def stamp96 (t : Nat) : List Byte := beBytes 6 (t / 65536000000000) ++ beBytes 4 (t / 65536 % 1000000000) ++ beBytes 2 (t % 65536)
def ofStamp96 (b : List Byte) : Nat :=
  (beNat (bytesAt b 0 6) * 1000000000 + beNat (bytesAt b 6 4)) * 65536 + beNat (bytesAt b 10 2)

/-- Bytes 1 to 3 of a REQUEST, GRANT or DEFER. -/
def reqBytes (pg cls addr : Nat) (pair : Bool) : List Byte := beBytes 1 (pg * 8 + cls) ++ beBytes 2 (addr * 32 + 16 * ofBool pair)

/-- A message of a control cell as 16 bytes (R474). -/
def CtlMsg.bytes (m : CtlMsg) : List Byte :=
  bytesAt (match m with
    | .request pg k a p => 1 :: reqBytes pg k a p
    | .grant pg k a p n => 2 :: reqBytes pg k a p ++ beBytes 4 n
    | .defer pg k a p r => 3 :: reqBytes pg k a p ++ beBytes 4 r
    | .creditReturn pg k n => 4 :: beBytes 1 (pg * 8 + k) ++ zeros 2 ++ beBytes 4 n
    | .heartbeat ph q act => 5 :: beBytes 1 ph ++ beBytes 2 q ++ beBytes 4 act
    | .timeSync x t => 6 :: beBytes 1 x ++ zeros 2 ++ stamp96 t
    | .timeDreq x t => 7 :: beBytes 1 x ++ zeros 2 ++ stamp96 t
    | .timeDresp x t => 8 :: beBytes 1 x ++ zeros 2 ++ stamp96 t) 0 16

/-- A message read from 16 bytes; other MTYPE values are ignored (R474). -/
def ctlMsgOf (b : List Byte) : Option CtlMsg :=
  let n := fun i k => beNat (bytesAt b i k)
  let pg := n 1 1 / 8
  let k := n 1 1 % 8
  let a := n 2 2 / 32
  let p := bitAt (n 2 2) 4
  match n 0 1 with
  | 1 => some (.request pg k a p)
  | 2 => some (.grant pg k a p (n 4 4))
  | 3 => some (.defer pg k a p (n 4 4 % 4))
  | 4 => some (.creditReturn pg k (n 4 4))
  | 5 => some (.heartbeat (n 1 1) (n 2 2) (n 4 4))
  | 6 => some (.timeSync (n 1 1) (ofStamp96 (b.drop 4)))
  | 7 => some (.timeDreq (n 1 1) (ofStamp96 (b.drop 4)))
  | 8 => some (.timeDresp (n 1 1) (ofStamp96 (b.drop 4)))
  | _ => none

/-- A control cell for a module, native or legacy. -/
def State.ctlCell (s : State) (leg : Bool) (d : Nat) (ms : List CtlMsg) : List Byte :=
  (if leg then legacyHdr 2 0 (d * 64) (s.ownId * 64) 0 0 else nativeHdr 2 0 (d * 32) (s.ownId * 32) 0 0 0)
    ++ bytesAt (ms.flatMap CtlMsg.bytes) 0 64

/-- A data cell to an address with a payload that fills it (R463, R479). -/
def State.dataCellBytes (s : State) (leg : Bool) (a pg cls seq ptr : Nat) (payload : List Byte) : List Byte :=
  if leg then
    legacyHdr 1 (payload.length / 64 - 1) (a / 2 * 64 + cls * 8) (s.ownId * 64 + pg * 2) (seq % 2 ^ 24) (ptr * 128) ++ payload
  else
    nativeHdr 1 ((payload.length - 64) / 32) (destWord a) (s.ownId * 32 + pg) (cls * 8192 + s.fab.epoch.toNat * 32) seq
      (ptr * 128) ++ payload

/-- A slot cell to an address (R463, R477). -/
def State.slotCellBytes (s : State) (a ckt member mseq : Nat) (lf : Bool) (blocks : List Byte) : List Byte :=
  nativeHdr 3 12 (destWord a) (s.ownId * 32) (ckt * 16) (member * 2 ^ 24 + mseq % 65536) 0
    ++ beBytes 2 (32768 * ofBool lf) ++ bytesAt blocks 0 446

/-! ## The transmitter, R469 -/

/-- The bytes that wait in a link's FIFO. -/
def LinkSt.waiting (x : LinkSt) : Nat :=
  (x.txLink ++ x.txSlot ++ x.txData).foldl (fun a b => a + b.length) (80 * x.txCtl.length)

/-- The link with the fewest bytes waiting, ties broken by rotation (R469). -/
def State.leastBusy (s : State) (ls : List Nat) : Option Nat :=
  let order := ls.filter (fun l => s.fab.rot ≤ l) ++ ls.filter (fun l => l < s.fab.rot)
  order.foldl (fun b l =>
    match b with
    | none => some l
    | some k => if (s.link l).waiting < (s.link k).waiting then some l else some k) none

/-- A cell takes its link of a spray set and waits in its FIFO; with no link it is lost. -/
def State.putCell (s : State) (ls : List Nat) (f : LinkSt → LinkSt) : State :=
  match s.leastBusy ls with
  | none => s
  | some l => ({ s with fab := { s.fab with rot := (l + 1) % 320 } }).modLink l f

/-- Messages for a module, four to a control cell (R474); they are lost while no link leads there (R469). -/
def State.sendCtl (s : State) (d : Nat) (ms : List CtlMsg) : State :=
  if !s.domUp domQC then s
  else s.putCell (s.sprayFor (2 * d)) (fun x => { x with txCtl := x.txCtl ++ [(d, ms)] })

/-- What waits to be acted on. -/
def State.putRx (s : State) (c : RxCell) : State := { s with fab := { s.fab with rx := s.fab.rx ++ [c] } }

/-- The first accepted cell or message of a kind, taken. -/
def State.takeRx (s : State) (f : RxCell → Bool) : Option (RxCell × State) :=
  (takeFirst f s.fab.rx).map fun (c, rest) => (c, { s with fab := { s.fab with rx := rest } })

/-- A message for a module: this one's own credit scheduler or VOQs at once, another's over the fabric (R417). -/
def State.sendMsg (s : State) (d : Nat) (m : CtlMsg) : State :=
  if d = s.ownId then s.putRx (.msg d m s.tim.total) else s.sendCtl d [m]

end Sys2Proof.Machine
end

