-- ==== Sys2Proof/Machine/ProtBase.lean ====
section
/-!
DEFINITION. Machine/ProtBase.lean: protection groups, their members and roles, and what a role does to packets, credit
and transmitters (spec/18_protection.md R532 to R535, R545, R547, spec/14_scheduling.md R424).
-/
namespace Sys2Proof.Machine

open Fld

def State.group (s : State) (g : Nat) : GroupSt := tblGet GroupSt.init s.prt.groups g
def State.setGroup (s : State) (g : Nat) (x : GroupSt) : State :=
  { s with prt := { s.prt with groups := if x = GroupSt.init then tblDel g s.prt.groups else tblPut g x s.prt.groups } }
def State.modGroup (s : State) (g : Nat) (f : GroupSt → GroupSt) : State := s.setGroup g (f (s.group g))

/-- A group runs (R532). -/
def State.groupEn (s : State) (g : Nat) : Bool := s.flag PRT_GROUP_CFG_EN (ixI g)

/-- The module is ACTIVE for a group; until it has taken a role it holds no group (R545). -/
def State.active (s : State) (g : Nat) : Bool := s.groupEn g && (s.group g).role == some true

/-- A MAC port is named by a group's membership; a FlexE group is (R567). -/
def State.namesPort (s : State) (g p : Nat) : Bool :=
  bitAt (s.rd .prtGroupMembers (ixIJ g (p / 64))).toNat (p % 64)
def State.namesFlexe (s : State) (g n : Nat) : Bool := bitAt (s.fld PRT_GROUP_FLEXE_FLEXE (ixI g)) n

/-- A port, or the FlexE group of the packet client behind it, is a member of a group (R532, R551). -/
def State.memberOf (s : State) (g p : Nat) : Bool :=
  p < 256 && (s.namesPort g p ||
    (match s.clientOfPort p with
     | some c => s.namesFlexe g (s.fld FLX_CLIENT_GROUP (ixI c))
     | none => false))

/-- The enabled group of a port; of a FlexE group. -/
def State.protOf (s : State) (p : Nat) : Option Nat :=
  (List.range 32).find? fun g => s.groupEn g && s.memberOf g p
def State.protOfFlexe (s : State) (n : Nat) : Option Nat :=
  (List.range 32).find? fun g => s.groupEn g && s.namesFlexe g n

/-- What a role makes of a packet of a port (R533, R547): it goes on, or it is discarded under the shadow role or in a
switch. -/
inductive RoleFate where
  | pass | shadow | switch
  deriving DecidableEq, Repr

/-- An ingress packet from a port. -/
def State.ingressRole (s : State) (p : Nat) : RoleFate :=
  match s.protOf p with
  | none => .pass
  | some g => if (s.group g).gap then .switch else if s.active g then .pass else .shadow

/-- A packet that has arrived for a port, pair-addressed or not (R533, R534). -/
def State.egressRole (s : State) (p : Nat) (pair : Bool) : RoleFate :=
  match s.protOf p with
  | some g => if pair && !s.active g then .shadow else .pass
  | none => if pair && p < 256 && s.ownId % 2 = 1 then .shadow else .pass

/-- A discard under a role is counted (R533, R547). -/
def State.roleDiscard (s : State) (f : RoleFate) (n : Nat) : State :=
  match f with
  | .pass => s
  | .shadow => s.count PRT_SHADOW_DISCARD_COUNT ix0 n
  | .switch => s.count PRT_SWITCH_DISCARD_COUNT ix0 n

/-- The members' transmitters are on: the module is ACTIVE and does not wait for DRAINED, or it drains what it had
queued; never while ALIVE_OUT_N is released (R533, R535, R547). -/
def State.roleTx (s : State) (g : Nat) : Bool :=
  s.gen.aliveOut && ((s.active g && !(s.group g).txHeld) || (s.group g).draining)

/-- A MAC port transmits (spec/06_line_flexe.md R178, R179): its MAC carries traffic, the line transmitters are on and
its group's role lets it. -/
def State.portTx (s : State) (p : Nat) : Bool :=
  s.gen.lineTx && (match s.macOf p with | some m => s.macOn p m | none => false) &&
    (match s.protOf p with | some g => s.roleTx g | none => true)

/-- The ACTIVE bits of the module (R474, R538). -/
def State.activeBits (s : State) : Nat := (List.range 32).foldl (fun a g => a + ofBool (s.active g) * 2 ^ g) 0

/-- Whether a port group answers requests for the pair address (R424). -/
def State.answersPair (s : State) (g : Nat) : Bool :=
  if s.flag CRD_PG_CFG_PROT_EN (ixI g) then s.active (s.fld CRD_PG_CFG_PROT (ixI g)) else s.ownId % 2 == 0

/-- A port group that starts answering begins with USED 0 in every class (R424). -/
def State.freshUsed (s : State) (g : Nat) : State :=
  (List.range 8).foldl (fun s k => s.set CRD_CLASS_USED (ixIJ g k) 0) s

/-- A change of a group's role: port groups bound to it that start answering do so afresh (R424), and the change is
counted (R566). -/
def State.takeRole (s : State) (g : Nat) (act : Bool) : State :=
  let was := s.active g
  let s := s.modGroup g fun x => { x with role := some act }
  if s.active g == was then s
  else
    let s := s.set PRT_GROUP_STATUS_SWITCHES (ixI g) ((s.fld PRT_GROUP_STATUS_SWITCHES (ixI g) + 1) % 65536)
    if act then
      (List.range 32).foldl (fun s k =>
        if s.flag CRD_PG_CFG_PROT_EN (ixI k) && s.fld CRD_PG_CFG_PROT (ixI k) = g then s.freshUsed k else s) s
    else s

end Sys2Proof.Machine
end

