-- ==== Sys2Proof/Machine/Buffers.lean ====
section
/-!
DEFINITION. Machine/Buffers.lean: cells, pages, the buffer operations and the allocator (spec/12_buffering.md R356 to
R367).
-/
namespace Sys2Proof.Machine

open Fld

/-! ## Handles, R356, R357 -/

def cellTotal : Nat := 1048576
def pageBase : Nat := 2 ^ 31
def isPage (h : Nat) : Bool := pageBase ≤ h

/-- The cells of a packet (R358). -/
def cellsOf (len : Nat) : Nat := max 1 ((len + 255) / 256)

/-- The data sets (spec/13_memory.md R394). -/
def State.dataSets (s : State) : Nat := if s.flag DDC_CTRL_SPARE_EN ix0 then 15 else 16

/-- Usable capacity in GiB (spec/13_memory.md R394). -/
def State.usableGib (s : State) : Nat := (if Config.is2T then 128 else 64) * s.dataSets

/-- The size of a partition in GiB (spec/13_memory.md R396): of the deep buffer, what the others leave, while the
clusters run. -/
def State.partGib (s : State) (p : Nat) : Nat :=
  match p with
  | 0 => s.fld DDC_PART_CNT_GIB ix0
  | 1 => s.fld DDC_PART_FLOW_GIB ix0
  | 2 => s.fld DDC_PART_WIN_GIB ix0
  | _ =>
    if s.flag DDC_CTRL_RUN ix0 then
      s.usableGib - (s.fld DDC_PART_CNT_GIB ix0 + s.fld DDC_PART_FLOW_GIB ix0 + s.fld DDC_PART_WIN_GIB ix0)
    else 0

/-- Deep pages of the module (R356): those of the deep-buffer partition while the clusters run. -/
def State.deepTotal (s : State) : Nat := s.partGib 3 * 262144

/-- A handle that names a buffer. -/
def State.handleOk (s : State) (h : Nat) : Bool :=
  if isPage h then h - pageBase < s.deepTotal else h < cellTotal

def State.buf (s : State) (h : Nat) : Option Buf := tblFind h s.bpm.bufs
def State.setBuf (s : State) (h : Nat) (b : Buf) : State := { s with bpm := { s.bpm with bufs := tblPut h b s.bpm.bufs } }
def State.freeBuf (s : State) (h : Nat) : State := { s with bpm := { s.bpm with bufs := tblDel h s.bpm.bufs } }

/-- The owner that headroom of a port stands under, for a class. -/
def hdrmOwner (p k : Nat) : Nat := 32 + 8 * p + k

/-- The cells that satisfy a condition. -/
def State.cellCount (s : State) (f : Buf → Bool) : Nat :=
  (s.bpm.bufs.filter fun e => !isPage e.1 && f e.2).length

/-- USED and CACHED of a requester (R384). -/
def State.bpmUsed (s : State) (r : Nat) : Nat := s.cellCount fun b => b.owner == r
def State.bpmCached (s : State) (r : Nat) : Nat := s.cellCount fun b => b.owner == r && !b.busy

/-- Cells in use of a port's headroom, and those of one of its classes (R377). -/
def State.hdrmUsed (s : State) (p : Nat) : Nat := s.cellCount fun b => 32 ≤ b.owner && (b.owner - 32) / 8 == p
def State.hdrmClass (s : State) (p k : Nat) : Nat := s.cellCount fun b => b.owner == hdrmOwner p k

/-- IN_CELLS (R375). -/
def State.inCells (s : State) (p k : Nat) : Nat := s.cellCount fun b => b.loss == some (p, k)

/-! ## The on-die pool, R365, R366 -/

/-- The requesters that ask for cells (R363). -/
def requesters : List Nat := List.range 22

def State.guarSum (s : State) : Nat := requesters.foldl (fun a r => a + s.fld BPM_REQ_CFG_GUAR (ixI r)) 0

/-- The reserve R: the headroom of all ports (R377). -/
def State.hdrmSum (s : State) : Nat := (List.range 256).foldl (fun a p => a + s.fld ADM_PFC_HDRM (ixI p)) 0

/-- The shared units held (R365). -/
def State.sharedHeld (s : State) : Nat :=
  requesters.foldl (fun a r => a + (s.bpmUsed r - s.fld BPM_REQ_CFG_GUAR (ixI r))) 0

/-- F of the on-die pool (R365). -/
def State.sharedFree (s : State) : Nat := cellTotal - s.guarSum - s.hdrmSum - s.sharedHeld

/-- Whether a requester is granted n more cells (R365, R366). -/
def State.cellsOk (s : State) (r n : Nat) : Bool :=
  let u := s.bpmUsed r
  let g := s.fld BPM_REQ_CFG_GUAR (ixI r)
  u + n ≤ g || (shareOk cellTotal s.guarSum s.hdrmSum s.sharedHeld u g n (s.fld BPM_REQ_CFG_ALPHA (ixI r))
    && u + n ≤ s.fld BPM_REQ_CFG_CEIL (ixI r))

/-- The most cells up to n that R365 allows a requester. -/
def State.cellsGrant (s : State) (r : Nat) : Nat → Nat
  | 0 => 0
  | n + 1 => if s.cellsOk r (n + 1) then n + 1 else s.cellsGrant r n

/-- POOL_LOW: F has fallen below LOW_WATER (R380). -/
def State.poolWatch (s : State) (was : Nat) : State :=
  let low := s.fld BPM_CTRL_LOW_WATER ix0
  if low ≤ was && s.sharedFree < low then s.raise BPM_INT_STATUS_POOL_LOW else s

/-! ## Allocation, R360, R364 -/

/-- The lowest number from n on that no entry has. -/
def firstGap : Nat → List (Nat × Buf) → Nat
  | n, [] => n
  | n, (k, _) :: t => if k = n then firstGap (n + 1) t else if n < k then n else firstGap n t

/-- The lowest FREE cell, the lowest free page. -/
def State.freeCell (s : State) : Option Nat :=
  let h := firstGap 0 s.bpm.bufs
  if h < cellTotal then some h else none
def State.freePage (s : State) : Option Nat :=
  let h := firstGap pageBase s.bpm.bufs
  if s.handleOk h then some h else none

/-- A buffer CACHED by a requester. -/
def cachedBuf (r : Nat) : Buf := { busy := false, owner := r, count := 0, holders := 0, chain := 0, loss := none }

/-- n cells, FREE before, given as `b` (ALLOC). -/
def State.allocCells (s : State) (b : Buf) : Nat → State × List Nat
  | 0 => (s, [])
  | n + 1 =>
    match s.freeCell with
    | none => (s, [])
    | some h =>
      let (s, hs) := (s.setBuf h b).allocCells b n
      (s, h :: hs)

/-- A requester's refill (R364): the smallest of 64, the room in its cache and what R365 allows it; zero is NONE. -/
def State.refillCache (s : State) (r : Nat) : State :=
  let was := s.sharedFree
  let s := { s with bpm := { s.bpm with last := r } }
  match s.cellsGrant r (min 64 (128 - s.bpmCached r)) with
  | 0 => s.count BPM_REQ_NONE_COUNT (ixI r) 1
  | n => (s.allocCells (cachedBuf r) n).1.poolWatch was

/-- A requester needs n cells: its cache holds them, after a refill where it must (R364). -/
def State.cover (s : State) (r n : Nat) : State × Bool :=
  if n ≤ s.bpmCached r then (s, true)
  else
    let s := s.refillCache r
    (s, n ≤ s.bpmCached r)

/-- The bit of a holder. -/
def holderBit (r : Nat) : BitVec 32 := BitVec.ofNat 32 (2 ^ r)

/-- n cells of a requester's cache become one packet's chain (USE). -/
def State.useCells (s : State) (r n : Nat) (loss : Option (Nat × Nat)) : State × List Nat :=
  let hs := ((s.bpm.bufs.filter fun e => !isPage e.1 && e.2.owner == r && !e.2.busy).map (·.1)).take n
  let c := s.bpm.nextChain + 1
  let s := { s with bpm := { s.bpm with nextChain := c } }
  (hs.foldl (fun s h => s.setBuf h
    { busy := true, owner := r, count := 1, holders := holderBit r, chain := c, loss := loss }) s, hs)

/-- n cells of a port's headroom, held by a slice (R377). -/
def State.useHeadroom (s : State) (r p k n : Nat) : State × List Nat :=
  let c := s.bpm.nextChain + 1
  let s := { s with bpm := { s.bpm with nextChain := c } }
  s.allocCells { busy := true, owner := hdrmOwner p k, count := 1, holders := holderBit r, chain := c,
                 loss := some (p, k) } n

/-! ## Errors, R362, R383 -/

def bufOpDec : Nat := 1
def bufOpRef : Nat := 2
def bufOpReturn : Nat := 3

/-- A buffer operation that does not apply: counted and logged. -/
def State.bufError (s : State) (foreign : Bool) (r op h : Nat) : State :=
  let s := if foreign then (s.count BPM_FOREIGN_FREE_COUNT ix0 1).raise BPM_INT_STATUS_FOREIGN_FREE
    else (s.count BPM_DOUBLE_FREE_COUNT ix0 1).raise BPM_INT_STATUS_DOUBLE_FREE
  let s := s.count BPM_ERR_LOG_COUNT ix0 1
  if s.flag BPM_ERR_LOG_VALID ix0 then s
  else ((((s.set BPM_ERR_LOG_REQ ix0 r).set BPM_ERR_LOG_OP ix0 op).set BPM_ERR_LOG_BUF ix0 h).set BPM_ERR_LOG_KIND ix0
    (ofBool foreign)).set BPM_ERR_LOG_VALID ix0 1

/-- Whether a requester holds a buffer. -/
def Buf.heldBy (b : Buf) (r : Nat) : Bool := b.busy && b.holders.getLsbD r

/-- One reference less on a buffer (R360). -/
def Buf.dec (b : Buf) : Option Buf := if b.count ≤ 1 then none else some { b with count := b.count - 1 }

/-- DEC of one cell, for its holder: the packet's cells leave it one by one (R358, R371). -/
def State.decCell (s : State) (r h : Nat) : State :=
  match s.buf h with
  | none => s.bufError false r bufOpDec h
  | some b =>
    if b.heldBy r then
      match b.dec with
      | none => s.freeBuf h
      | some b => s.setBuf h b
    else s.bufError true r bufOpDec h

/-- n references more on cells, for a holder (REF). -/
def State.refCells (s : State) (holder n : Nat) (hs : List Nat) : State :=
  hs.foldl (fun s h =>
    match s.buf h with
    | none => s
    | some b => s.setBuf h { b with count := b.count + n, holders := b.holders ||| holderBit holder }) s

/-- The buffers of a chain (R358). -/
def State.chainOf (s : State) (b : Buf) : List Nat :=
  (s.bpm.bufs.filter fun e => e.2.busy && e.2.chain == b.chain).map (·.1)

/-- The cycle of BPM, at 1.25 GHz (spec/01_architecture.md R43). -/
def State.bpmCycle (s : State) : Nat := s.now / 4

/-- The DECs of this cycle: of a buffer their number, and what it held before the first (R362). -/
def State.decsNow (s : State) : List (Nat × Nat × Buf) := if s.bpm.cycle = s.bpmCycle then s.bpm.decs else []

/-- A DEC of a buffer in this cycle, to be undone should a REF of the same cycle come before it (R362). -/
def State.noteDec (s : State) (h : Nat) : State :=
  match s.buf h with
  | none => s
  | some b =>
    let e := match tblFind h s.decsNow with
      | some (k, was) => (k + 1, was)
      | none => (1, b)
    { s with bpm := { s.bpm with cycle := s.bpmCycle, decs := tblPut h e s.decsNow } }

/-- n references to a buffer that met DECs in this cycle: the REF first, then the DECs (R362). A buffer that another
chain has taken meanwhile stays as it is. -/
def State.refBefore (s : State) (holder n h k : Nat) (b : Buf) : State :=
  let b := { b with count := b.count + n, holders := b.holders ||| holderBit holder }
  let mine : Bool := match s.buf h with
    | none => true
    | some c => c.busy && c.chain == b.chain
  let s := { s with bpm := { s.bpm with decs := tblPut h (k, b) s.bpm.decs } }
  if mine && k < b.count then s.setBuf h { b with count := b.count - k } else s

/-! ## The commands -/

/-- ALLOC: a FREE buffer enters a requester's cache, when R365 grants it one more (R360, R364). Only the deep mover
allocates pages (R363). -/
def alloc (r : Fin 32) (h : BitVec 32) (s : State) : State :=
  let h := h.toNat
  let r := r.val
  if !s.handleOk h || (s.buf h).isSome || 22 ≤ r || !s.domUp domQC then s
  else if isPage h then (if r = 20 then s.setBuf h (cachedBuf r) else s)
  else if s.cellsOk r 1 && s.bpmCached r < 128 then
    let was := s.sharedFree
    (s.setBuf h (cachedBuf r)).poolWatch was
  else s

/-- USE: a CACHED buffer becomes BUSY (R360). -/
def bufUse (r : Fin 32) (h : BitVec 32) (s : State) : State :=
  match s.buf h.toNat with
  | none => s
  | some b =>
    if b.busy || b.owner != r.val then s
    else
      let c := s.bpm.nextChain + 1
      let s := { s with bpm := { s.bpm with nextChain := c } }
      s.setBuf h.toNat { b with busy := true, count := 1, holders := holderBit r.val, chain := c }

/-- REF: references to a chain, for a holder; refused above 255 (R360, R361), rejected from a requester that does not
hold it, and before every DEC of the same cycle (R362). -/
def bufRef (r : Fin 32) (h : BitVec 32) (n : BitVec 8) (holder : Fin 32) (s : State) : State :=
  let decs := s.decsNow
  match (tblFind h.toNat decs).map (·.2) |>.or (s.buf h.toNat) with
  | none => s.bufError true r.val bufOpRef h.toNat
  | some b =>
    if !b.heldBy r.val then s.bufError true r.val bufOpRef h.toNat
    else if 255 < b.count + n.toNat then s
    else
      let hit := decs.filter fun e => e.2.2.chain == b.chain
      let s := s.refCells holder.val n.toNat ((s.chainOf b).filter fun x => !hit.any fun e => e.1 == x)
      hit.foldl (fun s e => s.refBefore holder.val n.toNat e.1 e.2.1 e.2.2) s

/-- RETURN: a CACHED buffer of its owner becomes FREE (R360, R362). A BUSY buffer, which no requester may return,
is left as it is. -/
def bufReturn (r : Fin 32) (h : BitVec 32) (s : State) : State :=
  match s.buf h.toNat with
  | none => s.bufError false r.val bufOpReturn h.toNat
  | some b =>
    if b.owner != r.val then s.bufError true r.val bufOpReturn h.toNat
    else if b.busy then s
    else s.freeBuf h.toNat

/-- CACHE_IDLE_RETURN: a cached buffer unused for 10 µs goes back (R360). -/
def cacheIdleReturn (h : BitVec 32) (s : State) : State :=
  match s.buf h.toNat with
  | some b => if b.busy then s else s.freeBuf h.toNat
  | none => s

/-- The requesters whose turn comes between the one last served and r (R364). -/
def State.turnsBefore (s : State) (r : Nat) : List Nat :=
  ((List.range 32).map fun i => (s.bpm.last + 1 + i) % 32).takeWhile (· != r)

/-- A requester's cache is below 64, and there are cells that it may have. -/
def State.refillable (s : State) (r : Nat) : Bool :=
  r < 22 && s.bpmCached r < 64 && s.cellsGrant r (min 64 (128 - s.bpmCached r)) != 0

/-- REFILL: the allocator serves a requester whose cache is below 64, and before it those that ask and whose turn comes
first (R364); requesters 22 to 31 never ask (R363). -/
def refill (r : Fin 32) (s : State) : State :=
  if 22 ≤ r.val || !s.domUp domQC || 64 ≤ s.bpmCached r.val then s
  else ((s.turnsBefore r.val).foldl (fun s x => if s.refillable x then s.refillCache x else s) s).refillCache r.val

/-- REFILL_RETRY_EXPIRY: the 64 cycles of a requester that retries end without a grant (R363, R364): what it waits
with is given up at its next turn. -/
def refillRetryExpiry (r : Fin 32) (s : State) : State :=
  if [17, 19, 20].contains r.val && !s.bpm.spent.contains r.val then
    { s with bpm := { s.bpm with spent := r.val :: s.bpm.spent } }
  else s

/-- How a request of a requester that retries fares (R363): covered, waiting, given up. -/
inductive Retry where
  | covered | waits | gaveUp
  deriving DecidableEq, Repr

/-- A requester that retries asks for n cells. -/
def State.coverRetry (s : State) (r n : Nat) : State × Retry :=
  let (s, ok) := s.cover r n
  let rest := { s with bpm := { s.bpm with spent := s.bpm.spent.filter (· != r) } }
  if ok then (rest, .covered) else if s.bpm.spent.contains r then (rest, .gaveUp) else (s, .waits)

/-- A TX packet's cells, as requester 19 (R363, spec/05_rings_mailboxes_locks.md R148); they go back to the cache once
the packet has entered its host port. -/
def State.hostDma (s : State) (len : Nat) : State × Retry := s.coverRetry 19 (cellsOf len)

end Sys2Proof.Machine
end

