-- ==== Sys2Proof/Machine/Queues.lean ====
section
/-!
DEFINITION. Machine/Queues.lean: packets entering and leaving queues: admission, lossless classes, the credit that a
departure gives back, and the high-water marks (spec/12_buffering.md R368 to R377, spec/14_scheduling.md R423, R440).
-/
namespace Sys2Proof.Machine

open Fld

/-! ## Lossless classes, R375 to R377 -/

/-- An Ethernet port that transmits sends a PFC frame; at electrical idle none leaves, and FlexE clients send none
(spec/06_line_flexe.md R177 to R179, R182). -/
def State.sendPfc (s : State) (p cls quanta : Nat) : State :=
  if s.portTx p && s.macOf p == some .ether then (s.emit (.pfc p cls quanta)).count LIN_PFC_TX_COUNT (portIx p) 1 else s

/-- Admission asks for XOFF of a port and class (R376). -/
def State.xoff (s : State) (p k : Nat) : State :=
  if s.lin.xoff.contains (8 * p + k) then s
  else ({ s with lin := { s.lin with xoff := s.lin.xoff ++ [8 * p + k] } }).sendPfc p k (s.fld LIN_PORT_CFG_PFC_QUANTA (portIx p))

/-- A port and class whose cells have reached XOFF is asked to stop (R376). -/
def State.xoffWatch (s : State) (loss : Option (Nat × Nat)) : State :=
  match loss with
  | none => s
  | some (p, k) => if s.fld ADM_PFC_XOFF (ixI p) ≤ s.inCells p k then s.xoff p k else s

/-- The requests whose port and class are at or below XON without headroom are released (R376). -/
def State.xonWatch (s : State) : State :=
  s.lin.xoff.foldl (fun s x =>
    let p := x / 8
    let k := x % 8
    if s.inCells p k ≤ s.fld ADM_PFC_XON (ixI p) && s.hdrmClass p k = 0 then
      ({ s with lin := { s.lin with xoff := s.lin.xoff.filter (· != x) } }).sendPfc p k 0
    else s) s

/-! ## Leaving a queue -/

/-- The cells of a packet are given up: those on die by DEC for their holder (R360); XOFF requests that this satisfies
are released (R376). -/
def State.dropCells (s : State) (cs : List CellAt) : State :=
  (cs.foldl (fun s c =>
    match c with
    | .die h r => s.decCell r h
    | .moving h r _ => s.decCell r h
    | .deep _ => s) s).xonWatch

/-- BUF_DEC: one reference to a chain less (R360, R362, R376). -/
def bufDec (r : Fin 32) (h : BitVec 32) (s : State) : State :=
  match s.buf h.toNat with
  | none => s.bufError false r.val bufOpDec h.toNat
  | some b =>
    if !b.heldBy r.val then s.bufError true r.val bufOpDec h.toNat
    else ((s.chainOf b).foldl (fun s x => (s.noteDec x).decCell r.val x) s).xonWatch

/-- A cell lies in a page, or is being written to it. -/
def CellAt.inPage (g : Nat) : CellAt → Bool
  | .die _ _ => false
  | .moving _ _ p => p == g
  | .deep p => p == g

/-- The pages of a queue that hold nothing any more are freed. -/
def State.trimPages (s : State) (q : Nat) : State :=
  let x := s.queue q
  let cs := x.cells
  let empty := x.pages.filter fun g => !cs.any (CellAt.inPage g.h)
  empty.foldl (fun s g => s.freeBuf g.h)
    (s.setQueue q { x with pages := x.pages.filter fun g => cs.any (CellAt.inPage g.h) })

/-- HEAD_CELLS as it acts (R387). -/
def State.headCells (s : State) (q : Nat) : Nat := max 16 (s.fld ADM_PROF0_HEAD_CELLS (ixI (s.profOf q)))

/-- The page of the first cell of a queue that is in deep memory, and the cells on die ahead of it. -/
def Queue.nextPage (x : Queue) : Option (Nat × Nat) :=
  let ahead := x.cells.takeWhile CellAt.onDie
  match x.cells.drop ahead.length with
  | .deep h :: _ => some (h, ahead.length)
  | _ => none

/-- Fewer than HEAD_CELLS ÷ 2 cells of a queue remain on die ahead of its deep part (R371). -/
def State.refillWanted (s : State) (q : Nat) : Bool :=
  match (s.queue q).nextPage with
  | some (_, ahead) => 2 * ahead < s.headCells q
  | none => false

/-- A queue that needs its next page asks for it, behind those that have asked before (R372); one that needs none any
more asks no longer. -/
def State.refillWatch (s : State) (q : Nat) : State :=
  let asked := s.adm.reads.filter s.refillWanted
  { s with adm := { s.adm with reads := if s.refillWanted q && !asked.contains q then asked ++ [q] else asked } }

/-- A queue leaves deep mode once its deep part is empty and Q is at most half of EVICT_CELLS (R371). That its last
eviction was refused stands until it obtains a page (R373). -/
def State.deepSettle (s : State) (q : Nat) : State :=
  let x := s.queue q
  if x.deepMode && x.pages.isEmpty && x.onDie ≤ s.fld ADM_PROF0_EVICT_CELLS (ixI (s.profOf q)) / 2 then
    s.setQueue q { x with deepMode := false }
  else s

/-- Packets that a flush of a queue had still to drop have left it (spec/14_scheduling.md R416). -/
def State.flushLess (s : State) (q n : Nat) : State :=
  match s.qsc.flush with
  | some (f, left) => if f = q then { s with qsc := { s.qsc with flush := some (f, left - n) } } else s
  | none => s

/-- The first n packets leave a queue; their cells are given up. -/
def State.popQueue (s : State) (q n : Nat) : State × List QPkt :=
  let x := s.queue q
  let go := x.pkts.take n
  let s := (s.setQueue q { x with pkts := x.pkts.drop n }).flushLess q go.length
  ((((s.dropCells (go.flatMap (·.cells))).trimPages q).deepSettle q).refillWatch q, go)

/-- USED of a class falls by the bytes of a packet, to 0 at the least (spec/14_scheduling.md R423). -/
def State.usedDown (s : State) (pg k n : Nat) : State :=
  s.set CRD_CLASS_USED (ixIJ pg k) (s.fld CRD_CLASS_USED (ixIJ pg k) - n)

/-! ## The stream of a VOQ, spec/15_fabric.md R471, R472 -/

/-- A packet's prefix (R471). -/
def prefixOf (p : QPkt) : List Byte :=
  let t := p.ts.getD (0, 0)
  beBytes 2 p.bytes.length ++ beBytes 2 (p.dport * 128) ++ beBytes 4 (p.rewrite * 2048 + 1024 * ofBool p.ts.isSome)
    ++ beBytes 4 t.1 ++ beBytes 4 t.2

/-- Bytes join the cell being cut; cells that are full go out with their PTR. -/
def cutBytes (limit : Nat) : Nat → List Byte → Nat → List Byte → List (List Byte × Nat) × List Byte × Nat
  | 0, frag, ptr, _ => ([], frag, ptr)
  | fuel + 1, frag, ptr, bs =>
    let room := limit - frag.length
    if bs.length < room then ([], frag ++ bs, ptr)
    else
      let (cs, f, p) := cutBytes limit fuel [] 0x1FF (bs.drop room)
      ((frag ++ bs.take room, ptr) :: cs, f, p)

/-- A packet joins the stream; a prefix never straddles two cells. -/
def cutPacket (limit : Nat) (frag : List Byte) (ptr : Nat) (p : QPkt) : List (List Byte × Nat) × List Byte × Nat :=
  let body := prefixOf p ++ p.bytes
  if limit - frag.length < 16 then
    let (cs, f, q) := cutBytes limit 80 [] 0 body
    ((bytesAt frag 0 (max limit frag.length), ptr) :: cs, f, q)
  else cutBytes limit 80 frag (if ptr = 0x1FF then frag.length else ptr) body

/-- A payload padded to a size that a cell can have. -/
def padCell (leg : Bool) (b : List Byte) : List Byte :=
  bytesAt b 0 (if leg then (b.length + 63) / 64 * 64 else max 64 ((b.length + 31) / 32 * 32))

/-- A data cell of a VOQ takes its SEQ and its link (R469, R472, R480); one that no link can carry is lost. -/
def State.sendData (s : State) (q : Nat) (c : List Byte × Nat) : State :=
  let a := s.voqAddr q
  let leg := (s.spray a false).isEmpty
  let seq := tblGet 0 s.fab.seqs a
  let s := { s with fab := { s.fab with seqs := tblPut a ((seq + 1) % 2 ^ 32) s.fab.seqs } }
  if leg && 256 < c.1.length then s
  else
    let cell := s.dataCellBytes leg a (q / 8 % 32) (q % 8) seq c.2 (padCell leg c.1)
    s.putCell (s.spray a leg) (fun x => { x with txData := x.txData ++ [cell] })

/-- The grant's stream ends: its last cell is cut short and padded (R471). -/
def State.closeStream (s : State) (q : Nat) : State :=
  let x := s.queue q
  if x.frag.isEmpty then s
  else (s.sendData q (x.frag, x.fragPtr)).modQueue q fun x => { x with frag := [], fragPtr := 0x1FF }

/-- A dequeued packet joins its VOQ's stream. -/
def State.stream (s : State) (q : Nat) (p : QPkt) : State :=
  let x := s.queue q
  let limit := if (s.spray (s.voqAddr q) false).isEmpty then 256 else 448
  let (cs, f, ptr) := cutPacket limit x.frag x.fragPtr p
  (cs.foldl (fun s c => s.sendData q c) s).modQueue q fun x => { x with frag := f, fragPtr := ptr }

/-- A VOQ that is empty ends its stream, and returns a positive balance to the module that granted last
(spec/14_scheduling.md R420, spec/15_fabric.md R474); one without credit ends its stream and is eligible no more
(R419). -/
def State.voqSettle (s : State) (q : Nat) : State :=
  let x := s.queue q
  let s := if x.pkts.isEmpty || x.balance ≤ 0 then s.closeStream q else s
  let s := if x.balance ≤ 0 then { s with qsc := { s.qsc with elig := s.qsc.elig.filter (· != q) } } else s
  if x.pkts.isEmpty && 0 < x.balance then
    let s := { s with qsc := { s.qsc with elig := s.qsc.elig.filter (· != q) } }
    (s.modQueue q fun x => { x with balance := 0 }).sendMsg x.granter (.creditReturn (q / 8 % 32) (q % 8) x.balance.toNat)
  else s

/-! ## The hierarchy's ancestors, spec/14_scheduling.md R426 -/

/-- The parent of a node, and the port above an egress queue. -/
def State.parentOf (s : State) (level i : Nat) : Nat := bitsOf (s.rd .qscNodeStore (ixIJ level i)).toNat 16 18
def State.portOfQueue (s : State) (q : Nat) : Nat :=
  s.parentOf 1 (s.parentOf 2 (s.parentOf 3 (s.parentOf 4 (q - s.voqEnd))))

/-- Bytes queued below an L0 node. -/
def State.portBytes (s : State) (p : Nat) : Nat :=
  s.qsc.qs.foldl (fun a e => if s.voqEnd ≤ e.1 && s.portOfQueue e.1 == p then a + e.2.bytes else a) 0

/-- The marks of a port take larger values (R440). -/
def State.portMark (s : State) (p bytes ns : Nat) : State :=
  let m := tblGet (0, 0) s.qsc.portHwm p
  { s with qsc := { s.qsc with portHwm := tblPut p (max m.1 bytes, max m.2 ns) s.qsc.portHwm } }

/-- The nodes from the port down to an egress queue. -/
def State.pathOf (s : State) (q : Nat) : List Nat :=
  let l4 := q - s.voqEnd
  let l3 := s.parentOf 4 l4
  let l2 := s.parentOf 3 l3
  let l1 := s.parentOf 2 l2
  [s.parentOf 1 l1, l1, l2, l3, l4]

/-- A node's buckets and deficit are filed under its level and index; policers have level 5. -/
def nodeKey (level i : Nat) : Nat := level * 2 ^ 20 + i

/-- A child's deficit among its siblings (spec/14_scheduling.md R429). -/
def State.deficit (s : State) (level i : Nat) : Int := tblGet 0 s.qsc.deficits (nodeKey level i)
def State.setDeficit (s : State) (level i : Nat) (d : Int) : State :=
  { s with qsc := { s.qsc with deficits := if d = 0 then tblDel (nodeKey level i) s.qsc.deficits
                                           else tblPut (nodeKey level i) d s.qsc.deficits } }

/-- A node has no packet below it. -/
def State.nodeEmpty (s : State) (level i : Nat) : Bool :=
  s.qsc.qs.all fun e => e.2.pkts.isEmpty || e.1 < s.voqEnd || (s.pathOf e.1).getD level 0 != i

/-- Packets have left an egress queue: a child above it that has emptied loses a positive deficit
(spec/14_scheduling.md R429). -/
def State.emptied (s : State) (q : Nat) : State :=
  (List.range 4).foldl (fun s l =>
    let n := (s.pathOf q).getD (l + 1) 0
    if 0 < s.deficit (l + 1) n && s.nodeEmpty (l + 1) n then s.setDeficit (l + 1) n 0 else s) s

/-! ## Drops in a queue -/

/-- Packets of a queue are dropped under a cause; a queue at the destination gives their credit back (R423). -/
def State.dropHead (s : State) (q n cause : Nat) : State :=
  let (s, go) := s.popQueue q n
  let s := go.foldl (fun s p =>
    let s := s.countDrop cause p.bytes.length p.port 0
    if s.voqEnd ≤ q then s.usedDown p.pg p.cls p.bytes.length else s) s
  if q < s.voqEnd then s.voqSettle q else s.emptied q

/-! ## Entering a queue -/

/-- A packet joins a queue: the depth mark (R440) and deep mode (R371). -/
def State.enqueue (s : State) (q : Nat) (p : QPkt) : State :=
  let x := s.queue q
  let x := { x with pkts := x.pkts ++ [p] }
  let x := { x with hwmBytes := max x.hwmBytes x.bytes }
  let voq : Bool := decide (q < s.voqEnd)
  let deep := x.deepMode || (voq && s.flag ADM_PROF0_DEEP_EN (ixI (s.profOf q))
    && s.fld ADM_PROF0_EVICT_CELLS (ixI (s.profOf q)) < x.onDie)
  let s := s.setQueue q { x with deepMode := deep }
  let s := if voq then s else s.portMark (s.portOfQueue q) (s.portBytes (s.portOfQueue q)) 0
  s.xoffWatch p.loss

/-- The place of the first cell that the mover may take: behind the deep part and the first HEAD_CELLS cells (R371). -/
def Queue.evictFrom (x : Queue) (head : Nat) : Nat :=
  let cs := x.cells
  let tail := (cs.reverse.takeWhile fun c => match c with | .die _ _ => true | _ => false).length
  max head (cs.length - tail)

/-- The cells that wait for a write slot. -/
def State.evictable (s : State) (q : Nat) : Nat :=
  let x := s.queue q
  if x.deepMode then x.cells.length - x.evictFrom (s.headCells q) else 0

/-- The cause of a drop at tests 3 and 4 of R369. -/
def State.fullCause (s : State) (q cause : Nat) : Nat :=
  if (s.queue q).refused then causeDeepFull else if s.evictable q != 0 then causeDeepSaturated else cause

/-- A drop at admission (R369, R374, R379). -/
def State.admitDrop (s : State) (q cause len port : Nat) : State :=
  let s := if cause = causeDeepSaturated then
      (s.count ADM_DEEP_SAT_COUNT (ixI (q % 8)) 1).raise ADM_INT_STATUS_DEEP_SAT
    else s
  s.countDrop cause len port q

/-- Test 4 of R369. -/
def State.queueOk (s : State) (q n : Nat) : Bool :=
  let f := ixI (s.profOf q)
  let m := s.fld ADM_PROF0_MIN_CELLS f
  let u := (s.queue q).onDie
  u + n ≤ m || (u - m + n) * 64 ≤ 2 ^ (min 9 (s.fld ADM_PROF0_ALPHA f)) * s.sharedFree

/-- How admission judges an arrival: admitted, admitted from headroom, dropped. -/
inductive Verdict where
  | enter | headroom | drop (cause : Nat)
  deriving DecidableEq, Repr

/-- The lossless path (R377); a copy, whose cells exist, takes none. -/
def State.lossless (s : State) (p n : Nat) (copy : Bool) : Verdict :=
  if copy || s.hdrmUsed p + n ≤ s.fld ADM_PFC_HDRM (ixI p) then .headroom else .drop causeHeadroomOverflow

/-- R369: an arrival of n cells and `len` bytes for queue q, for a requester, or a copy (none). -/
def State.judge (s : State) (q n len : Nat) (req : Option Nat) (loss : Option (Nat × Nat)) : State × Verdict :=
  if s.fld ADM_PROF1_MAX_BYTES (ixI (s.profOf q)) < (s.queue q).bytes + len then (s, .drop causeQueueMax)
  else
    let inXoff : Bool := match loss with
      | some (p, k) => s.lin.xoff.contains (8 * p + k)
      | none => false
    let fails := fun (s : State) (cause : Nat) =>
      match loss with
      | some (p, k) => (s.xoff p k, s.lossless p n req.isNone)
      | none => (s, Verdict.drop (s.fullCause q cause))
    if inXoff then (s, s.lossless (loss.getD (0, 0)).1 n req.isNone)
    else
      let (s, ok) := match req with
        | some r => s.cover r n
        | none => (s, true)
      if !ok then fails s causePoolEmpty
      else if s.queueOk q n then (s, .enter)
      else fails s causeQueueFull

/-- The cells of a packet that arrives with cells of its own (a copy, R370). -/
def ownCells (holder : Nat) (hs : List Nat) : List CellAt := hs.map fun h => .die h holder

/-- An arrival is judged and enters its queue, or is dropped with its cause (R369, R370, R377). `have_` are the cells
that a copy already holds; otherwise requester `req` gives them. -/
def State.judged (s : State) (q req : Nat) (have_ : Option (List Nat)) (p : QPkt) : State × Bool :=
  let n := cellsOf p.bytes.length
  let asks := match have_ with
    | some _ => none
    | none => some req
  let (s, v) := if s.flag QSC_CTRL_RUN ix0 then s.judge q n p.bytes.length asks p.loss else (s, .drop causeQueueFlush)
  match v with
  | .drop c =>
    let s := if c = causeHeadroomOverflow then s.raise ADM_INT_STATUS_HDRM_OVERFLOW else s
    let s := match have_ with
      | some hs => s.dropCells (ownCells req hs)
      | none => s
    (s.admitDrop q c p.bytes.length p.port, false)
  | v =>
    let (s, hs) := match have_, v, p.loss with
      | some hs, _, _ => (s, hs)
      | none, .headroom, some (port, k) => s.useHeadroom req port k n
      | none, _, _ => s.useCells req n p.loss
    (s.enqueue q { p with cells := ownCells req hs, enq := s.now }, true)

/-- An arrival for a queue; during a flush of that queue it waits for the end of the flush (R416), unless QSC is STOPPED
and drops it (R414). -/
def State.takeIn (s : State) (q req : Nat) (have_ : Option (List Nat)) (p : QPkt) : State × Bool :=
  if s.flag QSC_CTRL_RUN ix0 && s.qsc.flush.any (fun f => f.1 == q) then
    ({ s with qsc := { s.qsc with late := s.qsc.late ++ [⟨q, req, have_, p⟩] } }, true)
  else s.judged q req have_ p

/-- What has arrived during a flush is judged in its order (R416), for a VOQ whose address drops by now
(spec/15_fabric.md R470) as any arrival; a drop at the destination gives its credit back
(spec/14_scheduling.md R423). -/
def State.takeLate (s : State) : State :=
  s.qsc.late.foldl (fun s (a : LateArr) =>
    if a.q < s.voqEnd && s.fab.dropping.contains (s.voqAddr a.q) then
      let s := match a.cells with
        | some hs => s.dropCells (ownCells a.req hs)
        | none => s
      s.admitDrop a.q causeFabricUnreachable a.pkt.bytes.length a.pkt.port
    else
      match s.judged a.q a.req a.cells a.pkt with
      | (s, true) => s
      | (s, false) => if s.voqEnd ≤ a.q then s.usedDown a.pkt.pg a.pkt.cls a.pkt.bytes.length else s)
    { s with qsc := { s.qsc with late := [] } }

end Sys2Proof.Machine
end

