-- ==== Sys2Proof/Machine/Shaper.lean ====
section
/-!
DEFINITION. Machine/Shaper.lean: the buckets of nodes and policers, and the DRAM counters that policers count in
(spec/14_scheduling.md R431, R432, R439, spec/13_memory.md R396, R401).
-/
namespace Sys2Proof.Machine

open Fld

/-! ## DRAM counters, spec/13_memory.md R396, R401, R402 -/

/-- The channels of a cluster can be accessed: RUN is 1, the cluster is up and READY, and not in self-refresh (R397,
R402, R407). -/
def State.clusterUp (s : State) (n : Nat) : Bool :=
  s.flag DDC_CTRL_RUN ix0 && s.domUp (domDC n) && s.gen.ready.getLsbD (domDC n) && !s.gen.selfRefresh

/-- DRAM can be accessed: a stripe has a burst in every cluster (R393). -/
def State.dramUp (s : State) : Bool := (List.range 9).all s.clusterUp

/-- The counter pairs that exist (R396). -/
def State.pairTotal (s : State) : Nat := s.fld DDC_PART_CNT_GIB ix0 * 67108864

/-- A packet counted in a DRAM counter pair; both counts wrap, and an invalid pair ignores it (R396, R401). -/
def State.countDram (s : State) (n bytes : Nat) : State :=
  if !s.dramUp || s.pairTotal ≤ n || s.ddc.invalid.contains n then s
  else
    let c := tblGet (0, 0) s.ddc.pairs n
    { s with ddc := { s.ddc with pairs := tblPut n ((c.1 + 1) % 2 ^ 64, (c.2 + bytes) % 2 ^ 64) s.ddc.pairs } }

/-! ## Buckets, R431 -/

/-- Units of a byte in a bucket: a slot's gain of 0.0000256 byte for each unit of rate is 256 of them. -/
def byteUnits : Nat := 10000000

/-- Rate and burst as they act (R431). -/
def shpRate (v : W64) : Nat := min 25000000 (SHP_CIR_RATE.get v)
def shpBurst (v : W64) : Nat := min 16777216 (SHP_CIR_BURST.get v) * byteUnits

/-- The scheduler slot that it is (R427, every 3.2 ns). -/
def State.slotNow (s : State) : Nat := s.now / 16

/-- A bucket after n slots: it never rises above its burst, which never limits a debt (R431, R432). -/
def fill (x : Int) (rate burst n : Nat) : Int :=
  let y := x + (rate * 256 * n : Nat)
  if (burst : Int) < y then max x burst else y

/-- A node's or policer's buckets as they stand now. A single-rate policer's excess goes to its second bucket (R439). -/
def State.bucket (s : State) (level i : Nat) : Bucket :=
  let b := tblGet ⟨0, 0, 0⟩ s.qsc.buckets (nodeKey level i)
  let n := s.slotNow - b.at_
  let c := s.rd .shpCirStore (ixIJ level i)
  let p := s.rd .shpPirStore (ixIJ level i)
  let cir := fill b.cir (shpRate c) (shpBurst c) n
  if level = 5 && SHP_POL_CFG_MODE.get (s.rd .shpPolStore (ixIJ 5 i)) = 1 then
    let spare := b.cir + (shpRate c * 256 * n : Nat) - cir
    ⟨cir, min (max b.pir (shpBurst p)) (b.pir + spare), s.slotNow⟩
  else ⟨cir, fill b.pir (shpRate p) (shpBurst p) n, s.slotNow⟩

def State.setBucket (s : State) (level i : Nat) (b : Bucket) : State :=
  { s with qsc := { s.qsc with buckets := tblPut (nodeKey level i) b s.qsc.buckets } }

/-- The buckets of a node before its rates change: what it gained so far is kept (R432). -/
def State.settleBucket (s : State) (level i : Nat) : State := s.setBucket level i (s.bucket level i)

/-- After new values apply to a node's CIR or PIR: CLEAR_DEBT sets a negative bucket to 0 and acts no further, and a
lower burst clips (R432); a policer ignores CLEAR_DEBT (R449). -/
def State.newRates (s : State) (level i : Nat) : State :=
  let b := s.bucket level i
  let c := s.rd .shpCirStore (ixIJ level i)
  let p := s.rd .shpPirStore (ixIJ level i)
  let clear := fun (v : W64) (x : Int) => if SHP_CIR_CLEAR_DEBT.get v = 1 && level != 5 && x < 0 then 0 else x
  let clip := fun (v : W64) (x : Int) => if (shpBurst v : Int) < x then (shpBurst v : Int) else x
  let s := s.setBucket level i ⟨clip c (clear c b.cir), clip p (clear p b.pir), s.slotNow⟩
  let off := fun (v : W64) => v &&& ~~~SHP_CIR_CLEAR_DEBT.mask
  (s.wr .shpCirStore (ixIJ level i) (off c)).wr .shpPirStore (ixIJ level i) (off p)

/-! ## Policers, R439 -/

/-- A packet's colour. -/
inductive Colour where
  | green | yellow | red
  deriving DecidableEq, Repr

/-- The colour that a colour map gives key-vector byte 65 (R439, R450). -/
def State.preColour (s : State) (map : Nat) (tos : Byte) : Colour :=
  let d := tos.toNat / 4
  match bitsOf (s.rd .shpColorMap (ixIJ map (d / 32))).toNat (2 * (d % 32)) 2 with
  | 0 => .green
  | 1 => .yellow
  | _ => .red

/-- The meters of IETF RFC 2697 and RFC 2698: the colour, and the buckets after the packet. -/
def meter (mode : Nat) (pre : Colour) (c p len : Int) : Colour × Int × Int :=
  if mode = 1 then
    if pre == .green && len ≤ c then (.green, c - len, p)
    else if pre != .red && len ≤ p then (.yellow, c, p - len)
    else (.red, c, p)
  else
    if pre == .red || p < len then (.red, c, p)
    else if pre == .yellow || c < len then (.yellow, c, p - len)
    else (.green, c - len, p - len)

/-- A packet metered by policer n: its colour, counted where CNT_EN says so. -/
def State.police (s : State) (n len : Nat) (tos : Byte) : State × Colour :=
  let cfg := s.rd .shpPolStore (ixIJ 5 n)
  let mode := SHP_POL_CFG_MODE.get cfg
  let b := s.bucket 5 n
  let pre := if SHP_POL_CFG_AWARE.get cfg = 1 then s.preColour (SHP_POL_CFG_MAP.get cfg) tos else .green
  let (col, c, p) := if mode = 1 || mode = 2 then meter mode pre b.cir b.pir (len * byteUnits : Nat) else (.green, b.cir, b.pir)
  let s := s.setBucket 5 n ⟨c, p, s.slotNow⟩
  let k := match col with | .green => 0 | .yellow => 1 | .red => 2
  (if SHP_POL_CFG_CNT_EN.get cfg = 1 then s.countDram (SHP_POL_CFG_CNT.get cfg + k) len else s, col)

/-- What the colour does: none drops with cause POLICED, else the class to go on in. -/
def State.policed (s : State) (n cls : Nat) (col : Colour) : Option Nat :=
  let cfg := s.rd .shpPolStore (ixIJ 5 n)
  match col with
  | .green => some cls
  | .yellow =>
    match SHP_POL_CFG_YELLOW_ACT.get cfg with
    | 1 => none
    | 2 => some (SHP_POL_CFG_YELLOW_CLASS.get cfg)
    | _ => some cls
  | .red => if SHP_POL_CFG_RED_ACT.get cfg = 1 then some cls else none

end Sys2Proof.Machine
end

