-- ==== Sys2Proof/Machine/Admission.lean ====
section
/-!
DEFINITION. Machine/Admission.lean: packets from the ingress pipelines reach admission: policing, roles, mirror copies,
their VOQ or the replicator (spec/12_buffering.md R368 to R377, spec/14_scheduling.md R413, R439,
spec/15_fabric.md R470, spec/16_egress_rewrite.md R503).
-/
namespace Sys2Proof.Machine

open Fld

/-- The requester that a packet's cells are asked from (R363): its slice, or recirculation. -/
def requesterOf (port : Nat) : Nat :=
  if port < 256 then port / 16 else if port % 2 = 1 then 21 else (port - 256) / 2

/-- The port and class of a lossless packet (R375): PFC_EN counts at the lowest lane of an Ethernet port alone
(spec/06_line_flexe.md R182, R185). -/
def State.lossOf (s : State) (port cls : Nat) : Option (Nat × Nat) :=
  if port < 256 && s.macOf port == some .ether && bitAt (s.fld LIN_PORT_CFG_PFC_EN (portIx port)) cls then some (port, cls)
  else none

/-- A packet for a destination module's VOQ: while QSC is STOPPED (R414), without a VOQ for it (R413), or while its
address drops (R470), it is dropped; otherwise it is judged. -/
def State.toVoq (s : State) (m req : Nat) (have_ : Option (List Nat)) (p : QPkt) : State :=
  let q := s.voqOf m p.pg p.cls
  let run := s.flag QSC_CTRL_RUN ix0
  if !run || s.voqEnd ≤ q || s.fab.dropping.contains (s.addrOf m) then
    let s := match have_ with
      | some hs => s.dropCells (ownCells req hs)
      | none => s
    s.admitDrop (if s.voqEnd ≤ q then 0 else q) (if run then causeFabricUnreachable else causeQueueFlush) p.bytes.length
      p.port
  else (s.takeIn q req have_ p).1

/-- A copy for a mirror session, made by the mirror engine as requester 18 (spec/16_egress_rewrite.md R503). -/
def State.mirrorCopy (s : State) (m : Nat) (bytes : List Byte) (ts : Option (Nat × Nat)) (port : Nat) : State :=
  let x := ixI m
  if m = 0 || !s.flag EGR_MIRROR0_EN x then s
  else
    let t := s.fld EGR_MIRROR1_TRUNC x
    let bytes := if t = 0 then bytes else bytes.take (64 * t)
    let (s, ok) := s.cover 18 (cellsOf bytes.length)
    if !ok then s.countDrop causePoolEmpty bytes.length port 0
    else
      let (s, hs) := s.useCells 18 (cellsOf bytes.length) none
      s.toVoq (s.fld EGR_MIRROR0_DEST_MOD x) 18 (some hs)
        { bytes := bytes, cells := [], port := port, pg := s.fld EGR_MIRROR0_PORT_GROUP x,
          cls := s.fld EGR_MIRROR0_CLASS x, dport := s.fld EGR_MIRROR0_DEST_PORT x,
          rewrite := if s.flag EGR_MIRROR1_REWRITE_EN x then s.fld EGR_MIRROR1_REWRITE x else 0,
          ts := ts, enq := s.now, loss := none }

/-- The cells of a packet that goes to the replicator: its requester's, or for a lossless packet the headroom's (R363,
R376, R377); or the cause of its drop. -/
def State.groupCells (s : State) (req n : Nat) (loss : Option (Nat × Nat)) : State × Except Nat (List Nat) :=
  let head := fun (s : State) (p k : Nat) =>
    if s.hdrmUsed p + n ≤ s.fld ADM_PFC_HDRM (ixI p) then
      let (s, hs) := s.useHeadroom req p k n
      (s, Except.ok hs)
    else (s.raise ADM_INT_STATUS_HDRM_OVERFLOW, Except.error causeHeadroomOverflow)
  let plain := fun (s : State) =>
    let (s, ok) := s.cover req n
    if ok then
      let (s, hs) := s.useCells req n loss
      (s.xoffWatch loss, some hs)
    else (s, none)
  match loss with
  | none =>
    match plain s with
    | (s, some hs) => (s, .ok hs)
    | (s, none) => (s, .error causePoolEmpty)
  | some (p, k) =>
    if s.lin.xoff.contains (8 * p + k) then head s p k
    else
      match plain s with
      | (s, some hs) => (s, .ok hs)
      | (s, none) => head (s.xoff p k) p k

/-- A packet for the replicator waits in its queue of 4,096 (spec/09_lookup.md R275); while QSC is STOPPED it is dropped
(R414). -/
def State.toReplicator (s : State) (x : XPkt) : State :=
  if !s.flag QSC_CTRL_RUN ix0 then s.admitDrop 0 causeQueueFlush x.bytes.length x.src
  else if 4096 ≤ s.replQ.length then s.admitDrop 0 causeQueueFull x.bytes.length x.src
  else
    let req := requesterOf x.src
    match s.groupCells req (cellsOf x.bytes.length) (s.lossOf x.src x.cls) with
    | (s, .error c) => s.admitDrop 0 c x.bytes.length x.src
    | (s, .ok hs) => { s with replQ := s.replQ ++ [⟨x, hs, req⟩] }

/-- Where an admitted packet goes. -/
def State.admitTo (s : State) (x : XPkt) : State :=
  match x.dest with
  | .voq m pg port rw =>
    s.toVoq m (requesterOf x.src) none
      { bytes := x.bytes, cells := [], port := x.src, pg := pg, cls := x.cls, dport := port, rewrite := rw, ts := x.ts,
        enq := s.now, loss := s.lossOf x.src x.cls }
  | .group _ _ => s.toReplicator x
  | .session m => s.mirrorCopy m x.bytes x.ts x.src

/-- ADMISSION: the oldest packet from the ingress pipelines is metered (R439), discarded under its port's role with
every copy of it (spec/18_protection.md R533, R547), mirrored, dropped where its colour says so, and judged (R369). -/
def admission (s : State) : State :=
  match s.adm.waiting with
  | [] => s
  | x :: rest =>
    let s := { s with adm := { s.adm with waiting := rest } }
    match x.dest with
    | .session _ => s.admitTo x
    | _ =>
      let (s, cls) : State × Option Nat := match x.policer with
        | none => (s, some x.cls)
        | some n =>
          let (s, col) := s.police n x.bytes.length x.tos
          (s, s.policed n x.cls col)
      match s.ingressRole x.src with
      | .pass =>
        let s := s.mirrorCopy x.mirror x.bytes x.ts x.src
        match cls with
        | none => s.admitDrop 0 causePoliced x.bytes.length x.src
        | some k => s.admitTo { x with cls := k }
      | f => s.roleDiscard f (1 + ofBool (x.mirror != 0 && s.flag EGR_MIRROR0_EN (ixI x.mirror)))

end Sys2Proof.Machine
end

