-- ==== Sys2Proof/Machine/Locks.lean ====
section
/-!
DEFINITION. Machine/Locks.lean: the 64 lock registers (spec/05_rings_mailboxes_locks.md R169 to R173).
-/
namespace Sys2Proof.Machine

open Fld

/-- A master's ID (R169); PF1 is no master of the locks. -/
def masterId : Req → Nat
  | .mill => 1
  | .pf0 => 2
  | .mate => 3
  | .dbg => 4
  | .pf1 => 0

/-- Whether a requester reaches lock registers at all: the Mill while ML runs, PF0 while it answers requests
(spec/04_host_pcie.md R117), the mate while the felt path is up (R171), the debug port only while the Mill has unlocked
it (spec/19_mill.md R595), PF1 never (spec/04_host_pcie.md R112). -/
def State.lockMaster (s : State) (m : Req) : Bool :=
  match m with
  | .pf1 => false
  | .dbg => s.mil.debug
  | .mill => s.domUp domML
  | .pf0 => !s.gen.perst && !s.pf0.d3 && !s.pf0.flr
  | .mate => s.prt.felt

/-- The owner of a lock, 0 when it is free. -/
def State.lockOwner (s : State) (n : Nat) : Nat := tblGet 0 s.sem n

/-- A read that covers bits [31:0] of a lock: it acquires a free lock and returns 0, or returns the owner's ID
(R169). -/
def State.readLock (s : State) (m : Req) (n : Nat) : State × Nat :=
  let o := s.lockOwner n
  if o = 0 then ({ s with sem := tblPut n (masterId m) s.sem }, 0) else (s, o)

/-- One reader served (R169); all ones while HP is in reset (spec/01_architecture.md R42), and 0xFF to a mate that
cannot reach the module (R171). A read of the high half alone returns 0 and never acquires. -/
def State.serveLock (s : State) (n : Nat) (part : RdPart) (m : Req) : State :=
  if m == .mate && !(s.lockMaster .mate && s.domUp domHP) then s.emit (.answer m 0xFF)
  else if !s.lockMaster m then s
  else if !s.domUp domHP then s.emit (.answer m allOnes)
  else
    match part with
    | .high => s.emit (.answer m 0)
    | .full =>
      let (s, v) := s.readLock m n
      s.emit (.answer m (BitVec.ofNat 64 v))

/-- SEM_LOCK_READ: reads of one lock in one cycle are served in the order Mill, PF0, mate, debug port (R170). -/
def semLockRead (n : Fin 64) (readers : List Req) (part : RdPart) (s : State) : State :=
  ([Req.mill, .pf0, .mate, .dbg].filter (readers.contains ·)).foldl (fun s m => s.serveLock n.val part m) s

/-- A release: by the owner it frees the lock, by any other master it is ignored and counted (R172). -/
def State.releaseLock (s : State) (m : Req) (n : Nat) : State :=
  if s.lockOwner n = masterId m && masterId m != 0 then { s with sem := tblDel n s.sem }
  else s.count SEM_FOREIGN_COUNT ix0 1

/-- REL. -/
def rel (m : Req) (n : Fin 64) (s : State) : State := if s.lockMaster m && s.domUp domHP then s.releaseLock m n.val else s

/-- FORCE: honoured from the Mill only (R172); from another master it is a release ignored. -/
def force (m : Req) (n : Fin 64) (s : State) : State :=
  if !s.lockMaster m || !s.domUp domHP then s
  else if m = .mill then { s with sem := tblDel n.val s.sem } else s.count SEM_FOREIGN_COUNT ix0 1

/-- LOCK_AUTO_RELEASE: the locks of an owner that is lost are released (R172). -/
def State.autoRelease (s : State) (m : Req) : State :=
  if s.sem.any (fun e => e.2 = masterId m) then
    ({ s with sem := s.sem.filter (fun e => e.2 != masterId m) }).raise SEM_INT_STATUS_AUTO_REL
  else s

/-- SEM_HELD (R173). -/
def State.heldLocks (s : State) : Nat := s.sem.foldl (fun a e => a + 2 ^ e.1) 0

end Sys2Proof.Machine
end

