-- ==== Sys2Proof/Machine/PhaseBase.lean ====
section
/-!
DEFINITION. Machine/PhaseBase.lean: a change of phase, leaving RUN, and entering ISOLATE, which several mechanisms do
(spec/03_startup_reset.md R79 to R82, R96, spec/02_module.md R63, spec/18_protection.md R559).
-/
namespace Sys2Proof.Machine

open Fld

/-- The watchdog releases ALIVE_OUT_N (R63). -/
def State.releaseAlive (s : State) : State := { s with gen := { s.gen with aliveOut := false, hbCount := 0 } }

/-- The transmitters of a phase (R79): line, fabric, felt link. -/
def Phase.tx : Phase → Bool × Bool × Bool
  | .off | .boot | .isolate => (false, false, false)
  | .init | .test => (false, true, true)
  | .run => (true, true, true)
  | .park => (false, false, true)

/-- Every role is given up: the module holds no group (R545), is in no switch and is not RECOVERING. -/
def State.rolesLost (s : State) : State :=
  let s := (List.range 32).foldl (fun s g => if s.active g then s.takeRole g false else s) s
  { s with prt := { s.prt with groups := [], ready := false, recovering := false, leaving := none } }

/-- The module leaves RUN: the heartbeat generator stops (R80), ALIVE_OUT_N is released, which R79 gives for every
other phase, and the roles are gone. -/
def State.leaveRun (s : State) : State :=
  let s := { s with gen := { s.gen with hbOn := false } }
  s.releaseAlive.rolesLost

/-- PHASE takes a value: reported and logged (R82, spec/19_mill.md R580), with the transmitters that go with it. -/
def State.enterPhase (s : State) (p : Phase) : State :=
  let old := s.gen.phase
  if old = p then s
  else
    let s := if old = .run then s.leaveRun else s
    let t := p.tx
    let s := { s with gen := { s.gen with phase := p, lineTx := t.1, fabTx := t.2.1, feltTx := t.2.2 } }
    let s := s.stageLog 2 0 (old.code + p.code * 2 ^ 8 + s.gen.isoCause * 2 ^ 16) 0
    s.raise GEN_INT_STATUS_PHASE_CHG

/-- The phases that ISOLATE can be entered from (R81). -/
def Phase.mayIsolate : Phase → Bool
  | .run | .park | .init | .test => true
  | .off | .boot | .isolate => false

/-- The module enters ISOLATE with a cause; before RECOVERY_DONE a fault of the recovering module has cause 0x05, but a
thermal trip keeps its own, which R81 relies on (R96, R99, spec/18_protection.md R559). -/
def State.enterIsolate (s : State) (cause : Nat) : State :=
  if !s.gen.phase.mayIsolate then s
  else
    let cause := if cause != 1 && s.prt.recovering then 5 else cause
    let s := { s with gen := { s.gen with isoCause := cause, reqBusy := false, warmBusy := false } }
    ((s.enterPhase .isolate).releaseAlive).settleFab

end Sys2Proof.Machine
end

