-- ==== Sys2Proof/Machine/RecordBase.lean ====
section
/-!
DEFINITION. Machine/RecordBase.lean: decision records (spec/18_protection.md R551 to R553).
-/
namespace Sys2Proof.Machine

/-- CLASS, STATUS, REASON and CAUSE of a parse (spec/08_parser.md R238). -/
def Pkt.ending (p : Pkt) : Nat × Nat × Nat × Nat :=
  match p.fin with
  | none => (0, 0, 0, 0)
  | some (.normal c) => (c, 0, 0, 0)
  | some (.truncated r) => (0xFE, 1, r, 0)
  | some (.malformed c) => (0xFF, 2, 0, c)

/-- The 32 bytes of a decision record (R551). -/
def recordBytes (p : Pkt) (d : Decision) : List Byte :=
  let (cls, st, _, cause) := p.ending
  beBytes 2 (p.arr.port * 128) ++ beBytes 4 p.arr.fseq ++ beBytes 4 p.ream ++ beBytes 2 (cls * 256 + st * 64 + cause)
    ++ beBytes 1 d.fate ++ beBytes 1 d.cause ++ beBytes 3 d.result ++ beBytes 3 (d.nh * 16)
    ++ beBytes 4 (d.mod * 2 ^ 21 + d.pg * 2 ^ 16 + d.port * 2 ^ 7 + d.cls * 16) ++ beBytes 3 (d.rewrite * 8)
    ++ beBytes 3 (d.policer * 64 + d.mirror * 4 + 2 * ofBool d.copyHost) ++ beBytes 2 (d.copyRing * 8)

/-- A slice's comparison. -/
def State.cmp (s : State) (k : Nat) : CmpSt := tblGet CmpSt.init s.prt.slices k
def State.setCmp (s : State) (k : Nat) (x : CmpSt) : State :=
  { s with prt := { s.prt with slices := if x = CmpSt.init then tblDel k s.prt.slices else tblPut k x s.prt.slices } }

/-- A packet of a member port has its forwarding decision: its record's hash joins the slice's history, which holds
16,384 (R551, R553). -/
def State.formRecord (s : State) (p : Pkt) (d : Decision) : State :=
  if (s.protOf p.arr.port).isNone || !s.domUp domQC then s
  else
    let c := s.cmp p.slice
    let r : RecHash := ⟨p.arr.port, p.arr.fseq, p.ream, crc64 (recordBytes p d)⟩
    s.setCmp p.slice (if 16384 ≤ c.hist.length then { c with full := true } else { c with hist := r :: c.hist })

end Sys2Proof.Machine
end

