-- ==== Sys2Proof/Machine/ProtHook.lean ====
section
/-!
DEFINITION. Machine/ProtHook.lean: the felt link's messages, the signs that the mate lives, requests, coordinated
switches and the claim of a lost mate's groups (spec/18_protection.md R536 to R549): what every mechanism that bears on
them calls.
-/
namespace Sys2Proof.Machine

open Fld

/-! ## The felt link, R536 to R538 -/

/-- A felt lane's alignment. -/
def State.feltLane (s : State) (i : Nat) : AlignSt := tblGet AlignSt.init s.prt.lanes i
/-- A felt lane runs (R563), and is LOCKED. -/
def State.laneRuns (s : State) (i : Nat) : Bool := s.domUp domQC && bitAt (s.fld PRT_CTRL_LANE_EN ix0) i
def State.laneLocked (s : State) (i : Nat) : Bool := s.laneRuns i && (s.feltLane i).locked.isSome
def State.lockedLanes (s : State) : List Nat := (List.range 4).filter s.laneLocked

/-- The markers of a felt lane that transmits, from now on (R536). -/
def State.newFeltMarkers (s : State) (i : Nat) : State :=
  if s.laneRuns i && s.gen.feltTx then
    s.emit (.marker true i (markerWord s.ownId i (s.feltLane i).locked.isNone false))
  else s

/-- The 128 bytes of a felt message (R537). -/
def feltBytes (mtype seq : Nat) (body : List Byte) : List Byte :=
  let m := beBytes 1 mtype ++ [0] ++ beBytes 2 seq ++ bytesAt body 0 120
  m ++ beBytes 4 (crc32c 0xFFFFFFFF m)

/-- A message leaves on a lane. -/
def State.sendLane (s : State) (mtype : Nat) (body : List Byte) (lane : Nat) : State :=
  if !s.gen.feltTx || !s.domUp domQC then s
  else
    let n := tblGet 0 s.prt.laneSeq lane
    let s := { s with prt := { s.prt with laneSeq := tblPut lane ((n + 1) % 65536) s.prt.laneSeq } }
    s.emit (.felt lane (feltBytes mtype n body))

/-- A message goes on a lane, or when that is not locked on the next locked lane in ascending order (R538). -/
def State.sendFelt (s : State) (lane mtype : Nat) (body : List Byte) : State :=
  match ((List.range 4).map fun i => (lane + i) % 4).find? s.laneLocked with
  | some l => s.sendLane mtype body l
  | none => s

/-- A message goes on every locked lane (R538). -/
def State.sendAll (s : State) (mtype : Nat) (body : List Byte) : State :=
  s.lockedLanes.foldl (fun s l => s.sendLane mtype body l) s

/-- A ROLE message (R538). -/
def State.sendRole (s : State) (g op id t : Nat) : State :=
  s.sendAll 5 (beBytes 1 g ++ beBytes 1 op ++ beBytes 2 id ++ stamp96 t)

/-- A message arrives on a lane; one with a wrong CRC or an MTYPE that R538 does not list is discarded and counted
(R537); one that is another command's is that command's. `f` takes the message. -/
def State.takeFelt (s : State) (lane : Nat) (msg : List Byte) (mtype : Nat) (f : List Byte → State → State) : State :=
  if !s.laneLocked lane then s
  else if msg.length ≠ 128 || beNat (bytesAt msg 124 4) != crc32c 0xFFFFFFFF (msg.take 124) || 7 < beNat (bytesAt msg 0 1) then
    s.count PRT_FELT_ERR_COUNT ix0 1
  else if beNat (bytesAt msg 0 1) = mtype then f msg s
  else s

/-- A field of a felt message. -/
def feltField (msg : List Byte) (off n : Nat) : Nat := beNat (bytesAt msg off n)

/-! ## What the pair knows, R540, R543, R546 -/

/-- The mate is on the felt path; on the fabric path. -/
def State.mateSeen (s : State) : Bool := s.prt.felt || s.prt.fab
/-- ALIVE_N as it is taken (R544). -/
def State.alive (s : State) : Bool := s.gen.aliveIn || s.prt.aliveFault
/-- The mate's ACTIVE bits, as last told on a path that is up. -/
def State.mateActive (s : State) : Nat :=
  if s.prt.felt then (match s.prt.mate with | some m => m.active | none => 0) else s.prt.fabActive
/-- The mate's LEVEL and CMD for a group. -/
def State.mateLevel (s : State) (g : Nat) : Nat := match s.prt.mate with | some m => bitsOf m.levels (2 * g) 2 | none => 0
def State.mateCmd (s : State) (g : Nat) : Nat := match s.prt.mate with | some m => bitsOf m.cmds (2 * g) 2 | none => 0

/-- The entities of a group's members (R212). -/
def State.memberEnts (s : State) (g : Nat) : List Nat :=
  (List.range 4).flatMap (fun w => (onesUpTo 64 (s.rd .prtGroupMembers (ixIJ g w)).toNat).map (64 * w + ·))
    ++ (onesUpTo 32 (s.fld PRT_GROUP_FLEXE_FLEXE (ixI g))).map entGroup

/-- LEVEL of a group (R546, spec/07_line_monitoring.md R212). -/
def State.level (s : State) (g : Nat) : Nat :=
  let es := s.memberEnts g
  if es.any s.sfActs then 2 else if es.any s.sdActs then 1 else 0

/-- Whether this module is a group's HOME unit (R545). -/
def State.isHome (s : State) (g : Nat) : Bool := s.fld PRT_GROUP_CFG_HOME (ixI g) == s.ownId % 2

/-- WTR as it acts, in seconds (R566). -/
def State.wtrSec (s : State) (g : Nat) : Nat := min 3600 (s.fld PRT_GROUP_CFG_WTR (ixI g))

/-- PAIR_STATE (R543). -/
def State.pairCode (s : State) : Nat :=
  if s.prt.felt then (if s.prt.fab then 1 else 3) else if s.prt.fab then 2 else if s.alive then 4 else 0

/-! ## Switches, R546 to R549, R556 -/

/-- How long before T a RELEASE is sent, how long before it the ACK is due, and the length of a felt frame, in the
counter's units (R547, R548; R456). -/
def switchLead : Nat := 20000 * 65536
def feltFrame : Nat := 107374182

/-- A switch starts: RELEASE with a new ID and T (R547 step 1). -/
def State.startSwitch (s : State) (g code : Nat) : State :=
  let id := (s.prt.nextId + 1) % 65536
  let t := s.tim.total + switchLead
  let s := { s with prt := { s.prt with nextId := id } }
  (s.modGroup g fun x => { x with switch := some ⟨id, t, true, false, false, code⟩, blocked := none, wtr := none }).sendRole g 1 id t

/-- A switch has completed on this module (R547): SWITCHED, and MANUAL is CLEAR again (R546). -/
def State.switched (s : State) (g : Nat) : State :=
  let s := s.modGroup g fun x => { x with switch := none, txHeld := false, draining := false }
  let s := if s.fld PRT_GROUP_CFG_CMD (ixI g) = 3 then s.set PRT_GROUP_CFG_CMD (ixI g) 0 else s
  s.raiseAt PRT_INT_STATUS_SWITCHED 0 0 g 0

/-- A switch is abandoned and roles stay; its request is not judged again while it and PAIR_STATE stand, or, after a
crossing of two RELEASEs, before the next HEARTBEAT (R547, R548). -/
def State.abandon (s : State) (g : Nat) (again : Bool) : State :=
  s.modGroup g fun x =>
    { x with switch := none, blocked := if again then some 16 else x.switch.map fun w => 8 + w.code }

/-- The highest-ranking request for a group that this module holds, by its code, and whether it moves the group
(R546). WTR counts once its time has run out. -/
def State.request (s : State) (g : Nat) (wtrDone : Bool) : Nat × Bool :=
  let oc := s.fld PRT_GROUP_CFG_CMD (ixI g)
  let mc := s.mateCmd g
  let ol := s.level g
  let ml := s.mateLevel g
  if oc = 1 || mc = 1 then (6, false)
  else if oc = 2 || mc = 2 then (5, mc = 2 && oc != 2)
  else if ol = 2 || ml = 2 then (4, ol = 2 && ml != 2)
  else if ol = 1 || ml = 1 then (3, ol = 1 && ml = 0)
  else if oc = 3 || mc = 3 then (2, mc = 3 && ml ≤ ol && oc != 3)
  else if (s.group g).wtr.isSome then (1, wtrDone)
  else (0, false)

/-- The conditions under which wait-to-restore runs (R549). -/
def State.wtrRuns (s : State) (g : Nat) : Bool :=
  let oc := s.fld PRT_GROUP_CFG_CMD (ixI g)
  let mc := s.mateCmd g
  s.flag PRT_GROUP_CFG_REVERTIVE (ixI g) && !s.isHome g && s.prt.pairState == 1
    && !(match s.prt.mate with | some m => m.recovering | none => false) && s.mateLevel g ≤ s.level g
    && oc != 1 && oc != 2 && mc != 1 && mc != 2

/-- A coordinated switch may take place (R546). -/
def State.maySwitch (s : State) : Bool := s.prt.pairState == 1 || s.prt.pairState == 3

/-- Requests for a group that this module holds are judged (R546, R549). -/
def State.judgeGroup (s : State) (g : Nat) (wtrDone : Bool) : State :=
  if !s.active g || (s.group g).switch.isSome || !s.prt.ready || s.prt.leaving.isSome then s
  else
    let x := s.group g
    let s := s.setGroup g { x with wtr := if s.wtrRuns g then some (x.wtr.getD s.now) else none }
    let (code, moves) := s.request g (wtrDone || s.wtrSec g = 0)
    let x := s.group g
    if x.blocked = some 16 then s
    else if !moves then s.setGroup g { x with blocked := none }
    else if x.blocked = some (8 + code) then s
    else if s.maySwitch then s.startSwitch g code
    else if x.blocked = some code then s
    else (s.setGroup g { x with blocked := some code }).raiseAt PRT_INT_STATUS_SWITCH_BLOCKED 0 0 g 0

/-- A module whose self-test failed enters ISOLATE once no handover is under way (R556). -/
def State.leaveSettle (s : State) : State :=
  match s.prt.leaving with
  | none => s
  | some cause =>
    if s.prt.groups.any (fun e => e.2.switch.isSome || e.2.draining) then s
    else ({ s with prt := { s.prt with leaving := none } }).enterIsolate cause

/-! ## Losing and finding the mate, R539 to R545 -/

/-- The role that R545 gives a group. -/
def State.initRole (s : State) (g : Nat) : State :=
  let s := s.modGroup g fun x => { x with undecided := !s.mateSeen && s.alive }
  s.takeRole g (if s.mateSeen then !bitAt s.mateActive g && s.isHome g else !s.alive)

/-- The mate is lost: this module becomes ACTIVE for every group in which it was SHADOW, and switches are complete
(R542, R548). -/
def State.claim (s : State) : State :=
  let mine := (List.range 32).filter s.groupEn
  let got := mine.filter fun g => !s.active g
  let s := mine.foldl (fun s g =>
    let s := if (s.group g).switch.isSome then s.switched g else s
    let s := s.modGroup g fun x => { x with txHeld := false, draining := false, gap := false, undecided := false }
    s.takeRole g true) s
  match got with
  | [] => s
  | g :: _ => s.raiseAt PRT_INT_STATUS_MATE_CLAIMED 0 0 g 0

/-- The felt path is lost: the mate's locks are released (spec/05_rings_mailboxes_locks.md R172), and the epochs in
progress are not comparable (R554). -/
def State.feltLost (s : State) : State :=
  let mate := s.prt.mate.map fun m => { m with recovering := false }
  let s := { s with prt := { s.prt with felt := false, fast := false, mate := mate } }
  let s := (List.range 16).foldl (fun s k => s.setCmp k { s.cmp k with felt := true }) s
  (s.autoRelease .mate).raise PRT_INT_STATUS_FELT_CHG

/-- The limit of R540 and R541 for the mate's fabric path, in units of `State.now`. -/
def State.fabLimit (s : State) : Nat := if s.prt.fast then 120000 else 960000

/-- The signs follow what they are made of (R539, R540, R544). -/
def State.signs (s : State) : State :=
  let s := if s.prt.felt && s.lockedLanes.isEmpty then s.feltLost else s
  let fab := match s.prt.lastFab with
    | some t => decide (s.now < t + s.fabLimit)
    | none => false
  { s with prt := { s.prt with fab := fab, aliveFault := s.prt.aliveFault && !s.gen.aliveIn } }

/-- PAIR_STATE follows the signs (R543); a blocked request is judged afresh in a new state; ALONE claims (R542). -/
def State.pairSettle (s : State) : State :=
  let p := s.pairCode
  if p = s.prt.pairState then s
  else
    let s := { s with prt := { s.prt with pairState := p } }
    let s := s.prt.groups.foldl (fun s e => s.modGroup e.1 fun x =>
      { x with blocked := x.blocked.filter fun b => b < 8 || b = 16 }) s
    let s := s.raise PRT_INT_STATUS_PAIR_STATE_CHG
    if p = 0 && s.prt.ready then s.claim else s

/-- After anything that bears on the pair: the signs, PAIR_STATE, groups whose role waited for a path (R545), every
request (R546), and a module that leaves (R556). -/
def State.protJudge (s : State) : State :=
  if !s.domUp domQC then s
  else
    let s := s.signs.pairSettle
    let s := if s.prt.ready && s.mateSeen then
        (List.range 32).foldl (fun s g => if (s.group g).undecided then s.initRole g else s) s
      else s
    let s := (List.range 32).foldl (fun s g => s.judgeGroup g false) s
    s.leaveSettle

end Sys2Proof.Machine
end

