-- ==== Sys2Proof/Machine/Lines.lean ====
section
/-!
DEFINITION. Machine/Lines.lean: slices and ports, received frames and priority flow control
(spec/06_line_flexe.md R177 to R188), and the defects of line ports, FlexE entities and fabric links, signal degrade
and hold-off (spec/07_line_monitoring.md R207 to R213).
-/
namespace Sys2Proof.Machine

open Fld

/-! ## Link status, R186 -/

/-- LINK_UP of a port takes a value; a change sets LINK_CHG (R183, R186). -/
def State.linkTo (s : State) (p : Nat) (up : Bool) : State :=
  if s.flag LIN_PORT_STATUS_LINK_UP (portIx p) == up then s
  else (s.set LIN_PORT_STATUS_LINK_UP (portIx p) (ofBool up)).raiseAt LIN_INT_STATUS_LINK_CHG (p / 16) (p % 16) p
    (ofBool up)

/-- The PCS of a port is aligned, or no longer is. -/
def State.alignTo (s : State) (p : Nat) (yes : Bool) : State :=
  let rest := s.lin.aligned.filter (· != p)
  let s := { s with lin := { s.lin with aligned := if yes then rest ++ [p] else rest } }
  (s.set LIN_PORT_STATUS_LOCAL_FAULT (portIx p) (ofBool !yes)).linkTo p
    (yes && !s.flag LIN_PORT_STATUS_REMOTE_FAULT (portIx p))

/-- PORT_LINK_UP: the PCS of a port in a running slice aligns without fault (R186, R188). -/
def portLinkUp (port : Fin 256) (s : State) : State :=
  let p := port.val
  if s.isPort p && s.domUp (portDomain p) && s.sliceRuns (p / 16) then
    (s.set LIN_PORT_STATUS_REMOTE_FAULT (portIx p) 0).alignTo p true
  else s

/-- REMOTE_FAULT: a far-end indication, shown and no defect (R186, R207). -/
def remoteFault (port : Fin 256) (started : Bool) (s : State) : State :=
  let p := port.val
  if s.isPort p && s.domUp (portDomain p) && s.sliceRuns (p / 16) then
    (s.set LIN_PORT_STATUS_REMOTE_FAULT (portIx p) (ofBool started)).linkTo p
      (!started && s.lin.aligned.contains p)
  else s

/-! ## Slices and ports, R177, R178 -/

/-- A slice's links go down: its lanes are idle. -/
def State.sliceLinksDown (s : State) (k : Nat) : State :=
  (sliceEnts k).foldl (fun s p =>
    ({ s with lin := { s.lin with aligned := s.lin.aligned.filter (· != p) } }).linkTo p false) s

/-- LIN_SLICE_CTRL written (R174, R177): MAP while STOPPED, then RUN. -/
def State.sliceWrite (s : State) (req : Req) (k : Nat) (v : W64) : State :=
  let s := s.watchSf (sliceEnts k) fun s =>
    let s := s.ownWrite req .linSliceCtrl (ixN k) v LIN_SLICE_CTRL_RUN.mask
    let run := LIN_SLICE_CTRL_RUN.get v = 1
    if run == s.sliceRuns k then s
    else if run then
      if 0xC ≤ s.sliceMap k then s.violation .lin k
      else (s.set LIN_SLICE_CTRL_RUN (ixN k) 1).set LIN_SLICE_CTRL_STOPPED (ixN k) 0
    else ((s.set LIN_SLICE_CTRL_RUN (ixN k) 0).set LIN_SLICE_CTRL_STOPPED (ixN k) 1).sliceLinksDown k
  s.protJudge

/-- SLICE_RUN. -/
def sliceRun (req : Req) (slice : Fin 16) (v : W64) (s : State) : State :=
  s.sliceWrite req slice.val (v ||| LIN_SLICE_CTRL_RUN.mask)

/-- SLICE_STOP. -/
def sliceStop (req : Req) (slice : Fin 16) (v : W64) (s : State) : State :=
  s.sliceWrite req slice.val (v &&& ~~~LIN_SLICE_CTRL_RUN.mask)

/-- PORT_ENABLE: LIN_PORT_CFG written (R178, R185). -/
def portEnable (req : Req) (port : Fin 256) (v : W64) (s : State) : State :=
  s.ownWrite req .linPortCfg (portIx port.val) v 0

/-! ## Received frames and PFC, R180 to R182, R187 -/

/-- A received PFC frame at an Ethernet MAC (R181): counted, and each enabled priority paused for its quanta, or
released by quanta of 0. At a FlexE client it is counted and has no effect (R182, R186). -/
def State.pfcFrame (s : State) (p : Nat) (m : Mac) (en : Nat) (quanta : List Nat) : State :=
  let s := s.count LIN_PFC_RX_COUNT (portIx p) 1
  match m with
  | .client _ => s
  | .ether =>
    let take := en &&& s.fld LIN_PORT_CFG_PFC_EN (portIx p)
    let old := s.fld LIN_PORT_STATUS_PAUSED (portIx p)
    s.set LIN_PORT_STATUS_PAUSED (portIx p)
      ((List.range 8).foldl (fun a i =>
        a + 2 ^ i * ofBool (if bitAt take i then quanta.getD i 0 != 0 else bitAt old i)) 0)

/-- PFC_RECEIVE: a received PFC frame is consumed at the MAC (R181); a MAC that carries no traffic discards it (R178).
-/
def pfcReceive (port : Fin 256) (en : BitVec 8) (quanta : List (BitVec 16)) (s : State) : State :=
  let p := port.val
  match s.macOf p with
  | none => s
  | some m =>
    if !s.domUp (portDomain p) then s
    else if s.macOn p m then s.pfcFrame p m en.toNat (quanta.map BitVec.toNat)
    else s.count LIN_RX_DISCARD_COUNT (portIx p) 1

/-- Whether a frame is a MAC control frame, and its opcode (R180). -/
def macControl (f : List Byte) : Option Nat :=
  if beNat (bytesAt f 12 2) = 0x8808 then some (beNat (bytesAt f 14 2)) else none

/-- The receive time-stamp of a frame at a port: taken against the counter, but for 1 ms after the port's LD domain
left reset (spec/17_time.md R525). -/
def State.rxStamp (s : State) (p : Nat) : Option (Nat × Nat) :=
  if s.domUp domTM && (tblGet 0 s.lin.ldOut (portDomain p)) + 5000000 ≤ s.now then some (s.tim.sec, s.tim.ns) else none

/-- The frames counted at a port. -/
def State.frames (s : State) (p : Nat) : FrameSeq := tblGet ⟨0, [], []⟩ s.lin.frames p

/-- A frame delimited at a port is counted, whatever its FCS (spec/18_protection.md R553, R554). -/
def State.frameCount (s : State) (p : Nat) (fcs : BitVec 32) (good : Bool) : State :=
  let x := s.frames p
  let y : FrameSeq := ⟨x.seq + 1, (fcs :: x.fcs).take 64, if good then x.bad else x.seq.toNat :: x.bad⟩
  { s with lin := { s.lin with frames := tblPut p y s.lin.frames } }

/-- FRAME_RECEIVE: the MAC judges a frame (given without its FCS) by length and FCS (R180, R187), consumes or discards
MAC control frames (R180, R181), discards while the port or the pipelines carry no traffic (R177, R178, R47), and
otherwise hands it to its slice (R180, R193). -/
def frameReceive (port : Fin 256) (frame : List Byte) (fcs : BitVec 32) (s : State) : State :=
  let p := port.val
  match s.macOf p with
  | none => s
  | some m =>
    if !s.domUp (portDomain p) then s
    else
    let fcsGood := crc32 frame == fcs.toNat
    let s := s.frameCount p fcs fcsGood
    if frame.length + 4 < 64 then s.count LIN_RX_RUNT_COUNT (portIx p) 1
    else if s.macMax p m < frame.length + 4 then s.count LIN_RX_OVERSIZE_COUNT (portIx p) 1
    else if !fcsGood then s.count LIN_RX_FCS_ERR_COUNT (portIx p) 1
    else if !s.macOn p m then s.count LIN_RX_DISCARD_COUNT (portIx p) 1
    else
      match macControl frame with
      | some op =>
        if op = 0x0101 then
          s.pfcFrame p m (beNat (bytesAt frame 17 1)) ((List.range 8).map (fun i => beNat (bytesAt frame (18 + 2 * i) 2)))
        else s.count LIN_RX_DISCARD_COUNT (portIx p) 1
      | none =>
        let a : Arrival := ⟨p, frame, s.rxStamp p, none, ((s.frames p).seq - 1).toNat⟩
        if s.pipesUp then s.arrive (p / 16) a
        else s.count LIN_RX_DISCARD_COUNT (portIx p) 1

/-- PFC_PAUSE_EXPIRY: the class is served again (R181). -/
def pfcPauseExpiry (port : Fin 256) (cls : Fin 8) (s : State) : State :=
  let old := s.fld LIN_PORT_STATUS_PAUSED (portIx port.val)
  s.set LIN_PORT_STATUS_PAUSED (portIx port.val) (old - 2 ^ cls.val * ofBool (bitAt old cls.val))

/-- PFC_XOFF_REPEAT: XOFF is repeated while admission asks for it (R182). -/
def pfcXoffRepeat (port : Fin 256) (cls : Fin 8) (s : State) : State :=
  if s.lin.xoff.contains (8 * port.val + cls.val) then
    s.sendPfc port.val cls.val (s.fld LIN_PORT_CFG_PFC_QUANTA (portIx port.val))
  else s

/-! ## Defects, R207 -/

/-- A defect of an entity is declared or cleared, with what follows for groups and clients, the fabric and protection.
-/
def State.defectTo (s : State) (e : Nat) (f : State → State) : State := (s.watchSf [e] f).failSettle.settleFab.protJudge

/-- A change of an entity's state. -/
def State.modEnt (s : State) (e : Nat) (f : EntSt → EntSt) : State := s.setEnt e (f (s.ent e))

/-- A line port whose signal is lost or misaligned is in local fault and its link is down (R186); a fabric link returns
to SEARCH (spec/15_fabric.md R461). -/
def State.portDown (s : State) : SigUnit → State
  | .line p => if s.isPort p.val then s.alignTo p.val false else s
  | .fabric l => s.linkUnlock l.val

/-- LOS_DECLARE (R207); a LOCKED fabric link loses its lock with it, and so is in LOA (spec/15_fabric.md R461). -/
def losDeclare (u : SigUnit) (s : State) : State :=
  if s.notMon (unitEnt u) then s
  else s.defectTo (unitEnt u) fun s => (s.portDown u).modEnt (unitEnt u) fun (x : EntSt) => { x with los := true }

/-- LOA_DECLARE (R207); a fabric link is in LOA for as long as it is not locked. -/
def loaDeclare (u : SigUnit) (s : State) : State :=
  if s.notMon (unitEnt u) then s
  else s.defectTo (unitEnt u) fun s => (s.portDown u).modEnt (unitEnt u) fun (x : EntSt) => { x with loa := true }

/-- GROUP_FAIL (R207). -/
def groupFail (n : Fin 32) (s : State) : State := s.defectTo (entGroup n.val) fun s => s.declareFail (entGroup n.val)

/-- CLIENT_FAIL (R207); the client takes no action of its own (R213). -/
def clientFail (c : Fin 512) (s : State) : State := s.defectTo (entClient c.val) fun s => s.declareFail (entClient c.val)

/-- DEFECT_CLEAR: a defect's causes have been absent for its clearing time. GROUP_FAIL stands while a PHY of the group
is in LOS or LOA, CLIENT_FAIL while the client's group is in GROUP_FAIL, LOA of a fabric link until it is locked (R207).
-/
def defectClear (d : Defect) (s : State) : State :=
  match d with
  | .los u => s.defectTo (unitEnt u) fun s => s.modEnt (unitEnt u) fun (x : EntSt) => { x with los := false }
  | .loa u => s.defectTo (unitEnt u) fun s => s.modEnt (unitEnt u) fun (x : EntSt) => { x with loa := false }
  | .group n =>
    if s.phyFails n.val then s
    else s.defectTo (entGroup n.val) fun s => s.modEnt (entGroup n.val) fun (x : EntSt) => { x with fail := false }
  | .client c =>
    if (s.ent (entGroup (s.fld FLX_CLIENT_GROUP (ixI c.val)))).fail then s
    else s.defectTo (entClient c.val) fun s => s.modEnt (entClient c.val) fun (x : EntSt) => { x with fail := false }

/-! ## Signal degrade and hold-off, R209, R210 -/

/-- SD_SET_EXP and SD_CLR_EXP as they act (R221). -/
def State.sdSetExp (s : State) (e : Nat) : Nat :=
  let x := s.fld PMN_ENT_CFG_SD_SET_EXP (ixI e)
  if 2 ≤ x ∧ x ≤ 9 then x else 9
def State.sdClrExp (s : State) (e : Nat) : Nat :=
  let x := s.fld PMN_ENT_CFG_SD_CLR_EXP (ixI e)
  if 2 ≤ x ∧ x ≤ 9 ∧ s.sdSetExp e ≤ x then x else s.sdSetExp e + 1

/-- A 1 ms period of a port or link is judged (R209). -/
def State.sdPeriod (s : State) (e symbols corrected uncorr : Nat) : State :=
  let bad := uncorr != 0 || (symbols != 0 && symbols ≤ corrected * 10 ^ s.sdSetExp e)
  let good := uncorr = 0 && (symbols = 0 || corrected * 10 ^ s.sdClrExp e < symbols)
  let x := s.ent e
  let x := { x with sdBad := if bad then x.sdBad + 1 else 0, sdGood := if good then x.sdGood + 1 else 0 }
  let n := max 1 (s.fld PMN_ENT_CFG_SD_PERIODS (ixI e))
  let s := s.setEnt e x
  if !x.sd && n ≤ x.sdBad then s.sdTo e true
  else if x.sd && n ≤ x.sdGood then s.sdTo e false
  else s

/-- Corrected symbols and uncorrectable codewords of an entity are counted (R222), unless PMN is in reset. -/
def State.countErrors (s : State) (corrected uncorr e : Nat) : State :=
  if s.domUp domFC then
    (s.count PMN_SYM_CORR_COUNT (ixI e) corrected).count PMN_CW_UNCORR_COUNT (ixI e) uncorr
  else s

/-- SD_PERIOD_END: corrected symbols and uncorrectable codewords are counted, for a PHY also in the running groups that
have it (R206, R222), and the period is judged, also while FC is in reset (R209). -/
def sdPeriodEnd (u : SigUnit) (symbols corrected uncorrectable : BitVec 48) (s : State) : State :=
  let e := unitEnt u
  if s.notMon e then s
  else
    let groups := (List.range 32).filter fun n => s.groupRuns n && (s.groupPhys n).contains e
    let s := (e :: groups.map entGroup).foldl (State.countErrors · corrected.toNat uncorrectable.toNat) s
    if s.sf e then s
    else (s.sdPeriod e symbols.toNat corrected.toNat uncorrectable.toNat).groupsSd.protJudge

/-- HOLD_OFF_EXPIRY: a condition that has lasted is passed on (R210): to protection, and to the spray sets. -/
def holdOffExpiry (ent : Fin 1120) (sd : Bool) (s : State) : State :=
  let x := s.ent ent.val
  (if sd then s.setEnt ent.val { x with sdHeld := false }
   else s.setEnt ent.val { x with sfHeld := false }).settleFab.protJudge

end Sys2Proof.Machine
end

