-- ==== Sys2Proof/Machine/Prot.lean ====
section
/-!
DEFINITION. Machine/Prot.lean: felt and fast heartbeats, roles, coordinated switches, health, the mate's lock accesses
and recovery (spec/18_protection.md).
-/
namespace Sys2Proof.Machine

open Fld

/-! ## Heartbeats, R538 to R541 -/

/-- LEVELS and CMDS of a HEARTBEAT (R538). -/
def State.levelBits (s : State) : Nat := (List.range 32).foldl (fun a g => a + s.level g * 4 ^ g) 0
def State.cmdBits (s : State) : Nat := (List.range 32).foldl (fun a g => a + s.fld PRT_GROUP_CFG_CMD (ixI g) * 4 ^ g) 0

/-- The body of a felt HEARTBEAT (R538). -/
def State.feltBeat (s : State) : List Byte :=
  beBytes 1 s.gen.phase.code ++ beBytes 1 (s.prt.pairState * 32 + 16 * ofBool s.prt.recovering)
    ++ beBytes 2 s.prt.hbSeq.toNat ++ beBytes 4 s.activeBits ++ beBytes 8 s.levelBits ++ beBytes 8 s.cmdBits
    ++ beBytes 4 s.cmt.newest

/-- FELT_HEARTBEAT_SEND: every 8 µs, on every locked lane, in RUN only. -/
def feltHeartbeatSend (s : State) : State :=
  if s.gen.phase != .run || !s.domUp domQC then s
  else
    let s := s.sendAll 1 s.feltBeat
    { s with prt := { s.prt with hbSeq := s.prt.hbSeq + 1 } }

/-- What a HEARTBEAT tells of the mate. -/
def mateOfBeat (m : List Byte) : MateSt :=
  { phase := feltField m 4 1, pairState := feltField m 5 1 / 32, recovering := bitAt (feltField m 5 1) 4,
    active := feltField m 8 4, levels := feltField m 12 8, cmds := feltField m 20 8, ream := feltField m 28 4 }

/-- FELT_HEARTBEAT: the felt path is up (R539, R540) and the fabric limit is 192 µs again (R541); the end of the mate's
recovery shows as the fall of its RECOVERING bit (R558); requests are judged (R546). -/
def feltHeartbeat (lane : Fin 4) (msg : List Byte) (s : State) : State :=
  s.takeFelt lane.val msg 1 fun m s =>
    let new := mateOfBeat m
    let done := match s.prt.mate with | some o => o.recovering && !new.recovering | none => false
    let up := s.prt.felt
    let s := { s with prt := { s.prt with mate := some new, felt := true, fast := s.prt.fast && up } }
    let s := if up then s else s.raise PRT_INT_STATUS_FELT_CHG
    let s := if done then s.raise PRT_INT_STATUS_RECOVERY_DONE else s
    let s := s.prt.groups.foldl (fun s e => s.modGroup e.1 fun x => { x with blocked := x.blocked.filter (· != 16) }) s
    s.protJudge

/-- FELT_PATH_LOST: 24 µs have passed without a HEARTBEAT (R539). -/
def feltPathLost (s : State) : State := if s.prt.felt then s.feltLost.protJudge else s

/-- FAST_HEARTBEAT_SEND: while the felt path is lost the mate gets a fabric HEARTBEAT every 8 µs (R541). -/
def fastHeartbeatSend (s : State) : State :=
  if s.gen.phase != .run || s.prt.felt || !s.mapped s.ownId || !s.domUp domQC then s
  else
    let s' := s.sendCtl (mateOf s.ownId) [.heartbeat s.gen.phase.code s.fab.hbSeq.toNat s.activeBits]
    { s' with fab := { s'.fab with hbSeq := s'.fab.hbSeq + 1 } }

/-- ALIVE_FAULT (R544). -/
def aliveFault (s : State) : State :=
  if s.gen.aliveIn || s.prt.aliveFault || !s.mateSeen || !s.domUp domQC then s
  else
    let s := { s with prt := { s.prt with aliveFault := true } }
    (s.raise PRT_INT_STATUS_ALIVE_FAULT).protJudge

/-! ## Roles, R545 -/

/-- GROUP_ROLE_INIT: 256 µs after entry to RUN each enabled group takes its role, and the module is RECOVERING while
the mate is seen holding a group (R545, R558). -/
def groupRoleInit (s : State) : State :=
  if s.gen.phase != .run || s.prt.ready || !s.domUp domQC then s
  else
    let s := s.protJudge
    let s := { s with prt := { s.prt with ready := true } }
    let s := (List.range 32).foldl (fun s g => if s.groupEn g then s.initRole g else s) s
    ({ s with prt := { s.prt with recovering := s.mateSeen && s.mateActive != 0 } }).protJudge

/-- A port or FlexE group of a group is a member of another enabled group (R532, R567). -/
def State.overlaps (s : State) (g : Nat) : Bool :=
  (List.range 32).any fun h => h != g && s.groupEn h &&
    ((List.range 4).any (fun w => (s.rd .prtGroupMembers (ixIJ g w) &&& s.rd .prtGroupMembers (ixIJ h w)) != 0)
      || (s.fld PRT_GROUP_FLEXE_FLEXE (ixI g) &&& s.fld PRT_GROUP_FLEXE_FLEXE (ixI h)) != 0)

/-- A group becomes STOPPED: it has no role, and a switch of it is abandoned (R532, R548). -/
def State.groupStop (s : State) (g : Nat) : State :=
  let s := if s.active g then s.takeRole g false else s
  (s.set PRT_GROUP_CFG_EN (ixI g) 0).setGroup g GroupSt.init

/-- PROT_GROUP_ENABLE: PRT_GROUP_CFG written: REVERTIVE and HOME while STOPPED, CMD, then EN (R532, R545, R566,
R567). -/
def protGroupEnable (req : Req) (g : Fin 32) (v : W64) (s : State) : State :=
  let g := g.val
  if !s.domUp domQC then s
  else
    let s := s.ownWrite req .prtGroupCfg (ixI g) v PRT_GROUP_CFG_EN.mask
    let en := PRT_GROUP_CFG_EN.get v = 1
    let s :=
      if en == s.groupEn g then s
      else if !en then s.groupStop g
      else if s.overlaps g then s.violation .prt 0
      else
        let s := s.set PRT_GROUP_CFG_EN (ixI g) 1
        if s.prt.ready then s.initRole g else s
    s.protJudge

/-! ## Coordinated switches, R547, R548 -/

/-- A ROLE message of an OP: group, ID and T. -/
def State.takeRoleMsg (s : State) (lane : Nat) (msg : List Byte) (op : Nat) (f : Nat → Nat → Nat → State → State) : State :=
  s.takeFelt lane msg 5 fun m s =>
    if feltField m 5 1 = op then f (feltField m 4 1 % 32) (feltField m 6 2) (ofStamp96 (m.drop 8)) s else s

/-- ROLE_RELEASE: the mate proposes a switch at T and gets ACK (R547 step 2); RELEASEs that cross in one frame abandon
both (R548); a duplicate does nothing (R538). -/
def roleRelease (lane : Fin 4) (msg : List Byte) (s : State) : State :=
  s.takeRoleMsg lane.val msg 1 fun g id t s =>
    if !s.prt.ready || !s.groupEn g then s
    else
      match (s.group g).switch with
      | some w =>
        if w.giver && !w.done && s.tim.total + switchLead < w.t + feltFrame then (s.abandon g true).sendRole g 4 w.id w.t
        else s
      | none =>
        if s.active g then s
        else
          let w : SwitchSt := ⟨id, t, false, true, false, 0⟩
          (s.modGroup g fun x => { x with switch := some w }).sendRole g 2 id t

/-- A change of a group's switch with an ID, where it has one. -/
def State.withSwitch (s : State) (g id : Nat) (f : SwitchSt → State) : State :=
  match (s.group g).switch with
  | some w => if w.id = id then f w else s
  | none => s

/-- ROLE_ACK. -/
def roleAck (lane : Fin 4) (msg : List Byte) (s : State) : State :=
  s.takeRoleMsg lane.val msg 2 fun g id _ s => s.withSwitch g id fun w =>
    if w.giver then s.modGroup g fun x => { x with switch := some { w with acked := true } } else s

/-- ROLE_DRAINED: the new ACTIVE enables its transmitters, and the switch is complete (R547 step 4). -/
def roleDrained (lane : Fin 4) (msg : List Byte) (s : State) : State :=
  s.takeRoleMsg lane.val msg 3 fun g id _ s => s.withSwitch g id fun w =>
    if w.giver || !w.done then s else (s.switched g).protJudge

/-- ROLE_ABORT: the switch is abandoned and roles stay (R547, R548). -/
def roleAbort (lane : Fin 4) (msg : List Byte) (s : State) : State :=
  s.takeRoleMsg lane.val msg 4 fun g id _ s => s.withSwitch g id fun w =>
    if w.done then s else (s.abandon g w.giver).protJudge

/-- SWITCH_ACK_TIMEOUT: no ACK by T − 5 µs (R547 step 2). -/
def switchAckTimeout (g : Fin 32) (s : State) : State :=
  match (s.group g.val).switch with
  | some w =>
    if w.giver && !w.acked && !w.done then
      (((s.abandon g.val false).sendRole g.val 4 w.id w.t).raiseAt PRT_INT_STATUS_SWITCH_BLOCKED 0 0 g.val 0).protJudge
    else s
  | none => s

/-- The egress queues of a group's member ports that hold packets. -/
def State.groupQueues (s : State) (g : Nat) : List Nat :=
  (s.qsc.qs.filter fun e => s.voqEnd ≤ e.1 && !e.2.pkts.isEmpty && s.memberOf g (s.portOfQueue e.1)).map (·.1)

/-- A packet for a member port is on its way to the line. -/
def State.groupOnWay (s : State) (g : Nat) : Bool :=
  s.egr.waiting.any (fun e => s.memberOf g e.pkt.dport)
    || s.couch.qxToFx.any fun u => match u with | .egress _ p => s.memberOf g p.dport | _ => false

/-- The drain of a group ends: what is left is discarded, DRAINED is sent, and the switch is complete (R547 step 3). -/
def State.finishDrain (s : State) (g : Nat) : State :=
  let s := (s.groupQueues g).foldl (fun s q =>
    let (s, go) := s.popQueue q (s.queue q).pkts.length
    go.foldl (fun s p => (s.usedDown p.pg p.cls p.bytes.length).count PRT_SWITCH_DISCARD_COUNT ix0 1) s) s
  match (s.group g).switch with
  | some w => (s.sendRole g 3 w.id w.t).switched g
  | none => s.modGroup g fun x => { x with draining := false }

/-- A group that has nothing left to drain is drained. -/
def State.drainSettle (s : State) (g : Nat) : State :=
  if (s.group g).draining && (s.groupQueues g).isEmpty && !s.groupOnWay g then s.finishDrain g else s

/-- SWITCH_INSTANT: at T roles change (R547 steps 3 to 5); the giver drains, the taker's transmitters wait, and ingress
packets of the group wait on both. An unacknowledged RELEASE does not act. -/
def switchInstant (g : Fin 32) (s : State) : State :=
  let g := g.val
  match (s.group g).switch with
  | none => s
  | some w =>
    if w.done || !w.acked then s
    else
      let s := s.modGroup g fun x =>
        { x with switch := some { w with done := true }, draining := w.giver, txHeld := !w.giver, gap := true }
      ((s.takeRole g (!w.giver)).drainSettle g).protJudge

/-- DRAIN_MAX_EXPIRY: the giver's drain ends; or the taker enables its transmitters without DRAINED (R547). -/
def drainMaxExpiry (g : Fin 32) (s : State) : State :=
  let x := s.group g.val
  if x.draining then (s.finishDrain g.val).protJudge
  else if x.txHeld then (s.switched g.val).protJudge
  else s

/-- INGRESS_GAP_EXPIRY: the group's ingress packets are admitted again by the module that holds it (R547 step 5). -/
def ingressGapExpiry (g : Fin 32) (s : State) : State := s.modGroup g.val fun x => { x with gap := false }

/-- WTR_EXPIRY: the conditions of wait-to-restore have held for WTR; the group returns (R549). -/
def wtrExpiry (g : Fin 32) (s : State) : State :=
  if (s.group g.val).wtr.isNone || !s.domUp domQC then s else s.judgeGroup g.val true

/-! ## Health, R557, R564 -/

/-- HEALTH_SEND: every 1 ms in RUN, on the lowest locked lane (R538). -/
def healthSend (s : State) : State :=
  if s.gen.phase != .run then s else s.sendFelt 0 6 (zeros 4 ++ beBytes 8 (s.rd .prtHealth ix0).toNat)

/-- FELT_HEALTH: the mate's health word (R557, R564). -/
def feltHealth (lane : Fin 4) (msg : List Byte) (s : State) : State :=
  s.takeFelt lane.val msg 6 fun m s =>
    let w := BitVec.ofNat 64 (feltField m 8 8) &&& 0x0000FFFF003FFFFF
    if w = s.rd .prtMateHealth ix0 then s
    else ((s.wr .prtMateHealth ix0 w).raise PRT_INT_STATUS_HEALTH_CHG).alertClass 3

/-- BACKGROUND_TEST: a pass of pattern tests of a module that is SHADOW for a group ends with the parts that failed
(R557). -/
def backgroundTest (sched buf spare asa : Bool) (s : State) : State :=
  if !s.prt.groups.any (fun e => e.2.role == some false) then s
  else
    let put := fun (f : Field) (on : Bool) (s : State) => if on then s.healthTo f 0 true else s
    put PRT_HEALTH_ASA_FAIL asa (put PRT_HEALTH_SPARE_FAIL spare (put PRT_HEALTH_BUF_FAIL buf (put PRT_HEALTH_SCHED_FAIL sched s)))

/-! ## The mate's lock accesses, spec/05_rings_mailboxes_locks.md R171 -/

/-- A LOCK message of an OP: lock and value. -/
def State.takeLock (s : State) (lane : Nat) (msg : List Byte) (op : Nat) (f : Nat → Nat → State → State) : State :=
  s.takeFelt lane msg 7 fun m s =>
    if feltField m 5 1 = op then f (feltField m 4 1 % 64) (feltField m 6 1) s else s

/-- FELT_LOCK_READ: a free lock is acquired for the mate; the result goes back, 0xFF where the locks cannot be
reached. -/
def feltLockRead (lane : Fin 4) (msg : List Byte) (s : State) : State :=
  s.takeLock lane.val msg 1 fun n _ s =>
    let (s, v) := if s.domUp domHP then s.readLock .mate n else (s, 0xFF)
    s.sendFelt 0 7 (beBytes 1 n ++ beBytes 1 3 ++ beBytes 1 v)

/-- FELT_LOCK_RELEASE. -/
def feltLockRelease (lane : Fin 4) (msg : List Byte) (s : State) : State :=
  s.takeLock lane.val msg 2 fun n _ s => if s.domUp domHP then s.releaseLock .mate n else s

/-- FELT_LOCK_RESULT: the value of an access to a lock of the mate. -/
def feltLockResult (lane : Fin 4) (msg : List Byte) (s : State) : State :=
  s.takeLock lane.val msg 3 fun n v s => s.emit (.lockResult n v)

/-! ## Recovery, R558 -/

/-- RECOVERY_DONE: DONE written to PRT_RECOVERY. -/
def recoveryDone (_req : Req) (v : W64) (s : State) : State :=
  if PRT_RECOVERY_DONE.get v = 0 || !s.domUp domQC then s
  else
    let ream := match s.prt.mate with | some m => m.ream | none => 0
    let calm := (List.range 16).all fun k => s.fld PRT_SLICE_STATUS_RUN (ixI k) = 0
    let passed := s.fld PRT_HEALTH_SLICE_FAIL ix0 = 0
    if s.prt.pairState = 1 && s.cmt.newest = ream && calm && passed then
      let s := { s with prt := { s.prt with recovering := false } }
      (s.raise PRT_INT_STATUS_RECOVERY_DONE).protJudge
    else s.violation .prt 0

end Sys2Proof.Machine
end

