-- ==== Sys2Proof/Machine/Compare.lean ====
section
/-!
DEFINITION. Machine/Compare.lean: epochs, digests and the self-tests that follow a mismatch
(spec/18_protection.md R553 to R556).
-/
namespace Sys2Proof.Machine

open Fld

/-- This module is the epoch leader (R553). -/
def State.leads (s : State) : Bool := s.mapped s.ownId && s.ownId % 2 == 0

/-- The member ports of a slice. -/
def State.slicePorts (s : State) (k : Nat) : List Nat := (sliceEnts k).filter fun p => (s.protOf p).isSome

/-- A number of m bits is before another, counting around. -/
def before (m a b : Nat) : Bool := a % 2 ^ m != b % 2 ^ m && (b + 2 ^ m - a % 2 ^ m) % 2 ^ m < 2 ^ (m - 1)

/-- The records of an epoch: those of frames before the per-port counts that end it. -/
def inEpoch (ends : List (Nat × Nat)) (r : RecHash) : Bool :=
  match ends.find? fun e => e.1 = r.port with
  | some e => before 24 r.seq e.2
  | none => true

/-- The lowest of the reasons given, 0 for none. -/
def lowestNc (xs : List Nat) : Nat := (xs.filter (· != 0)).foldl (fun a x => if a = 0 || x < a then x else a) 0

/-- An epoch of a slice closes at per-port counts: its digest is the XOR of its records' hashes (R553), with the
reason this module knows for which it is not comparable (R554). -/
def State.closeEpoch (s : State) (k epoch : Nat) (ends : List (Nat × Nat)) (misaligned : Bool) : State × DigestMsg :=
  let c := s.cmp k
  let mine := c.hist.filter (inEpoch ends)
  let reams := mine.map (·.ream)
  let ream := reams.headD s.cmt.newest
  let bad := ends.foldl (fun a e => a + ((s.frames e.1).bad.filter fun n => before 24 n e.2).length) 0
  let nc := lowestNc [2 * ofBool (reams.any (· != ream)), 3 * ofBool misaligned, 4 * ofBool c.full, 5 * ofBool c.felt]
  let d : DigestMsg := ⟨epoch, nc, mine.foldl (fun a r => a ^^^ r.hash) 0, bad, ream⟩
  let s := s.setCmp k { c with hist := c.hist.filter (fun r => !inEpoch ends r), full := false, felt := !s.prt.felt, mine := some d }
  let fs := ends.foldl (fun t e =>
    tblPut e.1 { s.frames e.1 with bad := (s.frames e.1).bad.filter fun n => !before 24 n e.2 } t) s.lin.frames
  (({ s with lin := { s.lin with frames := fs } }).set PRT_SLICE_STATUS_EPOCH (ixI k) epoch, d)

/-- DIGEST is sent (R538). -/
def State.sendDigest (s : State) (k : Nat) (d : DigestMsg) : State :=
  s.sendFelt (k % 4) 3 (beBytes 1 k ++ beBytes 1 d.nc ++ zeros 2 ++ beBytes 4 d.epoch ++ beBytes 8 d.digest.toNat
    ++ beBytes 4 d.fcsErr ++ beBytes 4 d.ream)

/-- A self-test of a slice is under way from T (R555). -/
def State.testFrom (s : State) (k t : Nat) : State :=
  (s.setCmp k { s.cmp k with test := some ⟨t, none, none⟩ }).set PRT_SLICE_STATUS_TESTING (ixI k) 1

/-- The two digests of an epoch are compared (R554); two comparable mismatches in a row make the leader ask for a
self-test (R555). -/
def State.compare (s : State) (k : Nat) : State :=
  match (s.cmp k).mine, (s.cmp k).mate with
  | some a, some b =>
    if a.epoch != b.epoch then s
    else
      let s := s.setCmp k { s.cmp k with mine := none, mate := none }
      let nc := lowestNc [a.nc, b.nc, ofBool (a.fcsErr != b.fcsErr), 2 * ofBool (a.ream != b.ream)]
      if nc != 0 then (s.count PRT_CMP_COUNT (ixIJ k 2) 1).set PRT_SLICE_STATUS_LAST_NC (ixI k) nc
      else if a.digest = b.digest then (s.count PRT_CMP_COUNT (ixIJ k 0) 1).set PRT_SLICE_STATUS_RUN (ixI k) 0
      else
        let run := s.fld PRT_SLICE_STATUS_RUN (ixI k) + 1
        let s := ((s.count PRT_CMP_COUNT (ixIJ k 1) 1).set PRT_SLICE_STATUS_RUN (ixI k) (min 2 run)).raiseAt
          PRT_INT_STATUS_MISMATCH 0 0 k 0
        if 2 ≤ run && s.leads && (s.cmp k).test.isNone then
          let t := s.tim.total + 10000 * 65536
          (s.testFrom k t).sendFelt (k % 4) 4 (beBytes 1 k ++ beBytes 1 1 ++ zeros 2 ++ stamp96 t)
        else s
  | _, _ => s

/-- The body of BOUNDARY (R538). -/
def State.boundaryBody (s : State) (k epoch : Nat) : List Byte :=
  let at_ := fun (f : FrameSeq → Nat) (n : Nat) => (sliceEnts k).flatMap fun p =>
    beBytes n (if (s.protOf p).isSome then f (s.frames p) else 0)
  beBytes 1 k ++ zeros 3 ++ beBytes 4 epoch ++ at_ (fun x => x.seq.toNat % 2 ^ 24) 3 ++ at_ (fun x => (x.fcs.headD 0).toNat) 4

/-- The follower finds the leader's last frame of a port, and corrects its count where it stands elsewhere (R553). The
answer says whether the port was aligned. -/
def State.alignPort (s : State) (p next fcs : Nat) : State × Bool :=
  let x := s.frames p
  if next = 0 && x.seq = 0 then (s, true)
  else
    match x.fcs.findIdx? fun f => f.toNat = fcs with
    | none => (s, false)
    | some j =>
      let diff := BitVec.ofNat 24 next - (x.seq - BitVec.ofNat 32 j).setWidth 24
      if diff = 0 then (s, true)
      else
        let d32 : BitVec 32 := diff.signExtend 32
        let move := fun (n : Nat) => (BitVec.ofNat 32 n + d32).toNat
        let y : FrameSeq := ⟨x.seq + d32, x.fcs, x.bad.map move⟩
        let k := p / 16
        let c := s.cmp k
        let s := s.setCmp k { c with hist := c.hist.map fun (r : RecHash) => if r.port = p then { r with seq := move r.seq } else r }
        ({ s with lin := { s.lin with frames := tblPut p y s.lin.frames } }, false)

/-- BOUNDARY: the leader closes an epoch of a slice once 4,096 records have been formed and sends BOUNDARY and DIGEST
(`msg` none); or the follower receives BOUNDARY and closes its epoch at the same counts (R553). Nothing is compared
while the felt path is lost (R543). -/
def boundary (slice : Fin 16) (msg : Option (List Byte)) (s : State) : State :=
  let k := slice.val
  match msg with
  | none =>
    if !s.leads || !s.domUp domQC || (s.cmp k).hist.length < 4096 then s
    else
      let epoch := (s.fld PRT_SLICE_STATUS_EPOCH (ixI k) + 1) % 2 ^ 32
      let s := s.sendFelt (k % 4) 2 (s.boundaryBody k epoch)
      let ends := (s.slicePorts k).map fun p => (p, (s.frames p).seq.toNat % 2 ^ 24)
      let (s, d) := s.closeEpoch k epoch ends false
      (s.sendDigest k d).compare k
  | some m =>
    let lane := (((List.range 4).map fun i => (k + i) % 4).find? s.laneLocked).getD 0
    s.takeFelt lane m 2 fun m s =>
      if feltField m 4 1 != k || s.leads then s
      else
        let ps := s.slicePorts k
        let next := fun p => feltField m (12 + 3 * (p % 16)) 3
        let (s, ok) := ps.foldl (fun (a : State × Bool) p =>
          let (s, y) := a.1.alignPort p (next p) (feltField m (60 + 4 * (p % 16)) 4)
          (s, a.2 && y)) (s, true)
        let (s, d) := s.closeEpoch k (feltField m 8 4) (ps.map fun p => (p, next p)) (!ok)
        (s.sendDigest k d).compare k

/-- DIGEST: the mate's digest of an epoch (R554). -/
def digest (lane : Fin 4) (msg : List Byte) (s : State) : State :=
  s.takeFelt lane.val msg 3 fun m s =>
    let k := feltField m 4 1 % 16
    let d : DigestMsg := ⟨feltField m 8 4, feltField m 5 1 % 8, BitVec.ofNat 64 (feltField m 12 8), feltField m 20 4, feltField m 24 4⟩
    (s.setCmp k { s.cmp k with mate := some d }).compare k

/-! ## Self-tests, R555, R556 -/

/-- A TEST message of an OP: slice, PASS, T. -/
def State.takeTest (s : State) (lane : Nat) (msg : List Byte) (op : Nat) (f : Nat → Bool → Nat → State → State) : State :=
  s.takeFelt lane msg 4 fun m s =>
    if feltField m 5 1 = op then f (feltField m 4 1 % 16) (feltField m 6 1 != 0) (ofStamp96 (m.drop 8)) s else s

/-- TEST_REQUEST. -/
def testRequest (lane : Fin 4) (msg : List Byte) (s : State) : State :=
  s.takeTest lane.val msg 1 fun k _ t s => s.testFrom k t

/-- A self-test ends with LAST_TEST, and the mismatch run is 0 again (R555, R568). -/
def State.testEnd (s : State) (k last : Nat) : State :=
  let s := s.setCmp k { s.cmp k with test := none }
  ((s.set PRT_SLICE_STATUS_TESTING (ixI k) 0).set PRT_SLICE_STATUS_RUN (ixI k) 0).set PRT_SLICE_STATUS_LAST_TEST (ixI k) last

/-- Neither module is at fault (R556). -/
def State.diverged (s : State) (k : Nat) : State :=
  (s.count PRT_HEALTH_DIVERGENCES ix0 1).raiseAt PRT_INT_STATUS_DIVERGENCE 0 0 k 0

/-- The failing module hands every group over and then enters ISOLATE (R556). -/
def State.handOver (s : State) : State :=
  let held := (List.range 32).filter s.active
  let s := { s with prt := { s.prt with leaving := some (if held.isEmpty then 6 else 3) } }
  let s := if s.maySwitch then
      held.foldl (fun s g => if (s.group g).switch.isSome then s else s.startSwitch g 8) s
    else s
  s.protJudge

/-- The two results of a self-test are judged (R556, R559). -/
def State.verdict (s : State) (k : Nat) (mine mate : Bool) : State :=
  match mine, mate with
  | true, true => (s.testEnd k 1).diverged k
  | false, true => (s.testEnd k 2).handOver
  | true, false => s.testEnd k 3
  | false, false =>
    let s := (s.testEnd k 4).raiseAt PRT_INT_STATUS_SELFTEST_ALARM 0 0 k 0
    if s.prt.recovering && !s.gen.aliveOut then s.enterIsolate 5 else s

/-- SLICE_SELFTEST: at T this module runs the test, keeps its result in PRT_HEALTH and reports it (R555, R564). -/
def sliceSelftest (slice : Fin 16) (pass : Bool) (s : State) : State :=
  let k := slice.val
  match (s.cmp k).test with
  | none => s
  | some t =>
    if t.mine.isSome || !s.domUp domQC then s
    else
      let s := s.healthTo PRT_HEALTH_SLICE_FAIL k (!pass)
      let s := s.sendFelt (k % 4) 4 (beBytes 1 k ++ beBytes 1 2 ++ beBytes 1 (ofBool pass) ++ zeros 1 ++ stamp96 t.t)
      match t.mate with
      | some m => s.verdict k pass m
      | none => s.setCmp k { s.cmp k with test := some { t with mine := some pass } }

/-- TEST_RESULT: the mate's result (R556). -/
def testResult (lane : Fin 4) (msg : List Byte) (s : State) : State :=
  s.takeTest lane.val msg 2 fun k pass _ s =>
    match (s.cmp k).test with
    | none => s
    | some t =>
      match t.mine with
      | some m => s.verdict k m pass
      | none => s.setCmp k { s.cmp k with test := some { t with mate := some pass } }

/-- TEST_RESULT_TIMEOUT: no result from the mate within 200 µs: as both pass, with the mate's result recorded as none
(R556). -/
def testResultTimeout (slice : Fin 16) (s : State) : State :=
  match (s.cmp slice.val).test with
  | some t => if t.mine.isSome && t.mate.isNone then (s.testEnd slice.val 0).diverged slice.val else s
  | none => s

end Sys2Proof.Machine
end

