-- ==== Sys2Proof/Machine/Tables.lean ====
section
/-!
DEFINITION. Machine/Tables.lean: the versioned tables: tags and visibility, entries as packets and the host see them,
the exact-match pool and where an entry can stand in it, room and headroom, region digests, bad words
(spec/09_lookup.md R250 to R287, R620, spec/11_reams.md R328 to R346).
-/
namespace Sys2Proof.Machine

open Fld

/-! ## Tags, R329, R340 -/

/-- Tag x is at or before tag t, where f is the tag of the next ream (R340). -/
def atOrBefore (f x t : Nat) : Bool := (f + 16 - t % 16) % 16 ≤ (f + 16 - x % 16) % 16

/-- Whether an entry with these tags is visible to a packet with tag t (R340). -/
def tagVisible (f born retired t : Nat) : Bool :=
  let d := (retired + 16 - born % 16) % 16
  if d = 0 then true
  else if d = 8 then atOrBefore f born t
  else if d < 8 then atOrBefore f born t && !atOrBefore f retired t
  else !atOrBefore f retired t

/-- The tags of an entry written under tag f (R340). -/
def bornTags (f : Nat) : Nat × Nat := (f % 16, (f + 8) % 16)

/-- The tags of an entry retired under tag f (R340). -/
def retireTags (f born retired : Nat) : Nat × Nat :=
  let d := (retired + 16 - born % 16) % 16
  if d = 0 then ((f + 1) % 16, f % 16) else if d = 8 then (born, f % 16) else (born, retired)

/-- What settlement of the ream with tag r makes of an entry's tags; none where the entry is freed (R345). An entry
born in it and retired since becomes one born before every undrained ream. -/
def settleTags (r born retired : Nat) : Option (Nat × Nat) :=
  let d := (retired + 16 - born % 16) % 16
  if d != 0 && d != 8 && retired = r then none
  else if born = r && d = 8 then some (born, born)
  else if born = r && d != 0 && d < 8 then some ((retired + 1) % 16, retired)
  else some (born, retired)

/-- The tag of the next ream to be committed (R340). -/
def State.nextTag (s : State) : Nat := (s.cmt.newest + 1) % 16

/-- The tag of the newest committed ream. -/
def State.newTag (s : State) : Nat := s.cmt.newest % 16

/-! ## Tables by index, R330 -/

/-- The key of an index of a table. -/
def tkey (t i : Nat) : Nat := t * 2 ^ 32 + i
def tkeyTable (k : Nat) : Nat := k / 2 ^ 32
def tkeyIndex (k : Nat) : Nat := k % 2 ^ 32

/-- The table IDs of R287. -/
def tEm : Nat := 0x01
def tStash : Nat := 0x02
def tRoute : Nat := 0x03
def tTrie : Nat := 0x04
def tNextHop : Nat := 0x05
def tGroup : Nat := 0x06
def tMember : Nat := 0x07
def tProfile : Nat := 0x08
def tProfSel : Nat := 0x09
def tBd : Nat := 0x0A
def tStore : Nat := 0x0B
def tEntry : Nat := 0x0C
def tRewrite : Nat := 0x0D
def tMcast : Nat := 0x0E
def tRepl : Nat := 0x0F

/-- The versions stored for an index, oldest first. -/
def TablesSt.at_ (x : TablesSt) (k : Nat) : List Ver := tblGet [] x.vers k

/-- The versions of an index, set. -/
def TablesSt.putVers (x : TablesSt) (k : Nat) (vs : List Ver) : TablesSt :=
  { x with vers := if vs.isEmpty then tblDel k x.vers else tblPut k vs x.vers }

/-- A version's visibility. -/
def Ver.visible (v : Ver) (f t : Nat) : Bool := tagVisible f v.born v.retired t

/-- The version of an index that a packet with tag t sees (R340, R342). -/
def State.verAt (s : State) (k t : Nat) : Option Ver := (s.tab.at_ k).find? (fun (v : Ver) => v.visible s.nextTag t)

/-- An index as a packet reads it: all zeros where no version is visible (R268); and whether the version is bad. -/
def State.readAt (s : State) (tbl i tag : Nat) : Nat × Bool :=
  match s.verAt (tkey tbl i) tag with
  | none => (0, false)
  | some v => (v.img, v.bad)

/-- Where BORN, RETIRED and PAR lie in an image, for the tables whose layout holds them (R253, R254, R266, R268, R269,
R272 to R274, spec/16_egress_rewrite.md R489). -/
def tagBits (t : Nat) : Option (Nat × Nat × Nat) :=
  if t = tRoute then some (120, 116, 115)
  else if t = tNextHop then some (123, 119, 118)
  else if t = tGroup then some (39, 35, 34)
  else if t = tMember then some (20, 24, 29)
  else if t = tProfile then some (384 + 21, 384 + 25, 384 + 20)
  else if t = tProfSel then some (9, 13, 17)
  else if t = tBd then some (18, 22, 26)
  else if t = tRewrite then some (120, 116, 115)
  else if t = tMcast then some (37, 41, 45)
  else if t = tRepl then some (47, 51, 55)
  else none

/-- An image without the fields that the Commit Engine computes (R331). -/
def cleanImg (t img : Nat) : Nat :=
  match tagBits t with
  | none => img
  | some (b, r, p) => withBits (withBits (withBits img b 4 0) r 4 0) p 1 0

/-- An image as stored, with its tags; PAR is left open by the manual. -/
def storedImg (t : Nat) (v : Ver) (par : Nat) : Nat :=
  match tagBits t with
  | none => v.img
  | some (b, r, p) => withBits (withBits (withBits v.img b 4 v.born) r 4 v.retired) p 1 par

/-- The units, slots or entries that a version takes (R265, R330). -/
def verUnits (t : Nat) (v : Ver) : Nat := if t = tRoute then v.len / 16 else 1

/-! ## The exact-match pool, R259 to R264 -/

/-- The number of pool slots; stash slot j is held at poolSlots + j. -/
def poolSlots : Nat := 8388608
def stashSlots : Nat := 1024

/-- Whether a KIND has entries, and whether they are wide (R260). -/
def kindWide (k : Nat) : Bool := k == 4 || k == 5 || k == 6 || k == 8
def kindValid (k : Nat) : Bool := 1 ≤ k && k ≤ 8

/-- The key bytes of a KIND. -/
def kindKeyLen (k : Nat) : Nat := if kindWide k then 24 else 8

/-- G of a key (R261). -/
def emHash (kind key : Nat) : Nat := crc32c 0xFFFFFFFF (BitVec.ofNat 8 kind :: beBytes (kindKeyLen kind) key)

/-- The block and the two candidate buckets of a key (R261). -/
def emBlock (kind key : Nat) : Nat := bitsOf (emHash kind key) 21 11
def emBuckets (kind key : Nat) : Nat × Nat :=
  let g := emHash kind key
  let b := 512 * bitsOf g 21 11
  (b + bitsOf g 12 9, b + (bitsOf g 12 9 ^^^ (bitsOf g 0 9 ||| 1)))

/-- The slots that an entry at slot i fills. -/
def emWidth : EmSlot → Nat
  | .entry k _ _ _ _ _ _ _ => if kindWide k then 2 else 1
  | .poison _ => 1

/-- Whether a slot is filled by what is listed. -/
def emFilled (em : List (Nat × EmSlot)) (i : Nat) : Bool :=
  em.any fun e => e.1 ≤ i && i < e.1 + emWidth e.2

/-- Whether an entry is visible to tag t; a learned entry is so to every tag (R262). -/
def emVisible (f t : Nat) : EmSlot → Bool
  | .entry _ _ _ _ learned _ b r => learned || tagVisible f b r t
  | .poison _ => false

/-- Whether a slot holds this KIND and KEY. -/
def emIs (kind key : Nat) : EmSlot → Bool
  | .entry k q _ _ _ _ _ _ => k == kind && q == key
  | .poison _ => false

/-- The entry that a lookup finds (R262): its slot and its contents. -/
def State.emFind (s : State) (kind key t : Nat) : Option (Nat × EmSlot) :=
  s.tab.em.find? fun e => emIs kind key e.2 && emVisible s.nextTag t e.2

/-- The block of a slot's contents. -/
def emSlotBlock : EmSlot → Nat
  | .entry k q _ _ _ _ _ _ => emBlock k q
  | .poison b => b

/-- Whether POISON lies where it makes a lookup without a match unreliable: in a candidate bucket, or in a stash slot
of the key's block (R283). -/
def State.poisoned (s : State) (kind key : Nat) : Bool :=
  let (b1, b2) := emBuckets kind key
  s.tab.em.any fun e =>
    match e.2 with
    | .poison b => if e.1 < poolSlots then e.1 / 8 == b1 || e.1 / 8 == b2 else b == emBlock kind key
    | .entry .. => false

/-- A software entry of the exact-match pool retired under tag f. -/
def emRetire (f : Nat) : EmSlot → EmSlot
  | .entry k q r d false h b t =>
    let (b, t) := retireTags f b t
    .entry k q r d false h b t
  | x => x

/-- The tags of an entry that the ream of tag f stores (R340). -/
def emBornIn (f born retired : Nat) : Bool := (born, retired) == bornTags f

/-- The slots that an entry of a KIND at slot i takes. -/
def slotsOf (kind i : Nat) : List Nat := if kindWide kind then [i, i + 1] else [i]

/-- Whether something fills a slot of an entry of this KIND at slot i. -/
def slotTaken (em : List (Nat × EmSlot)) (kind i : Nat) : Bool := (slotsOf kind i).any (emFilled em)

/-- A relocation by the ream of tag f (R263): a learned entry, or one that this ream stores, moves; of a software entry
a copy is born and the old one retired. Nothing moves where the new slot has been taken meanwhile. -/
def emMove (f : Nat) (em : List (Nat × EmSlot)) (m : Nat × Nat) : List (Nat × EmSlot) :=
  match tblFind m.1 em with
  | some (.entry k q r d l h b t) =>
    if slotTaken (tblDel m.1 em) k m.2 then em
    else if l || emBornIn f b t then tblPut m.2 (.entry k q r d l h b t) (tblDel m.1 em)
    else tblPut m.2 (.entry k q r d l h (bornTags f).1 (bornTags f).2) (tblPut m.1 (emRetire f (.entry k q r d l h b t)) em)
  | _ => em

/-- The pool as the ream of tag f will leave it, but for what it retires: its entries and its relocations. -/
def emStaged (f : Nat) (em : List (Nat × EmSlot)) (edits : List Edit) : List (Nat × EmSlot) :=
  edits.foldl (fun em (e : Edit) =>
    match e with
    | .emAdd k q r d (some i) moves =>
      tblPut i (.entry k q r d false false (bornTags f).1 (bornTags f).2) (moves.foldl (emMove f) em)
    | .emMoves moves => moves.foldl (emMove f) em
    | _ => em) em

/-- The same with the ream being staged. -/
def State.stagedEm (s : State) : List (Nat × EmSlot) := emStaged s.nextTag s.tab.em s.cmt.edits

/-- Whether a learned entry is at a slot. -/
def learnedAt (em : List (Nat × EmSlot)) (i : Nat) : Bool :=
  match tblFind i em with
  | some (.entry _ _ _ _ l _ _ _) => l
  | _ => false

/-- The pool as it is stored while a ream is being staged (R337): with that ream's entries and copies in every slot that
is free already; a learned entry moves at the commit instant (R263). -/
def State.storedEm (s : State) : List (Nat × EmSlot) :=
  let f := s.nextTag
  let moved := fun (em : List (Nat × EmSlot)) (ms : List (Nat × Nat)) =>
    ms.foldl (fun em m => if learnedAt em m.1 then em else emMove f em m) em
  s.cmt.edits.foldl (fun em (e : Edit) =>
    match e with
    | .emAdd k q r d (some i) moves =>
      let em := moved em moves
      if slotTaken em k i then em else tblPut i (.entry k q r d false false (bornTags f).1 (bornTags f).2) em
    | .emMoves moves => moved em moves
    | _ => em) s.tab.em

/-- The tables as they are stored while a ream is being staged (R337). -/
def State.storedTab (s : State) : TablesSt :=
  let (b, r) := bornTags s.nextTag
  let x := s.cmt.edits.foldl (fun (x : TablesSt) (e : Edit) =>
    match e with
    | .put k img len bad => x.putVers k (x.at_ k ++ [(⟨b, r, cleanImg (tkeyTable k) img, len, bad⟩ : Ver)])
    | _ => x) s.tab
  { x with em := s.storedEm }

/-- The first place for an entry among 8 slots from `base`: a wide entry needs an even slot and the next (R259). -/
def placeIn (free : Nat → Bool) (base : Nat) (wide : Bool) : Option Nat :=
  if wide then ([0, 2, 4, 6].find? fun j => free (base + j) && free (base + j + 1)).map (base + ·)
  else ((List.range 8).find? fun j => free (base + j)).map (base + ·)

/-- The free slots of a bucket. -/
def freeCount (free : Nat → Bool) (base : Nat) : Nat := ((List.range 8).filter (fun j => free (base + j))).length

/-- An entry's alternate bucket. -/
def otherBucket (kind key b : Nat) : Nat :=
  let (b1, b2) := emBuckets kind key
  if b = b1 then b2 else b1

/-- The entries of a bucket that may be relocated. -/
def entriesIn (ok : Nat × EmSlot → Bool) (em : List (Nat × EmSlot)) (b : Nat) : List (Nat × Nat × Nat) :=
  em.filterMap fun e =>
    match e.2 with
    | .entry k q _ _ _ _ _ _ => if ok e && e.1 < poolSlots && e.1 / 8 = b then some (e.1, k, q) else none
    | .poison _ => none

/-- The table of slots without the entry at a slot. -/
def emWithout (em : List (Nat × EmSlot)) (i : Nat) : List (Nat × EmSlot) := tblDel i em

/-- One relocation that makes room in bucket b for an entry of this width: the entry's move and the place made. `busy`
are slots that are not free though nothing is listed in them. -/
def relocOne (busy : Nat → Bool) (ok : Nat × EmSlot → Bool) (em : List (Nat × EmSlot)) (b : Nat) (wide : Bool) :
    Option (Nat × List (Nat × Nat)) :=
  let free := fun (em : List (Nat × EmSlot)) (j : Nat) => !emFilled em j && !busy j
  (entriesIn ok em b).findSome? fun (i, k, q) =>
    match placeIn (free em) (8 * otherBucket k q b) (kindWide k) with
    | none => none
    | some dst =>
      match placeIn (fun j => free (emWithout em i) j && !(slotsOf k dst).contains j) (8 * b) wide with
      | none => none
      | some p => some (p, [(i, dst)])

/-- Two relocations: an entry of bucket b moves to its alternate bucket once another has left that one (R263). -/
def relocTwo (busy : Nat → Bool) (ok : Nat × EmSlot → Bool) (em : List (Nat × EmSlot)) (b : Nat) (wide : Bool) :
    Option (Nat × List (Nat × Nat)) :=
  (entriesIn ok em b).findSome? fun (i, k, q) =>
    match relocOne busy ok (emWithout em i) (otherBucket k q b) (kindWide k) with
    | none => none
    | some (dst, moves) =>
      match placeIn (fun j => !emFilled (emWithout em i) j && !busy j) (8 * b) wide with
      | none => none
      | some p => if moves.any (fun m => m.2 == p || m.2 + 1 == p || m.2 == p + 1) then none else some (p, moves ++ [(i, dst)])

/-- Where an insertion places an entry, and the relocations it needs (R263): the candidate bucket with more free slots,
or the first; the other; relocations to a depth of two of the entries that `ok` allows; the stash; nowhere. -/
def placeEm (busy : Nat → Bool) (ok : Nat × EmSlot → Bool) (em : List (Nat × EmSlot)) (kind key : Nat) :
    Option (Nat × List (Nat × Nat)) :=
  let free := fun j => !emFilled em j && !busy j
  let wide := kindWide kind
  let (b1, b2) := emBuckets kind key
  let order := if freeCount free (8 * b1) < freeCount free (8 * b2) then [b2, b1] else [b1, b2]
  match order.findSome? fun b => placeIn free (8 * b) wide with
  | some p => some (p, [])
  | none =>
    match order.findSome? fun b => relocOne busy ok em b wide with
    | some r => some r
    | none =>
      match order.findSome? fun b => relocTwo busy ok em b wide with
      | some r => some r
      | none =>
        ((List.range stashSlots).find? fun j =>
          let i := poolSlots + j
          if wide then j % 2 == 0 && free i && free (i + 1) else free i).map fun j => (poolSlots + j, [])

/-- The slots that relocations of the ream being staged move from. -/
def State.moveSources (s : State) : List Nat :=
  s.cmt.edits.flatMap fun (e : Edit) =>
    match e with
    | .emAdd _ _ _ _ _ ms | .emMoves ms => ms.map (·.1)
    | _ => []

/-- Where the learning engine places an entry: it relocates learned entries alone, and uses no slot that the ream being
staged has reserved (R263). -/
def State.placeLearn (s : State) (key : Nat) : Option (Nat × List (Nat × Nat)) :=
  let new := s.stagedEm.filter fun e => tblFind e.1 s.tab.em != some e.2
  placeEm (emFilled new) (fun e => learnedAt [e] e.1 && !s.moveSources.contains e.1) s.tab.em 1 key

/-- Entries that the Commit Engine can move within the ream of tag f: learned ones and those that the ream stores. -/
def movesAtOnce (f : Nat) (e : Nat × EmSlot) : Bool :=
  match e.2 with
  | .entry _ _ _ _ l _ b t => l || emBornIn f b t
  | .poison _ => false

/-- Where the Commit Engine places an entry of the ream being staged (R263). -/
def State.placeAdd (s : State) (kind key : Nat) : Option (Nat × List (Nat × Nat)) :=
  placeEm (fun _ => false) (movesAtOnce s.nextTag) s.stagedEm kind key

/-- A command of the ream names this exact-match key. -/
def emNamed (kind key : Nat) : Edit → Bool
  | .emAdd k q _ _ _ _ | .emDel k q => k == kind && q == key
  | _ => false

/-- A software entry that the ream being staged may relocate: committed, not retired, named by no command of the ream,
and not relocated by it before. -/
def State.softMovable (s : State) (kind key : Nat) (em : List (Nat × EmSlot)) (e : Nat × EmSlot) : Bool :=
  match e.2 with
  | .entry k q _ _ false _ b t =>
    let d := (t + 16 - b % 16) % 16
    (d == 0 || d == 8) && !emBornIn s.nextTag b t && !(k == kind && q == key) && !s.cmt.edits.any (emNamed k q)
      && !em.any (fun x => emIs k q x.2 && x.1 != e.1 && emVisible s.nextTag s.nextTag x.2)
  | _ => false

/-- The relocation of a software entry out of a candidate bucket without room, to a depth of two moves (R263): its copy
is born and its old copy retired in the ream, so that the slot is free once the ream has settled (log entry 40). -/
def State.softMove (s : State) (kind key : Nat) : Option (List (Nat × Nat)) :=
  let em := s.stagedEm
  let (b1, b2) := emBuckets kind key
  [b1, b2].findSome? fun b =>
    (entriesIn (s.softMovable kind key em) em b).findSome? fun (i, k, q) =>
      let alt := otherBucket k q b
      match placeIn (fun j => !emFilled em j) (8 * alt) (kindWide k) with
      | some dst => some [(i, dst)]
      | none => (relocOne (fun _ => false) (movesAtOnce s.nextTag) em alt (kindWide k)).map fun (dst, ms) => ms ++ [(i, dst)]

/-- The learned entries (R278). -/
def State.learnedCount (s : State) : Nat :=
  (s.tab.em.filter fun e => match e.2 with
    | .entry _ _ _ _ l _ _ _ => l
    | .poison _ => false).length

/-! ## Room, R330, R346 -/

/-- The capacity of a table; for 0x0B and 0x0C of one slice; none for an ID that R330 does not list. -/
def tableCap (t : Nat) : Option Nat :=
  if t = tEm then some 8388608
  else if t = tRoute then some 12582912
  else if t = tNextHop then some 1048576
  else if t = tGroup then some 65536
  else if t = tMember then some 1048576
  else if t = tProfile then some 256
  else if t = tProfSel then some 4096
  else if t = tBd then some 65536
  else if t = tStore then some 8192
  else if t = tEntry then some 36
  else if t = tRewrite then some 2097152
  else if t = tMcast then some 65536
  else if t = tRepl then some 262144
  else if 0x10 ≤ t && t < 0x30 then some 32768
  else none

/-- The part of a table that a key counts in: the slice for 0x0B and 0x0C, one part otherwise (R346). -/
def tablePart (k : Nat) : Nat :=
  if tkeyTable k = tStore then tkeyIndex k / 8192
  else if tkeyTable k = tEntry then tkeyIndex k / 32 else 0

/-- H of a table (R346, R354). -/
def headroomOf (shift c : Nat) : Nat := c >>> (if 2 ≤ shift && shift ≤ 10 then shift else 4)
def State.headroom (s : State) (t : Nat) : Nat := headroomOf (s.fld CMT_HEADROOM_SHIFT (ixI t)) ((tableCap t).getD 0)

/-- The units of an ASA width code (R296). -/
def asaUnits (w : Nat) : Nat := 2 ^ w

/-- LIVE and the units in use of a table, or of slice `part` of it, of the tables as they stand, judged by the tag of
the newest ream and that of the next (R346). -/
def liveUsed (f newTag : Nat) (x : TablesSt) (asa : AsaSt) (t part : Nat) : Nat × Nat :=
  if t = tEm then
    x.em.foldl (fun a e =>
      if poolSlots ≤ e.1 then a
      else
        let w := emWidth e.2
        let live := match e.2 with
          | .poison _ => true
          | .entry .. => emVisible f newTag e.2
        (a.1 + (if live then w else 0), a.2 + w)) (0, 0)
  else if 0x10 ≤ t then
    asa.ents.foldl (fun a (e : AsaEnt) =>
      if e.loc / 32768 = t - 0x10 then
        let w := asaUnits e.width
        (a.1 + (if tagVisible f e.born e.retired newTag then w else 0), a.2 + w)
      else a) (0, 0)
  else
    x.vers.foldl (fun a e =>
      if tkeyTable e.1 = t && tablePart e.1 = part then
        e.2.foldl (fun a (v : Ver) =>
          let w := verUnits t v
          (a.1 + (if v.visible f newTag then w else 0), a.2 + w)) a
      else a) (0, 0)

/-- Whether an entry is stored in one of the `n` units from u. -/
def AsaEnt.overlaps (e : AsaEnt) (u n : Nat) : Bool := e.loc < u + n && u < e.loc + asaUnits e.width

/-- The ASA entry that the newest ream sees at an index. -/
def asaLive (f t i : Nat) (es : List AsaEnt) : Option AsaEnt :=
  es.find? fun (e : AsaEnt) => e.idx == i && tagVisible f e.born e.retired t

/-- An ASA entry with the tags of the ream that writes it. -/
def AsaEnt.bornUnder (e : AsaEnt) (f : Nat) : AsaEnt := { e with born := (bornTags f).1, retired := (bornTags f).2 }

/-- The copy that a MOVE of an entry to unit `dst` makes under tag f (R314). -/
def AsaEnt.copyTo (e : AsaEnt) (f dst : Nat) : AsaEnt :=
  { e with idx := dst, loc := dst, shadow := true, reloc := false, link := e.idx, bad := e.bad }.bornUnder f

/-- The arrays as they are stored while a ream is being staged (R337): with that ream's entries and copies in every slot
that is free already. -/
def State.storedAsa (s : State) : AsaSt :=
  let f := s.nextTag
  let more := s.cmt.edits.filterMap fun (e : Edit) =>
    match e with
    | .asaPut e => some (e.bornUnder f)
    | .asaMove src dst => (asaLive f s.newTag src s.asa.ents).map fun (e : AsaEnt) => e.copyTo f dst
    | _ => none
  { s.asa with ents := s.asa.ents ++ more.filter fun (e : AsaEnt) =>
      !s.asa.ents.any fun (y : AsaEnt) => y.overlaps e.loc (asaUnits e.width) }

/-- LIVE and HELD of a table under the newest ream, what is staged held (R337, R346, R354). -/
def State.liveHeld (s : State) (t part : Nat) : Nat × Nat :=
  let (l, u) := liveUsed s.nextTag s.newTag s.storedTab s.storedAsa t part
  (l, u - l)

/-! ## Region digests, R285 to R287 -/

/-- The digest index of an entry's region, for a table other than the exact-match pool (R287). -/
def regionOf (t i : Nat) : Nat :=
  if t = tRoute then 2048 + i / 4096
  else if t = tNextHop then 5120 + i / 4096
  else if t = tGroup then 5376 + i / 4096
  else if t = tMember then 5392 + i / 4096
  else if t = tProfile then 5648
  else if t = tProfSel then 5649
  else if t = tBd then 5650 + i / 4096
  else if t = tStore then 5666 + i / 4096
  else if t = tEntry then 5698 + i / 32
  else if t = tRewrite then 5714 + i / 4096
  else if t = tMcast then 6354 + i / 4096
  else if t = tRepl then 6370 + i / 4096
  else 6226 + i / 8192

/-- The bytes of an entry's layout. -/
def entryBytes (t : Nat) (v : Ver) : Nat := if t = tMember then 4 else v.len

/-- An entry's bytes for the digest: unit by unit for a route record, most significant byte first (R285). -/
def digestBytes (t : Nat) (v : Ver) : List Byte :=
  if t = tRoute then (List.range (v.len / 16)).flatMap fun u => beBytes 16 (bitsOf v.img (128 * u) 128)
  else beBytes (entryBytes t v) v.img

/-- H of an entry (R285). -/
def digestHash (t k : Nat) (bytes : List Byte) : W64 := crc64 (BitVec.ofNat 8 t :: beBytes 4 k ++ bytes)

/-- H of a version stored for an index. -/
def verHash (t i : Nat) (v : Ver) : W64 := digestHash t i (digestBytes t v)

/-- An exact-match entry as a number of 16 or 32 bytes (R259). -/
def emNumber (kind key result data learned hit born retired : Nat) : Nat :=
  let w := 64 * ofBool (kindWide kind) * 2
  kind * 2 ^ (124 + w) + learned * 2 ^ (123 + w) + hit * 2 ^ (122 + w) + born * 2 ^ (118 + w) + retired * 2 ^ (114 + w)
    + key * 2 ^ 48 + result * 2 ^ 24 + data

/-- H of an exact-match entry; nothing for POISON and learned entries (R285). -/
def emHashOf : EmSlot → W64
  | .entry k q r d false _ _ _ => digestHash tEm 0 (beBytes (if kindWide k then 32 else 16) (emNumber k q r d 0 0 0 0))
  | _ => 0

/-- The bits of an ASA entry's value or mask. -/
def asaBits (w : Nat) : Nat := 80 * asaUnits w

/-- H of an ASA entry (R321). -/
def asaHashOf (e : AsaEnt) : W64 :=
  digestHash (0x10 + e.idx / 32768) e.idx
    (beBytes 8 (e.prio + ofBool e.valid * 2 ^ 24) ++ beBytes 8 e.act0.toNat ++ beBytes 8 e.act1.toNat
      ++ beBytes (asaBits e.width / 8) e.value ++ beBytes (asaBits e.width / 8) e.mask)

/-- Whether a row of an ASA entry is disabled (R317). -/
def AsaSt.rowsOff (x : AsaSt) (e : AsaEnt) : Bool :=
  (List.range (asaUnits e.width)).any fun j => x.disRows.contains ((e.loc + j) / 2)

/-- The digest of a region's good entries (R285). -/
def State.digestGood (s : State) (i : Nat) : W64 :=
  let f := s.nextTag
  let t := s.newTag
  if i < 2048 then
    s.tab.em.foldl (fun a e => if emSlotBlock e.2 = i && emVisible f t e.2 then a ^^^ emHashOf e.2 else a) 0
  else if 6226 ≤ i && i < 6354 then
    s.asa.ents.foldl (fun a (e : AsaEnt) =>
      if 6226 + e.idx / 8192 = i && tagVisible f e.born e.retired t && !e.bad && !e.off && !s.asa.rowsOff e then
        a ^^^ asaHashOf e
      else a) 0
  else
    s.tab.vers.foldl (fun a e =>
      let tb := tkeyTable e.1
      if regionOf tb (tkeyIndex e.1) = i then
        e.2.foldl (fun a (v : Ver) => if v.visible f t && !v.bad then a ^^^ verHash tb (tkeyIndex e.1) v else a) a
      else a) 0

/-- DIGEST of a region: while STALE it lacks the removal of what went bad (R286). -/
def State.digest (s : State) (i : Nat) : W64 := s.digestGood i ^^^ tblGet 0 s.tab.stale i

/-- A region goes STALE; its digest word still holds `h` (R286). -/
def State.goStale (s : State) (i : Nat) (h : W64) : State :=
  { s with tab := { s.tab with stale := tblPut i (tblGet 0 s.tab.stale i ^^^ h) s.tab.stale } }

/-- DIGEST_RECOMPUTE (R286). -/
def digestRecompute (i : Fin 6434) (s : State) : State :=
  { s with tab := { s.tab with stale := tblDel i.val s.tab.stale } }

/-! ## Bad words, R241, R283, R317, R318, R620 -/

/-- An error in LKP_ERR_LOG (R283, R288). -/
def State.lkpError (s : State) (table index : Nat) (scan : Bool) : State :=
  let s := if s.flag LKP_ERR_LOG_VALID ix0 then s
    else (((s.set LKP_ERR_LOG_TABLE ix0 table).set LKP_ERR_LOG_INDEX ix0 index).set LKP_ERR_LOG_SCAN ix0
      (ofBool scan)).set LKP_ERR_LOG_VALID ix0 1
  (s.count LKP_ERR_LOG_COUNT ix0 1).raise LKP_INT_STATUS_PAR_ERR

/-- An error in PRS_ERR_LOG of a slice (R241, R247). -/
def State.prsError (s : State) (slice index : Nat) (entry scan : Bool) : State :=
  let x := ixN slice
  let s := if s.flag PRS_ERR_LOG_VALID x then s
    else (((s.set PRS_ERR_LOG_INDEX x index).set PRS_ERR_LOG_ENTRY x (ofBool entry)).set PRS_ERR_LOG_SCAN x
      (ofBool scan)).set PRS_ERR_LOG_VALID x 1
  (s.count PRS_ERR_LOG_COUNT x 1).raiseAt PRS_INT_STATUS_PAR_ERR slice 0 0 0

/-- An error in EGR_ERR_LOG (spec/16_egress_rewrite.md R508, R510). -/
def State.egrError (s : State) (index : Nat) (scan : Bool) : State :=
  let s := if s.flag EGR_ERR_LOG_VALID ix0 then s
    else ((s.set EGR_ERR_LOG_INDEX ix0 index).set EGR_ERR_LOG_SCAN ix0 (ofBool scan)).set EGR_ERR_LOG_VALID ix0 1
  (s.count EGR_ERR_LOG_COUNT ix0 1).raise EGR_INT_STATUS_PAR_ERR

/-- A bad word of a table is logged in its owner's log (R241, R283, spec/16_egress_rewrite.md R508). -/
def State.logBad (s : State) (t i : Nat) (scan : Bool) : State :=
  if t = tStore then s.prsError (i / 8192) (i % 8192) false scan
  else if t = tEntry then s.prsError (i / 32) (i % 32) true scan
  else if t = tRewrite then s.egrError i scan
  else s.lkpError t i scan

/-- The word that the ream being staged has stored for an index is bad (R337, R620). -/
def State.badStaged (s : State) (k : Nat) : State :=
  { s with cmt := { s.cmt with edits := s.cmt.edits.map fun (e : Edit) =>
      match e with
      | .put j img len bad => .put j img len (bad || j == k)
      | e => e } }

/-- The index and the version that hold word n of an index: a unit of a route record belongs to the record that it is
part of (R265). -/
def TablesSt.wordOwner (x : TablesSt) (k n : Nat) : Nat × Nat :=
  if tkeyTable k != tRoute then (k, n)
  else
    let i := tkeyIndex k
    let holders := ((List.range 4).filter (· ≤ i)).flatMap fun j =>
      let vs := x.at_ (k - j)
      ((List.range vs.length).filter fun m => j < max 1 ((vs.getD m ⟨0, 0, 0, 0, false⟩).len / 16)).map fun m => (k - j, m)
    holders.getD n (k, n)

/-- Version n of an index is bad from now on; the region goes STALE when the newest ream sees that version (R283, R286,
R620). -/
def State.badVer (s : State) (k n : Nat) : State :=
  let (k, n) := s.storedTab.wordOwner k n
  match (s.tab.at_ k)[n]? with
  | none => if n < (s.storedTab.at_ k).length then s.badStaged k else s
  | some v =>
    if v.bad then s
    else
      let t := tkeyTable k
      let s' := { s with tab := s.tab.putVers k (setAt n { v with bad := true } (s.tab.at_ k)) }
      s'.goStale (regionOf t (tkeyIndex k))
        (if v.visible s.nextTag s.newTag then verHash t (tkeyIndex k) v else 0)

/-- Upsets in the words that a packet's read meets: the stored versions become bad (R241, R283, R620). -/
def State.upsets (s : State) (ws : List TableWord) : State :=
  ws.foldl (fun s w =>
    match w with
    | .entry t i n => s.badVer (tkey t.toNat i.toNat) n
    | _ => s) s

/-- The first slot of what fills a slot. -/
def emAt (em : List (Nat × EmSlot)) (i : Nat) : Option (Nat × EmSlot) :=
  em.find? fun e => e.1 ≤ i && i < e.1 + emWidth e.2

/-- What LKP_ERR_LOG names a slot by: table 0x01, or 0x02 and the stash slot (R287). -/
def slotTable (i : Nat) : Nat × Nat := if i < poolSlots then (tEm, i) else (tStash, i - poolSlots)

/-- A bad exact-match word, found by a lookup or the scan: logged; an entry in it becomes POISON of its block, in every
slot it filled, and its region goes STALE; a free word is written empty again (R283, R620). The block of an unreadable
entry is the one that its slot lies in, or that its stash slot records (R264). -/
def State.badSlot (s : State) (i : Nat) (scan occ : Bool) : State :=
  let (t, j) := slotTable i
  let s := s.lkpError t j scan
  match emAt s.storedEm i with
  | some (a, e) =>
    match e with
    | .poison _ => s
    | .entry .. =>
      let b := emSlotBlock e
      let h := if emVisible s.nextTag s.newTag e then emHashOf e else 0
      let em := tblDel a s.tab.em
      let em := (List.range (emWidth e)).foldl (fun m n => tblPut (a + n) (EmSlot.poison b) m) em
      ({ s with tab := { s.tab with em := em } }).goStale b h
  | none =>
    if occ && i < poolSlots then
      ({ s with tab := { s.tab with em := tblPut i (EmSlot.poison (i / 4096)) s.tab.em } }).goStale (i / 4096) 0
    else if occ then
      let b := s.free.toNat % 2048
      ({ s.used with tab := { s.tab with em := tblPut i (EmSlot.poison b) s.tab.em } }).goStale b 0
    else s

/-- The slots that an exact-match lookup reads: its candidate buckets and the stash (R262). -/
def emReads (kind key i : Nat) : Bool :=
  let (b1, b2) := emBuckets kind key
  poolSlots ≤ i || i / 8 = b1 || i / 8 = b2

/-- An error in ASA_ERR_LOG: at unit u, of a row or of control and action words (R317, R318, R322). -/
def State.asaError (s : State) (u kind : Nat) (scan : Bool) : State :=
  let s := if s.flag ASA_ERR_LOG_VALID ix0 then s
    else (((((s.set ASA_ERR_LOG_ARRAY ix0 (u / 32768)).set ASA_ERR_LOG_BANK ix0 (u / 8192 % 4)).set ASA_ERR_LOG_SLOT
      ix0 (u % 8192)).set ASA_ERR_LOG_KIND ix0 kind).set ASA_ERR_LOG_SCAN ix0 (ofBool scan)).set ASA_ERR_LOG_VALID ix0 1
  s.count ASA_ERR_LOG_COUNT ix0 1

/-- Rows are disabled (R317, R318): ROW_DIS is set, and search contexts whose group holds the row lose it (R313). -/
def State.disableRows (s : State) (rows : List Nat) : State :=
  let new := rows.filter (fun r => !s.asa.disRows.contains r)
  if new.isEmpty then s
  else
    let s := { s with asa := { s.asa with disRows := s.asa.disRows ++ new } }
    let s := s.asa.ctxs.foldl (fun s (c, x) =>
      if x.pin.isSome && new.any (fun r => s.fld ASA_BANK_CFG_GROUP (ixI (r / 4096)) = x.group) then
        s.set ASA_SRCH_STATUS_ROW_LOST (ixI c) 1 else s) s
    s.raise ASA_INT_STATUS_ROW_DIS

/-- The rows of an ASA entry. -/
def asaRows (e : AsaEnt) : List Nat := ((List.range (asaUnits e.width)).map fun j => (e.loc + j) / 2).eraseDups

/-- The region of an entry that a disabled row or a bad word takes away goes STALE (R286). -/
def State.asaStale (s : State) (e : AsaEnt) : State :=
  if tagVisible s.nextTag e.born e.retired s.newTag && !e.bad && !e.off && !s.asa.rowsOff e then
    s.goStale (6226 + e.idx / 8192) (asaHashOf e)
  else s.goStale (6226 + e.idx / 8192) 0

/-- The entry whose control and action words are at a unit, bad: its rows are disabled and KIND 1 is logged (R318). -/
def State.badCtl (s : State) (e : AsaEnt) (scan : Bool) : State :=
  let s := s.asaError e.loc 1 scan
  let s := (s.asaStale e).disableRows (asaRows e)
  let mark := fun (x : AsaEnt) => if x.loc = e.loc then { x with bad := true } else x
  { s with
    asa := { s.asa with ents := s.asa.ents.map mark }
    cmt := { s.cmt with edits := s.cmt.edits.map fun (x : Edit) =>
      match x with
      | .asaPut y => .asaPut (mark y)
      | x => x } }

/-- The words of unit u, free, whose occupancy bit has failed: the slot holds a bad entry (R620). -/
def State.badFree (s : State) (u : Nat) : State :=
  let w := s.fld ASA_BANK_CFG_WIDTH (ixI (u / 8192))
  let loc := u - u % asaUnits w
  let e : AsaEnt := { idx := loc, loc := loc, width := w, value := 0, mask := 0, prio := 0, valid := false, act0 := 0,
                      act1 := 0, born := 0, retired := 0, shadow := false, reloc := false, link := 0, bad := true,
                      off := false }
  ({ s with asa := { s.asa with ents := s.asa.ents ++ [e] } }).badCtl e true

/-- A bad row (R317): disabled, KIND 0 logged, and its entries' regions STALE. -/
def State.badRow (s : State) (r : Nat) : State :=
  let s := s.asaError (2 * r) 0 true
  let s := (s.asa.ents.filter fun (e : AsaEnt) => (asaRows e).contains r).foldl State.asaStale s
  s.disableRows [r]

/-- Whether an ASA row holds an entry. -/
def State.rowHeld (s : State) (r : Nat) : Bool := s.storedAsa.ents.any fun (e : AsaEnt) => (asaRows e).contains r

/-- A bad word n of entry k of a table, logged: the entry that holds it goes bad; a word that holds nothing becomes an
occupied bad entry where its occupancy bit has failed (R620). -/
def State.badWord (s : State) (k n : Nat) (occ : Bool) : State :=
  let o := s.storedTab.wordOwner k n
  if o.2 < (s.storedTab.at_ o.1).length then s.badVer k n
  else if occ then
    ({ s with tab := s.tab.putVers k (s.tab.at_ k ++ [(⟨0, 0, 0, 0, true⟩ : Ver)]) }).goStale
      (regionOf (tkeyTable k) (tkeyIndex k)) 0
  else s

/-- DANDY_SCAN_CHECK: the scan reads a word. A good word stays; a bad word that holds nothing is logged and written
empty; a bad word that holds something, or whose occupancy bit has failed, is handled as its table says (R241, R283,
R317, R318, R620, spec/16_egress_rewrite.md R508). -/
def dandyScanCheck (w : TableWord) (found : WordFault) (s : State) : State :=
  match found with
  | .good => s
  | _ =>
    let occ := found == .occupancy
    match w with
    | .entry t i n =>
      if (tableCap t.toNat).isNone || t.toNat = tEm || 0x10 ≤ t.toNat then s
      else (s.logBad t.toNat i.toNat true).badWord (tkey t.toNat i.toNat) n occ
    | .slot i => if i.toNat < poolSlots + stashSlots then s.badSlot i.toNat true occ else s
    | .trie n =>
      let s := s.lkpError tTrie n.toNat true
      { s with tab := { s.tab with badTrie := if s.tab.badTrie.contains n.toNat then s.tab.badTrie
                                              else s.tab.badTrie ++ [n.toNat] } }
    | .row r => if s.rowHeld r.val || occ then s.badRow r.val else s.asaError (2 * r.val) 0 true
    | .ctl u =>
      match s.storedAsa.ents.find? fun (e : AsaEnt) => e.loc == u.toNat || (occ && e.overlaps u.toNat 1) with
      | some e => s.badCtl e true
      | none => if occ then s.badFree u.toNat else s.asaError u.toNat 1 true
    | .digest i => (s.used).goStale i.val s.free

/-- TRIE_REBUILD: the subtree of a bad node is rebuilt from the records (R283). -/
def trieRebuild (node : BitVec 24) (s : State) : State :=
  if s.tab.badTrie.contains node.toNat then
    ({ s with tab := { s.tab with badTrie := s.tab.badTrie.filter (· != node.toNat) } }).raise LKP_INT_STATUS_TRIE_REBUILT
  else s

/-! ## POISON, R284 -/

/-- POISON_CLR: the block's POISON slots become empty when its digest is the expected one and not STALE (R284). -/
def poisonClr (req : Req) (v : W64) (s : State) : State :=
  let s := s.ownWrite req .lkpPoisonClr ix0 v 0
  let b := LKP_POISON_CLR_BLOCK.get v
  if (tblFind b s.tab.stale).isNone && s.digest b = s.rd .lkpPoisonExp ix0 then
    let em := s.tab.em.filter fun e => match e.2 with
      | .poison x => x != b
      | .entry .. => true
    ({ s with tab := { s.tab with em := em } }).set LKP_POISON_STATUS_LAST_OK ix0 1
  else (s.set LKP_POISON_STATUS_LAST_OK ix0 0).raise LKP_INT_STATUS_POISON_CLR_FAIL

end Sys2Proof.Machine
end

