-- ==== Sys2Proof/Machine/Parse.lean ====
section
/-!
DEFINITION. Machine/Parse.lean: dispatch to the ingress pipelines, the parse engines and their instructions, and the
exit of the pipelines (spec/01_architecture.md R30, R31, spec/08_parser.md R224 to R246).
-/
namespace Sys2Proof.Machine

open Fld

/-! ## The exit of a pipeline, spec/01_architecture.md R30, R35, R47 -/

/-- The bytes of a packet that leaves a pipeline. -/
def PipeOut.size : PipeOut → Nat
  | .fwd p => p.bytes.length
  | .host p => p.bytes.length

/-- The bytes of a slice that wait for the couch link. -/
def State.couchHeld (s : State) (slice : Nat) : Nat :=
  s.couch.fxToQx.foldl (fun a (u : CouchUnit) =>
    match u with
    | .pipe k o | .back k o => if k = slice then a + o.size else a
    | .egress _ _ | .learn _ _ _ | .write _ => a) 0

/-- A packet is discarded at its slice's couch buffer, and counted (R47). -/
def State.couchDiscard (s : State) (slice : Nat) : State :=
  if s.domUp (slice / 2) then s.count LIN_COUCH_DISCARD_COUNT (ixN slice) 1 else s

/-- A unit enters the couch link toward QX, or is discarded at the couch buffer while QC is in reset (R47) or a link
that is not UP has filled the slice's 512 KiB (R35), or is lost on a link that is DOWN (R36). -/
def State.couchSend (s : State) (slice : Nat) (u : CouchUnit) (size : Nat) : State :=
  if !s.domUp domQC || s.gen.warmBusy then s.couchDiscard slice
  else if s.couch.st == .down then s
  else if s.couch.st != .up && 524288 < s.couchHeld slice + size then s.couchDiscard slice
  else { s with couch := { s.couch with fxToQx := s.couch.fxToQx ++ [u] } }

/-- The packets whose turn it is to leave: at the exit stage, with no older packet of their ingress port still inside
(R30); and the packets that stay. -/
def exitSplit : List Pkt → List Nat → List Pkt × List Pkt
  | [], _ => ([], [])
  | p :: t, blocked =>
    if p.stage == .exit && !blocked.contains p.arr.port then
      let (go, stay) := exitSplit t blocked
      (p :: go, stay)
    else
      let (go, stay) := exitSplit t (p.arr.port :: blocked)
      (go, p :: stay)

/-- Packets leave the exit reorder stage in arrival order per ingress port (R30). -/
def State.settleExit (s : State) : State :=
  let (go, stay) := exitSplit s.ing.pkts []
  let s := { s with ing := { s.ing with pkts := stay } }
  go.foldl (fun s (p : Pkt) => p.outs.foldl (fun s o => s.couchSend p.slice (.pipe p.slice o) o.size) s) s

/-- The packets in the pipelines, the first of those that satisfy q changed. -/
def State.modPkt (s : State) (q : Pkt → Bool) (f : Pkt → Pkt) : State :=
  { s with ing := { s.ing with pkts := modFirst q f s.ing.pkts } }

/-- The first packet that satisfies q is gone; younger packets of its port may leave. -/
def State.dropPkt (s : State) (q : Pkt → Bool) : State :=
  let s := match takeFirst q s.ing.pkts with
    | none => s
    | some (_, rest) => { s with ing := { s.ing with pkts := rest } }
  s.settleExit

/-- No decision of its own yet. -/
def Decision.none_ : Decision := ⟨0, 0, 0, 0, 0, 0, 0, 0, 0, 0, 0, false, 0⟩

/-- A packet is dropped in its pipeline, under a cause (spec/12_buffering.md R379). -/
def State.dropAt (s : State) (p : Pkt) (q : Pkt → Bool) (cause : Nat) (d : Decision) : State :=
  ((s.countDrop cause p.arr.bytes.length p.arr.port 0).formRecord p { d with fate := 1, cause := cause }).dropPkt q

/-! ## Dispatch, R30, R31, R329, R339 -/

/-- An engine's state before a parse. -/
def EngSt.init : EngSt :=
  { pc := 0, cur := 0, g := List.replicate 8 0, flags := 0, fend := 0, hi := [], kv := zeros 128, steps := 0,
    trimmed := false, profile := 0 }

/-- The port group of a port of this module (R258). -/
def portGroup (p : Nat) : Nat := if p < 256 then p / 16 else 16 + (p - 256) / 2

/-- What a TX packet of MODE 1 becomes: a packet for a port of this module, with rewrite entry 0 (R147). -/
def State.directOut (s : State) (a : Arrival) (d : Nat × Nat) (ream : Nat) : PipeOut :=
  .fwd { src := a.port, bytes := a.bytes, ts := a.ts, cls := d.2, tos := 0, policer := none, mirror := 0,
         dest := .voq s.ownId (portGroup d.1) d.1 0, ream := ream }

/-- The ream that a pipeline stamps: the newest, or within 40 ns of the commit instant the one before, while the
pipeline has not stamped the newest (R339). -/
def State.stampFor (s : State) (pipe : Nat) (older : Bool) : Nat :=
  if older && s.now ≤ s.cmt.at_ + 200 && s.cmt.undrained.contains s.cmt.prev
    && tblGet (s.cmt.newest + 1) s.ing.stamped pipe != s.cmt.newest then s.cmt.prev
  else s.cmt.newest

/-- PACKET_DISPATCH: an arriving packet of a slice, of a line port before an internal one but in the last slot of every
64 (R31), goes to the slice's next pipeline and takes its stamp (R30, R329). `idle` slots have passed unused before this
one, modulo 64. -/
def packetDispatch (slice : Fin 16) (idle : Fin 64) (older : Bool) (s : State) : State :=
  let slot := (tblGet 0 s.ing.slots slice.val + idle.val) % 64
  let reserved := slot == 63
  let mine := fun (e : Nat × Arrival) => e.1 == slice.val
  let first := fun (e : Nat × Arrival) => mine e && ((256 ≤ e.2.port) == reserved)
  let got := match takeFirst first s.arrivals with
    | some r => some r
    | none => takeFirst mine s.arrivals
  match got with
  | none => s
  | some ((_, a), rest) =>
    if !s.pipesUp then s
    else
      let pipe := tblGet 0 s.ing.nextPipe slice.val
      let full := 4 * slice.val + pipe
      let ream := s.stampFor full older
      let p : Pkt :=
        { arr := a, slice := slice.val, pipe := pipe, ream := ream, stage := .dispatched, eng := EngSt.init, fin := none,
          mv := [], prof := 0, profB := 0, phaseB := false, bad := false, open_ := [], ans := [], outs := [] }
      let p := match a.direct with
        | none => p
        | some d => { p with stage := .exit, outs := [s.directOut a d ream] }
      let ing := { s.ing with pkts := s.ing.pkts ++ [p], nextPipe := tblPut slice.val ((pipe + 1) % 4) s.ing.nextPipe,
                              slots := tblPut slice.val ((slot + 1) % 64) s.ing.slots,
                              stamped := tblPut full ream s.ing.stamped }
      ({ s with arrivals := rest, ing := ing }).settleExit

/-! ## How a parse ends, R233 to R239 -/

/-- Truncation reasons (R238). -/
def truncInstances : Nat := 1
def truncSteps : Nat := 2
def truncWindow : Nat := 3
def truncDepth : Nat := 4
def truncProgram : Nat := 5

/-- The packet in engine e. -/
def inEngine (e : Nat) (p : Pkt) : Bool := p.stage == .parsing e

/-- A packet for the host from a pipeline (R239, R257, R307). -/
def hostOut (p : Pkt) (ring cause : Nat) (bytes : List Byte) : PipeOut :=
  let t := p.arr.ts.getD (0, 0)
  .host { ring := ring, bytes := bytes, srcPort := p.arr.port, cause := cause, tsSec := t.1, tsNs := t.2 }

/-- The action on a parse that ended MALFORMED with cause c (R239). -/
def State.malformed (s : State) (e : Nat) (p : Pkt) (c : Nat) : State :=
  let x := ixNI p.slice c
  let s := (s.count PRS_MAL_CNT_COUNT x 1).raiseAt PRS_INT_STATUS_MAL_SEEN p.slice 0 0 0
  let ring := s.fld PRS_MAL_ACT_RING x
  let act := s.fld PRS_MAL_ACT_ACTION x
  if act = 2 then s.modPkt (inEngine e) (fun q => { q with fin := some (.malformed c), stage := .ended e })
  else if act = 1 && ring ≤ 6143 then
    let s := s.formRecord { p with fin := some (.malformed c) } { Decision.none_ with fate := 2, cause := causeMalformed }
    (s.modPkt (inEngine e) (fun q =>
      { q with stage := .exit, outs := [hostOut p ring causeMalformed p.arr.bytes] })).settleExit
  else s.dropAt { p with fin := some (.malformed c) } (inEngine e) causeMalformed Decision.none_

/-- The parse in engine e ends (R233, R235, R239). -/
def State.parseFin (s : State) (e : Nat) (x : ParseEnd) : State :=
  match s.ing.pkts.find? (inEngine e) with
  | none => s
  | some p =>
    match x with
    | .normal c => s.modPkt (inEngine e) (fun q => { q with fin := some (.normal c), stage := .ended e })
    | .truncated r =>
      let s := (s.count PRS_TRUNC_CNT_COUNT (ixNI p.slice r) 1).raiseAt PRS_INT_STATUS_TRUNC_SEEN p.slice 0 0 0
      s.modPkt (inEngine e) (fun q => { q with fin := some (.truncated r), stage := .ended e })
    | .malformed c => s.malformed e p c

/-- A packet that met a bad word of its parse tables is dropped (R241). -/
def State.parseBad (s : State) (e : Nat) (p : Pkt) (t i n : Nat) : State :=
  (((s.badVer (tkey t i) n).logBad t i false).dropAt p (inEngine e) causeTableError Decision.none_)

/-- The place of the version that a packet sees among those stored for an index, and the version. -/
def State.verIdx (s : State) (k t : Nat) : Option (Nat × Ver) :=
  let vs := s.tab.at_ k
  let n := vs.findIdx (fun (v : Ver) => v.visible s.nextTag t)
  (vs[n]?).map fun v => (n, v)

/-- The engine's next word, or the end of the parse where there is none (R233). -/
def State.fetchCheck (s : State) (e : Nat) : State :=
  match s.ing.pkts.find? (inEngine e) with
  | none => s
  | some p =>
    if p.eng.pc < 8192 && (s.verAt (tkey tStore (8192 * p.slice + p.eng.pc)) (p.ream % 16)).isSome then s
    else s.parseFin e (.truncated truncProgram)

/-- The entry of a source port in its slice's entry table (R228). -/
def entryOf (port : Nat) : Nat := if port < 256 then port % 16 else 16 + port % 2

/-- The engine that a pipeline's next packet goes to: the next free one in rotation (R224). -/
def State.nextFree (s : State) (full : Nat) : Option Nat :=
  let from_ := tblGet 0 s.ing.nextEng full
  (((List.range 128).map fun i => 128 * full + (from_ + i) % 128).find? fun e =>
    !s.ing.pkts.any fun (p : Pkt) => p.stage == .parsing e || p.stage == .ended e)

/-- PARSE_START: the oldest packet of a pipeline that waits for an engine gets one; the parse starts at START_PC, or
ends TRUNCATED where its entry is not valid, or the packet is dropped on a bad entry (R224, R226 to R228, R241). -/
def parseStart (pipe : Fin 64) (bad : Bool) (s : State) : State :=
  let waits := fun (p : Pkt) => p.stage == .dispatched && 4 * p.slice + p.pipe == pipe.val
  match s.ing.pkts.find? waits, s.nextFree pipe.val with
  | some p, some e =>
    let s := { s with ing := { s.ing with nextEng := tblPut pipe.val ((e + 1) % 128) s.ing.nextEng } }
    let idx := 32 * p.slice + entryOf p.arr.port
    let fresh := { EngSt.init with fend := min 16379 p.arr.bytes.length }
    match s.verIdx (tkey tEntry idx) (p.ream % 16) with
    | none =>
      (s.modPkt waits (fun q => { q with stage := .parsing e, eng := fresh })).parseFin e (.truncated truncProgram)
    | some (n, v) =>
      let s := s.modPkt waits (fun q => { q with
        stage := .parsing e
        eng := { fresh with pc := bitsOf v.img 0 13, profile := BitVec.ofNat 16 (bitsOf v.img 16 16) } })
      if bad || v.bad then s.parseBad e p tEntry idx n
      else if bitAt v.img 32 then s.fetchCheck e
      else s.parseFin e (.truncated truncProgram)
  | _, _ => s

/-! ## Parse instructions, R229 to R236 -/

/-- What an instruction makes of the engine state: the next one, or the end of the parse. -/
abbrev ParseOp := Nat → List Byte → Nat → EngSt → Except ParseEnd EngSt

/-- A register. -/
def EngSt.reg (x : EngSt) (i : Nat) : BitVec 16 := x.g.getD i 0

/-- A register, set. -/
def EngSt.setReg (x : EngSt) (i : Nat) (v : BitVec 16) : EngSt := { x with g := setAt i v x.g }

/-- The next PC of an instruction that does not branch. -/
def EngSt.step (x : EngSt) : EngSt := { x with pc := x.pc + 1 }

/-- A branch, taken or not. -/
def EngSt.branch (x : EngSt) (taken : Bool) (target : Nat) : EngSt := if taken then { x with pc := target } else x.step

/-- Operand fields of an instruction word (R230). -/
def wGD (w : Nat) : Nat := bitsOf w 57 3
def wGS (w : Nat) : Nat := bitsOf w 54 3
def wGT (w : Nat) : Nat := bitsOf w 51 3
def wOp3 (w : Nat) : Nat := bitsOf w 48 3
def wBit47 (w : Nat) : Bool := bitAt w 47
def wIMM (w : Nat) : BitVec 16 := BitVec.ofNat 16 (bitsOf w 16 16)
def wTarget (w : Nat) : Nat := bitsOf w 0 13
def wCause (w : Nat) : Nat := if bitsOf w 0 6 = 0 then 0x3F else bitsOf w 0 6

/-- B of R230. -/
def EngSt.opB (x : EngSt) (w : Nat) : BitVec 16 := if wBit47 w then wIMM w else x.reg (wGT w)

/-- COND of R231. -/
def condHolds (c : Nat) (a b : BitVec 16) : Bool :=
  match c with
  | 0 => a == b
  | 1 => a != b
  | 2 => a.toNat < b.toNat
  | 3 => b.toNat ≤ a.toNat
  | 4 => b.toNat < a.toNat
  | 5 => a.toNat ≤ b.toNat
  | 6 => (a &&& b) != 0
  | _ => (a &&& b) == 0

/-- AOP of R231. -/
def aluOp (o : Nat) (a b : BitVec 16) : BitVec 16 :=
  match o with
  | 0 => b
  | 1 => a + b
  | 2 => a - b
  | 3 => a &&& b
  | 4 => a ||| b
  | 5 => a ^^^ b
  | 6 => a <<< (b.toNat % 16)
  | _ => a >>> (b.toNat % 16)

/-- The check on reading n window bytes from index i (R233, R234): beyond the frame end first, then the window. -/
def readCheck (x : EngSt) (i n : Nat) : Except ParseEnd Unit :=
  if x.fend < i + n then .error (.malformed 0x01)
  else if 256 < i + n then .error (.truncated truncWindow)
  else .ok ()

/-- The window value (R230). -/
def winValue (win : List Byte) (i : Nat) (one : Bool) : BitVec 16 :=
  BitVec.ofNat 16 (beNat (bytesAt win i (if one then 1 else 2)))

/-- NOP. -/
def opNop : ParseOp := fun _ _ _ x => .ok x.step

/-- LDW. -/
def opLdw : ParseOp := fun w win _ x => do
  let i := x.cur + bitsOf w 40 8
  let one := bitAt w 48
  readCheck x i (if one then 1 else 2)
  .ok (x.setReg (wGD w) ((winValue win i one >>> bitsOf w 36 4) &&& wIMM w)).step

/-- ALU. -/
def opAlu : ParseOp := fun w _ _ x =>
  .ok (x.setReg (wGD w) (aluOp (wOp3 w) (x.reg (wGS w)) (x.opB w))).step

/-- ADV: the sum is exact before it saturates (log entry 41). -/
def opAdv : ParseOp := fun w _ _ x =>
  let add := if wBit47 w then (x.reg (wGS w)).toNat * 2 ^ bitsOf w 44 2 else 0
  let c : Int := (x.cur : Int) + (wIMM w).toInt + (add : Int)
  if c < 0 then .error (.truncated truncProgram) else .ok ({ x with cur := min 4095 c.toNat }).step

/-- HDR. -/
def opHdr : ParseOp := fun w _ _ x =>
  let l := (if wBit47 w then x.reg (wGS w) else wIMM w).toNat
  if 256 ≤ x.cur then .error (.truncated truncWindow)
  else if 32 ≤ x.hi.length then .error (.truncated truncInstances)
  else .ok ({ x with hi := x.hi ++ [(⟨bitsOf w 32 8, x.cur, min 4095 l⟩ : HiEnt)] }).step

/-- KEY. -/
def opKey : ParseOp := fun w win _ x => do
  let i := x.cur + bitsOf w 40 8
  let n := if bitsOf w 36 4 = 0 then 16 else bitsOf w 36 4
  let k := bitsOf w 8 7
  readCheck x i n
  if 128 < k + n then .error (.truncated truncProgram)
  else .ok ({ x with kv := overwrite x.kv k (bytesAt win i n) }).step

/-- KEYR. -/
def opKeyr : ParseOp := fun w _ _ x =>
  let v := (if wBit47 w then wIMM w else x.reg (wGS w)).toNat
  let k := bitsOf w 8 7
  if bitAt w 46 then .ok ({ x with kv := overwrite x.kv k (beBytes 1 v) }).step
  else if 128 < k + 2 then .error (.truncated truncProgram)
  else .ok ({ x with kv := overwrite x.kv k (beBytes 2 v) }).step

/-- BR. -/
def opBr : ParseOp := fun w _ _ x => .ok (x.branch (condHolds (wOp3 w) (x.reg (wGS w)) (x.opB w)) (wTarget w))

/-- JMP: GS is read before GD is written. -/
def opJmp : ParseOp := fun w _ _ x =>
  let t := if bitAt w 46 then (x.reg (wGS w)).toNat % 8192 else wTarget w
  let y := if wBit47 w then x.setReg (wGD w) (BitVec.ofNat 16 (x.pc + 1)) else x
  .ok { y with pc := t }

/-- CHK. -/
def opChk : ParseOp := fun w _ _ x =>
  if condHolds (wOp3 w) (x.reg (wGS w)) (x.opB w) then .error (.malformed (wCause w)) else .ok x.step

/-- TRIM (R236). -/
def opTrim : ParseOp := fun w _ _ x =>
  let e : Int := (x.cur : Int) + ((x.reg (wGS w)).toNat : Int) + (wIMM w).toInt
  if e < (x.cur : Int) || (x.fend : Int) < e then .error (.malformed (wCause w))
  else if e = (x.fend : Int) then .ok x.step
  else .ok ({ x with fend := e.toNat, trimmed := true }).step

/-- MOVS. -/
def opMovs : ParseOp := fun w _ port x =>
  let v : Nat := match wOp3 w with
    | 0 => x.cur
    | 1 => x.fend
    | 2 => x.hi.length
    | 3 => port
    | 4 => x.flags.toNat
    | 5 => x.steps
    | 6 => x.profile.toNat
    | _ => 0
  .ok (x.setReg (wGD w) (BitVec.ofNat 16 v)).step

/-- FLAG. -/
def opFlag : ParseOp := fun w _ _ x =>
  .ok ({ x with flags := (x.flags &&& ~~~(BitVec.ofNat 16 (bitsOf w 32 16))) ||| wIMM w }).step

/-- BRW. -/
def opBrw : ParseOp := fun w win _ x => do
  let i := x.cur + bitsOf w 48 8
  let one := bitAt w 56
  readCheck x i (if one then 1 else 2)
  .ok (x.branch (condHolds (bitsOf w 57 3) (winValue win i one &&& BitVec.ofNat 16 (bitsOf w 32 16)) (wIMM w)) (wTarget w))

/-- DEC. -/
def opDec : ParseOp := fun w _ _ x =>
  let v := x.reg (wGD w) - 1
  .ok ((x.setReg (wGD w) v).branch (v != 0) (wTarget w))

/-- DONE (R230, R232). -/
def opDone : ParseOp := fun w _ _ _ =>
  let c := bitsOf w 32 8
  match bitsOf w 46 2 with
  | 1 => .error (.truncated truncDepth)
  | 2 => .error (.malformed (wCause w))
  | _ => if 0xFE ≤ c then .error (.truncated truncProgram) else .error (.normal c)

/-- Engine e executes the instruction at its PC when that is the one with opcode `code` (R229, R230): its word is
fetched under the packet's tag, a bad word drops the packet (R241); the instruction counts as a step, and does what it
does or ends the parse (R234). Nothing happens in an engine that is idle, has executed 96, or stands at another
instruction. -/
def State.parseInstr (s : State) (code : Nat) (op : ParseOp) (e : Nat) (bad : Bool) : State :=
  match s.ing.pkts.find? (inEngine e) with
  | none => s
  | some p =>
    let idx := 8192 * p.slice + p.eng.pc
    if 96 ≤ p.eng.steps then s
    else if 8192 ≤ p.eng.pc then s.parseFin e (.truncated truncProgram)
    else
      match s.verIdx (tkey tStore idx) (p.ream % 16) with
      | none => s.parseFin e (.truncated truncProgram)
      | some (n, v) =>
        if bad || v.bad then s.parseBad e p tStore idx n
        else if bitsOf v.img 60 4 != code then s
        else
          match op v.img p.arr.bytes p.arr.port p.eng with
          | .ok x =>
            let s := if x.trimmed && !p.eng.trimmed then s.count PRS_TRIM_CNT_COUNT (ixN p.slice) 1 else s
            let s := s.modPkt (inEngine e) (fun q => { q with eng := { x with steps := p.eng.steps + 1 } })
            if p.eng.steps + 1 < 96 then s.fetchCheck e else s
          | .error end_ =>
            (s.modPkt (inEngine e) (fun q => { q with eng := { p.eng with steps := p.eng.steps + 1 } })).parseFin e end_

/-- The parse instructions. -/
def nop (e : Fin 8192) (bad : Bool) (s : State) : State := s.parseInstr 0x0 opNop e.val bad
def ldw (e : Fin 8192) (bad : Bool) (s : State) : State := s.parseInstr 0x1 opLdw e.val bad
def alu (e : Fin 8192) (bad : Bool) (s : State) : State := s.parseInstr 0x2 opAlu e.val bad
def adv (e : Fin 8192) (bad : Bool) (s : State) : State := s.parseInstr 0x3 opAdv e.val bad
def hdr (e : Fin 8192) (bad : Bool) (s : State) : State := s.parseInstr 0x4 opHdr e.val bad
def key (e : Fin 8192) (bad : Bool) (s : State) : State := s.parseInstr 0x5 opKey e.val bad
def keyr (e : Fin 8192) (bad : Bool) (s : State) : State := s.parseInstr 0x6 opKeyr e.val bad
def br (e : Fin 8192) (bad : Bool) (s : State) : State := s.parseInstr 0x7 opBr e.val bad
def jmp (e : Fin 8192) (bad : Bool) (s : State) : State := s.parseInstr 0x8 opJmp e.val bad
def chk (e : Fin 8192) (bad : Bool) (s : State) : State := s.parseInstr 0x9 opChk e.val bad
def trim (e : Fin 8192) (bad : Bool) (s : State) : State := s.parseInstr 0xA opTrim e.val bad
def movs (e : Fin 8192) (bad : Bool) (s : State) : State := s.parseInstr 0xB opMovs e.val bad
def flag (e : Fin 8192) (bad : Bool) (s : State) : State := s.parseInstr 0xC opFlag e.val bad
def brw (e : Fin 8192) (bad : Bool) (s : State) : State := s.parseInstr 0xD opBrw e.val bad
def dec (e : Fin 8192) (bad : Bool) (s : State) : State := s.parseInstr 0xE opDec e.val bad
def done (e : Fin 8192) (bad : Bool) (s : State) : State := s.parseInstr 0xF opDone e.val bad

/-- PARSE_STEP_LIMIT: the 96th instruction has completed and the parse has not ended (R233). -/
def parseStepLimit (e : Fin 8192) (s : State) : State :=
  match s.ing.pkts.find? (inEngine e.val) with
  | none => s
  | some p => if p.eng.steps = 96 then s.parseFin e.val (.truncated truncSteps) else s

/-- PARSE_RESULT_DELIVERY: the oldest packet of a pipeline reaches key build once its parse has ended; the engines are
fixed in latency, so results leave in order (R225). -/
def parseResultDelivery (pipe : Fin 64) (s : State) : State :=
  let mine := fun (p : Pkt) => 4 * p.slice + p.pipe == pipe.val &&
    (match p.stage with
     | .dispatched | .parsing _ | .ended _ => true
     | .parsed | .lookups | .exit => false)
  match s.ing.pkts.find? mine with
  | none => s
  | some p =>
    match p.stage with
    | .ended _ => s.modPkt mine (fun q => { q with stage := .parsed })
    | _ => s

/-! ## Results, R237, R238 -/

/-- The parse status (R238). -/
def Pkt.status (p : Pkt) : Nat :=
  let (cls, st, reason, cause) := p.ending
  cls + st * 2 ^ 8 + ofBool (st == 1) * 2 ^ 10 + ofBool p.eng.trimmed * 2 ^ 11 + reason * 2 ^ 12 + cause * 2 ^ 16
    + p.eng.hi.length * 2 ^ 22 + p.eng.steps * 2 ^ 28 + p.eng.flags.toNat * 2 ^ 48

/-- An HI entry as a word (R237). -/
def hiWord (h : HiEnt) : Nat := h.type + h.off * 2 ^ 8 + h.len * 2 ^ 16

/-- The packet as it goes on: what TRIM cut off is gone (R236). -/
def Pkt.trimmed (p : Pkt) : List Byte := if p.eng.trimmed then p.arr.bytes.take p.eng.fend else p.arr.bytes

end Sys2Proof.Machine
end

