-- ==== Sys2Proof/Machine/Couch.lean ====
section
/-!
DEFINITION. Machine/Couch.lean: the couch link between the dies: delivery, replay, retrain, DOWN
(spec/01_architecture.md R34 to R39).
-/
namespace Sys2Proof.Machine

open Fld

/-- A packet for the host enters its host queue, with cells of the requester of its port (spec/12_buffering.md R363); it
is dropped where they are refused (spec/05_rings_mailboxes_locks.md R153; log entry 105). -/
def State.toHostQueue (s : State) (p : HostPkt) : State :=
  let r := requesterOf p.srcPort
  let n := cellsOf p.bytes.length
  let (s, ok) := s.cover r n
  if ok then
    let (s, hs) := s.useCells r n none
    { s with hostQ := s.hostQ ++ [{ p with cells := hs, holder := r }] }
  else s.countDrop causePoolEmpty p.bytes.length p.srcPort 0

/-- A packet for the line goes to its slice's next egress pipeline (R30). -/
def State.toEgress (s : State) (k : Nat) (p : EgrPkt) : State :=
  let pipe := tblGet 0 s.egr.nextPipe k
  { s with egr := { s.egr with
      waiting := s.egr.waiting ++ [⟨k, pipe, p, none⟩], nextPipe := tblPut k ((pipe + 1) % 4) s.egr.nextPipe } }

/-- A unit reaches its die: a packet from an ingress pipeline waits for admission or for its RX ring, a copy or punt of
an egress pipeline likewise, a packet for the line enters its slice's egress pipelines, a learn notification goes to its
export ring, a register write is on its way to its block. A packet for the host from a member port under the shadow
role, or in a switch, is discarded there (spec/18_protection.md R533, R547). -/
def State.couchDeliver (s : State) (u : CouchUnit) : State :=
  match u with
  | .pipe _ (.fwd p) | .back _ (.fwd p) => { s with adm := { s.adm with waiting := s.adm.waiting ++ [p] } }
  | .pipe _ (.host p) =>
    match s.ingressRole p.srcPort with
    | .pass => s.toHostQueue p
    | f => s.roleDiscard f 1
  | .back _ (.host p) => s.toHostQueue p
  | .egress k p => s.toEgress k p
  | .learn n kind body => s.exportRec n kind body
  | .write p => { s with acc := { s.acc with posted := s.acc.posted ++ [p] } }

/-- How often the oldest unit of a direction has been replayed, and the units on their way. -/
def CouchSt.replays (c : CouchSt) : CouchDir → Nat
  | .fxToQx => c.replaysF
  | .qxToFx => c.replaysQ
def CouchSt.units (c : CouchSt) : CouchDir → List CouchUnit
  | .fxToQx => c.fxToQx
  | .qxToFx => c.qxToFx

/-- A direction with its units and its replays. -/
def CouchSt.setDir (c : CouchSt) (d : CouchDir) (us : List CouchUnit) (n : Nat) : CouchSt :=
  match d with
  | .fxToQx => { c with fxToQx := us, replaysF := n }
  | .qxToFx => { c with qxToFx := us, replaysQ := n }

/-- The index d of R37. -/
def dirIx : CouchDir → Nat
  | .fxToQx => 0
  | .qxToFx => 1

/-- COUCH_UNIT_RECEIVE: the oldest unit of a direction arrives; with a bad CRC it and every unit sent after it are
replayed, until eight replays have failed (R34, R35, R38). -/
def couchUnitReceive (d : CouchDir) (crcGood : Bool) (s : State) : State :=
  match s.couch.units d with
  | [] => s
  | u :: us =>
    let n := s.couch.replays d
    if s.couch.st != .up || 8 < n then s
    else if crcGood then ({ s with couch := s.couch.setDir d us 0 }).couchDeliver u
    else
      let s := s.count GEN_COUCH_CRC_ERR_COUNT (ixI (dirIx d)) 1
      let s := if n < 8 then s.count GEN_COUCH_RETRY_COUNT (ixI (dirIx d)) (us.length + 1) else s
      { s with couch := s.couch.setDir d (u :: us) (n + 1) }

/-! ## Register accesses over the link, R34, R35, R41 -/

/-- What crosses the link waits: it trains or retrains, or the replays of a unit have failed (R35). -/
def State.couchWaits (s : State) : Bool :=
  s.couch.st == .training || s.couch.st == .retrain
    || (s.couch.st == .up && (8 < s.couch.replaysF || 8 < s.couch.replaysQ))

/-- A unit that is a register write, and of a requester. -/
def CouchUnit.posted : CouchUnit → Option Posted
  | .write p => some p
  | .pipe _ _ | .back _ _ | .egress _ _ | .learn _ _ _ => none
def CouchUnit.writeOf (req : Req) (u : CouchUnit) : Bool := u.posted.any fun p => p.req == req

/-- The posted FX writes that the link holds (R41). -/
def State.postedCount (s : State) : Nat := (s.couch.qxToFx.filterMap CouchUnit.posted).length + s.acc.posted.length

/-- Writes that waited for credit enter the link while it holds fewer than 256 (R41). -/
def State.admitHeld (s : State) : State :=
  let n := 256 - s.postedCount
  { s with
    acc := { s.acc with held := s.acc.held.drop n }
    couch := { s.couch with qxToFx := s.couch.qxToFx ++ (s.acc.held.take n).map .write } }

/-- A write to an FX register is posted (R16); with 256 on the link it waits, and none is lost (R41). -/
def State.postWrite (s : State) (p : Posted) : State :=
  ({ s with acc := { s.acc with held := s.acc.held ++ [p] } }).admitHeld

/-- Every write of a requester that the link carries crosses it, after all that was sent before (R34). -/
def State.crossWrites (s : State) (req : Req) : State :=
  let us := s.couch.qxToFx
  let n := us.length - (us.reverse.takeWhile fun u => !u.writeOf req).length
  (us.take n).foldl State.couchDeliver
    { s with couch := { s.couch with qxToFx := us.drop n, replaysQ := if n = 0 then s.couch.replaysQ else 0 } }

/-- A retrain begins (R35, R37, R39); PRT_HEALTH records it (spec/18_protection.md R564). -/
def State.retrain (s : State) (failed : Nat) : State :=
  let c := s.couch
  let s := { s with couch := { c with st := .retrain, failed := failed, retrains := satAdd 8 c.retrains 1 } }
  (s.raise GEN_INT_STATUS_COUCH_RETRAIN).healthTo PRT_HEALTH_COUCH 0 true

/-- COUCH_RETRAIN: eight replays of a unit have failed, or a retrain has failed and another follows (R35, R36). -/
def couchRetrain (s : State) : State :=
  match s.couch.st with
  | .up => if 8 < s.couch.replaysF || 8 < s.couch.replaysQ then s.retrain 0 else s
  | .retrain => if s.couch.failed < 2 then s.retrain (s.couch.failed + 1) else s
  | .training | .down => s

/-- COUCH_RETRAIN_DONE: the link is UP again and what waits moves (R35). -/
def couchRetrainDone (s : State) : State :=
  if s.couch.st == .retrain then
    { s with couch := { s.couch with st := .up, failed := 0, replaysF := 0, replaysQ := 0 } }
  else s

/-- COUCH_DOWN: three successive retrains have failed: packets on either side are lost, and the module enters ISOLATE
(R36, R39); register writes on it are discarded as accesses that cannot reach their blocks (`couchSettled`). -/
def couchDown (s : State) : State :=
  if s.couch.st == .retrain && s.couch.failed = 2 then
    let c := { s.couch with st := .down, failed := 3, fxToQx := [], replaysF := 0, replaysQ := 0,
                            qxToFx := s.couch.qxToFx.filter fun u => u.posted.isSome }
    ((({ s with couch := c }).raise GEN_INT_STATUS_COUCH_DOWN).enterIsolate 2).protJudge
  else s

/-- GEN_COUCH_STATUS as read (R37). -/
def CouchSt.status (c : CouchSt) : Nat :=
  (match c.st with | .training => 0 | .up => 1 | .retrain => 2 | .down => 3)
    + ofBool (c.st == .up && (c.replaysF != 0 || c.replaysQ != 0)) * 4 + c.retrains * 2 ^ 8

end Sys2Proof.Machine
end

