-- ==== Sys2Proof/Machine/Deep.lean ====
section
/-!
DEFINITION. Machine/Deep.lean: the deep mover: evictions to deep memory and refills from it (spec/12_buffering.md R371
to R373).
-/
namespace Sys2Proof.Machine

open Fld

/-! ## Slots, R372 -/

/-- The page slots of a microsecond in each direction. -/
def moverSlots : Nat := 195

/-- The mover in the microsecond that it is. -/
def State.mover (s : State) : MoverSt :=
  let m := s.adm.mover
  let u := s.now / 5000
  let total := m.wr.foldl (fun a (e : Nat × Nat) => a + e.2) 0
  if m.us = u then m
  else if m.us + 1 = u then { us := u, wr := [], own := [], rd := 0, lastWr := total, lastRd := m.rd }
  else { us := u, wr := [], own := [], rd := 0, lastWr := 0, lastRd := 0 }

def State.setMover (s : State) (m : MoverSt) : State := { s with adm := { s.adm with mover := m } }

/-- Write slots used in the microsecond. -/
def MoverSt.writes (m : MoverSt) : Nat := m.wr.foldl (fun a e => a + e.2) 0

/-- The slots of the microsecond that belong to nobody. -/
def State.freeSlots (s : State) : Nat :=
  moverSlots - (List.range 8).foldl (fun a k => a + s.fld ADM_DEEP_BW_GUAR (ixI k)) 0

/-- A slot of the calendar comes up: for a class or for none, as often as the calendar has it. -/
def State.slotComes (s : State) (own : Option Nat) : Option State :=
  let m := s.mover
  let key := own.getD 8
  let n := tblGet 0 m.own key
  let most := match own with
    | some k => s.fld ADM_DEEP_BW_GUAR (ixI k)
    | none => s.freeSlots
  if n < most then some (s.setMover { m with own := tblPut key (n + 1) m.own }) else none

/-- Whether a class gets one more of the shared slots (R365, R366). -/
def State.slotShared (s : State) (k : Nat) : Bool :=
  let m := s.mover
  let g := fun j => s.fld ADM_DEEP_BW_GUAR (ixI j)
  let sumX := (List.range 8).foldl (fun a j => a + (tblGet 0 m.wr j - g j)) 0
  shareOk moverSlots ((List.range 8).foldl (fun a j => a + g j) 0) 0 sumX (tblGet 0 m.wr k) (g k) 1
    (s.fld ADM_DEEP_BW_ALPHA (ixI k))

/-! ## Eviction, R371, R373 -/

/-- Cells of packets changed by their place. -/
def mapCells (f : Nat → CellAt → CellAt) : Nat → List QPkt → List QPkt
  | _, [] => []
  | i, p :: t => { p with cells := p.cells.mapIdx fun j c => f (i + j) c } :: mapCells f (i + p.cells.length) t

/-- A page for a queue under R366, with its deep pages as U; deep memory out of reach refuses it (R402). -/
def State.pageFor (s : State) (q : Nat) : Option Nat :=
  let f := ixI (s.profOf q)
  let u := (s.queue q).pages.length
  let held := s.qsc.qs.foldl (fun a (e : Nat × Queue) => a + e.2.pages.length) 0
  if s.dramUp && u + 1 ≤ s.fld ADM_PROF2_DEEP_MAX f && shareOk s.deepTotal 0 0 held u 0 1 (s.fld ADM_PROF2_DEEP_ALPHA f) then
    s.freePage
  else none

/-- Packets of a queue are dropped under a cause, wherever they stand in it. -/
def State.dropPkts (s : State) (q : Nat) (hit : QPkt → Bool) (cause : Nat) : State :=
  let x := s.queue q
  let gone := x.pkts.filter hit
  let early := match s.qsc.flush with
    | some (f, left) => if f = q then ((x.pkts.take left).filter hit).length else 0
    | none => 0
  let s := (s.setQueue q { x with pkts := x.pkts.filter fun p => !hit p }).flushLess q early
  let s := s.dropCells (gone.flatMap (·.cells))
  let s := gone.foldl (fun s (p : QPkt) => s.countDrop cause p.bytes.length p.port 0) s
  (((s.trimPages q).deepSettle q).refillWatch q).voqSettle q

/-- The first n cells of a queue that the mover may take go into a page; a refused eviction leaves them (R373). -/
def State.evict (s : State) (q n : Nat) : State :=
  let x := s.queue q
  match s.pageFor q with
  | none => s.setQueue q { x with refused := true }
  | some h =>
    let i := x.evictFrom (s.headCells q)
    let move := fun (j : Nat) (c : CellAt) =>
      match c with
      | .die b r => if i ≤ j && j < i + n then CellAt.moving b r h else c
      | c => c
    let c := s.bpm.nextChain + 1
    let s := { s with bpm := { s.bpm with nextChain := c } }
    let s := s.setBuf h { busy := true, owner := 20, count := 1, holders := holderBit 20, chain := c, loss := none }
    let m := s.mover
    let s := s.setMover { m with wr := tblPut (q % 8) (tblGet 0 m.wr (q % 8) + 1) m.wr }
    s.setQueue q { x with pkts := mapCells move 0 x.pkts, pages := x.pages ++ [⟨h, false, 0, n⟩], refused := false }

/-- The cell is on the die, in buffer `h`. -/
def CellAt.dieAt (h : Nat) (c : CellAt) : Bool :=
  match c with
  | .die b _ => b == h
  | _ => false

/-- The mover, that reads `n` cells of queue `q`, reads the cell `ue`. -/
def State.readsBad (s : State) (q n : Nat) (ue : Option (BitVec 32)) : Bool :=
  match ue with
  | some h => (((s.queue q).cells.drop ((s.queue q).evictFrom (s.headCells q))).take n).any (CellAt.dieAt h.toNat)
  | none => false

/-- The same; where the mover reads the cell `ue` with an uncorrectable error, the packet of that cell is dropped
instead (R373). -/
def State.evictRead (s : State) (q n : Nat) (ue : Option (BitVec 32)) : State :=
  match ue with
  | some h =>
    if s.readsBad q n ue then s.dropPkts q (fun p => p.cells.any (CellAt.dieAt h.toNat)) causeMemUncorrectable
    else s.evict q n
  | none => s.evict q n

/-- Queues with a full page of cells to evict, with the time their head packet came. -/
def State.evictors (s : State) (f : Nat → Bool) : List (Nat × Nat) :=
  (s.qsc.qs.filter fun e => f (e.1 % 8) && 16 ≤ s.evictable e.1).map fun e =>
    (e.1, match e.2.pkts with | p :: _ => p.enq | [] => 0)

/-- The queue with the oldest head-of-line packet. -/
def oldestOf : List (Nat × Nat) → Option Nat
  | [] => none
  | e :: t => some (t.foldl (fun (b : Nat × Nat) x => if x.2 < b.2 then x else b) e).1

/-- DEEP_EVICT: a write slot of the calendar, for the class that owns it, otherwise for any class that R365 grants a
shared slot (R372). `ue` is a cell that is read with an uncorrectable error. -/
def deepEvict (own : Option (Fin 8)) (ue : Option (BitVec 32)) (s : State) : State :=
  if !s.domUp domQC then s
  else
    match s.slotComes (own.map Fin.val) with
    | none => s
    | some s =>
      let mine := match own with
        | some k => oldestOf (s.evictors (· == k.val))
        | none => none
      match mine with
      | some q => s.evictRead q 16 ue
      | none =>
        match oldestOf (s.evictors s.slotShared) with
        | some q => s.evictRead q 16 ue
        | none => s

/-- A write slot for a queue of class k: one of its class, or one of nobody's that R365 grants the class (R366, R372).
-/
def State.slotFor (s : State) (k : Nat) : Option State :=
  match s.slotComes (some k) with
  | some s => some s
  | none => if s.slotShared k then s.slotComes none else none

/-- PARTIAL_PAGE_TIMER: the oldest cell that waits has waited 2 µs, and the queue's page is written with fewer than 16
cells (R371), in a write slot like any other (R372). -/
def partialPageTimer (q : BitVec 20) (ue : Option (BitVec 32)) (s : State) : State :=
  let n := s.evictable q.toNat
  if !s.domUp domQC || n = 0 || 16 ≤ n then s
  else
    match s.slotFor (q.toNat % 8) with
    | none => s
    | some s => s.evictRead q.toNat n ue

/-! ## Uncorrectable words, spec/13_memory.md R401, R409 -/

/-- The number of a word of a partition among the uncorrectable ones. -/
def badKey (p word : Nat) : Nat := p * 2 ^ 40 + word

/-- A number put in its place among rising ones. -/
def sortIn (n : Nat) : List Nat → List Nat
  | [] => [n]
  | x :: t => if n < x then n :: x :: t else if n = x then x :: t else x :: sortIn n t

/-- The uncorrectable words of n stripes of a partition from stripe k on; a stripe has 64 words. -/
def State.badIn (s : State) (p k n : Nat) : List Nat :=
  (s.ddc.bad.filter fun b => badKey p (64 * k) ≤ b && b < badKey p (64 * (k + n))).map (· - badKey p 0)

/-- Words of a partition that a write has covered with their whole stripes are good again. -/
def State.healed (s : State) (p k n : Nat) : State :=
  { s with ddc := { s.ddc with bad := s.ddc.bad.filter fun b => !(badKey p (64 * k) ≤ b && b < badKey p (64 * (k + n))) } }

/-- The first uncorrectable word since the last read is logged. -/
def State.ueLog (s : State) (p off : Nat) : State :=
  let s := s.count DDC_ERR_LOG_COUNT ix0 1
  if s.flag DDC_ERR_LOG_VALID ix0 then s
  else ((s.set DDC_ERR_LOG_PART ix0 p).set DDC_ERR_LOG_OFFSET ix0 off).set DDC_ERR_LOG_VALID ix0 1

/-- An uncorrectable word is read: counted, logged, and reported by every cluster of its stripe. -/
def State.ueMet (s : State) (p word : Nat) : State :=
  let s := (s.count DDC_UE_COUNT (ixI p) 1).ueLog p (word / 8)
  (List.range 9).foldl (fun s n => s.raiseAt DDC_INT_STATUS_UE n 0 0 0) s

/-- The queue that holds a page. -/
def State.queueOfPage (s : State) (h : Nat) : Option Nat :=
  (s.qsc.qs.find? fun e => e.2.pages.any fun g => g.h == h).map (·.1)

/-- DEEP_PAGE_WRITTEN: the write of a page is complete; its cells are freed for their holders (R371). They count in
IN_CELLS no more (R375). The stripes that the page's cells cover whole are good again (spec/13_memory.md R401). -/
def deepPageWritten (page : BitVec 32) (s : State) : State :=
  let h := page.toNat
  match s.queueOfPage h with
  | none => s
  | some q =>
    let x := s.queue q
    if x.pages.any (fun g => g.h == h && g.written) || !s.dramUp then s
    else
      let mine := x.cells.filter fun c => match c with | .moving _ _ p => p == h | _ => false
      let s := s.dropCells mine
      let settle := fun (_ : Nat) (c : CellAt) =>
        match c with
        | .moving b r p => if p = h then CellAt.deep h else .moving b r p
        | c => c
      let s := s.setQueue q { x with
        pkts := mapCells settle 0 x.pkts, pages := x.pages.map fun g => if g.h = h then { g with written := true } else g }
      (((s.healed 3 (8 * (h - pageBase)) (mine.length / 2)).deepSettle q).refillWatch q)

/-! ## Refill, R371, R373 -/

/-- The cells of a page, replaced in order by cells on die. -/
def refillCells (h : Nat) : List Nat → List CellAt → List CellAt × List Nat
  | hs, [] => ([], hs)
  | hs, c :: t =>
    if c == .deep h then
      match hs with
      | b :: hs =>
        let (r, rest) := refillCells h hs t
        (.die b 20 :: r, rest)
      | [] => (c :: t, [])
    else
      let (r, rest) := refillCells h hs t
      (c :: r, rest)

/-- The same over packets. -/
def refillPkts (h : Nat) : List Nat → List QPkt → List QPkt
  | _, [] => []
  | hs, p :: t =>
    let (cs, rest) := refillCells h hs p.cells
    { p with cells := cs } :: refillPkts h rest t

/-- Cells that have been read back count in IN_CELLS for their packet again (R375, R376). -/
def State.refillLoss (s : State) (hs : List Nat) (p : QPkt) : State :=
  let mine := p.cells.filterMap fun c => match c with | .die b _ => if hs.contains b then some b else none | _ => none
  if mine.isEmpty then s
  else
    (mine.foldl (fun s h =>
      match s.buf h with
      | some b => s.setBuf h { b with loss := p.loss }
      | none => s) s).xoffWatch p.loss

/-- A queue's refill has been served, or given up. -/
def State.readServed (s : State) (q : Nat) : State :=
  ({ s with adm := { s.adm with reads := s.adm.reads.filter (· != q) } }).refillWatch q

/-- DEEP_REFILL: of the refills in the order requested, the first: with fewer than HEAD_CELLS ÷ 2 cells ahead of its
deep part, a queue's next page is read back into cells of requester 20 and freed; the packets of a lost page are dropped
(R371 to R373). Without cells the page stays in deep memory and the refill is issued again (R363). -/
def deepRefill (q : BitVec 20) (s : State) : State :=
  let q := q.toNat
  let s := s.refillWatch q
  let x := s.queue q
  let m := s.mover
  if !s.domUp domQC || s.adm.reads.head? != some q || moverSlots ≤ m.rd then s
  else
    match x.nextPage.bind fun n => x.pages.find? fun g => g.h == n.1 with
    | none => s
    | some g =>
      if g.lost != 0 then (s.dropPkts q (fun p => p.cells.any (CellAt.inPage g.h)) g.lost).readServed q
      else if !s.dramUp then s
      else if !(s.badIn 3 (8 * (g.h - pageBase)) ((g.size + 1) / 2)).isEmpty then
        let s := (s.badIn 3 (8 * (g.h - pageBase)) ((g.size + 1) / 2)).foldl (fun s w => s.ueMet 3 w) s
        (s.dropPkts q (fun p => p.cells.any (CellAt.inPage g.h)) causeMemUncorrectable).readServed q
      else
        let n := (x.cells.filter (· == .deep g.h)).length
        match s.coverRetry 20 n with
        | (s, .waits) => s
        | (s, .gaveUp) => s.readServed q
        | (s, .covered) =>
          let (s, hs) := s.useCells 20 n none
          let s := s.setMover { m with rd := m.rd + 1 }
          let pkts := refillPkts g.h hs x.pkts
          let s := pkts.foldl (fun s p => s.refillLoss hs p) (s.setQueue q { s.queue q with pkts := pkts })
          ((s.trimPages q).deepSettle q).readServed q

/-- Deep memory has lost its contents (spec/13_memory.md R402): pages written are lost with cause DOMAIN_DOWN, and
writes under way come to nothing, their cells still on die. Every page is free again for BPM; a queue's lost page keeps
a name that is no handle until its refill drops it. -/
def State.pagesLost (s : State) : State :=
  let c := s.bpm.nextChain + 1
  let name := fun (h : Nat) => if h < 2 ^ 32 then h + 2 ^ 32 * c else h
  let back := fun (_ : Nat) (c : CellAt) =>
    match c with
    | .moving b r _ => CellAt.die b r
    | .deep h => .deep (name h)
    | c => c
  let qs := s.qsc.qs.map fun (e : Nat × Queue) => (e.1, { e.2 with
    pkts := mapCells back 0 e.2.pkts,
    pages := (e.2.pages.filter (·.written)).map fun g => { g with h := name g.h, lost := causeDomainDown } })
  { s with qsc := { s.qsc with qs := qs },
           bpm := { s.bpm with nextChain := c, bufs := s.bpm.bufs.filter fun e => !isPage e.1 } }

end Sys2Proof.Machine
end

