-- ==== Sys2Proof/Machine/Ddc.lean ====
section
/-!
DEFINITION. Machine/Ddc.lean: the DRAM clusters: partitions, errors, retraining, sparing (spec/13_memory.md R392 to
R411).
-/
namespace Sys2Proof.Machine

open Fld

/-! ## Partitions, R394, R396 to R398 -/

/-- Where a partition begins in the module memory address space, in GiB (R395, R396). -/
def State.partBase (s : State) (p : Nat) : Nat := (List.range p).foldl (fun a j => a + s.partGib j) 0

/-- The data set and the stripe of a unit of 64 bytes of a partition (R395). -/
def State.stripeAt (s : State) (p off : Nat) : Nat × Nat :=
  let a := s.partBase p * 2 ^ 30 + 64 * off
  let i := a / 4096
  (i % s.dataSets, 8 * (i / s.dataSets) + a % 4096 / 512)

/-- The cluster of burst j of a stripe: of a data burst, or for 8 of the check burst (R393). -/
def burstCluster (stripe j : Nat) : Nat :=
  if j = 8 then stripe % 9 else if j < stripe % 9 then j else j + 1

/-- The contents of every partition are gone, and every partition reads zero when it can next be read (R402). -/
def State.dramLost (s : State) : State :=
  ({ s with ddc := { s.ddc with win := [], pairs := [], invalid := [], bad := [] } }).pagesLost

/-- A cluster's spare. -/
def State.spare (s : State) (n : Nat) : SpareSt := tblGet SpareSt.init s.ddc.spares n
def State.setSpare (s : State) (n : Nat) (x : SpareSt) : State :=
  { s with ddc := { s.ddc with spares := if x = SpareSt.init then tblDel n s.ddc.spares else tblPut n x s.ddc.spares } }

/-- RUN of DDC_CTRL takes a value: 0 in INIT and ISOLATE alone, 1 with a partition that fits (R397, R398). -/
def State.ddcRunTo (s : State) (run : Bool) : State :=
  if run then
    if s.flag DDC_CTRL_RUN ix0 then s else
    let sum := s.partGib 0 + s.partGib 1 + s.partGib 2
    if s.usableGib < sum + 16 || 16 < s.partGib 0 then s.violation .ddc 0
    else
      let s := s.set DDC_PART_DEEP_GIB ix0 (s.usableGib - sum)
      ((s.set DDC_CTRL_RUN ix0 1).set DDC_CTRL_STOPPED ix0 0).dramLost
  else if s.gen.phase == .init || s.gen.phase == .isolate then
    if !s.flag DDC_CTRL_RUN ix0 then s else
    let s := ((s.set DDC_CTRL_RUN ix0 0).set DDC_CTRL_STOPPED ix0 1).set DDC_PART_DEEP_GIB ix0 0
    { (s.dramLost) with ddc := { s.dramLost.ddc with spares := s.ddc.spares.map fun e =>
        (e.1, { e.2 with copying := none, mapped := none }) } }
  else s.violation .ddc 0

/-- DDC_RUN: DDC_CTRL written. -/
def ddcRun (req : Req) (v : W64) (s : State) : State :=
  if !s.domUp (domDC 0) then s
  else (s.ownWrite req .ddcCtrl ix0 v DDC_CTRL_RUN.mask).ddcRunTo (DDC_CTRL_RUN.get v = 1)

/-! ## Sparing, R403 to R406 -/

/-- STATE of a cluster's spare (R410). -/
def State.spareState (s : State) (n : Nat) : Nat :=
  let x := s.spare n
  if !s.flag DDC_CTRL_SPARE_EN ix0 then 4
  else if x.failed then 3
  else if x.mapped.isSome then 2
  else ofBool x.copying.isSome

/-- A SPARING entry of the Mill's log, and an alert when sparing is done or has failed (spec/19_mill.md R578, R580). -/
def State.sparing (s : State) (n ch : Nat) : State :=
  let s := s.stageLog 8 0 (n + ch * 2 ^ 4 + s.spareState n * 2 ^ 8) 0
  if (s.spare n).copying.isSome then s else s.alertClass 5

/-- Whether a sparing copy may start (R403, R405). -/
def State.spareOk (s : State) (n : Nat) : Bool :=
  let x := s.spare n
  s.flag DDC_CTRL_SPARE_EN ix0 && x.tested && !x.failed && x.mapped.isNone

/-- A sparing copy starts; the Mill's record keeps the mapping (R403, spec/19_mill.md R576). -/
def State.spareBegin (s : State) (n src : Nat) : State :=
  let s := s.setSpare n { s.spare n with copying := some src }
  ({ s with mil := { s.mil with flash := { s.mil.flash with
      spares := tblPut n src s.mil.flash.spares } } }).sparing n src

/-- A channel's first CE_THRESH event: with AUTO 1 the Mill starts a sparing copy for it where R403 allows one
(spec/19_mill.md R576). -/
def State.autoSpare (s : State) (n ch : Nat) : State :=
  if s.ddc.ceFirst.contains (16 * n + ch) then s
  else
    let s := { s with ddc := { s.ddc with ceFirst := s.ddc.ceFirst ++ [16 * n + ch] } }
    if s.mil.ready && s.mil.flash.spareAuto && ch != 15 && s.spareOk n && (s.spare n).copying.isNone then s.spareBegin n ch
    else s

/-! ## Errors, R401 -/

/-- The corrections of a channel in the present second. -/
def State.ceNow (s : State) (k c : Nat) : Nat := if s.ddc.ceSec = s.tim.sec then tblGet 0 s.ddc.ce (16 * k + c) else 0

/-- m corrections in a channel are counted, and a second's count that they take above THRESH is reported (R401). -/
def State.corrected (s : State) (k c m : Nat) : State :=
  let was := s.ceNow k c
  let s := s.count DDC_CE_COUNT (ixNI k c) m
  let old := if s.ddc.ceSec = s.tim.sec then s.ddc.ce else []
  let s := { s with ddc := { s.ddc with ceSec := s.tim.sec, ce := tblPut (16 * k + c) (was + m) old } }
  let t := s.fld DDC_CE_CFG_THRESH (ixN k)
  if was ≤ t && t < was + m then (s.raiseAt DDC_INT_STATUS_CE_THRESH k 0 (k + 16 * c) 0).autoSpare k c else s

/-- The channel of a set in a cluster: the spare, where the set's channel is mapped onto it (R404). -/
def State.channelOf (s : State) (k set : Nat) : Nat := if (s.spare k).mapped == some set then 15 else set

/-- What an uncorrectable word does by its partition (R401): its counter pair becomes invalid; the packets of its page
are dropped at refill (R373); the read through a peer window that meets it completes with EP set (R123). Outside the
counters it stays until a write covers its stripe whole. -/
def State.ueActs (s : State) (p off word : Nat) : State :=
  let s := if p = 0 then s
    else { s with ddc := { s.ddc with bad := sortIn (badKey p (8 * off + word)) s.ddc.bad } }
  match p with
  | 0 =>
    let n := 4 * off + word / 2
    { s with ddc := { s.ddc with
      pairs := tblDel n s.ddc.pairs, invalid := if s.ddc.invalid.contains n then s.ddc.invalid else n :: s.ddc.invalid } }
  | 3 =>
    let h := pageBase + off / 64
    match s.queueOfPage h with
    | none => s
    | some q => s.modQueue q fun x => { x with
        pages := x.pages.map fun g => if g.h = h && g.written && g.lost = 0 then { g with lost := causeMemUncorrectable } else g }
  | 2 => (s.count PCE_POISON_TX_COUNT ix0 1).emit (.poisonedCompletion .pf0)
  | _ => s

/-- DRAM_READ: a read of a partition finds an error (R401), of a window for the peer's read that it serves. A single-bit
error is corrected in the channel that holds its burst (R393, R395). -/
def dramRead (part : Fin 4) (off : BitVec 35) (err : DramErr) (s : State) : State :=
  if !s.dramUp || s.partGib part.val * 2 ^ 24 ≤ off.toNat then s
  else
    match err with
    | .corrected _ j =>
      let (set, stripe) := s.stripeAt part.val off.toNat
      let k := burstCluster stripe j.val
      s.corrected k (s.channelOf k set) 1
    | .uncorrectable w =>
      (s.ueMet part.val (8 * off.toNat + w.val)).ueActs part.val off.toNat w.val

/-- CNT_CLR: a counter pair is zeroed and made valid (R409); without DRAM nothing is (R397). -/
def cntClr (req : Req) (v : W64) (s : State) : State :=
  let n := DDC_CNT_CLR_PAIR.get v
  let s := s.ownWrite req .ddcCntClr ix0 v 0
  if !s.dramUp || s.pairTotal ≤ n then s
  else { s with ddc := { s.ddc with pairs := tblDel n s.ddc.pairs, invalid := s.ddc.invalid.filter (· != n) } }

/-! ## Retraining, R400 -/

/-- A channel is retrained, unless its cluster is down or it is retired (R404); one that fails keeps its settings. -/
def State.retrainChannel (s : State) (k c : Nat) (bad : Bool) : State :=
  if !s.clusterUp k || (s.spare k).mapped == some c then s
  else
    let s := s.set DDC_CH_STATUS_RETRAIN_OK (ixNI k c) (ofBool (!bad))
    if bad then s.raiseAt DDC_INT_STATUS_RETRAIN_FAIL k 0 0 0 else s

/-- SET_RETRAIN: the next set pauses and is retrained, one channel in each cluster. `fails` has a bit for each cluster
whose channel fails. -/
def setRetrain (fails : BitVec 9) (s : State) : State :=
  if !s.flag DDC_CTRL_RUN ix0 || s.gen.selfRefresh then s
  else
    let c := s.ddc.set
    let s := { s with ddc := { s.ddc with set := (c + 1) % 16, paused := some (c, s.now) } }
    (List.range 9).foldl (fun s k => s.retrainChannel k c (fails.getLsbD k)) s

/-- The channels leave self-refresh: each is retrained before its first access, and the schedule of the sets starts from
there (R407). `fails` has bit 16 × cluster + channel for each channel that fails. -/
def State.leaveSelfRefresh (s : State) (fails : BitVec 144) : State :=
  if !s.gen.selfRefresh then s
  else
    let s := { s with gen := { s.gen with selfRefresh := false }, ddc := { s.ddc with set := 0, paused := none } }
    (List.range 9).foldl (fun s k =>
      (List.range 16).foldl (fun s c => s.retrainChannel k c (fails.getLsbD (16 * k + c))) s) s

/-- A channel may be in the pause of its set, which lasts at most 1.5 µs (R400). -/
def State.mayPause (s : State) (k c : Nat) : Bool :=
  match s.ddc.paused with
  | some (set, t) => set == c && s.now ≤ t + 7500 && s.clusterUp k && (s.spare k).mapped != some c
  | none => false

/-! ## Sparing commands -/

/-- SPARE_GO: the Mill maps a channel onto its cluster's spare (R403, R405). -/
def State.spareStart (s : State) (req : Req) (n src : Nat) : State :=
  let x := s.spare n
  if req != .mill || x.copying.isSome || src = 15 then s.violation .ddc n
  else if s.spareOk n then s.spareBegin n src
  else (s.raiseAt DDC_INT_STATUS_SPARE_FAIL n 0 0 0).sparing n src

/-- SPARE_GO: DDC_SPARE written with GO 1. -/
def spareGo (req : Req) (n : Fin 9) (v : W64) (s : State) : State :=
  if !s.domUp (domDC n.val) then s
  else (s.flushRw .ddc n.val).spareStart req n.val (DDC_SPARE_SRC.get v)

/-- SPARE_COPY_DONE: the copy is complete and the channel's traffic is on the spare (R404), or the spare was read with
an uncorrectable error and has failed (R405). -/
def spareCopyDone (n : Fin 9) (bad : Bool) (s : State) : State :=
  let x := s.spare n.val
  match x.copying with
  | none => s
  | some c =>
    if !s.clusterUp n.val then s
    else if bad then ((s.setSpare n.val { x with copying := none, failed := true }).raiseAt DDC_INT_STATUS_SPARE_FAIL n.val 0 0 0).sparing
      n.val c
    else ((s.setSpare n.val { x with copying := none, mapped := some c }).raiseAt DDC_INT_STATUS_SPARE_DONE n.val 0 0
      0).sparing n.val c

/-- SPARE_TEST: a pass of the background test of a spare: an uncorrectable word, or corrections that take the second
above THRESH, mark it failed (R406). A mapping that the Mill has restored at INIT is dropped when a fresh test fails
(R403). -/
def spareTest (n : Fin 9) (ue : Bool) (corr : BitVec 32) (s : State) : State :=
  let fresh := (s.spare n).mapped.isNone || s.gen.phase == .init
  if !s.clusterUp n || !s.flag DDC_CTRL_SPARE_EN ix0 || (s.spare n).copying.isSome || !fresh then s
  else
    let s := if corr = 0 then s else s.corrected n 15 corr.toNat
    let x := s.spare n
    if !ue && s.ceNow n 15 ≤ s.fld DDC_CE_CFG_THRESH (ixN n) then s.setSpare n.val { x with tested := true }
    else
      ((s.setSpare n.val { x with failed := true, mapped := none }).raiseAt DDC_INT_STATUS_SPARE_TEST_FAIL n.val 0 0 0).healthTo
        PRT_HEALTH_SPARE_FAIL 0 true

end Sys2Proof.Machine
end

