-- ==== Sys2Proof/Machine/ReamBase.lean ====
section
/-!
DEFINITION. Machine/ReamBase.lean: reams that come to nothing: the log of rejections, and the loss of a commit ring
while its ream is being staged; what holds a commit back (spec/11_reams.md R336, R345, R348, R353).
-/
namespace Sys2Proof.Machine

open Fld

/-- STATUS codes of R336. -/
def stNoRoom : Nat := 0x01
def stBadOp : Nat := 0x02
def stBadTable : Nat := 0x03
def stBadIndex : Nat := 0x04
def stBadLen : Nat := 0x05
def stBadMove : Nat := 0x06
def stTooMany : Nat := 0x07
def stBadNumber : Nat := 0x08
def stSkipped : Nat := 0x09
def stStalled : Nat := 0x0A
def stDiscarded : Nat := 0x0B

/-- A ream rejected, abandoned or discarded is counted and logged (R353). -/
def State.reamRefused (s : State) (ring : Nat) (code table pos : Nat) : State :=
  let s := s.count CMT_REJECTS_COUNT ix0 1
  let s := if s.flag CMT_REJECT_LOG_VALID ix0 then s
    else ((((s.set CMT_REJECT_LOG_STATUS ix0 code).set CMT_REJECT_LOG_TABLE ix0 table).set CMT_REJECT_LOG_POS ix0 pos).set
      CMT_REJECT_LOG_RING ix0 (ring - 12288)).set CMT_REJECT_LOG_VALID ix0 1
  s.count CMT_REJECT_LOG_COUNT ix0 1

/-- Nothing is being staged any more; the next ring is taken after this one (R337). -/
def State.stageEnd (s : State) : State :=
  { s with cmt := { s.cmt with
      ring := none, edits := [], changes := 0, pos := 0, fail := none, wait := none
      last := match s.cmt.ring with
        | some r => r - 12288
        | none => s.cmt.last } }

/-- Whether nothing holds a commit of ream n back: fewer than eight reams undrained, and none unsettled that lies 16 or
more before it, whose tag it would take again (R345). -/
def State.commitClear (s : State) (n : Nat) : Bool :=
  s.cmt.undrained.length < 8 && (s.cmt.half ++ s.cmt.unsettled).all fun r => (n + 2 ^ 32 - r % 2 ^ 32) % 2 ^ 32 < 16

/-- The wait of a staged ream ends once nothing holds it back (R345, R353). -/
def State.waitEnds (s : State) : State :=
  match s.cmt.wait with
  | none => s
  | some w =>
    if w.ended.isNone && s.commitClear w.number then
      { s with cmt := { s.cmt with wait := some { w with ended := some s.now } } }
    else s

/-- The ream being staged is discarded whole (R348). -/
def State.reamDiscard (s : State) (ring : Nat) : State :=
  ((s.reamRefused ring 0xFF 0 s.cmt.pos).stageEnd).raise CMT_INT_STATUS_DISCARDED

/-- A commit ring leaves RUN: a ream of it whose COMMIT has not been fetched is discarded whole; one whose COMMIT has
been fetched stands (R87, R348). -/
def State.commitLost (s : State) (r : Nat) : State :=
  let s := { s with cmt := { s.cmt with rest := s.cmt.rest.filter (fun (x : RestReam) => x.ring != r) } }
  if s.cmt.ring == some r && s.cmt.wait.isNone then s.reamDiscard r else s

end Sys2Proof.Machine
end

