-- ==== Sys2Proof/Machine/Rings.lean ====
section
/-!
DEFINITION. Machine/Rings.lean: read tags, ring states, doorbells, ring interrupts, and the DMA of TX and RX rings
(spec/04_host_pcie.md R127, R128, spec/05_rings_mailboxes_locks.md R140 to R158).
-/
namespace Sys2Proof.Machine

open Fld

/-! ## Read tags, R127 -/

/-- The guarantee of a function: 32 tags for PF0, 256 for PF1. -/
def tagGuar : Fn → Nat
  | .pf0 => 32
  | .pf1 => 256

/-- The tags that a function holds. -/
def State.tagsOf (s : State) (f : Fn) : Nat := (s.pce.tags.filter (fun t => t.fn == f)).length

/-- Whether a function gets one more tag under the shared-resource rule (R127, R365). -/
def State.tagOk (s : State) (f : Fn) : Bool :=
  let u0 := s.tagsOf .pf0
  let u1 := s.tagsOf .pf1
  shareOk 512 288 0 ((u0 - 32) + (u1 - 256)) (s.tagsOf f) (tagGuar f) 1 (s.fld PCE_TAG_CTRL_ALPHA ix0)

/-- The lowest tag not in use. -/
def State.freeTag (s : State) : Nat :=
  ((List.range 512).find? (fun t => !s.pce.tags.any (fun u => u.tag == t))).getD 0

/-- A read request is issued with a tag. -/
def State.sendRead (s : State) (f : Fn) (u : ReadUse) : State :=
  let t := s.freeTag
  let s := { s with pce := { s.pce with tags := s.pce.tags ++ [(⟨t, f, u, false⟩ : TagUse)] } }
  let s := match u with
    | .ring r => s.setRing r { s.ring r with inflight := (s.ring r).inflight + 1 }
    | .millBlock _ => s
  s.emit (.readReq f t u)

/-- A read is wanted: issued, or waiting for a tag in its own engine (R127). -/
def State.wantRead (s : State) (f : Fn) (u : ReadUse) : State :=
  if !s.canMaster f then s
  else if s.tagOk f then s.sendRead f u
  else { s with pce := { s.pce with waits := s.pce.waits ++ [(⟨f, u⟩ : TagWait)] } }

/-! ## Ring states, R145, R146 -/

/-- HALT_CODE values (R156). -/
def haltBmeLost : Nat := 1
def haltFlr : Nat := 2
def haltD3 : Nat := 3
def haltCplPoison : Nat := 4
def haltCplErr : Nat := 5
def haltCplTimeout : Nat := 6
def haltBadDoorbell : Nat := 7

/-- Requests of a ring that wait for a tag are not issued any more (R145). -/
def State.dropWaits (s : State) (r : Nat) : State :=
  { s with pce := { s.pce with waits := s.pce.waits.filter (fun (w : TagWait) => w.use != .ring r) } }

/-- An error on a running ring halts it, logs it and requests its interrupt (R146, R155, R157). -/
def State.haltRing (s : State) (r code : Nat) : State :=
  if (s.ring r).state != .run then s
  else
    let s := s.setRing r { s.ring r with state := .halted, haltCode := code, slots := 0 }
    let s := s.dropWaits r
    let s := if s.fld RNG_HALT_LOG_COUNT ix0 = 0 then
      (s.set RNG_HALT_LOG_RING ix0 r).set RNG_HALT_LOG_CODE ix0 code else s
    let s := s.count RNG_HALT_LOG_COUNT ix0 1
    let s := s.raiseAt RNG_INT_STATUS_RING_HALTED 0 0 r code
    let s := if isCommit r then s.commitLost r else s
    if s.flag RNG_CFG_IRQ_EN (ixI r) && (s.ring r).armed then s.ringRequest r else s

/-- A ring in RUN with descriptors to fetch and none being fetched (R141, R153). -/
def State.fetchDue (s : State) (r : Nat) : Bool :=
  let x := s.ring r
  x.state == .run && (isTx r || isCommit r) && x.hostIdx != x.modIdx && x.slots == 0

/-- Up to n work slots more, one by one while the rule grants them (R152). -/
def State.growSlots (s : State) (r : Nat) : Nat → State
  | 0 => s
  | n + 1 => if s.slotOk r then (s.setRing r { s.ring r with slots := (s.ring r).slots + 1 }).growSlots r n else s

/-- A descriptor fetch starts once a work slot is free (R152, R153): one read for as many covered descriptors as get a
slot, up to the eight of a longest chain (R147; DESIGN CHOICE, log entry 101). -/
def State.startFetch (s : State) (r : Nat) : State :=
  if s.fetchDue r && s.slotOk r && s.canMaster .pf1 then
    (s.growSlots r (min 8 ((s.ring r).hostIdx - (s.ring r).modIdx).toNat)).wantRead .pf1 (.ring r)
  else s

/-- The descriptors between MOD_IDX and HOST_IDX of an RX, TX or Commit ring (R141). -/
def State.covered (s : State) (r : Nat) : Nat := ((s.ring r).hostIdx - (s.ring r).modIdx).toNat

/-- The validity condition of R141 for a HOST_IDX. -/
def State.doorbellValid (s : State) (r : Nat) (h : W32) : Bool :=
  if isEvent r || isExport r then ((s.ring r).modIdx - h).toNat ≤ s.ringSize r
  else (h - (s.ring r).modIdx).toNat ≤ s.ringSize r

/-- A doorbell (R142). -/
def State.doorbell (s : State) (r : Nat) (h : W32) : State :=
  if (s.ring r).state != .run then s
  else if s.doorbellValid r h then (s.setRing r { s.ring r with hostIdx := h }).startFetch r
  else s.haltRing r haltBadDoorbell

/-- RING_DOORBELL. -/
def ringDoorbell (r : Fin 16384) (h : W32) (s : State) : State := s.doorbell r.val h

/-- The bits of RNG_CFG that are RWX (R156). -/
def ringRwx : W64 := classMask .rngCfg .rwx

/-- The RW fields of RNG_CFG but ENABLE, written (R6, R156). -/
def State.ringRw (s : State) (r : Nat) (v : W64) : State :=
  s.wr .rngCfg (ixI r) (blend (s.rd .rngCfg (ixI r)) v (classMask .rngCfg .rw &&& ~~~RNG_CFG_ENABLE.mask))

/-- The RWX fields of RNG_CFG written while the ring is not DISABLED: a change is discarded with CFG_VIOLATION
(R10, R146). -/
def State.ringRwxRefused (s : State) (r : Nat) (v : W64) : State :=
  if (v &&& ringRwx) != (s.rd .rngCfg (ixI r) &&& ringRwx) then
    s.raiseAt RNG_INT_STATUS_CFG_VIOLATION 0 0 r 0 else s

/-- The RWX fields of RNG_CFG written while the ring is DISABLED (R10). -/
def State.ringRwxTaken (s : State) (r : Nat) (v : W64) : State :=
  s.wr .rngCfg (ixI r) (blend (s.rd .rngCfg (ixI r)) v ringRwx)

/-- The guarantees of an engine's rings that are not DISABLED, with this ring's own (R152). -/
def State.guarAfter (s : State) (r : Nat) : Nat :=
  (s.slotSums (r % 4)).1 + s.fld RNG_CFG_GUAR (ixI r)

/-- RNG_CFG written with ENABLE 1 (R146, R152, R156). A ring that opens forgets its HALT_CODE and the completions
gathered before (DESIGN CHOICE, log entry 102). A HALTED ring that software has disabled still becomes DISABLED once
nothing is in flight, for no row says that ENABLE 1 takes the ENABLE 0 back (DESIGN CHOICE, log entry 103). -/
def State.enableRing (s : State) (r : Nat) (v : W64) : State :=
  match (s.ring r).state with
  | .disabled =>
    let s := (s.ringRw r v).ringRwxTaken r v
    if 0xA < s.fld RNG_CFG_SIZE (ixI r) then s.raiseAt RNG_INT_STATUS_CFG_VIOLATION 0 0 r 0
    else if 2048 < s.guarAfter r then s.raiseAt RNG_INT_STATUS_GUAR_VIOL 0 0 r 0
    else
      let s := s.set RNG_CFG_ENABLE (ixI r) 1
      s.setRing r { s.ring r with hostIdx := 0, modIdx := 0, state := .run, haltCode := 0, closing := false,
                                  gathered := 0, slots := 0 }
  | .run | .stopping | .halted => (s.ringRw r v).ringRwxRefused r v

/-- RING_ENABLE. -/
def ringEnable (r : Fin 16384) (cfg : W64) (s : State) : State := s.enableRing r.val (cfg ||| RNG_CFG_ENABLE.mask)

/-- RNG_CFG written with ENABLE 0 (R146). -/
def State.disableRing (s : State) (r : Nat) (v : W64) : State :=
  match (s.ring r).state with
  | .disabled => ((s.ringRw r v).ringRwxTaken r v)
  | .run =>
    let s := (s.ringRw r v).ringRwxRefused r v
    let s := (s.set RNG_CFG_ENABLE (ixI r) 0).setRing r { s.ring r with state := .stopping, closing := true, slots := 0 }
    let s := s.dropWaits r
    if isCommit r then s.commitLost r else s
  | .halted =>
    let s := (s.ringRw r v).ringRwxRefused r v
    (s.set RNG_CFG_ENABLE (ixI r) 0).setRing r { s.ring r with closing := true }
  | .stopping => (s.ringRw r v).ringRwxRefused r v

/-- RING_DISABLE. -/
def ringDisable (r : Fin 16384) (cfg : W64) (s : State) : State := s.disableRing r.val (cfg &&& ~~~RNG_CFG_ENABLE.mask)

/-- RING_DRAINED: a STOPPING ring, or a HALTED one that software has disabled, is DISABLED once nothing is in flight
(R146). -/
def ringDrained (r : Fin 16384) (s : State) : State :=
  let x := s.ring r.val
  if x.inflight = 0 && (x.state == .stopping || (x.state == .halted && x.closing)) then
    s.setRing r.val { x with state := .disabled, closing := false }
  else s

/-! ## Ring interrupts, R155 -/

/-- RNG_ARM written 1: the ring is armed again; completions gathered meanwhile count (R155). -/
def State.armRing (s : State) (r : Nat) : State :=
  ((s.setRing r { s.ring r with armed := true, irqPend := false }).settleIntx .pf1).ringGather r

/-- RING_ARM. -/
def ringArm (r : Fin 16384) (s : State) : State := s.armRing r.val

/-- RING_COAL_TIMER: COAL_TIME after the first completion not yet signalled (R155). -/
def ringCoalTimer (r : Fin 16384) (s : State) : State :=
  let x := s.ring r.val
  if s.flag RNG_CFG_IRQ_EN (ixI r.val) && x.armed && s.fld RNG_CFG_COAL_TIME (ixI r.val) != 0 && x.gathered != 0 then
    s.ringRequest r.val
  else s

/-! ## Work slots, R153 -/

/-- DMA_SLOT_AVAILABLE: in engine e the oldest held record that can be written is written; with none, the
lowest-numbered ring that waits starts its fetch. A held record whose ring has closed or filled is discarded and
counted, and an event whose ring has filled sets EVT_LOST. -/
def dmaSlotAvailable (e : Fin 4) (s : State) : State :=
  match takeFirst (fun h : HeldRec => h.ring % 4 = e.val) s.rng.fifos with
  | some (h, rest) =>
    let s' := ({ s with rng := { s.rng with fifos := rest } }).ringDrop h.ring
    if (s.ring h.ring).state != .run then s'
    else if s.recFull h.ring then
      if isEvent h.ring then s'.raiseAt RNG_INT_STATUS_EVT_LOST 0 0 h.ring 0 else s'
    else if s.slotOk h.ring && s.canMaster .pf1 then ({ s with rng := { s.rng with fifos := rest } }).writeRec h.ring h.bytes
    else s
  | none =>
    match (s.rng.rings.find? (fun x => x.1 % 4 = e.val && s.fetchDue x.1)) with
    | some (r, _) => s.startFetch r
    | none => s

/-! ## TX rings, R147, R148 -/

/-- The status of a TX chain before the buffers are asked for (R147): 1 for a bad length or order of SOP and EOP,
2 for a bad port, 0 otherwise. -/
def txStatus (chain : List TxDesc) (data : List Byte) : Nat :=
  let n := chain.length
  let total := chain.foldl (fun a d => a + d.len.toNat) 0
  let order := (List.range n).all fun i =>
    match chain[i]? with
    | some d => (d.sop == (i == 0)) && (d.eop == (i + 1 == n))
    | none => true
  if n = 0 || 8 < n || !order || chain.any (fun d => d.len == 0) || 16383 < total || data.length != total then 1
  else if chain.any (fun d => d.mode && 287 < d.destPort.toNat) then 2
  else 0

/-- A TX descriptor as the module writes it back (R147). -/
def txBytes (d : TxDesc) (status cause : Nat) : List Byte :=
  leBytes 8 d.bufAddr.toNat
  ++ leBytes 8 (d.len.toNat + ofBool d.sop * 2 ^ 14 + ofBool d.eop * 2 ^ 15 + ofBool d.mode * 2 ^ 16
      + d.cls.toNat * 2 ^ 17 + d.destPort.toNat * 2 ^ 20)
  ++ leBytes 8 d.cookie.toNat ++ leBytes 8 (status + cause * 256)

/-- The module completes a descriptor: one write of 32 bytes if PF1 may still send requests (spec/04_host_pcie.md
R128), MOD_IDX advanced, a completion (R144, R155). -/
def State.completeDesc (s : State) (r : Nat) (bytes : List Byte) : State :=
  let i := (s.ring r).modIdx.toNat
  let s := if s.canMaster .pf1 then s.dmaWrite .pf1 (s.descAddr r i) (withPhase bytes (s.phaseBit r i)) else s
  (s.setRing r { s.ring r with modIdx := (s.ring r).modIdx + 1 }).ringCompletion r

/-- The read that fetched a ring's descriptors has finished: its tags are free, nothing is in flight; n descriptors are
no longer in progress. -/
def State.fetchDone (s : State) (r n : Nat) : State :=
  let s := { s with pce := { s.pce with tags := s.pce.tags.filter (fun (t : TagUse) => t.use != ReadUse.ring r || t.dead) } }
  (s.dropWaits r).setRing r { s.ring r with inflight := 0, slots := (s.ring r).slots - n }

/-- TX_DESCRIPTOR: the module fetches a chain, enters the packet at the slice's host port and writes STATUS back into
every descriptor of it (R147, R148), with a work slot for each (R152). MODE, CLASS and DEST_PORT are those of the
chain's first descriptor (DESIGN CHOICE, log entry 104). While requester 19 retries for the packet's cells the command
waits (R363). -/
def txDescriptor (r : Fin 16384) (chain : List TxDesc) (data : List Byte) (s : State) : State :=
  let r := r.val
  if !isTx r || (s.ring r).state != .run || s.covered r < chain.length || chain.length = 0 || !s.canMaster .pf1
    || !((s.ring r).slots ≥ chain.length || s.slotsOk r (chain.length - (s.ring r).slots)) then s
  else
    let st0 := txStatus chain data
    let (s, ask) := if st0 = 0 && s.domUp domQC then s.hostDma data.length else (s, Retry.covered)
    match ask with
    | .waits => s
    | ask =>
      let s := s.fetchDone r chain.length
      let refused := ask == .gaveUp
      let status := if refused then 3 else st0
      let cause := if refused then causePoolEmpty else 0
      let slice := s.fld RNG_CFG_SLICE (ixI r)
      let port := 256 + 2 * slice
      let s := if refused then s.countDrop causePoolEmpty data.length port 0 else s
      let s := if status = 0 then
          let direct := match chain with
            | d :: _ => if d.mode then some (d.destPort.toNat, d.cls.toNat) else none
            | [] => none
          s.arrive slice { port := port, bytes := data, ts := none, direct := direct, fseq := 0 }
        else s
      let s := chain.foldl (fun s d => s.completeDesc r (txBytes d status cause)) s
      s.startFetch r

/-! ## RX rings, R149, R153 -/

/-- A packet cut into buffers: each piece's buffer address and bytes; none when the buffers cannot hold it. -/
def rxPieces : List Byte → List (W64 × BitVec 16) → Option (List ((W64 × BitVec 16) × List Byte))
  | _, [] => none
  | bs, b :: bufs =>
    let k := b.2.toNat
    if bs.length ≤ k then some [(b, bs)]
    else if k = 0 then none
    else (rxPieces (bs.drop k) bufs).map fun t => (b, bs.take k) :: t

/-- An RX descriptor as the module writes it back (R149). -/
def rxBytes (p : HostPkt) (piece : (W64 × BitVec 16) × List Byte) (sop eop : Bool) : List Byte :=
  leBytes 8 piece.1.1.toNat ++ leBytes 8 piece.1.2.toNat
  ++ leBytes 8 (piece.2.length + p.srcPort * 2 ^ 16 + p.cause * 2 ^ 25 + ofBool sop * 2 ^ 33 + ofBool eop * 2 ^ 34)
  ++ leBytes 8 (p.tsNs % 2 ^ 32 + (p.tsSec % 65536) * 2 ^ 32)

/-- The cells of a packet in its host queue are free again. -/
def State.freeHost (s : State) (p : HostPkt) : State := p.cells.foldl (fun s h => s.decCell p.holder h) s

/-- The host queues with packets. -/
def State.withHost (s : State) (ps : List HostPkt) : State := { s with hostQ := ps }

/-- A host packet dropped at its ring (R146, R153, R379). -/
def State.dropHost (s : State) (p : HostPkt) (rest : List HostPkt) (cause : Nat) : State :=
  (((s.freeHost p).ringDrop p.ring).countDrop cause p.bytes.length p.srcPort 0).withHost rest

/-- RX_PACKET_DELIVER: the oldest packet for a ring fills posted buffers, or is dropped when the ring is not in RUN or
has no buffers for it, or stays while there is no work slot for each buffer or PF1 sends no requests (R146, R149, R152,
R153, spec/04_host_pcie.md R128). With a cell of it read with an uncorrectable error (`ue`), it is dropped
(spec/12_buffering.md R373). -/
def rxPacketDeliver (r : Fin 16384) (bufs : List (W64 × BitVec 16)) (ue : Bool) (s : State) : State :=
  let r := r.val
  match takeFirst (fun p : HostPkt => p.ring = r) s.hostQ with
  | none => s
  | some (p, rest) =>
    if (s.ring r).state != .run || !isRx r then s.dropHost p rest causeHostRingDown
    else
      match rxPieces p.bytes (bufs.take (s.covered r)) with
      | none => s.dropHost p rest causeHostRingFull
      | some pieces =>
        if !s.slotsOk r pieces.length || !s.canMaster .pf1 then s
        else if ue then s.dropHost p rest causeMemUncorrectable
        else
          let s := (s.freeHost p).withHost rest
          let n := pieces.length
          (List.range n).foldl (fun s i =>
            match pieces[i]? with
            | none => s
            | some q =>
              let s := s.dmaWrite .pf1 q.1.1.toNat q.2
              s.completeDesc r (rxBytes p q (i == 0) (i + 1 == n))) s

end Sys2Proof.Machine
end

