-- ==== Sys2Proof/Machine/Mailbox.lean ====
section
/-!
DEFINITION. Machine/Mailbox.lean: the mailbox pairs and the Mill's service slots (spec/05_rings_mailboxes_locks.md
R159 to R168).
-/
namespace Sys2Proof.Machine

open Fld

/-- Return codes, R161. -/
def rcOk : Nat := 0
def rcBusy : Nat := 1
def rcBadOpcode : Nat := 2
def rcBadLength : Nat := 3
def rcBadAddress : Nat := 4
def rcDenied : Nat := 5
def rcTimeout : Nat := 6
def rcInternal : Nat := 7

/-- A mailbox pair. -/
def State.pair (s : State) (i : Nat) : MbxPair := tblGet MbxPair.init s.mbx.pairs i

/-- A mailbox pair, set. -/
def State.setPair (s : State) (i : Nat) (p : MbxPair) : State :=
  { s with mbx := { s.mbx with pairs := tblPut i p s.mbx.pairs } }

/-- Both mailboxes of a pair are full (R166). -/
def MbxPair.cross (p : MbxPair) : Bool := p.h2m.isSome && p.m2h.isSome

/-- A pair changes; becoming crossed raises CROSS[i] (R166). -/
def State.movePair (s : State) (i : Nat) (p : MbxPair) : State :=
  let was := (s.pair i).cross
  let s := s.setPair i p
  if p.cross && !was then s.raiseAt MBX_INT_STATUS_CROSS 0 i 0 0 else s

/-- H2M[i] becomes empty: the host is told (R162). -/
def State.emptyH2m (s : State) (i : Nat) : State :=
  (s.movePair i { s.pair i with h2m := none }).raiseAt MBX_INT_STATUS_H2M_EMPTY 0 i 0 0

/-- MBX_H2M_POST: the post copies the pointer and the posted fields together; on a full mailbox the old notice is
lost (R159, R163). -/
def mbxH2mPost (i : Fin 8) (v : W64) (s : State) : State :=
  let p := s.pair i.val
  let n : Notice :=
    { ptr := s.rd .mbxH2mPtr (ixI i.val), len := BitVec.ofNat 16 (MBX_H2M_POST_LEN.get v),
      tag := BitVec.ofNat 8 (MBX_H2M_POST_TAG.get v), seq := BitVec.ofNat 8 (MBX_H2M_POST_SEQ.get v) }
  if p.h2m.isSome then
    (s.movePair i.val { p with h2m := some n, collision := true }).raiseAt MBX_INT_STATUS_COLLISION 0 i.val 0 0
  else s.movePair i.val { p with h2m := some n }

/-- Slots in service, and those of one source. A command answered BUSY held none (R165). -/
def State.slotsHeld (s : State) (p : MillSrc → Bool) : Nat :=
  (s.mbx.slots.filter (fun x => p x.src && !(x.done && x.status = 1))).length

/-- The sources of commands: eight mailboxes and SMBus (R165). -/
def millConsumer : MillSrc → Nat
  | .mbx i => i.val
  | .smbus _ => 8

/-- Whether a command gets a service slot: 32 slots, 2 guaranteed to each mailbox and to SMBus (R165, R365). -/
def State.serviceOk (s : State) (src : MillSrc) : Bool :=
  let held := fun k => s.slotsHeld (fun x => millConsumer x == k)
  let sumX := (List.range 9).foldl (fun a k => a + (held k - 2)) 0
  shareOk 32 18 0 sumX (held (millConsumer src)) 2 1 (s.fld MBX_SVC_CTRL_ALPHA ix0)

/-- The opcodes of the command set, spec/19_mill.md R575. -/
def millOpcodes : List Nat :=
  [0x0001, 0x0010, 0x0011, 0x0020, 0x0030, 0x0031, 0x0040, 0x0041, 0x0042, 0x0050, 0x0051, 0x0060, 0x0061, 0x0062,
   0x0070, 0x0080, 0x0081, 0x0082, 0x0083, 0x0084, 0x0090]

/-- A slot whose command the Mill has already judged. -/
def answered (src : MillSrc) (n : Notice) (block : List Byte) (status : Nat) : MillSlot :=
  { src := src, notice := n, block := block, done := true, status := BitVec.ofNat 8 status, detail := 0, resp := [],
    abandoned := false }

/-- A slot whose command the Mill has yet to run. -/
def waiting (src : MillSrc) (n : Notice) (block : List Byte) : MillSlot :=
  { src := src, notice := n, block := block, done := false, status := 0, detail := 0, resp := [], abandoned := false }

/-- The opcode of a command block (R160). -/
def blockOpcode (block : List Byte) : Nat := leNat (bytesAt block 0 2)
/-- The LENGTH of a command block (R160). -/
def blockLength (block : List Byte) : Nat := leNat (bytesAt block 4 2)

/-- A command taken with its block: judged by R161 as far as every command is, and put in a slot. -/
def State.takeCommand (s : State) (src : MillSrc) (n : Notice) (readOk : Bool) (block : List Byte) (maxLen : Nat) :
    State :=
  let len := blockLength block
  let slot :=
    if !s.serviceOk src then answered src n block rcBusy
    else if !readOk || n.ptr.toNat % 8 != 0 then answered src n block rcBadAddress
    else if len < 16 || len % 8 != 0 || len != n.len.toNat || maxLen < len then answered src n block rcBadLength
    else if !millOpcodes.contains (blockOpcode block) then answered src n block rcBadOpcode
    else waiting src n block
  { s with mbx := { s.mbx with slots := s.mbx.slots ++ [slot] } }

/-- Whether the Mill serves mailboxes: it runs an image, or its boot ROM serves them in BOOT_FAIL
(spec/03_startup_reset.md R82). -/
def State.millServes (s : State) : Bool := s.mil.ready || (s.mil.bootRom && s.gen.bootFail)

/-- MILL_TAKE_NOTICE: the Mill takes an H2M notice and reads its command block as PF0 (R162, R165). In forerunner mode
the notice stays in H2M until the command is finished. -/
def millTakeNotice (i : Fin 8) (readOk : Bool) (block : List Byte) (s : State) : State :=
  match (s.pair i.val).h2m with
  | none => s
  | some n =>
    let use := ReadUse.millBlock i.val
    let out := s.pce.tags.any (fun t => t.use == use && !t.dead)
    if !s.millServes || !s.canMaster .pf0
      || ((s.pair i.val).frAck && s.mbx.slots.any (fun x => x.src == .mbx i && x.notice == n)) then s
    else if !out && !s.tagOk .pf0 then
      (if s.pce.waits.any (fun w => w.use == use) then s else s.wantRead .pf0 use)
    else
      let s := { s with pce := { s.pce with tags := s.pce.tags.filter (fun (t : TagUse) => t.use != use || t.dead) } }
      let s := s.takeCommand (.mbx i) n readOk block 65528
      if (s.pair i.val).frAck then s else s.emptyH2m i.val

/-- The response and the header that the Mill writes into a command block (R160): the response after the header,
within LENGTH, then STATUS, DETAIL and RESP_LENGTH. -/
def State.writeAnswer (s : State) (x : MillSlot) : State :=
  let resp := x.resp.take (x.notice.len.toNat - 16)
  let s := s.dmaWrite .pf0 (x.notice.ptr.toNat + 16) resp
  s.dmaWrite .pf0 (x.notice.ptr.toNat + 8)
    (leBytes 1 x.status.toNat ++ leBytes 3 x.detail.toNat ++ leBytes 4 resp.length)

/-- M2H[i] becomes full (R162, R166). -/
def State.postM2h (s : State) (i : Nat) (n : Notice) : State :=
  (s.movePair i { s.pair i with m2h := some n }).raiseAt MBX_INT_STATUS_M2H_NOTICE 0 i 0 0

/-- STATE of an SMBus buffer, set (spec/19_mill.md R593). -/
def State.setSmbState (s : State) (b : Bool) (x : Nat) : State :=
  { s with mil := if b then { s.mil with smb1 := x } else { s.mil with smb0 := x } }

/-- Bytes written into the SMBus buffers; bytes past 0x7FF are discarded (spec/19_mill.md R594). -/
def writeSmb (m : List (Nat × Byte)) (off : Nat) : List Byte → List (Nat × Byte)
  | [] => m
  | b :: bs => if off < 0x800 then writeSmb (tblPut off b m) (off + 1) bs else m

/-- The answer of an SMBus command goes into its buffer (spec/19_mill.md R593). -/
def State.answerSmb (s : State) (b : Bool) (x : MillSlot) : State :=
  let base := if b then 0x400 else 0
  let resp := x.resp.take (min 1024 (blockLength x.block) - 16)
  let m := writeSmb s.mil.smb (base + 8)
    (leBytes 1 x.status.toNat ++ leBytes 3 x.detail.toNat ++ leBytes 4 resp.length ++ resp)
  ({ s with mil := { s.mil with smb := m } }).setSmbState b 2

/-- MILL_ANSWER: the Mill answers a command it has finished (R160, R162). In native mode it writes STATUS and posts
M2H, waiting while M2H is full; in forerunner mode it writes STATUS and the acknowledgement and H2M empties. A command
abandoned with its master (spec/04_host_pcie.md R128) ends without an answer. -/
def millAnswer (src : MillSrc) (s : State) : State :=
  match takeFirst (fun x : MillSlot => x.src == src && (x.done || x.abandoned)) s.mbx.slots with
  | none => s
  | some (x, rest) =>
    let done := { s with mbx := { s.mbx with slots := rest } }
    if x.abandoned then done
    else
      match src with
      | .smbus b => if s.millServes then done.answerSmb b x else s
      | .mbx i =>
        let p := s.pair i.val
        if !s.millServes || !s.canMaster .pf0 then s
        else if p.frAck then
          let s := done.writeAnswer x
          let s := s.setPair i.val { s.pair i.val with ackCode := x.status, ackSeq := x.notice.seq }
          if p.h2m == some x.notice then s.emptyH2m i.val else s
        else if p.m2h.isSome then s
        else (done.writeAnswer x).postM2h i.val x.notice

/-- MBX_M2H_TAKE: TAKE empties M2H[i]; in forerunner mode CODE is the host's return code to the Mill (R162). -/
def mbxM2hTake (i : Fin 8) (v : W64) (s : State) : State :=
  let p := s.pair i.val
  if MBX_M2H_TAKE_TAKE.get v = 1 && p.m2h.isSome then
    let code := if p.frAck then BitVec.ofNat 8 (MBX_M2H_TAKE_CODE.get v) else p.takeCode
    s.movePair i.val { p with m2h := none, takeCode := code }
  else s

/-- MBX_TIMEOUT: outside RUN a full mailbox's 50 ms timer expires, its notice is discarded and TIMEOUT is raised (R164,
spec/03_startup_reset.md R80). The Mill, as the sender of M2H, reads the code 0x06 as its return code (R161; log entry
93). -/
def mbxTimeout (i : Fin 8) (h2m : Bool) (s : State) : State :=
  let p := s.pair i.val
  if s.gen.phase == .run then s
  else if h2m then
    if p.h2m.isSome then
      ((s.setPair i.val { p with timeout := true, ackCode := 6 }).emptyH2m i.val).raiseAt MBX_INT_STATUS_TIMEOUT 0 i.val 0 0
    else s
  else if p.m2h.isSome then
    (s.movePair i.val { p with m2h := none, takeCode := 6 }).raiseAt MBX_INT_STATUS_TIMEOUT 0 i.val 0 0
  else s

/-- MBX_MODE_WRITE: FR_ACK changes only while both mailboxes of the pair are empty (R162). -/
def mbxModeWrite (i : Fin 8) (v : W64) (s : State) : State :=
  let p := s.pair i.val
  let fr := MBX_MODE_FR_ACK.get v = 1
  if fr = p.frAck then s
  else if p.h2m.isNone && p.m2h.isNone then s.setPair i.val { p with frAck := fr }
  else s.violation .mbx 0

/-- MBX_H2M_STAT as read (R167). -/
def MbxPair.stat (p : MbxPair) : Nat :=
  ofBool p.h2m.isSome + ofBool p.collision * 2 + ofBool p.timeout * 4 + ofBool p.cross * 8 + p.ackCode.toNat * 2 ^ 8
    + p.ackSeq.toNat * 2 ^ 16

/-- A W1C write of MBX_H2M_STAT (R167). -/
def State.clearH2mStat (s : State) (i : Nat) (v : W64) : State :=
  let p := s.pair i
  s.setPair i { p with collision := p.collision && !v.getLsbD 1, timeout := p.timeout && !v.getLsbD 2 }

/-- MBX_M2H_PTR as read (R167). -/
def MbxPair.m2hPtr (p : MbxPair) : Nat := match p.m2h with | some n => n.ptr.toNat | none => 0

/-- MBX_M2H_NOTE as read (R167). -/
def MbxPair.m2hNote (p : MbxPair) : Nat :=
  match p.m2h with
  | some n => n.len.toNat + n.tag.toNat * 2 ^ 16 + n.seq.toNat * 2 ^ 24 + 2 ^ 32
  | none => 0

end Sys2Proof.Machine
end

