-- ==== Sys2Proof/Machine/Pcie.lean ====
section
/-!
DEFINITION. Machine/Pcie.lean: the endpoint: unsupported requests, MSI-X and INTx, completions of the module's reads,
function resets and power states, and the host-facing reset (spec/04_host_pcie.md).
-/
namespace Sys2Proof.Machine

open Fld

/-! ## Unsupported requests, R117, R118 -/

/-- A request answered or discarded as unsupported, recorded and reported (R117, R118, R133). UR_LOGGED rises also for a
request that only increments COUNT: R117 records every one (DESIGN CHOICE, log entry 94). -/
def State.unsupported (s : State) (t : Tlp) (reason : Nat) : State :=
  let s := if s.flag PCE_UR_LOG_INFO_VALID ix0 then s
    else
      let s := s.set PCE_UR_LOG_ADDR_OFFSET ix0 t.off
      let s := s.set PCE_UR_LOG_INFO_REQ_ID ix0 t.reqId.toNat
      let s := s.set PCE_UR_LOG_INFO_FUNC ix0 (if t.fn == .pf1 then 1 else 0)
      let s := s.set PCE_UR_LOG_INFO_BAR ix0 (ofBool t.bar2)
      let s := s.set PCE_UR_LOG_INFO_TYPE ix0 (match t.kind with | .read => 0 | .write => 1 | .other => 2)
      let s := s.set PCE_UR_LOG_INFO_REASON ix0 reason
      s.set PCE_UR_LOG_INFO_VALID ix0 1
  let s := s.count PCE_UR_LOG_INFO_COUNT ix0 1
  let s := s.raise PCE_INT_STATUS_UR_LOGGED
  match t.kind with
  | .write => s.aer t.fn .advisory
  | .read | .other => (s.emit (.unsupported t.fn reason)).aer t.fn .unsupported

/-! ## MSI-X and INTx, R124 to R126 -/

/-- The cause of a vector is still present: a summary bit of PF0, a ring's pending interrupt of PF1. -/
def State.vectorCause (s : State) (f : Fn) (v : Nat) : Bool :=
  match f with
  | .pf0 => v < 25 && s.summaryBit (summaryBlocks.getD v .dsc)
  | .pf1 => s.rng.rings.any (fun e => e.2.irqPend && s.fld RNG_CFG_VECTOR (ixI e.1) = v)

/-- Pending vectors that are no longer masked: each sends its message if its cause is still present (R125). -/
def State.sendPending (s : State) (f : Fn) : State :=
  let x := s.fn f
  if !x.msixEn || x.msixMask || !s.canMaster f then s
  else
    (x.pend.filter (fun v => !(x.entry v).mask)).foldl (fun s v =>
      let y := s.fn f
      let s := s.setFn f { y with pend := y.pend.filter (· != v) }
      if s.vectorCause f v then s.emit (.msix f v (y.entry v).addr (y.entry v).data) else s) s

/-- MSIX_UNMASK: a vector, or the whole function, is unmasked (R125). -/
def msixUnmask (f : Fn) (vec : Option (Fin 2048)) (s : State) : State :=
  let x := s.fn f
  let s := match vec with
    | some v => s.setFn f { x with table := tblPut v.val { x.entry v.val with mask := false } x.table }
    | none => s.setFn f { x with msixMask := false }
  s.sendPending f

/-- MSIX_ENABLE: an asserted function first sends Deassert_INTx; with MSI-X enabled, causes already present are
delivered by MSI-X (R126). -/
def msixEnable (f : Fn) (intDisable : Bool) (s : State) : State :=
  let x := s.fn f
  if intDisable then (s.setFn f { x with intDis := true }).settleIntx f
  else
    let s := (s.setFn f { x with msixEn := true }).settleIntx f
    match f with
    | .pf0 => (List.range 25).foldl (fun s v => if s.vectorCause .pf0 v then s.sendVector .pf0 v else s) s
    | .pf1 => s.rng.rings.foldl (fun s e =>
        if e.2.irqPend then s.sendVector .pf1 (s.fld RNG_CFG_VECTOR (ixI e.1)) else s) s

/-! ## Reads of the module, R127, R128, R133 -/

/-- A ring's read is no longer in flight. -/
def State.readLanded (s : State) (r : Nat) : State :=
  s.setRing r { s.ring r with inflight := (s.ring r).inflight - 1 }

/-- PCIE_COMPLETION (R128, R133): discarded when its read is no longer wanted; an error halts its ring. -/
def pcieCompletion (tag : Fin 512) (status : CplStatus) (s : State) : State :=
  match takeFirst (fun t : TagUse => t.tag = tag.val) s.pce.tags with
  | none => s
  | some (t, rest) =>
    let s := { s with pce := { s.pce with tags := rest } }
    if t.dead then
      (match t.use with | .ring r => s.readLanded r | .millBlock _ => s).count PCE_DISCARD_CPL_COUNT ix0 1
    else
      match t.use with
      | .millBlock _ => s
      | .ring r =>
        let s := s.readLanded r
        match status with
        | .ok => s
        | .poison => ((s.count PCE_POISON_RX_COUNT ix0 1).aer t.fn .poisoned).haltRing r haltCplPoison
        | .ecrc => ((s.count PCE_POISON_RX_COUNT ix0 1).aer t.fn .ecrc).haltRing r haltCplPoison
        | .ur | .ca => s.haltRing r haltCplErr

/-- COMPLETION_TIMEOUT (R133): the tag is freed and the ring halts; a read no longer wanted raises no error (R128). -/
def completionTimeout (tag : Fin 512) (s : State) : State :=
  match takeFirst (fun t : TagUse => t.tag = tag.val) s.pce.tags with
  | none => s
  | some (t, rest) =>
    let s := { s with pce := { s.pce with tags := rest } }
    match t.use with
    | .millBlock _ => if t.dead then s else s.aer t.fn .cplTimeout
    | .ring r =>
      let s := s.readLanded r
      if t.dead then s else (s.aer t.fn .cplTimeout).haltRing r haltCplTimeout

/-- PCIE_TAG_GRANT: the oldest read of a function that waits gets a tag and is issued (R127). -/
def pcieTagGrant (f : Fn) (s : State) : State :=
  match takeFirst (fun w : TagWait => w.fn == f) s.pce.waits with
  | none => s
  | some (w, rest) =>
    if s.tagOk f && s.canMaster f then ({ s with pce := { s.pce with waits := rest } }).sendRead f w.use else s

/-- The DMA of a function stops (R128): its outstanding reads are no longer wanted, its waiting reads are not issued,
and with PF1 every ring in RUN halts, with PF0 the mailbox commands being read or answered are abandoned. -/
def State.silence (s : State) (f : Fn) (code : Nat) : State :=
  let s := { s with pce := { s.pce with
    tags := s.pce.tags.map (fun (t : TagUse) => if t.fn == f then { t with dead := true } else t),
    waits := s.pce.waits.filter (fun (w : TagWait) => w.fn != f) } }
  match f with
  | .pf1 => s.rng.rings.foldl (fun s e => s.haltRing e.1 code) s
  | .pf0 => { s with mbx := { s.mbx with slots := s.mbx.slots.map (fun (x : MillSlot) =>
      match x.src with | .mbx _ => { x with abandoned := true } | .smbus _ => x) } }

/-- BME_CLEAR (R128). -/
def bmeClear (f : Fn) (s : State) : State :=
  (s.setFn f { s.fn f with bme := false }).silence f haltBmeLost

/-- BUS_MASTER_ENABLE_SET: the function may send requests again; nothing is resumed by itself, so a halted ring stays
halted, and the Mill may read the command blocks of notices left in mailboxes (R128, R164). -/
def busMasterEnableSet (f : Fn) (s : State) : State := s.setFn f { s.fn f with bme := true }

/-! ## Function resets and power states, R129 to R132 -/

/-- A waiting read that a function made. -/
def WaitAcc.ofFn (f : Fn) : WaitAcc → Bool
  | .read req _ _ => match f with | .pf0 => req == .pf0 | .pf1 => req == .pf1
  | .tlp t => t.fn == f

/-- What an FLR resets of a function besides its DMA (R130): its configuration space but for the sticky AER fields, its
MSI-X, and what waits for it. PCE_CNT_WIN and PCE_HWM_BASE stay. INTx is not asserted again by this: it follows the next
change of an interrupt (R126; DESIGN CHOICE, log entry 95). -/
def State.resetFn (s : State) (f : Fn) : State :=
  let x := s.fn f
  let s := if x.intx then s.emit (.intx f false) else s
  let s := s.setFn f { FnSt.init f with d3 := x.d3, flr := x.flr, aer := x.aer }
  let s := { s with acc := { s.acc with waits := s.acc.waits.filter fun w => !w.ofFn f } }
  match f with
  | .pf1 => s
  | .pf0 =>
    let s := (s.wr .mbxIntStatus ix0 0).wr .mbxIntEnable ix0 0
    let s := { s with mbx := { s.mbx with pairs := s.mbx.pairs.map (fun (e : Nat × MbxPair) =>
      (e.1, { e.2 with collision := false, timeout := false })) } }
    let s := (List.range 16).foldl (fun s n =>
      (s.wr .pceWin (ixI n) 0).set PCE_WIN_GEN_GEN (ixI n) (s.fld PCE_WIN_GEN_GEN (ixI n) + 1)) s
    s.autoRelease .pf0

/-- FLR: the function's DMA stops first, so that nothing of what follows is sent (R128), and requests to it are answered
UR with reason 0x8 until it completes (R129, R130). -/
def flr (f : Fn) (s : State) : State :=
  let s := ((s.setFn f { s.fn f with flr := true }).silence f haltFlr).resetFn f
  s.setFn f { s.fn f with d3 := false }

/-- FLR_COMPLETE (R129). -/
def flrComplete (f : Fn) (s : State) : State := s.setFn f { s.fn f with flr := false }

/-- D3HOT_ENTRY (R128, R131). -/
def d3hotEntry (f : Fn) (s : State) : State :=
  ((s.setFn f { s.fn f with d3 := true }).silence f haltD3).settleIntx f

/-- D0_TRANSITION: from D3hot the function is reset as its FLR resets it (R131). -/
def d0Transition (f : Fn) (s : State) : State :=
  if (s.fn f).d3 then
    let s := (s.silence f haltFlr).resetFn f
    s.setFn f { s.fn f with d3 := false }
  else s

/-- The registers that a reset of the host-facing state takes back to their Reset values: blocks PCE, RNG, MBX and
SEM, and GEN's interrupt and offline-access registers (R86). -/
def hostReg (r : RegRef) : Bool :=
  match r.reg with
  | .genIntStatus | .genIntEnable | .genOfflineAcc => true
  | g => match g.info.block with
    | .pce | .rng | .mbx | .sem => true
    | _ => false

/-- The register file without the registers that satisfy p: those read their Reset values again (R18). -/
def dropRegs (p : RegRef → Bool) (regs : List RegCell) : List RegCell :=
  regs.filter fun c => match findStored c.1 with | some r => !p r | none => true

/-- The host-facing state of HP is reset (R86): every ring DISABLED (R146), every mailbox empty (R164), every lock
released (R172), both functions reset (R132) but for their sticky AER fields, the half accesses of the host's functions
gone, the endpoint's log and link status at their Reset values. Reams on a commit ring are handled as R87 and R348 give.
Packets for the host stay queued until their ring refuses them. -/
def State.resetHost (s : State) : State :=
  let s := s.rng.rings.foldl (fun s e => if isCommit e.1 && e.2.state == .run then s.commitLost e.1 else s) s
  let s := if s.pf0.intx then s.emit (.intx .pf0 false) else s
  let s := if s.pf1.intx then s.emit (.intx .pf1 false) else s
  let mine := fun (p : Nat) => match findStored p with | some r => hostReg r | none => false
  let host := fun (r : Req) => r == .pf0 || r == .pf1
  { s with
    regs := dropRegs hostReg s.regs
    acc := { s.acc with
      rwPend := s.acc.rwPend.filter fun p => !mine p.addr
      lows := s.acc.lows.filter fun h => !host h.req
      highs := s.acc.highs.filter fun h => !host h.req
      nsCapt := s.acc.nsCapt.filter fun e => !host e.1
      waits := s.acc.waits.filter fun w => !w.ofFn .pf0 && !w.ofFn .pf1 }
    gen := { s.gen with sampled := false }
    pf0 := { FnSt.init .pf0 with aer := s.pf0.aer }
    pf1 := { FnSt.init .pf1 with aer := s.pf1.aer }
    pce := PceSt.init
    rng := RingsSt.init
    mbx := { pairs := [], slots := s.mbx.slots.map (fun (x : MillSlot) =>
      match x.src with | .mbx _ => { x with abandoned := true } | .smbus _ => x) }
    sem := [] }

/-- The link trains to a rate and width; LTSSM's number is the specification's, which the manual leaves to it. -/
def State.linkUp (s : State) (rate width : BitVec 4) (flit : Bool) : State :=
  let p := s.pce
  let s' := { s with pce := { p with rate := rate.toNat % 8, width := width.toNat, flit := flit,
                                     ltssm := s.free.toNat % 256 } }
  let s' := s'.used
  if p.rate = rate.toNat % 8 && p.width = width.toNat then s' else s'.raise PCE_INT_STATUS_LINK_CHG

/-- PERST_ASSERT: PERST_N low resets the host-facing state, in a fundamental reset the sticky fields too; the datapath
forwards headless (R86, R87, R132). -/
def perstAssert (s : State) : State :=
  let s := s.resetHost
  { s with pf0 := FnSt.init .pf0, pf1 := FnSt.init .pf1
           gen := { s.gen with perst := true, perstReset := s.gen.perstReset || !s.gen.perst } }

/-- PERST_DEASSERT: the endpoint leaves fundamental reset, the link trains and configuration space answers (R83); a
reset that PERST_N was is now over and its cause is set (R104). The first release after power-good ends no such reset,
as the worked example of spec/03_startup_reset.md shows. -/
def perstDeassert (rate width : BitVec 4) (flit : Bool) (s : State) : State :=
  let was := s.gen.perstReset
  let s := { s with gen := { s.gen with perst := false, perstReset := false } }
  let s := s.linkUp rate width flit
  if was then s.set GEN_RESET_CAUSE_HOST_RESET ix0 1 else s

/-- HOT_RESET: both functions reset with the scope of R86; the link then trains again (R132). While PERST_N is low the
endpoint is in fundamental reset and hears no hot reset (spec/02_module.md R68). -/
def hotReset (rate width : BitVec 4) (flit : Bool) (s : State) : State :=
  if s.gen.perst || !s.domUp domHP then s
  else (s.resetHost.set GEN_RESET_CAUSE_HOST_RESET ix0 1).linkUp rate width flit

/-- DL_DOWN: both functions reset with the scope of R86, and the cause is set (R132, R135). RATE and WIDTH are 0 then,
as after the other resets, and DL_DOWN alone tells it (DESIGN CHOICE, log entry 96). -/
def dlDown (s : State) : State := s.resetHost.raise PCE_INT_STATUS_DL_DOWN

/-- The widest width that the working lanes allow: lanes 0 up, or with the lanes reversed, lane 7 down. -/
def widestWidth (working : Nat) (limit : Nat) : Nat :=
  let low := fun w => (List.range w).all (fun i => bitAt working i)
  let high := fun w => (List.range w).all (fun i => bitAt working (7 - i))
  ([8, 4, 2, 1].find? (fun w => w ≤ limit && (low w || high w))).getD 0

/-- PCIE_LANE_FAIL: the link retrains to the widest width its working lanes allow (R106); with none it is down. -/
def pcieLaneFail (working : BitVec 8) (s : State) : State :=
  if s.pce.width = 0 then s
  else
    let p := s.pce
    let w := widestWidth working.toNat p.width
    let s := { s with pce := { p with width := w, rate := if w = 0 then 0 else p.rate,
                                      retrains := satAdd 8 p.retrains 1 } }
    if w = p.width then s else s.raise PCE_INT_STATUS_LINK_CHG

/-- PCE_LINK_STATUS as read (R134). -/
def PceSt.status (p : PceSt) : Nat :=
  p.rate + p.width * 8 + ofBool p.flit * 2 ^ 7 + p.ltssm * 2 ^ 8 + p.retrains * 2 ^ 16

/-- PCE_WIN written (R120 to R122): discarded when it opens a window that does not lie in the partition of `partMib`
MiB; otherwise in force at once, and GEN increments. A SIZE above the 4,096 of its description is taken where the window
lies in the partition: R122 names no discard for it (DESIGN CHOICE, log entry 97). -/
def State.writeWin (s : State) (partMib : Nat) (n : Nat) (v : W64) : State :=
  let w := v &&& classMask .pceWin .rw
  if PCE_WIN_OPEN.get w = 1 && (PCE_WIN_SIZE.get w = 0 || partMib < PCE_WIN_BASE.get w + PCE_WIN_SIZE.get w) then
    s.raise PCE_INT_STATUS_WIN_CFG_VIOL
  else (s.wr .pceWin (ixI n) w).set PCE_WIN_GEN_GEN (ixI n) (s.fld PCE_WIN_GEN_GEN (ixI n) + 1)

/-! ## Registers of a domain, spec/00_scope.md R18 -/

/-- A register that is held in a domain. GEN's registers in HP are those of R86, and `resetHost` resets them. -/
def heldIn (d : Nat) (r : RegRef) : Bool :=
  if d = domHP then hostReg r else regDomain r.reg r.ix.inst == d

/-- Whether an address names a register of a domain. -/
def addrIn (d a : Nat) : Bool :=
  match findStored a with
  | some r => heldIn d r
  | none => false

/-- A half access to a register of a domain. PF1's offsets are of its own view (spec/04_host_pcie.md R112), which no
register of the map lies in. -/
def halfIn (d : Nat) (h : Half) : Bool := h.req != .pf1 && addrIn d h.off

/-- The writes under way to a domain are gone: RW writes not yet taken, shadow copies, applications (R88, R92). -/
def State.dropWrites (s : State) (d : Nat) : State :=
  { s with
    shadow := s.shadow.filter fun c => !addrIn d c.1
    acc := { s.acc with
      rwPend := s.acc.rwPend.filter fun p => !addrIn d p.addr
      applies := s.acc.applies.filter fun a => blockDomain a.block a.inst != d
      highs := s.acc.highs.filter fun h => !halfIn d h
      lows := s.acc.lows.filter fun h => !halfIn d h } }

/-- Every register of a domain reads its Reset value again (R18). -/
def State.clearRegs (s : State) (d : Nat) : State :=
  { s.dropWrites d with regs := dropRegs (heldIn d) s.regs }

/-- The registers of a domain after a warm QX restart: fields of class RW, RWS and RWX keep their values, and STOPPED
follows its run control; every other field takes its Reset value (R92). -/
def State.warmRegs (s : State) (d : Nat) : State :=
  let keep := fun (c : RegCell) =>
    match findStored c.1 with
    | none => some c
    | some ⟨r, ix⟩ =>
      if !heldIn d ⟨r, ix⟩ then some c
      else
        let m := classMask r .rw ||| classMask r .rws ||| classMask r .rwx
          ||| (if r = .qscCtrl then QSC_CTRL_STOPPED.mask else 0)
        let v := blend (regReset r ix) c.2 m
        if v = regReset r ix then none else some (c.1, v)
  { s.dropWrites d with regs := s.regs.filterMap keep }

end Sys2Proof.Machine
end

