-- ==== Sys2Proof/Machine/Mill.lean ====
section
/-!
DEFINITION. Machine/Mill.lean: the Mill's restarts, sensors, log, firmware slots, SMBus, notices and the commands that
touch only the Mill itself (spec/19_mill.md).
-/
namespace Sys2Proof.Machine

open Fld

/-! ## Restarts, R570, R571 -/

/-- The Mill's state, changed. -/
def State.mill (s : State) (f : MilSt → MilSt) : State := { s with mil := f s.mil }

/-- The image slots by number. -/
def FlashSt.slot (f : FlashSt) (b : Bool) : ImageSlot := if b then f.slotB else f.slotA
def FlashSt.setSlot (f : FlashSt) (b : Bool) (x : ImageSlot) : FlashSt := if b then { f with slotB := x } else { f with slotA := x }

/-- The debug port locks, and its locks are released (R595, R172). -/
def State.lockDebug (s : State) : State :=
  (s.mill fun m => { m with debug := false, debugLeft := 0 }).autoRelease .dbg

/-- A Mill restart begins: the datapath is untouched; ML's registers are reset and READY of ML is 0
(spec/03_startup_reset.md R85, R102); the Mill's locks and the debug port's are released, the debug port is locked,
commands taken and not yet answered are answered INTERNAL once it answers again, an image being written stays invalid
(R570, R571, R588, R595). -/
def State.millRestart (s : State) : State :=
  let s := s.clearRegs domML
  let s := { s with
    gen := { s.gen with ready := s.gen.ready &&& ~~~0x08000000 }
    acc := { s.acc with waits := s.acc.waits.filter fun w => match w with | .read .mill _ _ => false | _ => true } }
  let s := s.mill fun m => { m with ready := false, restarts := satAdd 16 m.restarts 1, fwSlot := none, fwSize := 0 }
  let s := if s.mil.flash.trial then s.mill fun m => { m with trialTimes := s.now :: m.trialTimes } else s
  let s := { s with mbx := { s.mbx with slots := s.mbx.slots.map (fun (x : MillSlot) =>
    { x with done := true, status := 7, detail := 0, resp := [] }) } }
  let s := s.raise MIL_INT_STATUS_MILL_RESTART
  (s.autoRelease .mill).lockDebug

/-- LOCKSTEP_MISMATCH (R570): PRT_HEALTH.LOCKSTEP is set, and the restart logged. -/
def lockstepMismatch (pc0 pc1 : W64) (s : State) : State :=
  let s := s.mill fun m => { m with lockstep := satAdd 16 m.lockstep 1 }
  let s := s.healthTo PRT_HEALTH_LOCKSTEP 0 true
  (s.stageLog 5 0 pc0.toNat pc1.toNat).millRestart

/-- SRAM_UNCORRECTABLE (R570). -/
def sramUncorrectable (addr : W64) (s : State) : State :=
  let s := s.healthTo PRT_HEALTH_LOCKSTEP 0 true
  (s.stageLog 0xB 0 addr.toNat 0).millRestart

/-- MILL_WATCHDOG (R570). An image on trial that has not answered since its start has failed to serve the watchdog
(R590). -/
def millWatchdog (pc0 pc1 : W64) (s : State) : State :=
  let s := s.mill fun m => { m with watchdog := satAdd 16 m.watchdog 1,
                                    trialFailed := m.trialFailed || (m.flash.trial && !m.ready) }
  let s := s.healthTo PRT_HEALTH_LOCKSTEP 0 true
  (s.stageLog 0xC 0 pc0.toNat pc1.toNat).millRestart

/-- ARG0 of a FIRMWARE log entry (R580). -/
def fwArg (slot : Bool) (version action : Nat) : Nat := ofBool slot + version * 2 ^ 8 + action * 2 ^ 40

/-- FW_FALLBACK: the boot ROM returns to the previous slot when the image on trial failed to serve the watchdog, or
restarted three times within 60 s (R590). -/
def State.fwFallback (s : State) : State :=
  let recent := (s.mil.trialTimes.filter (fun t => s.now ≤ t + 300000000000)).length
  if s.mil.flash.trial && (s.mil.trialFailed || 3 ≤ recent) then
    let back := !s.mil.running
    let s := s.mill fun m => { m with running := back, fallback := true, trialTimes := [], trialFailed := false,
                                      activating := false, flash := { m.flash with bootPref := back, trial := false } }
    let s := s.stageLog 6 0 (fwArg back (s.mil.flash.slot back).version 4) 0
    (s.alertClass 6).raise MIL_INT_STATUS_FW_FALLBACK
  else s

/-- MILL_RESTART_DONE: the Mill answers again and ML_RESTART is set (R104, R571); after an activation FW_ACTIVATED is
set and a notice with TAG 0x03 waits (R589). -/
def millRestartDone (s : State) : State :=
  if s.mil.ready || s.mil.bootRom || !s.domUp domML then s
  else
    let s := s.fwFallback
    let act := s.mil.activating
    let s := s.mill fun m => { m with ready := true, activating := false }
    let s := s.set GEN_RESET_CAUSE_ML_RESTART ix0 1
    let s := { s with gen := { s.gen with ready := s.gen.ready ||| 0x08000000, image := s.mil.running } }
    if act then ((s.alertClass 6).queueNotice 3).raise MIL_INT_STATUS_FW_ACTIVATED else s

/-! ## Sensors, R53, R577 -/

/-- The warning and critical thresholds of a temperature point, in 1/16 °C (R53, R577). -/
def tempLimits (p : Nat) : Int × Int :=
  if p = 127 then (65 * 16, 70 * 16) else if 88 ≤ p && p < 124 then (85 * 16, 95 * 16) else (95 * 16, 105 * 16)

/-- The trip threshold of a point: 115 °C for a die point, 105 °C for a DRAM point, none for the lid (R53). -/
def tripLimit (p : Nat) : Option Int :=
  if p = 127 then none else if 88 ≤ p && p < 124 then some (105 * 16) else some (115 * 16)

/-- How many points a kind has (R577). -/
def kindPoints : SensorKind → Nat
  | .temperature => 128
  | .voltage => 64
  | .current => 24

/-- Where the points of a kind begin in the Mill's table. -/
def kindBase : SensorKind → Nat
  | .temperature => 0
  | .voltage => 128
  | .current => 192

def SensorPt.init : SensorPt := { value := 0, state := 0, badRun := 0, warned := false, crit := false }

/-- A point as last sampled. -/
def State.point (s : State) (k : SensorKind) (p : Nat) : SensorPt := tblGet SensorPt.init s.mil.sensors (kindBase k + p)
def State.setPoint (s : State) (k : SensorKind) (p : Nat) (x : SensorPt) : State :=
  s.mill fun m => { m with sensors := tblPut (kindBase k + p) x m.sensors }

/-- A signed 16-bit value as it is sent. -/
def i16 (v : Int) : Nat := (v % 65536).toNat

/-- ARG0 of a THERMAL log entry (R580). -/
def thermalArg (p : Nat) (v : Int) (level : Nat) : Nat := p + i16 v * 2 ^ 16 + level * 2 ^ 32

/-- A temperature sample (R53, R577): a warning or critical event at each upward crossing, again only after a fall of
5 K below the threshold. -/
def State.sampleTemp (s : State) (p : Nat) (v : Int) : State :=
  let x := s.point .temperature p
  let (w, c) := tempLimits p
  let st := if c ≤ v then 2 else if w ≤ v then 1 else 0
  let warned := if w ≤ v then true else if v ≤ w - 80 then false else x.warned
  let crit := if c ≤ v then true else if v ≤ c - 80 then false else x.crit
  let s := s.setPoint .temperature p { value := v, state := st, badRun := 0, warned := warned, crit := crit }
  let s := s.mill fun m => { m with tempMax := max m.tempMax v }
  let s := if warned && !x.warned then
      ((s.stageLog 4 0 (thermalArg p v 1) 0).alertClass 0).raiseAt GEN_INT_STATUS_THERMAL_WARN 0 0 p (i16 v) else s
  if crit && !x.crit then
    ((s.stageLog 4 0 (thermalArg p v 2) 0).alertClass 1).raiseAt GEN_INT_STATUS_THERMAL_CRIT 0 0 p (i16 v) else s

/-- One reading (R577). A point out of its physical range ten times in a row is failed. -/
def State.sample (s : State) (r : Reading) : State :=
  let p := r.point.val
  if kindPoints r.kind ≤ p then s
  else
    let x := s.point r.kind p
    match r.value with
    | none =>
      let n := x.badRun + 1
      let s := s.setPoint r.kind p { x with badRun := n, state := if 10 ≤ n then 3 else x.state }
      if 10 ≤ n && x.state != 3 then (s.mill fun m => { m with sensorFail := true }).raise MIL_INT_STATUS_SENSOR_FAIL else s
    | some v =>
      match r.kind with
      | .temperature => s.sampleTemp p v
      | .voltage | .current =>
        let out := if r.kind = .voltage && p = 0 then (v < 44000 || 58000 < v) else r.outside
        let s := s.setPoint r.kind p { x with value := v, badRun := 0, state := ofBool out }
        if out && x.state != 1 then s.alertClass 2 else s

/-- SENSOR_SAMPLE: paused while the Mill restarts (R571, R577). -/
def sensorSample (rs : List Reading) (s : State) : State :=
  if s.mil.ready then rs.foldl (fun s r => s.sample r) s else s

/-! ## The event log, R579 to R583 -/

/-- A log entry's 64 bytes (R579). -/
def logEntryBytes (seq : Nat) (e : LogEntry) : List Byte :=
  let body := leBytes 6 seq ++ leBytes 1 e.kind ++ leBytes 1 (ofBool e.locked + ofBool e.holdUp * 2)
    ++ leBytes 2 e.frac ++ leBytes 4 e.ns ++ leBytes 6 e.sec
    ++ leBytes 8 e.source ++ leBytes 8 e.arg0 ++ leBytes 8 e.arg1 ++ leBytes 1 e.phase ++ zeros 15
  body ++ leBytes 4 (crc32c 0xFFFFFFFF body)

/-- An entry programmed into flash; when the log is full it replaces the oldest (R581). -/
def State.flashEntry (s : State) (e : LogEntry) : State :=
  s.mill fun m =>
    let l := m.flash.log ++ [(m.flash.nextSeq, e)]
    { m with flash := { m.flash with log := if 262144 < l.length then l.drop 1 else l, nextSeq := m.flash.nextSeq + 1 } }

/-- LOG_FLASH_WRITE: the oldest staged entry is written; beyond 1,000 in a second of the counter it is not, and the
count of such entries goes into a SUPPRESSED entry before the next one written (R581). -/
def logFlashWrite (s : State) : State :=
  if !s.mil.ready then s
  else
    match s.mil.staged with
    | [] => s
    | e :: rest =>
      let n := if s.mil.writtenIn = s.tim.sec then s.mil.writtenSec else 0
      let s := s.mill fun m => { m with staged := rest, writtenIn := s.tim.sec, writtenSec := n }
      if 1000 ≤ n + ofBool (s.mil.suppressed != 0) then
        s.mill fun m => { m with suppressed := m.suppressed + 1,
                                 supFirst := if m.suppressed = 0 then m.flash.nextSeq else m.supFirst }
      else
        let k := s.mil.suppressed
        let s := if k = 0 then s
          else
            let s := s.flashEntry (s.mkEntry 0xA 0 k s.mil.supFirst)
            (s.mill fun m => { m with suppressed := 0, writtenSec := m.writtenSec + 1 }).raise MIL_INT_STATUS_LOG_SUPPRESSED
        (s.flashEntry e).mill fun m => { m with writtenSec := m.writtenSec + 1 }

/-! ## Commands, R573 to R575 -/

/-- What the Mill answers. -/
structure Answer where
  status : Nat
  detail : Nat
  resp : List Byte
  deriving DecidableEq, Repr

def Answer.ok (resp : List Byte) : Answer := ⟨rcOk, 0, resp⟩
/-- DENIED with its DETAIL: 1 the master, 2 the phase, 3 the state of the module (R573). -/
def Answer.denied (why : Nat) : Answer := ⟨rcDenied, why, []⟩
/-- A field out of its range: DETAIL is the offset of the field (R573). -/
def Answer.bad (off : Nat) : Answer := ⟨rcBadLength, off, []⟩

/-- n little-endian bytes of a command block at an offset. -/
def blkField (block : List Byte) (off n : Nat) : Nat := leNat (bytesAt block off n)

/-- The commands that SMBus may send (R574); TAG_WP only to set protection, which its own rows judge. -/
def smbusMay (op : Nat) : Bool := [0x0001, 0x0010, 0x0011, 0x0020, 0x0030, 0x0060, 0x0061, 0x0062].contains op

/-- The commands that the boot ROM accepts (R574). -/
def bootMay (op : Nat) : Bool := [0x0001, 0x0080, 0x0081, 0x0082].contains op

/-- Whether a source is SMBus. -/
def isSmbus : MillSrc → Bool
  | .smbus _ => true
  | .mbx _ => false

/-- A command's own judgement: what it answers and what it does. -/
abbrev Act := List Byte → State → Answer × State

/-- A command that the Mill runs: the oldest unanswered command of a source with this opcode, whose request satisfies
`mine`. It is refused to masters and phases that may not send it (R574), answered BAD_LENGTH when LENGTH does not
cover `need` bytes after the header (R161), and otherwise acts. -/
def State.runCmd (s : State) (src : MillSrc) (op : Nat) (mine : List Byte → Bool) (need : Nat) (act : Act) : State :=
  match takeFirst (fun x : MillSlot => x.src == src && !x.done && !x.abandoned && blockOpcode x.block = op && mine x.block)
      s.mbx.slots with
  | none => s
  | some (x, _) =>
    if !s.millServes then s
    else
      let (a, s') :=
        if !s.mil.ready && !bootMay op then (Answer.denied 2, s)
        else if isSmbus src && !smbusMay op then (Answer.denied 1, s)
        else if blockLength x.block < 16 + need then (Answer.bad 0, s)
        else act x.block s
      let y := { x with done := true, status := BitVec.ofNat 8 a.status, detail := BitVec.ofNat 24 a.detail, resp := a.resp }
      { s' with mbx := { s'.mbx with slots := modFirst (fun z => z == x) (fun _ => y) s'.mbx.slots } }

/-- Every request of an opcode. -/
def anyReq (_ : List Byte) : Bool := true

/-- IDENTITY's response (R575). USABLE_GIB is the usable capacity of spec/13_memory.md R394 (log entry 107). -/
def State.identityResp (s : State) : List Byte :=
  let f := s.mil.flash
  leBytes 8 (regReset .genIdOrder (ixI 0)).toNat ++ leBytes 8 (regReset .genIdOrder (ixI 1)).toNat
  ++ leBytes 1 0xA1 ++ leBytes 1 0xB0 ++ leBytes 1 0xB0 ++ zeros 1 ++ leBytes 1 s.gen.slotId.toNat ++ zeros 3
  ++ leBytes 8 Config.serial.toNat ++ leBytes 4 f.slotA.version ++ leBytes 4 f.slotB.version
  ++ leBytes 4 Config.bootRomVersion.toNat ++ leBytes 1 f.rollback ++ leBytes 1 (ofBool s.mil.running)
  ++ leBytes 1 (ofBool f.slotA.valid + ofBool f.slotB.valid * 2) ++ zeros 1
  ++ leBytes 2 s.usableGib ++ zeros 6 ++ leBytes 8 Config.mfgDate.toNat

/-- IDENTITY. -/
def identity (src : MillSrc) (s : State) : State :=
  s.runCmd src 0x0001 anyReq 0x40 fun _ s => (.ok s.identityResp, s)

/-- A sensor word (R577). -/
def sensorWord (x : SensorPt) : List Byte := leBytes 4 (i16 x.value + x.state * 2 ^ 16)

/-- SENSORS (R575, R577). -/
def sensors (src : MillSrc) (s : State) : State :=
  s.runCmd src 0x0010 anyReq 3 fun b s =>
    let kind := match blkField b 0x10 1 with
      | 0 => some SensorKind.temperature | 1 => some .voltage | 2 => some .current | _ => none
    match kind with
    | none => (.bad 0x10, s)
    | some k =>
      let first := blkField b 0x11 1
      let n := blkField b 0x12 1
      if kindPoints k ≤ first then (.bad 0x11, s)
      else if n = 0 || kindPoints k < first + n then (.bad 0x12, s)
      else if blockLength b < 0x18 + 4 * n then (.bad 0, s)
      else
        (.ok (leBytes 4 s.tim.sec ++ leBytes 4 s.tim.ns
          ++ (List.range n).flatMap fun i => sensorWord (s.point k (first + i))), s)

/-- MASK and PENDING as ALERT returns them. -/
def State.alertResp (s : State) : List Byte := leBytes 2 s.mil.flash.alertMask ++ leBytes 2 s.mil.pendingAlerts

/-- ALERT_READ: OP 0; an OP out of range is answered here (R573, R578). -/
def alertRead (src : MillSrc) (s : State) : State :=
  s.runCmd src 0x0011 (fun b => blkField b 0x12 1 != 1 && blkField b 0x12 1 != 2) 4 fun b s =>
    if blkField b 0x12 1 = 0 then (.ok s.alertResp, s) else (.bad 0x12, s)

/-- ALERT_WRITE: OP 1 writes MASK. -/
def alertWrite (src : MillSrc) (s : State) : State :=
  s.runCmd src 0x0011 (fun b => blkField b 0x12 1 = 1) 4 fun b s =>
    let was := s.alertLow
    let s := (s.mill fun m => { m with flash := { m.flash with alertMask := blkField b 0x10 2 } }).settleAlert was
    (.ok s.alertResp, s)

/-- Pending classes cleared (R578). -/
def State.clearAlerts (s : State) : State :=
  (s.mill fun m => { m with pendingAlerts := 0 }).settleAlert s.alertLow

/-- ALERT_ACK: OP 2 clears the pending classes. -/
def alertAck (src : MillSrc) (s : State) : State :=
  s.runCmd src 0x0011 (fun b => blkField b 0x12 1 = 2) 4 fun _ s =>
    let s := s.clearAlerts
    (.ok s.alertResp, s)

/-- The module's SMBus address (spec/02_module.md R69). -/
def State.smbAddr (s : State) : Nat := 0x60 ||| (s.gen.slotId.toNat % 16)

/-- LOG_READ's entries: from START to NEWEST, as many as asked for and as fit (R583). -/
def State.logResp (s : State) (start count fit : Nat) : Answer :=
  let l := s.mil.flash.log
  let oldest := match l with | e :: _ => e.1 | [] => 0
  let newest := s.mil.flash.nextSeq - 1
  let from_ := if start = 2 ^ 48 - 1 then oldest else max start oldest
  let early := start != 2 ^ 48 - 1 && start < oldest
  let es := ((l.filter (fun e => from_ ≤ e.1)).take count).take fit
  ⟨rcOk, ofBool early, leBytes 6 oldest ++ zeros 2 ++ leBytes 6 newest ++ leBytes 2 es.length
    ++ es.flatMap fun e => logEntryBytes e.1 e.2⟩

/-- LOG_READ (R575, R583). -/
def logRead (src : MillSrc) (s : State) : State :=
  s.runCmd src 0x0020 anyReq 0x10 fun b s =>
    (s.logResp (blkField b 0x10 6) (blkField b 0x16 2) ((blockLength b - 0x20) / 64), s)

/-! ## The user tag area, R584, R585 -/

/-- TAG_READ. -/
def tagRead (src : MillSrc) (s : State) : State :=
  s.runCmd src 0x0060 anyReq 4 fun b s =>
    let off := blkField b 0x10 2
    let n := blkField b 0x12 2
    if 1024 ≤ off then (.bad 0x10, s)
    else if n = 0 || 1024 < off + n then (.bad 0x12, s)
    else if blockLength b < 0x10 + n then (.bad 0, s)
    else (.ok ((List.range n).map fun i => tblGet 0 s.mil.flash.tag (off + i)), s)

/-- Bytes written into the tag area. -/
def writeTag (m : List (Nat × Byte)) (off : Nat) : List Byte → List (Nat × Byte)
  | [] => m
  | b :: bs => writeTag (tblPut off b m) (off + 1) bs

/-- TAG_WRITE: a whole new copy, or DENIED under write protection from SMBus or once the area is worn (R584, R585). -/
def tagWrite (src : MillSrc) (s : State) : State :=
  s.runCmd src 0x0061 anyReq 8 fun b s =>
    let off := blkField b 0x10 2
    let n := blkField b 0x12 2
    if 1024 ≤ off then (.bad 0x10, s)
    else if n = 0 || 1024 < off + n then (.bad 0x12, s)
    else if blockLength b < 0x18 + n then (.bad 0, s)
    else if isSmbus src && s.mil.flash.tagWp then (.denied 3, s)
    else if 100000 ≤ s.mil.flash.tagWrites then (.denied 3, s.raise MIL_INT_STATUS_TAG_WORN)
    else
      let s := s.mill fun m => { m with flash := { m.flash with
        tag := writeTag m.flash.tag off (bytesAt b 0x18 n), tagWrites := m.flash.tagWrites + 1 } }
      let k := s.mil.flash.tagWrites
      let s := s.stageLog 9 0 (ofBool (isSmbus src) + off * 2 ^ 16 + n * 2 ^ 32) k
      (.ok (leBytes 4 k), if k = 100000 then s.raise MIL_INT_STATUS_TAG_WORN else s)

/-- TAG_WP_READ: OP 0, from PF0; an OP out of range is answered here. SMBus may only set protection (R574). -/
def tagWpRead (src : MillSrc) (s : State) : State :=
  s.runCmd src 0x0062 (fun b => blkField b 0x10 1 != 1 && blkField b 0x10 1 != 2) 1 fun b s =>
    if isSmbus src then (.denied 1, s)
    else if blkField b 0x10 1 = 0 then (.ok (leBytes 1 (ofBool s.mil.flash.tagWp)), s) else (.bad 0x10, s)

/-- The write protection, set or cleared. -/
def State.setTagWp (s : State) (x : Bool) : State := s.mill fun m => { m with flash := { m.flash with tagWp := x } }

/-- TAG_WP_SET: OP 1, from either master. -/
def tagWpSet (src : MillSrc) (s : State) : State :=
  s.runCmd src 0x0062 (fun b => blkField b 0x10 1 = 1) 1 fun _ s => (.ok (leBytes 1 1), s.setTagWp true)

/-- TAG_WP_CLEAR: OP 2, from PF0 only. -/
def tagWpClear (src : MillSrc) (s : State) : State :=
  s.runCmd src 0x0062 (fun b => blkField b 0x10 1 = 2) 1 fun _ s =>
    if isSmbus src then (.denied 1, s) else (.ok (leBytes 1 0), s.setTagWp false)

/-- GET_FILE: bytes of a data file; a file the flash does not hold is a FILE out of range (R573, R575). -/
def getFile (src : MillSrc) (file : Option (List Byte)) (s : State) : State :=
  s.runCmd src 0x0070 anyReq 0x0C fun b s =>
    let off := blkField b 0x14 4
    let n := blkField b 0x18 4
    match file with
    | none => (.bad 0x10, s)
    | some f =>
      if f.length < off then (.bad 0x14, s)
      else if blockLength b < 0x18 + n then (.bad 0x18, s)
      else (.ok (leBytes 4 f.length ++ zeros 4 ++ (f.drop off).take n), s)

/-! ## Firmware, R586 to R590 -/

/-- 64 MiB. -/
def slotBytes : Nat := 64 * 1024 * 1024

/-- The byte of an image at an offset: the newest write that covers it, 0xFF where none does (erased flash). -/
def imageByte (chunks : List (Nat × List Byte)) (i : Nat) : Byte :=
  match chunks.find? (fun c => c.1 ≤ i && i < c.1 + c.2.length) with
  | some c => c.2.getD (i - c.1) 0
  | none => 0xFF

/-- n bytes of an image as a little-endian number. -/
def imageField (x : ImageSlot) (off n : Nat) : Nat := leNat ((List.range n).map fun i => imageByte x.chunks (off + i))

/-- FW_BEGIN: the slot that is not running, or in BOOT_FAIL the slot named, is erased and invalid; DENIED while the
other slot's image is activated and not committed (R587, R588). -/
def fwBegin (src : MillSrc) (s : State) : State :=
  s.runCmd src 0x0080 anyReq 5 fun b s =>
    let size := blkField b 0x10 4
    let named := blkField b 0x14 1
    if slotBytes < size then (.bad 0x10, s)
    else if !s.mil.ready && 1 < named then (.bad 0x14, s)
    else
    let slot := if s.mil.ready then !s.mil.running else named = 1
    if s.mil.flash.trial && s.mil.flash.bootPref != slot then (.denied 3, s)
    else
      let x : ImageSlot := { valid := false, version := 0, svn := 0, size := 0, chunks := [] }
      let s := s.mill fun m => { m with flash := m.flash.setSlot slot x, fwSlot := some slot, fwSize := size }
      (.ok (leBytes 1 (ofBool slot)), s)

/-- FW_DATA: bytes of the image at OFFSET (R587, R588). -/
def fwData (src : MillSrc) (s : State) : State :=
  s.runCmd src 0x0081 anyReq 8 fun b s =>
    let off := blkField b 0x10 4
    let n := blkField b 0x14 4
    match s.mil.fwSlot with
    | none => (.denied 3, s)
    | some slot =>
      if off % 8 != 0 then (.bad 0x10, s)
      else if n % 8 != 0 || s.mil.fwSize < off + n || slotBytes < off + n then (.bad 0x14, s)
      else if blockLength b < 0x18 + n then (.bad 0, s)
      else
        let x := s.mil.flash.slot slot
        let x := { x with valid := false, chunks := (off, bytesAt b 0x18 n) :: x.chunks }
        (.ok [], s.mill fun m => { m with flash := m.flash.setSlot slot x })

/-- "NMVX5120", the MAGIC of an image (R586). -/
def fwMagic : Nat := 0x303231355856_4D4E

/-- FW_VERIFY: MAGIC, HDR_VER, signature, BODY_HASH, SIZE and SVN decide whether the slot is valid (R587). -/
def fwVerify (src : MillSrc) (signatureOk hashOk : Bool) (s : State) : State :=
  s.runCmd src 0x0082 anyReq 5 fun _ s =>
    match s.mil.fwSlot with
    | none => (.denied 3, s)
    | some slot =>
      let x := s.mil.flash.slot slot
      let svn := imageField x 0x10 1
      let version := imageField x 0x0C 4
      let good := imageField x 0 8 = fwMagic && imageField x 8 4 = 1 && signatureOk && hashOk && svn < 64
        && 4096 + imageField x 0x14 4 = s.mil.fwSize && s.mil.flash.rollback ≤ svn
      if good then
        let y := { x with valid := true, version := version, svn := svn, size := s.mil.fwSize }
        let s := s.mill fun m => { m with flash := m.flash.setSlot slot y }
        (.ok (leBytes 4 version ++ leBytes 1 svn), s.stageLog 6 0 (fwArg slot version 1) 0)
      else (.denied 3, s.mill fun m => { m with flash := m.flash.setSlot slot { x with valid := false } })

/-- FW_ACTIVATE: the boot preference goes to the valid slot that is not running, STATUS is written and the Mill
restarts into it, on trial (R589, R590). -/
def fwActivate (src : MillSrc) (s : State) : State :=
  let target := !s.mil.running
  let ok := (s.mil.flash.slot target).valid
  let s1 := s.runCmd src 0x0083 anyReq 1 fun _ s =>
    if ok then
      let s := s.stageLog 6 0 (fwArg target (s.mil.flash.slot target).version 2) 0
      (.ok (leBytes 1 (ofBool target)),
        s.mill fun m => { m with activating := true, flash := { m.flash with bootPref := target, trial := true } })
    else (.denied 3, s)
  if s1.mil.activating && !s.mil.activating then
    let s2 := millAnswer src s1
    ((s2.mill fun m => { m with running := target }).millRestart).mill fun m =>
      { m with trialTimes := [], trialFailed := false }
  else s1

/-- FW_COMMIT: ROLLBACK rises to the running image's SVN, unless the running slot is not the activated one (R590). -/
def fwCommit (src : MillSrc) (s : State) : State :=
  s.runCmd src 0x0084 anyReq 1 fun _ s =>
    let f := s.mil.flash
    if f.trial && f.bootPref = s.mil.running then
      let x := f.slot s.mil.running
      let r := max f.rollback x.svn
      let s := s.mill fun m => { m with flash := { m.flash with rollback := r, trial := false } }
      (.ok (leBytes 1 r), s.stageLog 6 0 (fwArg s.mil.running x.version 3) 0)
    else (.denied 3, s)

/-! ## The debug port, R595 -/

/-- DEBUG_UNLOCK: OP 1, for SECONDS from 1 to 86,400. -/
def debugUnlock (src : MillSrc) (s : State) : State :=
  s.runCmd src 0x0090 (fun b => blkField b 0x10 1 = 1) 8 fun b s =>
    let n := blkField b 0x14 4
    if n = 0 || 86400 < n then (.bad 0x14, s)
    else (.ok (leBytes 4 n), s.mill fun m => { m with debug := true, debugLeft := n })

/-- DEBUG_LOCK: OP 0; an OP out of range is answered here. -/
def debugLock (src : MillSrc) (s : State) : State :=
  s.runCmd src 0x0090 (fun b => blkField b 0x10 1 != 1) 8 fun b s =>
    if blkField b 0x10 1 = 0 then (.ok (leBytes 4 0), s.lockDebug) else (.bad 0x10, s)

/-- DEBUG_EXPIRY: the time granted has run out. -/
def debugExpiry (s : State) : State := if s.mil.debug then s.lockDebug else s

/-! ## Unsolicited notices, R592 -/

/-- The lowest-numbered pair that is enabled and whose M2H is empty. -/
def State.noticePair (s : State) : Option Nat :=
  (List.range 8).find? fun i => bitAt (s.fld MIL_CTRL_NOTE_MASK ix0) i && (s.pair i).m2h.isNone

/-- MILL_NOTICE: the oldest waiting TAG is posted, with pointer 0 and length 0 (R162, R592). Its SEQ is a free value. -/
def millNotice (s : State) : State :=
  match s.mil.notices, s.noticePair with
  | tag :: rest, some i =>
    if s.mil.ready && s.domUp domHP then
      let n : Notice := { ptr := 0, len := 0, tag := BitVec.ofNat 8 tag, seq := BitVec.ofNat 8 s.free.toNat }
      ((s.used).mill fun m => { m with notices := rest }).postM2h i n
    else s
  | _, _ => s

/-! ## SMBus, R593, R594, R613 -/

/-- STATE of an SMBus buffer. -/
def State.smbState (s : State) (b : Bool) : Nat := if b then s.mil.smb1 else s.mil.smb0

/-- Whether the Mill acknowledges its SMBus address: not while it restarts (R69, R571), and throughout BOOT not at all
(spec/03_startup_reset.md R98). -/
def State.smbServes (s : State) : Bool := s.mil.ready && s.gen.phase != .boot

/-- SMBUS_ARA: while it drives ALERT_N the module answers the Alert Response Address with its own, and its pending
classes are cleared (R578). -/
def smbusAra (s : State) : State :=
  if s.smbServes && s.alertLow then (s.emit (.smbData [BitVec.ofNat 8 (2 * s.smbAddr)])).clearAlerts else s

/-- An SMBus error, counted (R594). -/
def State.smbError (s : State) : State := s.count MIL_SMB_ERR_COUNT ix0 1

/-- The buffer that an offset addresses. -/
def smbBuf (off : Nat) : Bool := 0x400 ≤ off

/-- The buffers that a block write of n bytes addresses: the one of its OFFSET, and the second one where it runs on into
it. -/
def smbBufs (off n : Nat) : List Bool :=
  if 0x800 ≤ off then [] else if 0x400 ≤ off then [true] else if 0x400 < off + n then [false, true] else [false]

/-- SMB_BLOCK_WRITE: code 0x01, of up to 253 bytes (R593, R594). The Mill does not acknowledge while it restarts. -/
def smbBlockWrite (off : BitVec 16) (data : List Byte) (pecOk : Bool) (s : State) : State :=
  let o := off.toNat
  let bs := smbBufs o data.length
  if !s.smbServes || 253 < data.length then s
  else if !pecOk then (bs.foldl (fun (t : State) b => t.setSmbState b 3) s).smbError
  else if bs.any (fun b => s.smbState b == 1) then s.smbError
  else
    let s := s.mill fun m => { m with smb := writeSmb m.smb o data }
    let s := bs.foldl (fun (t : State) b => t.setSmbState b 0) s
    if 0x800 < o + data.length then s.smbError else s

/-- EXECUTE: code 0x02 runs the command block in buffer b (R593, R594). -/
def execute (b pecOk : Bool) (s : State) : State :=
  if !s.smbServes then s
  else if !pecOk then (s.setSmbState b 3).smbError
  else if s.smbState b = 1 then s.smbError
  else
    let base := if b then 0x400 else 0
    let block := (List.range 1024).map fun i => tblGet 0 s.mil.smb (base + i)
    let len := blockLength block
    let n : Notice := { ptr := 0, len := BitVec.ofNat 16 len, tag := BitVec.ofNat 8 (blkField block 6 1), seq := 0 }
    if 1024 < len then s.answerSmb b (answered (.smbus b) n block rcBadLength)
    else (s.setSmbState b 1).takeCommand (.smbus b) n true (block.take len) 1024

/-- SMB_STATE_READ: code 0x03. -/
def smbStateRead (s : State) : State :=
  if s.smbServes then s.emit (.smbData [BitVec.ofNat 8 (s.mil.smb0 + s.mil.smb1 * 4)]) else s

/-- SMB_READ_SETUP: code 0x04 sets OFFSET and COUNT, 1 to 255. -/
def smbReadSetup (off count : BitVec 16) (pecOk : Bool) (s : State) : State :=
  if !s.smbServes then s
  else if !pecOk then (if off.toNat < 0x800 then s.setSmbState (smbBuf off.toNat) 3 else s).smbError
  else if count = 0 || 255 < count.toNat then s
  else s.mill fun m => { m with smbOff := off.toNat, smbCount := count.toNat }

/-- SMB_BLOCK_READ: code 0x05 returns COUNT bytes, and OFFSET advances. -/
def smbBlockRead (s : State) : State :=
  if !s.smbServes then s
  else
    let bytes := (List.range s.mil.smbCount).map fun i => tblGet 0 s.mil.smb (s.mil.smbOff + i)
    (s.emit (.smbData bytes)).mill fun m => { m with smbOff := (m.smbOff + m.smbCount) % 65536 }

/-- SMB_CLK_LOW_TIMEOUT: SMB_CLK held low by another master for 25 to 35 ms makes the module release the bus
(spec/21_electrical.md R613). -/
def smbClkLowTimeout (s : State) : State := s.emit .smbRelease

/-- MIL_STATUS as read (R596). -/
def State.milStatus (s : State) : Nat :=
  ofBool s.mil.ready + ofBool s.mil.running * 2 + ofBool (s.mil.bootRom && s.gen.bootFail) * 4 + ofBool s.mil.debug * 8
    + s.mil.flash.rollback * 2 ^ 8 + (s.mil.flash.slot s.mil.running).version * 2 ^ 16 + s.mil.restarts * 2 ^ 48

end Sys2Proof.Machine
end

