-- ==== Sys2Proof/Machine/Gates.lean ====
section
/-!
DEFINITION. Machine/Gates.lean: the time gates of a port (spec/14_scheduling.md R434 to R438).
-/
namespace Sys2Proof.Machine

open Fld

def State.gate (s : State) (p : Nat) : GateSt := tblGet GateSt.init s.gates p
def State.setGate (s : State) (p : Nat) (g : GateSt) : State :=
  { s with gates := if g = GateSt.init then tblDel p s.gates else tblPut p g s.gates }

/-! ## The operating list, R434, R435 -/

/-- A stretch of the operating list: its entry, its gates and its length in ns. -/
structure GateSeg where
  entry : Nat
  gates : Nat
  len : Nat
  deriving DecidableEq, Repr

/-- Entries with an interval fill the cycle; the last of them holds to its end, and the list is cut there (R435). -/
def fillCycle (left : Nat) : List GateSeg → List GateSeg
  | [] => []
  | [x] => [{ x with len := left }]
  | x :: t => if left ≤ x.len then [{ x with len := left }] else x :: fillCycle (left - x.len) t

/-- The operating list of a port as it runs. Where no entry has an interval, the last one holds the whole cycle. -/
def State.gateSegs (s : State) (p : Nat) : List GateSeg :=
  let g := s.gate p
  let all := (List.range g.entries).map fun i =>
    (⟨i, s.fld TGT_OPER_GATES (ixIJ p i), s.fld TGT_OPER_INTERVAL (ixIJ p i)⟩ : GateSeg)
  match all.filter fun x => x.len != 0 with
  | [] => fillCycle g.cycle (all.drop (g.entries - 1))
  | xs => fillCycle g.cycle xs

/-- What is left of a list of stretches from an offset in it, in units of 2^-16 ns. -/
def segsFrom (off : Nat) : List GateSeg → List (GateSeg × Nat)
  | [] => []
  | x :: t =>
    let u := x.len * 65536
    if off < u then (x, u - off) :: t.map fun y => (y, y.len * 65536) else segsFrom (off - u) t

/-- The time for which a class's gate stays open over a sequence of stretches. -/
def openRun (k : Nat) (xs : List (GateSeg × Nat)) : Nat :=
  (xs.takeWhile fun x => bitAt x.1.gates k).foldl (fun a x => a + x.2) 0

/-- The longest of the windows of a class in a cycle (R435, R437), in units of 2^-16 ns. -/
def longestWindow (k : Nat) (xs : List GateSeg) : Nat :=
  let whole := xs.map fun x => (x, x.len * 65536)
  (List.range xs.length).foldl (fun a i => max a (openRun k (whole.drop i ++ whole.take i))) 0

/-- The list's time at a transmission selection now: the counter and LEAD (R435). -/
def State.gateTime (s : State) (p : Nat) : Nat := s.tim.total + s.fld TGT_BASE_NS_LEAD (ixI p) * 65536

/-- The gates of a port hold their state: the counter is away, or the list waits for its next computed cycle start
after the counter was stepped (R438). -/
def State.gatesHeld (s : State) (p : Nat) : Bool :=
  !s.domUp domTM ||
    (match (s.gate p).resume with
     | some r => s.gateTime p < r * 65536
     | none => false)

/-- The rest of the cycle that runs at the list's time, and the cycle after it. -/
def State.gateAhead (s : State) (p : Nat) : List (GateSeg × Nat) :=
  let g := s.gate p
  let xs := s.gateSegs p
  let off := (((s.gateTime p : Int) - (g.base * 65536 : Nat)) % ((g.cycle * 65536 : Nat) : Int)).toNat
  segsFrom off xs ++ xs.map fun x => (x, x.len * 65536)

/-- The gates in force and their entry follow the list (R435, R452). -/
def State.gateSettle (s : State) (p : Nat) : State :=
  if s.gatesHeld p then s
  else
    match s.gateAhead p with
    | [] => s
    | (x, _) :: _ => (s.set TGT_STATUS_GATES (ixI p) x.gates).set TGT_STATUS_ENTRY (ixI p) x.entry

/-! ## Frames and windows, R436, R437 -/

/-- The rate of a port's map in Gb/s (R174). -/
def mapGbps (m : Nat) : Nat := [0, 1600, 800, 800, 400, 400, 200, 200, 200, 100, 100, 100].getD m 0

/-- The rate of a port in units of 64 kb/s: its slice map's, or for an internal port its node's PIR. -/
def State.gateRate (s : State) (p : Nat) : Nat :=
  if p < 256 then mapGbps (s.sliceMap (p / 16)) * 15625 else min 25000000 (SHP_PIR_RATE.get (s.rd .shpPirStore (ixIJ 0 p)))

/-- Whether a window, in units of 2^-16 ns, holds a frame with the guard at a rate (R436). -/
def fits (len guard rate window : Nat) : Bool := (len + guard) * 8 * 1000000 * 65536 ≤ window * rate * 64

/-- A class's gate lets a frame of a length go now (R436). With EN 0, or no rate to check against, there is no fit
check. -/
def State.gateOk (s : State) (p k len : Nat) : Bool :=
  if !s.flag TGT_CTRL_EN (ixI p) then true
  else if !bitAt (s.fld TGT_STATUS_GATES (ixI p)) k then false
  else
    let rate := s.gateRate p
    if rate = 0 || s.gatesHeld p || (s.gateSegs p).all (fun x => bitAt x.gates k) then true
    else fits len (s.fld TGT_BASE_NS_GUARD (ixI p)) rate (openRun k (s.gateAhead p))

/-- A head frame that fits no window of its class (R437). -/
def State.oversize (s : State) (p k len : Nat) : Bool :=
  let xs := s.gateSegs p
  let rate := s.gateRate p
  s.flag TGT_CTRL_EN (ixI p) && rate != 0 && xs.any (fun x => bitAt x.gates k) && !xs.all (fun x => bitAt x.gates k) &&
    !fits len (s.fld TGT_BASE_NS_GUARD (ixI p)) rate (longestWindow k xs)

/-- The egress queues of a port. -/
def State.queuesOf (s : State) (p : Nat) : List Nat :=
  (s.qsc.qs.filter fun e => s.voqEnd ≤ e.1 && s.portOfQueue e.1 == p).map (·.1)

/-- The frames at the head of a queue that fit no window are dropped (R437). -/
def State.dropOversize (s : State) (p q : Nat) : State :=
  let n := ((s.queue q).pkts.takeWhile fun (x : QPkt) => s.oversize p (q % 8) x.bytes.length).length
  if n = 0 then s
  else (s.dropHead q n causeGateClosedOversize).raiseAt TGT_INT_STATUS_OVERSIZE 0 0 (p + 512 * (q % 8)) 0

/-- The same over a port. -/
def State.dropOversizes (s : State) (p : Nat) : State := (s.queuesOf p).foldl (fun s q => s.dropOversize p q) s

/-! ## The commands -/

/-- GATE_EVENT: the gates in force become those of the list's entry (R435). -/
def gateEvent (port : Fin 288) (s : State) : State := if s.domUp domQC then s.gateSettle port.val else s

/-- The earliest instant BASE + N × CYCLE, in ns of the counter, at least 1 µs from now (R438). -/
def State.switchTime (s : State) (base cycle : Nat) : Nat :=
  let t := (s.tim.total + 65535) / 65536 + 1000
  if t ≤ base then base else base + (t - base + cycle - 1) / cycle * cycle

/-- CHANGE: TGT_CTRL written with CHANGE 1. While a switch is pending, a change of the administrative fields is
discarded and CHANGE is ignored; a cycle out of range discards CHANGE (R438). -/
def change (req : Req) (port : Fin 288) (v : W64) (s : State) : State :=
  if !s.domUp domQC then s
  else
    let p := port.val
    let ix := ixI p
    let adm := TGT_CTRL_ADMIN_LEN_M1.mask ||| TGT_CTRL_ADMIN_CYCLE.mask
    let s := s.flushRw .tgt 0
    if (s.gate p).switchAt.isSome then
      let s := if (s.rd .tgtCtrl ix ^^^ v) &&& adm != 0 then s.violation .tgt 0 else s
      s.ownWrite req .tgtCtrl ix v adm
    else
      let s := s.ownWrite req .tgtCtrl ix v 0
      let cycle := s.fld TGT_CTRL_ADMIN_CYCLE ix
      if cycle = 0 || 1000000000 < cycle then s.violation .tgt 0
      else
        let base := s.fld TGT_BASE_SEC_SEC ix * 1000000000 + s.fld TGT_BASE_NS_NS ix
        (s.setGate p { s.gate p with switchAt := some (s.switchTime base cycle) }).set TGT_CTRL_SWITCH_PENDING ix 1

/-- The two lists of a port change places. -/
def State.swapLists (s : State) (p : Nat) : State :=
  (List.range 1024).foldl (fun s i =>
    let a := s.rd .tgtAdmin (ixIJ p i)
    let o := s.rd .tgtOper (ixIJ p i)
    if a = o then s else (s.wr .tgtAdmin (ixIJ p i) o).wr .tgtOper (ixIJ p i) a) s

/-- GATE_LIST_SWITCH: at its instant the administrative list becomes the operating one, from entry 0 (R438); head frames
that no window of the new list holds are dropped (R437). -/
def gateListSwitch (port : Fin 288) (s : State) : State :=
  let p := port.val
  let ix := ixI p
  let g := s.gate p
  match g.switchAt with
  | none => s
  | some t =>
    if !s.domUp domQC || !s.domUp domTM || s.gateTime p < t * 65536 then s
    else
      let n := s.fld TGT_CTRL_ADMIN_LEN_M1 ix + 1
      let c := s.fld TGT_CTRL_ADMIN_CYCLE ix
      let s := s.swapLists p
      let s := s.setGate p { base := t, cycle := c, entries := n, switchAt := none, resume := none }
      let s := ((s.set TGT_CTRL_ADMIN_LEN_M1 ix (g.entries - 1)).set TGT_CTRL_ADMIN_CYCLE ix g.cycle).set
        TGT_CTRL_SWITCH_PENDING ix 0
      ((s.raise TGT_INT_STATUS_SWITCHED).gateSettle p).dropOversizes p

/-- The counter was stepped: each list waits for its next computed cycle start; a pending switch keeps its instant
(R438). -/
def State.gatesStepped (s : State) : State :=
  let now := (s.tim.total + 65535) / 65536
  let next := fun (g : GateSt) =>
    now + ((((g.base : Int) - (now : Int)) % (g.cycle : Int)).toNat)
  { s with gates := s.gates.map fun (e : Nat × GateSt) =>
      if e.2.entries = 1 then e else (e.1, { e.2 with resume := some (next e.2) }) }

end Sys2Proof.Machine
end

