-- ==== Sys2Proof/Machine/Pm.lean ====
section
/-!
DEFINITION. Machine/Pm.lean: the seconds and bins of performance monitoring (spec/07_line_monitoring.md R214 to R218).
-/
namespace Sys2Proof.Machine

open Fld

/-! ## Seconds, R214 to R216, R218 -/

/-- A second of an entity, judged: severely errored with a declared defect or 15 % errored blocks; errored with at
least one errored block; its background block errors (R214). -/
def judgeSecond (hit : Bool) (errored blocks : Nat) (uas : Bool) : SecJudge :=
  let ses := hit || (blocks != 0 && 15 * blocks ≤ 100 * errored)
  { ses := ses, es := !ses && errored != 0, bbe := if ses then 0 else errored, uas := uas }

/-- The judgement of an entity in the last n pending seconds becomes unavailable or available (R215). -/
def remark (e n : Nat) (uas : Bool) (l : List PmSecond) : List PmSecond :=
  let k := l.length - n
  l.take k ++ (l.drop k).map (fun (p : PmSecond) =>
    { p with ents := p.ents.map (fun (x : Nat × SecJudge) => if x.1 = e then (x.1, { x.2 with uas := uas }) else x) })

/-- The judgement of an entity joins the second that has just ended, the last one pending. -/
def judged (e : Nat) (j : SecJudge) (l : List PmSecond) : List PmSecond :=
  l.dropLast ++ (l.getLast?.toList.map fun (p : PmSecond) => { p with ents := p.ents ++ [(e, j)] })

/-- The second in progress ends for an entity (R214, R215): judged if it could be monitored all along and MON_EN is 1,
and counted towards a change of availability. -/
def State.endSecondOf (s : State) (counts : List SecondBlocks) (e : Nat) : State :=
  let x := s.ent e
  let clear : EntSt := { x with hit := s.declared e, lapse := s.notMon e }
  if x.lapse || s.notMon e || !s.flag PMN_ENT_CFG_MON_EN (ixI e) then
    (if clear = x ∧ x.run = 0 then s else s.setEnt e { clear with run := 0 })
  else
    let b := (counts.find? (fun c => c.ent.val == e)).getD ⟨0, 0, 0⟩
    let j := judgeSecond x.hit b.errored.toNat b.blocks.toNat x.unavail
    let run := if j.ses == x.unavail then 0 else x.run + 1
    let s := { s with pmn := { s.pmn with pend := Machine.judged e j s.pmn.pend } }
    if 10 ≤ run then
      let s := { s with pmn := { s.pmn with pend := remark e 10 (!x.unavail) s.pmn.pend } }
      (s.setEnt e { clear with unavail := !x.unavail, run := 0 }).raiseAt PMN_INT_STATUS_UAT_CHG 0 0
        (e + 2048 * ofBool !x.unavail) 0
    else s.setEnt e { clear with run := run }

/-- A second makes its bins suspect while the counter is not locked to a source (R218, spec/17_time.md R518). -/
def State.unlocked (s : State) : Bool := s.tim.servo != .locked

/-- PM_SECOND_END: at a rollover of the seconds field PMN judges the second that ended (R214). -/
def pmSecondEnd (counts : List SecondBlocks) (s : State) : State :=
  if !s.domUp domFC || !s.domUp domTM || s.pmn.sec = s.tim.sec then s
  else
    let sec := s.pmn.sec
    let s := { s with pmn := { s.pmn with sec := s.tim.sec, pend := s.pmn.pend ++ [(⟨sec, s.unlocked, []⟩ : PmSecond)] } }
    (List.range 1120).foldl (fun s e => s.endSecondOf counts e) s

/-! ## Bins, R216, R217, R223 -/

/-- A committed second in a bin: with no judgement it is counted in no field and makes the bin suspect (R218). -/
def PmBin.add (b : PmBin) (sec : Nat) (suspect : Bool) (j : Option SecJudge) : PmBin :=
  let b := { b with valid := true, start := if b.valid then b.start else sec, suspect := b.suspect || suspect }
  match j with
  | none => { b with suspect := true }
  | some j =>
    if j.uas then { b with uas := b.uas + 1 }
    else { b with es := b.es + ofBool j.es, ses := b.ses + ofBool j.ses, bbe := min (2 ^ 48 - 1) (b.bbe + j.bbe) }

/-- The bins shift at the close of a 15-minute bin (R217). -/
def PmBins.close15 (x : PmBins) (suspect : Bool) : PmBins :=
  { x with hist := ({ x.cur15 with suspect := x.cur15.suspect || suspect } :: x.hist).take 32,
           cur15 := { PmBin.init with suspect := suspect } }

/-- The bins shift at the close of a 24-hour bin (R217). -/
def PmBins.close24 (x : PmBins) (suspect : Bool) : PmBins :=
  { x with prev24 := { x.cur24 with suspect := x.cur24.suspect || suspect },
           cur24 := { PmBin.init with suspect := suspect } }

/-- The same change of every entity's bins. -/
def State.allBins (s : State) (f : Nat → PmBins → PmBins) : State :=
  (List.range 1120).foldl (fun s e => let x := s.ent e; s.setEnt e { x with bins := f e x.bins }) s

/-- A 15-minute bin closes (R217, R219). -/
def State.close15 (s : State) (suspect : Bool) : State :=
  let s := s.allBins (fun _ x => x.close15 suspect)
  (s.set PMN_STATUS_CLOSES ix0 (s.fld PMN_STATUS_CLOSES ix0 + 1)).raise PMN_INT_STATUS_BIN15_CLOSED

/-- A 24-hour bin closes; a new DAY_OFFSET takes effect (R217, R219). -/
def State.close24 (s : State) (suspect : Bool) : State :=
  let s := s.allBins (fun _ x => x.close24 suspect)
  ({ s with pmn := { s.pmn with dayOff := s.fld PMN_CTRL_DAY_OFFSET ix0 } }).raise PMN_INT_STATUS_BIN24_CLOSED

/-- Which 24-hour bin a second lies in (R217). -/
def State.dayOf (s : State) (sec : Nat) : Nat := (sec + 86400 - s.pmn.dayOff % 86400) / 86400

/-- The oldest pending second is committed to the bins (R216), closing them after their last second (R217). -/
def State.commitSecond (s : State) : State :=
  match s.pmn.pend with
  | [] => s
  | p :: rest =>
    let s := { s with pmn := { s.pmn with pend := rest } }
    let s := s.set PMN_STATUS_COMMITTED ix0 p.sec
    let s := s.allBins (fun e x =>
      let j := tblFind e p.ents
      { x with cur15 := x.cur15.add p.sec p.suspect j, cur24 := x.cur24.add p.sec p.suspect j })
    let s := if (p.sec + 1) % 900 = 0 then s.close15 false else s
    if s.dayOf (p.sec + 1) != s.dayOf p.sec then s.close24 false else s

/-- PM_SECOND_COMMIT: a second is committed 10 s after it ended, when the ten after it have been judged (R216). -/
def pmSecondCommit (s : State) : State :=
  if s.domUp domFC && 10 < s.pmn.pend.length then s.commitSecond else s

/-! ## Steps of the counter and resets of TM, R218 -/

/-- The bins in progress become suspect. -/
def State.suspectBins (s : State) : State :=
  s.allBins (fun _ x => { x with cur15 := { x.cur15 with suspect := true }, cur24 := { x.cur24 with suspect := true } })

/-- Seconds that wait are committed at once. -/
def State.commitAll (s : State) : State := (List.range s.pmn.pend.length).foldl (fun s _ => s.commitSecond) s

/-- The counter was stepped: forward by more than 1 s or backward, the seconds skipped are not counted, and bins in
which the new time does not lie close at once (R218). -/
def State.pmStepped (s : State) (old : Nat) : State :=
  let new := s.tim.total
  if !s.domUp domFC || (old ≤ new && new ≤ old + 65536000000000) then s
  else
    let from_ := s.pmn.sec
    let to_ := s.tim.sec
    let s := { s with pmn := { s.pmn with sec := to_ } }
    let other15 := from_ / 900 != to_ / 900
    let other24 := s.dayOf from_ != s.dayOf to_
    let s := if other15 || other24 then s.commitAll else s
    let s := if other15 then s.close15 true else s
    let s := if other24 then s.close24 true else s
    s.raise PMN_INT_STATUS_TIME_STEP

/-- TM leaves reset: counting resumes from the restored counter (R218). -/
def State.pmTmBack (s : State) : State :=
  if s.domUp domFC then
    (({ s with pmn := { s.pmn with sec := s.tim.sec } }).suspectBins).raise PMN_INT_STATUS_TIME_STEP
  else s

/-- FC leaves reset: monitoring starts anew; defects and degrade, which are next to the signal, stand (R218). -/
def State.pmFresh (s : State) : State :=
  let keep := (s.pmn.ents.filter (fun (e : Nat × EntSt) => e.1 < 256 || 800 ≤ e.1)).map (fun (e : Nat × EntSt) =>
    (e.1, { EntSt.init with
      los := e.2.los, loa := e.2.loa, sd := e.2.sd, sdBad := e.2.sdBad, sdGood := e.2.sdGood
      hit := s.declared e.1 }))
  { s with pmn := { PmnSt.init with ents := keep, sec := s.tim.sec } }

end Sys2Proof.Machine
end

