-- ==== Sys2Proof/Machine/StepHooks.lean ====
section
/-!
DEFINITION. Machine/StepHooks.lean: what a step of the time counter does elsewhere (spec/07_line_monitoring.md R218,
spec/14_scheduling.md R438).
-/
namespace Sys2Proof.Machine

/-- The counter was set from `old` to another value. -/
def State.counterStepped (s : State) (old : Nat) : State := (s.pmStepped old).gatesStepped

end Sys2Proof.Machine
end

