-- ==== Sys2Proof/Machine/Time.lean ====
section
/-!
DEFINITION. Machine/Time.lean: the time counter, its servo, PPS and ToD, and time over the fabric (spec/17_time.md).
-/
namespace Sys2Proof.Machine

open Fld

/-! ## The counter, R514 to R516 -/

/-- The frequency correction in force: software's under SRC 3 (R529), the servo's otherwise. -/
def State.freqNow (s : State) : Int :=
  if s.timSrc = 3 then clampFreq (signedOf 40 (s.fld TIM_FREQ_PPB ix0)) else s.tim.freq

/-- How far the counter slews in one nanosecond: at most 100 ppm of what is left (R518, R529). -/
def slewStep (left : Int) : Int := if left < -ppm100 then -ppm100 else if ppm100 < left then ppm100 else left

/-- One nanosecond: 1 ns plus the correction, which the fraction carries (R514). A second's rollover counts seconds of
HOLDOVER (R528). -/
def State.nanosecond (s : State) : State :=
  let t := s.tim
  let d := slewStep t.slew
  let acc := t.acc + s.freqNow + d
  let adv := 65536 + acc / 1000000000
  let n := (t.total + adv.toNat) % (2 ^ 48 * 65536000000000)
  let t' := { (t.ofTotal n) with acc := acc % 1000000000, slew := t.slew - d }
  let t' := if t'.sec != t.sec && t'.servo == .holdover then { t' with holdSec := satAdd 16 t'.holdSec 1 } else t'
  { s with tim := t' }

/-- The counter set to another value: PMN and the gates react (R218, R438), STEPPED is set (R518). -/
def State.stepTo (s : State) (n : Nat) : State :=
  let old := s.tim.total
  let s := { s with tim := s.tim.ofTotal (n % (2 ^ 48 * 65536000000000)) }
  (s.raise TIM_INT_STATUS_STEPPED).counterStepped old

/-- The counter moved by a signed number of 2^-16 ns, modulo its width. -/
def State.stepBy (s : State) (d : Int) : State :=
  s.stepTo (((s.tim.total : Int) + d) % ((2 ^ 48 * 65536000000000 : Nat) : Int)).toNat

/-! ## The servo, R518 -/

/-- The servo enters a state, and STATE_CHG is set. -/
def State.servoTo (s : State) (x : ServoState) : State :=
  let hold := if x == .holdover then 0 else s.tim.holdSec
  let t := { s.tim with servo := x, lockRun := 0, badRun := 0, holdSec := hold, mayStep := x == .acquiring }
  ({ s with tim := t }).raise TIM_INT_STATUS_STATE_CHG

/-- A measurement's offset as TIM_STATUS shows it: signed ns, saturating (R528). -/
def offsetNs (off : Int) : Int :=
  let n := off / 65536
  if n < -(2 ^ 31 : Nat) then -(2 ^ 31 : Nat) else if (2 ^ 31 - 1 : Nat) < n then (2 ^ 31 - 1 : Nat) else n

/-- A measurement in ACQUIRING (R518): the first with |offset| ≥ STEP_NS steps the counter by the offset; 16 in a row
below LOCK_NS lock; any other is slewed. -/
def State.acquire (s : State) (off : Int) : State :=
  let a := off.natAbs
  let soft := s.timSrc = 3
  if s.tim.mayStep && s.fld TIM_CTRL_STEP_NS ix0 * 65536 ≤ a && !soft then
    ({ s with tim := { s.tim with mayStep := false, lockRun := 0 } }).stepBy (-off)
  else
    let run := if a < s.fld TIM_CTRL_LOCK_NS ix0 * 65536 then s.tim.lockRun + 1 else 0
    let s := { s with tim := { s.tim with lockRun := run } }
    let s := if soft then s else s.servoSlew
    if 16 ≤ run then s.servoTo .locked else s

/-- A measurement in LOCKED (R518): four in a row with |offset| ≥ STEP_NS go back to ACQUIRING; any other is slewed. -/
def State.track (s : State) (off : Int) : State :=
  let bad := s.fld TIM_CTRL_STEP_NS ix0 * 65536 ≤ off.natAbs
  let run := if bad then s.tim.badRun + 1 else 0
  let s := { s with tim := { s.tim with badRun := run } }
  if 4 ≤ run then s.servoTo .acquiring else if s.timSrc = 3 then s else s.servoSlew

/-- SERVO_MEASUREMENT: the oldest measurement steps, slews or changes the servo's state (R518). -/
def servoMeasurement (s : State) : State :=
  match s.tim.meas with
  | [] => s
  | off :: rest =>
    let s := { s with tim := { s.tim with meas := rest, offset := offsetNs off } }
    match s.tim.servo with
    | .acquiring => s.acquire off
    | .locked => s.track off
    | .freerun | .holdover => (s.servoTo .acquiring).acquire off

/-- A measurement of the selected source. -/
def State.measured (s : State) (off : Int) : State := { s with tim := { s.tim with meas := s.tim.meas ++ [off] } }

/-! ## PPS and ToD, R520 to R522 -/

/-- A ToD message that is good: SYNC, CRC and VALID (R520, R521). -/
def todGood (m : List Byte) : Bool :=
  m.length = 16 && beNat (bytesAt m 0 2) = 0x4E54 && beNat (bytesAt m 14 2) = crc16 (m.take 14)
    && bitAt (beNat (bytesAt m 3 1)) 0

/-- TOD_MESSAGE: a message within its window that is good serves the next edge; any other is ignored (R520, R521). -/
def todMessage (m : List Byte) (inWindow : Bool) (s : State) : State :=
  if !s.domUp domTM then s
  else if inWindow && todGood m then
    let x : TodMsg :=
      ⟨beNat (bytesAt m 4 6), beNat (bytesAt m 10 2), beNat (bytesAt m 12 1), bitAt (beNat (bytesAt m 3 1)) 3⟩
    { s with tim := { s.tim with tod := some x } }
  else s.raise TIM_INT_STATUS_TOD_ERR

/-- PPS_EDGE: the edge is sampled to 1/64 ns, less PPS_IN_DELAY, and judged against its message; the eighth edge in
a row without one loses the source (R520, R521). -/
def ppsEdge (sub : Fin 64) (s : State) : State :=
  if !s.domUp domTM || s.timSrc != 1 then s
  else
    let at_ : Int := (s.tim.total : Int) + (sub.val * 1024 : Nat) - (s.fld TIM_CAL_PPS_IN_DELAY ix0 * 65536 : Nat)
    match s.tim.tod with
    | some m =>
      ({ s with tim := { s.tim with tod := none, lastTod := some m, edgesNoMsg := 0 } }).measured
        (at_ - (m.sec * 65536000000000 : Nat))
    | none =>
      let n := s.tim.edgesNoMsg + 1
      let s := s.raise TIM_INT_STATUS_TOD_ERR
      if 8 ≤ n then ({ s with tim := { s.tim with edgesNoMsg := 0 } }).sourceLost
      else
        let s := { s with tim := { s.tim with edgesNoMsg := n } }
        if s.tim.servo == .locked then
          let near := (at_ + 32768000000000) / 65536000000000
          s.measured (at_ - near * 65536000000000)
        else s

/-- PPS_LOSS: no edge for 1.5 s, or eight edges without a good message (R521). -/
def ppsLoss (s : State) : State :=
  if s.domUp domTM && s.timSrc = 1 then
    ({ s with tim := { s.tim with edgesNoMsg := 0 } }).sourceLost
  else s

/-- PPS_OUT rises at the counter's rollover, PPS_OUT_ADV early (R522). -/
def ppsOut (s : State) : State := if s.domUp domTM then s.emit .pps else s

/-- The ToD message for the next rollover (R520, R522). -/
def State.todBytes (s : State) : List Byte :=
  let l := s.tim.lastTod
  let flags := ofBool (s.tim.servo == .locked) + (match l with | some m => ofBool m.traceable * 8 | none => 0)
  let body := beBytes 2 0x4E54 ++ beBytes 1 1 ++ beBytes 1 flags ++ beBytes 6 (s.tim.sec + 1)
    ++ beBytes 2 (match l with | some m => m.utcOffset | none => 0)
    ++ beBytes 1 (match l with | some m => m.clockClass | none => 248) ++ beBytes 1 0
  body ++ beBytes 2 (crc16 body)

/-- TOD_SEND (R522). -/
def todSend (s : State) : State := if s.domUp domTM then s.emit (.tod s.todBytes) else s

/-! ## Time over the fabric, R523, R524 -/


/-- TIME_DREQ_SEND: the slave sends its request, whose T is its departure, written as its cell is transmitted (R523). -/
def timeDreqSend (s : State) : State :=
  if !s.domUp domTM || s.timSrc != 2 then s
  else
    let x := s.tim.xseq + 1
    let t3 := s.tim.total
    ({ s with tim := { s.tim with xseq := x, exch := some ⟨x, t3, none⟩ } }).sendCtl (s.fld TIM_CTRL_MASTER_ID ix0)
      [.timeDreq x.toNat t3]

/-- The oldest time message of a kind that has arrived: its source, XSEQ, T and arrival. -/
def State.takeTime (s : State) (f : CtlMsg → Option (Nat × Nat)) : Option ((Nat × Nat × Nat × Nat) × State) :=
  match s.takeRx (fun c => match c with | .msg _ m _ => (f m).isSome | _ => false) with
  | some (.msg src m at_, s) => (f m).map fun (x, t) => ((src, x, t, at_), s)
  | _ => none

/-- TIME_DREQ: a master answers with TIME_DRESP, whose T is the arrival of the request, and TIME_SYNC in one control
cell; another module ignores it and counts it (R523, R524). The request's own T is not used by the master. -/
def timeDreq (s : State) : State :=
  match s.takeTime (fun m => match m with | .timeDreq x t => some (x, t) | _ => none) with
  | none => s
  | some ((src, x, _, at_), s) =>
    if !s.domUp domTM then s
    else if s.flag TIM_CTRL_FAB_MASTER ix0 then s.sendCtl src [.timeDresp x at_, .timeSync x s.tim.total]
    else s.count TIM_FAB_DISCARD_COUNT ix0 1

/-- An exchange that comes to nothing: counted, and the eighth in a row loses the source (R524). -/
def State.exchangeDiscarded (s : State) : State :=
  let s := s.count TIM_FAB_DISCARD_COUNT ix0 1
  let n := s.tim.discRun + 1
  if 8 ≤ n then ({ s with tim := { s.tim with discRun := 0 } }).sourceLost
  else { s with tim := { s.tim with discRun := n } }

/-- An answer that is not for the last request is discarded and counted (R524). -/
def State.answerStray (s : State) : State := s.count TIM_FAB_DISCARD_COUNT ix0 1

/-- TIME_DRESP: the arrival of the request, for the exchange whose XSEQ it carries (R523). An answer is one cell of two
messages: one that is not for the last request is counted with its TIME_SYNC (R524). -/
def timeDresp (s : State) : State :=
  match s.takeTime (fun m => match m with | .timeDresp x t => some (x, t) | _ => none) with
  | none => s
  | some ((src, x, t4, _), s) =>
    if !s.domUp domTM || s.timSrc != 2 then s
    else
      match s.tim.exch with
      | some e =>
        if e.xseq.toNat = x && src = s.fld TIM_CTRL_MASTER_ID ix0 then
          { s with tim := { s.tim with exch := some { e with t4 := some t4 } } }
        else s
      | none => s

/-- The offset and the path delay of an exchange, in 2^-16 ns (R523). -/
def exchangeOffset (t1 t2 t3 t4 asym : Int) : Int := ((t2 - t1) - (t4 - t3) - asym) / 2
def exchangeDelay (t1 t2 t3 t4 : Int) : Int := ((t2 - t1) + (t4 - t3)) / 2

/-- The least of a list of delays, or the given one. -/
def leastDelay (d : Nat) (ds : List Nat) : Nat := ds.foldl min d

/-- TIME_SYNC: the exchange is complete; t2 is the arrival of its cell. Its offset is a measurement if its delay lies
within FILTER_NS of the least of the last 64 (R523, R524). -/
def timeSync (s : State) : State :=
  match s.takeTime (fun m => match m with | .timeSync x t => some (x, t) | _ => none) with
  | none => s
  | some ((src, x, t1, t2), s) =>
    if !s.domUp domTM || s.timSrc != 2 then s
    else
      match s.tim.exch with
      | some ⟨y, t3, some t4⟩ =>
        if y.toNat = x && src = s.fld TIM_CTRL_MASTER_ID ix0 then
          let asym := signedOf 16 (s.fld TIM_CAL_ASYM ix0) * 65536
          let off := exchangeOffset t1 t2 t3 t4 asym
          let delay := (exchangeDelay t1 t2 t3 t4).toNat
          let ds := (delay :: s.tim.delays).take 64
          let s := { s with tim := { s.tim with exch := none, delays := ds } }
          if delay ≤ leastDelay delay ds + s.fld TIM_CTRL_FILTER_NS ix0 * 65536 then
            ({ s with tim := { s.tim with discRun := 0 } }).measured off
          else s.exchangeDiscarded
        else s.answerStray
      | _ => s.answerStray

/-- TIME_EXCHANGE_TIMEOUT: no answer within 1 ms (R524). -/
def timeExchangeTimeout (s : State) : State :=
  match s.tim.exch with
  | some _ => ({ s with tim := { s.tim with exch := none } }).exchangeDiscarded
  | none => s

/-! ## Software, R529 -/

/-- A write of TIM_ADJ (R529): LOAD sets the counter, STEP steps it, otherwise PHASE is slewed. Each is a measurement
of SRC 3 (R517); a step or a load puts the servo in ACQUIRING at once. -/
def State.writeAdj (s : State) (v : W64) : State :=
  if s.timSrc != 3 then s.violation .tim 0
  else
    let phase := signedOf 32 (TIM_ADJ_PHASE.get v) * 65536
    if TIM_ADJ_LOAD.get v = 1 then
      (s.stepTo (s.fld TIM_LOAD_SEC_SEC ix0 * 65536000000000)).servoTo .acquiring
    else if TIM_ADJ_STEP.get v = 1 then (s.stepBy phase).servoTo .acquiring
    else ({ s with tim := { s.tim with slew := s.tim.slew + phase * 1000000000 } }).measured (-phase)

/-- TIM_ADJ_SLEW, TIM_ADJ_STEP, TIM_ADJ_LOAD: the same register with STEP and LOAD as the row says. -/
def timAdjSlew (v : W64) (s : State) : State := s.writeAdj (v &&& ~~~(TIM_ADJ_STEP.mask ||| TIM_ADJ_LOAD.mask))
def timAdjStep (v : W64) (s : State) : State := s.writeAdj ((v &&& ~~~TIM_ADJ_LOAD.mask) ||| TIM_ADJ_STEP.mask)
def timAdjLoad (v : W64) (s : State) : State := s.writeAdj (v ||| TIM_ADJ_LOAD.mask)

/-- TIM_NOW_NS as it stands (R528). -/
def TimSt.nowNs (t : TimSt) : W64 := BitVec.ofNat 64 (t.ns * 65536 + t.frac)

/-- TIM_STATUS as read (R528). -/
def TimSt.status (t : TimSt) : Nat :=
  (match t.servo with | .freerun => 0 | .acquiring => 1 | .locked => 2 | .holdover => 3) + ofBool t.ref10m * 4
    + t.holdSec * 2 ^ 16 + (t.offset % (2 ^ 32 : Nat)).toNat * 2 ^ 32

/-- A capture of the nanoseconds for a requester (R516); a later one replaces it. -/
def State.captureNs (s : State) (req : Req) : State :=
  { s with acc := { s.acc with nsCapt := (req, s.tim.nowNs) :: s.acc.nsCapt.filter (fun e => e.1 != req) } }

/-- REF10M_CHANGE: the 10 MHz reference comes or goes (R614, R517). -/
def ref10mChange (s : State) : State := { s with tim := { s.tim with ref10m := !s.tim.ref10m } }

end Sys2Proof.Machine
end

