-- ==== Sys2Proof/Machine/Domains.lean ====
section
/-!
DEFINITION. Machine/Domains.lean: what the reset of each domain clears, its release, and the writes that hold and
release domains (spec/01_architecture.md R45, R47, spec/03_startup_reset.md R85 to R92, R97).
-/
namespace Sys2Proof.Machine

open Fld

/-! ## Power and reset as bits -/

/-- A bit of a set of domains, set or cleared. -/
def putDomain (b : BitVec 29) (d : Nat) (on : Bool) : BitVec 29 :=
  if on then b ||| BitVec.ofNat 29 (2 ^ d) else b &&& ~~~BitVec.ofNat 29 (2 ^ d)

/-- A domain is in reset, or out of it; in reset it is not READY (R102). -/
def State.markReset (s : State) (d : Nat) (on : Bool) : State :=
  { s with gen := { s.gen with
    inReset := putDomain s.gen.inReset d on
    ready := if on then putDomain s.gen.ready d false else s.gen.ready } }

/-- A domain is powered, or not; without power it is not READY. -/
def State.markPower (s : State) (d : Nat) (on : Bool) : State :=
  { s with gen := { s.gen with
    powered := putDomain s.gen.powered d on
    ready := if on then s.gen.ready else putDomain s.gen.ready d false } }

/-- HOLD of a domain (R101). -/
def State.held (s : State) (d : Nat) : Bool := bitAt (s.fld GEN_DOMAIN_RESET_HOLD ix0) d

/-! ## What each reset clears, R47, R85 -/

/-- LDn: its lanes are idle, its MACs stopped. -/
def State.wipeLd (s : State) (n : Nat) : State :=
  let mine := fun (p : Nat) => p / 32 = n
  let s := { s with lin := { s.lin with
    aligned := s.lin.aligned.filter fun p => !mine p
    frames := s.lin.frames.filter fun e => !mine e.1 } }
  s.clearRegs n

/-- A ream that is not committed is discarded whole: its ring completes its rest with SKIPPED and DISCARDED, before any
other ream where a reset of FC discards it (R348). -/
def State.reamDropped (s : State) (first : Bool) : State :=
  match s.cmt.ring with
  | none => s
  | some r =>
    let x : RestReam := ⟨r, ⟨stDiscarded, 0, s.cmt.pos⟩, s.cmt.changes, s.cmt.pos, first⟩
    let s := (s.reamRefused r 0xFF 0 s.cmt.pos).stageEnd
    ({ s with cmt := { s.cmt with rest := s.cmt.rest ++ [x] } }).raise CMT_INT_STATUS_DISCARDED

/-- FC: pipelines, FlexE shim, PM and Commit Engine stop and lose what they hold, learning its FIFO and its flush; the
couch link trains anew (R36, R47, R348, spec/07_line_monitoring.md R218, spec/09_lookup.md R281). What holds the
pipelines until RESUME goes on holding them (R349). -/
def State.wipeFc (s : State) : State :=
  let held := s.fld CMT_STATUS_FL_HOLD ix0
  let s := s.clearRegs domFC
  let s := ((s.set CMT_STATUS_FL_HOLD ix0 held).set LKP_FLUSH_BUSY ix0 0).reamDropped true
  { s with
    ing := IngSt.init, arrivals := [], egr := EgrSt.init
    tab := { s.tab with fifo := [], flush := none }
    cmt := { s.cmt with hold := !(s.cmt.unsettled ++ s.cmt.half).isEmpty, rd := none }
    lin := { s.lin with playout := [], calReq := [] }
    couch := { s.couch with st := .training, failed := 0, fxToQx := [], replaysF := 0, replaysQ := 0 } }

/-- FL: every table and counter is empty, the newest ream is 0, the ream in staging is discarded (R47, R328, R348). A
reset by GEN_DOMAIN_RESET holds the pipelines until RESUME (R349); packets in them, whose lookups are lost, are gone. -/
def State.wipeFl (s : State) (hold : Bool) : State :=
  let s := (s.reamDropped false).clearRegs domFL
  let s := { s with
    tab := { TablesSt.init with fifo := s.tab.fifo, flOut := s.now }, asa := AsaSt.init, ing := { s.ing with pkts := [], stamped := [] }
    cmt := { CmtSt.init with
             rest := s.cmt.rest, last := s.cmt.last, at_ := s.cmt.at_, rd := s.cmt.rd } }
  s.set CMT_STATUS_FL_HOLD ix0 (ofBool hold)

/-- What QC and QB hold for traffic is lost (R47, R92): buffers, queues, credit, buckets, reorder contexts, cells on
their way, the felt link's state and the roles, with the felt path the mate's locks (spec/05_rings_mailboxes_locks.md
R172); the couch link trains anew unless it is DOWN, which only FC or a cold reset ends (R36), and posted register
writes stay on it (R41); ALIVE_OUT_N is released (R85). -/
def State.wipeQc (s : State) : State :=
  let links := s.fab.links.map fun e => (e.1, { e.2 with
    maps := [], txLink := [], txCtl := [], txSlot := [], txData := [], sprayed := false })
  let fab := { FabSt.init s.fab.epoch with
    links := links.filter fun e => e.2 != LinkSt.init
    qcOut := s.fab.qcOut }
  let couch := { CouchSt.init with
    st := if s.couch.st == .down then .down else .training, failed := s.couch.failed
    qxToFx := s.couch.qxToFx.filter fun u => u.posted.isSome }
  let s := { s with
    bpm := BpmSt.init, adm := AdmSt.init, qsc := QscSt.init, crd := CrdSt.init, gates := [], replQ := [], hostQ := []
    prt := PrtSt.init, fab := fab, lin := { s.lin with xoff := [] }, couch := couch
    gen := { s.gen with hbOn := false } }
  s.releaseAlive.autoRelease .mate

/-- DCn: the contents of every partition are lost (R402), a sparing copy is abandoned (R405). -/
def State.wipeDc (s : State) (n : Nat) : State :=
  let s := s.dramLost.clearRegs (domDC n)
  s.setSpare n { s.spare n with copying := none, tested := false, failed := false }

/-- FBn: its links start afresh. -/
def State.wipeFb (s : State) (n : Nat) : State :=
  ((List.range 64).foldl (fun s i => s.linkReset (64 * n + i)) s).clearRegs (domFB n)

/-- ML: as for a lockstep mismatch, and the log staging buffer is cleared (spec/19_mill.md R570). -/
def State.wipeMl (s : State) : State :=
  let s := (s.healthTo PRT_HEALTH_LOCKSTEP 0 true).millRestart
  (s.mill fun m => { m with staged := [] }).clearRegs domML

/-- TM: the counter holds its value, and the servo's state is gone (R47, spec/17_time.md R516). -/
def State.wipeTm (s : State) : State :=
  let t := s.tim
  let t' : TimSt := { TimSt.init with sec := t.sec, ns := t.ns, frac := t.frac, ref10m := t.ref10m }
  { s.clearRegs domTM with tim := t' }

/-- A domain's contents are reset. -/
def State.wipe (s : State) (d : Nat) (hold : Bool) : State :=
  if d < 8 then s.wipeLd d
  else if d = domFC then s.wipeFc
  else if d = domFL then s.wipeFl hold
  else if d = domQC then s.wipeQc.clearRegs domQC
  else if d = domQB then s
  else if d < 21 then s.wipeDc (d - 12)
  else if d < 26 then s.wipeFb (d - 21)
  else if d = domHP then s.resetHost.dropWrites domHP
  else if d = domML then s.wipeMl
  else s.wipeTm

/-- The entities whose signal fail a domain's reset bears on (R208). -/
def domEnts (d : Nat) : List Nat :=
  if d < 8 then sliceEnts (2 * d) ++ sliceEnts (2 * d + 1)
  else if d = domFC then fcEnts
  else if 21 ≤ d && d < 26 then (List.range 64).map fun i => entLink (64 * (d - 21) + i)
  else []

/-- A domain enters reset (R47, R88). -/
def State.enterReset (s : State) (d : Nat) (hold : Bool) : State :=
  s.watchSf (domEnts d) fun s => (s.wipe d hold).markReset d true

/-! ## Release, R88 to R90 -/

/-- QC leaves reset: EPOCH increments, and no data cell leaves for 100 µs (spec/15_fabric.md R472); in RUN the
heartbeat generator runs again. -/
def State.qcOut (s : State) : State :=
  { s with
    fab := { s.fab with epoch := s.fab.epoch + 1, qcOut := s.now }
    gen := { s.gen with hbOn := s.gen.phase == .run } }

/-- What a domain does as it leaves reset: an LD's time-stamp unit resynchronises (spec/17_time.md R525), PM starts
anew (R218) and commit rings complete what was discarded (R348), the counter runs on in ACQUIRING (R516). -/
def State.leftReset (s : State) (d : Nat) : State :=
  if d < 8 then { s with lin := { s.lin with ldOut := tblPut d s.now s.lin.ldOut } }
  else if d = domFC then s.cmt.rest.foldl (fun s (x : RestReam) => s.startFetch x.ring) s.pmFresh
  else if d = domFL then { s with tab := { s.tab with flOut := s.now } }
  else if d = domQC then s.qcOut
  else if d = domTM then (s.servoTo .acquiring).pmTmBack
  else s

/-- A domain leaves reset: it powers up if it was off, and trains (R88). -/
def State.leaveReset (s : State) (d : Nat) : State :=
  s.watchSf (domEnts d) fun s => ((s.markPower d true).markReset d false).leftReset d

/-- Before TEST the Mill writes SPARE_EN and DDC_PART from its record and RUN 1, and restores the sparing mappings,
at an entry to INIT that does not retain DRAM contents (spec/13_memory.md R397, R398, R403). -/
def State.partitionDram (s : State) : State :=
  let f := s.mil.flash
  let s := s.ddcRunTo false
  let s := (((s.set DDC_CTRL_SPARE_EN ix0 f.partSpare).set DDC_PART_CNT_GIB ix0 f.partCnt).set DDC_PART_FLOW_GIB ix0
    f.partFlow).set DDC_PART_WIN_GIB ix0 f.partWin
  let s := s.ddcRunTo true
  if f.partSpare = 0 then s
  else f.spares.foldl (fun s e => if (s.spare e.1).failed then s else s.setSpare e.1 { s.spare e.1 with mapped := some e.2 }) s

/-- The partition is written once every cluster is READY, at an entry to INIT that does not retain DRAM contents, so
that spares can be tested before TEST (spec/13_memory.md R397, R403). -/
def State.partitionDue (s : State) : Bool :=
  s.gen.phase == .init && !s.gen.retain && !s.gen.warmBusy && !s.flag DDC_CTRL_RUN ix0
    && (List.range 9).all fun n => s.gen.ready.getLsbD (domDC n)

/-- DOMAIN_READY: a released domain has powered and trained (R90): READY is set; with the last cluster the partition is
written; the couch link is UP once both its ends are; HP samples its contacts (R74); the Mill answers (R571). -/
def domainReady (d : Fin 29) (s : State) : State :=
  if !s.domUp d.val || s.gen.ready.getLsbD d.val then s
  else if d.val = domML then millRestartDone s
  else
    let s := { s with gen := { s.gen with
      ready := putDomain s.gen.ready d.val true
      sampled := s.gen.sampled || d.val = domHP } }
    let both := s.gen.ready.getLsbD domFC && s.gen.ready.getLsbD domQC
    let s := if (d.val = domFC || d.val = domQC) && both && s.couch.st == .training then
        { s with couch := { s.couch with st := .up } }
      else s
    let s := if domDC 0 ≤ d.val && d.val < domDC 9 && s.partitionDue then s.partitionDram else s
    s.settleFab.protJudge

/-! ## HOLD writes, R88, R89, R101 -/

/-- After domains have entered or left reset. -/
def State.domainsSettled (s : State) : State := s.settleFab.protJudge

/-- A RESET entry of the Mill's log (spec/19_mill.md R580). -/
def State.logReset (s : State) (hold : Nat) : State := s.stageLog 3 0 (s.rd .genResetCause ix0).toNat hold

/-- A write of HOLD that is discarded whole: it sets QB's bit while QC's is clear and stays clear. A bit of a domain
already in reset is not set by being written 1 (R89). -/
def holdRefused (old v : Nat) : Bool := bitAt v 11 && !bitAt old 11 && !bitAt old 10 && !bitAt v 10

/-- GEN_DOMAIN_RESET written (R88, R89). After a thermal trip only a cold reset powers a datapath domain up (R53). -/
def State.holdWrite (s : State) (req : Req) (v : Nat) : State :=
  let old := s.fld GEN_DOMAIN_RESET_HOLD ix0
  let hp := bitAt v 26 && (req == .mill || bitAt old 26)
  let v := withBits v 26 1 (ofBool hp)
  if !(s.gen.phase == .run || s.gen.phase == .isolate) then s.violation .gen 0
  else if holdRefused old v then s.violation .gen 0
  else
    let s := s.set GEN_DOMAIN_RESET_HOLD ix0 v
    let rises := (List.range 29).filter fun d => bitAt v d && !bitAt old d
    let falls := (List.range 29).filter fun d => bitAt old d && !bitAt v d
    let s := if rises.isEmpty then s else s.logReset v
    let s := rises.foldl (fun s d => if s.gen.inReset.getLsbD d then s else s.enterReset d true) s
    let s := falls.foldl (fun s d => if d < 26 && s.gen.tripped then s else s.leaveReset d) s
    s.domainsSettled

/-- Who may reset domains and the module, and ask for a phase (R85, R100, R103): PF0, the Mill, the unlocked debug
port. -/
def State.mayReset (s : State) (req : Req) : Bool :=
  match req with
  | .pf0 | .mill => true
  | .dbg => s.mil.debug
  | .pf1 | .mate => false

/-- DOMAIN_HOLD: a write of GEN_DOMAIN_RESET that sets HOLD bits. -/
def domainHold (req : Req) (hold : BitVec 29) (s : State) : State :=
  if s.mayReset req then s.holdWrite req hold.toNat else s

/-- DOMAIN_RELEASE: a write of GEN_DOMAIN_RESET that clears HOLD bits. -/
def domainRelease (req : Req) (hold : BitVec 29) (s : State) : State :=
  if s.mayReset req then s.holdWrite req hold.toNat else s

end Sys2Proof.Machine
end

