-- ==== Sys2Proof/Machine/Phases.lean ====
section
/-!
DEFINITION. Machine/Phases.lean: power, heat, the pair's contacts, phases, cold and warm resets (spec/02_module.md R53 to
R75, spec/03_startup_reset.md R79 to R104, spec/19_mill.md R580, R582).
-/
namespace Sys2Proof.Machine

open Fld

/-- The datapath domains: all but HP, ML and TM. -/
def datapath : List Nat := List.range 26

/-- The datapath domains lose power, and what they held with it (R53, R57). -/
def State.datapathOff (s : State) : State :=
  (datapath.foldl (fun s d => (s.enterReset d false).markPower d false) s).domainsSettled

/-! ## Cold resets, R85, R93 -/

/-- The module right after a cold reset: everything but the flash, the contacts, the time that passes and EPOCH, which
only power-up and releases of QC change, is as `State.reset` has it (R18, R85, spec/15_fabric.md R472). -/
def State.cold (s : State) : State :=
  let r := State.reset
  let g := { GenSt.init with
    slotId := s.gen.slotId, matePresent := s.gen.matePresent, aliveIn := s.gen.aliveIn, perst := s.gen.perst
    perstReset := s.gen.perstReset
    modResetLow := s.gen.modResetLow, goodAt := s.gen.goodAt }
  let s' := { r with
    pending := s.pending, now := s.now, freeCtr := s.freeCtr, out := s.out, gen := g
    fab := { r.fab with epoch := s.fab.epoch }, mil := MilSt.init s.mil.flash }
  if s.alertLow then s'.emit (.alert false) else s'

/-- A cold start: BOOT with what ended in GEN_RESET_CAUSE (R104), in the Mill's log as a RESET entry, and the phase it
came from. -/
def State.coldStart (s : State) (cause : Field) : State :=
  let old := s.gen.phase
  let thermal := s.gen.tripped
  let s := (s.cold.set cause ix0 1).set GEN_RESET_CAUSE_PREV_THERMAL ix0 (ofBool thermal)
  let s := s.logReset 0
  if old = .boot then s
  else (s.stageLog 2 0 (old.code + Phase.boot.code * 2 ^ 8) 0).raise GEN_INT_STATUS_PHASE_CHG

/-- MOD_RESET: MOD_RESET_N has been low for 10 µs: all 29 domains are in reset (R85). -/
def modReset (s : State) : State :=
  if s.gen.power != .up || s.gen.modResetLow then s
  else
    let old := s.gen
    let s := s.cold
    { s with gen := { s.gen with
      modResetLow := true, inReset := 0x1FFFFFFF, ready := 0, tripped := old.tripped } }

/-- MOD_RESET_RELEASE: the module starts in BOOT, and MOD_RESET is set (R85, R104). After a power-fail it starts again
only at the next power-good (R58). -/
def modResetRelease (s : State) : State :=
  if !s.gen.modResetLow then s
  else if s.gen.power != .up then { s with gen := { s.gen with modResetLow := false } }
  else ({ s with gen := { s.gen with modResetLow := false } }).coldStart GEN_RESET_CAUSE_MOD_RESET

/-- A keyed write of GEN_RESET_CTRL without its key is discarded (R103). -/
def resetKey : BitVec 16 := 0x5A3C

/-- COLD: a write of GEN_RESET_CTRL.COLD (R85, R103, R104). Once power-fail is declared the sequence of R57 goes on to
its end (R58). -/
def cold (req : Req) (key : BitVec 16) (s : State) : State :=
  if !s.mayReset req || s.gen.power != .up then s
  else if key != resetKey then s.violation .gen 0
  else s.coldStart GEN_RESET_CAUSE_SW_COLD

/-! ## Power, R54 to R58, R65 -/

/-- POWER_GOOD: SLOT_ID is sampled, regulator sequencing starts, EPOCH takes a random value (R54, R65,
spec/15_fabric.md R472). -/
def powerGood (slotId : BitVec 6) (s : State) : State :=
  if s.gen.power != .absent then s
  else
    let e := s.free
    let s := s.used
    let s := { s with gen := { s.gen with
      slotId := slotId, goodAt := s.now, modResetLow := false, perstReset := false, tripped := false } }
    let s := s.cold
    { s with
      fab := { s.fab with epoch := e.setWidth 8 }
      gen := { s.gen with power := .sequencing, phase := .off, powered := 0, inReset := 0x1FFFFFFF, ready := 0,
                          auxOn := false } }

/-- REGULATORS_SEQUENCED: HP, ML and TM run, AUX_3V3 is there, PHASE is BOOT (R81, R83, R104). -/
def regulatorsSequenced (s : State) : State :=
  if s.gen.power != .sequencing then s else s.coldStart GEN_RESET_CAUSE_POWER_ON

/-- POWER_FAIL, declared at any time after power-good: ALIVE_OUT_N is released, transmitters are idle, the datapath
domains are powered down; HP, ML and TM, where they run yet, are held up (R55, R57, R81, R93). -/
def powerFail (overvoltage : Bool) (s : State) : State :=
  if s.gen.power != .up && s.gen.power != .sequencing then s
  else
    let s := (s.enterPhase .off).releaseAlive.datapathOff
    { s with gen := { s.gen with power := .failing, reqBusy := false, warmBusy := false, overvolt := overvoltage } }

/-- LAST_GASP_ENTRY: one program operation from hold-up energy; entries still staged are lost (R57, R582). -/
def lastGaspEntry (vin : BitVec 16) (s : State) : State :=
  if s.gen.power != .failing || !s.domUp domML then s
  else
    let sec := (s.now - s.gen.goodAt) / 5000000000
    let e := s.mkEntry 7 0 (vin.toNat + ofBool s.gen.overvolt * 2 ^ 16) (sec % 2 ^ 32 + i16 s.mil.tempMax * 2 ^ 32)
    ((s.mill fun m => { m with staged := [] }).flashEntry { e with holdUp := true }).alertClass 4

/-- RAILS_OFF: every rail and AUX_3V3 is off; nothing survives but the flash (R57, R58). -/
def railsOff (s : State) : State :=
  if s.gen.power != .failing then s
  else
    let s := s.cold
    { s with gen := { s.gen with
      power := .absent, phase := .off, powered := 0, inReset := 0x1FFFFFFF, ready := 0, auxOn := false, slotId := 0 } }

/-! ## Heat, R53 -/

/-- A trip isolates the module, or names itself the cause of the isolation there is (R53, R81). -/
def State.tripIsolate (s : State) : State :=
  if s.gen.phase == .isolate then { s with gen := { s.gen with isoCause := 1 } } else s.enterIsolate 1

/-- A tripped module in ISOLATE has its datapath cut off (R53). -/
def State.tripCut (s : State) : State :=
  if s.gen.phase != .isolate then s
  else ({ s with gen := { s.gen with tripped := true } }).datapathOff

/-- THERMAL_TRIP: the hardware comparator finds a die or DRAM point at its trip threshold: a thermal-trip entry,
ISOLATE with cause 0x01, and every domain but HP, ML and TM powered down. -/
def thermalTrip (point : Fin 128) (value : Int) (s : State) : State :=
  let p := point.val
  match tripLimit p with
  | none => s
  | some t =>
    if value < t || s.gen.power != .up || s.gen.tripped then s
    else
      let s := if s.mil.ready then s.sampleTemp p value else s
      let s := s.stageLog 4 0 (thermalArg p value 3) 0
      s.tripIsolate.tripCut

/-! ## The ALIVE watchdog and the pair's contacts, R63, R75 -/

/-- Twice the 8 µs between strobes: strobes that are so far apart have one missing between them (R63). -/
def strobeGap : Nat := 80000

/-- HEARTBEAT_STROBE: after 8 consecutive strobes the watchdog drives ALIVE_OUT_N low, never in ISOLATE (R63, R80). A
strobe that follows a missed one is the first of a new run. -/
def heartbeatStrobe (s : State) : State :=
  if !s.gen.hbOn || !s.domUp domQC then s
  else
    let n := if strobeGap ≤ s.now - s.gen.hbLast then 1 else s.gen.hbCount + 1
    let on := s.gen.aliveOut || (8 ≤ n && s.gen.phase != .isolate)
    { s with gen := { s.gen with hbCount := min n 8, hbLast := s.now, aliveOut := on } }

/-- WATCHDOG_STROBES_MISSED: 12 consecutive strobes are missed: ALIVE_OUT_N is released, and with it the member
transmitters (R63, spec/18_protection.md R535). -/
def watchdogStrobesMissed (s : State) : State := s.releaseAlive

/-- MATE_PRESENT_CHANGE: a filtered change of MATE_PRESENT; a mate that has gone loses its locks (R75,
spec/05_rings_mailboxes_locks.md R172). -/
def matePresentChange (s : State) : State :=
  let present := !s.gen.matePresent
  let s := ({ s with gen := { s.gen with matePresent := present } }).raise GEN_INT_STATUS_MATE_PRESENT_CHG
  if present then s else s.autoRelease .mate

/-- ALIVE_IN_CHANGE: a filtered change of ALIVE_IN, one of the signs that the mate lives (R75, spec/18_protection.md
R540). -/
def aliveInChange (s : State) : State :=
  (({ s with gen := { s.gen with aliveIn := !s.gen.aliveIn } }).raise GEN_INT_STATUS_ALIVE_IN_CHG).protJudge

/-! ## BOOT and INIT, R81 to R83 -/

/-- A last-gasp entry newer than the latest RESET entry of the log (spec/19_mill.md R582). -/
def FlashSt.gasped (f : FlashSt) : Bool :=
  match (f.log.filter fun e => e.2.kind == 7 || e.2.kind == 3).getLast? with
  | some e => e.2.kind == 7
  | none => false

/-- A thermal-trip entry newer than the latest RESET entry of the log (R104). -/
def FlashSt.trippedBefore (f : FlashSt) : Bool :=
  match (f.log.filter fun e => e.2.kind == 3 || (e.2.kind == 4 && bitsOf e.2.arg0 32 2 = 3)).getLast? with
  | some e => e.2.kind == 4
  | none => false

/-- Every datapath domain is powered and, but for those that HOLD keeps in reset, released (R79, R83). -/
def State.datapathOn (s : State) : State :=
  datapath.foldl (fun s d => if s.held d then s.markPower d true else s.leaveReset d) s

/-- IMAGE_VERIFY: the boot ROM verifies both slots and starts the preferred one that is good, or the other, and the
module enters INIT; with neither it stays in BOOT with BOOT_FAIL until the next cold reset (R81, R82, spec/19_mill.md
R588, R590). The RESET entry of this start is still in the staging buffer when the log is read. -/
def imageVerify (goodA goodB : Bool) (s : State) : State :=
  if s.gen.phase != .boot || s.gen.bootFail || !s.mil.bootRom || !s.domUp domML then s
  else
    let f := s.mil.flash
    let f := { f with slotA := { f.slotA with valid := f.slotA.valid && goodA },
                      slotB := { f.slotB with valid := f.slotB.valid && goodB } }
    let s := s.mill fun m => { m with flash := f }
    let slot := if (f.slot f.bootPref).valid then f.bootPref else !f.bootPref
    if !(f.slot slot).valid then
      ({ s with gen := { s.gen with bootFail := true } }).stageLog 6 0 (fwArg f.bootPref 0 0) 0
    else
      let s := if f.gasped then s.set GEN_RESET_CAUSE_PREV_POWER_FAIL ix0 1 else s
      let s := if f.trippedBefore && s.flag GEN_RESET_CAUSE_POWER_ON ix0 then s.set GEN_RESET_CAUSE_PREV_THERMAL ix0 1 else s
      let s := s.mill fun m => { m with ready := true, bootRom := false, running := slot }
      let s := { s with gen := { s.gen with image := slot, bootFail := false } }
      (s.datapathOn.enterPhase .init).domainsSettled

/-- The datapath is READY but for domains that HOLD keeps in reset, and the couch link is UP. -/
def State.datapathReady (s : State) : Bool :=
  datapath.all (fun d => s.gen.ready.getLsbD d) && s.couch.st == .up

/-- INIT_COMPLETE: all datapath domains are READY and DRAM is trained: PHASE is TEST, unless RUN was refused, when the
module stays in INIT (R81, spec/13_memory.md R398). Channels that leave self-refresh are retrained (spec/13_memory.md
R407), which `fails` tells of those that fail. -/
def initComplete (fails : BitVec 144) (s : State) : State :=
  if s.gen.phase != .init || s.gen.warmBusy || !s.datapathReady then s
  else
    let s := s.leaveSelfRefresh fails
    let s := if s.gen.retain || s.flag DDC_CTRL_RUN ix0 then s else s.partitionDram
    if !s.gen.retain && !s.flag DDC_CTRL_RUN ix0 then s
    else ({ s with gen := { s.gen with retain := false } }).enterPhase .test

/-- Entry to RUN: the heartbeat generator runs (R80), every request has ended, monitoring of HEARTBEATs starts
(spec/15_fabric.md R475), and groups have no role yet (spec/18_protection.md R545). -/
def State.enterRun (s : State) : State :=
  let s := { s with
    gen := { s.gen with hbOn := true, reqBusy := false, warmBusy := false, hbCount := 0 }
    fab := { s.fab with hbUp := [], reach := [], dropping := [] }
    prt := { s.prt with ready := false } }
  (s.enterPhase .run).domainsSettled

/-- SELFTEST_PASS: the self-test has passed on every unit (R81). -/
def selftestPass (s : State) : State :=
  if s.gen.phase != .test then s
  else ({ s with gen := { s.gen with testMap := 0, testQx := false } }).enterRun

/-- SELFTEST_FAIL: a unit failed: ISOLATE with cause 0x03 (R81, R99). -/
def selftestFail (slices : BitVec 16) (qx : Bool) (s : State) : State :=
  if s.gen.phase != .test || (slices = 0 && !qx) then s
  else (({ s with gen := { s.gen with testMap := slices, testQx := qx } }).enterIsolate 3).protJudge

/-! ## Phase requests, R82, R94 to R97, R100 -/

/-- A request that R81 does not list, or that comes while one is in progress, is ignored (R82). -/
def State.phaseReject (s : State) : State := s.raise GEN_INT_STATUS_PHASE_REQ_REJ

/-- A unit of the couch link that is no packet. -/
def CouchUnit.notPacket : CouchUnit → Bool
  | .learn _ _ _ | .write _ => true
  | .pipe _ _ | .back _ _ | .egress _ _ => false

/-- Every packet in the module is discarded and counted under DOMAIN_DOWN (R94). -/
def State.dropAll (s : State) : State :=
  let s := s.qsc.qs.foldl (fun s (e : Nat × Queue) => s.dropHead e.1 e.2.pkts.length causeDomainDown) s
  let gone (s : State) (n port : Nat) : State := s.countDrop causeDomainDown n port 0
  let s := s.replQ.foldl (fun s (p : ReplPkt) =>
    p.cells.foldl (fun s h => s.decCell p.holder h) (gone s p.pkt.bytes.length p.pkt.src)) s
  let s := s.qsc.late.foldl (fun s (a : LateArr) =>
    (gone s a.pkt.bytes.length a.pkt.port).dropCells (ownCells a.req (a.cells.getD []))) s
  let s := s.adm.waiting.foldl (fun s (p : XPkt) => gone s p.bytes.length p.src) s
  let s := s.adm.egress.foldl (fun s (p : EgrArr) =>
    ((gone s p.bytes.length 0x1FF).dropCells (ownCells 16 p.cells)).usedDown p.pg p.cls p.bytes.length) s
  let s := s.ing.pkts.foldl (fun s (p : Pkt) => gone s p.arr.bytes.length p.arr.port) s
  let s := s.arrivals.foldl (fun s (e : Nat × Arrival) => gone s e.2.bytes.length e.2.port) s
  let s := s.egr.waiting.foldl (fun s (e : EgrSlot) =>
    if e.out = some none then s else gone s e.pkt.bytes.length e.pkt.dport) s
  let s := (s.couch.fxToQx ++ s.couch.qxToFx).foldl (fun s (u : CouchUnit) =>
    match u with
    | .pipe _ (.fwd p) | .back _ (.fwd p) => gone s p.bytes.length p.src
    | .pipe _ (.host p) | .back _ (.host p) => gone s p.bytes.length p.srcPort
    | .egress _ p => gone s p.bytes.length p.dport
    | .learn _ _ _ | .write _ => s) s
  let s := s.hostQ.foldl (fun s (p : HostPkt) => (gone s p.bytes.length p.srcPort).freeHost p) s
  { s with
    replQ := [], hostQ := [], adm := { s.adm with waiting := [], egress := [] }, qsc := { s.qsc with late := [] }
    ing := { s.ing with pkts := [] }, arrivals := [], egr := { s.egr with waiting := [] }
    couch := { s.couch with
      fxToQx := s.couch.fxToQx.filter CouchUnit.notPacket, qxToFx := s.couch.qxToFx.filter CouchUnit.notPacket
      replaysF := 0, replaysQ := 0 } }

/-- The domains that PARK powers down, their registers kept (R79, R94). -/
def parked : List Nat := List.range 8 ++ (List.range 5).map domFB

/-- A domain loses power and keeps its registers; its lanes and links lose alignment. -/
def State.parkDomain (s : State) (d : Nat) : State :=
  s.watchSf (domEnts d) fun s =>
    let s := if d < 8 then
        { s with lin := { s.lin with aligned := s.lin.aligned.filter fun p => p / 32 != d } }
      else (List.range 64).foldl (fun s i => s.linkReset (64 * (d - 21) + i)) s
    s.markPower d false

/-- PARK (R94), in its order. -/
def State.park (s : State) : State :=
  let s := s.enterPhase .park
  let s := s.dropAll
  let s := { s with gen := { s.gen with selfRefresh := true } }
  (parked.foldl State.parkDomain s).domainsSettled

/-- A phase request is heard: its requester may make it, and none is in progress. -/
def State.phaseReq (s : State) (req : Req) (ok : Bool) (f : State → State) : State :=
  if !s.mayReset req then s
  else if s.gen.reqBusy || s.gen.warmBusy || !ok then s.phaseReject
  else f s

/-- PHASE_REQ_PARK: from RUN. -/
def phaseReqPark (req : Req) (s : State) : State := s.phaseReq req (s.gen.phase == .run) State.park

/-- Back from PARK: INIT with everything retained; the line and fabric domains power up and train, DRAM leaves
self-refresh (R95, spec/13_memory.md R407). -/
def State.unpark (s : State) : State :=
  let s := { s with gen := { s.gen with reqBusy := true, retain := true, ready := s.gen.ready &&& ~~~0x001FF000 } }
  let s := parked.foldl (fun s d => s.watchSf (domEnts d) fun s => (s.markPower d true).leftReset d) s
  (s.enterPhase .init).domainsSettled

/-- Back from ISOLATE: every domain but HP, ML and TM is cold-reset first (R97). -/
def State.unisolate (s : State) : State :=
  let s := { s with gen := { s.gen with reqBusy := true, retain := false, selfRefresh := false } }
  let s := datapath.foldl (fun s d => s.enterReset d false) s
  (s.datapathOn.enterPhase .init).domainsSettled

/-- PHASE_REQ_RUN: from PARK, or from ISOLATE unless a thermal trip led there (R81, R95, R97). -/
def phaseReqRun (req : Req) (s : State) : State :=
  let iso := s.gen.phase == .isolate
  s.phaseReq req (s.gen.phase == .park || (iso && s.gen.isoCause != 1)) fun s => if iso then s.unisolate else s.unpark

/-- PHASE_REQ_ISOLATE: cause 0x04 (R81, R96, R99). -/
def phaseReqIsolate (req : Req) (s : State) : State :=
  s.phaseReq req s.gen.phase.mayIsolate fun s => (s.enterIsolate 4).protJudge

/-! ## Warm QX restart, R91 to R93 -/

/-- WARM_QX: INIT, DRAM in self-refresh, QC and QB reset and released with their configuration kept. -/
def warmQx (req : Req) (key : BitVec 16) (s : State) : State :=
  if !s.mayReset req then s
  else if key != resetKey then s.violation .gen 0
  else if s.gen.phase != .run || s.gen.warmBusy || s.gen.reqBusy then s.phaseReject
  else
    let s := s.enterPhase .init
    let s := s.logReset 0
    let s := { s with gen := { s.gen with warmBusy := true, selfRefresh := true, retain := true } }
    let s := s.wipeQc.warmRegs domQC
    let s := if s.held domQC then s else s.qcOut
    let ready := s.gen.ready &&& ~~~0x00000C00
    ({ s with gen := { s.gen with ready := ready } }).domainsSettled

/-- WARM_QX_COMPLETE: QC and QB, unless HOLD keeps them in reset, are READY, the couch link is UP, channels have left
self-refresh and are retrained, but for those that `fails` names (spec/13_memory.md R407): PHASE is RUN, and WARM_QX is
set (R91, R102, R104). -/
def warmQxComplete (fails : BitVec 144) (s : State) : State :=
  if !s.gen.warmBusy then s
  else
    let ready := [domQC, domQB].foldl (fun b d => if s.domUp d then putDomain b d true else b) s.gen.ready
    let s := s.leaveSelfRefresh fails
    let s := { s with
      gen := { s.gen with ready := ready, retain := false }
      couch := { s.couch with st := if ready.getLsbD domFC && ready.getLsbD domQC then .up else .training } }
    (s.enterRun).set GEN_RESET_CAUSE_WARM_QX ix0 1

end Sys2Proof.Machine
end

