-- ==== Sys2Proof/Machine/Control.lean ====
section
/-!
DEFINITION. Machine/Control.lean: the Mill's commands that act on the module through its registers: health, self-test,
phase, domains, reset, sparing, partition (spec/19_mill.md R575, R576).
-/
namespace Sys2Proof.Machine

open Fld

/-- A register that the Mill reads for a command; all ones where it cannot be reached, recorded (spec/01_architecture.md
R42). -/
def State.millRead (s : State) (r : Reg) (ix : Ix) : State × Nat :=
  let d := regDomain r ix.inst
  if s.domUp d then (s, (s.rd r ix).toNat)
  else (s.offline .mill (regAddr r ix) d false false, allOnes.toNat)

/-- HEALTH (R575). -/
def health (src : MillSrc) (s : State) : State :=
  s.runCmd src 0x0030 anyReq 0x30 fun _ s =>
    let (s, own) := s.millRead .prtHealth ix0
    let (s, mate) := s.millRead .prtMateHealth ix0
    let (s, dbl) := s.millRead .bpmDoubleFree ix0
    let (s, fgn) := s.millRead .bpmForeignFree ix0
    let worn := s.flag MIL_INT_STATUS_TAG_WORN ix0 || 100000 ≤ s.mil.flash.tagWrites
    (.ok (leBytes 8 own ++ leBytes 8 mate ++ (List.range 9).flatMap (fun n => leBytes 1 (s.spareState n)) ++ zeros 7
      ++ leBytes 2 s.mil.lockstep ++ leBytes 2 s.mil.watchdog ++ leBytes 4 s.mil.sramCe
      ++ leBytes 1 (ofBool (dbl % 2 ^ 48 != 0) + ofBool (fgn % 2 ^ 48 != 0) * 2)
      ++ leBytes 1 (ofBool s.mil.fallback + ofBool s.mil.sensorFail * 2 + ofBool worn * 4)
      ++ leBytes 2 (i16 s.mil.tempMax) ++ leBytes 4 s.mil.flash.tagWrites), s)

/-- SELFTEST: slices take the slot and test path of R555; `failed` are those that fail (R576). -/
def selftest (src : MillSrc) (failed : BitVec 16) (s : State) : State :=
  s.runCmd src 0x0031 anyReq 2 fun b s =>
    let mask := blkField b 0x10 2
    let slices := onesUpTo 16 mask
    if s.gen.phase != .run then (.denied 2, s)
    else if slices.any (fun k => (s.cmp k).test.isSome) then (.denied 3, s)
    else
      (.ok (leBytes 2 (slices.foldl (fun a k => a + ofBool (!failed.getLsbD k) * 2 ^ k) 0)),
        slices.foldl (fun s k => s.healthTo PRT_HEALTH_SLICE_FAIL k (failed.getLsbD k)) s)

/-- PHASE: a request through GEN_PHASE_CTRL (R576). A REQ that GEN_PHASE_CTRL gives no effect (R100) has none. -/
def phase (src : MillSrc) (s : State) : State :=
  s.runCmd src 0x0040 anyReq 1 fun b s =>
    let run (s : State) (ok : Bool) (f : State → State) : Answer × State :=
      let rej := s.gen.reqBusy || s.gen.warmBusy || !ok
      let s := f s
      if rej then (.denied 3, s) else (.ok (leBytes 1 s.gen.phase.code), s)
    match blkField b 0x10 1 % 8 with
    | 1 => run s (s.gen.phase == .run) (phaseReqPark .mill)
    | 2 => run s (s.gen.phase == .park || (s.gen.phase == .isolate && s.gen.isoCause != 1)) (phaseReqRun .mill)
    | 3 => run s s.gen.phase.mayIsolate (phaseReqIsolate .mill)
    | _ => (.ok (leBytes 1 s.gen.phase.code), s)

/-- The HOLD value that a DOMAIN command asks for. -/
def State.holdAfter (s : State) (block : List Byte) : Nat :=
  let old := s.fld GEN_DOMAIN_RESET_HOLD ix0
  (List.range 29).foldl (fun a d =>
    a + ofBool ((bitAt old d || bitAt (blkField block 0x10 4) d) && !bitAt (blkField block 0x14 4) d) * 2 ^ d) 0

/-- Whether a DOMAIN command changes the hold of ML. -/
def State.holdsMl (s : State) (v : Nat) : Bool := bitAt v 27 && !s.held domML

/-- The command that a source's next command block carries, when its opcode is `op`. -/
def State.nextBlock (s : State) (src : MillSrc) (op : Nat) : List Byte :=
  match s.mbx.slots.find? (fun (x : MillSlot) => x.src == src && !x.done && !x.abandoned && blockOpcode x.block = op) with
  | some x => x.block
  | none => []

/-- DOMAIN: a write of GEN_DOMAIN_RESET; a command that resets ML is answered first (R576). A write that R88 or R89
discards is DENIED. -/
def domain (src : MillSrc) (s : State) : State :=
  let v := s.holdAfter (s.nextBlock src 0x0041)
  let ml := s.holdsMl v
  let okPhase := s.gen.phase == .run || s.gen.phase == .isolate
  let before := s.mil.cmdReset
  let s := s.runCmd src 0x0041 anyReq 8 fun b s =>
    if bitAt (blkField b 0x10 4) 26 || bitAt (blkField b 0x14 4) 26 then (.denied 3, s)
    else if !okPhase then (.denied 2, s.holdWrite .mill v)
    else if holdRefused (s.fld GEN_DOMAIN_RESET_HOLD ix0) v then (.denied 3, s.holdWrite .mill v)
    else if ml then (.ok (leBytes 4 s.gen.ready.toNat), s.mill fun m => { m with cmdReset := before + 1 })
    else
      let s := s.holdWrite .mill v
      (.ok (leBytes 4 s.gen.ready.toNat), s)
  if s.mil.cmdReset = before then s else (millAnswer src s).holdWrite .mill v

/-- RESET: COLD or WARM_QX with the key that the Mill supplies; STATUS of a reset of the whole module is written before
it (R103, R576). -/
def reset (src : MillSrc) (s : State) : State :=
  let before := s.mil.cmdReset
  let s := s.runCmd src 0x0042 anyReq 1 fun b s =>
    let v := blkField b 0x10 1
    if bitAt v 0 then (.ok [], s.mill fun m => { m with cmdReset := before + 1 })
    else if bitAt v 1 then
      let ok := s.gen.phase == .run && !s.gen.warmBusy && !s.gen.reqBusy
      (if ok then .ok [] else .denied 3, warmQx .mill resetKey s)
    else (.ok [], s)
  if s.mil.cmdReset = before then s else Machine.cold .mill resetKey (millAnswer src s)

/-- SPARE's response: STATE and AUTO. -/
def State.spareResp (s : State) (n : Nat) : List Byte :=
  leBytes 1 (s.spareState n) ++ leBytes 1 (ofBool s.mil.flash.spareAuto)

/-- SPARE_START: OP 1 starts a sparing copy; an OP out of range is answered here (R576). -/
def spareStart (src : MillSrc) (s : State) : State :=
  s.runCmd src 0x0050 (fun b => blkField b 0x12 1 != 2) 4 fun b s =>
    let n := blkField b 0x10 1
    let ch := blkField b 0x11 1
    if blkField b 0x12 1 != 1 then (.bad 0x12, s)
    else if 8 < n then (.bad 0x10, s)
    else if 14 < ch then (.bad 0x11, s)
    else if !s.domUp (domDC n) then (⟨rcDenied, 3, s.spareResp n⟩, s)
    else
      let ok := s.spareOk n && (s.spare n).copying.isNone
      let s := (s.flushRw .ddc n).spareStart .mill n ch
      (⟨if ok then rcOk else rcDenied, if ok then 0 else 3, s.spareResp n⟩, s)

/-- SPARE_AUTO: OP 2 writes AUTO into the records (R576). -/
def spareAuto (src : MillSrc) (s : State) : State :=
  s.runCmd src 0x0050 (fun b => blkField b 0x12 1 = 2) 4 fun b s =>
    let n := blkField b 0x10 1
    let x := blkField b 0x13 1
    if 8 < n then (.bad 0x10, s)
    else if 1 < x then (.bad 0x13, s)
    else
      let s := s.mill fun m => { m with flash := { m.flash with spareAuto := x = 1 } }
      (.ok (s.spareResp n), s)

/-- PARTITION's response: OP and the record, then the sizes in force. -/
def State.partResp (s : State) (op : Nat) : List Byte :=
  let f := s.mil.flash
  leBytes 1 op ++ leBytes 1 f.partSpare ++ leBytes 2 f.partCnt ++ leBytes 2 f.partFlow ++ leBytes 2 f.partWin
    ++ (List.range 4).flatMap fun p => leBytes 2 (s.partGib p)

/-- PARTITION_READ: OP 0; an OP out of range is answered here. -/
def partitionRead (src : MillSrc) (s : State) : State :=
  s.runCmd src 0x0051 (fun b => blkField b 0x10 1 != 1) 0x10 fun b s =>
    if blkField b 0x10 1 != 0 then (.bad 0x10, s) else (.ok (s.partResp 0), s)

/-- PARTITION_WRITE: OP 1 writes the record, unless it breaks R398 (R576). -/
def partitionWrite (src : MillSrc) (s : State) : State :=
  s.runCmd src 0x0051 (fun b => blkField b 0x10 1 = 1) 0x10 fun b s =>
    let sp := blkField b 0x11 1
    let cnt := blkField b 0x12 2
    let flow := blkField b 0x14 2
    let win := blkField b 0x16 2
    let usable := (if Config.is2T then 128 else 64) * (if sp = 1 then 15 else 16)
    if 1 < sp then (.bad 0x11, s)
    else if usable < cnt + flow + win + 16 || 16 < cnt then (.denied 3, s)
    else
      let s := s.mill fun m => { m with flash := { m.flash with
        partSpare := sp, partCnt := cnt, partFlow := flow, partWin := win } }
      (.ok (s.partResp 1), s)

end Sys2Proof.Machine
end

