-- ==== Sys2Proof/Machine/EgrHdr.lean ====
section
/-!
DEFINITION. Machine/EgrHdr.lean: the header extractor of the egress pipelines and the key vector it fills
(spec/16_egress_rewrite.md R487, spec/08_parser.md R244, R245).
-/
namespace Sys2Proof.Machine

/-- The byte at an offset, and the big-endian 16-bit field there; zero beyond the end. -/
def u8 (b : List Byte) (o : Nat) : Nat := (b.getD o 0).toNat
def u16 (b : List Byte) (o : Nat) : Nat := beNat (bytesAt b o 2)

/-- EtherTypes of IPv4, IPv6, an Ethernet payload and a label stack. -/
def etIp4 : Nat := 0x0800
def etIp6 : Nat := 0x86DD
def etEther : Nat := 0x6558
def etMpls : Nat := 0x8847
def isMpls (et : Nat) : Bool := et == 0x8847 || et == 0x8848

/-- An IP header: where it starts and where what follows its extension headers starts; the protocol there; whether it
is a fragment, and the first one; options or a hop-by-hop header; its segment routing header. -/
structure IpH where
  off : Nat
  v6 : Bool
  fin : Nat
  nh : Nat
  frag : Bool
  first : Bool
  opts : Bool
  srh : Option Nat
  deriving DecidableEq, Repr

/-- The IPv6 extension headers, and the length of one. -/
def isExt (nh : Nat) : Bool := [0, 43, 44, 51, 60, 135, 139, 140].contains nh
def extLen (b : List Byte) (nh o : Nat) : Nat :=
  if nh = 44 then 8 else if nh = 51 then 4 * (u8 b (o + 1) + 2) else 8 * (u8 b (o + 1) + 1)

/-- Past the extension headers, as far as they lie in the bytes at hand. -/
def walkExt (b : List Byte) : Nat → IpH → IpH
  | 0, h => h
  | n + 1, h =>
    if isExt h.nh && h.fin + 8 ≤ b.length then
      let o := h.fin
      let frag := h.nh == 44
      walkExt b n
        { h with nh := u8 b o, fin := o + extLen b h.nh o, frag := h.frag || frag,
                 first := if frag then u16 b (o + 2) / 8 == 0 else h.first,
                 opts := h.opts || h.nh == 0,
                 srh := h.srh.or (if h.nh = 43 && u8 b (o + 2) = 4 then some o else none) }
    else h

/-- The IP header at an offset under an EtherType. -/
def ipAt (b : List Byte) (o et : Nat) : Option IpH :=
  if et = etIp4 then
    let hl := 4 * (u8 b o % 16)
    if o + 20 ≤ b.length && u8 b o / 16 = 4 && 20 ≤ hl && o + hl ≤ b.length then
      let f := u16 b (o + 6)
      some { off := o, v6 := false, fin := o + hl, nh := u8 b (o + 9), frag := f % 0x4000 != 0, first := f % 0x2000 == 0,
             opts := 20 < hl, srh := none }
    else none
  else if et = etIp6 then
    if o + 40 ≤ b.length && u8 b o / 16 = 6 then
      some (walkExt b 16 { off := o, v6 := true, fin := o + 40, nh := u8 b (o + 6), frag := false, first := true,
                           opts := false, srh := none })
    else none
  else none

/-- The EtherType that a payload's first nibble tells, where it is IP (R493). -/
def nibbleEt (b : List Byte) (o : Nat) : Option Nat :=
  if b.length ≤ o then none else if u8 b o / 16 = 4 then some etIp4 else if u8 b o / 16 = 6 then some etIp6 else none

/-- The offsets of the tag controls from offset o on, at most n, and where the EtherType after them lies. -/
def tagsAt (tpid : Nat) (b : List Byte) : Nat → Nat → List Nat × Nat
  | 0, o => ([], o)
  | n + 1, o =>
    let t := u16 b o
    if (t == 0x8100 || t == 0x88A8 || t == 0x9100 || t == tpid) && o + 6 ≤ b.length then
      let (ts, e) := tagsAt tpid b n (o + 4)
      ((o + 2) :: ts, e)
    else ([], o)

/-- The label stack from an offset, at most n labels: their offsets, where it ends, whether the bottom was reached. -/
def labelsAt (b : List Byte) : Nat → Nat → List Nat × Nat × Bool
  | 0, o => ([], o, false)
  | n + 1, o =>
    if b.length < o + 4 then ([], o, false)
    else if u8 b (o + 2) % 2 = 1 then ([o], o + 4, true)
    else
      let (ls, e, bot) := labelsAt b n (o + 4)
      (o :: ls, e, bot)

/-- The tunnels that the extractor follows (R487). -/
inductive TunKind where
  | ipip | gre | vxlan
  deriving DecidableEq, Repr

/-- A tunnel: its kind, where its payload starts, the payload's EtherType, and where a GRE key or a VNI lies. -/
structure TunH where
  kind : TunKind
  at_ : Nat
  et : Nat
  key : Option Nat
  deriving DecidableEq, Repr

/-- The tunnel that an outer IP header leads to. -/
def tunAt (b : List Byte) (ip : IpH) : Option TunH :=
  let e := ip.fin
  if !ip.first then none
  else if ip.nh = 4 then some ⟨.ipip, e, etIp4, none⟩
  else if ip.nh = 41 then some ⟨.ipip, e, etIp6, none⟩
  else if ip.nh = 47 && e + 4 ≤ b.length then
    let f := u16 b e
    let g := e + 4 + (if bitAt f 15 then 4 else 0)
    let n := g + (if bitAt f 13 then 4 else 0) + (if bitAt f 12 then 4 else 0)
    some ⟨.gre, n, u16 b (e + 2), if bitAt f 13 then some g else none⟩
  else if ip.nh = 17 && e + 16 ≤ b.length && u16 b (e + 2) = 4789 then some ⟨.vxlan, e + 16, etEther, some (e + 12)⟩
  else none

/-- What the extractor finds in a packet that begins with an Ethernet header (R487). -/
structure Ex where
  tags : List Nat
  l2 : Nat
  et : Nat
  labels : List Nat
  ip : Option IpH
  tun : Option TunH
  innerEth : Bool
  inner : Option IpH
  l4 : Option (Nat × Nat)
  deriving DecidableEq, Repr

/-- A UDP or TCP header that an IP header leads to, by offset and protocol. -/
def l4Of (b : List Byte) (ip : IpH) : Option (Nat × Nat) :=
  if ip.first && (ip.nh == 17 && ip.fin + 8 ≤ b.length || ip.nh == 6 && ip.fin + 20 ≤ b.length) then some (ip.fin, ip.nh)
  else none

/-- The inner headers behind a tunnel: whether an Ethernet header is there, and the IP header. -/
def innerOf (tpid : Nat) (b : List Byte) (t : TunH) : Bool × Option IpH :=
  if t.et = etEther then
    if b.length < t.at_ + 14 then (false, none)
    else
      let (_, e) := tagsAt tpid b 4 (t.at_ + 12)
      (true, ipAt b (e + 2) (u16 b e))
  else (false, ipAt b t.at_ t.et)

/-- The extractor over the first 128 bytes (R487). -/
def extract (tpid : Nat) (pkt : List Byte) : Ex :=
  let b := pkt.take 128
  if b.length < 14 then ⟨[], 0, 0, [], none, none, false, none, none⟩
  else
    let (tags, e) := tagsAt tpid b 4 12
    let et := u16 b e
    let l2 := e + 2
    let (labels, at_, bot) := if isMpls et then labelsAt b 16 l2 else ([], l2, true)
    let low := if isMpls et then (if bot then (nibbleEt b at_).getD 0 else 0) else et
    let ip := ipAt b at_ low
    let tun := ip.bind (tunAt b)
    let (ie, inner) := match tun with
      | some t => innerOf tpid b t
      | none => (false, none)
    ⟨tags, l2, et, labels, ip, tun, ie, inner, (ip.bind (l4Of b)).or (inner.bind (l4Of b))⟩

/-- The IEEE 1588 message of a packet outside any tunnel or label stack: its offset, and its UDP header (R244, R505). -/
def Ex.ptp (x : Ex) (b : List Byte) : Option (Nat × Option Nat) :=
  if !x.labels.isEmpty || x.tun.isSome then none
  else if x.et = 0x88F7 && x.l2 != 0 then some (x.l2, none)
  else
    match x.l4 with
    | some (o, 17) => if u16 b (o + 2) = 319 || u16 b (o + 2) = 320 then some (o + 8, some o) else none
    | _ => none

/-- FLAGS of R244. -/
def Ex.flags (x : Ex) (b : List Byte) : Nat :=
  let ips := x.ip.toList ++ x.inner.toList
  let put := fun (c : Bool) (i : Nat) => ofBool c * 2 ^ i
  put (1 ≤ x.tags.length) 0 + put (2 ≤ x.tags.length) 1 + put (!x.labels.isEmpty) 2
    + put (x.ip.any (!·.v6)) 3 + put (x.ip.any (·.v6)) 4 + put (x.inner.any (!·.v6)) 5 + put (x.inner.any (·.v6)) 6
    + put (ips.any (·.frag)) 7 + put (ips.any fun (h : IpH) => h.frag && h.first) 8 + put (ips.any (·.opts)) 9
    + put (ips.any fun (h : IpH) => h.srh.isSome) 10 + put x.tun.isSome 11 + put x.innerEth 12 + put x.l4.isSome 13
    + put (x.ptp b).isSome 14 + put (x.l2 != 0 && beNat (bytesAt b 0 6) / 16 == 0x0180C200000) 15

/-- Fields written into a vector at offsets. -/
def fillAt (v : List Byte) (fs : List (Nat × List Byte)) : List Byte := fs.foldl (fun v f => overwrite v f.1 f.2) v

/-- The key vector of R487 for a packet. -/
def keyVec (tpid : Nat) (pkt : List Byte) : List Byte :=
  let b := pkt.take 128
  let x := extract tpid pkt
  if x.l2 = 0 then zeros 128
  else
    let tag := fun (i : Nat) => match x.tags[i]? with
      | some o => bytesAt b o 2
      | none => [0, 0]
    let v := fillAt (zeros 128) [(0, bytesAt b 0 12), (12, tag 0), (14, tag 1), (16, bytesAt b (x.l2 - 2) 2),
      (18, (x.labels.take 3).flatMap fun o => bytesAt b o 4), (30, beBytes 2 (x.flags b))]
    let v := match x.labels.getLast? with
      | some o => overwrite v 116 (bytesAt b o 4)
      | none => v
    let v := match x.ip with
      | none => v
      | some h =>
        let o := h.off
        if h.v6 then
          fillAt v [(32, bytesAt b (o + 8) 32), (64, bytesAt b (o + 6) 1), (65, beBytes 1 (u16 b o / 16 % 256)),
            (66, bytesAt b (o + 7) 1), (73, beBytes 3 (beNat (bytesAt b o 4) % 2 ^ 20))]
        else
          fillAt v [(44, bytesAt b (o + 12) 4), (60, bytesAt b (o + 16) 4), (64, bytesAt b (o + 9) 1),
            (65, bytesAt b (o + 1) 1), (66, bytesAt b (o + 8) 1)]
    let v := match x.l4 with
      | none => v
      | some (o, p) =>
        fillAt v [(67, beBytes 1 p), (68, bytesAt b o 4), (72, if p = 6 then bytesAt b (o + 13) 1 else [0])]
    match x.tun with
    | some ⟨.gre, _, _, some k⟩ => overwrite v 76 (bytesAt b k 4)
    | some ⟨.vxlan, _, _, some k⟩ => overwrite v 77 (bytesAt b k 3)
    | _ => v

end Sys2Proof.Machine
end

