-- ==== Sys2Proof/Machine/Asa.lean ====
section
/-!
DEFINITION. Machine/Asa.lean: the associative search arrays: banks, packet searches, host searches and relocation
(spec/10_associative_search.md R295 to R327).
-/
namespace Sys2Proof.Machine

open Fld

/-! ## Banks, R296 to R298 -/

/-- Whether bank k runs. -/
def State.bankRuns (s : State) (k : Nat) : Bool := s.flag ASA_BANK_CFG_RUN (ixI k)

/-- The running banks of a group. -/
def State.groupBanks (s : State) (g : Nat) : List Nat :=
  (List.range 128).filter fun k => s.bankRuns k && s.fld ASA_BANK_CFG_GROUP (ixI k) == g

/-- A group's width code: that of its running banks (R298). -/
def State.groupWidth (s : State) (g : Nat) : Option Nat := (s.groupBanks g).head?.map fun k => s.fld ASA_BANK_CFG_WIDTH (ixI k)

/-- ENTRIES of a bank (R325). -/
def State.bankEntries (s : State) (k : Nat) : Nat :=
  (s.asa.ents.filter fun (e : AsaEnt) => e.loc / 8192 == k && tagVisible s.nextTag e.born e.retired s.newTag).length

/-- HELD of a bank: slots of retired entries and relocated originals (R325). -/
def State.bankHeld (s : State) (k : Nat) : Nat :=
  s.asa.ents.foldl (fun a (e : AsaEnt) =>
    if e.loc / 8192 = k && !tagVisible s.nextTag e.born e.retired s.newTag then a + asaUnits e.width else a) 0

/-- DIS_ROWS of a bank (R325). -/
def State.bankDisRows (s : State) (k : Nat) : Nat := (s.asa.disRows.filter fun r => r / 4096 == k).length

/-- Whether the ream being staged will write into a bank. -/
def State.bankStaged (s : State) (k : Nat) : Bool :=
  s.cmt.edits.any fun (e : Edit) =>
    match e with
    | .asaPut x => x.loc / 8192 == k || x.idx / 8192 == k
    | .asaMove _ dst => dst / 8192 == k
    | _ => false

/-- ASA_BANK_CFG written (R10, R297, R298). -/
def State.bankWrite (s : State) (req : Req) (k : Nat) (v : W64) : State :=
  let x := ixI k
  let s := s.flushRw .asa 0
  let run := ASA_BANK_CFG_RUN.get v != 0
  let w := ASA_BANK_CFG_WIDTH.get v
  let g := ASA_BANK_CFG_GROUP.get v
  if s.bankRuns k then
    if !run && (s.bankEntries k != 0 || s.bankHeld k != 0) then s.violation .asa 0
    else
      let s := s.ownWrite req .asaBankCfg x v ASA_BANK_CFG_RUN.mask
      (s.set ASA_BANK_CFG_RUN x (ofBool run)).set ASA_BANK_CFG_STOPPED x (ofBool (!run))
  else if w != s.fld ASA_BANK_CFG_WIDTH x && (s.bankEntries k != 0 || s.bankHeld k != 0 || s.bankStaged k) then
    s.violation .asa 0
  else if run && (s.groupBanks g).any (fun j => s.fld ASA_BANK_CFG_WIDTH (ixI j) != w) then s.violation .asa 0
  else
    let s := s.ownWrite req .asaBankCfg x v ASA_BANK_CFG_RUN.mask
    (s.set ASA_BANK_CFG_RUN x (ofBool run)).set ASA_BANK_CFG_STOPPED x (ofBool (!run))

/-- ASA_BANK_RUN. -/
def asaBankRun (req : Req) (k : Fin 128) (v : W64) (s : State) : State := s.bankWrite req k.val (v ||| ASA_BANK_CFG_RUN.mask)

/-- ASA_BANK_STOP. -/
def asaBankStop (req : Req) (k : Fin 128) (v : W64) (s : State) : State :=
  s.bankWrite req k.val (v &&& ~~~ASA_BANK_CFG_RUN.mask)

/-! ## Matching, R299, R303 to R305 -/

/-- The searched value of a key for a width: byte 0 most significant, zero-padded or truncated (R255, R299). -/
def asaKey (w : Nat) (key : List Byte) : Nat := beNat (bytesAt key 0 (asaBits w / 8))

/-- Whether a key matches an entry, but for its tags (R303). -/
def State.asaHits (s : State) (g : Nat) (key : List Byte) (e : AsaEnt) : Bool :=
  e.valid && !e.off && !s.asa.rowsOff e && s.bankRuns (e.loc / 8192) && s.fld ASA_BANK_CFG_GROUP (ixI (e.loc / 8192)) == g
    && s.fld ASA_BANK_CFG_WIDTH (ixI (e.loc / 8192)) == e.width && ((asaKey e.width key ^^^ e.value) &&& e.mask) == 0

/-- The winning order: higher priority first, then lower index (R304). -/
def asaBefore (a b : AsaEnt) : Bool := b.prio < a.prio || (a.prio == b.prio && a.idx < b.idx)

/-- An entry in its place among entries in winning order. -/
def asaInsert (e : AsaEnt) : List AsaEnt → List AsaEnt
  | [] => [e]
  | x :: t => if asaBefore e x then e :: x :: t else x :: asaInsert e t

/-- Entries in winning order. -/
def asaSort (es : List AsaEnt) : List AsaEnt := es.foldr asaInsert []

/-- Whether the best match ties on priority (R304). -/
def asaTies : List AsaEnt → Bool
  | a :: b :: _ => a.prio == b.prio
  | _ => false

/-- A packet's search of a group under its tag (R303 to R305, R318, R319). -/
def State.asaLookup (s : State) (g : Nat) (key : List Byte) (tag : Nat) (upset : List TableWord) : State × LkRes :=
  if (s.groupBanks g).isEmpty then (s, .miss)
  else if s.flag ASA_GROUP_CFG_ERR_MODE (ixI g) && (s.groupBanks g).any (fun k => s.bankDisRows k != 0) then
    (s.raise ASA_INT_STATUS_TABLE_ERR, .groupError)
  else
    let ms := asaSort (s.asa.ents.filter fun (e : AsaEnt) =>
      tagVisible s.nextTag e.born e.retired tag && s.asaHits g key e)
    let s := if 2 ≤ ms.length then s.count ASA_GRP_MULTI_COUNT (ixI g) 1 else s
    let s := if asaTies ms then s.count ASA_GRP_EQPRI_COUNT (ixI g) 1 else s
    match ms with
    | [] => (s, .miss)
    | e :: _ =>
      if e.bad || upset.contains (.ctl (BitVec.ofNat 20 e.loc)) then
        ((s.badCtl e false).raise ASA_INT_STATUS_TABLE_ERR, .tableError)
      else (s, .asa e.act0.toNat e.act1.toNat)

/-! ## Host searches, R309 to R313 -/

/-- STATE of a search context (R326). -/
def srchIdle : Nat := 0
def srchBusy : Nat := 1
def srchActive : Nat := 2
def srchDone : Nat := 3
def srchExpired : Nat := 4

/-- A context beyond its registers. -/
def State.actx (s : State) (c : Nat) : AsaCtx := tblGet ⟨[], 0, none⟩ s.asa.ctxs c

/-- The same, set. -/
def State.setActx (s : State) (c : Nat) (x : AsaCtx) : State := { s with asa := { s.asa with ctxs := tblPut c x s.asa.ctxs } }

/-- A context's state. -/
def State.srchState (s : State) (c : Nat) : Nat := s.fld ASA_SRCH_STATUS_STATE (ixI c)

/-- A context lets go of its pin and takes a state. -/
def State.srchLeave (s : State) (c st : Nat) : State :=
  (s.setActx c { s.actx c with pin := none }).set ASA_SRCH_STATUS_STATE (ixI c) st

/-- The key that a context's registers hold (R326). -/
def State.srchKey (s : State) (c : Nat) : List Byte :=
  (List.range 10).flatMap fun w => beBytes 8 (s.rd .asaSrchKey (ixIJ c w)).toNat

/-- START: the key and the group are latched, the newest committed ream pinned, GEN counted, the position set to FIRST,
and the first step begins (R309). -/
def State.srchStart (s : State) (c : Nat) : State :=
  let x := ixI c
  let s := s.setActx c ⟨s.srchKey c, s.fld ASA_SRCH_CMD_GROUP x, some s.cmt.newest⟩
  let s := s.set ASA_SRCH_TOKEN0_REAM x s.cmt.newest
  let s := s.set ASA_SRCH_TOKEN0_GEN x ((s.fld ASA_SRCH_TOKEN0_GEN x + 1) % 256)
  let s := (s.set ASA_SRCH_TOKEN1_FIRST x 1).set ASA_SRCH_STATUS_ROW_LOST x 0
  s.set ASA_SRCH_STATUS_STATE x srchBusy

/-- START of a search context. -/
def start (req : Req) (c : Fin 4) (v : W64) (s : State) : State :=
  let s := s.ownWrite req .asaSrchCmd (ixI c.val) v 0
  if s.srchState c.val = srchBusy then s.violation .asa 0 else s.srchStart c.val

/-- NEXT of a search context: begins the next step while ACTIVE (R310, R313). -/
def next (req : Req) (c : Fin 4) (v : W64) (s : State) : State :=
  let s := s.ownWrite req .asaSrchCmd (ixI c.val) v 0
  if s.srchState c.val = srchActive then s.set ASA_SRCH_STATUS_STATE (ixI c.val) srchBusy else s.violation .asa 0

/-- END of a search context: releases its pin (R310, R313). -/
def srchEnd (req : Req) (c : Fin 4) (v : W64) (s : State) : State :=
  let s := s.ownWrite req .asaSrchCmd (ixI c.val) v 0
  if s.srchState c.val = srchBusy then s.violation .asa 0 else s.srchLeave c.val srchIdle

/-- The copy of a relocated original. -/
def State.copyOf (s : State) (e : AsaEnt) : Option AsaEnt :=
  s.asa.ents.find? fun (x : AsaEnt) => x.shadow && x.idx == e.link && x.link == e.idx

/-- An entry as a step-through pinned with tag p sees it: a copy never, an original in place of its copy and with its
copy's action words (R311). -/
def State.seenAs (s : State) (p : Nat) (e : AsaEnt) : Option AsaEnt :=
  let own := tagVisible s.nextTag e.born e.retired p
  if e.shadow then none
  else if e.reloc then
    match s.copyOf e with
    | none => if own then some e else none
    | some y =>
      if y.bad && s.asa.rowsOff y then none
      else if own || tagVisible s.nextTag y.born y.retired p then some { e with act0 := y.act0, act1 := y.act1 } else none
  else if own then some e else none

/-- The whole matching set of a context under its pin, in winning order (R310, R311). -/
def State.srchSet (s : State) (c pin : Nat) : List AsaEnt :=
  let x := s.actx c
  asaSort ((s.asa.ents.filter (s.asaHits x.group x.key)).filterMap (s.seenAs (pin % 16)))

/-- The stored entries whose control and action words a step reads for an entry: its own, and the copy's that a
relocated original is reported with (R311, R318). -/
def State.wordsRead (s : State) (e : AsaEnt) : List AsaEnt :=
  e :: (if e.reloc then (s.copyOf e).toList else [])

/-- The first of these entries whose words are good; the bad ones before it are skipped and their rows disabled
(R318). -/
def srchPick (c : Nat) (upset : List TableWord) : List AsaEnt → State → State × Option AsaEnt
  | [], s => (s, none)
  | e :: t, s =>
    match (s.wordsRead e).filter fun (x : AsaEnt) => x.bad || upset.contains (.ctl (BitVec.ofNat 20 x.loc)) with
    | [] => (s, some e)
    | x :: xs =>
      srchPick c upset t
        (((x :: xs).foldl (fun s (x : AsaEnt) => s.badCtl x false) s).set ASA_SRCH_STATUS_ROW_LOST (ixI c) 1)

/-- Whether an entry lies after the position in TOKEN1 (R310). -/
def State.afterToken (s : State) (c : Nat) (e : AsaEnt) : Bool :=
  let x := ixI c
  let p := s.fld ASA_SRCH_TOKEN1_PRIO x
  s.flag ASA_SRCH_TOKEN1_FIRST x || e.prio < p || (e.prio == p && s.fld ASA_SRCH_TOKEN1_INDEX x < e.idx)

/-- What a step writes for the entry it returns (R310). -/
def State.srchFound (s : State) (c : Nat) (e : AsaEnt) : State :=
  let x := ixI c
  let s := ((s.set ASA_SRCH_RESULT_PRIO x e.prio).set ASA_SRCH_RESULT_INDEX x e.idx).set ASA_SRCH_ACT0_ACT x e.act0.toNat
  let s := (s.set ASA_SRCH_ACT1_ACT x e.act1.toNat).set ASA_SRCH_TOKEN1_PRIO x e.prio
  let s := (s.set ASA_SRCH_TOKEN1_INDEX x e.idx).set ASA_SRCH_TOKEN1_FIRST x 0
  (s.set ASA_SRCH_STATUS_FOUND x 1).set ASA_SRCH_STATUS_STATE x srchActive

/-- ASA_SEARCH_STEP: the step under way completes (R310, R311, R318). -/
def asaSearchStep (c : Fin 4) (upset : List TableWord) (s : State) : State :=
  let c := c.val
  match (s.actx c).pin with
  | none => s
  | some pin =>
    if s.srchState c != srchBusy then s
    else
      let all := s.srchSet c pin
      let x := ixI c
      let s := (s.set ASA_SRCH_STATUS_COUNT x (min 15 all.length)).set ASA_SRCH_STATUS_MULTI x (ofBool (2 ≤ all.length))
      let s := s.set ASA_SRCH_STATUS_EQPRI x (ofBool (asaTies all))
      match srchPick c upset (all.filter (s.afterToken c)) s with
      | (s, some e) => s.srchFound c e
      | (s, none) => (s.set ASA_SRCH_STATUS_FOUND x 0).srchLeave c srchDone

/-- Whether something waits on a context: a commit on its pinned ream, which is then the oldest undrained one, or a
relocated original (R312, R315). -/
def State.pinWanted (s : State) (c : Nat) : Bool :=
  (s.cmt.wait.any (fun (w : CommitWait) => w.ended.isNone) && (s.actx c).pin == s.cmt.undrained.head?)
    || s.asa.ents.any (fun (e : AsaEnt) => e.reloc)

/-- ASA_PIN_EXPIRY: PIN_TIMEOUT after the pin was taken, when something waits on it (R312). -/
def asaPinExpiry (c : Fin 4) (s : State) : State :=
  if (s.actx c.val).pin.isSome && s.pinWanted c.val then
    (s.srchLeave c.val srchExpired).raise ASA_INT_STATUS_PIN_EXPIRED
  else s

/-! ## Relocation, R315 -/

/-- Whether every ream before the one with this tag has drained: none of them is undrained (R345). -/
def State.drainedBefore (s : State) (tag : Nat) : Bool :=
  match s.cmt.undrained with
  | [] => true
  | r :: rest => r % 16 == tag || !rest.any (fun x => x % 16 == tag)

/-- Of these reams, those of which a relocated original still waits to be freed (R315, R345). -/
def halfSettled (es : List AsaEnt) (rs : List Nat) : List Nat :=
  rs.filter fun r => es.any fun (e : AsaEnt) => e.reloc && e.retired == r % 16

/-- Reams whose last relocated original has gone have settled; after a reset of FC, new reams start once all have
(R348). -/
def State.halfDone (s : State) : State :=
  let half := halfSettled s.asa.ents s.cmt.half
  ({ s with cmt := { s.cmt with half := half, hold := s.cmt.hold && !(s.cmt.unsettled.isEmpty && half.isEmpty) } }).waitEnds

/-- ASA_ORIGINAL_FREE: an original with RELOC 1 is freed, and its copy's SHADOW and LINK clear, once no packet stamped
before the move's ream remains and no context is ACTIVE or BUSY (R315). -/
def asaOriginalFree (u : BitVec 20) (s : State) : State :=
  match s.asa.ents.find? fun (e : AsaEnt) => e.loc == u.toNat && e.reloc with
  | none => s
  | some e =>
    if !s.drainedBefore e.retired || (List.range 4).any (fun c => s.srchState c = srchBusy || s.srchState c = srchActive)
    then s
    else
      let rest := s.asa.ents.filter fun (x : AsaEnt) => !(x.loc == e.loc && x.reloc)
      let rest := rest.map fun (x : AsaEnt) =>
        if x.shadow && x.idx == e.link && x.link == e.idx then { x with shadow := false, link := 0 } else x
      ({ s with asa := { s.asa with ents := rest } }).halfDone

end Sys2Proof.Machine
end

