-- ==== Sys2Proof/Machine/Lookup.lean ====
section
/-!
DEFINITION. Machine/Lookup.lean: key build, lookups, the forwarding decision, learning, aging and flushes
(spec/09_lookup.md R252 to R282, spec/10_associative_search.md R307).
-/
namespace Sys2Proof.Machine

open Fld

/-! ## Results, R257 -/

/-- RTYPE and INDEX of a result. -/
def resType (r : Nat) : Nat := bitsOf r 21 3
def resIndex (r : Nat) : Nat := bitsOf r 0 21

/-- A DROP result. -/
def resDrop (cause : Nat) : Nat := 3 * 2 ^ 21 + cause

/-- RTYPE 7, and CONTEXT where only an exact match may give it, act as DROP with cause NO_ROUTE (R257). -/
def normRes (em : Bool) (r : Nat) : Nat :=
  if resType r = 7 || (resType r = 5 && !em) then resDrop causeNoRoute else r

/-! ## Keys, R252 to R256 -/

/-- A profile's descriptor word, and its control word (R254). -/
def profWord (prof i : Nat) : Nat := bitsOf prof (64 * i) 64
def profCtl (prof : Nat) : Nat := profWord prof 6

/-- The bytes of a segment of a descriptor (R254). -/
def segBytes (kv mv : List Byte) (seg : Nat) : List Byte :=
  let n := bitsOf seg 9 5
  match bitsOf seg 0 2 with
  | 0 => bytesAt kv (bitsOf seg 2 7) n
  | 1 => bytesAt mv (bitsOf seg 2 7) n
  | _ => zeros n

/-- The concatenation of a descriptor's used segments. -/
def keyBytes (kv mv : List Byte) (w : Nat) : List Byte :=
  (List.range 4).flatMap fun i => segBytes kv mv (bitsOf w (8 + 14 * i) 14)

/-- The lookup that a descriptor issues, with its key cut to its target (R254, R255); none for TARGET 0 and 4 to 7. -/
def descReq (kv mv : List Byte) (d w : Nat) : Option LkReq :=
  let t := bitsOf w 0 3
  let par := bitsOf w 3 4
  let cat := keyBytes kv mv w
  let fwd := bitAt w 7
  if t = 1 then some ⟨d, 1, par, fwd, bytesAt cat 0 (kindKeyLen par)⟩
  else if t = 2 then
    let v6 := par = 1
    some ⟨d, 2, ofBool v6, fwd, bytesAt mv 0 2 ++ bytesAt cat 0 (if v6 then 16 else 4)⟩
  else if t = 3 then some ⟨d, 3, par, fwd, bytesAt cat 0 80⟩
  else none

/-- The lookups of descriptors `ds`, each from its profile, with at most `n` searches of the ASA (R299). -/
def descReqs (kv mv : List Byte) (prof : Nat) : List Nat → Nat → List LkReq
  | [], _ => []
  | d :: t, n =>
    match descReq kv mv d (profWord prof d) with
    | none => descReqs kv mv prof t n
    | some r =>
      if r.target = 3 then (if n = 0 then descReqs kv mv prof t 0 else r :: descReqs kv mv prof t (n - 1))
      else r :: descReqs kv mv prof t n

/-- The metadata vector at key build (R252). -/
def State.mvOf (s : State) (p : Pkt) (prof : Nat) : List Byte :=
  let x := ixI p.arr.port
  beBytes 2 (s.fld LKP_PORT_VRF x) ++ beBytes 2 (s.fld LKP_PORT_BD x) ++ beBytes 2 p.arr.port ++ beBytes 8 p.status
    ++ beBytes 1 prof ++ beBytes 1 (s.fld LKP_PORT_PSET x) ++ zeros 16

/-- A read of an entry for a packet: its image, and whether a bad word was met, which is logged (R268, R283). -/
def State.readPkt (s : State) (t i tag : Nat) : State × Nat × Bool :=
  match s.verAt (tkey t i) tag with
  | none => (s, 0, false)
  | some v => if v.bad then (s.logBad t i false, 0, true) else (s, v.img, false)

/-- A profile as a packet uses it: all zeros where it is not visible or not VALID (R254). -/
def State.readProf (s : State) (n tag : Nat) : State × Nat × Bool :=
  let (s, img, bad) := s.readPkt tProfile n tag
  (s, if bitAt (profCtl img) 0 then img else 0, bad)

/-- The packet of a pipeline that key build or the lookups work for. -/
def ofPipe (pipe : Nat) (p : Pkt) : Bool := 4 * p.slice + p.pipe == pipe

/-- The CONTEXT results of phase A (R256): VRF, BD and NEXT_PROF, descriptor 1's standing over descriptor 0's. -/
def contextOf (ans : List LkAns) : Option Nat × Option Nat × Nat :=
  [0, 1].foldl (fun (acc : Option Nat × Option Nat × Nat) d =>
    match ans.find? (fun (a : LkAns) => a.d == d) with
    | some ⟨_, _, .hit r data _⟩ =>
      if resType r = 5 then
        let v := bitsOf data 0 16
        let np := bitsOf data 17 7
        (if bitAt data 16 then acc.1 else some v, if bitAt data 16 then some v else acc.2.1, if np = 0 then acc.2.2 else np)
      else acc
    | _ => acc) (none, none, 0)

/-- Phase A is answered: its CONTEXT results act, and phase B is issued (R256). -/
def State.issueB (s : State) (pipe : Nat) : State :=
  let q := fun (p : Pkt) => ofPipe pipe p && p.stage == .lookups && p.open_.isEmpty && !p.phaseB
  match s.ing.pkts.find? q with
  | none => s
  | some p =>
    let (vrf, bd, np) := contextOf p.ans
    let mv := match vrf with
      | some v => overwrite p.mv 0 (beBytes 2 v)
      | none => p.mv
    let mv := match bd with
      | some v => overwrite mv 2 (beBytes 2 v)
      | none => mv
    let mv := if np = 0 then mv else overwrite mv 14 (beBytes 1 np)
    let (s, prof, bad) := if np = 0 then (s, p.prof, false) else s.readProf np (p.ream % 16)
    let used := ([0, 1].filter fun d => bitsOf (profWord p.prof d) 0 3 == 3).length
    let reqs := if bad || p.bad then [] else descReqs p.eng.kv mv prof [2, 3, 4, 5] (2 - used)
    s.modPkt q (fun p => { p with mv := mv, profB := prof, phaseB := true, bad := p.bad || bad, open_ := reqs })

/-- KEY_BUILD: for the oldest packet of a pipeline with parse results, the metadata vector is formed, the profile chosen
and phase A issued (R252 to R256). -/
def keyBuild (pipe : Fin 64) (upset : List TableWord) (s : State) : State :=
  let q := fun (p : Pkt) => ofPipe pipe.val p && p.stage == .parsed
  match s.ing.pkts.find? q with
  | none => s
  | some p =>
    let s := s.upsets upset
    let tag := p.ream % 16
    let pset := s.fld LKP_PORT_PSET (ixI p.arr.port)
    let (s, sel, bad1) := s.readPkt tProfSel (256 * pset + bitsOf p.status 0 8) tag
    let n := if bitAt sel 8 then bitsOf sel 0 8 else 0
    let (s, prof, bad2) := s.readProf n tag
    let bad := bad1 || bad2
    let mv := s.mvOf p n
    let reqs := if bad then [] else descReqs p.eng.kv mv prof [0, 1] 2
    let s := s.modPkt q (fun p => { p with stage := .lookups, mv := mv, prof := prof, profB := prof, bad := bad, open_ := reqs })
    s.issueB pipe.val

/-- The oldest packet of a pipeline for which descriptor d has a lookup of this target out. -/
def awaits (pipe d target : Nat) (p : Pkt) : Bool :=
  ofPipe pipe p && p.stage == .lookups && p.open_.any fun (r : LkReq) => r.d == d && r.target == target

/-- A lookup is answered; with the last of phase A, phase B is issued. -/
def State.answer (s : State) (pipe d target : Nat) (fwd : Bool) (res : LkRes) : State :=
  (s.modPkt (awaits pipe d target) (fun p =>
    { p with open_ := p.open_.filter (fun (r : LkReq) => r.d != d), ans := p.ans ++ [⟨d, fwd, res⟩] })).issueB pipe

/-- Cycles for which a full bank queue held a pipeline (R251). -/
def State.stalls (s : State) (n : Nat) : State :=
  if n = 0 then s else (s.count LKP_XBAR_STALL_COUNT ix0 n).raise LKP_INT_STATUS_XBAR_STALL

/-! ## Exact match and learn requests, R262, R276, R277, R283 -/

/-- An exact-match lookup under a tag (R262, R283): what it finds, and where. -/
def State.emLookup (s : State) (kind key tag : Nat) : LkRes × Option (Nat × EmSlot) :=
  match s.emFind kind key tag with
  | some (i, .entry k q r d l h b t) => (.hit (normRes true r) d l, some (i, .entry k q r d l h b t))
  | some (_, .poison _) => (.miss, none)
  | none => (if kind != 1 && s.poisoned kind key then .tableError else .miss, none)

/-- Upsets in the slots that an exact-match lookup reads (R283). -/
def State.emUpsets (s : State) (kind key : Nat) (ws : List TableWord) : State :=
  ws.foldl (fun s w =>
    match w with
    | .slot i => if emReads kind key i.toNat && i.toNat < poolSlots + stashSlots then s.badSlot i.toNat false false else s
    | _ => s) s

/-- RESULT PORT of a source port of this module (R276). -/
def State.portResult (s : State) (port : Nat) : Nat := s.ownId * 512 + port

/-- Whether a packet may raise a learn request by this lookup, apart from its bridge domain (R276). -/
def State.mayLearn (s : State) (p : Pkt) (r : LkReq) : Bool :=
  s.flag LKP_LEARN_CTRL_EN ix0 && bitAt (profCtl p.prof) 16 && s.flag LKP_PORT_LEARN_EN (ixI p.arr.port)
    && p.arr.port < 256 && bitsOf p.status 8 2 == 0 && bitsOf (profCtl p.prof) 17 3 == r.d && r.target == 1
    && r.param == 1 && !r.fwd && !bitAt (beNat (bytesAt r.key 2 1)) 0

/-- A learn request enters the FIFO, or is discarded and counted (R277). -/
def State.learnReq (s : State) (q : LearnReq) : State :=
  if s.tab.fifo.length < 8192 then { s with tab := { s.tab with fifo := s.tab.fifo ++ [q] } }
  else s.count LKP_LEARN_DROP_COUNT ix0 1

/-- HIT of an entry, set. -/
def setHit : EmSlot → EmSlot
  | .entry k q r d l _ b t => .entry k q r d l true b t
  | x => x

/-- LEARN_REQUEST: what a source lookup does (R276). -/
def State.sourceLookup (s : State) (p : Pkt) (r : LkReq) (found : Option (Nat × EmSlot)) : State :=
  let key := beNat r.key
  match found with
  | none => s.learnReq ⟨key, p.arr.port⟩
  | some (i, e) =>
    match e with
    | .entry _ _ res _ learned _ _ _ =>
      if res = s.portResult p.arr.port then { s with tab := { s.tab with em := tblPut i (setHit e) s.tab.em } }
      else if learned then s.learnReq ⟨key, p.arr.port⟩
      else s.count LKP_MOVE_DENY_COUNT ix0 1
    | .poison _ => s

/-- EXACT_MATCH_LOOKUP (R262, R276, R283). -/
def exactMatchLookup (pipe : Fin 64) (d : Fin 6) (upset : List TableWord) (stall : BitVec 32) (s : State) : State :=
  match s.ing.pkts.find? (awaits pipe.val d.val 1) with
  | none => s
  | some p =>
    match p.open_.find? (fun (r : LkReq) => r.d == d.val) with
    | none => s
    | some r =>
      let s := s.stalls stall.toNat
      let s := s.upsets upset
      let key := beNat r.key
      let s := s.emUpsets r.param key upset
      let (res, found) := s.emLookup r.param key (p.ream % 16)
      if s.mayLearn p r then
        let (s, bd, bad) := s.readPkt tBd (beNat (bytesAt p.mv 2 2)) (p.ream % 16)
        let s := if !bad && bitAt bd 16 && bitAt bd 17 then s.sourceLookup p r found else s
        let s := if bad then s.modPkt (awaits pipe.val d.val 1) (fun p => { p with bad := true }) else s
        s.answer pipe.val d.val 1 r.fwd res
      else s.answer pipe.val d.val 1 r.fwd res

/-! ## Routes, R265 to R267 -/

/-- A route record that matches: its prefix length, its route ID, its version's place, its result, whether it is bad. -/
structure RouteHit where
  len : Nat
  id : Nat
  res : Nat
  bad : Bool
  deriving DecidableEq, Repr

/-- Whether a record matches a key (R266, R267): family, VRF, length within its family, and the first LEN bits. -/
def routeMatch (v6 : Bool) (vrf addr img : Nat) : Bool :=
  let fam := bitsOf img 124 4
  let len := bitsOf img 88 8
  let ok := if v6 then (fam = 2 && len ≤ 64) || (fam = 3 && len ≤ 128) else fam = 1 && len ≤ 32
  let w := if v6 then 128 else 32
  let pre := if v6 then bitsOf img 128 128 else bitsOf img 0 32
  ok && bitsOf img 96 16 = vrf && pre >>> (w - len) = addr >>> (w - len)

/-- The better of two matching records: the longer prefix, then the lower route ID (R267). -/
def betterRoute (a : Option RouteHit) (b : RouteHit) : Option RouteHit :=
  match a with
  | none => some b
  | some x => if x.len < b.len || (x.len == b.len && b.id < x.id) then some b else some x

/-- The best matching record under a tag (R267). -/
def State.bestRoute (s : State) (v6 : Bool) (vrf addr tag : Nat) : Option RouteHit :=
  s.tab.vers.foldl (fun best e =>
    if tkeyTable e.1 != tRoute then best
    else
      match e.2.find? (fun (v : Ver) => v.visible s.nextTag tag) with
      | none => best
      | some v =>
        if routeMatch v6 vrf addr v.img then
          betterRoute best ⟨bitsOf v.img 88 8, tkeyIndex e.1, bitsOf v.img 64 24, v.bad⟩
        else best) none

/-- A route lookup: `path` are the trie nodes it passes (R267, R283). -/
def State.routeFind (s : State) (v6 : Bool) (key : List Byte) (tag : Nat) (path : List (BitVec 24))
    (upset : List TableWord) : State × LkRes :=
  let hit := path.filter fun n => upset.contains (.trie n) && !s.tab.badTrie.contains n.toNat
  let s := { s with tab := { s.tab with badTrie := s.tab.badTrie ++ hit.map BitVec.toNat } }
  match path.find? (fun n => s.tab.badTrie.contains n.toNat) with
  | some n => (s.lkpError tTrie n.toNat false, .tableError)
  | none =>
    match s.bestRoute v6 (beNat (bytesAt key 0 2)) (beNat (key.drop 2)) tag with
    | none => (s, .miss)
    | some r => if r.bad then (s.lkpError tRoute r.id false, .tableError) else (s, .hit (normRes false r.res) 0 false)

/-- ROUTE_LOOKUP (R267). -/
def routeLookup (pipe : Fin 64) (d : Fin 6) (path : List (BitVec 24)) (upset : List TableWord) (stall : BitVec 32)
    (s : State) : State :=
  match s.ing.pkts.find? (awaits pipe.val d.val 2) with
  | none => s
  | some p =>
    match p.open_.find? (fun (r : LkReq) => r.d == d.val) with
    | none => s
    | some r =>
      let (s, res) := ((s.stalls stall.toNat).upsets upset).routeFind (r.param == 1) r.key (p.ream % 16) path upset
      s.answer pipe.val d.val 2 r.fwd res

/-- ASA_SEARCH (R303 to R305). -/
def asaSearch (pipe : Fin 64) (d : Fin 6) (upset : List TableWord) (s : State) : State :=
  match s.ing.pkts.find? (awaits pipe.val d.val 3) with
  | none => s
  | some p =>
    match p.open_.find? (fun (r : LkReq) => r.d == d.val) with
    | none => s
    | some r =>
      let (s, res) := s.asaLookup r.param r.key (p.ream % 16) upset
      s.answer pipe.val d.val 3 r.fwd res

/-! ## Multipath, R269 to R271 -/

/-- A field of a hash profile's selector (R271). -/
def selBytes (kv mv : List Byte) (sel : Nat) : List Byte :=
  let n := min 16 (bitsOf sel 9 5)
  match bitsOf sel 0 2 with
  | 0 => bytesAt kv (bitsOf sel 2 7) n
  | 1 => bytesAt mv (bitsOf sel 2 7) n
  | _ => zeros n

/-- The bytes that a hash profile hashes: the used selectors in order, each pair in its canonical order under SYM
(R271). -/
def hashBytes (kv mv : List Byte) (sym : Bool) : List Nat → List Byte
  | [] => []
  | [a] => selBytes kv mv a
  | a :: b :: t =>
    let fa := selBytes kv mv a
    let fb := selBytes kv mv b
    if bitsOf a 14 2 = 1 && bitsOf b 14 2 = 2 && fa.length = fb.length && sym then
      (if beNat fb < beNat fa then fb ++ fa else fa ++ fb) ++ hashBytes kv mv sym t
    else fa ++ hashBytes kv mv sym (b :: t)

/-- H of a packet under a hash profile (R271). -/
def State.hashOf (s : State) (h : Nat) (kv mv : List Byte) : Nat :=
  let x := ixI h
  let sels := (List.range 8).map fun j =>
    bitsOf (if j < 4 then s.rd .lkpHprof1 x else s.rd .lkpHprof2 x).toNat (16 * (j % 4)) 16
  let used := sels.filter fun e => bitsOf e 9 5 != 0
  crc32c (s.fld LKP_HPROF0_SEED x) (hashBytes kv mv (s.flag LKP_HPROF0_SYM x) used)

/-- A packet counted in an on-die counter pair; both counts wrap (spec/04_host_pcie.md R113). -/
def State.countOnDie (s : State) (n bytes : Nat) : State :=
  let c := tblGet (0, 0) s.tab.counters n
  { s with tab := { s.tab with counters := tblPut n ((c.1 + 1) % 2 ^ 64, (c.2 + bytes) % 2 ^ 64) s.tab.counters } }

/-! ## The forwarding decision, R258, R268 to R272, R307 -/

/-- How a result turns out: a drop or a punt under a cause, a VOQ, a group. -/
inductive Route where
  | drop (cause : Nat)
  | punt (ring cause : Nat)
  | to (mod pg port rewrite nh : Nat) (cls : Option Nat)
  | group (g : Nat) (flood : Bool)
  deriving DecidableEq, Repr

/-- A next hop (R268). -/
def State.nextHop (s : State) (n tag bytes : Nat) : State × Route :=
  let (s, x, bad) := s.readPkt tNextHop n tag
  if bad then (s, .drop causeTableError)
  else if !bitAt x 127 then (s, .drop causeNoRoute)
  else
    let s := if bitAt x 61 then s.countOnDie (bitsOf x 40 21) bytes else s
    (s, .to (bitsOf x 101 11) (bitsOf x 96 5) (bitsOf x 87 9) (bitsOf x 62 21) n
      (if bitAt x 86 then some (bitsOf x 83 3) else none))

/-- A multipath group's member for a packet, and its next hop (R269, R270). -/
def State.multipath (s : State) (g tag bytes : Nat) (kv mv : List Byte) : State × Route :=
  let (s, x, bad) := s.readPkt tGroup (g % 65536) tag
  if bad then (s, .drop causeTableError)
  else
    let base := bitsOf x 0 20
    let size := bitsOf x 20 10 + 1
    if !bitAt x 43 || 1048576 < base + size then (s, .drop causeNoRoute)
    else
      let h := s.hashOf (bitsOf x 30 4) kv mv
      let (s, m, bad) := s.readPkt tMember (base + h * size / 2 ^ 32) tag
      if bad then (s, .drop causeTableError)
      else if !bitAt m 28 then (s, .drop causeNoRoute)
      else s.nextHop (bitsOf m 0 20) tag bytes

/-- A flood in a packet's bridge domain (R258, R272). -/
def State.flood (s : State) (bd tag : Nat) : State × Route :=
  let (s, x, bad) := s.readPkt tBd bd tag
  if bad then (s, .drop causeTableError)
  else if !bitAt x 17 then (s, .drop causeNoRoute)
  else (s, .group (bitsOf x 0 16) true)

/-- What a forwarding result does (R257, R258). A DROP result whose cause spec/12_buffering.md R378 does not list, and
which is never reported, drops under a listed one that the manual leaves open (log entry 106). A PORT result that names
no port of R29 acts as one without a route. -/
def State.follow (s : State) (r tag bytes : Nat) (kv mv : List Byte) : State × Route :=
  let i := resIndex r
  match resType r with
  | 0 => if i % 512 < 288 then (s, .to (i / 512 % 2048) (portGroup (i % 512)) (i % 512) 0 0 none)
         else (s, .drop causeNoRoute)
  | 1 => s.nextHop (i % 1048576) tag bytes
  | 2 => s.multipath i tag bytes kv mv
  | 3 => if listedCauses.contains (i % 256) then (s, .drop (i % 256))
         else (s.used, .drop (listedCauses.getD (s.free.toNat % listedCauses.length) causeNoRoute))
  | 4 => if i % 8192 ≤ 6143 then (s, .punt (i % 8192) causeRoutePunt) else (s, .drop causeNoRoute)
  | 6 => (s, .group (i % 65536) false)
  | _ => (s, .drop causeNoRoute)

/-- MISS of the control word (R254, R258); on a TRUNCATED parse its cause is TRUNCATED (spec/12_buffering.md R378). -/
def State.miss (s : State) (p : Pkt) : State × Route :=
  let c := profCtl p.prof
  let trunc := bitsOf p.status 8 2 == 1
  let fix := fun (r : Route) =>
    match r with
    | .drop k => .drop (if trunc && k = causeNoRoute then causeTruncated else k)
    | .punt ring _ => .punt ring (if trunc then causeTruncated else causeLookupMiss)
    | r => r
  let ring := bitsOf c 3 13
  match bitsOf c 1 2 with
  | 1 =>
    let (s, r) := s.flood (beNat (bytesAt p.mv 2 2)) (p.ream % 16)
    (s, fix r)
  | 2 => (s, fix (if ring ≤ 6143 then .punt ring causeLookupMiss else .drop causeNoRoute))
  | _ => (s, fix (.drop causeNoRoute))

/-- The forwarding result that an answered descriptor offers, and whether it is a learned entry's (R258, R307). -/
def LkAns.offer (a : LkAns) : Option (Nat × Bool) :=
  match a.res with
  | .tableError => some (resDrop causeTableError, false)
  | .hit r _ l => if a.fwd && resType r != 5 then some (r, l) else none
  | .asa a0 _ => if a.fwd && bitAt a0 24 then some (normRes false (bitsOf a0 0 24), false) else none
  | .groupError => some (resDrop causeTableError, false)
  | .miss => none

/-- Answers in descriptor order. -/
def sortAns (as : List LkAns) : List LkAns := (List.range 6).filterMap fun d => as.find? fun (a : LkAns) => a.d == d

/-- The action words of the ASA hits, in descriptor order. -/
def asaActs (as : List LkAns) : List (Nat × Nat) :=
  as.filterMap fun (a : LkAns) =>
    match a.res with
    | .asa a0 a1 => some (a0, a1)
    | _ => none

/-- The result, the route, and whether a learned entry gave it. Every packet that has searched a group in ERR_MODE 1
with disabled rows is dropped (spec/10_associative_search.md R319). -/
def State.resolve (s : State) (p : Pkt) (as : List LkAns) : State × Nat × Bool × Route :=
  let tag := p.ream % 16
  if p.bad || as.any (fun (a : LkAns) => a.res == .groupError) then (s, 0, false, .drop causeTableError)
  else
    match as.findSome? LkAns.offer with
    | some (r, l) =>
      if r = resDrop causeTableError then (s, r, l, .drop causeTableError)
      else
        let (s, x) := s.follow r tag p.trimmed.length p.eng.kv p.mv
        (s, r, l, x)
    | none =>
      let (s, x) := s.miss p
      (s, 0, false, x)

/-- FORWARDING_DECISION: the oldest packet of a pipeline with every lookup answered gets its fate (R258, R307). -/
def forwardingDecision (pipe : Fin 64) (upset : List TableWord) (stall : BitVec 32) (s : State) : State :=
  let q := fun (p : Pkt) => ofPipe pipe.val p && p.stage == .lookups && p.phaseB && p.open_.isEmpty
  match s.ing.pkts.find? q with
  | none => s
  | some p =>
    let s := (s.stalls stall.toNat).upsets upset
    let as := sortAns p.ans
    let acts := asaActs as
    let bytes := p.trimmed
    let n := bytes.length
    let s := acts.foldl (fun s a => if bitAt a.2 21 then s.countOnDie (bitsOf a.2 0 21) n else s) s
    let (s, result, learned, route) := s.resolve p as
    let route := if acts.any (fun a => bitAt a.1 25) && route != .drop causeTableError then .drop causeAclDeny else route
    let aclCls := (acts.find? fun a => bitAt a.1 26).map fun a => bitsOf a.1 27 3
    let policer := (acts.find? fun a => bitAt a.1 30).map fun a => bitsOf a.1 31 18
    let mirror := ((acts.find? fun a => bitsOf a.1 49 4 != 0).map fun a => bitsOf a.1 49 4).getD 0
    let copy := (acts.find? fun a => bitAt a.1 53 && bitsOf a.2 22 13 ≤ 6143).map fun a => bitsOf a.2 22 13
    let nhCls := match route with
      | .to _ _ _ _ _ c => c
      | _ => none
    let (s, cls) := match aclCls.or nhCls with
      | some c => (s, c)
      | none => (s.used, s.free.toNat % 8)
    let copies := match copy with
      | some ring => [hostOut p ring causeAclCopy bytes]
      | none => []
    let x : XDest → PipeOut := fun d => .fwd
      { src := p.arr.port, bytes := bytes, ts := p.arr.ts, cls := cls, tos := (bytesAt p.eng.kv 65 1).headD 0,
        policer := policer, mirror := mirror, dest := d, ream := p.ream }
    let d0 : Decision := { Decision.none_ with
      result := result, policer := policer.getD 0, mirror := mirror, copyHost := copy.isSome, copyRing := copy.getD 0 }
    let own := fun (d : Decision) =>
      { d with fate := 4, result := 0xFFFFFF, nh := 0xFFFFF, mod := 0x7FF, pg := 0x1F, port := 0x1FF, cls := 7,
               rewrite := 0x1FFFFF }
    let (s, outs, d) := match route with
      | .drop c => (s.countDrop c n p.arr.port 0, copies, { d0 with fate := 1, cause := c })
      | .punt ring c => (s, copies ++ [hostOut p ring c bytes], { d0 with fate := 2, cause := c })
      | .to m pg port rw nh _ =>
        (s, copies ++ [x (.voq m pg port rw)], { d0 with nh := nh, mod := m, pg := pg, port := port, cls := cls, rewrite := rw })
      | .group g fl =>
        (s, copies ++ [x (.group g fl)], if fl then own d0 else { d0 with cls := cls })
    let d := if learned then own d else d
    let s := s.formRecord p d
    (s.modPkt q (fun p => { p with stage := .exit, outs := outs })).settleExit

/-! ## Learning, R277 to R279 -/

/-- A flush under way matches a learned entry (R281). -/
def FlushSt.matches (f : FlushSt) (key res : Nat) : Bool :=
  (match f.bd with | some b => key / 2 ^ 48 == b | none => true)
    && (match f.port with | some p => res % 512 == p | none => true)

/-- A learn notification enters the couch link (spec/01_architecture.md R34); it is lost where the link is DOWN or its
QX end is in reset. -/
def State.learnNote (s : State) (n kind : Nat) (body : List Byte) : State :=
  if !s.domUp domQC || s.gen.warmBusy || s.couch.st == .down then s
  else { s with couch := { s.couch with fxToQx := s.couch.fxToQx ++ [.learn n kind body] } }

/-- A learn notification for the export ring of learning (R282). -/
def State.learnExport (s : State) (kind flags slot key res : Nat) : State :=
  if s.flag LKP_LEARN_CTRL_EXPORT_EN ix0 then
    let stash := poolSlots ≤ slot
    s.learnNote (s.fld LKP_LEARN_CTRL_EXPORT_RING ix0) kind
      (leBytes 1 (flags + 4 * ofBool stash) ++ leBytes 2 (key / 2 ^ 48) ++ leBytes 6 (key % 2 ^ 48)
        ++ leBytes 2 (res % 512) ++ leBytes 4 (if stash then slot - poolSlots else slot)
        ++ leBytes 8 (s.tim.sec % 2 ^ 32 * 2 ^ 32 + s.tim.ns))
  else s

/-- A slot written while a flush runs (R281). -/
def State.freshSlot (s : State) (i : Nat) : State :=
  match s.tab.flush with
  | none => s
  | some f => { s with tab := { s.tab with flush := some { f with fresh := f.fresh ++ [i] } } }

/-- A learned entry is removed; its age-out record (R280 to R282). -/
def State.unlearn (s : State) (i flags key res : Nat) (export_ : Bool) : State :=
  let s := { s with tab := { s.tab with em := tblDel i s.tab.em } }
  if export_ then s.learnExport 2 flags i key res else s

/-- A learned entry is relocated: the new copy is written before the old is freed (R263); one that a running flush
matches is removed instead (R281). -/
def State.relocate (s : State) (src dst : Nat) : State :=
  match tblFind src s.tab.em with
  | some (.entry k q r d true h b t) =>
    match s.tab.flush with
    | some f =>
      if f.matches q r then s.unlearn src 2 q r f.export_
      else ({ s with tab := { s.tab with em := tblDel src (tblPut dst (.entry k q r d true h b t) s.tab.em) } }).freshSlot dst
    | none => { s with tab := { s.tab with em := tblDel src (tblPut dst (.entry k q r d true h b t) s.tab.em) } }
  | _ => s

/-- EVT_GAP in units of `State.now`. -/
def State.evtGap (s : State) : Nat := max 1 (s.fld LKP_LEARN_CTRL_EVT_GAP ix0) * 5000000

/-- A learn request fails (R278): reason 0 no room, 1 limit, 2 headroom. -/
def State.learnFail (s : State) (key reason : Nat) : State :=
  let s := s.count LKP_LEARN_FAIL_COUNT ix0 1
  let soon : Bool := match s.tab.failClear with
    | some t => decide (s.now < t + s.evtGap)
    | none => false
  if soon then s else s.raiseAt LKP_INT_STATUS_LEARN_FAIL 0 0 key reason

/-- The oldest learn request is served: re-looked up, then inserted, moved, denied or failed (R277 to R279). A new or
moved entry has HIT 1, so that it stays for at least one AGE_PERIOD (R280). -/
def State.learnOne (s : State) (q : LearnReq) : State :=
  let res := s.portResult q.port
  match s.emFind 1 q.key s.newTag with
  | some (i, .entry k key r d learned _ b t) =>
    if r = res then s
    else if learned then
      (({ s with tab := { s.tab with em := tblPut i (.entry k key res d true true b t) s.tab.em } }).freshSlot i).learnExport
        1 1 i q.key res
    else s.count LKP_MOVE_DENY_COUNT ix0 1
  | _ =>
    let limit := min 4194304 (s.fld LKP_LEARN_CTRL_LIMIT ix0)
    match s.placeLearn q.key with
    | none => s.learnFail q.key 0
    | some (i, moves) =>
      if limit ≤ s.learnedCount then s.learnFail q.key 1
      else if i < poolSlots && poolSlots - s.headroom tEm < (s.liveHeld tEm 0).1 + 1 then s.learnFail q.key 2
      else
        let s := moves.foldl (fun s m => s.relocate m.1 m.2) s
        (({ s with tab := { s.tab with em := tblPut i (.entry 1 q.key res 0 true true 0 0) s.tab.em } }).freshSlot i).learnExport
          1 0 i q.key res

/-- The learning engine runs: it is in domain FC, the tables in FL (R289). -/
def State.learns (s : State) : Bool := s.domUp domFC && s.domUp domFL

/-- LEARN_INSERT. -/
def learnInsert (s : State) : State :=
  match s.tab.fifo with
  | [] => s
  | q :: rest => if s.learns then ({ s with tab := { s.tab with fifo := rest } }).learnOne q else s

/-! ## Aging and flushes, R280, R281 -/

/-- AGE_VISIT: aging visits a slot; `met` tells that a source lookup hits the entry in the same cycle, which leaves HIT
set (R280). -/
def ageVisit (slot : BitVec 24) (met : Bool) (s : State) : State :=
  match tblFind slot.toNat s.tab.em with
  | some (.entry k q r d true hit b t) =>
    if s.fld LKP_LEARN_CTRL_AGE_PERIOD ix0 = 0 || !s.learns then s
    else if met then
      { s with tab := { s.tab with em := tblPut slot.toNat (.entry k q r d true true b t) s.tab.em } }
    else if hit then
      { s with tab := { s.tab with em := tblPut slot.toNat (.entry k q r d true false b t) s.tab.em } }
    else s.unlearn slot.toNat 0 q r true
  | _ => s

/-- FLUSH_START: a write of LKP_FLUSH with GO; ignored while BUSY, and by an engine in reset (R281, R289). -/
def flushStart (req : Req) (v : W64) (s : State) : State :=
  let s := s.ownWrite req .lkpFlush ix0 v 0
  if s.tab.flush.isSome || !s.learns then s
  else
    let f : FlushSt :=
      { bd := if s.flag LKP_FLUSH_BY_BD ix0 then some (s.fld LKP_FLUSH_BD ix0) else none
        port := if s.flag LKP_FLUSH_BY_PORT ix0 then some (s.fld LKP_FLUSH_PORT ix0) else none
        export_ := s.flag LKP_FLUSH_EXPORT ix0
        fresh := [] }
    ({ s with tab := { s.tab with flush := some f } }).set LKP_FLUSH_BUSY ix0 1

/-- FLUSH_COMPLETE: every matching learned entry goes that its slot held at the engine's visit. `late` are slots whose
entries came there after the visit, which only slots written since GO can be (R281). -/
def flushComplete (late : List (BitVec 24)) (s : State) : State :=
  match s.tab.flush with
  | none => s
  | some f =>
    if !s.learns then s else
    let s := s.tab.em.foldl (fun s e =>
      match e.2 with
      | .entry _ q r _ true _ _ _ =>
        if f.matches q r && !(f.fresh.contains e.1 && late.contains (BitVec.ofNat 24 e.1)) then s.unlearn e.1 2 q r f.export_
        else s
      | _ => s) s
    (({ s with tab := { s.tab with flush := none } }).set LKP_FLUSH_BUSY ix0 0).raise LKP_INT_STATUS_FLUSH_DONE

end Sys2Proof.Machine
end

