-- ==== Sys2Proof/Machine/Rewrite.lean ====
section
/-!
DEFINITION. Machine/Rewrite.lean: rewrite chains and what they make of a packet (spec/16_egress_rewrite.md R490 to R499,
R502).
-/
namespace Sys2Proof.Machine

open Fld

/-! ## The chain, R490 to R497 -/

/-- The kinds of a rewrite entry (R491). -/
def rwKind (e : Nat) : Nat := bitsOf e 124 4
def rwBody (e : Nat) : Nat := bitsOf e 0 94
def kL2 : Nat := 1
def kMpls : Nat := 2
def kSrv6 : Nat := 3
def kTunnel : Nat := 5
def kData : Nat := 6

/-- The entries of a chain with their indices, as a packet with this tag reads them; or the cause of its drop (R497,
R501 checks 1 and 2). The chain is followed to an entry with NEXT 0. -/
def State.readChain (tag : Nat) : Nat → Nat → State → State × Except Nat (List (Nat × Nat))
  | 0, _, s => (s, .error causeRewriteInvalid)
  | n + 1, i, s =>
    match s.verAt (tkey tRewrite i) tag with
    | none => (s, .error causeRewriteInvalid)
    | some v =>
      if v.bad then (s.logBad tRewrite i false, .error causeTableError)
      else if !([kL2, kMpls, kSrv6, kTunnel, kData].contains (rwKind v.img)) then (s, .error causeRewriteInvalid)
      else if bitsOf v.img 94 21 = 0 then (s, .ok [(i, v.img)])
      else
        match State.readChain tag n (bitsOf v.img 94 21) s with
        | (s, .ok es) => (s, .ok ((i, v.img) :: es))
        | (s, .error c) => (s, .error c)

/-- A chain taken apart: the L2 entry; an SRV6 entry with its containers; a TUNNEL entry with the IPv6 destination; the
MPLS entries. -/
structure Chain where
  l2 : Nat
  srv6 : Option (Nat × List Nat)
  tun : Option (Nat × Nat)
  mpls : List Nat
  deriving DecidableEq, Repr

/-- n DATA128 pairs at the head of a chain (R496). -/
def takePairs : Nat → List (Nat × Nat) → Option (List Nat × List (Nat × Nat))
  | 0, es => some ([], es)
  | n + 1, (i, a) :: (j, b) :: es =>
    if i % 2 = 0 && j = i + 1 && rwKind a = kData && rwKind b = kData then
      (takePairs n es).map fun (vs, r) => ((rwBody a * 2 ^ 34 + rwBody b / 2 ^ 60) :: vs, r)
    else none
  | _ + 1, _ => none

/-- The SRV6 or TUNNEL part of a chain (R494, R495, R497). -/
def takeOuter : List (Nat × Nat) → Option (Option (Nat × List Nat) × Option (Nat × Nat) × List (Nat × Nat))
  | [] => some (none, none, [])
  | (i, e) :: es =>
    if rwKind e = kSrv6 then
      let n := bitsOf e 88 4
      if bitsOf e 92 2 ≤ 1 && 1 ≤ n && n ≤ 12 then (takePairs n es).map fun (vs, r) => (some (e, vs), none, r) else none
    else if rwKind e = kTunnel then
      let t := bitsOf e 91 3
      if t ≤ 2 then some (none, some (e, 0), es)
      else if t ≤ 5 then (takePairs 1 es).map fun (vs, r) => (none, some (e, vs.headD 0), r)
      else none
    else some (none, none, (i, e) :: es)

/-- A chain as R497 orders it. -/
def parseChain (es : List (Nat × Nat)) : Option Chain :=
  match es with
  | [] => none
  | (_, l2) :: rest =>
    if rwKind l2 ≠ kL2 then none
    else
      match takeOuter rest with
      | none => none
      | some (srv6, tun, ms) =>
        if ms.length ≤ 3 && ms.all (fun m => rwKind m.2 == kMpls && bitsOf m.2 90 3 ≤ 4) then
          some ⟨l2, srv6, tun, ms.map Prod.snd⟩
        else none

/-! ## The packet under rewriting -/

/-- A packet taken apart: its outermost Ethernet header without the EtherType, while it has one; its label stack, top
first; what lies below by EtherType (none where nothing tells it) and bytes. -/
structure Core where
  eth : Option (List Byte)
  labels : List Nat
  mplsEt : Nat
  et : Option Nat
  body : List Byte
  deriving DecidableEq, Repr

/-- A label stack and what is below. -/
def coreMpls (eth : Option (List Byte)) (mplsEt : Nat) (b : List Byte) : Core :=
  let (ls, e, bot) := labelsAt b 16 0
  ⟨eth, ls.map fun o => beNat (bytesAt b o 4), mplsEt, if bot then nibbleEt b e else none, b.drop e⟩

/-- A packet that begins with an Ethernet header. -/
def coreEth (tpid : Nat) (b : List Byte) : Option Core :=
  if b.length < 14 then none
  else
    let (_, e) := tagsAt tpid b 4 12
    let et := u16 b e
    if isMpls et then some (coreMpls (some (b.take e)) et (b.drop (e + 2)))
    else some ⟨some (b.take e), [], etMpls, some et, b.drop (e + 2)⟩

/-- What follows an IPv6 header, by its next header (R494). -/
def coreNext (nh : Nat) (b : List Byte) : Core :=
  if nh = 137 then coreMpls none etMpls b
  else ⟨none, [], etMpls, if nh = 4 then some etIp4 else if nh = 41 then some etIp6 else if nh = 143 then some etEther else none, b⟩

/-- The EtherType of a packet without its Ethernet header, and its bytes. -/
def Core.type (c : Core) : Option Nat := if c.labels.isEmpty then c.et else some c.mplsEt
def Core.bytes (c : Core) : List Byte := c.labels.flatMap (beBytes 4) ++ c.body

/-- The IP version below the Ethernet header and the labels, where there is IP. -/
def Core.ip (c : Core) : Option Bool :=
  if c.et = some etIp4 && 20 ≤ c.body.length then some false
  else if c.et = some etIp6 && 40 ≤ c.body.length then some true else none

/-- STRIP (R497). -/
def strip (tpid op : Nat) (pkt : List Byte) : Option Core :=
  let x := extract tpid pkt
  match coreEth tpid pkt with
  | none => if op = 0 then some ⟨none, [], etMpls, none, pkt⟩ else none
  | some c =>
    if op = 0 then some c
    else if op = 1 then some { c with eth := none }
    else if op ≤ 4 then
      if !x.labels.isEmpty then none
      else
        match x.ip, x.tun with
        | some h, some t =>
          if op = 2 then
            if t.kind = .vxlan || x.innerEth || (h.v6 && h.fin != h.off + 40) then none
            else x.inner.map fun i => ⟨none, [], etMpls, some t.et, pkt.drop i.off⟩
          else if t.kind = .vxlan then
            (coreEth tpid (pkt.drop t.at_)).map fun c => if op = 3 then c else { c with eth := none }
          else none
        | _, _ => none
    else if op = 5 then
      match x.ip with
      | some h => if x.labels.isEmpty && h.v6 then some (coreNext h.nh (pkt.drop h.fin)) else none
      | none => none
    else none

/-! ## Checksums and hop counts, R493, R498 -/

/-- A sum in ones' complement of 16 bits. -/
def onesAdd (a b : Nat) : Nat := let t := a + b; if 65535 < t then t - 65535 else t

/-- A checksum after one of its 16-bit words has changed. -/
def csumAdj (c old new : Nat) : Nat := 65535 - onesAdd (onesAdd (65535 - c) (65535 - old)) new

/-- The 16-bit words of a byte string. -/
def words16 : List Byte → List Nat
  | [] => []
  | [a] => [a.toNat * 256]
  | a :: b :: t => (a.toNat * 256 + b.toNat) :: words16 t

/-- The checksum of an IPv4 header whose checksum field is 0. -/
def ipSum (b : List Byte) : Nat := 65535 - (words16 b).foldl onesAdd 0

/-- The TTL or hop limit of the header directly below, where it carries one. -/
def Core.ttl (c : Core) : Option Nat :=
  match c.labels with
  | l :: _ => some (l % 256)
  | [] => c.ip.map fun v6 => u8 c.body (if v6 then 7 else 8)

/-- A TTL of a body's IP header, set. -/
def ipTtl (v6 : Bool) (b : List Byte) (t : Nat) : List Byte :=
  if v6 then overwrite b 7 (beBytes 1 t)
  else
    let b' := overwrite b 8 (beBytes 1 t)
    overwrite b' 10 (beBytes 2 (csumAdj (u16 b 10) (u16 b 8) (u16 b' 8)))

/-- The TTL of the header on top, set where it carries one. -/
def Core.setTtl (c : Core) (t : Nat) : Core :=
  match c.labels with
  | l :: ls => { c with labels := (l / 256 * 256 + t) :: ls }
  | [] =>
    match c.ip with
    | some v6 => { c with body := ipTtl v6 c.body t }
    | none => c

/-! ## Pops, L3_OP, pushes, R493, R498 -/

/-- One label popped; one that exposes a payload finds its EtherType (R493). -/
def Core.pop (c : Core) (uniform : Bool) : Option Core :=
  match c.labels with
  | [] => none
  | l :: ls =>
    if ls.isEmpty && c.et.isNone then none
    else
      let c := { c with labels := ls }
      some (if uniform then c.setTtl (l % 256) else c)

def Core.pops (uniform : Bool) : Nat → Core → Option Core
  | 0, c => some c
  | n + 1, c => (c.pop uniform).bind (Core.pops uniform n)

/-- The pops of every MPLS entry, in chain order. -/
def Core.popAll (c : Core) (ms : List Nat) : Option Core :=
  ms.foldl (fun (c : Option Core) m => c.bind fun c => if bitAt m 93 then c.pops (!bitAt m 85) (bitsOf m 86 4 + 1) else some c)
    (some c)

/-- The segment routing header of an IPv6 body with Segments Left above 0. -/
def srhOf (b : List Byte) : Option Nat := ((ipAt b 0 etIp6).bind (·.srh)).filter fun o => u8 b (o + 3) != 0

/-- Segments Left decremented and the destination set to the segment that it then names (R498). -/
def srhNext (b : List Byte) (o : Nat) : List Byte :=
  let n := u8 b (o + 3) - 1
  overwrite (overwrite b (o + 3) (beBytes 1 n)) 24 (bytesAt b (o + 8 + 16 * n) 16)

/-- The endpoint updates of L3_OP 2 and 3 (R498). -/
def endpoint (op : Nat) (b : List Byte) : Option (List Byte) :=
  if op = 3 then (srhOf b).map (srhNext b)
  else
    let b' := overwrite b 28 (bytesAt b 30 10 ++ [0, 0])
    if u16 b' 28 = 0 then
      match srhOf b with
      | some o => some (srhNext b o)
      | none => some b'
    else some b'

/-- L3_OP, and whether the TTL that it decrements was 0 or 1 (R498, R501 check 3). -/
def Core.l3op (c : Core) (op : Nat) : Option (Core × Bool) :=
  if op = 0 then some (c, false)
  else
    match c.ttl with
    | none => none
    | some t =>
      if op = 1 then some (c.setTtl (t - 1), decide (t ≤ 1))
      else if !c.labels.isEmpty || c.ip != some true then none
      else (endpoint op c.body).map fun b => (({ c with body := b }).setTtl (t - 1), decide (t ≤ 1))

/-- The labels that an MPLS entry pushes, top first, over a packet (R493). -/
def pushLabels (m cls ttl : Nat) (bottom : Bool) : List Nat :=
  let n := bitsOf m 90 3
  (List.range n).map fun j =>
    bitsOf m (60 - 20 * j) 20 * 2 ^ 12 + cls % 8 * 2 ^ 9 + ofBool (bottom && j + 1 == n) * 2 ^ 8 + ttl

/-- The pushes of every MPLS entry, the last entry's first (R493). -/
def Core.pushAll (c : Core) (cls : Nat) (ms : List Nat) : Core :=
  ms.foldr (fun m c =>
    if bitsOf m 90 3 = 0 then c
    else
      let ttl := if bitAt m 85 then 255 else c.ttl.getD 255
      { c with labels := pushLabels m cls ttl c.labels.isEmpty ++ c.labels, mplsEt := etMpls }) c

/-! ## Encapsulation, R494, R495 -/

/-- A packet with its Ethernet header as the payload beneath new headers (R500). -/
def Core.payload (c : Core) : Core :=
  match c.eth with
  | none => c
  | some h => ⟨none, [], etMpls, some etEther, h ++ beBytes 2 (c.type.getD 0) ++ c.bytes⟩

/-- The key vector of a packet as it stands beneath the headers to come (R487, R502). -/
def Core.vec (tpid : Nat) (c : Core) : List Byte :=
  if c.type = some etEther then keyVec tpid c.bytes else keyVec tpid (zeros 12 ++ beBytes 2 (c.type.getD 0) ++ c.bytes)

/-- The next header or protocol of a payload (R494, R495); `unk` where none fits it. -/
def Core.proto (c : Core) (unk : Nat) : Nat :=
  match c.type with
  | none => unk
  | some t => if t = etIp4 then 4 else if t = etIp6 then 41 else if isMpls t then 137 else if t = etEther then 143 else unk

/-- An IPv6 header. -/
def ip6Head (tc flow len nh hops src dst : Nat) : List Byte :=
  beBytes 4 (6 * 2 ^ 28 + tc % 256 * 2 ^ 20 + flow % 2 ^ 20) ++ beBytes 2 len ++ beBytes 1 nh ++ beBytes 1 hops
    ++ beBytes 16 src ++ beBytes 16 dst

/-- An IPv4 header with its checksum. -/
def ip4Head (tos len id : Nat) (df : Bool) (ttl proto src dst : Nat) : List Byte :=
  let a := beBytes 2 (0x4500 + tos % 256) ++ beBytes 2 len ++ beBytes 2 id ++ beBytes 2 (ofBool df * 2 ^ 14)
    ++ beBytes 1 ttl ++ beBytes 1 proto
  let b := beBytes 4 src ++ beBytes 4 dst
  a ++ beBytes 2 (ipSum (a ++ b)) ++ b

/-- EGR_SRC6 as an address (R511). -/
def State.src6 (s : State) (i : Nat) : Nat := s.fld EGR_SRC6_ADDR (ixIJ i 0) * 2 ^ 64 + s.fld EGR_SRC6_ADDR (ixIJ i 1)

/-- What the manual leaves open in the headers that a chain adds, cut from one free value: TOS, identification, flow
label, and the EtherType or next header of a payload that has none. -/
structure Unstated where
  tos : Nat
  ident : Nat
  flow : Nat
  type : Nat
  deriving DecidableEq, Repr

def unstated (v : W64) : Unstated := ⟨bitsOf v.toNat 0 8, bitsOf v.toNat 8 16, bitsOf v.toNat 24 20, bitsOf v.toNat 44 16⟩

/-- An SRV6 encapsulation (R494): `h` is the hash of R502. -/
def State.srv6 (s : State) (e : Nat) (segs : List Nat) (h tpid : Nat) (u : Unstated) (c : Core) : Core :=
  let nh := c.proto (u.type % 256)
  let v := c.vec tpid
  let reduced := bitsOf e 92 2 = 1
  let held := if reduced then segs.drop 1 else segs
  let n := held.length
  let srh := if n = 0 then []
    else beBytes 1 nh ++ beBytes 1 (2 * n) ++ beBytes 1 4 ++ beBytes 1 (segs.length - 1) ++ beBytes 1 (n - 1) ++ [0]
      ++ beBytes 2 (bitsOf e 56 16) ++ held.reverse.flatMap (beBytes 16)
  let b := c.bytes
  ⟨none, [], etMpls, some etIp6,
   ip6Head (u8 v 65) h (srh.length + b.length) (if n = 0 then nh else 43) (bitsOf e 72 8) (s.src6 (bitsOf e 80 8))
     (segs.headD 0) ++ srh ++ b⟩

/-- A TUNNEL encapsulation; none where the payload does not fit (R495, R497). -/
def State.tunnel (s : State) (e dip6 h : Nat) (u : Unstated) (c : Core) : Option Core :=
  let t := bitsOf e 91 3
  let key := bitsOf e 19 32
  let b := c.bytes
  let inner : Option (Nat × List Byte) :=
    if t % 3 = 0 then
      (if c.type = some etIp4 then some (4, b) else if c.type = some etIp6 then some (41, b) else none)
    else if t % 3 = 1 then
      let k := bitAt e 18
      some (47, beBytes 2 (ofBool k * 2 ^ 13) ++ beBytes 2 (c.type.getD u.type) ++ (if k then beBytes 4 key else []) ++ b)
    else if c.type = some etEther then
      some (17, beBytes 2 (0xC000 + h % 2 ^ 14) ++ beBytes 2 4789 ++ beBytes 2 (16 + b.length) ++ [0, 0]
        ++ [8, 0, 0, 0] ++ beBytes 3 key ++ [0] ++ b)
    else none
  let ttl := if bitsOf e 10 8 = 0 then c.ttl.getD 255 else bitsOf e 10 8
  inner.map fun (proto, p) =>
    if t < 3 then
      ⟨none, [], etMpls, some etIp4,
       ip4Head u.tos (20 + p.length) u.ident (bitAt e 9) ttl proto (s.fld EGR_SRC4_ADDR (ixI (bitsOf e 83 8))) (bitsOf e 51 32) ++ p⟩
    else
      ⟨none, [], etMpls, some etIp6, ip6Head u.tos u.flow p.length proto ttl (s.src6 (bitsOf e 83 8)) dip6 ++ p⟩

/-! ## The outermost Ethernet header, R492 -/

/-- The source MAC that an L2 entry names. -/
def State.smac (s : State) (l2 : Nat) : List Byte := beBytes 6 (s.fld EGR_SMAC_MAC (ixI (bitsOf l2 38 8)))

/-- The tag that VLAN_OP 2 pushes. -/
def vlanTag (tpid l2 : Nat) : List Byte :=
  beBytes 2 ([0x8100, 0x88A8, 0x9100, tpid].getD (bitsOf l2 32 2) 0) ++ beBytes 2 (bitsOf l2 17 3 * 2 ^ 13 + bitsOf l2 20 12)

/-- A new header. -/
def State.newEth (s : State) (tpid l2 : Nat) : List Byte :=
  beBytes 6 (bitsOf l2 46 48) ++ s.smac l2 ++ (if bitsOf l2 34 2 = 2 then vlanTag tpid l2 else [])

/-- An edit in place; VLAN_OP 1 and 3 need a tag. -/
def State.editEth (s : State) (tpid l2 : Nat) (h : List Byte) : Option (List Byte) :=
  let h := if bitAt l2 37 then overwrite h 0 (beBytes 6 (bitsOf l2 46 48)) else h
  let h := if bitAt l2 36 then overwrite h 6 (s.smac l2) else h
  match bitsOf l2 34 2 with
  | 0 => some h
  | 2 => some (h.take 12 ++ vlanTag tpid l2 ++ h.drop 12)
  | op =>
    if h.length ≤ 12 then none
    else if op = 1 then
      some (overwrite h 14 (beBytes 2 (bitsOf l2 17 3 * 2 ^ 13 + u16 h 14 / 2 ^ 12 % 2 * 2 ^ 12 + bitsOf l2 20 12)))
    else some (h.take 12 ++ h.drop 16)

/-! ## The whole rewrite -/

/-- The headers that SRV6 or TUNNEL adds. -/
def State.encap (s : State) (ch : Chain) (tpid : Nat) (mv : List Byte) (u : Unstated) (c : Core) : Option Core :=
  let h := s.hashOf (s.fld EGR_CTRL_HPROF ix0) (c.vec tpid) mv
  match ch.srv6, ch.tun with
  | some (e, segs), _ => some (s.srv6 e segs h tpid u c)
  | none, some (e, dip6) => s.tunnel e dip6 h u c
  | none, none => some c

/-- A packet rewritten, and whether check 3 of R501 fails it; none where it is REWRITE_INVALID. A packet too short to
hold an Ethernet header can only go as it is. -/
def State.rewrite (s : State) (ch : Chain) (cls : Nat) (mv : List Byte) (u : Unstated) (pkt : List Byte) :
    Option (List Byte × Bool) :=
  let tpid := s.fld EGR_CTRL_TPID ix0
  let l2 := ch.l2
  let add := ch.srv6.isSome || ch.tun.isSome
  match strip tpid (bitsOf l2 14 3) pkt with
  | none => none
  | some c =>
    match c.popAll ch.mpls with
    | none => none
    | some c =>
      match c.l3op (bitsOf l2 12 2) with
      | none => none
      | some (c, late) =>
        match s.encap ch tpid mv u ((if add then c.payload else c).pushAll cls ch.mpls) with
        | none => none
        | some c =>
          match c.eth with
          | some h => (s.editEth tpid l2 h).map fun h => (h ++ beBytes 2 (c.type.getD u.type) ++ c.bytes, late)
          | none =>
            if bitsOf l2 14 3 = 0 && !add then
              (if bitAt l2 37 || bitAt l2 36 || bitsOf l2 34 2 != 0 || !ch.mpls.isEmpty then none else some (pkt, late))
            else some (s.newEth tpid l2 ++ beBytes 2 (c.type.getD u.type) ++ c.bytes, late)

end Sys2Proof.Machine
end

