-- ==== Sys2Proof/Machine/Egress.lean ====
section
/-!
DEFINITION. Machine/Egress.lean: an egress pipeline's work on a packet: the chain, the checks, the egress lookups, the
copies, IEEE 1588 and the MAC (spec/16_egress_rewrite.md R486 to R507).
-/
namespace Sys2Proof.Machine

open Fld

/-! ## The egress lookups, R488 -/

/-- The egress metadata vector. -/
def egrMv (dport prof rewrite cls : Nat) : List Byte :=
  zeros 4 ++ beBytes 2 dport ++ zeros 8 ++ beBytes 1 prof ++ zeros 1 ++ beBytes 3 (rewrite % 2 ^ 21) ++ beBytes 1 cls ++ zeros 12

/-- One egress lookup (R262, R267, R304). -/
def State.egrLookup (s : State) (r : LkReq) (tag : Nat) (upset : List TableWord) (paths : List (List (BitVec 24))) :
    State × LkAns :=
  let (s, res) : State × LkRes :=
    if r.target = 1 then
      let key := beNat r.key
      let s := s.emUpsets r.param key upset
      (s, (s.emLookup r.param key tag).1)
    else if r.target = 2 then s.routeFind (r.param == 1) r.key tag (paths.getD r.d []) upset
    else s.asaLookup r.param r.key tag upset
  (s, ⟨r.d, r.fwd, res⟩)

/-- The lookups of an egress profile, in descriptor order. -/
def State.egrLookups (s : State) (tag : Nat) (upset : List TableWord) (paths : List (List (BitVec 24))) :
    List LkReq → State × List LkAns
  | [] => (s, [])
  | r :: rs =>
    let (s, a) := s.egrLookup r tag upset paths
    let (s, as) := s.egrLookups tag upset paths rs
    (s, a :: as)

/-- The drop that the egress lookups decide (R488). -/
def egrDrop (as : List LkAns) : Option Nat :=
  if as.any (fun a => a.res == .tableError || a.res == .groupError) then some causeTableError
  else if (asaActs as).any (fun a => bitAt a.1 25) then some causeAclDeny
  else as.findSome? fun (a : LkAns) =>
    match a.res with
    | .hit r _ _ => if resType r = 3 then some (resIndex r % 256) else none
    | _ => none

/-! ## Copies, R503, R504 -/

/-- A copy or punt of an egress pipeline goes back to the QX die. -/
def State.sendBack (s : State) (slice : Nat) (o : PipeOut) : State := s.couchSend slice (.back slice o) o.size

/-- A copy for the host, with the destination port as its source port (R501, R504). -/
def State.backHost (s : State) (slice ring cause : Nat) (p : EgrPkt) (bytes : List Byte) : State :=
  let t := p.ts.getD (0, 0)
  s.sendBack slice (.host { ring := ring, bytes := bytes, srcPort := p.dport, cause := cause, tsSec := t.1, tsNs := t.2 })

/-- A drop in the egress pipeline. What has come over the fabric has no ingress port here (spec/12_buffering.md R386).
-/
def State.egrDropped (s : State) (cause : Nat) (bytes : List Byte) : State := s.countDrop cause bytes.length 0x1FF 0

/-- A punt under an action, or a drop with the same cause (R501, R510). -/
def State.egrPunt (s : State) (act : Bool) (slice cause : Nat) (p : EgrPkt) (bytes : List Byte) : State :=
  let ring := s.fld EGR_PORT_PUNT_RING (ixI p.dport)
  if act && ring ≤ 6143 then s.backHost slice ring cause p bytes else s.egrDropped cause bytes

/-- The egress mirror copy: the session that an ASA action names, else the port's (R503). -/
def State.egrMirror (s : State) (slice : Nat) (acts : List (Nat × Nat)) (p : EgrPkt) (bytes : List Byte) (ream : Nat) : State :=
  let m := ((acts.find? fun a => bitsOf a.1 49 4 != 0).map fun a => bitsOf a.1 49 4).getD (s.fld EGR_PORT_MIRROR (ixI p.dport))
  if m = 0 || !s.flag EGR_MIRROR0_EN (ixI m) then s
  else
    s.sendBack slice (.fwd { src := p.dport, bytes := bytes, ts := p.ts, cls := p.cls, tos := 0, policer := none, mirror := 0,
                             dest := .session m, ream := ream })

/-- The port's sampler counts the packet and may copy it; a RANDOM choice is free (R504). -/
def State.egrSample (s : State) (slice : Nat) (p : EgrPkt) (bytes : List Byte) : State :=
  let k := s.fld EGR_PORT_SAMPLER (ixI p.dport)
  let x := ixI k
  let n := s.fld EGR_SAMPLER_N x
  if k = 0 || n = 0 || 6143 < s.fld EGR_SAMPLER_RING x then s
  else
    let c := tblGet 0 s.egr.sampled k + 1
    let random := s.flag EGR_SAMPLER_RANDOM x
    let take := if random then s.free.toNat % n == 0 else decide (n ≤ c)
    let s := if random then s.used else s
    let s := { s with egr := { s.egr with sampled := tblPut k (if take then 0 else c) s.egr.sampled } }
    let t := s.fld EGR_SAMPLER_TRUNC x
    if take then s.backHost slice (s.fld EGR_SAMPLER_RING x) causeSampled p (if t = 0 then bytes else bytes.take (64 * t)) else s

/-! ## IEEE 1588, R505, R506 -/

/-- Bytes of a message replaced, with the UDP checksum of its carrier (R505): 0 for IPv4, updated for IPv6. -/
def ptpPut (v6 : Bool) (udp : Option Nat) (b : List Byte) (o : Nat) (new : List Byte) : List Byte :=
  let b' := overwrite b o new
  match udp with
  | none => b'
  | some u =>
    if v6 then
      let c := ((words16 (bytesAt b o new.length)).zip (words16 (bytesAt b' o new.length))).foldl
        (fun c (w : Nat × Nat) => csumAdj c w.1 w.2) (u16 b (u + 6))
      overwrite b' (u + 6) (beBytes 2 (if c = 0 then 0xFFFF else c))
    else overwrite b' (u + 6) [0, 0]

/-- The residence time of a message in units of 2^-16 ns: the counter less the ingress time-stamp, whose seconds are 32
bits of the counter's (spec/15_fabric.md R471). -/
def TimSt.since (t : TimSt) (sec ns : Nat) : Int :=
  (signedOf 32 (t.sec % 2 ^ 32 + 2 ^ 32 - sec % 2 ^ 32) * 1000000000 + t.ns - ns) * 65536 + t.frac

/-- A correctionField with a time added, as a number of 64 bits. -/
def ptpCorr (b : List Byte) (o : Nat) (d : Int) : List Byte :=
  beBytes 8 (((beNat (bytesAt b (o + 8) 8) : Int) + d) % 2 ^ 64).toNat

/-- A capture's export record (R506). -/
def State.ptpCapture (s : State) (port o : Nat) (b : List Byte) : State :=
  if s.flag EGR_CTRL_PTP_EXP_EN ix0 then
    s.exportRec (s.fld EGR_CTRL_PTP_RING ix0) 4
      (leBytes 1 (u8 b o % 16) ++ leBytes 1 (u8 b (o + 4)) ++ leBytes 2 port ++ leBytes 2 (u16 b (o + 30))
        ++ leBytes 10 (beNat (bytesAt b (o + 20) 10)) ++ leBytes 4 s.tim.sec ++ leBytes 4 s.tim.ns ++ leBytes 2 s.tim.frac)
  else s

/-- What PTP_MODE does to an outgoing event message (R505). -/
def State.ptpMark (s : State) (p : EgrPkt) (b : List Byte) : State × List Byte :=
  let x := extract (s.fld EGR_CTRL_TPID ix0) b
  let mode := s.fld EGR_PORT_PTP_MODE (ixI p.dport)
  match x.ptp (b.take 128) with
  | none => (s, b)
  | some (o, udp) =>
    let v6 := x.ip.any (·.v6)
    if 3 < u8 b o % 16 || udp.any (fun u => u16 b (u + 2) != 319) || mode = 0 then (s, b)
    else if mode = 1 then
      match p.ts with
      | none => ((s.count EGR_PTP_NO_TS_COUNT ix0 1).raise EGR_INT_STATUS_PTP_NO_TS, b)
      | some (sec, ns) => (s, ptpPut v6 udp b (o + 8) (ptpCorr b o (s.tim.since sec ns)))
    else if mode = 2 && u8 b o % 16 = 0 && !bitAt (u8 b (o + 6)) 1 then
      let b' := ptpPut v6 udp b (o + 8) (ptpCorr b o s.tim.frac)
      (s, ptpPut v6 udp b' (o + 34) (beBytes 6 s.tim.sec ++ beBytes 4 s.tim.ns))
    else (s.ptpCapture p.dport o b, b)

/-! ## To the MAC, R507 -/

/-- A frame as the MAC sends it: padded to 60 bytes, with its FCS. -/
def macFrame (b : List Byte) : List Byte :=
  let f := b ++ zeros (60 - b.length)
  f ++ leBytes 4 (crc32 f)

/-- A packet leaves the order stage: at a MAC port as a frame; at a recirculation port to the dispatcher of its slice;
nothing takes it at a host port (spec/01_architecture.md R29). -/
def State.egrOut (s : State) (slice : Nat) (p : EgrPkt) (b : List Byte) : State :=
  if p.dport < 256 then
    if !s.portTx p.dport then s
    else
      let (s, b) := s.ptpMark p b
      s.emit (.frame p.dport (macFrame b))
  else if p.dport % 2 = 1 then s.arrive slice { port := p.dport, bytes := b, ts := none, direct := none, fseq := 0 }
  else s

/-! ## The order stage, R30 -/

/-- A packet of the order stage leaves when no packet before it to its port is still in a pipeline; `busy` are the ports
of those. What stays is given with the state. -/
def State.egrLeave (s : State) : List Nat → List EgrSlot → State × List EgrSlot
  | _, [] => (s, [])
  | busy, e :: t =>
    match e.out with
    | none =>
      let (s, stay) := s.egrLeave (e.pkt.dport :: busy) t
      (s, e :: stay)
    | some out =>
      if busy.contains e.pkt.dport then
        let (s, stay) := s.egrLeave busy t
        (s, e :: stay)
      else
        let s := match out with
          | some b => s.egrOut e.slice e.pkt b
          | none => s
        s.egrLeave busy t

/-- Order per destination port is restored before the MAC (R30). -/
def State.settleEgress (s : State) : State :=
  let (s, stay) := s.egrLeave [] s.egr.waiting
  { s with egr := { s.egr with waiting := stay } }

/-! ## The packet, R486, R501 -/

/-- Check 6 of R501, the copies and the frame that is left, for a packet that has passed the checks before. -/
def State.egrFinish (s : State) (slice ream : Nat) (upset : List TableWord) (paths : List (List (BitVec 24))) (p : EgrPkt)
    (mv b : List Byte) : State × Option (List Byte) :=
  let tag := ream % 16
  let (s, prof, bad) := s.readProf (s.fld EGR_PORT_PROFILE (ixI p.dport)) tag
  let (s, as) := s.egrLookups tag upset paths
    (if bad then [] else descReqs (keyVec (s.fld EGR_CTRL_TPID ix0) b) mv prof [0, 1, 2, 3] 2)
  let acts := asaActs as
  let s := acts.foldl (fun s a => if bitAt a.2 21 then s.countOnDie (bitsOf a.2 0 21) b.length else s) s
  let s := match acts.find? fun a => bitAt a.1 53 && bitsOf a.2 22 13 ≤ 6143 with
    | some a => s.backHost slice (bitsOf a.2 22 13) causeAclCopy p b
    | none => s
  match if bad then some causeTableError else egrDrop as with
  | some c => (s.egrDropped c b, none)
  | none => ((s.egrMirror slice acts p b ream).egrSample slice p b, some b)

/-- A packet of an egress pipeline, from its stamp (spec/11_reams.md R329, R339) to the frame that is left of it, if any
(R486, R501). -/
def State.egrRun (s : State) (slice pipe : Nat) (upset : List TableWord) (paths : List (List (BitVec 24))) (older : Bool)
    (p : EgrPkt) : State × Option (List Byte) :=
  let full := 64 + 4 * slice + pipe
  let ream := s.stampFor full older
  let s := { s with ing := { s.ing with stamped := tblPut full ream s.ing.stamped } }
  let s := s.upsets upset
  let x := ixI p.dport
  let mv := egrMv p.dport (s.fld EGR_PORT_PROFILE x) p.rewrite p.cls
  match s.readChain (ream % 16) 29 (p.rewrite % 2 ^ 21) with
  | (s, .error c) => (s.egrDropped c p.bytes, none)
  | (s, .ok es) =>
    let u := unstated s.free
    match (parseChain es).bind fun ch => s.rewrite ch p.cls mv u p.bytes with
    | none => (s.egrDropped causeRewriteInvalid p.bytes, none)
    | some (b, late) =>
      let s := s.used
      if late then (s.egrPunt (s.flag EGR_PORT_TTL_ACT x) slice causeTtlExpired p p.bytes, none)
      else if p.bytes.length + 192 < b.length then (s.egrDropped causeGrowthLimit b, none)
      else if s.fld EGR_PORT_MTU x < b.length + 4 then (s.egrPunt (s.flag EGR_PORT_MTU_ACT x) slice causeMtu p b, none)
      else s.egrFinish slice ream upset paths p mv b

/-- The packet that an egress pipeline works on: its oldest one not yet processed. -/
def EgrSlot.next (pipe : Nat) (e : EgrSlot) : Bool := 4 * e.slice + e.pipe == pipe && e.out.isNone

/-- EGRESS_PROCESS: the oldest packet of an egress pipeline is processed, held for `stall` cycles by full bank queues
(spec/09_lookup.md R251); frames leave in order per port (R30). A group that drains may have nothing left then
(spec/18_protection.md R547). -/
def egressProcess (pipe : Fin 64) (upset : List TableWord) (paths : List (List (BitVec 24))) (older : Bool)
    (stall : BitVec 32) (s : State) : State :=
  match s.egr.waiting.find? (EgrSlot.next pipe.val) with
  | none => s
  | some e =>
    if !s.pipesUp then s
    else
      let (s, out) := (s.stalls stall.toNat).egrRun e.slice e.pipe upset paths older e.pkt
      let waiting := modFirst (EgrSlot.next pipe.val) (fun (x : EgrSlot) => { x with out := some out }) s.egr.waiting
      let s := ({ s with egr := { s.egr with waiting := waiting } }).settleEgress
      match s.protOf e.pkt.dport with
      | some g => s.drainSettle g
      | none => s

end Sys2Proof.Machine
end

