-- ==== Sys2Proof/Machine/FlexE.lean ====
section
/-!
DEFINITION. Machine/FlexE.lean: FlexE groups and clients, fabric circuits, and the slot cross-connect
(spec/06_line_flexe.md R189 to R205).
-/
namespace Sys2Proof.Machine

open Fld

/-! ## The connection memory, R194 to R196 -/

/-- The address ranges of the standby and the active page (R205). -/
def sbyBase : Nat := regAddr .flxXcSby0 ix0
def actBase : Nat := regAddr .flxXcAct0 ix0
def pageSize : Nat := 10240 * 16

/-- The cells of a register list within a page. -/
def pageCells (base : Nat) (regs : List RegCell) : List RegCell :=
  regs.filter (fun c => base ≤ c.1 && c.1 < base + pageSize)

/-- The pages change places: the standby page becomes the active one and the other way round (R195). -/
def swapPages (regs : List RegCell) : List RegCell :=
  let sby := pageCells sbyBase regs
  let act := pageCells actBase regs
  let rest := regs.filter (fun c => !(sbyBase ≤ c.1 && c.1 < sbyBase + pageSize) && !(actBase ≤ c.1 && c.1 < actBase + pageSize))
  let put (l : List RegCell) (d : Nat → Nat) (r : List RegCell) := l.foldl (fun r c => tblPut (d c.1) c.2 r) r
  put sby (· - sbyBase + actBase) (put act (· - actBase + sbyBase) rest)

/-- The active page copied into the standby page (R195). -/
def copyPage (regs : List RegCell) : List RegCell :=
  let act := pageCells actBase regs
  let rest := regs.filter (fun c => !(sbyBase ≤ c.1 && c.1 < sbyBase + pageSize))
  act.foldl (fun r c => tblPut (c.1 - actBase + sbyBase) c.2 r) rest

/-- The slots whose active entry takes its blocks from a local receive slot (R194). -/
def State.localEntries (s : State) : List (Nat × Nat) :=
  ((pageCells actBase s.regs).filter (fun c => (c.1 - actBase) % 16 = 0 && FLX_XC_ACT0_TX_SRC.get c.2 = 1)).map
    (fun c => ((c.1 - actBase) / 16, FLX_XC_ACT0_SRC_SLOT.get c.2))

/-- The number of a fabric member played here: of source module, circuit and member. -/
def memberKey (m ckt member : Nat) : Nat := (m * 4096 + ckt) * 256 + member

/-- The fabric members that the active entries in force play (R194). -/
def State.fabricMembers (s : State) : List Nat :=
  ((pageCells actBase s.regs).filter (fun c => (c.1 - actBase) % 16 = 0 && FLX_XC_ACT0_TX_SRC.get c.2 = 2
      && s.circuitSlot ((c.1 - actBase) / 16))).map
    (fun c => memberKey (FLX_XC_ACT0_SRC_MOD.get c.2) (FLX_XC_ACT0_SRC_CKT.get c.2) (FLX_XC_ACT0_SRC_MEMBER.get c.2))

/-- After the calendars or the pages have changed: each slot in force whose source slot belongs to no circuit client in
force counts in SRC_ERR (R196); the buffers of members no longer played are gone, and a member newly played starts
unfilled (R198). -/
def State.xcSettle (s : State) : State :=
  let bad := (s.localEntries.filter (fun e => s.circuitSlot e.1 && !s.circuitSlot e.2)).length
  let ms := s.fabricMembers
  let s := { s with lin := { s.lin with playout := s.lin.playout.filter (fun p => ms.contains p.1) } }
  s.count FLX_XC_STATUS_SRC_ERR ix0 bad

/-- The page switch (R195). -/
def State.pageSwitch (s : State) : State :=
  let s := { s with regs := swapPages s.regs }
  let s := s.set FLX_XC_STATUS_ACTIVE ix0 (1 - s.fld FLX_XC_STATUS_ACTIVE ix0)
  let s := s.set FLX_XC_STATUS_ARMED ix0 0
  let s := s.set FLX_XC_STATUS_SWITCHES ix0 (s.fld FLX_XC_STATUS_SWITCHES ix0 + 1)
  s.raise FLX_INT_STATUS_XC_SWITCHED

/-- Whether the counter has reached FLX_XC_TIME (R195, R204). -/
def State.xcTimeReached (s : State) : Bool :=
  let sec := s.fld FLX_XC_TIME_SEC ix0
  let now := s.tim.sec % 2 ^ 32
  sec < now || (sec = now && s.fld FLX_XC_TIME_NS ix0 ≤ s.tim.ns)

/-- FLX_XC_CTRL written (R195, R196, R204): while ARMED a DISARM is obeyed and all else is discarded. -/
def State.xcCtrl (s : State) (req : Req) (v : W64) : State :=
  let s := s.flushRw .flx 0
  if s.flag FLX_XC_STATUS_ARMED ix0 then
    let changes := (s.rd .flxXcCtrl ix0 ^^^ v) &&& classMask .flxXcCtrl .rw != 0
    if FLX_XC_CTRL_DISARM.get v = 1 then
      let s := s.set FLX_XC_STATUS_ARMED ix0 0
      if changes then s.violation .flx 0 else s
    else s.violation .flx 0
  else
    let s := s.ownWrite req .flxXcCtrl ix0 v 0
    let s := if FLX_XC_CTRL_COPY.get v = 1 then s.set FLX_XC_STATUS_COPY_BUSY ix0 1 else s
    if FLX_XC_CTRL_ARM.get v = 1 then
      let s := s.set FLX_XC_STATUS_ARMED ix0 1
      if s.fld FLX_XC_CTRL_MODE ix0 = 0 && s.xcTimeReached then
        (s.count FLX_XC_STATUS_LATE ix0 1).raise FLX_INT_STATUS_XC_LATE
      else s
    else s

/-- COPY. -/
def copy (req : Req) (v : W64) (s : State) : State := s.xcCtrl req (v ||| FLX_XC_CTRL_COPY.mask)

/-- ARM. -/
def arm (req : Req) (v : W64) (s : State) : State := s.xcCtrl req (v ||| FLX_XC_CTRL_ARM.mask)

/-- DISARM. -/
def disarm (req : Req) (v : W64) (s : State) : State := s.xcCtrl req (v ||| FLX_XC_CTRL_DISARM.mask)

/-- COPY_DONE: the standby page holds what the active page holds (R195). -/
def copyDone (s : State) : State :=
  if s.flag FLX_XC_STATUS_COPY_BUSY ix0 then
    ({ s with regs := copyPage s.regs }).set FLX_XC_STATUS_COPY_BUSY ix0 0
  else s

/-- A write to the standby page, or to FLX_XC_TIME, that the arming or a copy forbids (R196, R204). -/
def State.xcEntryRefused (s : State) : Bool := s.flag FLX_XC_STATUS_ARMED ix0 || s.flag FLX_XC_STATUS_COPY_BUSY ix0

/-! ## Groups and calendars, R191, R192 -/

/-- Whether a calendar entry is one that its slot's group is using (R192). -/
def State.calInUse (s : State) (cal slot : Nat) : Bool :=
  match s.groupOfSlot slot with
  | some n => s.fld FLX_GROUP_CFG_CAL_ACTIVE (ixI n) = cal
  | none => false

/-- FLX_GROUP_CFG written (R191, R192, R200): GROUP_NUM while STOPPED, EN, then CAL_REQ of a running group unless a
switch is in progress. -/
def State.groupWrite (s : State) (req : Req) (n : Nat) (v : W64) : State :=
  let s := (s.watchSf (s.groupEnts n) fun s => s.ownWrite req .flxGroupCfg (ixI n) v 0).failSettle
  let s := if s.groupRuns n then s else { s with lin := { s.lin with calReq := s.lin.calReq.filter (· != n) } }
  let s := if FLX_GROUP_CFG_CAL_REQ.get v = 1 && s.groupRuns n && !s.lin.calReq.contains n then
    { s with lin := { s.lin with calReq := s.lin.calReq ++ [n] } } else s
  s.protJudge

/-- FLX_GROUP_ENABLE. -/
def flxGroupEnable (req : Req) (n : Fin 32) (v : W64) (s : State) : State :=
  s.groupWrite req n.val (v &&& ~~~FLX_GROUP_CFG_CAL_REQ.mask)

/-- CAL_REQ. -/
def calReq (req : Req) (n : Fin 32) (v : W64) (s : State) : State :=
  s.groupWrite req n.val (v ||| FLX_GROUP_CFG_CAL_REQ.mask)

/-- A page switch armed in calendar mode waits for this group (R195). -/
def State.xcWaitsFor (s : State) (n : Nat) : Bool :=
  s.flag FLX_XC_STATUS_ARMED ix0 && s.fld FLX_XC_CTRL_MODE ix0 = 1 && s.fld FLX_XC_CTRL_CAL_GROUP ix0 = n

/-- The calendar of a group whose switch is under way changes (R192). -/
def State.calTo (s : State) (n : Nat) : State :=
  if s.lin.calReq.contains n then
    let s := { s with lin := { s.lin with calReq := s.lin.calReq.filter (· != n) } }
    (s.set FLX_GROUP_CFG_CAL_ACTIVE (ixI n) (1 - s.fld FLX_GROUP_CFG_CAL_ACTIVE (ixI n))).raise FLX_INT_STATUS_CAL_SWITCHED
  else s

/-- The group switches calendars at the boundary that the protocol names (R192); a page switch armed for it happens
with it, the new calendar and the new page applying together (R195, R196). -/
def State.calSwitch (s : State) (n : Nat) : State :=
  if s.lin.calReq.contains n && s.domUp domFC then
    let s := s.calTo n
    (if s.xcWaitsFor n then s.pageSwitch else s).xcSettle
  else s

/-- CALENDAR_SWITCH. -/
def calendarSwitch (n : Fin 32) (s : State) : State := s.calSwitch n.val

/-- XC_PAGE_SWITCH: in time mode once the counter has reached FLX_XC_TIME, in calendar mode with the calendar switch of
CAL_GROUP (R195); it waits while TM is in reset (R196). The calendars of the groups in `joined` switch at the same
boundary: new calendars and new page apply together, in either mode (R196). -/
def xcPageSwitch (joined : List (Fin 32)) (s : State) : State :=
  let cal := s.fld FLX_XC_CTRL_CAL_GROUP ix0
  let ready :=
    if s.fld FLX_XC_CTRL_MODE ix0 = 1 then s.lin.calReq.contains cal else s.domUp domTM && s.xcTimeReached
  if s.flag FLX_XC_STATUS_ARMED ix0 && s.domUp domFC && ready then
    let gs := joined.map Fin.val
    let gs := if s.fld FLX_XC_CTRL_MODE ix0 = 1 then cal :: gs else gs
    (gs.foldl State.calTo s).pageSwitch.xcSettle
  else s

/-- CAL_FAIL: the far end has not acknowledged within 10 ms; an armed page switch stays armed (R192, R196). -/
def calFail (n : Fin 32) (s : State) : State :=
  if s.lin.calReq.contains n.val then
    ({ s with lin := { s.lin with calReq := s.lin.calReq.filter (· != n.val) } }).raise FLX_INT_STATUS_CAL_FAIL
  else s

/-! ## Clients and circuits, R193, R197 -/

/-- Whether a client may be enabled: a packet client's PORT is a lane of its group, and no other enabled packet client
has it (R193). -/
def State.clientOk (s : State) (c : Nat) : Bool :=
  s.flag FLX_CLIENT_TERM (ixI c) ||
    ((s.groupLanes (s.fld FLX_CLIENT_GROUP (ixI c))).contains (s.fld FLX_CLIENT_PORT (ixI c)) &&
      (s.clientOfPort (s.fld FLX_CLIENT_PORT (ixI c))).isNone)

/-- FLX_CLIENT_ENABLE: FLX_CLIENT written (R193, R202). -/
def flxClientEnable (req : Req) (c : Fin 512) (v : W64) (s : State) : State :=
  let ix := ixI c.val
  let s := (s.watchSf [entClient c.val] fun s => s.ownWrite req .flxClient ix v FLX_CLIENT_EN.mask).failSettle
  let en := FLX_CLIENT_EN.get v = 1
  if en == s.flag FLX_CLIENT_EN ix then s
  else if en then (if s.clientOk c.val then s.set FLX_CLIENT_EN ix 1 else s.violation .flx 0)
  else s.set FLX_CLIENT_EN ix 0

/-- FLX_CKT_ENABLE: FLX_CKT written (R197, R202). -/
def flxCktEnable (req : Req) (c : Fin 4096) (v : W64) (s : State) : State := s.ownWrite req .flxCkt (ixI c.val) v 0

/-! ## What a transmit slot sends, R194, R196, R198 -/

/-- What a calendar slot carries. -/
inductive SlotTx where
  /-- the agreement's unavailable-slot pattern -/
  | unavailable
  /-- the 66B blocks of a packet client's MAC -/
  | packet (client : Nat)
  /-- the blocks of a local receive slot -/
  | slot (src : Nat)
  /-- the blocks of a fabric member from its playout buffer -/
  | member (key : Nat)
  /-- Local Fault ordered sets -/
  | localFault
  deriving DecidableEq, Repr

/-- A receive slot's group is in signal fail, or its client in CLIENT_FAIL, as the consequent actions see it (R198,
spec/07_line_monitoring.md R210, R213). -/
def State.slotFails (s : State) (src : Nat) : Bool :=
  (match s.groupOfSlot src with
    | some n => s.sfActs (entGroup n)
    | none => false) ||
  (match s.slotClient src with
    | some c => s.sfActs (entClient c)
    | none => false)

/-- What transmit slot g sends now (R193, R194, R196, R198). -/
def State.slotTx (s : State) (g : Nat) : SlotTx :=
  match s.slotClient g with
  | none => .unavailable
  | some c =>
    if !s.flag FLX_CLIENT_TERM (ixI c) then .packet c
    else
      match s.fld FLX_XC_ACT0_TX_SRC (ixI g) with
      | 1 =>
        let src := s.fld FLX_XC_ACT0_SRC_SLOT (ixI g)
        if !s.circuitSlot src then .unavailable
        else if s.slotFails src then .localFault else .slot src
      | 2 =>
        let k := memberKey (s.fld FLX_XC_ACT0_SRC_MOD (ixI g)) (s.fld FLX_XC_ACT0_SRC_CKT (ixI g))
          (s.fld FLX_XC_ACT0_SRC_MEMBER (ixI g))
        match tblFind k s.lin.playout with
        | some p => if p.filled then .member k else .localFault
        | none => .localFault
      | _ => .unavailable

end Sys2Proof.Machine
end

