-- ==== Sys2Proof/Machine/Credit.lean ====
section
/-!
DEFINITION. Machine/Credit.lean: run control and flush of the queues, the credit of VOQs, the credit scheduler,
reservations, and arrivals at their egress queue (spec/14_scheduling.md R412 to R425).
-/
namespace Sys2Proof.Machine

open Fld

/-! ## Run control and flush, R413, R414, R416 -/

/-- QSC_RUN: QSC_CTRL written; VOQ_BLOCKS outside 1 to 8 discards the write (R441). -/
def qscRun (req : Req) (v : W64) (s : State) : State :=
  let n := QSC_CTRL_VOQ_BLOCKS.get v
  if !s.domUp domQC then s
  else if n = 0 || 8 < n then (s.flushRw .qsc 0).violation .qsc 0
  else
    let s := s.ownWrite req .qscCtrl ix0 v QSC_CTRL_RUN.mask
    let run := QSC_CTRL_RUN.get v
    (s.set QSC_CTRL_RUN ix0 run).set QSC_CTRL_STOPPED ix0 (1 - run)

/-- QUEUE_FLUSH_START: the packets that QUEUE holds now are to be dropped; a GO while BUSY is ignored (R416). -/
def queueFlushStart (req : Req) (v : W64) (s : State) : State :=
  if !s.domUp domQC then s
  else
    let s := s.ownWrite req .qscFlush ix0 v 0
    match s.qsc.flush with
    | some _ => s
    | none =>
      let q := s.fld QSC_FLUSH_QUEUE ix0
      ({ s with qsc := { s.qsc with flush := some (q, (s.queue q).pkts.length) } }).set QSC_FLUSH_BUSY ix0 1

/-- QUEUE_FLUSH_DONE: from the head on, no packet that the queue held at the write remains; what has arrived since is
judged (R416). -/
def queueFlushDone (s : State) : State :=
  match s.qsc.flush with
  | none => s
  | some (q, n) =>
    let s := { s with qsc := { s.qsc with flush := none } }
    (((s.dropHead q n causeQueueFlush).set QSC_FLUSH_BUSY ix0 0).raise QSC_INT_STATUS_FLUSH_DONE).takeLate

/-! ## The VOQ side, R417 to R420 -/

/-- QUANTUM in bytes and REQ_MAX as they act (R444). -/
def State.quantum (s : State) : Nat :=
  let q := s.fld CRD_CTRL_QUANTUM ix0
  1024 * 2 ^ (if 4 < q then 2 else q)
def State.reqMax (s : State) : Nat := max 1 (min 8 (s.fld CRD_CTRL_REQ_MAX ix0))

/-- Whether a VOQ asks for a quantum (R417, spec/15_fabric.md R470). -/
def State.asks (s : State) (q : Nat) : Bool :=
  let x := s.queue q
  let b := x.bytes
  q < s.voqEnd && 0 < b && x.balance + (x.out * s.quantum : Nat) < (b : Int) && x.out < s.reqMax && !x.backoff
    && !s.fab.dropping.contains (s.voqAddr q)

/-- CREDIT_REQUEST: a VOQ requests one quantum, of both mates where its destination is a pair (R417,
spec/15_fabric.md R474). -/
def creditRequest (q : BitVec 20) (s : State) : State :=
  let q := q.toNat
  if !s.domUp domQC || !s.asks q then s
  else
    let a := s.voqAddr q
    let d := a / 2
    let pair : Bool := decide (a % 2 = 1)
    let m := CtlMsg.request (q / 8 % 32) (q % 8) d pair
    let s := s.modQueue q fun x => { x with out := x.out + 1 }
    let s := s.sendMsg d m
    if pair then s.sendMsg (d + 1) m else s

/-- The VOQ that an answer is for. -/
def answeredVoq (pg cls addr : Nat) (pair : Bool) : Nat := (if pair then addr / 2 * 2 else addr) * 256 + pg * 8 + cls

/-- A VOQ matches an answer by its source, its destination module or either mate of a pair, and by its address
(spec/15_fabric.md R474). -/
def State.answers (s : State) (src pg cls addr : Nat) (pair : Bool) : Bool :=
  let q := answeredVoq pg cls addr pair
  q < s.voqEnd && (if pair then src / 2 == addr / 2 else src == addr)
    && s.voqAddr q == (if pair then addr / 2 * 4 + 1 else 2 * addr)

/-- A request of a VOQ has been answered by a defer, or not in time (R418). -/
def State.deferred (s : State) (q : Nat) : State :=
  s.modQueue q fun x => { x with out := x.out - 1, backoff := s.fld CRD_CTRL_DEFER_BACKOFF ix0 != 0 }

/-- GRANT: the oldest grant that has arrived raises its VOQ's BALANCE (R418 to R420). -/
def grant (s : State) : State :=
  match s.takeRx (fun c => match c with | .msg _ (.grant ..) _ => true | _ => false) with
  | some (.msg src (.grant pg cls addr pair bytes) _, s) =>
    let q := answeredVoq pg cls addr pair
    if !s.answers src pg cls addr pair then s
    else
      let x := s.queue q
      let b := x.balance + bytes
      let s := s.setQueue q { x with balance := b, out := x.out - 1, granter := src }
      let s := if x.balance ≤ 0 && 0 < b && !s.qsc.elig.contains q then
          { s with qsc := { s.qsc with elig := s.qsc.elig ++ [q] } }
        else s
      s.voqSettle q
  | _ => s

/-- DEFER: the oldest defer that has arrived starts its VOQ's back-off (R418). -/
def defer (s : State) : State :=
  match s.takeRx (fun c => match c with | .msg _ (.defer ..) _ => true | _ => false) with
  | some (.msg src (.defer pg cls addr pair _) _, s) =>
    if s.answers src pg cls addr pair then s.deferred (answeredVoq pg cls addr pair) else s
  | _ => s

/-- DEFER_BACKOFF_EXPIRY. -/
def deferBackoffExpiry (q : BitVec 20) (s : State) : State :=
  if (s.queue q.toNat).backoff then s.modQueue q.toNat fun x => { x with backoff := false } else s

/-- REQ_TIMEOUT: a request was not answered within REQ_TIMEOUT µs (R418). -/
def reqTimeout (q : BitVec 20) (s : State) : State :=
  if (s.queue q.toNat).out = 0 then s
  else ((s.deferred q.toNat).count CRD_REQ_TIMEOUT_COUNT ix0 1).raise CRD_INT_STATUS_REQ_TIMEOUT

/-- The head packet of an eligible VOQ can leave now: QSC runs (R414), it is on die whole (R371), and its cells have a
link to take, later than 100 µs after QC was released (spec/15_fabric.md R469, R470, R472); cells for this module need
none (R466). -/
def State.servable (s : State) (q : Nat) : Bool :=
  let a := s.voqAddr q
  match (s.queue q).pkts with
  | [] => false
  | p :: _ =>
    p.cells.all CellAt.onDie &&
      (s.isLocal a || (!(s.sprayFor a).isEmpty && !s.fab.dropping.contains a && s.fab.qcOut + 500000 ≤ s.now))

/-- A packet has arrived at its destination: its cells are requester 16's (spec/15_fabric.md R473). -/
def State.reassembled (s : State) (a : EgrArr) : State :=
  let n := cellsOf a.bytes.length
  let (s, ok) := s.cover 16 n
  if ok then
    let (s, hs) := s.useCells 16 n none
    { s with adm := { s.adm with egress := s.adm.egress ++ [{ a with cells := hs }] } }
  else (s.countDrop causePoolEmpty a.bytes.length 0x1FF 0).usedDown a.pg a.cls a.bytes.length

/-- VOQ_DEQUEUE: the first VOQ in the order in which balances became positive sends its head packet (R419); into its
stream, or for this module straight to the reassembler (spec/15_fabric.md R466). With a cell of it read with an
uncorrectable error (`ue`), it is dropped (spec/12_buffering.md R373). -/
def voqDequeue (ue : Bool) (s : State) : State :=
  if !s.domUp domQC || !s.flag QSC_CTRL_RUN ix0 then s
  else
    match s.qsc.elig.find? s.servable with
    | none => s
    | some q =>
      match (s.queue q).pkts with
      | [] => s
      | p :: _ =>
        if ue then s.dropHead q 1 causeMemUncorrectable else
        let s := (s.popQueue q 1).1
        let s := s.modQueue q fun x => { x with
          balance := x.balance - p.bytes.length, hwmNs := max x.hwmNs ((s.now - p.enq) / 5) }
        let a : EgrArr := ⟨p.bytes, [], false, q / 8 % 32, q % 8, p.dport, p.rewrite, p.ts⟩
        let s := if s.isLocal (s.voqAddr q) then s.reassembled a else s.stream q p
        s.voqSettle q

/-! ## The credit scheduler, R421 to R424 -/

/-- A request enters its slot of 16, else the arrival queue of 1,024, else it is discarded (R421). -/
def State.enterReq (s : State) (r : CrdReq) : State :=
  if s.crd.slotReqs.length < 16 then { s with crd := { s.crd with slotReqs := s.crd.slotReqs ++ [r] } }
  else if s.crd.queue.length < 1024 then { s with crd := { s.crd with queue := s.crd.queue ++ [r] } }
  else (s.count CRD_REQ_OVF_COUNT ix0 1).raise CRD_INT_STATUS_REQ_OVF

/-- REQUEST_ARRIVAL: the oldest request that has arrived (R421). -/
def requestArrival (s : State) : State :=
  match s.takeRx (fun c => match c with | .msg _ (.request ..) _ => true | _ => false) with
  | some (.msg src (.request pg cls addr pair) _, s) => s.enterReq ⟨src, pg, cls, addr, pair⟩
  | _ => s

/-- The reserved rate in units of 64 kb/s (R425): of the enabled reservations among the registers that differ from
reset. -/
def State.resMembers (s : State) : Nat :=
  s.regs.foldl (fun a (c : RegCell) =>
    if 0xD002000 ≤ c.1 && c.1 < 0xD00A000 && CRD_RES_EN.get c.2 = 1 then a + CRD_RES_MEMBERS_M1.get c.2 + 1 else a) 0
def State.resRate (s : State) : Nat := s.resMembers * s.fld CRD_FAB_MEMBER_MBPS ix0 * 125 / 8

/-- A bucket after n slots at a rate, under its cap (R423). -/
def fillCap (x rate cap n : Nat) : Nat := min cap (x + rate * 256 * n)

/-- The module bucket and a group's bucket as they stand now (R423). -/
def State.modCredit (s : State) : Nat :=
  fillCap s.crd.modBucket (s.fld CRD_FAB_FAB_RATE ix0 - s.resRate) (4 * s.quantum * byteUnits) (s.slotNow - s.crd.at_)
def State.groupCredit (s : State) (g : Nat) : Nat :=
  fillCap (tblGet 0 s.crd.groups g) (s.fld CRD_PG_CFG_RATE (ixI g))
    (max 1 (s.fld CRD_PG_CFG_BURST (ixI g)) * s.quantum * byteUnits) (s.slotNow - s.crd.at_)

/-- Both kinds of bucket brought up to the present slot. -/
def State.crdSettle (s : State) : State :=
  { s with crd := { s.crd with
      modBucket := s.modCredit, groups := (List.range 32).map (fun g => (g, s.groupCredit g)), at_ := s.slotNow } }

/-- The window of a group (R423). -/
def State.windowOk (s : State) (g k : Nat) : Bool :=
  let q := s.quantum
  let guar := fun j => s.fld CRD_CLASS_GUAR (ixIJ g j) * q
  let used := fun j => s.fld CRD_CLASS_USED (ixIJ g j)
  shareOk (max 1 (s.fld CRD_PG_CFG_WINDOW (ixI g)) * q) ((List.range 8).foldl (fun a j => a + guar j) 0) 0
    ((List.range 8).foldl (fun a j => a + (used j - guar j)) 0) (used k) (guar k) q (s.fld CRD_CLASS_ALPHA (ixIJ g k))

/-- The reason that a request is deferred for; none grants it (R414, R422). -/
def State.deferReason (s : State) (g k : Nat) : Option Nat :=
  let need := s.quantum * byteUnits
  if !s.flag QSC_CTRL_RUN ix0 || !s.flag CRD_PG_CFG_EN (ixI g) then some 0
  else if s.crd.modBucket < need then some 1
  else if tblGet 0 s.crd.groups g < need then some 2
  else if !s.windowOk g k then some 3
  else none

/-- A request is judged and answered (R422, R424). The buckets stand at the present slot. -/
def State.judgeReq (s : State) (r : CrdReq) : State :=
  if r.pair && !s.answersPair r.pg then s
  else
    match s.deferReason r.pg r.cls with
    | some x => (s.count CRD_DEFERS_COUNT (ixI x) 1).sendMsg r.src (.defer r.pg r.cls r.addr r.pair x)
    | none =>
      let q := s.quantum
      let need := q * byteUnits
      let s := { s with crd := { s.crd with
        modBucket := s.crd.modBucket - need, groups := tblMod 0 r.pg (· - need) s.crd.groups } }
      let s := s.set CRD_CLASS_USED (ixIJ r.pg r.cls) (s.fld CRD_CLASS_USED (ixIJ r.pg r.cls) + q)
      (s.count CRD_GRANTS_COUNT ix0 1).sendMsg r.src (.grant r.pg r.cls r.addr r.pair q)

/-- CREDIT_SLOT: the requests of a slot are judged in rotating order of their positions, and those that wait enter the
next slot (R421, R422). -/
def creditSlot (s : State) : State :=
  if !s.domUp domQC then s
  else
    let rs := s.crd.slotReqs
    let order := rs.drop s.crd.ptr ++ rs.take s.crd.ptr
    let s := s.crdSettle
    let s := { s with crd := { s.crd with
      slotReqs := s.crd.queue.take 16, queue := s.crd.queue.drop 16, ptr := (s.crd.ptr + 1) % 16 } }
    order.foldl State.judgeReq s

/-- CREDIT_RETURN_RECEIVE: the oldest RETURN that has arrived lowers USED (R420, R423). -/
def creditReturnReceive (s : State) : State :=
  match s.takeRx (fun c => match c with | .msg _ (.creditReturn ..) _ => true | _ => false) with
  | some (.msg _ (.creditReturn pg cls bytes) _, s) => s.usedDown pg cls bytes
  | _ => s

/-- IDLE_CLR: a class has had neither grant nor departure for IDLE_CLR µs (R423). -/
def idleClr (g : Fin 32) (k : Fin 8) (s : State) : State := s.set CRD_CLASS_USED (ixIJ g.val k.val) 0

/-! ## Reservations, R425 -/

/-- CRD_RES_ENABLE: an entry of CRD_RES written; an EN that would reserve more than FAB_RATE is discarded (R425,
R446). -/
def crdResEnable (req : Req) (r : Fin 4096) (v : W64) (s : State) : State :=
  if !s.domUp domQC then s
  else
    let ix := ixI r.val
    let s := (s.ownWrite req .crdRes ix v CRD_RES_EN.mask).crdSettle
    let on := CRD_RES_EN.get v
    let t := s.set CRD_RES_EN ix on
    if s.resRate < t.resRate && s.fld CRD_FAB_FAB_RATE ix0 < t.resRate then s.violation .crd 0 else t

/-! ## Arrivals, R415 -/

/-- The egress queue of an arrival (R415); none where it is a VOQ ID, lies beyond the queue IDs, or its destination
port is no port. -/
def State.egressQueue (s : State) (port rewrite cls : Nat) : Option Nat :=
  let ix := ixI port
  let base := s.fld QSC_EQ_MAP_BASE ix
  let rw := s.fld QSC_EQ_MAP_RW_BASE ix
  let q :=
    if s.flag QSC_EQ_MAP_MODE ix && rw ≤ rewrite && rewrite - rw < s.fld QSC_EQ_MAP_SPAN ix then
      base + 8 * (rewrite - rw) + cls
    else base + cls
  if 288 ≤ port || q < s.voqEnd || 1048576 ≤ q then none else some q

/-- EGRESS_ENQUEUE: the oldest packet that has arrived at this module meets its port's role (spec/18_protection.md R533,
R534) and is judged for its egress queue (R369, R415). A drop lowers USED (R423). -/
def egressEnqueue (s : State) : State :=
  match s.adm.egress with
  | [] => s
  | a :: rest =>
    let s := { s with adm := { s.adm with egress := rest } }
    match s.egressRole a.dport a.pair with
    | .pass =>
      let p : QPkt := ⟨a.bytes, [], 0x1FF, a.pg, a.cls, a.dport, a.rewrite, a.ts, s.now, none⟩
      match s.egressQueue a.dport a.rewrite a.cls with
      | none =>
        let c := if s.flag QSC_CTRL_RUN ix0 then causeQueueMax else causeQueueFlush
        ((s.dropCells (ownCells 16 a.cells)).admitDrop 0 c a.bytes.length 0x1FF).usedDown a.pg a.cls a.bytes.length
      | some q =>
        match s.takeIn q 16 (some a.cells) p with
        | (s, true) => s
        | (s, false) => s.usedDown a.pg a.cls a.bytes.length
    | f => (s.dropCells (ownCells 16 a.cells)).roleDiscard f 1

end Sys2Proof.Machine
end

