-- ==== Sys2Proof/Machine/Fabric.lean ====
section
/-!
DEFINITION. Machine/Fabric.lean: macros, alignment of fabric and felt lanes, received cells, reachability, the
transmitter, heartbeats, slot cells and playout (spec/15_fabric.md R455 to R480).
-/
namespace Sys2Proof.Machine

open Fld

/-! ## Macros, R455, R480 -/

/-- FAB_MACRO_RUN: FAB_MACRO_CTRL written: LEGACY while STOPPED, then RUN. RUN 1 on a legacy macro needs a MODULE_ID
below 1,024. -/
def fabMacroRun (req : Req) (n : Fin 5) (v : W64) (s : State) : State :=
  let m := n.val
  if !s.domUp (domFB m) then s
  else
    let s := s.ownWrite req .fabMacroCtrl (ixN m) v FAB_MACRO_CTRL_RUN.mask
    let run := FAB_MACRO_CTRL_RUN.get v = 1
    if run == s.macroRuns m then s
    else if run && s.flag FAB_MACRO_CTRL_LEGACY (ixN m) && 1024 ≤ s.ownId then s.violation .fab m
    else
      let s := (s.set FAB_MACRO_CTRL_RUN (ixN m) (ofBool run)).set FAB_MACRO_CTRL_STOPPED (ixN m) (ofBool (!run))
      let ls := (s.fab.links.filter fun e => e.1 / 64 = m).map (·.1)
      let s := s.watchSf (ls.map entLink) fun s => ls.foldl (fun s l => s.linkReset l) s
      ((List.range 64).foldl (fun s j => s.newMarkers (64 * m + j)) s).settleFab.protJudge

/-! ## Alignment, R457 to R461 -/

/-- One byte into CRC-8 with polynomial x^8 + x^2 + x + 1 (R457). -/
def crc8Byte (c : Nat) (b : Byte) : Nat :=
  (List.range 8).foldl (fun c _ => if bitAt c 7 then (c * 2) % 256 ^^^ 7 else c * 2) (c ^^^ b.toNat)

/-- CRC-8 of R457 over bytes, initial value 0. -/
def crc8 (bs : List Byte) : Nat := bs.foldl crc8Byte 0

/-- What a marker is (R457). -/
inductive MarkerKind where
  | good | tolerated | errored
  deriving DecidableEq, Repr

/-- PATTERN of a lane (R457, spec/18_protection.md R536). -/
def lanePattern : Lane → Nat
  | .fab _ => 0x4B1ED27C8F05A3E9
  | .felt _ => 0xE3D057A61C9B42F8

/-- A marker judged by PATTERN and CHECK (R457). -/
def markerKind (lane : Lane) (m : List Byte) : MarkerKind :=
  let diff := popcount 64 (beNat (bytesAt m 0 8) ^^^ lanePattern lane)
  if crc8 (bytesAt m 8 6) != beNat (bytesAt m 14 1) || 4 < diff then .errored
  else if diff = 0 then .good
  else .tolerated

/-- A lane receives: its macro runs and it is enabled (R455, R459), or its felt lane is. -/
def State.laneOn (s : State) : Lane → Bool
  | .fab l => s.linkRuns l.val
  | .felt i => s.laneRuns i.val

/-- A lane's alignment. -/
def State.align (s : State) : Lane → AlignSt
  | .fab l => (s.link l.val).align
  | .felt i => s.feltLane i.val
def State.setAlign (s : State) (lane : Lane) (a : AlignSt) : State :=
  match lane with
  | .fab l => s.modLink l.val fun x => { x with align := a }
  | .felt i => { s with prt := { s.prt with lanes := tblPut i.val a s.prt.lanes } }

/-- A candidate position beyond the 32 that are tracked is ignored (R460). -/
def State.candOverflow (s : State) : Lane → State
  | .fab l => s.count FAB_CAND_OVF_COUNT (linkIx l.val) 1
  | .felt _ => s

/-- A position checked during SEARCH (R459): a good marker makes or strengthens a candidate, anything else discards the
candidate that expects one there. -/
def State.searchMark (s : State) (lane : Lane) (pos : Nat) (k : MarkerKind) : State :=
  let a := s.align lane
  let here := fun (c : Cand) => c.pos = pos
  match k with
  | .good =>
    if a.cands.any here then
      s.setAlign lane { a with cands := a.cands.map fun c => if c.pos = pos then { c with count := c.count + 1, seen := true } else c }
    else if 32 ≤ a.cands.length then s.candOverflow lane
    else s.setAlign lane { a with cands := a.cands ++ [(⟨pos, 1, true⟩ : Cand)] }
  | _ => s.setAlign lane { a with cands := a.cands.filter fun c => !here c }

/-- A LOCKED lane returns to SEARCH after six errored markers in a row, and a fabric link so to LOA (R461). -/
def State.laneLost (s : State) : Lane → State
  | .fab l => s.defectTo (entLink l.val) fun s => s.linkUnlock l.val
  | .felt i => ((s.setAlign (.felt i) AlignSt.init).newFeltMarkers i.val).protJudge

/-- The fields of a marker at the locked position of a link (R457, R461, R482). -/
def State.markFields (s : State) (l : Nat) (m : List Byte) : State :=
  let w := beNat (bytesAt m 8 3)
  let rdi := bitAt w 3
  let was := s.flag FAB_LINK_STATUS_RDI_RX (linkIx l)
  let s := ((s.set FAB_LINK_STATUS_FAR_ID (linkIx l) (w / 2 ^ 13)).set FAB_LINK_STATUS_FAR_LINK (linkIx l) (w / 16)).set
    FAB_LINK_STATUS_FAR_LEGACY (linkIx l) (ofBool (bitAt w 2))
  let s := s.modLink l fun x => { x with skip := false }
  if rdi == was then s
  else
    ((s.set FAB_LINK_STATUS_RDI_RX (linkIx l) (ofBool rdi)).raiseAt FAB_INT_STATUS_RDI_CHG (l / 64) 0 l 0).settleFab.protJudge

/-- The locked position checked (R461, R468). -/
def State.lockedMark (s : State) (lane : Lane) (m : List Byte) (k : MarkerKind) : State :=
  let a := s.align lane
  match k with
  | .errored =>
    let s := match lane with
      | .fab l => s.modLink l.val fun x => { x with rejoined := false }
      | .felt _ => s
    if 6 ≤ a.errRun + 1 then s.laneLost lane
    else
      let s := s.setAlign lane { a with errRun := a.errRun + 1 }
      match lane with
      | .fab _ => s.settleFab.protJudge
      | .felt _ => s
  | _ =>
    let s := s.setAlign lane { a with errRun := 0 }
    match lane with
    | .fab l => s.markFields l.val m
    | .felt _ => s

/-- MARKER_RECEIVE: the 15 bytes at a bit position of the frame are checked: on a LOCKED lane the locked position only,
in SEARCH any (R459, R461). -/
def markerReceive (lane : Lane) (pos : Fin 174080) (marker : List Byte) (s : State) : State :=
  if !s.laneOn lane then s
  else
    match (s.align lane).locked with
    | some p => if p = pos.val then s.lockedMark lane marker (markerKind lane marker) else s
    | none => s.searchMark lane pos.val (markerKind lane marker)

/-- SEARCH_WINDOW_END: a candidate whose position brought no marker in the window is gone; one candidate at count 4
locks, two or more are AMBIGUOUS (R459, R460). -/
def searchWindowEnd (lane : Lane) (s : State) : State :=
  let a := s.align lane
  if !s.laneOn lane || a.locked.isSome then s
  else
    let cands := (a.cands.filter (·.seen)).map fun c => { c with seen := false }
    match cands.filter fun c => 4 ≤ c.count with
    | [] => s.setAlign lane { a with cands := cands }
    | [c] =>
      let lock := fun (s : State) => s.setAlign lane { AlignSt.init with locked := some c.pos }
      match lane with
      | .fab l =>
        s.defectTo (entLink l.val) fun s => ((lock s).raiseAt FAB_INT_STATUS_LOCK_CHG (l.val / 64) 0 l.val 0).newMarkers l.val
      | .felt i => ((lock s).newFeltMarkers i.val).protJudge
    | _ =>
      let s := s.setAlign lane AlignSt.init
      match lane with
      | .fab l => (s.count FAB_AMBIG_COUNT (linkIx l.val) 1).raiseAt FAB_INT_STATUS_AMBIGUOUS (l.val / 64) 0 l.val 0
      | .felt _ => s

/-- SPRAY_REJOIN: a link has been LOCKED without an errored marker for REJOIN_FRAMES frames (R468). -/
def sprayRejoin (l : Fin 320) (s : State) : State :=
  if (s.link l.val).align.locked.isNone then s
  else ((s.modLink l.val fun x => { x with rejoined := true }).settleFab).protJudge

/-! ## Received cells, R463 to R466, R479 -/

/-- Delineation is lost: bytes are discarded up to the next frame's CELL_PTR (R464). -/
def State.delinLost (s : State) (l : Nat) : State :=
  (s.count FAB_HCS_ERR_COUNT (linkIx l) 1).modLink l fun x => { x with skip := true }

/-- A cell for another address is discarded (R466); ARG0 names its source. -/
def State.misaddr (s : State) (src : Nat) : State :=
  (s.count FABCMN_MISADDR_COUNT ix0 1).raiseAt FABCMN_INT_STATUS_MISADDR 0 0 src 0

/-- The messages of an accepted control cell (R474), with its arrival (R476). -/
def State.putMsgs (s : State) (src : Nat) (payload : List Byte) : State :=
  (List.range 4).foldl (fun s i =>
    match ctlMsgOf (bytesAt payload (16 * i) 16) with
    | some m => s.putRx (.msg src m s.tim.total)
    | none => s) s

/-- A cell whose header is sound, native or legacy, as TYPE, DEST, P, SRC, what it carries, and its payload (R466). -/
def State.acceptCell (s : State) (l type dest : Nat) (pair : Bool) (src : Nat) (body : RxCell) (payload : List Byte) : State :=
  if type = 0 || !s.domUp domQC then s
  else if type = 4 then s.putRx (.link l payload)
  else if type = 2 then
    if dest = s.ownId then s.putMsgs src payload else s.misaddr src
  else if src = s.ownId && pair then s
  else if 2 * dest + ofBool pair = s.addrOf s.ownId then s.putRx body
  else s.misaddr src

/-- A native cell (R463, R464, R477). -/
def State.nativeCell (s : State) (l : Nat) (c : List Byte) : State :=
  let n := fun i k => beNat (bytesAt c i k)
  let type := n 0 1 / 16
  let len := n 0 1 % 16
  if crc16 (bytesAt c 0 14) != n 14 2 || 12 < len then s.delinLost l
  else if 4 < type then s.count FAB_HCS_ERR_COUNT (linkIx l) 1
  else
    let payload := bytesAt c 16 (64 + 32 * len)
    let src := n 3 2 / 32
    let pair := bitAt (n 1 2) 4
    let body : RxCell :=
      if type = 1 then
        .data ⟨src, pair, n 3 2 % 32, n 5 2 / 8192, n 5 2 / 32 % 256, n 7 4, false, n 11 2 / 128, payload⟩
      else .slot src (n 5 2 / 16) (n 7 1) (n 9 2) (bitAt (beNat (bytesAt payload 0 2)) 15) (bytesAt payload 2 446)
    s.acceptCell l type (n 1 2 / 32) pair src body payload

/-- A legacy cell (R479, R480). -/
def State.legacyCell (s : State) (l : Nat) (c : List Byte) : State :=
  let n := fun i k => beNat (bytesAt c i k)
  let type := n 0 1 / 16
  let len := n 0 1 % 16
  if crc16 (bytesAt c 0 10) != n 10 2 || 3 < len then s.delinLost l
  else if type != 0 && type != 1 && type != 2 && type != 4 then s.count FAB_HCS_ERR_COUNT (linkIx l) 1
  else
    let payload := bytesAt c 12 (64 * (len + 1))
    let src := n 3 2 / 64
    let body : RxCell := .data ⟨src, false, n 3 2 / 2 % 32, n 1 2 / 8 % 8, 0, n 5 3, true, n 8 2 / 128, payload⟩
    s.acceptCell l type (n 1 2 / 64) false src body payload

/-- CELL_RECEIVE: a cell on a LOCKED link in delineation. -/
def cellReceive (l : Fin 320) (cell : List Byte) (s : State) : State :=
  let l := l.val
  if !s.linkRuns l || (s.link l).align.locked.isNone || (s.link l).skip then s
  else if s.legacy l then s.legacyCell l cell
  else s.nativeCell l cell

/-! ## Reachability, R467, R470 -/

/-- A link cell with a payload. -/
def State.linkCell (s : State) (leg : Bool) (payload : List Byte) : List Byte :=
  (if leg then legacyHdr 4 0 0 (s.ownId * 64) 0 0 else nativeHdr 4 0 0 (s.ownId * 32) 0 0 0) ++ bytesAt payload 0 64

/-- ADVERT: on every LOCKED link (R467). -/
def advert (s : State) : State :=
  if !s.domUp domQC then s
  else
    let flags := ofBool (s.gen.phase == .run) + 2 * ofBool (s.mapped s.ownId)
    let ls := (s.fab.links.filter fun e => s.linkTx e.1 && e.2.align.locked.isSome).map (·.1)
    ls.foldl (fun s l => s.modLink l fun x => { x with
      txLink := x.txLink ++ [s.linkCell (s.legacy l) (beBytes 1 1 ++ beBytes 1 flags)] }) s

/-- REACH: the oldest link cell that has arrived; only LTYPE 0x02 has a meaning here, and on a legacy link blocks 0 to 3
only (R467, R479). -/
def reach (s : State) : State :=
  match s.takeRx (fun c => match c with | .link .. => true | _ => false) with
  | some (.link l p, s) =>
    let block := beNat (bytesAt p 1 1) % 8
    if beNat (bytesAt p 0 1) != 2 || (s.legacy l && 4 ≤ block) then s
    else
      ((s.modLink l fun x => { x with maps := tblPut block (beNat (bytesAt p 4 32)) x.maps }).settleFab).protJudge
  | _ => s

/-- REACH_TIMEOUT: no REACH for a block for 100 µs (R467). -/
def reachTimeout (l : Fin 320) (block : Fin 8) (s : State) : State :=
  ((s.modLink l.val fun x => { x with maps := tblDel block.val x.maps }).settleFab).protJudge

/-- An address as a command names it: a module, or the pair that it belongs to. -/
def addrNamed (d : Nat) (pair : Bool) : Nat := if pair then d / 2 * 4 + 1 else 2 * d

/-- UNREACH_HOLD_EXPIRY: an address that has been unreachable for UNREACH_HOLD drops what its VOQs hold and get
(R470). -/
def unreachHoldExpiry (d : Fin 2048) (pair : Bool) (s : State) : State :=
  let a := addrNamed d.val pair
  if s.canReach a || s.fab.dropping.contains a || !s.domUp domQC || s.gen.phase != .run then s
  else
    let s := { s with fab := { s.fab with dropping := s.fab.dropping ++ [a] } }
    let qs := (s.qsc.qs.filter fun e => e.1 < s.voqEnd && s.voqAddr e.1 = a && !e.2.pkts.isEmpty).map (·.1)
    qs.foldl (fun s q => s.dropHead q (s.queue q).pkts.length causeFabricUnreachable) s

/-! ## The transmitter, R462, R469, R476 -/

/-- A message as it leaves: a time message's T is the departure, and that of TIME_DREQ is kept (R476,
spec/17_time.md R523). -/
def CtlMsg.departing (t : Nat) : CtlMsg → CtlMsg
  | .timeSync x _ => .timeSync x t
  | .timeDreq x _ => .timeDreq x t
  | m => m

/-- A TIME_DREQ has left. -/
def State.departed (s : State) (m : CtlMsg) : State :=
  match m, s.tim.exch with
  | .timeDreq x _, some e => if e.xseq.toNat = x then { s with tim := { s.tim with exch := some { e with t3 := s.tim.total } } } else s
  | _, _ => s

/-- An idle cell of 80 bytes (R462). -/
def idleCell (leg : Bool) : List Byte := (if leg then legacyHdr 0 0 0 0 0 0 else nativeHdr 0 0 0 0 0 0 0) ++ zeros 64

/-- CELL_TRANSMIT: a link that transmits sends its next cell: link cells, then control, slot and data cells, else an
idle cell; outside RUN idle cells only (R462, R469, spec/03_startup_reset.md R79). -/
def cellTransmit (l : Fin 320) (s : State) : State :=
  let l := l.val
  let x := s.link l
  if !s.linkTx l then s
  else if s.gen.phase != .run then s.emit (.cell l (idleCell (s.legacy l)))
  else
    match x.txLink, x.txCtl, x.txSlot, x.txData with
    | c :: t, _, _, _ => (s.setLink l { x with txLink := t }).emit (.cell l c)
    | [], (d, ms) :: t, _, _ =>
      let s := s.setLink l { x with txCtl := t }
      let cell := s.ctlCell (s.legacy l) d (ms.map (CtlMsg.departing s.tim.total))
      (ms.foldl (fun s m => s.departed m) s).emit (.cell l cell)
    | [], [], c :: t, _ => (s.setLink l { x with txSlot := t }).emit (.cell l c)
    | [], [], [], c :: t => (s.setLink l { x with txData := t }).emit (.cell l c)
    | [], [], [], [] => s.emit (.cell l (idleCell (s.legacy l)))

/-- SEQ_RESTART: no data cell has gone to an address for 6 ms (R472). -/
def seqRestart (d : Fin 2048) (pair : Bool) (s : State) : State :=
  { s with fab := { s.fab with seqs := tblDel (addrNamed d.val pair) s.fab.seqs } }

/-! ## Heartbeats, R475, spec/18_protection.md R540, R541 -/

/-- HEARTBEAT_SEND: every 64 µs in RUN, to the mate and to every monitored module. -/
def heartbeatSend (s : State) : State :=
  if s.gen.phase != .run || !s.domUp domQC then s
  else
    let m : CtlMsg := .heartbeat s.gen.phase.code s.fab.hbSeq.toNat s.activeBits
    let s' := s.fab.monitored.foldl (fun s d => s.sendCtl d [m]) s
    { s' with fab := { s'.fab with hbSeq := s'.fab.hbSeq + 1 } }

/-- The mate's fabric HEARTBEAT is a sign of its life; two within 16 µs while the felt path is lost set the fast limit
(spec/18_protection.md R540, R541). -/
def State.mateBeat (s : State) (active : Nat) : State :=
  let quick := match s.prt.lastFab with
    | some t => decide (s.now ≤ t + 80000)
    | none => false
  { s with prt := { s.prt with lastFab := some s.now, fabActive := active, fast := s.prt.fast || (quick && !s.prt.felt) } }

/-- HEARTBEAT: the oldest that has arrived restores its source (R475). -/
def heartbeat (s : State) : State :=
  match s.takeRx (fun c => match c with | .msg _ (.heartbeat ..) _ => true | _ => false) with
  | some (.msg src (.heartbeat _ _ act) _, s) =>
    if !s.monitors src || !s.domUp domQC then s
    else
      let s := if s.fab.hbUp.contains src then s
        else
          let f := { s.fab with
            hbUp := s.fab.hbUp ++ [src], monitored := if s.fab.monitored.contains src then s.fab.monitored else src :: s.fab.monitored }
          ({ s with fab := f }).raiseAt FABCMN_INT_STATUS_HB_RESTORED 0 0 src 0
      let s := if s.mapped s.ownId && src = mateOf s.ownId then s.mateBeat act else s
      s.settleReach.protJudge
  | _ => s

/-- HEARTBEAT_LOST: a monitored source has been silent for 192 µs (R475). -/
def heartbeatLost (src : Fin 2048) (s : State) : State :=
  let d := src.val
  if !s.fab.hbUp.contains d then s
  else
    let s := { s with fab := { s.fab with hbUp := s.fab.hbUp.filter (· != d) } }
    let s := s.raiseAt FABCMN_INT_STATUS_HB_LOST 0 0 d 0
    let s := if s.mapped s.ownId && d = mateOf s.ownId then { s with prt := { s.prt with lastFab := none } } else s
    s.settleReach.protJudge

/-! ## Slot cells, R477, R478, spec/06_line_flexe.md R197, R198 -/

/-- A loss at playout (R478). -/
def State.fabLoss (s : State) : State := (s.count FLX_XC_STATUS_FAB_LOSS ix0 1).raise FLX_INT_STATUS_XC_FAB_LOSS

/-- A circuit has an enabled reservation that covers a member (R425). -/
def State.memberReserved (s : State) (src ckt member : Nat) : Bool :=
  (List.range 4096).any fun r => s.flag CRD_RES_EN (ixI r) && s.fld CRD_RES_SRC_MOD (ixI r) = src
    && s.fld CRD_RES_SRC_CKT (ixI r) = ckt && member ≤ s.fld CRD_RES_MEMBERS_M1 (ixI r)

/-- PLAYOUT µs as a number of cells, each of which plays for 691.2 ns (R197, R477). -/
def State.playoutFull (s : State) (cells : Nat) : Bool := max 1 (s.fld FLX_XC_CTRL_PLAYOUT ix0) * 10000 ≤ cells * 6912

/-- The earliest of the cells of a buffer, by MSEQ modulo 2^16 from the first one. -/
def firstMseq (cs : List SlotCell) : BitVec 16 :=
  match cs with
  | [] => 0
  | c :: t => t.foldl (fun a x => if (x.mseq - a).toNat < 32768 then a else x.mseq) c.mseq

/-- A slot cell enters its member's playout buffer: one whose turn has passed is discarded; the buffer plays once it
has filled (R197, R478). -/
def State.toPlayout (s : State) (k : Nat) (c : SlotCell) : State :=
  let p : Playout := tblGet ⟨false, 0, []⟩ s.lin.playout k
  if p.filled && !((c.mseq - p.next).toNat < 32768) then s.fabLoss
  else
    let cs := p.cells ++ [c]
    let q : Playout := if p.filled then { p with cells := cs }
      else ⟨s.playoutFull cs.length, firstMseq cs, cs⟩
    { s with lin := { s.lin with playout := tblPut k q s.lin.playout } }

/-- SLOT_CELL: the oldest slot cell accepted; without a reservation it is discarded (R425, R478); a member that no
transmit slot plays has no buffer. -/
def slotCell (s : State) : State :=
  match s.takeRx (fun c => match c with | .slot .. => true | _ => false) with
  | some (.slot src ckt member mseq lf blocks, s) =>
    if !s.domUp domFC then s
    else if !s.memberReserved src ckt member then s.fabLoss
    else if !s.fabricMembers.contains (memberKey src ckt member) then s
    else s.toPlayout (memberKey src ckt member) ⟨BitVec.ofNat 16 mseq, lf, blocks⟩
  | _ => s

/-- The transmit slots that play a fabric member. -/
def State.slotsOf (s : State) (k : Nat) : List Nat :=
  ((pageCells actBase s.regs).filter fun c => (c.1 - actBase) % 16 = 0 && FLX_XC_ACT0_TX_SRC.get c.2 = 2
    && memberKey (FLX_XC_ACT0_SRC_MOD.get c.2) (FLX_XC_ACT0_SRC_CKT.get c.2) (FLX_XC_ACT0_SRC_MEMBER.get c.2) = k).map
    fun c => (c.1 - actBase) / 16

/-- A FlexE group's transmit slots are sent: its protection group's role lets them, and never while ALIVE_OUT_N is
released (spec/18_protection.md R533, R535, R547). -/
def State.flexeTx (s : State) (n : Nat) : Bool :=
  s.gen.lineTx && s.groupOn n && (match s.protOfFlexe n with | some g => s.active g && s.gen.aliveOut | none => true)

/-- PLAYOUT_TURN: a member's turn: its next cell plays; Local Fault plays in its place while the buffer has not filled,
when the cell is missing or when its source failed (R198, R478). A buffer that has run empty fills again. -/
def playoutTurn (src : Fin 2048) (ckt : Fin 4096) (member : Fin 256) (s : State) : State :=
  let k := memberKey src.val ckt.val member.val
  let sent := (s.slotsOf k).any fun g => match s.groupOfSlot g with | some n => s.circuitSlot g && s.flexeTx n | none => false
  let play := fun (s : State) (lf : Bool) (blocks : List Byte) =>
    if sent then s.emit (.played src.val ckt.val member.val lf (if lf then [] else blocks)) else s
  if !s.domUp domFC || !s.fabricMembers.contains k then s
  else
    match tblFind k s.lin.playout with
    | none => play s true []
    | some p =>
      if !p.filled then play s true []
      else
        let put := fun (s : State) (q : Playout) => { s with lin := { s.lin with playout := tblPut k q s.lin.playout } }
        match takeFirst (fun c => c.mseq == p.next) p.cells with
        | some (c, rest) => play (put s { p with next := p.next + 1, cells := rest }) c.lf c.blocks
        | none =>
          if p.cells.isEmpty then play (put s ⟨false, 0, []⟩).fabLoss true []
          else play (put s { p with next := p.next + 1 }).fabLoss true []

end Sys2Proof.Machine
end

