-- ==== Sys2Proof/Machine/Reams.lean ====
section
/-!
DEFINITION. Machine/Reams.lean: the Commit Engine: staging and judging change descriptors, the commit instant, draining
and settlement, and table reads (spec/11_reams.md R328 to R355, R619).
-/
namespace Sys2Proof.Machine

open Fld

/-! ## What a change descriptor names, R330, R331, R619 -/

/-- The number of indices of a table, and whether an index is in it (R330). -/
def indexOk (t i : Nat) : Bool :=
  if t = tRoute then i < 12582912
  else if t = tNextHop then i < 1048576
  else if t = tGroup then i < 65536
  else if t = tMember then i < 1048576
  else if t = tProfile then i < 256
  else if t = tProfSel then i < 4096
  else if t = tBd then i < 65536
  else if t = tStore then i < 131072
  else if t = tEntry then i < 512 && i % 32 < 18
  else if t = tRewrite then i < 2097152
  else if t = tMcast then i < 65536
  else if t = tRepl then i < 262144
  else i < 1048576 && i / 32768 = t - 0x10

/-- The units of a route record of a family (R265); none for a family that has no record. -/
def famUnits (fam : Nat) : Option Nat := if fam = 1 then some 1 else if fam = 2 then some 2 else if fam = 3 then some 4 else none

/-- The width code of an ASA index's bank. -/
def State.asaWidthAt (s : State) (i : Nat) : Nat := s.fld ASA_BANK_CFG_WIDTH (ixI (i / 8192))

/-- The image size of an entry (R330); none where the image names no entry. -/
def State.imageSize (s : State) (t i img : Nat) : Option Nat :=
  if t = tRoute then (famUnits (bitsOf img 124 4)).map (16 * ·)
  else if t = tNextHop || t = tRewrite then some 16
  else if t = tProfile then some 64
  else if 0x10 ≤ t then some (24 + 32 * asaUnits (s.asaWidthAt i))
  else some 8

/-- The image that a descriptor carries, as a number (R331, R333). -/
def chgImg (d : ChgDesc) : Nat :=
  if d.inline then d.data.toNat else leNat (bytesAt d.image 0 d.len.toNat)

/-- LEN fits an image of this size (R619). -/
def chgLenOk (d : ChgDesc) (size : Nat) : Bool := d.len.toNat == size && (!d.inline || size == 8)

/-- KIND, KEY, RESULT and DATA of an exact-match image (R259, R331): a narrow image holds KIND in its top bits; a wide
one holds its first slot in bytes 16 to 31. -/
def emImage (len img : Nat) : Nat × Nat × Nat × Nat :=
  let kind := if len = 32 then bitsOf img 252 4 else bitsOf img 124 4
  (kind, if kindWide kind then bitsOf img 48 192 else bitsOf img 48 64, bitsOf img 24 24, bitsOf img 0 24)

/-- Unit j's value or mask as an ASA image holds it: VALUE_HI, VALUE_LO, MASK_HI, MASK_LO (R327, R331). -/
def asaUnit (img j w : Nat) : Nat := bitsOf img (192 + 256 * j + 128 * w) 16 * 2 ^ 64 + bitsOf img (192 + 256 * j + 128 * w + 64) 64

/-- The value or the mask of an ASA image: unit 0 holds the most significant bits (R300). -/
def asaWhole (img units w : Nat) : Nat := (List.range units).foldl (fun a j => a * 2 ^ 80 + asaUnit img j w) 0

/-- The entry of an ASA image at an index (R300, R302). -/
def asaOfImage (i width img : Nat) : AsaEnt :=
  { idx := i, loc := i, width := width, value := asaWhole img (asaUnits width) 0, mask := asaWhole img (asaUnits width) 1,
    prio := bitsOf img 0 24, valid := bitAt img 24, act0 := BitVec.ofNat 64 (bitsOf img 64 64),
    act1 := BitVec.ofNat 64 (bitsOf img 128 64), born := 0, retired := 0, shadow := false, reloc := false, link := 0,
    bad := false, off := false }

/-! ## Edits, R334, R338 -/

/-- Whether two commands of a ream name the same target (R338). -/
def sameTarget : Edit → Edit → Bool
  | .put k _ _ _, .put j _ _ _ | .put k _ _ _, .retire j | .retire k, .put j _ _ _ | .retire k, .retire j => k == j
  | .emAdd k q _ _ _ _, .emAdd l r _ _ _ _ | .emAdd k q _ _ _ _, .emDel l r | .emDel k q, .emAdd l r _ _ _ _
  | .emDel k q, .emDel l r => k == l && q == r
  | .asaPut e, .asaPut f => e.idx == f.idx
  | .asaPut e, .asaRetire i | .asaRetire i, .asaPut e => e.idx == i
  | .asaRetire i, .asaRetire j => i == j
  | _, _ => false

/-- Whether a command of the ream names an ASA index. -/
def namesUnit (i : Nat) : Edit → Bool
  | .asaPut e => e.idx == i
  | .asaRetire j => j == i
  | .asaMove a b => a == i || b == i
  | _ => false

/-- A version retired under tag f (R340). -/
def Ver.retire (f : Nat) (v : Ver) : Ver :=
  let (b, r) := retireTags f v.born v.retired
  { v with born := b, retired := r }

/-- The versions that the newest ream sees are retired. -/
def retireLive (f t : Nat) (vs : List Ver) : List Ver := vs.map fun (v : Ver) => if v.visible f t then v.retire f else v

/-- The route records whose units a record of `n` units at ID i would take (R265). -/
def routeOverlaps (x : TablesSt) (i n : Nat) : List Nat :=
  x.vers.filterMap fun e =>
    if tkeyTable e.1 = tRoute && tkeyIndex e.1 != i
      && e.2.any (fun (v : Ver) => tkeyIndex e.1 < i + n && i < tkeyIndex e.1 + v.len / 16) then some e.1 else none

/-- WRITE: a new version is born and what the newest ream saw at the index is retired (R334, R342). A route record also
retires the records whose units it takes (log entry 45). -/
def TablesSt.write (x : TablesSt) (f t k img len : Nat) (bad : Bool) : TablesSt :=
  let x := if tkeyTable k = tRoute then
      (routeOverlaps x (tkeyIndex k) (len / 16)).foldl (fun x j => x.putVers j (retireLive f t (x.at_ j))) x
    else x
  let (b, r) := bornTags f
  x.putVers k (retireLive f t (x.at_ k) ++ [(⟨b, r, cleanImg (tkeyTable k) img, len, bad⟩ : Ver)])

/-- Whether a slot holds an entry of a key that the ream of tag f stores, which is then no version of any ream. -/
def emBornKey (f kind key : Nat) : EmSlot → Bool
  | .entry k q _ _ l _ b t => k == kind && q == key && !l && emBornIn f b t
  | .poison _ => false

/-- The pool with the software entry of a key that the newest ream sees retired; a copy that the ream has made of it
goes. -/
def emRetireKey (f t kind key : Nat) (em : List (Nat × EmSlot)) : List (Nat × EmSlot) :=
  (em.filter fun e => !emBornKey f kind key e.2).map fun e =>
    if emIs kind key e.2 && emVisible f t e.2 then (e.1, emRetire f e.2) else e

/-- The pool without the learned entry of a key (R279). -/
def emForget (kind key : Nat) (em : List (Nat × EmSlot)) : List (Nat × EmSlot) :=
  em.filter fun e =>
    match e.2 with
    | .entry k q _ _ l _ _ _ => !(l && k == kind && q == key)
    | .poison _ => true

/-- The pool without learned entries in the slots of an entry of this KIND at slot i. -/
def emClear (kind i : Nat) (em : List (Nat × EmSlot)) : List (Nat × EmSlot) :=
  em.filter fun e => !(learnedAt [e] e.1 && (slotsOf kind i).any fun j => e.1 ≤ j && j < e.1 + emWidth e.2)

/-- EM_ADD at its commit instant. A slot that has become POISON since it was reserved stays so (R283). -/
def emAddApply (f t kind key res data : Nat) (slot : Option Nat) (moves : List (Nat × Nat)) (em : List (Nat × EmSlot)) :
    List (Nat × EmSlot) :=
  match slot with
  | none => em
  | some i =>
    let em := emClear kind i (moves.foldl (emMove f) (emRetireKey f t kind key (emForget kind key em)))
    let (b, r) := bornTags f
    if slotTaken em kind i then em else tblPut i (.entry kind key res data false false b r) em

/-- An ASA entry retired under tag f. -/
def AsaEnt.retire (f : Nat) (e : AsaEnt) : AsaEnt :=
  let (b, r) := retireTags f e.born e.retired
  { e with born := b, retired := r }

/-- What the newest ream sees at an ASA index is retired. -/
def asaRetireAt (f t i : Nat) (es : List AsaEnt) : List AsaEnt :=
  es.map fun (y : AsaEnt) => if y.idx == i && tagVisible f y.born y.retired t then y.retire f else y

/-- Whether a write at an entry's index is made in place: over disabled rows, or over an entry that was left off when
its row was enabled (R320). -/
def AsaSt.inPlace (x : AsaSt) (e : AsaEnt) : Bool :=
  x.rowsOff { e with loc := e.idx } || x.ents.any fun (y : AsaEnt) => y.off && y.overlaps e.idx (asaUnits e.width)

/-- WRITE to the ASA at its commit instant: in place over disabled rows, which are enabled again, while the other
entries of those rows stay off (R320); otherwise a new version, the old one retired (R342). -/
def AsaSt.write (x : AsaSt) (f t : Nat) (e : AsaEnt) : AsaSt :=
  let e := e.bornUnder f
  let here := { e with loc := e.idx }
  if x.inPlace e then
    let rows := (asaRows here).filter x.disRows.contains
    let keep := x.ents.filter fun (y : AsaEnt) => !y.overlaps e.idx (asaUnits e.width)
    let keep := keep.map fun (y : AsaEnt) => if (asaRows y).any rows.contains then { y with off := true } else y
    { x with ents := asaRetireAt f t e.idx keep ++ [here], disRows := x.disRows.filter (fun r => !rows.contains r) }
  else { x with ents := asaRetireAt f t e.idx x.ents ++ [e] }

/-- MOVE at its commit instant (R314). -/
def AsaSt.move (x : AsaSt) (f t src dst : Nat) : AsaSt :=
  match asaLive f t src x.ents with
  | none => x
  | some e =>
    let ents := x.ents.map fun (y : AsaEnt) =>
      if y.idx == src && tagVisible f y.born y.retired t then { y.retire f with reloc := true, link := dst } else y
    { x with ents := ents ++ [e.copyTo f dst] }

/-- A change takes its effect under tag f, when t is the tag that was newest (R334). -/
def applyEdit (f t : Nat) (x : TablesSt × AsaSt) : Edit → TablesSt × AsaSt
  | .put k img len bad => (x.1.write f t k img len bad, x.2)
  | .retire k => (x.1.putVers k (retireLive f t (x.1.at_ k)), x.2)
  | .emAdd k q r d slot moves => ({ x.1 with em := emAddApply f t k q r d slot moves x.1.em }, x.2)
  | .emMoves moves => ({ x.1 with em := moves.foldl (emMove f) x.1.em }, x.2)
  | .emDel k q => ({ x.1 with em := emRetireKey f t k q x.1.em }, x.2)
  | .asaPut e => (x.1, x.2.write f t e)
  | .asaRetire i => (x.1, { x.2 with ents := asaRetireAt f t i x.2.ents })
  | .asaMove a b => (x.1, x.2.move f t a b)

/-- The tables with the changes of the ream being staged. -/
def State.withEdits (s : State) (f : Nat) (es : List Edit) : TablesSt × AsaSt :=
  es.foldl (applyEdit f s.newTag) (s.tab, s.asa)

/-! ## Judging a change descriptor, R336, R338, R346 -/

/-- What becomes of a change descriptor: the code that rejects it, or the edits it makes and the changes it counts. -/
abbrev Judged := Except Nat (List Edit × Nat)

/-- The table IDs and parts whose room an edit can use. -/
def editParts : Edit → List (Nat × Nat)
  | .put k _ _ _ | .retire k => [(tkeyTable k, tablePart k)]
  | .emAdd .. | .emDel .. | .emMoves .. => [(tEm, 0)]
  | .asaPut e => [(0x10 + e.loc / 32768, 0)]
  | .asaRetire i => [(0x10 + i / 32768, 0)]
  | .asaMove a b => [(0x10 + a / 32768, 0), (0x10 + b / 32768, 0)]

/-- What remains of an edit when a later one of the ream takes its target (R338): the relocations of an EM_ADD, which
later commands may count on. -/
def leftOf (e x : Edit) : Option Edit :=
  if !sameTarget x e then some x
  else
    match x with
    | .emAdd _ _ _ _ _ (m :: ms) => some (.emMoves (m :: ms))
    | _ => none

/-- The edits of the ream with these added: an earlier one of the same target gives way (R338). -/
def addEdits (old new : List Edit) : List Edit := new.foldl (fun es e => es.filterMap (leftOf e) ++ [e]) old

/-- The state with an earlier command of the ream for the same target gone (R338). -/
def State.without (s : State) (e : Edit) : State :=
  { s with cmt := { s.cmt with edits := s.cmt.edits.filterMap (leftOf e) } }

/-- Whether every table that these edits touch has room for the ream with them (R346). -/
def State.roomFor (s : State) (new : List Edit) : Bool :=
  let f := s.nextTag
  let (tab, asa) := s.withEdits f (addEdits s.cmt.edits new)
  (new.flatMap editParts).all fun (t, part) =>
    let c := (tableCap t).getD 0
    let (live, used) := liveUsed (f + 1) f tab asa t part
    live + s.headroom t ≤ c && used ≤ c

/-- Room judged, or NO_ROOM. -/
def State.roomed (s : State) (es : List Edit) (n : Nat) : Judged := if s.roomFor es then .ok (es, n) else .error stNoRoom

/-- INDEX of a descriptor as it is judged: without its slice part where ALL_SLICES makes that ignored (R333, R619). -/
def chgIndex (d : ChgDesc) : Nat :=
  let i := d.index.toNat
  if d.allSlices && d.table.toNat = tStore then i % 8192
  else if d.allSlices && d.table.toNat = tEntry then i % 32 else i

/-- The keys that a descriptor on an indexed table names: one, or 16 with ALL_SLICES (R333, R619). -/
def chgKeys (d : ChgDesc) : List Nat :=
  let t := d.table.toNat
  if d.allSlices && t = tStore then (List.range 16).map fun sl => tkey t (8192 * sl + chgIndex d)
  else if d.allSlices && t = tEntry then (List.range 16).map fun sl => tkey t (32 * sl + chgIndex d)
  else [tkey t (chgIndex d)]

/-- A free slot for a new version of an ASA entry: in a running bank of the same array, group and width (R342). -/
def State.asaSpare (s : State) (i width : Nat) : Option Nat :=
  let a := i / 32768
  let n := asaUnits width
  let (_, asa) := s.withEdits s.nextTag s.cmt.edits
  let banks := ((List.range 4).map (4 * a + ·)).filter fun k =>
    s.bankRuns k && s.fld ASA_BANK_CFG_WIDTH (ixI k) == width
      && s.fld ASA_BANK_CFG_GROUP (ixI k) == s.fld ASA_BANK_CFG_GROUP (ixI (i / 8192))
  banks.findSome? fun k =>
    ((List.range (8192 / n)).map fun j => 8192 * k + n * j).find? fun u =>
      u != i && !asa.ents.any (fun (e : AsaEnt) => e.overlaps u n)
        && !(List.range n).any (fun j => asa.disRows.contains ((u + j) / 2))

/-- WRITE to the ASA judged (R297, R320, R342). -/
def State.judgeAsaWrite (s : State) (d : ChgDesc) : Judged :=
  let i := d.index.toNat
  let w := s.asaWidthAt i
  let n := asaUnits w
  let e := asaOfImage i w (chgImg d)
  if i % n != 0 then .error stBadIndex
  else if !chgLenOk d (24 + 32 * n) then .error stBadLen
  else if s.cmt.edits.any (fun x => match x with
      | .asaMove a b => a == i || b == i
      | _ => false) then .error stBadMove
  else
    let s := s.without (.asaRetire i)
    let asa := (s.withEdits s.nextTag s.cmt.edits).2
    if asa.inPlace e || !asa.ents.any (fun (y : AsaEnt) => y.overlaps i n) then s.roomed [.asaPut e] 1
    else match s.asaSpare i w with
    | none => .error stNoRoom
    | some u => s.roomed [.asaPut { e with loc := u }] 1

/-- WRITE judged (R334, R619). -/
def State.judgeWrite (s : State) (d : ChgDesc) : Judged :=
  let t := d.table.toNat
  let i := d.index.toNat
  if (tableCap t).isNone then .error stBadTable
  else if t = tEm then .error stBadOp
  else if !indexOk t (chgIndex d) then .error stBadIndex
  else if 0x10 ≤ t then s.judgeAsaWrite d
  else
    match s.imageSize t i (chgImg d) with
    | none => .error stBadLen
    | some size =>
      if t = tRoute && i % (size / 16) != 0 then .error stBadIndex
      else if !chgLenOk d size then .error stBadLen
      else s.roomed ((chgKeys d).map fun k => .put k (chgImg d) size false) (chgKeys d).length

/-- RETIRE judged (R334). -/
def State.judgeRetire (s : State) (d : ChgDesc) : Judged :=
  let t := d.table.toNat
  let i := d.index.toNat
  if (tableCap t).isNone then .error stBadTable
  else if t = tEm then .error stBadOp
  else if !indexOk t (chgIndex d) then .error stBadIndex
  else if 0x10 ≤ t then
    if i % asaUnits (s.asaWidthAt i) != 0 then .error stBadIndex
    else if s.cmt.edits.any (fun x => match x with
      | .asaMove a b => a == i || b == i
      | _ => false) then .error stBadMove
    else s.roomed [.asaRetire i] 1
  else s.roomed ((chgKeys d).map .retire) (chgKeys d).length

/-- The KIND of an exact-match descriptor's image, where it has an entry size that LEN equals (R619). -/
def chgEmKind (d : ChgDesc) : Except Nat (Nat × Nat × Nat × Nat) :=
  let (kind, key, res, data) := emImage d.len.toNat (chgImg d)
  if !kindValid kind || !chgLenOk d (if kindWide kind then 32 else 16) then .error stBadLen else .ok (kind, key, res, data)

/-- An exact-match entry placed for the ream being staged (R263). Where only the stash has room, a software entry of a
candidate bucket is relocated besides, if there is room for its copy. -/
def State.judgePlace (s : State) (kind key res data : Nat) : Judged :=
  match s.placeAdd kind key with
  | none => .error stNoRoom
  | some (i, moves) =>
    let more := if poolSlots ≤ i then (s.softMove kind key).getD [] else []
    let full := Edit.emAdd kind key res data (some i) (moves ++ more)
    if s.roomFor [full] then .ok ([full], 1) else s.roomed [.emAdd kind key res data (some i) moves] 1

/-- EM_ADD judged (R263, R334): an identical entry that is there already changes nothing. -/
def State.judgeEmAdd (s : State) (d : ChgDesc) : Judged := do
  let t := d.table.toNat
  if (tableCap t).isNone then .error stBadTable
  else if t != tEm then .error stBadOp
  else
    let (kind, key, res, data) ← chgEmKind d
    let s := s.without (.emDel kind key)
    match s.tab.em.find? (fun e => emIs kind key e.2 && emVisible s.nextTag s.newTag e.2) with
    | some (_, .entry _ _ r x false _ _ _) =>
      if r = res && x = data then .ok ([.emAdd kind key res data none []], 1) else s.judgePlace kind key res data
    | _ => s.judgePlace kind key res data

/-- EM_DEL judged (R334). -/
def State.judgeEmDel (s : State) (d : ChgDesc) : Judged := do
  let t := d.table.toNat
  if (tableCap t).isNone then .error stBadTable
  else if t != tEm then .error stBadOp
  else
    let (kind, key, _, _) ← chgEmKind d
    s.roomed [.emDel kind key] 1

/-- MOVE judged (R316, R334). -/
def State.judgeMove (s : State) (d : ChgDesc) : Judged :=
  let t := d.table.toNat
  let a := d.index.toNat
  let b := d.index2.toNat
  if (tableCap t).isNone then .error stBadTable
  else if t < 0x10 then .error stBadOp
  else if !indexOk t a || a % asaUnits (s.asaWidthAt a) != 0 then .error stBadIndex
  else
    match asaLive s.nextTag s.newTag a s.asa.ents with
    | none => .error stBadMove
    | some e =>
      let n := asaUnits e.width
      let ka := ixI (a / 8192)
      let kb := ixI (b / 8192)
      if 1048576 ≤ b || b % n != 0 || e.shadow || e.reloc then .error stBadMove
      else if s.fld ASA_BANK_CFG_WIDTH kb != e.width || s.fld ASA_BANK_CFG_GROUP kb != s.fld ASA_BANK_CFG_GROUP ka then
        .error stBadMove
      else if s.cmt.edits.any (fun x => namesUnit a x || namesUnit b x) then .error stBadMove
      else if (s.withEdits s.nextTag s.cmt.edits).2.ents.any (fun (y : AsaEnt) => y.overlaps b n) then .error stBadMove
      else if (List.range n).any (fun j => s.asa.disRows.contains ((b + j) / 2)) then .error stBadMove
      else s.roomed [.asaMove a b] 1

/-! ## Staging, R332, R337 -/

/-- A ring of the Commit Engine has a descriptor that can be fetched (R141, R153). -/
def State.commitReady (s : State) (r : Nat) : Bool :=
  (s.ring r).state == .run && s.covered r != 0 && s.canMaster .pf1 && ((s.ring r).slots != 0 || s.slotOk r)

/-- The engine's ring in rotation: the next commit ring with unfetched descriptors after the last one taken (R337). -/
def State.nextCommitRing (s : State) : Option Nat :=
  ((List.range 1024).map fun i => 12288 + (s.cmt.last + 1 + i) % 1024).find? fun r =>
    s.commitReady r && !s.cmt.rest.any (fun (x : RestReam) => x.ring == r)

/-- Whether a descriptor of ring r is the engine's next: of the ring being staged, or of the ring taken next (R337);
none while a staged ream waits, or after a reset of FC until the discarded ream is completed and every ream has settled
(R348). -/
def State.takes (s : State) (r : Nat) : Bool :=
  s.domUp domFC && s.domUp domFL && s.commitReady r && s.cmt.wait.isNone && !s.cmt.hold &&
    !s.cmt.rest.any (fun (x : RestReam) => x.first) &&
    (match s.cmt.ring with
     | some x => x == r
     | none => s.nextCommitRing == some r)

/-- A change descriptor as the module writes it back (R333). -/
def chgBytes (op : Nat) (d : ChgDesc) (status : Nat) : List Byte :=
  leBytes 8 d.data.toNat
  ++ leBytes 8 (op + d.table.toNat * 2 ^ 8 + ofBool d.inline * 2 ^ 16 + ofBool d.allSlices * 2 ^ 17
      + d.index.toNat * 2 ^ 32)
  ++ leBytes 8 (d.len.toNat + d.index2.toNat * 2 ^ 32) ++ leBytes 8 status

/-- A descriptor of a ream that has been given up is completed with SKIPPED (R337, R348). -/
def State.skipRest (s : State) (r : Nat) (bytes : List Byte) : State :=
  let rest := s.cmt.rest.map fun (x : RestReam) => if x.ring = r then { x with pos := x.pos + 1 } else x
  (({ s.fetchDone r 1 with cmt := { s.cmt with rest := rest } }).completeDesc r bytes).startFetch r

/-- A change descriptor of ring r, judged and completed (R336, R337). -/
def State.change (s : State) (r op : Nat) (d : ChgDesc) (judge : State → Judged) : State :=
  if s.cmt.rest.any (fun (x : RestReam) => x.ring == r) then
    if s.commitReady r && s.domUp domFC then s.skipRest r (chgBytes op d stSkipped) else s
  else if !s.takes r then s
  else
    let s := { s.fetchDone r 1 with cmt := { s.cmt with ring := some r } }
    let (s, code) : State × Nat :=
      if s.cmt.fail.isSome then (s, stSkipped)
      else
        match judge s with
        | .error c => ({ s with cmt := { s.cmt with fail := some ⟨c, d.table.toNat, s.cmt.pos⟩ } }, c)
        | .ok (es, n) =>
          if 65536 < s.cmt.changes + n then
            ({ s with cmt := { s.cmt with fail := some ⟨stTooMany, d.table.toNat, 0xFFFF⟩ } }, stTooMany)
          else ({ s with cmt := { s.cmt with edits := addEdits s.cmt.edits es, changes := s.cmt.changes + n } }, 0)
    let s := { s with cmt := { s.cmt with pos := s.cmt.pos + 1 } }
    (s.completeDesc r (chgBytes op d code)).startFetch r

/-- The number of commit ring r. -/
def commitRing (r : Fin 1024) : Nat := 12288 + r.val

/-- WRITE: OP 0x01; an OP that R334 does not list rejects the ream with BAD_OP. -/
def write (r : Fin 1024) (op : BitVec 8) (d : ChgDesc) (s : State) : State :=
  let o := op.toNat
  if o = 0x01 then s.change (commitRing r) o d (fun s => s.judgeWrite d)
  else if (2 ≤ o && o ≤ 5) || o = 0x0F then s
  else s.change (commitRing r) o d (fun _ => .error stBadOp)

/-- RETIRE. -/
def retire (r : Fin 1024) (d : ChgDesc) (s : State) : State := s.change (commitRing r) 0x02 d (fun s => s.judgeRetire d)

/-- EM_ADD. -/
def emAdd (r : Fin 1024) (d : ChgDesc) (s : State) : State := s.change (commitRing r) 0x03 d (fun s => s.judgeEmAdd d)

/-- EM_DEL. -/
def emDel (r : Fin 1024) (d : ChgDesc) (s : State) : State := s.change (commitRing r) 0x04 d (fun s => s.judgeEmDel d)

/-- MOVE. -/
def move (r : Fin 1024) (d : ChgDesc) (s : State) : State := s.change (commitRing r) 0x05 d (fun s => s.judgeMove d)

/-! ## COMMIT, R335 -/

/-- A COMMIT descriptor as the module writes it back (R335). -/
def commitBytes (ream ns sec changes status table pos : Nat) (numberEn resume : Bool) : List Byte :=
  leBytes 8 (ream % 2 ^ 32 + ns % 2 ^ 32 * 2 ^ 32)
  ++ leBytes 8 (0x0F + ofBool numberEn * 2 ^ 8 + ofBool resume * 2 ^ 9)
  ++ leBytes 8 (sec % 2 ^ 32 + min 0xFFFF changes * 2 ^ 32)
  ++ leBytes 8 (status + table * 2 ^ 8 + pos % 2 ^ 16 * 2 ^ 16)

/-- The COMMIT of a ream that came to nothing is completed: REAM 0, and no commit instant to write (R335, R336). -/
def State.commitRefuse (s : State) (r : Nat) (f : ReamFail) (changes : Nat) (numberEn resume : Bool) : State :=
  let ns := s.free.toNat
  let s := s.used
  let sec := s.free.toNat
  let s := s.used
  (s.completeDesc r (commitBytes 0 ns sec changes f.code f.table f.pos numberEn resume)).startFetch r

/-- The number a commit takes, or BAD_NUMBER (R328). -/
def State.commitNumber (s : State) (number : Nat) (numberEn : Bool) : Option Nat :=
  let ahead := (number + 2 ^ 32 - s.cmt.newest) % 2 ^ 32
  if !numberEn then some ((s.cmt.newest + 1) % 2 ^ 32)
  else if 1 ≤ ahead && ahead < 2 ^ 31 then some number else none

/-- COMMIT: ends the ream of its ring: a ream given up or rejected is completed with its code; another waits for its
commit instant (R328, R335 to R337). -/
def commit (r : Fin 1024) (number : BitVec 32) (numberEn resume : Bool) (s : State) : State :=
  let ring := commitRing r
  match s.cmt.rest.find? (fun (x : RestReam) => x.ring == ring) with
  | some x =>
    if s.commitReady ring && s.domUp domFC then
      let rest := s.cmt.rest.filter fun (y : RestReam) => y.ring != ring
      (({ s.fetchDone ring 1 with cmt := { s.cmt with rest := rest } })).commitRefuse ring x.fail x.changes numberEn resume
    else s
  | none =>
    if !s.takes ring then s
    else
      let s := { s.fetchDone ring 1 with cmt := { s.cmt with ring := some ring } }
      let fail := match s.cmt.fail with
        | some f => some f
        | none => if (s.commitNumber number.toNat numberEn).isNone then some ⟨stBadNumber, 0, s.cmt.pos⟩ else none
      match fail, s.commitNumber number.toNat numberEn with
      | some f, _ =>
        let changes := s.cmt.changes
        let s := ((s.reamRefused ring f.code f.table f.pos).stageEnd).raise CMT_INT_STATUS_REJECTED
        s.commitRefuse ring f changes numberEn resume
      | none, some n =>
        ({ s with cmt := { s.cmt with wait := some ⟨ring, n, numberEn, resume, s.now, false, none⟩ } }).waitEnds
      | none, none => s

/-- REAM_ABANDON: the ring being staged has offered nothing for IDLE_MAX (R337). -/
def reamAbandon (s : State) : State :=
  match s.cmt.ring with
  | none => s
  | some r =>
    if s.cmt.wait.isSome || s.covered r != 0 || !s.domUp domFC then s
    else
      let f := s.cmt.fail.getD ⟨stStalled, 0, s.cmt.pos⟩
      let rest := s.cmt.rest ++ [(⟨r, f, s.cmt.changes, s.cmt.pos, false⟩ : RestReam)]
      let s := (s.reamRefused r f.code f.table f.pos).stageEnd
      ({ s with cmt := { s.cmt with rest := rest } }).raise CMT_INT_STATUS_REJECTED

/-- Slots that a commit writes while a flush runs (R281). -/
def State.freshEdits (s : State) (es : List Edit) : State :=
  es.foldl (fun s (e : Edit) =>
    match e with
    | .emAdd _ _ _ _ (some _) moves | .emMoves moves => moves.foldl (fun s m => ({ s with tab := (match s.tab.flush with
        | none => s.tab
        | some f => { s.tab with flush := some { f with fresh := f.fresh ++ [m.2] } }) })) s
    | _ => s) s

/-- COMMIT_INSTANT: the ream's tag becomes the newest, its changes take effect together, and its COMMIT is written back
where its ring still runs (R339, R344, R345, R348). The first packets of pipelines that it resumes carry its tag
(R349). -/
def commitInstant (s : State) : State :=
  match s.cmt.wait with
  | none => s
  | some w =>
    if !s.commitClear w.number || !s.domUp domFC || !s.domUp domFL then s
    else
      let (tab, asa) := s.withEdits (w.number % 16) s.cmt.edits
      let s := ({ s with tab := tab, asa := asa }).freshEdits s.cmt.edits
      let changes := s.cmt.changes
      let old := if w.resume && s.flag CMT_STATUS_FL_HOLD ix0 then w.number else s.cmt.newest
      let s := { s with cmt := { s.cmt with
        newest := w.number, prev := old, at_ := s.now
        undrained := s.cmt.undrained ++ [w.number], unsettled := s.cmt.unsettled ++ [w.number] } }
      let s := s.stageEnd
      let s := s.set CMT_COMMITS_COUNT ix0 ((s.fld CMT_COMMITS_COUNT ix0 + 1) % 2 ^ 48)
      let waited := min 0xFFFFFFFF ((w.ended.getD s.now - w.since) / 5)
      let s := s.set CMT_MAX_WAIT_NS ix0 (max waited (s.fld CMT_MAX_WAIT_NS ix0))
      let s := if w.resume then s.set CMT_STATUS_FL_HOLD ix0 0 else s
      if (s.ring w.ring).state == .run then
        (s.completeDesc w.ring (commitBytes w.number s.tim.ns s.tim.sec changes 0 0 0 w.numberEn w.resume)).startFetch
          w.ring
      else s

/-- DRAIN_WAIT: a commit has waited longer than WAIT_WARN (R348). -/
def drainWait (s : State) : State :=
  match s.cmt.wait with
  | none => s
  | some w =>
    if w.warned || w.ended.isSome then s
    else ({ s with cmt := { s.cmt with wait := some { w with warned := true } } }).raise CMT_INT_STATUS_DRAIN_WAIT

/-! ## Draining and settlement, R345 -/

/-- A packet that the replicator has still to serve (spec/09_lookup.md R275). -/
def XPkt.forGroup (p : XPkt) (r : Nat) : Bool :=
  match p.dest with
  | .group _ _ => p.ream == r
  | _ => false

/-- A packet of a ream is still in an ingress pipeline, is on its way to the replicator or waits for it, or a search
context pins it. -/
def State.reamInUse (s : State) (r : Nat) : Bool :=
  s.ing.pkts.any (fun (p : Pkt) => p.ream == r) || s.replQ.any (fun (p : ReplPkt) => p.pkt.ream == r)
    || s.adm.waiting.any (fun (p : XPkt) => p.forGroup r)
    || s.couch.fxToQx.any (fun (u : CouchUnit) =>
      match u with
      | .pipe _ (.fwd p) => p.forGroup r
      | _ => false)
    || (List.range 4).any (fun c => (s.actx c).pin == some r)

/-- REAM_DRAINED: the oldest undrained ream, not the newest, has nothing left that uses it (R345). -/
def reamDrained (s : State) : State :=
  match s.cmt.undrained with
  | r :: rest =>
    if rest.isEmpty || s.reamInUse r then s else ({ s with cmt := { s.cmt with undrained := rest } }).waitEnds
  | [] => s

/-- A version after the settlement of the ream with tag r (R345). -/
def settleVers (r : Nat) (vs : List Ver) : List Ver :=
  vs.filterMap fun (v : Ver) => (settleTags r v.born v.retired).map fun (b, t) => { v with born := b, retired := t }

/-- An exact-match slot after it; learned entries and POISON stay. -/
def settleEm (r : Nat) (e : Nat × EmSlot) : Option (Nat × EmSlot) :=
  match e.2 with
  | .entry k q res d false h b t => (settleTags r b t).map fun (b, t) => (e.1, .entry k q res d false h b t)
  | _ => some e

/-- An ASA entry after it: originals with RELOC 1 wait for R315. -/
def settleAsa (r : Nat) (e : AsaEnt) : Option AsaEnt :=
  match settleTags r e.born e.retired with
  | none => if e.reloc then some e else none
  | some (b, t) => some { e with born := b, retired := t }

/-- An ASA entry of a settled ream, stored elsewhere, is copied back to its index once that is free (R342); never into a
disabled row, which only a ream rewrites (R317). -/
def homeAsa (dis : List Nat) (es : List AsaEnt) (e : AsaEnt) : List AsaEnt :=
  let d := (e.retired + 16 - e.born % 16) % 16
  let home := { e with loc := e.idx }
  if e.loc != e.idx && (d == 0 || 8 < d) && !(asaRows home).any dis.contains
      && !es.any (fun (y : AsaEnt) => y.overlaps e.idx (asaUnits e.width) && y.loc != e.loc) then
    es.map fun (y : AsaEnt) => if y.loc == e.loc then { y with loc := e.idx } else y
  else es

/-- SETTLEMENT: of the oldest ream not settled, once the ream before it has drained (R345). -/
def settlement (s : State) : State :=
  match s.cmt.unsettled with
  | [] => s
  | r :: rest =>
    if !(s.cmt.undrained.head? == some r || !s.cmt.undrained.contains r) || !s.domUp domFC || !s.domUp domFL then s
    else
      let t := r % 16
      let vers := (s.tab.vers.map fun e => (e.1, settleVers t e.2)).filter fun e => !e.2.isEmpty
      let ents := s.asa.ents.filterMap (settleAsa t)
      ({ s with
        tab := { s.tab with vers := vers, em := s.tab.em.filterMap (settleEm t) }
        asa := { s.asa with ents := ents.foldl (homeAsa s.asa.disRows) ents }
        cmt := { s.cmt with unsettled := rest, half := s.cmt.half ++ [r] } }).halfDone

/-! ## Table reads, R350, R355 -/

/-- TABLE_READ: a write of CMT_RD_CMD with GO, which is ignored while BUSY (R355). -/
def tableRead (req : Req) (v : W64) (s : State) : State :=
  let s := s.ownWrite req .cmtRdCmd ix0 v 0
  if s.cmt.rd.isSome then s
  else
    let rd := (s.fld CMT_RD_CMD_TABLE ix0, s.fld CMT_RD_CMD_INDEX ix0, s.flag CMT_RD_CMD_RAW ix0)
    ({ s with cmt := { s.cmt with rd := some rd } }).set CMT_RD_CMD_BUSY ix0 1

/-- An ASA entry's image with its tags (R300, R331). -/
def asaImage (e : AsaEnt) (par : Nat) : Nat :=
  let n := asaUnits e.width
  let ctl := e.prio + ofBool e.valid * 2 ^ 24 + ofBool e.shadow * 2 ^ 25 + ofBool e.reloc * 2 ^ 26 + e.born * 2 ^ 27
    + e.retired * 2 ^ 31 + par * 2 ^ 35 + e.width * 2 ^ 36 + e.link * 2 ^ 38
  let unit := fun (x j : Nat) => bitsOf x (asaBits e.width - 80 * (j + 1)) 80
  let half := fun (x j : Nat) => unit x j / 2 ^ 64 + unit x j % 2 ^ 64 * 2 ^ 64
  ctl + e.act0.toNat * 2 ^ 64 + e.act1.toNat * 2 ^ 128
    + (List.range n).foldl (fun a j => a + (half e.value j + half e.mask j * 2 ^ 128) * 2 ^ (192 + 256 * j)) 0

/-- An exact-match slot's image: a wide entry's second slot comes first (R331), which is its 256-bit value. -/
def emSlotImage (e : EmSlot) (par : Nat) : Nat :=
  match e with
  | .entry k q r d l h b t =>
    emNumber k q r d (ofBool l) (ofBool h) b t + par * 2 ^ (if kindWide k then 241 else 113)
  | .poison b => 0xE * 2 ^ 124 + b * 2 ^ 101 + par * 2 ^ 113

/-- What a table read returns: the image, or nothing (R350). -/
def State.readTable (s : State) (t i : Nat) (raw : Bool) (par : Nat) : Option Nat :=
  if t = tEm then (emAt s.storedEm i).map fun e => emSlotImage e.2 par
  else if t = tStash then (emAt s.storedEm (poolSlots + i)).map fun e => emSlotImage e.2 par
  else if 0x10 ≤ t then
    if !indexOk t i then none
    else if raw then (s.storedAsa.ents.find? fun (e : AsaEnt) => e.loc == i).map fun e => asaImage e par
    else (asaLive s.nextTag s.newTag i s.asa.ents).map fun e => asaImage e par
  else
    let vs := s.storedTab.at_ (tkey t i)
    (if raw then vs.head? else vs.find? fun (v : Ver) => v.visible s.nextTag s.newTag).map fun v => storedImg t v par

/-- TABLE_READ_DONE: of what the command named when it was accepted. PAR of what is returned is left open (R331,
R355). -/
def tableReadDone (s : State) : State :=
  match s.cmt.rd with
  | none => s
  | some (t, i, raw) =>
    let par := s.free.toNat % 2
    let r := s.readTable t i raw par
    let s := { s.used with cmt := { s.cmt with rd := none } }
    let img := r.getD 0
    let s := (List.range 35).foldl (fun s w => s.set CMT_RD_DATA_DATA (ixI w) (bitsOf img (64 * w) 64)) s
    let s := (s.set CMT_RD_CMD_FOUND ix0 (ofBool r.isSome)).set CMT_RD_REAM_REAM ix0 s.cmt.newest
    s.set CMT_RD_CMD_BUSY ix0 0

end Sys2Proof.Machine
end

