-- ==== Sys2Proof/Machine/Reassembly.lean ====
section
/-!
DEFINITION. Machine/Reassembly.lean: reorder contexts and reassembly (spec/15_fabric.md R471, R473, R480).
-/
namespace Sys2Proof.Machine

open Fld

/-- The reorder context of a source. -/
def State.ctx (s : State) (src : Nat) : ReorderSt := tblGet ReorderSt.init s.fab.ctxs src
def State.setCtx (s : State) (src : Nat) (x : ReorderSt) : State :=
  { s with fab := { s.fab with ctxs := if x = ReorderSt.init then tblDel src s.fab.ctxs else tblPut src x s.fab.ctxs } }

/-- LENGTH of a prefix. -/
def prefixLen (p : List Byte) : Nat := beNat (bytesAt p 0 2)

/-- A packet whose prefix and bytes are whole, as it goes on (R471). -/
def packetOf (c : DataCell) (pre bytes : List Byte) : EgrArr :=
  let w := beNat (bytesAt pre 4 4)
  { bytes := bytes, cells := [], pair := c.pair, pg := c.pg, cls := c.cls, dport := beNat (bytesAt pre 2 2) / 128,
    rewrite := w / 2048, ts := if bitAt w 10 then some (beNat (bytesAt pre 8 4), beNat (bytesAt pre 12 4)) else none }

/-- The bytes of a cell go to their stream, which gives the packets that end in it (R471, R473): fewer than 16 bytes
left between packets, or a prefix of LENGTH 0, are padding. -/
def eat (c : DataCell) : Nat → Option (List Byte × List Byte) → List Byte → Option (List Byte × List Byte) × List EgrArr
  | 0, cur, _ => (cur, [])
  | n + 1, none, bs =>
    if bs.length < 16 || prefixLen bs = 0 then (none, [])
    else eat c n (some (bs.take 16, [])) (bs.drop 16)
  | n + 1, some (pre, got), bs =>
    let need := prefixLen pre - got.length
    if bs.length < need then (some (pre, got ++ bs), [])
    else
      let (cur, ps) := eat c n none (bs.drop need)
      (cur, packetOf c pre (got ++ bs.take need) :: ps)

/-- A cell delivered in order to its stream (R473). -/
def State.deliver (s : State) (c : DataCell) : State :=
  let x := s.ctx c.src
  let k := 8 * c.pg + c.cls
  let st := tblGet StreamSt.init x.streams k
  if st.skip && c.ptr = 0x1FF then s
  else
    let (cur, ps) := if st.skip then eat c 500 none (c.payload.drop c.ptr) else eat c 500 st.cur c.payload
    let y : StreamSt := ⟨cur, false⟩
    let s := s.setCtx c.src { x with streams := if y = StreamSt.init then tblDel k x.streams else tblPut k y x.streams }
    ps.foldl (fun s p => s.reassembled p) s

/-- Where a cell stands from the SEQ that its context expects: 24 bits of a legacy cell count (R480). -/
def ahead (next : Nat) (c : DataCell) : Nat :=
  let m := if c.legacy then 2 ^ 24 else 2 ^ 32
  (c.seq + m - next % m) % m
def isBehind (next : Nat) (c : DataCell) : Bool := (if c.legacy then 2 ^ 23 else 2 ^ 31) ≤ ahead next c

/-- Held cells that follow in order are delivered, up to the next missing SEQ (R473). -/
def State.drain (s : State) (src : Nat) : Nat → State
  | 0 => s
  | n + 1 =>
    let x := s.ctx src
    match takeFirst (fun e : DataCell × Nat => ahead x.next e.1 = 0) x.held with
    | none => s
    | some ((c, _), rest) =>
      ((s.setCtx src { x with held := rest, next := (x.next + 1) % 2 ^ 32 }).deliver c).drain src n

/-- A packet in progress or held that is lost (R473). -/
def State.packetLost (s : State) (len : Nat) : State := s.countDrop causeReassemblyTimeout len 0x1FF 0

/-- Packets in progress are dropped, and every stream of the context discards up to its next first prefix, or starts
afresh (R473). -/
def State.streamsLost (s : State) (src : Nat) (skip : Bool) : State :=
  let x := s.ctx src
  let s := x.streams.foldl (fun s e => match e.2.cur with | some (pre, _) => s.packetLost (prefixLen pre) | none => s) s
  s.setCtx src { x with streams := if skip then (List.range 256).map fun k => (k, (⟨none, true⟩ : StreamSt)) else [] }

/-- The gap at the expected SEQ is declared lost: the context moves to the first held cell (R473). -/
def State.gapLost (s : State) (src : Nat) : State :=
  let x := s.ctx src
  match x.held with
  | [] => s
  | e :: t =>
    let gap := t.foldl (fun a e => min a (ahead x.next e.1)) (ahead x.next e.1)
    let s := s.count FABCMN_CELLS_LOST_COUNT ix0 gap
    let s := (s.setCtx src { x with next := (x.next + gap) % 2 ^ 32 }).streamsLost src true
    (s.raiseAt FABCMN_INT_STATUS_REASM_TIMEOUT 0 0 src 0).drain src (x.held.length + 1)

/-- Later gaps that have waited their time as well are passed at once; `all` takes every gap (R473). -/
def State.gapsLost (s : State) (src : Nat) (all : Bool) : Nat → State
  | 0 => s
  | n + 1 =>
    let x := s.ctx src
    let limit := max 1 (s.fld FABCMN_CTRL_REORDER_TIMEOUT ix0) * 5000
    if x.held.isEmpty || !(all || x.held.any fun e => e.2 + limit ≤ s.now) then s
    else (s.gapLost src).gapsLost src all n

/-- The lengths of the packets that start in a cell's bytes. -/
def startsIn : Nat → List Byte → List Nat
  | 0, _ => []
  | n + 1, bs =>
    if bs.length < 16 || prefixLen bs = 0 then []
    else prefixLen bs :: startsIn n (bs.drop (16 + prefixLen bs))

/-- A cell with another EPOCH: held cells are lost, and their packets and those in progress dropped (R473). -/
def State.newEpoch (s : State) (src epoch : Nat) : State :=
  let x := s.ctx src
  let s := s.count FABCMN_CELLS_LOST_COUNT ix0 x.held.length
  let s := x.held.foldl (fun s e =>
    if e.1.ptr = 0x1FF then s else (startsIn 500 (e.1.payload.drop e.1.ptr)).foldl (fun s n => s.packetLost n) s) s
  (s.streamsLost src false).setCtx src { ReorderSt.init with epoch := some epoch }

/-- A data cell enters its source's context (R473). After 5 ms without a cell, packets in progress are dropped first. -/
def State.enterCell (s : State) (c : DataCell) : State :=
  let s := if (s.ctx c.src).idle then (s.streamsLost c.src false).setCtx c.src { s.ctx c.src with idle := false, streams := [] } else s
  let s := if c.legacy then s
    else match (s.ctx c.src).epoch with
      | none => s.setCtx c.src { s.ctx c.src with epoch := some c.epoch }
      | some e => if e = c.epoch then s else s.newEpoch c.src c.epoch
  let x := s.ctx c.src
  if isBehind x.next c || x.held.any (fun e => ahead x.next e.1 = ahead x.next c) then s.count FABCMN_CELLS_LATE_COUNT ix0 1
  else if ahead x.next c = 0 then
    ((s.setCtx c.src { x with next := (x.next + 1) % 2 ^ 32 }).deliver c).drain c.src (x.held.length + 1)
  else s.setCtx c.src { x with held := x.held ++ [(c, s.now)] }

/-- DATA_CELL: the oldest data cell accepted. -/
def dataCell (s : State) : State :=
  match s.takeRx (fun c => match c with | .data _ => true | _ => false) with
  | some (.data c, s) => if s.domUp domQC then s.enterCell c else s
  | _ => s

/-- REORDER_TIMEOUT: the missing SEQ has waited its time, and with it every later gap that has. -/
def reorderTimeout (src : Fin 2048) (s : State) : State :=
  (s.gapLost src.val).gapsLost src.val false ((s.ctx src.val).held.length + 1)

/-- REORDER_IDLE: no cell for 5 ms: every gap is lost, and SEQ 0 of the next cell's EPOCH is expected. -/
def reorderIdle (src : Fin 2048) (s : State) : State :=
  let s := s.gapsLost src.val true ((s.ctx src.val).held.length + 1)
  s.setCtx src.val { s.ctx src.val with epoch := none, next := 0, idle := !(s.ctx src.val).streams.isEmpty }

end Sys2Proof.Machine
end

