-- ==== Sys2Proof/Machine/Sched.lean ====
section
/-!
DEFINITION. Machine/Sched.lean: the egress hierarchy and its selections (spec/14_scheduling.md R426 to R433).
-/
namespace Sys2Proof.Machine

open Fld

/-! ## Nodes, R427, R428 -/

/-- A node's word (R443). -/
def State.node (s : State) (level i : Nat) : W64 := s.rd .qscNodeStore (ixIJ level i)

/-- The slice of a port, a MAC port or an internal one (spec/01_architecture.md R29). -/
def portSlice (p : Nat) : Nat := if p < 256 then p / 16 else (p - 256) / 2

/-- A node is not STOPPED (R427): EN is 1, and for an L0 node its port may carry traffic. -/
def State.nodeRuns (s : State) (level i : Nat) : Bool :=
  QSC_NODE_EN.get (s.node level i) = 1 && (level != 0 || 256 ≤ i || s.portTx i)

/-- A node's PIR does not block it (R428). -/
def State.pirOk (s : State) (level i : Nat) : Bool :=
  shpRate (s.rd .shpPirStore (ixIJ level i)) = 0 || 0 < (s.bucket level i).pir

/-- A node that is eligible is GREEN (R428). -/
def State.green (s : State) (level i : Nat) : Bool :=
  shpRate (s.rd .shpCirStore (ixIJ level i)) != 0 && 0 < (s.bucket level i).cir

/-- An L4 queue's head packet can be sent: its gate, PFC at its port (R428). -/
def State.headOk (s : State) (p q : Nat) : Bool :=
  match (s.queue q).pkts with
  | [] => false
  | x :: _ => s.gateOk p (q % 8) x.bytes.length &&
      !(p < 256 && bitAt (s.fld LIN_PORT_STATUS_PAUSED (portIx p)) (q % 8))

/-- A queue whose path has only eligible nodes. -/
def State.queueReady (s : State) (p q : Nat) : Bool :=
  let path := s.pathOf q
  s.headOk p q && (List.range 5).all fun l => s.nodeRuns l (path.getD l 0) && s.pirOk l (path.getD l 0)

/-! ## Arbitration, R429 -/

/-- WEIGHT as it acts (R443). -/
def State.weight (s : State) (level i : Nat) : Nat := max 1 (QSC_NODE_WEIGHT.get (s.node level i))

/-- Distinct numbers, rising. -/
def distinct (xs : List Nat) : List Nat := ((xs.map fun x => (x, ())).foldl (fun t e => tblPut e.1 () t) []).map (·.1)

/-- The child after a given one in rising order, the first after the last. -/
def childAfter (cs : List Nat) (c : Nat) : Nat :=
  match cs.find? (fun x => c < x) with
  | some x => x
  | none => cs.headD 0

/-- Weighted deficit round robin from the turn of child c: a child keeps its turn while its deficit is positive; a turn
that begins brings WEIGHT × 64 bytes (R429). -/
def State.wdrr (s : State) (level : Nat) (cs : List Nat) : Nat → Nat → State × Nat
  | 0, c => (s, c)
  | fuel + 1, c =>
    if cs.contains c && 0 < s.deficit level c then (s, c)
    else
      let d := childAfter cs c
      (s.setDeficit level d (s.deficit level d + (s.weight level d * 64 : Nat))).wdrr level cs fuel d

/-- The children of the best colour and priority, and the key of their turn (R429). -/
def State.bestChildren (s : State) (level parent : Nat) (cs : List Nat) : List Nat × Nat :=
  let colour := cs.any (s.green level)
  let cs := cs.filter fun c => s.green level c == colour
  let prio := cs.foldl (fun a c => max a (QSC_NODE_PRIO.get (s.node level c))) 0
  (cs.filter fun c => QSC_NODE_PRIO.get (s.node level c) = prio,
   nodeKey (level - 1) parent * 16 + ofBool colour * 8 + prio)

/-- The choice of a node among its eligible children. -/
def State.chooseChild (s : State) (level parent : Nat) (cs : List Nat) : State × Nat :=
  let (cs, key) := s.bestChildren level parent cs
  let (s, c) := s.wdrr level cs (cs.length * 512) (tblGet (2 ^ 20) s.qsc.turns key)
  ({ s with qsc := { s.qsc with turns := tblPut key c s.qsc.turns } }, c)

/-- A selection walks down from a node (R430): the paths of the eligible queues below it, narrowed level by level. -/
def State.walk (s : State) : Nat → Nat → Nat → List (List Nat) → State × List (List Nat)
  | 0, _, _, ps => (s, ps)
  | n + 1, level, node, ps =>
    let (s, c) := s.chooseChild level node (distinct (ps.map fun p => p.getD level 0))
    s.walk n (level + 1) c (ps.filter fun p => p.getD level 0 = c)

/-! ## A selection, R430 -/

/-- A node's buckets are charged (R430); a PIR of 0 has no bucket to charge. -/
def State.chargeNode (s : State) (level i len : Nat) (wasGreen : Bool) : State :=
  let b := s.bucket level i
  let v := s.rd .shpPirStore (ixIJ level i)
  let n : Int := ((len : Int) + signedOf 7 (SHP_PIR_ADJ.get v)) * (byteUnits : Nat)
  s.setBucket level i ⟨if wasGreen then b.cir - n else b.cir, if shpRate v = 0 then b.pir else b.pir - n, b.at_⟩

/-- A slot's selections (R430): those of a slice and of a port so far. -/
def State.picksNow (s : State) : List (Nat × Nat) := if s.qsc.slot = s.slotNow then s.qsc.picks else []
def State.mayPick (s : State) (p : Nat) : Bool :=
  let xs := s.picksNow
  tblGet 0 xs p < 8 &&
    (xs.filter fun e => portSlice e.1 == portSlice p).foldl (fun a (e : Nat × Nat) => a + e.2) 0 < 16

/-- The selected packet leaves its queue: the charges, USED, the marks, and the couch link to its slice; with a cell
read with an uncorrectable error it is dropped there (spec/12_buffering.md R373). -/
def State.sendSelected (s : State) (p q : Nat) (x : QPkt) (ue : Bool) : State :=
  let path := s.pathOf q
  let len := x.bytes.length
  let greens := (List.range 5).map fun l => s.green l (path.getD l 0)
  let ns := (s.now - x.enq) / 5
  let s := (s.popQueue q 1).1
  let s := s.usedDown x.pg x.cls len
  let s := (s.modQueue q fun y => { y with hwmNs := max y.hwmNs ns }).portMark p 0 ns
  let s := (List.range 5).foldl (fun s l => s.chargeNode l (path.getD l 0) len (greens.getD l false)) s
  let s := (List.range 4).foldl (fun s l =>
    s.setDeficit (l + 1) (path.getD (l + 1) 0) (s.deficit (l + 1) (path.getD (l + 1) 0) - len)) s
  let s := s.emptied q
  let s := { s with qsc := { s.qsc with slot := s.slotNow, picks := tblMod 0 p (· + 1) s.picksNow } }
  if ue then s.countDrop causeMemUncorrectable len x.port 0 else
  let u := CouchUnit.egress (portSlice p) ⟨x.bytes, p, q % 8, x.rewrite, x.ts⟩
  { s with couch := { s.couch with qxToFx := s.couch.qxToFx ++ [u] } }

/-- SCHEDULER_SELECTION: a selection of an L0 node (R428 to R430). Nothing is selected while QSC is STOPPED (R414) or
the way to the port's pipelines is down. `ue` tells that a cell of the packet is read with an uncorrectable error. -/
def schedulerSelection (port : Fin 288) (ue : Bool) (s : State) : State :=
  let p := port.val
  if !s.domUp domQC || !s.flag QSC_CTRL_RUN ix0 || s.couch.st != .up || !s.domUp domFC || !s.mayPick p then s
  else
    let s := (s.gateSettle p).dropOversizes p
    match (s.queuesOf p).filter (s.queueReady p) with
    | [] => s
    | qs =>
      let (s, ps) := s.walk 4 1 p (qs.map s.pathOf)
      match ps with
      | [] => s
      | path :: _ =>
        let q := path.getD 4 0 + s.voqEnd
        match (s.queue q).pkts with
        | [] => s
        | x :: _ => s.sendSelected p q x ue

end Sys2Proof.Machine
end

