-- ==== Sys2Proof/Machine/RegView.lean ====
section
/-!
DEFINITION. Machine/RegView.lean: what a read of a register returns: the stored fields, and the read-only fields that
the module computes from the rest of its state.
-/
namespace Sys2Proof.Machine

open Fld

/-! ## Elements and windows -/

/-- Whether an element of an array has fields: BPM requesters 22 to 31 have none (spec/12_buffering.md R384), nor has
the headroom of a table that spec/11_reams.md R330 does not list (R354). -/
def hasFields (r : Reg) (ix : Ix) : Bool :=
  match r with
  | .bpmReqCfg | .bpmReqStatus => ix.i < 22
  | .cmtHeadroom => (tableCap ix.i).isSome
  | _ => true

/-- The nodes of a level of the egress hierarchy (spec/14_scheduling.md R426); level 5 is the queue IDs of QSC and the
policers of SHP (R441, R448). -/
def State.levelSize (s : State) (shp : Bool) (level : Nat) : Nat :=
  match level with
  | 0 => 288
  | 1 => 16384
  | 2 => 65536
  | 3 => 262144
  | 4 => 1048576 - s.voqEnd
  | 5 => if shp then 262144 else 1048576
  | _ => 0

/-- The level and index that a window shows at a place, where it shows one (R441, R448). -/
def State.window (s : State) (shp : Bool) (n : Nat) : Option (Nat × Nat) :=
  let level := if shp then s.fld SHP_WIN_SEL_LEVEL ix0 else s.fld QSC_WIN_SEL_LEVEL ix0
  let i := 65536 * (if shp then s.fld SHP_WIN_SEL_BASE ix0 else s.fld QSC_WIN_SEL_BASE ix0) + n
  if i < s.levelSize shp level then some (level, i) else none

/-- The store behind a windowed register (R443, R449): QSC_NODE has none at LEVEL 5, SHP_POL_CFG at LEVEL 5 only. -/
def State.windowed (s : State) (r : Reg) (ix : Ix) : Option RegRef :=
  match r with
  | .qscNode =>
    match s.window false ix.i with
    | some (l, i) => if l = 5 then none else some ⟨.qscNodeStore, ixIJ l i⟩
    | none => none
  | .shpCir => (s.window true ix.i).map fun w => ⟨.shpCirStore, ixIJ w.1 w.2⟩
  | .shpPir => (s.window true ix.i).map fun w => ⟨.shpPirStore, ixIJ w.1 w.2⟩
  | .shpPolCfg =>
    match s.window true ix.i with
    | some (l, i) => if l = 5 then some ⟨.shpPolStore, ixIJ l i⟩ else none
    | none => none
  | _ => some ⟨r, ix⟩

/-! ## QSC and SHP status, R443, R449 -/

/-- The nodes above a node, its own index first. -/
def State.ancestors (s : State) : Nat → Nat → List (Nat × Nat)
  | 0, i => [(0, i)]
  | l + 1, i => (l + 1, i) :: s.ancestors l (s.parentOf (l + 1) i)

/-- The egress queues that hold packets below a node. -/
def State.queuesBelow (s : State) (level i : Nat) : List Nat :=
  (s.qsc.qs.filter fun e => s.voqEnd ≤ e.1 && !e.2.pkts.isEmpty && (s.pathOf e.1).getD level 0 == i).map (·.1)

/-- A node is eligible (R428). -/
def State.nodeEligible (s : State) (level i : Nat) : Bool :=
  (s.queuesBelow level i).any fun q =>
    let path := s.pathOf q
    s.headOk (path.getD 0 0) q && (List.range 5).all fun l =>
      l < level || (s.nodeRuns l (path.getD l 0) && s.pirOk l (path.getD l 0))

/-- A node's BLOCKED: a STOPPED node above it, or at a queue a closed gate or a PFC pause (R443). -/
def State.nodeBlocked (s : State) (level i : Nat) : Bool :=
  ((s.ancestors level i).drop 1).any (fun n => !s.nodeRuns n.1 n.2)
    || (level = 4 && !(s.queue (s.voqEnd + i)).pkts.isEmpty
        && !s.headOk (s.portOfQueue (s.voqEnd + i)) (s.voqEnd + i))

/-- QSC_NODE_STATUS of a node or, at level 5, of a queue ID (R443). A VOQ is no node: of the three states of R428 it
has none. -/
def State.nodeStatus (s : State) (level i : Nat) : Nat :=
  let status := fun (l n bytes : Nat) =>
    bytes % 2 ^ 40 + ofBool (s.nodeEligible l n) * 2 ^ 40 + ofBool (s.nodeEligible l n && s.green l n) * 2 ^ 41
      + ofBool (s.nodeBlocked l n) * 2 ^ 42
  if level < 5 then
    status level i ((s.queuesBelow level i).foldl (fun a q => a + (s.queue q).bytes) 0)
  else if s.voqEnd ≤ i then status 4 (i - s.voqEnd) (s.queue i).bytes
  else (s.queue i).bytes % 2 ^ 40 + ofBool (s.queue i).deepMode * 2 ^ 43

/-- An amount in bucket units as signed bytes of 32 bits (R449). -/
def bucketBytes (x : Int) : Nat := ((x / (byteUnits : Int)) % (2 ^ 32 : Nat)).toNat

/-! ## GEN, PRT, PMN -/

/-- GEN_PHASE (spec/03_startup_reset.md R99). -/
def GenSt.phaseWord (g : GenSt) : Nat :=
  g.phase.code + ofBool g.image * 2 ^ 3 + g.isoCause * 2 ^ 8 + g.testMap.toNat * 2 ^ 16 + ofBool g.bootFail * 2 ^ 32
    + ofBool g.testQx * 2 ^ 33

/-- GEN_PIN_STATUS (spec/02_module.md R74). -/
def GenSt.pinWord (g : GenSt) : Nat :=
  if g.sampled then
    g.slotId.toNat + ofBool g.matePresent * 2 ^ 6 + ofBool g.aliveIn * 2 ^ 7 + ofBool g.aliveOut * 2 ^ 8
      + ofBool g.perst * 2 ^ 9 + 2 ^ 15
  else 0

/-- PRT_STATUS (spec/18_protection.md R563). -/
def State.prtWord (s : State) : Nat :=
  s.prt.pairState + ofBool s.prt.recovering * 2 ^ 3 + ofBool s.leads * 2 ^ 4
    + (List.range 4).foldl (fun a i => a + ofBool (s.laneLocked i) * 2 ^ (5 + i)) 0
    + ofBool s.prt.felt * 2 ^ 9 + ofBool s.prt.fab * 2 ^ 10 + ofBool s.prt.fast * 2 ^ 11
    + ofBool s.prt.aliveFault * 2 ^ 12

/-- Seconds of wait-to-restore left (R549). -/
def State.wtrLeft (s : State) (g : Nat) : Nat :=
  match (s.group g).wtr with
  | some t => s.wtrSec g - (s.now - t) / 5000000000
  | none => 0

/-- The fields of PRT_GROUP_STATUS that follow from the group's state (R566). -/
def State.groupWord (s : State) (g : Nat) : Nat :=
  if s.groupEn g then
    let req := if s.prt.pairState = 0 && (s.group g).role.isSome then 7 else (s.request g false).1
    ofBool (s.active g) + s.level g * 2 + s.mateLevel g * 2 ^ 3 + req * 2 ^ 5 + s.wtrLeft g % 2 ^ 12 * 2 ^ 8
  else 0

/-- PMN_ENT_STATUS (spec/07_line_monitoring.md R221). -/
def State.entWord (s : State) (e : Nat) : Nat :=
  let x := s.ent e
  ofBool x.los + ofBool (s.loaOf e) * 2 + ofBool x.fail * 4 + ofBool (s.notMon e) * 8 + ofBool (s.sf e) * 16
    + ofBool (s.sd e) * 32 + ofBool x.unavail * 64

/-- The bin that index b of R223 shows. -/
def State.binAt (s : State) (e b : Nat) : PmBin :=
  let x := (s.ent e).bins
  if b = 0 then x.cur15 else if b < 33 then x.hist.getD (b - 1) PmBin.init else if b = 33 then x.cur24 else x.prev24

/-! ## Tables, reams and arrays -/

/-- POISON slots of the exact-match pool and the stash, by slot. -/
def State.poisonSlots (s : State) : List Nat :=
  (s.tab.em.filter fun e => match e.2 with | .poison _ => true | .entry .. => false).map (·.1)

/-- A slot of an exact-match region holds POISON: of its block, in the pool or the stash (R287, R294). -/
def State.poisonIn (s : State) (i : Nat) : Bool :=
  s.tab.em.any fun e => match e.2 with | .poison b => b == i | .entry .. => false

/-- Slots held in a range of the pool and stash. -/
def State.slotsIn (s : State) (lo hi : Nat) : Nat :=
  s.storedEm.foldl (fun a e => if lo ≤ e.1 && e.1 < hi then a + emWidth e.2 else a) 0

/-- LIVE and HELD as CMT_HEADROOM reports them: of the parse tables, those of the fullest slice (spec/11_reams.md
R354). -/
def State.headroomShown (s : State) (t : Nat) : Nat × Nat :=
  if t = tStore || t = tEntry then
    (List.range 16).foldl (fun (a : Nat × Nat) k =>
      let b := s.liveHeld t k
      if a.1 + a.2 < b.1 + b.2 then b else a) (0, 0)
  else s.liveHeld t 0

/-- CMT_STATUS but for FL_HOLD (R352). -/
def State.cmtWord (s : State) : Nat :=
  s.cmt.newest % 2 ^ 32 + s.cmt.undrained.length % 16 * 2 ^ 32 + ofBool s.cmt.ring.isSome * 2 ^ 36
    + ofBool (s.cmt.wait.any fun (w : CommitWait) => w.ended.isNone) * 2 ^ 37 + (s.cmt.ring.getD 12288 - 12288) * 2 ^ 38

/-- Word w of slot u of the arrays as stored (spec/10_associative_search.md R327), with a parity bit. -/
def State.asaWord (s : State) (u w par : Nat) : Nat :=
  if w = 3 then ofBool (s.asa.disRows.contains (u / 2))
  else
    match s.storedAsa.ents.find? (fun (e : AsaEnt) => e.loc ≤ u && u < e.loc + asaUnits e.width) with
    | none => 0
    | some e =>
      let unit := fun (x : Nat) => bitsOf x (asaBits e.width - 80 * (u - e.loc + 1)) 80
      match w with
      | 0 => if u = e.loc then asaImage e par % 2 ^ 64 else 0
      | 1 => if u = e.loc then e.act0.toNat else 0
      | 2 => if u = e.loc then e.act1.toNat else 0
      | 4 => unit e.value / 2 ^ 64
      | 5 => unit e.value % 2 ^ 64
      | 6 => unit e.mask / 2 ^ 64
      | _ => unit e.mask % 2 ^ 64

/-- The image of a table entry that the newest ream sees; 0 where none (spec/08_parser.md R249). -/
def State.imgNow (s : State) (t i : Nat) : Nat :=
  match s.verAt (tkey t i) s.newTag with
  | some v => v.img
  | none => 0

/-! ## Memory and fabric -/

/-- STATE of a DRAM channel (spec/13_memory.md R411); 0, its reset value, while the clusters are STOPPED. -/
def State.channelState (s : State) (n c : Nat) : Nat :=
  let x := s.spare n
  if s.flag DDC_CTRL_SPARE_EN ix0 && s.flag DDC_CTRL_RUN ix0 then
    if x.copying = some c then 2 else if x.mapped = some c then 5
    else if c != 15 then 0
    else if x.copying.isSome then 3 else if x.mapped.isSome then 4 else 1
  else 0

/-- Deep pages in use. -/
def State.pagesUsed (s : State) : Nat := (s.bpm.bufs.filter fun e => isPage e.1).length

/-- FAB_LINK_STATUS but for what the far end's markers told (spec/15_fabric.md R482). -/
def State.linkWord (s : State) (l : Nat) : Nat :=
  let x := s.link l
  (if !s.linkRuns l then 0 else if x.align.locked.isSome then 2 else 1) + x.align.cands.length % 64 * 4
    + ofBool (s.inSpray l) * 2 ^ 9 + ofBool (!x.maps.isEmpty) * 2 ^ 10

/-- FAB_DEST_STATUS (R484). -/
def State.destWordOf (s : State) (d : Nat) (pair : Bool) : Nat :=
  let a := addrNamed d pair
  let x := s.ctx d
  (s.sprayFor a).length + (if !s.monitors d then 0 else if s.hbLost d then 2 else 1) * 2 ^ 9
    + ofBool (!(s.sprayFor a).isEmpty && !s.addrLost a) * 2 ^ 11 + ofBool (s.fab.dropping.contains a) * 2 ^ 12 + x.epoch.getD 0 % 256 * 2 ^ 13
    + x.next % 2 ^ 32 * 2 ^ 21

/-! ## The value of a register -/

/-- The block whose APPLY register this is. -/
def applyBlock : Reg → Option Block
  | .timApply => some .tim | .prtApply => some .prt | .pmnApply => some .pmn | .prsApply => some .prs
  | .lkpApply => some .lkp | .asaApply => some .asa | .cmtApply => some .cmt | .egrApply => some .egr
  | .bpmApply => some .bpm | .admApply => some .adm | .qscApply => some .qsc | .shpApply => some .shp
  | .tgtApply => some .tgt | .fabCmnApply => some .fabCmn | .crdApply => some .crd
  | _ => none

/-- Whether a register shows a value that the manual leaves open (log entry 3): the progress of the dandy scan and of a
sparing copy, a retraining pause, a parity bit. -/
def freeView : Reg → Bool
  | .dscStatus | .ddcSpare | .ddcChStatus | .asaView => true
  | _ => false

/-- A register's value as a number; `fr` is the open part. Fields that the module stores are those of `State.rd`. -/
def State.viewNat (s : State) (fr : Nat) (r : Reg) (ix : Ix) : Nat :=
  let own := (s.rd r ix).toNat
  match r with
  | .genIntSummary => s.summary
  | .genIntInst => s.intInst
  | .genPhase => s.gen.phaseWord
  | .genDomainStatus => s.gen.ready.toNat + s.gen.powered.toNat * 2 ^ 32
  | .genCouchStatus => s.couch.status
  | .genPinStatus => s.gen.pinWord
  | .pceLinkStatus => s.pce.status
  | .pceWinGen => own + tblGet 0 s.pce.inflight ix.i % 65536 * 2 ^ 32
  | .rngState =>
    let x := s.ring ix.i
    (match x.state with | .disabled => 0 | .run => 1 | .stopping => 2 | .halted => 3) + x.haltCode * 16
      + x.inflight % 65536 * 2 ^ 16
  | .mbxH2mStat => (s.pair ix.i).stat
  | .mbxM2hPtr => (s.pair ix.i).m2hPtr
  | .mbxM2hNote => (s.pair ix.i).m2hNote
  | .mbxMode => ofBool (s.pair ix.i).frAck
  | .semLock => s.lockOwner ix.i
  | .semHeld => s.heldLocks
  | .timApply | .prtApply | .pmnApply | .prsApply | .lkpApply | .asaApply | .cmtApply | .egrApply | .bpmApply
  | .admApply | .qscApply | .shpApply | .tgtApply | .fabCmnApply | .crdApply =>
    ofBool (s.applySt r.info.block ix.inst).go.isSome * 2
  | .timStatus => s.tim.status
  | .timNowSec => s.tim.sec
  | .timNowNs => s.tim.nowNs.toNat
  | .prtStatus => s.prtWord
  | .prtGroupStatus => own + s.groupWord ix.i
  | .milStatus => s.milStatus
  | .dscStatus => if s.now = s.tab.flOut then 0 else fr % 2 ^ 32 + fr / 2 ^ 32 % 251 * 2 ^ 32
  | .pmnEntStatus => s.entWord ix.i
  | .pmnBin0 =>
    let b := s.binAt ix.i ix.j
    b.es + b.ses * 2 ^ 17 + b.uas * 2 ^ 34 + ofBool b.suspect * 2 ^ 51 + ofBool b.valid * 2 ^ 52
  | .pmnBin1 => (s.binAt ix.i ix.j).bbe
  | .pmnBin2 => (s.binAt ix.i ix.j).start
  | .prsEntry =>
    let x := s.imgNow tEntry (32 * ix.inst + ix.i)
    bitsOf x 0 13 + bitsOf x 16 16 * 2 ^ 16 + bitsOf x 32 1 * 2 ^ 32
  | .prsStore => s.imgNow tStore (8192 * ix.inst + ix.i)
  | .lkpPoisonStatus => own + min 65535 s.poisonSlots.length
  | .lkpOccEm =>
    s.slotsIn 0 poolSlots + s.learnedCount % 2 ^ 23 * 2 ^ 24
      + s.slotsIn poolSlots (poolSlots + stashSlots) * 2 ^ 48
  | .lkpOccRoute => (s.liveHeld tRoute 0).1
  | .lkpDig0 => (s.digest ix.i).toNat
  | .lkpDig1 =>
    ofBool (tblFind ix.i s.tab.stale).isSome + ofBool (s.poisonIn ix.i) * 2
      + s.cmt.newest % 2 ^ 32 * 2 ^ 32
  | .asaDisabled => s.asa.disRows.length
  | .asaBankStatus => s.bankEntries ix.i + s.bankHeld ix.i * 2 ^ 14 + s.bankDisRows ix.i * 2 ^ 28
  | .asaView => s.asaWord (8192 * s.fld ASA_VIEW_SEL_BANK ix0 + ix.i) ix.j (fr % 2)
  | .cmtStatus => withBits own 0 48 s.cmtWord
  | .cmtHeadroom =>
    let x := s.headroomShown ix.i
    own + x.1 * 2 ^ 8 + x.2 * 2 ^ 32
  | .bpmStatus => (cellTotal - (s.bpm.bufs.length - s.pagesUsed)) + s.sharedFree * 2 ^ 21
  | .bpmDeepStatus => s.deepTotal + (s.deepTotal - s.pagesUsed) * 2 ^ 30
  | .bpmReqStatus => s.bpmUsed ix.i + s.bpmCached ix.i * 2 ^ 21
  | .admDeepStatus =>
    (s.qsc.qs.filter fun e => e.2.deepMode).length + s.mover.lastWr * 2 ^ 21 + s.mover.lastRd * 2 ^ 29
  | .admPfcStatus =>
    (List.range 8).foldl (fun a k => a + ofBool (s.lin.xoff.contains (8 * ix.i + k)) * 2 ^ k) 0
      + s.hdrmUsed ix.i * 2 ^ 8
  | .ddcSpare =>
    let st := s.spareState ix.inst
    st * 2 ^ 5 + (if st = 2 then (s.spare ix.inst).mapped.getD 0 else 0) * 2 ^ 8
      + (if st = 1 then fr % 100 else if st = 2 then 100 else 0) * 2 ^ 16
  | .ddcChStatus =>
    own + s.channelState ix.inst ix.i + (if s.mayPause ix.inst ix.i then fr % 2 else 0) * 8
      + ofBool s.gen.selfRefresh * 32
  | .qscNodeStatus =>
    match s.window false ix.i with
    | some (l, i) => s.nodeStatus l i
    | none => 0
  | .tgtStatus => if s.flag TGT_CTRL_EN (ixI ix.i) then own else withBits own 0 8 255
  | .shpLevel =>
    match s.window true ix.i with
    | some (l, i) => bucketBytes (s.bucket l i).cir + bucketBytes (s.bucket l i).pir * 2 ^ 32
    | none => 0
  | .qscNode | .shpCir | .shpPir | .shpPolCfg =>
    match s.windowed r ix with
    | some ⟨r, ix⟩ => (s.rd r ix).toNat
    | none => 0
  | .fabLinkStatus => own + s.linkWord (64 * ix.inst + ix.i)
  | .fabCmnDestStatus => s.destWordOf (s.fld FABCMN_DEST_SEL_DEST ix0) (s.flag FABCMN_DEST_SEL_P ix0)
  | .crdStatus => s.resRate % 2 ^ 30
  | .crdVoqState =>
    let q := s.queue (s.fld CRD_VOQ_SEL_QUEUE ix0)
    (q.balance % (2 ^ 32 : Nat)).toNat + q.out % 16 * 2 ^ 32
  | .crdPgCfg => own + ofBool (s.flag CRD_PG_CFG_EN (ixI ix.i) && s.answersPair ix.i) * 2
  | _ => own

/-- What a read of a register returns, before any effect of the read. -/
def State.view (s : State) (r : Reg) (ix : Ix) : W64 :=
  if hasFields r ix then BitVec.ofNat 64 (s.viewNat s.free.toNat r ix) else 0

end Sys2Proof.Machine
end

