-- ==== Sys2Proof/Machine/RegEffect.lean ====
section
/-!
DEFINITION. Machine/RegEffect.lean: when written fields take effect: RW fields on their islands (spec/00_scope.md R6),
staged fields at an application point (R7, R8), and the clearing of causes (spec/20_register_map.md R601).
-/
namespace Sys2Proof.Machine

open Fld

/-! ## RW fields, R6 -/

/-- SQUELCHED of a SyncE output follows SQUELCH_EN and the signal of its lane's port (spec/17_time.md R526). -/
def State.synceSettle (s : State) (i : Nat) : State :=
  let lane := s.fld TIM_SYNCE_LANE (ixI i)
  let l := max 1 (mapLanes (s.sliceMap (lane / 16)))
  let on := s.flag TIM_SYNCE_SQUELCH_EN (ixI i) && s.sf (lane / l * l)
  let was := s.flag TIM_SYNCE_SQUELCHED (ixI i)
  let s := s.set TIM_SYNCE_SQUELCHED (ixI i) (ofBool on)
  if on && !was then s.raise TIM_INT_STATUS_SYNCE_SQUELCH else s

/-- A felt lane that LANE_EN switches starts its search afresh (spec/18_protection.md R536). -/
def State.lanesSwitched (s : State) (old : Nat) : State :=
  let new := s.fld PRT_CTRL_LANE_EN ix0
  let lanes := s.prt.lanes.filter fun e => bitAt old e.1 == bitAt new e.1
  let s := { s with prt := { s.prt with lanes := lanes } }
  ((List.range 4).foldl (fun s i => if bitAt old i == bitAt new i then s else s.newFeltMarkers i) s).protJudge

/-- A written RW field takes effect, with what follows from it in the module (R6). -/
def State.rwEffect (s : State) (p : RwPend) : State :=
  match findStored p.addr with
  | none => s
  | some ⟨r, ix⟩ =>
    let old := (s.rd r ix).toNat
    let s := s.takeRw p
    let new := (s.rd r ix).toNat
    let en := bitAt old 0 != bitAt new 0
    match r with
    | .fabLinkCfg =>
      let l := 64 * ix.inst + ix.i
      if en then ((s.watchSf [entLink l] fun s => s.linkReset l).newMarkers l).settleFab.protJudge else s
    | .fabCmnHbSet => s.settleFab.protJudge
    | .crdPgCfg => if en && bitAt new 0 then s.freshUsed ix.i else s
    | .prtCtrl => if old % 16 = new % 16 then s else s.lanesSwitched (old % 16)
    | .timSynce => s.synceSettle ix.i
    | .tgtCtrl => if en then s.gateSettle ix.i else s
    | _ => s

/-- Every RW write that an instance of a block has received takes effect, in order, before a later write to it is
judged (R6, R43; log entry 5). -/
def State.flushHooked (s : State) (b : Block) (inst : Nat) : State :=
  let mine := s.acc.rwPend.filter (pendOf b inst)
  mine.foldl State.rwEffect { s with acc := { s.acc with rwPend := s.acc.rwPend.filter (fun p => !pendOf b inst p) } }

/-- RW_FIELD_EFFECT: the oldest RW write to a register that waits takes effect (R6). -/
def rwFieldEffect (off : BitVec 28) (s : State) : State :=
  match takeFirst (fun (p : RwPend) => p.off == off.toNat) s.acc.rwPend with
  | none => s
  | some (p, rest) => ({ s with acc := { s.acc with rwPend := rest } }).rwEffect p

/-! ## Staged fields, R7, R8 -/

/-- A write of GO to the APPLY register of an instance: PENDING reads 1 from now on; with an application in progress
nothing happens (R8). -/
def State.applyGoTo (s : State) (req : Req) (b : Block) (inst : Nat) : State :=
  let a := s.applySt b inst
  if a.go.isSome then s else s.setApply { a with go := some req }

/-- The shadow copies of an instance that differ from the values in force. -/
def State.stagedCells (s : State) (b : Block) (inst : Nat) : List RegCell :=
  s.shadow.filter fun c =>
    match findStored c.1 with
    | some ⟨r, ix⟩ => r.info.block == b && ix.inst == inst
    | none => false

/-- A staged register takes the value of its shadow copy. -/
def State.takeStaged (s : State) (c : RegCell) : State :=
  match findStored c.1 with
  | some ⟨r, ix⟩ => s.wr r ix (blend (s.rd r ix) c.2 (classMask r .rws))
  | none => s

/-- Staged by one requester and applied by another, the values are undefined (spec/01_architecture.md R44): each
staged register takes a free value. -/
def State.freeStaged (s : State) (cs : List RegCell) : State × List RegCell :=
  cs.foldl (fun (a : State × List RegCell) c => (a.1.used, a.2 ++ [(c.1, a.1.free)])) (s, [])

/-- A SHIFT leaves room for what a table holds (spec/11_reams.md R348). -/
def State.shiftOk (s : State) (t : Nat) : Bool :=
  match tableCap t with
  | none => true
  | some c =>
    let parts := if t = tStore || t = tEntry then 16 else 1
    (List.range parts).all fun k =>
      let (l, h) := s.liveHeld t k
      l ≤ c - s.headroom t && l + h ≤ c

/-- Whether a block accepts staged values that would be in force in `s`: R348, spec/12_buffering.md R367 and R389,
spec/14_scheduling.md R445. -/
def State.applyOk (s : State) (b : Block) (cs : List RegCell) : Bool :=
  match b with
  | .cmt =>
    cs.all fun c =>
      match findStored c.1 with
      | some ⟨.cmtHeadroom, ix⟩ => s.shiftOk ix.i
      | _ => true
  | .bpm => s.guarSum + s.hdrmSum ≤ cellTotal
  | .adm =>
    s.guarSum + s.hdrmSum ≤ cellTotal
      && (List.range 8).foldl (fun a k => a + s.fld ADM_DEEP_BW_GUAR (ixI k)) 0 ≤ 195
  | .crd =>
    (List.range 32).all fun g =>
      (List.range 8).foldl (fun a k => a + s.fld CRD_CLASS_GUAR (ixIJ g k)) 0 ≤ max 1 (s.fld CRD_PG_CFG_WINDOW (ixI g))
  | _ => true

/-- The node or policer whose rates or bursts a staged register holds (spec/14_scheduling.md R449). -/
def rateOf (c : RegCell) : Option (Nat × Nat) :=
  match findStored c.1 with
  | some ⟨.shpCirStore, ix⟩ | some ⟨.shpPirStore, ix⟩ => some (ix.i, ix.j)
  | _ => none

/-- What the module does on account of an application, from its state before the staged values and after them: a
source change acquires afresh (spec/17_time.md R518), a pool may run low (spec/12_buffering.md R380), XON thresholds
act, rates act (spec/14_scheduling.md R432), protection is judged afresh. -/
def State.applied (s old : State) (b : Block) (cs : List RegCell) : State :=
  match b with
  | .tim =>
    let s := if s.timSrc = old.timSrc then s
      else
        let t := { s.tim with meas := [], edgesNoMsg := 0, exch := none, discRun := 0, tod := none, lastTod := none }
        ({ s with tim := t }).servoTo .acquiring
    s.masterSettle
  | .bpm => s.poolWatch old.sharedFree
  | .adm => (s.poolWatch old.sharedFree).xonWatch
  | .shp => (cs.filterMap rateOf).foldl (fun s n => s.newRates n.1 n.2) s
  | .prt => s.protJudge
  | .crd =>
    (List.range 32).foldl (fun s g =>
      if s.flag CRD_PG_CFG_EN (ixI g) && s.answersPair g && !old.answersPair g then s.freshUsed g else s) s
  | _ => s

/-- STAGED_APPLY: at the application point of the instance every staged field takes effect, or the application is
discarded and every shadow copy keeps its value (R7, R8). -/
def stagedApply (b : Block) (inst : Fin 16) (s : State) : State :=
  let k := inst.val
  let a := s.applySt b k
  match a.go with
  | none => s
  | some req =>
    if !s.domUp (blockDomain b k) then s
    else
      let cs := s.stagedCells b k
      let (s, vals) := if a.stagers.any (· != req) then s.freeStaged cs else (s, cs)
      let old := match b with
        | .shp => (cs.filterMap rateOf).foldl (fun s n => s.settleBucket n.1 n.2) s
        | .crd => s.crdSettle
        | _ => s
      let new := vals.foldl State.takeStaged old
      if new.applyOk b cs then
        let new := { new with shadow := cs.foldl (fun t (c : RegCell) => tblDel c.1 t) new.shadow }
        (new.setApply ⟨b, k, none, []⟩).applied old b cs
      else (s.setApply { a with go := none }).violation b k

/-! ## Causes, R19, R601 -/

/-- A W1C write to an INT_STATUS register, with causes that set in the same cycle. The summary bit counts as rising
again when an enabled cause is left or sets (R601). -/
def State.intClear (s : State) (b : Block) (inst : Nat) (v newCauses : W64) : State :=
  match intRegs b with
  | none => s
  | some (st, _) =>
    let was := s.rd st (ixN inst)
    let s := s.wr st (ixN inst) (was &&& ~~~(v &&& classMask st .w1c))
    let s := if b == .lkp && (was &&& v &&& LKP_INT_STATUS_LEARN_FAIL.mask) != 0 then
      { s with tab := { s.tab with failClear := some s.now } } else s
    let left := s.summaryBit b
    let s := st.info.fields.foldl (fun s (f : Field) =>
      (List.range f.width).foldl (fun s i =>
        if f.acc == .w1c && bitAt newCauses.toNat (f.lsb + i) then s.raiseAt f inst i 0 0 else s) s) s
    let s := if left && s.instIrq b inst then s.sendVector .pf0 (summaryIndex b) else s
    s.settleIntx .pf0

end Sys2Proof.Machine
end

