-- ==== Sys2Proof/Machine/RegAccess.lean ====
section
/-!
DEFINITION. Machine/RegAccess.lean: register accesses: who may make them, writes of either width, posted writes to FX,
the registers whose writes are commands, reads and what they clear (spec/00_scope.md R11 to R17).
-/
namespace Sys2Proof.Machine

open Fld

/-! ## Who accesses registers, R12 -/

/-- A function answers requests: HP runs, PERST_N is high (spec/02_module.md R68), and the function is neither in D3hot
nor in FLR (spec/04_host_pcie.md R117, R129, R131). -/
def State.fnAnswers (s : State) (f : Fn) : Bool :=
  s.domUp domHP && !s.gen.perst && !(s.fn f).d3 && !(s.fn f).flr

/-- An access that a command names and a function does not answer: in D3hot or FLR it is an unsupported request
(spec/04_host_pcie.md R117, R129, R131) whose requester ID no command tells, so that it is a free value (log entry 89);
otherwise the endpoint does not see it. -/
def State.turnedAway (s : State) (f : Fn) (off : Nat) (write : Bool) : State :=
  if !s.domUp domHP || s.gen.perst then s
  else
    let t : Tlp :=
      { fn := f, bar2 := false, kind := if write then .write else .read, off := off, len := 8, disabled := [],
        reqId := s.free.setWidth 16, badPrefix := false, poisoned := false, parityErr := false, data := [] }
    s.used.unsupported t (if (s.fn f).d3 then 0x7 else 0x8)

/-- Whether a requester reaches the register map: PF0 through the endpoint, the Mill while its domain runs, the debug
port while it is unlocked. PF1's view and the mate's messages hold no register of the map (spec/04_host_pcie.md R112,
spec/05_rings_mailboxes_locks.md R171). -/
def State.mayAccess (s : State) : Req → Bool
  | .pf0 => s.fnAnswers .pf0
  | .mill => s.domUp domML
  | .dbg => s.mil.debug
  | .pf1 | .mate => false

/-- What becomes of an access of a requester that does not reach the map. -/
def State.refuse (s : State) (req : Req) (off : Nat) (write : Bool) : State :=
  if req = .pf0 then s.turnedAway .pf0 off write else s

/-- An access releases what an earlier read of the requester captured (R14, spec/17_time.md R516). -/
def State.release (s : State) (req : Req) : State :=
  { s with acc := { s.acc with highs := s.acc.highs.filter (fun h => h.req != req)
                               nsCapt := s.acc.nsCapt.filter (fun e => e.1 != req) } }

/-- The requester's pending low half of a register is dropped (R13). -/
def State.dropLow (s : State) (req : Req) (off : Nat) : State :=
  { s with acc := { s.acc with lows := s.acc.lows.filter (fun h => !(h.req == req && h.off == off)) } }

/-- The domain of the register at an offset; of the block instance, where the offset is reserved; none outside every
instance (R599). -/
def offDomain (off : Nat) : Option Nat :=
  match findBlock off with
  | none => none
  | some b =>
    let inst := (instOf b off).1
    match findReg off with
    | some ⟨r, ix⟩ => some (regDomain r ix.inst)
    | none => if inst < (blockInfo b).count then some (blockDomain b inst) else none

/-- An access that cannot reach its block is recorded (R42); COUCH tells that the couch link is DOWN. -/
def State.unreachable (s : State) (req : Req) (off dom : Nat) (write : Bool) : State :=
  s.offline req off dom write (isFx dom && s.couch.st == .down)

/-! ## Writes -/

/-- What follows where the index of a command's instance is in range. -/
def withFin (n i : Nat) (s : State) (f : Fin n → State → State) : State :=
  if h : i < n then f ⟨i, h⟩ s else s

/-- A register's fields, each by its class (R6, R7, R10): RWX and RWS are judged, RW waits for its island. -/
def State.writeFields (s : State) (req : Req) (off : Nat) (r : Reg) (ix : Ix) (v skip : W64) : State :=
  let s := (s.writeRwx r ix v).writeRws req r ix v
  let m := classMask r .rw &&& ~~~skip
  if m = 0 then s
  else
    let p : RwPend := { off := off, addr := regAddr r ix, mask := m, val := v }
    { s with acc := { s.acc with rwPend := s.acc.rwPend ++ [p] } }

/-- A register without a row of its own, with the few that a rule guards: the calendar in use (spec/06_line_flexe.md
R192), the standby page and time of an armed switch (R196, R204), TIM_FREQ (spec/17_time.md R529), the administrative
gate list while a switch is pending (spec/14_scheduling.md R438), windows without a node (R443, R449). -/
def State.writePlain (s : State) (req : Req) (off : Nat) (r : Reg) (ix : Ix) (v : W64) : State :=
  let b := r.info.block
  let refuse := s.violation b ix.inst
  let guarded := fun (m : W64) =>
    let held := (s.gate ix.i).switchAt.isSome && ((s.rd r ix ^^^ v) &&& m) != 0
    (if held then refuse else s).writeFields req off r ix v (if (s.gate ix.i).switchAt.isSome then m else 0)
  match r with
  | .flxXcSby0 | .flxXcSby1 =>
    if s.xcEntryRefused then refuse.count FLX_XC_STATUS_WR_VIOL ix0 1 else s.writeFields req off r ix v 0
  | .flxXcTime => if s.flag FLX_XC_STATUS_ARMED ix0 then refuse else s.writeFields req off r ix v 0
  | .flxCal => if s.calInUse ix.i ix.j then refuse else s.writeFields req off r ix v 0
  | .timFreq => if s.timSrc = 3 then s.writeFields req off r ix v 0 else refuse
  | .tgtAdmin => guarded (classMask .tgtAdmin .rw)
  | .tgtBaseSec => guarded (classMask .tgtBaseSec .rw)
  | .tgtBaseNs => guarded TGT_BASE_NS_NS.mask
  | .tgtCtrl => guarded (TGT_CTRL_ADMIN_LEN_M1.mask ||| TGT_CTRL_ADMIN_CYCLE.mask)
  | .fabCmnCtrl | .fabCmnPairMap => (s.writeFields req off r ix v 0).settleFab.protJudge
  | r =>
    match s.windowed r ix with
    | some ⟨r, ix⟩ => s.writeFields req off r ix v 0
    | none => s

/-- W1C bits of PRT_HEALTH (spec/18_protection.md R564). -/
def State.healthClear (s : State) (v : W64) : State :=
  let bits : List Field := [PRT_HEALTH_SCHED_FAIL, PRT_HEALTH_BUF_FAIL, PRT_HEALTH_SPARE_FAIL, PRT_HEALTH_ASA_FAIL,
    PRT_HEALTH_COUCH, PRT_HEALTH_LOCKSTEP]
  bits.foldl (fun s f => if f.get v = 1 && s.flag f ix0 then s.healthTo f 0 false else s) s

/-- A write to a register whose write is a command of GEN: GEN_PHASE_CTRL, GEN_DOMAIN_RESET, GEN_RESET_CTRL and
GEN_RESET_CAUSE (spec/03_startup_reset.md R100, R101, R103, R104). -/
def State.writeGen (s : State) (req : Req) (off : Nat) (r : Reg) (ix : Ix) (v : W64) : State :=
  match r with
  | .genPhaseCtrl =>
    match GEN_PHASE_CTRL_REQ.get v with
    | 1 => phaseReqPark req s
    | 2 => phaseReqRun req s
    | 3 => phaseReqIsolate req s
    | _ => s
  | .genDomainReset => domainHold req (BitVec.ofNat 29 (GEN_DOMAIN_RESET_HOLD.get v)) s
  | .genResetCtrl =>
    let key := BitVec.ofNat 16 (GEN_RESET_CTRL_KEY.get v)
    if key != resetKey then s.violation .gen 0
    else if GEN_RESET_CTRL_COLD.get v = 1 then Machine.cold req key s
    else if GEN_RESET_CTRL_WARM_QX.get v = 1 then warmQx req key s
    else s
  | .genResetCause => s.wr r ix (s.rd r ix &&& ~~~(v &&& classMask .genResetCause .w1c))
  | r => s.writePlain req off r ix v

/-- The same for the host's blocks: PCE, RNG, MBX, SEM. -/
def State.writeHost (s : State) (req : Req) (off : Nat) (r : Reg) (ix : Ix) (v : W64) : State :=
  match r with
  | .pceWin => s.writeWin (s.partGib 2 * 1024) ix.i v
  | .rngCfg =>
    withFin 16384 ix.i s fun k s => if RNG_CFG_ENABLE.get v = 1 then ringEnable k v s else ringDisable k v s
  | .mbxH2mPost => withFin 8 ix.i s fun k s => mbxH2mPost k v s
  | .mbxH2mStat => s.clearH2mStat ix.i v
  | .mbxM2hTake => withFin 8 ix.i s fun k s => mbxM2hTake k v s
  | .mbxMode => withFin 8 ix.i s fun k s => mbxModeWrite k v s
  | .semRelease =>
    withFin 64 ix.i s fun k s =>
      if SEM_RELEASE_REL.get v = 1 && !(req == .mill && SEM_RELEASE_FORCE.get v = 1) then rel req k s
      else if SEM_RELEASE_FORCE.get v = 1 then force req k s
      else s
  | r => s.writePlain req off r ix v

/-- The same for the blocks of the FX die. -/
def State.writeFx (s : State) (req : Req) (off : Nat) (r : Reg) (ix : Ix) (v : W64) : State :=
  match r with
  | .linSliceCtrl =>
    withFin 16 ix.inst s fun k s => if LIN_SLICE_CTRL_RUN.get v = 1 then sliceRun req k v s else sliceStop req k v s
  | .linPortCfg => withFin 256 (16 * ix.inst + ix.i) s fun p s => portEnable req p v s
  | .flxGroupCfg =>
    withFin 32 ix.i s fun n s =>
      if FLX_GROUP_CFG_CAL_REQ.get v = 1 then calReq req n v s else flxGroupEnable req n v s
  | .flxClient => withFin 512 ix.i s fun c s => flxClientEnable req c v s
  | .flxCkt => withFin 4096 ix.i s fun c s => flxCktEnable req c v s
  | .flxXcCtrl => s.xcCtrl req v
  | .lkpFlush => if LKP_FLUSH_GO.get v = 1 then flushStart req v s else s.writePlain req off r ix v
  | .lkpPoisonClr => poisonClr req v s
  | .asaBankCfg =>
    withFin 128 ix.i s fun k s => if ASA_BANK_CFG_RUN.get v = 1 then asaBankRun req k v s else asaBankStop req k v s
  | .asaSrchCmd =>
    withFin 4 ix.i s fun c s =>
      match ASA_SRCH_CMD_OP.get v with
      | 1 => start req c v s
      | 2 => next req c v s
      | 3 => srchEnd req c v s
      | _ => s.writePlain req off r ix v
  | .cmtRdCmd => if CMT_RD_CMD_GO.get v = 1 then tableRead req v s else s.writePlain req off r ix v
  | r => s.writePlain req off r ix v

/-- The same for the blocks of the QX die and the module. -/
def State.writeQx (s : State) (req : Req) (off : Nat) (r : Reg) (ix : Ix) (v : W64) : State :=
  match r with
  | .timAdj =>
    if TIM_ADJ_LOAD.get v = 1 then timAdjLoad v s else if TIM_ADJ_STEP.get v = 1 then timAdjStep v s
    else timAdjSlew v s
  | .prtGroupCfg => withFin 32 ix.i s fun g s => protGroupEnable req g v s
  | .prtRecovery => recoveryDone req v s
  | .prtHealth => s.healthClear v
  | .ddcCtrl => ddcRun req v s
  | .ddcCntClr => cntClr req v s
  | .ddcSpare =>
    if DDC_SPARE_GO.get v = 1 then withFin 9 ix.inst s fun n s => spareGo req n v s
    else if req != .mill then (s.flushRw .ddc ix.inst).violation .ddc ix.inst else s
  | .qscCtrl => qscRun req v s
  | .qscFlush => if QSC_FLUSH_GO.get v = 1 then queueFlushStart req v s else s.writePlain req off r ix v
  | .crdRes => withFin 4096 ix.i s fun k s => crdResEnable req k v s
  | .tgtCtrl =>
    if TGT_CTRL_CHANGE.get v = 1 then withFin 288 ix.i s fun p s => Machine.change req p v s
    else s.writePlain req off r ix v
  | .fabMacroCtrl => withFin 5 ix.inst s fun n s => fabMacroRun req n v s
  | r => s.writePlain req off r ix v

/-- A whole write reaches a register that can be reached: a W1C write of an INT_STATUS, a GO, a command, or plain
fields. -/
def State.writeReg (s : State) (req : Req) (off : Nat) (r : Reg) (ix : Ix) (v : W64) : State :=
  let b := r.info.block
  let s := s.flushHooked b ix.inst
  if (intRegs b).any (fun p => p.1 = r) then s.intClear b ix.inst v 0
  else if (applyBlock r).isSome then (if bitAt v.toNat 0 then s.applyGoTo req b ix.inst else s)
  else if !hasFields r ix then s
  else
    match b with
    | .gen => s.writeGen req off r ix v
    | .pce | .rng | .mbx | .sem => s.writeHost req off r ix v
    | .lin | .flx | .pmn | .prs | .lkp | .asa | .cmt | .egr | .dsc => s.writeFx req off r ix v
    | .tim | .prt | .mil | .bpm | .adm | .ddc | .qsc | .shp | .tgt | .fab | .fabCmn | .crd => s.writeQx req off r ix v

/-- Whether what an offset names in a domain can be reached. -/
def State.offReachable (s : State) (off d : Nat) : Bool :=
  s.reachable d || (findReg off).any fun x => s.regReachable x.reg x.ix.inst

/-- A whole write arrives at its block: discarded and recorded where the block cannot be reached (R42), ignored where
the offset holds no register (R15). -/
def State.writeAt (s : State) (req : Req) (off : Nat) (v : W64) : State :=
  match offDomain off with
  | none => s
  | some d =>
    if !s.offReachable off d then s.unreachable req off d true
    else
      match findReg off with
      | none => s
      | some ⟨r, ix⟩ => s.writeReg req off r ix v

/-- The word that a register holds for a write that leaves its low half alone: each field at the value that writing it
back changes nothing with (R7, R10, R11). -/
def State.heldWord (s : State) (r : Reg) (ix : Ix) : W64 :=
  match s.windowed r ix with
  | none => 0
  | some ⟨.mbxMode, ix⟩ => BitVec.ofNat 64 (ofBool (s.pair ix.i).frAck)
  | some ⟨r, ix⟩ =>
    let rw := s.acc.rwPend.foldl (fun (w : W64) (p : RwPend) =>
      if p.addr = regAddr r ix then blend w p.val p.mask else w) (s.rd r ix)
    blend (blend 0 rw (classMask r .rw ||| classMask r .rwx)) (s.shadowOf r ix) (classMask r .rws)

/-- The word that a write carries as its block receives it: an unpaired high half leaves the low half as the register
holds it (log entry 7). -/
def State.wordFor (s : State) (off : Nat) (v : W64) (hi : Bool) : W64 :=
  if hi then
    let held := match findReg off with
      | some ⟨r, ix⟩ => (s.heldWord r ix).toNat % 2 ^ 32
      | none => 0
    BitVec.ofNat 64 (v.toNat / 2 ^ 32 * 2 ^ 32 + held)
  else v

/-- A posted write reaches its block. -/
def State.writePosted (s : State) (p : Posted) : State := s.writeAt p.req p.off (s.wordFor p.off p.v p.hi)

/-- Posted writes reach their blocks in order (R16). -/
def State.deliver16 (s : State) (ps : List Posted) : State := ps.foldl State.writePosted s

/-- Every posted write of a requester crosses the couch link and reaches its block (R16). -/
def State.deliverAll (s : State) (req : Req) : State :=
  let s := s.crossWrites req
  let mine := (s.acc.posted ++ s.acc.held).filter (fun p => p.req == req)
  let acc := { s.acc with posted := s.acc.posted.filter (fun p => p.req != req),
                          held := s.acc.held.filter (fun p => p.req != req) }
  (({ s with acc := acc }).deliver16 mine).admitHeld

/-- The oldest posted write that a predicate names, of those that have crossed the couch link, reaches its block. -/
def State.deliverOne (s : State) (f : Posted → Bool) : State :=
  match takeFirst f s.acc.posted with
  | none => s
  | some (p, rest) => (({ s with acc := { s.acc with posted := rest } }).writePosted p).admitHeld

/-- Whether an offset lies in an FX block (R16). -/
def fxOff (off : Nat) : Bool := (offDomain off).any isFx

/-- An access to an FX block that can be reached waits while the couch link is not UP (spec/01_architecture.md R35). -/
def State.fxWaits (s : State) (off : Nat) : Bool :=
  s.couchWaits && (offDomain off).any fun d => isFx d && s.reachable d

/-- A whole write, or an unpaired high half, is issued: to an FX block that can be reached it is posted over the couch
link (R16, R41). -/
def State.issueWrite (s : State) (req : Req) (off : Nat) (v : W64) (hi : Bool) : State :=
  if (offDomain off).any fun d => isFx d && s.reachable d then s.postWrite ⟨req, off, v, hi⟩
  else s.writeAt req off (s.wordFor off v hi)

/-- A 64-bit write of a requester (R13). -/
def State.write64 (s : State) (req : Req) (off : Nat) (v : W64) : State :=
  ((s.release req).dropLow req off).issueWrite req off v false

/-- A 32-bit write of a low half is held (R12); it replaces one that is held for the register (R13). -/
def State.writeLow (s : State) (req : Req) (off : Nat) (v : W32) : State :=
  let s := (s.release req).dropLow req off
  { s with acc := { s.acc with lows := s.acc.lows ++ [⟨req, off, v⟩] } }

/-- A 32-bit write of a high half commits it with the requester's pending low half (R12); without one the low half
keeps what it holds as the write reaches its block (log entry 7). -/
def State.writeHigh (s : State) (req : Req) (off : Nat) (v : W32) : State :=
  let low := s.acc.lows.find? (fun h => h.req == req && h.off == off)
  let s := (s.release req).dropLow req off
  match low with
  | some h => s.issueWrite req off (BitVec.ofNat 64 (v.toNat * 2 ^ 32 + h.v.toNat)) false
  | none => s.issueWrite req off (BitVec.ofNat 64 (v.toNat * 2 ^ 32)) true

/-! ## Reads -/

/-- The RC fields that a read covers are cleared: all of them when it covers the low half, else those that lie in the
high half (R11; log entry 8). -/
def State.clearRc (s : State) (r : Reg) (ix : Ix) (low : Bool) : State :=
  let m := (r.info.fields.filter fun (f : Field) => f.acc == .rc && (low || 32 ≤ f.lsb)).foldl
    (fun (m : W64) f => m ||| f.mask) 0
  if m = 0 then s else s.wr r ix (s.rd r ix &&& ~~~m)

/-- A read of a register that can be reached: its value, what it clears (R11), and what it does: a read of a lock that
covers its low half acquires it (spec/05_rings_mailboxes_locks.md R169), a read of TIM_NOW_SEC captures the
nanoseconds, which TIM_NOW_NS then returns (spec/17_time.md R516). -/
def State.readReg (s : State) (req : Req) (r : Reg) (ix : Ix) (low : Bool) : State × W64 :=
  let v := s.view r ix
  let capt := (s.acc.nsCapt.find? (fun e => e.1 == req)).map (·.2)
  let s := s.release req
  match r with
  | .semLock =>
    if low then
      let (s, o) := s.readLock req ix.i
      (s, BitVec.ofNat 64 o)
    else (s, v)
  | .timNowSec => (s.captureNs req, v)
  | .timNowNs => (s, capt.getD v)
  | r => ((if freeView r then s.used else s).clearRc r ix low, v)

/-- A read of an offset: earlier posted FX writes of the requester arrive first (R16); all ones where the block cannot
be reached (R42), 0 where there is no register (R15). -/
def State.readOff (s : State) (req : Req) (off : Nat) (low : Bool) : State × W64 :=
  let s := if fxOff off && !s.couchWaits then s.deliverAll req else s
  match offDomain off with
  | none => (s.release req, 0)
  | some d =>
    if !s.offReachable off d then ((s.release req).unreachable req off d false, allOnes)
    else
      match findReg off with
      | none => (s.release req, 0)
      | some ⟨r, ix⟩ => s.readReg req r ix low

/-- A 32-bit read of a low half captures the high half (R14). -/
def State.readLow (s : State) (req : Req) (off : Nat) : State × W32 :=
  let (s, v) := s.readOff req off true
  ({ s with acc := { s.acc with highs := s.acc.highs ++ [⟨req, off, BitVec.ofNat 32 (v.toNat / 2 ^ 32)⟩] } },
    BitVec.ofNat 32 v.toNat)

/-- A 32-bit read of a high half: what the requester's read of the low half captured (R14), or the register. A capture
is served also when its block can no longer be reached (R42): the capture stands outside the block (DESIGN CHOICE, log
entry 90). -/
def State.readHigh (s : State) (req : Req) (off : Nat) : State × W32 :=
  match s.acc.highs.find? (fun h => h.req == req && h.off == off) with
  | some h => ({ s with acc := { s.acc with highs := s.acc.highs.filter (fun h => h.req != req) } }, h.v)
  | none =>
    let (s, v) := s.readOff req off false
    (s, BitVec.ofNat 32 (v.toNat / 2 ^ 32))

/-- What the requester's read of the low half of a register captured (R14). -/
def State.captured (s : State) (req : Req) (off : Nat) : Bool := s.acc.highs.any fun h => h.req == req && h.off == off

/-- A read, answered to its requester. -/
def State.answerRead (s : State) (req : Req) (off : Nat) (part : RegPart) : State :=
  match part with
  | .whole =>
    let (s, v) := s.readOff req off true
    s.emit (.answer req v)
  | .low =>
    let (s, v) := s.readLow req off
    s.emit (.answer req (v.setWidth 64))
  | .high =>
    let (s, v) := s.readHigh req off
    s.emit (.answer req (v.setWidth 64))

/-- A read of an FX register waits while the couch link is not UP (spec/01_architecture.md R35); a captured high half
is at hand. -/
def State.readPart (s : State) (req : Req) (off : Nat) (part : RegPart) : State :=
  if s.fxWaits off && !(part = .high && s.captured req off) then
    { s with acc := { s.acc with waits := s.acc.waits ++ [.read req off part] } }
  else s.answerRead req off part

/-! ## A command that is a write to a register of its own -/

/-- What a requester's write to a register does before it is there: it releases captures and drops a pending low half
(R13, R14), and comes after the requester's earlier posted writes if its block is on the FX die (R16). -/
def State.heard (s : State) (req : Req) (r : Reg) (ix : Ix) : State :=
  let s := (s.release req).dropLow req (regAddr r ix)
  if isFx (regDomain r ix.inst) && !s.couchWaits then s.deliverAll req else s

/-- Whether a requester's write of a register gets there: the requester reaches the map, the block can be reached, and
for an FX block the couch link carries the write at once. -/
def State.arrives (s : State) (req : Req) (r : Reg) (ix : Ix) : Bool :=
  s.mayAccess req && !s.fxWaits (regAddr r ix) && (s.heard req r ix).regReachable r ix.inst

/-- The state in which a requester's write of a register is judged: RW writes that its instance received earlier have
taken effect (R6, R43). -/
def State.arrived (s : State) (req : Req) (r : Reg) (ix : Ix) : State :=
  (s.heard req r ix).flushHooked r.info.block ix.inst

/-- A row that is a register write: a function that does not answer refuses it; it is discarded and recorded where the
block cannot be reached (R42); otherwise `f` is what it does. -/
def State.own (s : State) (req : Req) (r : Reg) (ix : Ix) (f : State → State) : State :=
  if !s.mayAccess req then s.refuse req (regAddr r ix) true
  else if s.arrives req r ix then f (s.arrived req r ix)
  else (s.heard req r ix).unreachable req (regAddr r ix) (regDomain r ix.inst) true

/-- A row that is a write of a value to an FX register: it waits with the posted writes while the couch link is not UP
(spec/01_architecture.md R35). -/
def State.ownFx (s : State) (req : Req) (r : Reg) (ix : Ix) (v : W64) (f : State → State) : State :=
  if s.mayAccess req && s.fxWaits (regAddr r ix) then s.write64 req (regAddr r ix) v else s.own req r ix f

/-- REGISTER_WRITE. -/
def registerWrite (req : Req) (off : BitVec 28) (v : W64) (s : State) : State :=
  if s.mayAccess req then s.write64 req off.toNat v else s.refuse req off.toNat true

/-- LOW_HALF_WRITE. -/
def lowHalfWrite (req : Req) (off : BitVec 28) (v : W32) (s : State) : State :=
  if s.mayAccess req then s.writeLow req off.toNat v else s.refuse req off.toNat true

/-- HIGH_HALF_WRITE. -/
def highHalfWrite (req : Req) (off : BitVec 28) (v : W32) (s : State) : State :=
  if s.mayAccess req then s.writeHigh req off.toNat v else s.refuse req off.toNat true

/-- RC_REGISTER_READ: a read of a register, whole or of its high half. -/
def rcRegisterRead (req : Req) (off : BitVec 28) (part : RdPart) (s : State) : State :=
  if s.mayAccess req then s.readPart req off.toNat (match part with | .full => .whole | .high => .high)
  else s.refuse req off.toNat false

/-- LOW_HALF_READ. -/
def lowHalfRead (req : Req) (off : BitVec 28) (s : State) : State :=
  if s.mayAccess req then s.readPart req off.toNat .low else s.refuse req off.toNat false

/-- FX_WRITE_DELIVERY: the oldest posted write of a requester crosses the couch link, while it is UP, and is delivered
to its block (R16). -/
def fxWriteDelivery (req : Req) (s : State) : State :=
  let s := if s.couch.st != .up || s.couchWaits then s else s.crossWrites req
  s.deliverOne (fun p => p.req == req)

/-- APPLY_GO. -/
def applyGo (req : Req) (b : Block) (inst : Fin 16) (s : State) : State :=
  match (blockRegs b).find? (fun r => applyBlock r == some b) with
  | some r => if inst.val < (blockInfo b).count then s.ownFx req r (ixN inst.val) 1 (fun s => s.applyGoTo req b inst.val) else s
  | none => s

/-- INT_STATUS_CLEAR. -/
def intStatusClear (req : Req) (b : Block) (inst : Fin 16) (v newCauses : W64) (s : State) : State :=
  match intRegs b with
  | some (st, _) =>
    if (blockInfo b).count ≤ inst.val then s
    else if s.mayAccess req && s.fxWaits (regAddr st (ixN inst.val)) then
      (s.intClear b inst.val 0 newCauses).write64 req (regAddr st (ixN inst.val)) v
    else s.own req st (ixN inst.val) (fun s => s.intClear b inst.val v newCauses)
  | none => s

end Sys2Proof.Machine
end

