-- ==== Sys2Proof/Machine/HostView.lean ====
section
/-!
DEFINITION. Machine/HostView.lean: inbound requests of the host's link: the views of the two functions and the peer
windows into deep memory (spec/04_host_pcie.md R109 to R123).
-/
namespace Sys2Proof.Machine

open Fld

/-- The requester that a function is. -/
def fnReq : Fn → Req
  | .pf0 => .pf0
  | .pf1 => .pf1

/-- What a request asks for and where: a read of `len` bytes, or a write of data, at an offset. -/
def tlpReads (t : Tlp) : Bool := t.kind == .read

/-- A read or write of one or two DW, naturally aligned, with every byte enabled (R111). -/
def tlpDword (t : Tlp) : Bool := (t.len == 4 || t.len == 8) && t.off % t.len == 0 && t.disabled.isEmpty

/-! ## 64-bit registers reached by requests of one or two DW -/

/-- The part of a register that a read request covers (R111). -/
def tlpPart (t : Tlp) : RegPart := if t.len = 8 then .whole else if t.off % 8 = 0 then .low else .high

/-- A request to the register map (R110, R111, spec/00_scope.md R12 to R14): a read is completed with its bytes, once
the couch link is UP if it is of an FX register (spec/01_architecture.md R35). A poisoned write is taken as a good one:
the manual gives poison a meaning at peer windows and in completions alone (DESIGN CHOICE, log entry 91). -/
def State.mapRequest (s : State) (t : Tlp) : State :=
  let off := t.off / 8 * 8
  let v := leNat t.data
  if tlpReads t && s.fxWaits off && !(tlpPart t = .high && s.captured .pf0 off) then
    { s with acc := { s.acc with waits := s.acc.waits ++ [.tlp t] } }
  else if t.len = 8 then
    if tlpReads t then
      let (s, v) := s.readOff .pf0 off true
      s.emit (.completion .pf0 (leBytes 8 v.toNat))
    else s.write64 .pf0 off (BitVec.ofNat 64 v)
  else if t.off % 8 = 0 then
    if tlpReads t then
      let (s, v) := s.readLow .pf0 off
      s.emit (.completion .pf0 (leBytes 4 v.toNat))
    else s.writeLow .pf0 off (BitVec.ofNat 32 v)
  else if tlpReads t then
    let (s, v) := s.readHigh .pf0 off
    s.emit (.completion .pf0 (leBytes 4 v.toNat))
  else s.writeHigh .pf0 off (BitVec.ofNat 32 v)

/-! ## MSI-X tables, R124 -/

/-- A table entry's 16 bytes: address, data, and the mask in bit 0 of the vector control word. -/
def MsixEntry.bytes (e : MsixEntry) : List Byte :=
  leBytes 8 e.addr.toNat ++ leBytes 4 e.data.toNat ++ leBytes 4 (ofBool e.mask)

def MsixEntry.ofBytes (b : List Byte) : MsixEntry :=
  ⟨BitVec.ofNat 64 (leNat (bytesAt b 0 8)), BitVec.ofNat 32 (leNat (bytesAt b 8 4)), bitAt (leNat (bytesAt b 12 4)) 0⟩

/-- A request to a function's MSI-X table, at an offset within it; unmasking a vector sends what it owes (R125). -/
def State.tableRequest (s : State) (t : Tlp) (o : Nat) : State :=
  let s := s.release (fnReq t.fn)
  let x := s.fn t.fn
  let e := x.entry (o / 16)
  if tlpReads t then s.emit (.completion t.fn (bytesAt e.bytes (o % 16) t.len))
  else
    let new := MsixEntry.ofBytes (overwrite e.bytes (o % 16) t.data)
    let s := s.setFn t.fn { x with table := tblPut (o / 16) new x.table }
    if e.mask && !new.mask then s.sendPending t.fn else s

/-- A read of a pending-bit array. -/
def State.pbaRead (s : State) (t : Tlp) (o : Nat) : State :=
  let s := s.release (fnReq t.fn)
  let bits := fun i => ofBool ((s.fn t.fn).pend.contains (8 * o + i))
  s.emit (.completion t.fn (leBytes t.len ((List.range (8 * t.len)).foldl (fun a i => a + bits i * 2 ^ i) 0)))

/-! ## PF1's view, R112 -/

/-- The doorbell slot's words (spec/05_rings_mailboxes_locks.md R158). -/
def State.slotWord (s : State) (r w : Nat) : Nat :=
  let x := s.ring r
  match w with
  | 0 => x.hostIdx.toNat
  | 1 =>
    x.modIdx.toNat + (match x.state with | .disabled => 0 | .run => 1 | .stopping => 2 | .halted => 3) * 2 ^ 32
      + x.haltCode * 2 ^ 36 + ofBool x.armed * 2 ^ 40
  | 3 => x.drop
  | _ => 0

/-- A read of a word of a doorbell slot; RNG_DROP is cleared by a read that covers its low half. -/
def State.slotRead (s : State) (r w : Nat) (low : Bool) : State × Nat :=
  let v := s.slotWord r w
  let s := s.release .pf1
  (if w = 3 && low then s.setRing r { s.ring r with drop := 0 } else s, v)

/-- A whole write of a word of a doorbell slot. -/
def State.slotWrite (s : State) (r w : Nat) (v : W64) : State :=
  if w = 0 then s.doorbell r (BitVec.ofNat 32 v.toNat)
  else if w = 2 && bitAt v.toNat 0 then s.armRing r
  else s

/-- A request to a doorbell slot (R158, with R12 to R14). -/
def State.slotRequest (s : State) (t : Tlp) : State :=
  let r := t.off / 64
  let w := t.off % 64 / 8
  let off := t.off / 8 * 8
  let v := BitVec.ofNat 32 (leNat t.data)
  if tlpReads t then
    if t.len = 8 then
      let (s, v) := s.slotRead r w true
      s.emit (.completion .pf1 (leBytes 8 v))
    else if t.off % 8 = 0 then
      let (s, v) := s.slotRead r w true
      let s := { s with acc := { s.acc with highs := s.acc.highs ++ [(⟨.pf1, off, BitVec.ofNat 32 (v / 2 ^ 32)⟩ : Half)] } }
      s.emit (.completion .pf1 (leBytes 4 v))
    else
      match s.acc.highs.find? (fun (h : Half) => h.req == .pf1 && h.off == off) with
      | some h => (s.release .pf1).emit (.completion .pf1 (leBytes 4 h.v.toNat))
      | none =>
        let (s, v) := s.slotRead r w false
        s.emit (.completion .pf1 (leBytes 4 (v / 2 ^ 32)))
  else if t.len = 8 then ((s.release .pf1).dropLow .pf1 off).slotWrite r w (BitVec.ofNat 64 (leNat t.data))
  else if t.off % 8 = 0 then s.writeLow .pf1 off v
  else
    let low := s.acc.lows.find? (fun (h : Half) => h.req == .pf1 && h.off == off)
    let held := if w = 0 then s.slotWord r 0 else 0
    let s := (s.release .pf1).dropLow .pf1 off
    s.slotWrite r w (BitVec.ofNat 64 (match low with | some h => h.v.toNat | none => held))

/-- The two words of a counter as its window shows them: all ones where it is invalid, unreachable or in deep memory
that is unavailable (R113, spec/13_memory.md R402). -/
def State.counterPair (s : State) (dram : Bool) (n : Nat) : Nat × Nat :=
  if dram then
    if !s.dramUp || s.ddc.invalid.contains n then (allOnes.toNat, allOnes.toNat) else tblGet (0, 0) s.ddc.pairs n
  else if s.reachable domFL then tblGet (0, 0) s.tab.counters n
  else (allOnes.toNat, allOnes.toNat)

/-- Whether a counter exists (R113). -/
def State.counterExists (s : State) (dram : Bool) (n : Nat) : Bool := if dram then n < s.pairTotal else n < 2097152

/-- A read of counter window k at an offset within it (R112, R113). -/
def State.counterRequest (s : State) (t : Tlp) (k o : Nat) : State :=
  if !tlpReads t then s.unsupported t 0x1
  else if !(8 ≤ t.len && t.len ≤ 4096 && t.len % 8 = 0 && o % 8 = 0 && t.disabled.isEmpty) then s.unsupported t 0x4
  else
    let dram := s.flag PCE_CNT_WIN_SPACE (ixI k)
    let first := s.fld PCE_CNT_WIN_BASE (ixI k) * 16384
    if !(s.counterExists dram (first + o / 16) && s.counterExists dram (first + (o + t.len - 1) / 16)) then
      s.unsupported t 0x1
    else
      let s := s.release .pf1
      if !dram && s.reachable domFL && s.couchWaits then
        { s with acc := { s.acc with waits := s.acc.waits ++ [.tlp t] } }
      else
      let s := if !dram && !s.reachable domFL then s.unreachable .pf1 t.off domFL false else s
      let word := fun j =>
        let p := s.counterPair dram (first + (o + 8 * j) / 16)
        if (o + 8 * j) % 16 = 0 then p.1 else p.2
      s.emit (.completion .pf1 ((List.range (t.len / 8)).flatMap fun j => leBytes 8 (word j)))

/-- A high-water mark at an offset of PF1 BAR0, and the state that a read of it leaves (R114, spec/14_scheduling.md
R440). -/
def State.takeMark (s : State) (off : Nat) : State × Nat :=
  let w := off / 8 % 2
  if off < 0xC00000 then
    let q := 131072 * s.fld PCE_HWM_BASE_BLOCK ix0 + (off - 0xA00000) / 16
    let x := s.queue q
    if w = 0 then (s.setQueue q { x with hwmBytes := 0 }, x.hwmBytes) else (s.setQueue q { x with hwmNs := 0 }, x.hwmNs)
  else
    let p := (off - 0xC00000) / 16
    let m := tblGet (0, 0) s.qsc.portHwm p
    let put := fun x => { s with qsc := { s.qsc with portHwm := tblPut p x s.qsc.portHwm } }
    if w = 0 then (put (0, m.2), m.1) else (put (m.1, 0), m.2)

/-- A 64-bit read of a high-water mark (R114); all ones while QC cannot be reached. -/
def State.markRead (s : State) (off : Nat) : State :=
  let s := s.release .pf1
  if s.reachable domQC then
    let (s, v) := s.takeMark off
    s.emit (.completion .pf1 (leBytes 8 (min v allOnes.toNat)))
  else (s.unreachable .pf1 off domQC false).emit (.completion .pf1 (leBytes 8 allOnes.toNat))

/-- Whether an offset of PF1 BAR0 lies in a high-water window (R112). -/
def markOff (off : Nat) : Bool := (0xA00000 ≤ off && off < 0xC00000) || (0xC00000 ≤ off && off < 0xC00000 + 4608)

/-- A 64-bit read of the time view (R115, spec/17_time.md R516, R531). -/
def State.timeRead (s : State) (off : Nat) : State :=
  let capt := (s.acc.nsCapt.find? (fun e => e.1 == .pf1)).map (·.2)
  let s := s.release .pf1
  if !s.reachable domTM then
    (s.unreachable .pf1 off domTM false).emit (.completion .pf1 (leBytes 8 allOnes.toNat))
  else
    match off - 0xC10000 with
    | 0x00 => (s.captureNs .pf1).emit (.completion .pf1 (leBytes 8 s.tim.sec))
    | 0x08 => s.emit (.completion .pf1 (leBytes 8 (capt.getD s.tim.nowNs).toNat))
    | 0x10 => s.emit (.completion .pf1 (leBytes 8 s.tim.status))
    | _ => s.emit (.completion .pf1 (leBytes 8 0))

/-- A request to a region of 64-bit reads (R112, R115). -/
def State.wordRegion (s : State) (t : Tlp) (read : State → State) : State :=
  if !tlpReads t then s.unsupported t 0x1
  else if t.len = 8 && tlpDword t then read s else s.unsupported t 0x4

/-! ## The two BAR0 views -/

/-- A request to PF0 BAR0 (R110, R111, R124). A write of the pending-bit array is ignored. -/
def State.pf0Request (s : State) (t : Tlp) : State :=
  if 0x0E000000 ≤ t.off then s.unsupported t 0x1
  else if !tlpDword t then s.unsupported t 0x4
  else if 0x180000 ≤ t.off && t.off < 0x180400 then s.tableRequest t (t.off - 0x180000)
  else if 0x181000 ≤ t.off && t.off < 0x181008 then
    if tlpReads t then s.pbaRead t (t.off - 0x181000) else s.release .pf0
  else s.mapRequest t

/-- A request to PF1 BAR0 (R112). -/
def State.pf1Request (s : State) (t : Tlp) : State :=
  if t.off < 0x100000 then if tlpDword t then s.slotRequest t else s.unsupported t 0x4
  else if t.off < 0x108000 then if tlpDword t then s.tableRequest t (t.off - 0x100000) else s.unsupported t 0x4
  else if t.off < 0x108100 then
    if !tlpReads t then s.unsupported t 0x1
    else if tlpDword t then s.pbaRead t (t.off - 0x108000) else s.unsupported t 0x4
  else if 0x200000 ≤ t.off && t.off < 0xA00000 then
    s.counterRequest t ((t.off - 0x200000) / 0x40000) (t.off % 0x40000)
  else if markOff t.off then s.wordRegion t (fun s => s.markRead t.off)
  else if 0xC10000 ≤ t.off && t.off < 0xC11000 then s.wordRegion t (fun s => s.timeRead t.off)
  else s.unsupported t 0x1

/-! ## Peer windows, R116, R119 to R123 -/

/-- Deep memory serves no window (R117, reason 0x9). -/
def State.windowsDown (s : State) : Bool :=
  !s.dramUp || !s.domUp domQC || !s.domUp domQB || s.gen.phase == .park || s.gen.phase == .isolate

/-- A byte of the window partition, written; a zero is not listed (R402). -/
def winPut (a : Nat) (b : Byte) (m : List (Nat × Byte)) : List (Nat × Byte) := if b = 0 then tblDel a m else tblPut a b m

/-- The bytes of a write at a partition offset, but for those that are not enabled. -/
def winWrite (a : Nat) (off : List Nat) : Nat → List Byte → List (Nat × Byte) → List (Nat × Byte)
  | _, [], m => m
  | i, b :: bs, m => winWrite a off (i + 1) bs (if off.contains i then m else winPut (a + i) b m)

/-- The stripes of the window partition that a request touches. -/
def stripesOf (a len : Nat) : List Nat := (List.range ((a + len - 1) / 512 - a / 512 + 1)).map (a / 512 + ·)

/-- A read through a window at a partition offset; one that meets an uncorrectable stripe completes with EP set
(R123, spec/13_memory.md R401). -/
def State.windowRead (s : State) (t : Tlp) (a : Nat) : State :=
  match (stripesOf a t.len).flatMap (fun k => s.badIn 2 k 1) with
  | [] => s.emit (.completion .pf0 ((List.range t.len).map fun i => tblGet 0 s.ddc.win (a + i)))
  | ws => ((ws.foldl (fun s w => s.ueMet 2 w) s).count PCE_POISON_TX_COUNT ix0 1).emit (.poisonedCompletion .pf0)

/-- A write through a window at a partition offset; a stripe that it covers whole is good again (R123). -/
def State.windowWrite (s : State) (t : Tlp) (a : Nat) : State :=
  let whole := (stripesOf a t.len).filter fun k => t.disabled.isEmpty && a ≤ 512 * k && 512 * k + 512 ≤ a + t.len
  let s := { s with ddc := { s.ddc with win := winWrite a t.disabled 0 (t.data.take t.len) s.ddc.win } }
  whole.foldl (fun s k => s.healed 2 k 1) s

/-- A request to PF0 BAR2, translated under the window value in force (R117, R119, R120, R133). Like every access of
PF0 it releases a capture (spec/00_scope.md R14). -/
def State.windowRequest (s : State) (t : Tlp) : State :=
  let s := s.release .pf0
  let n := t.off / 2 ^ 32
  let x := t.off % 2 ^ 32
  let w := s.rd .pceWin (ixI n)
  let a := PCE_WIN_BASE.get w * 2 ^ 20 + x
  if 16 ≤ n then s.unsupported t 0x1
  else if PCE_WIN_OPEN.get w = 0 then s.unsupported t 0x2
  else if PCE_WIN_SIZE.get w * 2 ^ 20 ≤ x then s.unsupported t 0x3
  else if !tlpReads t && PCE_WIN_WRITE_EN.get w = 0 then s.unsupported t 0x5
  else if s.windowsDown || s.partGib 2 * 2 ^ 30 < a + t.len then s.unsupported t 0x9
  else if tlpReads t then s.windowRead t a
  else if t.poisoned then (s.count PCE_POISON_RX_COUNT ix0 1).aer .pf0 .poisoned
  else s.windowWrite t a

/-- What every request meets before its region: an internal parity error discards it (R133), a function in D3hot or FLR
and an unsupported type refuse it (R117). -/
def State.tlp (s : State) (t : Tlp) (serve : State → State) : State :=
  if !s.domUp domHP || s.gen.perst then s
  else if t.parityErr then (s.raise PCE_INT_STATUS_UIE).aer t.fn .internal
  else if (s.fn t.fn).d3 then s.unsupported t 0x7
  else if (s.fn t.fn).flr then s.unsupported t 0x8
  else if t.kind == .other || t.badPrefix then s.unsupported t 0x6
  else serve s

/-- PCIE_MEM_REQUEST: a memory request in its function's view (R109 to R117). -/
def pcieMemRequest (t : Tlp) (s : State) : State :=
  s.tlp t fun s =>
    match t.fn, t.bar2 with
    | .pf0, false => s.pf0Request t
    | .pf0, true => s.windowRequest t
    | .pf1, false => s.pf1Request t
    | .pf1, true => s.unsupported t 0x1

/-- PEER_WINDOW_ACCESS: a request to PF0 BAR2 (R116 to R123). -/
def peerWindowAccess (t : Tlp) (s : State) : State :=
  if t.fn == .pf0 && t.bar2 then s.tlp t (fun s => s.windowRequest t) else s

/-- PCE_WIN_WRITE: a write to PCE_WIN[n] (R120 to R122). -/
def pceWinWrite (req : Req) (n : Fin 16) (v : W64) (s : State) : State :=
  s.own req .pceWin (ixI n.val) (fun s => s.writeWin (s.partGib 2 * 1024) n.val v)

/-- A write of word w of ring r's doorbell slot through PF1 (spec/05_rings_mailboxes_locks.md R158): it releases a
capture and drops a pending low half of the word (spec/00_scope.md R13, R14). -/
def State.slotAccess (s : State) (r w : Nat) (f : State → State) : State :=
  let off := 64 * r + 8 * w
  if s.fnAnswers .pf1 then f ((s.release .pf1).dropLow .pf1 off) else s.turnedAway .pf1 off true

/-! ## Accesses that waited for the couch link, spec/01_architecture.md R35, R36 -/

/-- A read that waited is made. -/
def State.serveWait (s : State) (w : WaitAcc) : State :=
  match w with
  | .read req off part => s.answerRead req off part
  | .tlp t => pcieMemRequest t s

/-- After the couch link's state may have changed: with it UP the reads that waited are made, in their order; with it
DOWN the register writes on it are discarded and recorded, and those reads return all ones (R42). -/
def State.couchSettled (s : State) : State :=
  if s.couchWaits then s
  else
    let lost := if s.couch.st == .down then s.couch.qxToFx.filterMap CouchUnit.posted ++ s.acc.held else []
    let s := if s.couch.st == .down then
        { s with couch := { s.couch with qxToFx := [] }, acc := { s.acc with held := [] } } else s
    let ws := s.acc.waits
    ws.foldl State.serveWait ((({ s with acc := { s.acc with waits := [] } }).deliver16 lost))

/-- What reads of a lock do before they are served: they release captures (spec/00_scope.md R14), and PF0 does not reach
the lock in D3hot or FLR (spec/04_host_pcie.md R117). -/
def State.lockReaders (s : State) (n : Fin 64) (readers : List Req) : State :=
  let s := if readers.contains .pf0 && !s.mayAccess .pf0 then s.refuse .pf0 (regAddr .semLock (ixI n.val)) false else s
  readers.foldl (fun s r => s.release r) s

/-- HWM_WINDOW_READ: a 64-bit read of a high-water word through PF1 (R114). -/
def hwmWindowRead (fn : Fn) (off : BitVec 24) (s : State) : State :=
  if !(fn == .pf1 && markOff off.toNat && off.toNat % 8 = 0) then s
  else if s.fnAnswers .pf1 then s.markRead off.toNat
  else s.turnedAway .pf1 off.toNat false

/-- TIME_CAPTURE_READ: a read of TIM_NOW_SEC, or of the first word of PF1's time view (spec/17_time.md R516). -/
def timeCaptureRead (req : Req) (s : State) : State :=
  match req with
  | .pf1 => if s.fnAnswers .pf1 then s.timeRead 0xC10000 else s.turnedAway .pf1 0xC10000 false
  | req => rcRegisterRead req (BitVec.ofNat 28 (regAddr .timNowSec ix0)) .full s

end Sys2Proof.Machine
end

