-- ==== Sys2Proof/Machine/Replicate.lean ====
section
/-!
DEFINITION. Machine/Replicate.lean: the multicast replicator (spec/09_lookup.md R273 to R275, spec/12_buffering.md
R361, R370).
-/
namespace Sys2Proof.Machine

open Fld

/-- A copy that a replication entry makes: destination module, port group, port, rewrite entry; or its bad entry. -/
inductive Copy where
  | to (m pg port rewrite : Nat)
  | bad
  deriving DecidableEq, Repr

/-- The copies of a group in order from FIRST (R273 to R275): entries that are not valid, and for a flood the one back
to the source port, are skipped. -/
def State.copiesOf (s : State) (flood : Bool) (src tag : Nat) : List Nat → State × List Copy
  | [] => (s, [])
  | i :: t =>
    let (s, x, bad) := s.readPkt tRepl i tag
    let (s, cs) := s.copiesOf flood src tag t
    let m := bitsOf x 0 11
    if bad then (s, .bad :: cs)
    else if !bitAt x 46 then (s, cs)
    else if flood && (m == s.ownId || m == s.addrOf s.ownId / 2) && bitsOf x 16 9 == src then (s, cs)
    else (s, .to m (bitsOf x 11 5) (bitsOf x 16 9) (bitsOf x 25 21) :: cs)

/-- The chain that copies are made of now: its cells, the references made to it, and whose it is; the packet's own
first, then chains of requester 17 (R361). -/
structure CellChain where
  cells : List Nat
  refs : Nat
  owner : Nat
  deriving DecidableEq, Repr

/-- A further chain for the copies beyond 254 (R361). `none` while requester 17 retries, `some none` once it has given
up. -/
def State.nextChain (s : State) (x : XPkt) : State × Option (Option (List Nat)) :=
  let n := cellsOf x.bytes.length
  match s.coverRetry 17 n with
  | (s, .waits) => (s, none)
  | (s, .gaveUp) => (s, some none)
  | (s, .covered) =>
    let (s, hs) := s.useCells 17 n (s.lossOf x.src x.cls)
    (s.count BPM_TREE_COPIES_COUNT ix0 1, some (some hs))

/-- The replicator lets go of a chain. -/
def State.endChain (s : State) (c : CellChain) : State := s.dropCells (ownCells c.owner c.cells)

/-- The copies of a packet, one after another; none while requester 17 retries for a chain. -/
def State.makeCopies (s : State) (x : XPkt) (c : CellChain) : List Copy → State × Option CellChain
  | [] => (s, some c)
  | .bad :: t => (s.admitDrop 0 causeTableError x.bytes.length x.src).makeCopies x c t
  | .to m pg port rw :: t =>
    let (s, next) : State × Option (Option CellChain) :=
      if c.refs < 254 then (s, some (some c))
      else
        match s.nextChain x with
        | (s, none) => (s, none)
        | (s, some none) => (s, some none)
        | (s, some (some hs)) => (s.endChain c, some (some ⟨hs, 0, 17⟩))
    match next with
    | none => (s, none)
    | some none => (s.admitDrop 0 causePoolEmpty x.bytes.length x.src).makeCopies x c t
    | some (some c) =>
      let s := s.refCells 17 1 c.cells
      let s := s.toVoq m 17 (some c.cells)
        { bytes := x.bytes, cells := [], port := x.src, pg := pg, cls := x.cls, dport := port, rewrite := rw, ts := x.ts,
          enq := s.now, loss := s.lossOf x.src x.cls }
      s.makeCopies x { c with refs := c.refs + 1 } t

/-- REPLICATOR_EXPAND: the oldest packet that waits for the replicator becomes its copies (R275, R361, R370), its reads
held for `stall` cycles by full bank queues (R251). While requester 17 retries for a further chain the packet waits. -/
def replicatorExpand (upset : List TableWord) (stall : BitVec 32) (s : State) : State :=
  match s.replQ with
  | [] => s
  | r :: rest =>
    if !s.reachable domFL || s.couch.st != .up then s
    else
      let s := (s.stalls stall.toNat).upsets upset
      let x := r.pkt
      let tag := x.ream % 16
      let own : CellChain := ⟨r.cells, 0, r.holder⟩
      let gone := fun (s : State) => { s with replQ := rest }
      let (g, flood) : Nat × Bool := match x.dest with
        | .group g f => (g, f)
        | _ => (0, false)
      let (t, e, bad) := s.readPkt tMcast g tag
      let first := bitsOf e 0 18
      let n := bitsOf e 18 18 + 1
      if bad then (gone (t.endChain own)).admitDrop 0 causeTableError x.bytes.length x.src
      else if !bitAt e 36 || 262144 < first + n then (gone (t.endChain own)).admitDrop 0 causeNoRoute x.bytes.length x.src
      else
        let (t, cs) := t.copiesOf flood x.src tag ((List.range n).map (first + ·))
        match t.makeCopies x own cs with
        | (t, some c) => gone (t.endChain c)
        | (_, none) => s.count BPM_REQ_NONE_COUNT (ixI 17) 1

end Sys2Proof.Machine
end

