-- ==== Sys2Proof/Machine/Tick.lean ====
section
/-!
DEFINITION. Machine/Tick.lean: the passage of time: what a step on an empty queue does in place of idling (log entry
10). One tick is 0.2 ns, a fifth of the time counter's nanosecond (spec/17_time.md R514) and a sixteenth of the
scheduler's slot (spec/14_scheduling.md R430).
-/
namespace Sys2Proof.Machine

open Fld

/-- Engines of domains FC, FL, QC and QB work unless PARK has stopped their clocks (spec/03_startup_reset.md R94). -/
def State.clocked (s : State) (f : State → State) : State := if s.gen.phase == .park then s else f s

/-- Pipelines and schedulers work unless the module is isolated, or parked (spec/03_startup_reset.md R94, R96). -/
def State.inService (s : State) (f : State → State) : State :=
  if s.gen.phase == .isolate then s else s.clocked f

/-- Ticks between two slot cells of a member: 691.2 ns (spec/15_fabric.md R477). -/
def slotCellTicks : Nat := 3456

/-- Received blocks of a calendar slot, 54 of 66 bits as 446 bytes whose last four bits are 0 (R477): no command brings
them, so they are free values (log entry 3). -/
def State.freeBlocks (s : State) : State × List Byte :=
  let ws := (List.range 56).map fun i => Config.freeValue (s.freeCtr + i)
  let bs := bytesAt (ws.flatMap fun w => beBytes 8 w.toNat) 0 446
  ({ s with freeCtr := s.freeCtr + 56 }, bs.take 445 ++ (bs.drop 445).map fun b => b &&& 0xF0)

/-- A slot cell of member `m` of circuit `c`, taken from global slot `g`: it waits for a link, or is not sent where its
destination has none (R477, R478). -/
def State.sendSlotCell (s : State) (g c m : Nat) : State :=
  let d := s.fld FLX_CKT_DEST_MOD (ixI c)
  let a := s.addrOf d
  let k := c * 256 + m
  let n := tblGet 0 s.fab.mseqs k
  let lf := match s.groupOfSlot g with | some i => s.sf (entGroup i) | none => false
  let (s, blocks) := s.freeBlocks
  let s := { s with fab := { s.fab with mseqs := tblPut k ((n + 1) % 65536) s.fab.mseqs } }
  if s.isLocal a then s.putRx (.slot s.ownId c m n lf blocks)
  else
    match s.spray a false with
    | [] => s.count FABCMN_SLOT_NOPATH_COUNT ix0 1
    | ls => s.putCell ls fun x => { x with txSlot := x.txSlot ++ [s.slotCellBytes a c m n lf blocks] }

/-- The module holds the protection group, if any, of a slot's FlexE group: under the shadow role no slot cells of its
circuits are sent (spec/18_protection.md R533). -/
def State.slotHeld (s : State) (g : Nat) : Bool :=
  match (s.groupOfSlot g).bind s.protOfFlexe with
  | some p => s.active p
  | none => true

/-- Every slot in force that is sent as a member of a running circuit sends a cell (spec/06_line_flexe.md R194,
R197). -/
def State.slotCells (s : State) : State :=
  if !s.domUp domFC || !s.domUp domQC || s.couch.st == .down || s.gen.phase != .run then s
  else
    ((pageCells actBase s.regs).filter fun c => (c.1 - actBase) % 16 = 8).foldl (fun s c =>
      let g := (c.1 - actBase) / 16
      let k := FLX_XC_ACT1_RX_CKT.get c.2
      let m := FLX_XC_ACT1_RX_MEMBER.get c.2
      if FLX_XC_ACT1_RX_FAB.get c.2 = 1 && s.circuitSlot g && s.slotHeld g && s.flag FLX_CKT_EN (ixI k)
          && m ≤ s.fld FLX_CKT_LAST_MEMBER (ixI k) then s.sendSlotCell g k m
      else s) s

/-- Groups that drain and have nothing left are drained (spec/18_protection.md R547). -/
def State.drainAll (s : State) : State :=
  (s.prt.groups.filter fun e => e.2.draining).foldl (fun s e => s.drainSettle e.1) s

/-- The mate's fabric path is judged lost when its limit has passed (spec/18_protection.md R540, R541). -/
def State.fabPathTick (s : State) : State :=
  match s.prt.lastFab with
  | some t => if s.prt.fab && t + s.fabLimit ≤ s.now then s.protJudge else s
  | none => s

/-- SAMPLED is set after HP has left reset (spec/02_module.md). -/
def State.sampleTick (s : State) : State :=
  if s.domUp domHP then { s with gen := { s.gen with sampled := true } } else s

/-- One tick. -/
def State.tick (s : State) : State :=
  let s := ({ s with now := s.now + 1 }).sampleTick
  let s := if s.now % 5 = 0 && s.domUp domTM then s.nanosecond else s
  let s := if s.now % slotCellTicks = 0 then s.slotCells else s
  s.fabPathTick.drainAll

end Sys2Proof.Machine
end

