-- ==== Sys2Proof/Machine/CmdFabric.lean ====
section
/-!
DEFINITION. Machine/CmdFabric.lean: the meanings of commands:
the fabric, egress and time (spec/15_fabric.md to spec/17_time.md),
each one over the operation of the same name. All of them answer a next state.
-/
namespace Sys2Proof.Machine

/-- FAB_MACRO_RUN, R455: a register write. -/
def execFabMacroRun (req : Req) (n : Fin 5) (v : W64) (s : State) : Host.Outcome State Fault Refusal :=
  .next (s.own req .fabMacroCtrl (ixN n.val) (Machine.fabMacroRun req n v))

/-- MARKER_RECEIVE, R461. -/
def execMarkerReceive (lane : Lane) (pos : Fin 174080) (marker : List Byte)
    (s : State) : Host.Outcome State Fault Refusal :=
  .next (Machine.markerReceive lane pos marker s)

/-- SEARCH_WINDOW_END, R460. -/
def execSearchWindowEnd (lane : Lane) (s : State) : Host.Outcome State Fault Refusal :=
  .next (Machine.searchWindowEnd lane s)

/-- CELL_RECEIVE, R466. -/
def execCellReceive (l : Fin 320) (cell : List Byte) (s : State) : Host.Outcome State Fault Refusal :=
  .next (Machine.cellReceive l cell s)

/-- ADVERT, R467. -/
def execAdvert (s : State) : Host.Outcome State Fault Refusal :=
  .next (Machine.advert s)

/-- REACH, R467. -/
def execReach (s : State) : Host.Outcome State Fault Refusal :=
  .next (Machine.reach s)

/-- REACH_TIMEOUT, R467. -/
def execReachTimeout (l : Fin 320) (block : Fin 8) (s : State) : Host.Outcome State Fault Refusal :=
  .next (Machine.reachTimeout l block s)

/-- SPRAY_REJOIN, R468. -/
def execSprayRejoin (l : Fin 320) (s : State) : Host.Outcome State Fault Refusal :=
  .next (Machine.sprayRejoin l s)

/-- CELL_TRANSMIT, R469, in a module that is neither isolated nor parked (R94, R96). -/
def execCellTransmit (l : Fin 320) (s : State) : Host.Outcome State Fault Refusal :=
  .next (s.inService (fun s => Machine.cellTransmit l s))

/-- UNREACH_HOLD_EXPIRY, R470. -/
def execUnreachHoldExpiry (d : Fin 2048) (pair : Bool) (s : State) : Host.Outcome State Fault Refusal :=
  .next (Machine.unreachHoldExpiry d pair s)

/-- DATA_CELL, R473, in a module that is neither isolated nor parked (R94, R96). -/
def execDataCell (s : State) : Host.Outcome State Fault Refusal :=
  .next (s.inService (fun s => Machine.dataCell s))

/-- REORDER_TIMEOUT, R473, while PARK has not stopped its clock (R94). -/
def execReorderTimeout (src : Fin 2048) (s : State) : Host.Outcome State Fault Refusal :=
  .next (s.clocked (fun s => Machine.reorderTimeout src s))

/-- REORDER_IDLE, R473, while PARK has not stopped its clock (R94). -/
def execReorderIdle (src : Fin 2048) (s : State) : Host.Outcome State Fault Refusal :=
  .next (s.clocked (fun s => Machine.reorderIdle src s))

/-- SEQ_RESTART, R472, while PARK has not stopped its clock (R94). -/
def execSeqRestart (d : Fin 2048) (pair : Bool) (s : State) : Host.Outcome State Fault Refusal :=
  .next (s.clocked (fun s => Machine.seqRestart d pair s))

/-- HEARTBEAT_SEND, R475. -/
def execHeartbeatSend (s : State) : Host.Outcome State Fault Refusal :=
  .next (Machine.heartbeatSend s)

/-- HEARTBEAT, R475. -/
def execHeartbeat (s : State) : Host.Outcome State Fault Refusal :=
  .next (Machine.heartbeat s)

/-- HEARTBEAT_LOST, R475. -/
def execHeartbeatLost (src : Fin 2048) (s : State) : Host.Outcome State Fault Refusal :=
  .next (Machine.heartbeatLost src s)

/-- SLOT_CELL, R478, in a module that is neither isolated nor parked (R94, R96). -/
def execSlotCell (s : State) : Host.Outcome State Fault Refusal :=
  .next (s.inService (fun s => Machine.slotCell s))

/-- PLAYOUT_TURN, R478, in a module that is neither isolated nor parked (R94, R96). -/
def execPlayoutTurn (src : Fin 2048) (ckt : Fin 4096) (member : Fin 256)
    (s : State) : Host.Outcome State Fault Refusal :=
  .next (s.inService (fun s => Machine.playoutTurn src ckt member s))

/-- EGRESS_PROCESS, R501, in a module that is neither isolated nor parked (R94, R96). -/
def execEgressProcess (pipe : Fin 64) (upset : List TableWord) (paths : List (List (BitVec 24))) (older : Bool) (stall : BitVec 32)
    (s : State) : Host.Outcome State Fault Refusal :=
  .next (s.inService (fun s => (Machine.egressProcess pipe upset paths older stall s).drainAll))

/-- PPS_EDGE, R521. -/
def execPpsEdge (sub : Fin 64) (s : State) : Host.Outcome State Fault Refusal :=
  .next (Machine.ppsEdge sub s)

/-- TOD_MESSAGE, R520. -/
def execTodMessage (msg : List Byte) (inWindow : Bool) (s : State) : Host.Outcome State Fault Refusal :=
  .next (Machine.todMessage msg inWindow s)

/-- PPS_LOSS, R521. -/
def execPpsLoss (s : State) : Host.Outcome State Fault Refusal :=
  .next (Machine.ppsLoss s)

/-- PPS_OUT, R522. -/
def execPpsOut (s : State) : Host.Outcome State Fault Refusal :=
  .next (Machine.ppsOut s)

/-- TOD_SEND, R522. -/
def execTodSend (s : State) : Host.Outcome State Fault Refusal :=
  .next (Machine.todSend s)

/-- SERVO_MEASUREMENT, R518. -/
def execServoMeasurement (s : State) : Host.Outcome State Fault Refusal :=
  .next (Machine.servoMeasurement s)

/-- TIME_DREQ_SEND, R523. -/
def execTimeDreqSend (s : State) : Host.Outcome State Fault Refusal :=
  .next (Machine.timeDreqSend s)

/-- TIME_DREQ, R523. -/
def execTimeDreq (s : State) : Host.Outcome State Fault Refusal :=
  .next (Machine.timeDreq s)

/-- TIME_DRESP, R523. -/
def execTimeDresp (s : State) : Host.Outcome State Fault Refusal :=
  .next (Machine.timeDresp s)

/-- TIME_SYNC, R523. -/
def execTimeSync (s : State) : Host.Outcome State Fault Refusal :=
  .next (Machine.timeSync s)

/-- TIME_EXCHANGE_TIMEOUT, R524. -/
def execTimeExchangeTimeout (s : State) : Host.Outcome State Fault Refusal :=
  .next (Machine.timeExchangeTimeout s)

/-- TIM_ADJ_SLEW, R529: a register write. -/
def execTimAdjSlew (req : Req) (v : W64) (s : State) : Host.Outcome State Fault Refusal :=
  .next (s.own req .timAdj ix0 (Machine.timAdjSlew v))

/-- TIM_ADJ_STEP, R529: a register write. -/
def execTimAdjStep (req : Req) (v : W64) (s : State) : Host.Outcome State Fault Refusal :=
  .next (s.own req .timAdj ix0 (Machine.timAdjStep v))

/-- TIM_ADJ_LOAD, R529: a register write. -/
def execTimAdjLoad (req : Req) (v : W64) (s : State) : Host.Outcome State Fault Refusal :=
  .next (s.own req .timAdj ix0 (Machine.timAdjLoad v))

/-- TIME_CAPTURE_READ, R516. -/
def execTimeCaptureRead (req : Req) (s : State) : Host.Outcome State Fault Refusal :=
  .next (Machine.timeCaptureRead req s)

/-- REF10M_CHANGE, R614. -/
def execRef10mChange (s : State) : Host.Outcome State Fault Refusal :=
  .next (Machine.ref10mChange s)

end Sys2Proof.Machine
end

