-- ==== Sys2Proof/Machine/CmdHost.lean ====
section
/-!
DEFINITION. Machine/CmdHost.lean: the meanings of commands:
rings, mailboxes and locks (spec/05_rings_mailboxes_locks.md),
each one over the operation of the same name. All of them answer a next state.
-/
namespace Sys2Proof.Machine

/-- RING_DOORBELL, R142. -/
def execRingDoorbell (r : Fin 16384) (hostIdx : W32) (s : State) : Host.Outcome State Fault Refusal :=
  .next (s.slotAccess r.val 0 (Machine.ringDoorbell r hostIdx))

/-- RING_ENABLE, R146: a register write. -/
def execRingEnable (req : Req) (r : Fin 16384) (cfg : W64) (s : State) : Host.Outcome State Fault Refusal :=
  .next (s.own req .rngCfg (ixI r.val) (Machine.ringEnable r cfg))

/-- RING_DISABLE, R146: a register write. -/
def execRingDisable (req : Req) (r : Fin 16384) (cfg : W64) (s : State) : Host.Outcome State Fault Refusal :=
  .next (s.own req .rngCfg (ixI r.val) (Machine.ringDisable r cfg))

/-- RING_DRAINED, R146. -/
def execRingDrained (r : Fin 16384) (s : State) : Host.Outcome State Fault Refusal :=
  .next (Machine.ringDrained r s)

/-- RING_ARM, R155. -/
def execRingArm (r : Fin 16384) (s : State) : Host.Outcome State Fault Refusal :=
  .next (s.slotAccess r.val 2 (Machine.ringArm r))

/-- RING_COAL_TIMER, R155. -/
def execRingCoalTimer (r : Fin 16384) (s : State) : Host.Outcome State Fault Refusal :=
  .next (Machine.ringCoalTimer r s)

/-- DMA_SLOT_AVAILABLE, R153. -/
def execDmaSlotAvailable (e : Fin 4) (s : State) : Host.Outcome State Fault Refusal :=
  .next (Machine.dmaSlotAvailable e s)

/-- TX_DESCRIPTOR, R147. -/
def execTxDescriptor (r : Fin 16384) (chain : List TxDesc) (data : List Byte)
    (s : State) : Host.Outcome State Fault Refusal :=
  .next (Machine.txDescriptor r chain data s)

/-- RX_PACKET_DELIVER, R149. -/
def execRxPacketDeliver (r : Fin 16384) (bufs : List (W64 × BitVec 16)) (ue : Bool)
    (s : State) : Host.Outcome State Fault Refusal :=
  .next (Machine.rxPacketDeliver r bufs ue s)

/-- MBX_H2M_POST, R159: a register write. -/
def execMbxH2mPost (i : Fin 8) (v : W64) (s : State) : Host.Outcome State Fault Refusal :=
  .next (s.own .pf0 .mbxH2mPost (ixI i.val) (Machine.mbxH2mPost i v))

/-- MILL_TAKE_NOTICE, R162. -/
def execMillTakeNotice (i : Fin 8) (readOk : Bool) (block : List Byte)
    (s : State) : Host.Outcome State Fault Refusal :=
  .next (Machine.millTakeNotice i readOk block s)

/-- MILL_ANSWER, R162. -/
def execMillAnswer (src : MillSrc) (s : State) : Host.Outcome State Fault Refusal :=
  .next (Machine.millAnswer src s)

/-- MBX_M2H_TAKE, R162: a register write. -/
def execMbxM2hTake (i : Fin 8) (v : W64) (s : State) : Host.Outcome State Fault Refusal :=
  .next (s.own .pf0 .mbxM2hTake (ixI i.val) (Machine.mbxM2hTake i v))

/-- MBX_TIMEOUT, R164. -/
def execMbxTimeout (i : Fin 8) (h2m : Bool) (s : State) : Host.Outcome State Fault Refusal :=
  .next (Machine.mbxTimeout i h2m s)

/-- MBX_MODE_WRITE, R162: a register write. -/
def execMbxModeWrite (req : Req) (i : Fin 8) (v : W64) (s : State) : Host.Outcome State Fault Refusal :=
  .next (s.own req .mbxMode (ixI i.val) (Machine.mbxModeWrite i v))

/-- SEM_LOCK_READ, R169. -/
def execSemLockRead (n : Fin 64) (readers : List Req) (part : RdPart)
    (s : State) : Host.Outcome State Fault Refusal :=
  .next (Machine.semLockRead n readers part (s.lockReaders n readers))

/-- REL, R172. -/
def execRel (m : Req) (n : Fin 64) (s : State) : Host.Outcome State Fault Refusal :=
  .next (if m == .mate then Machine.rel m n s else s.own m .semRelease (ixI n.val) (Machine.rel m n))

/-- FORCE, R172. -/
def execForce (m : Req) (n : Fin 64) (s : State) : Host.Outcome State Fault Refusal :=
  .next (if m == .mate then Machine.force m n s else s.own m .semRelease (ixI n.val) (Machine.force m n))

end Sys2Proof.Machine
end

