-- ==== Sys2Proof/Machine/CmdLine.lean ====
section
/-!
DEFINITION. Machine/CmdLine.lean: the meanings of commands:
line ports, FlexE and line monitoring (spec/06_line_flexe.md, spec/07_line_monitoring.md),
each one over the operation of the same name. All of them answer a next state.
-/
namespace Sys2Proof.Machine

/-- SLICE_RUN, R177: a register write. -/
def execSliceRun (req : Req) (slice : Fin 16) (v : W64) (s : State) : Host.Outcome State Fault Refusal :=
  .next (s.ownFx req .linSliceCtrl (ixN slice.val) (v ||| Fld.LIN_SLICE_CTRL_RUN.mask)
    (Machine.sliceRun req slice v))

/-- SLICE_STOP, R177: a register write. -/
def execSliceStop (req : Req) (slice : Fin 16) (v : W64) (s : State) : Host.Outcome State Fault Refusal :=
  .next (s.ownFx req .linSliceCtrl (ixN slice.val) (v &&& ~~~Fld.LIN_SLICE_CTRL_RUN.mask)
    (Machine.sliceStop req slice v))

/-- PORT_ENABLE, R178: a register write. -/
def execPortEnable (req : Req) (port : Fin 256) (v : W64) (s : State) : Host.Outcome State Fault Refusal :=
  .next (s.ownFx req .linPortCfg (portIx port.val) v (Machine.portEnable req port v))

/-- PORT_LINK_UP, R188. -/
def execPortLinkUp (port : Fin 256) (s : State) : Host.Outcome State Fault Refusal :=
  .next (Machine.portLinkUp port s)

/-- FRAME_RECEIVE, R180. -/
def execFrameReceive (port : Fin 256) (frame : List Byte) (fcs : BitVec 32)
    (s : State) : Host.Outcome State Fault Refusal :=
  .next (Machine.frameReceive port frame fcs s)

/-- PFC_RECEIVE, R181. -/
def execPfcReceive (port : Fin 256) (en : BitVec 8) (quanta : List (BitVec 16))
    (s : State) : Host.Outcome State Fault Refusal :=
  .next (Machine.pfcReceive port en quanta s)

/-- PFC_PAUSE_EXPIRY, R181. -/
def execPfcPauseExpiry (port : Fin 256) (cls : Fin 8) (s : State) : Host.Outcome State Fault Refusal :=
  .next (Machine.pfcPauseExpiry port cls s)

/-- PFC_XOFF_REPEAT, R182. -/
def execPfcXoffRepeat (port : Fin 256) (cls : Fin 8) (s : State) : Host.Outcome State Fault Refusal :=
  .next (Machine.pfcXoffRepeat port cls s)

/-- FLX_GROUP_ENABLE, R191: a register write. -/
def execFlxGroupEnable (req : Req) (n : Fin 32) (v : W64) (s : State) : Host.Outcome State Fault Refusal :=
  .next (s.ownFx req .flxGroupCfg (ixI n.val) (v &&& ~~~Fld.FLX_GROUP_CFG_CAL_REQ.mask)
    (Machine.flxGroupEnable req n v))

/-- CAL_REQ, R192: a register write. -/
def execCalReq (req : Req) (n : Fin 32) (v : W64) (s : State) : Host.Outcome State Fault Refusal :=
  .next (s.ownFx req .flxGroupCfg (ixI n.val) (v ||| Fld.FLX_GROUP_CFG_CAL_REQ.mask)
    (Machine.calReq req n v))

/-- CALENDAR_SWITCH, R192, while PARK has not stopped its clock (R94). -/
def execCalendarSwitch (n : Fin 32) (s : State) : Host.Outcome State Fault Refusal :=
  .next (s.clocked (fun s => Machine.calendarSwitch n s))

/-- CAL_FAIL, R192, while PARK has not stopped its clock (R94). -/
def execCalFail (n : Fin 32) (s : State) : Host.Outcome State Fault Refusal :=
  .next (s.clocked (fun s => Machine.calFail n s))

/-- FLX_CLIENT_ENABLE, R193: a register write. -/
def execFlxClientEnable (req : Req) (c : Fin 512) (v : W64) (s : State) : Host.Outcome State Fault Refusal :=
  .next (s.ownFx req .flxClient (ixI c.val) v (Machine.flxClientEnable req c v))

/-- FLX_CKT_ENABLE, R197: a register write. -/
def execFlxCktEnable (req : Req) (c : Fin 4096) (v : W64) (s : State) : Host.Outcome State Fault Refusal :=
  .next (s.ownFx req .flxCkt (ixI c.val) v (Machine.flxCktEnable req c v))

/-- COPY, R195: a register write. -/
def execCopy (req : Req) (v : W64) (s : State) : Host.Outcome State Fault Refusal :=
  .next (s.ownFx req .flxXcCtrl ix0 (v ||| Fld.FLX_XC_CTRL_COPY.mask)
    (Machine.copy req v))

/-- COPY_DONE, R195, while PARK has not stopped its clock (R94). -/
def execCopyDone (s : State) : Host.Outcome State Fault Refusal :=
  .next (s.clocked (fun s => Machine.copyDone s))

/-- ARM, R195: a register write. -/
def execArm (req : Req) (v : W64) (s : State) : Host.Outcome State Fault Refusal :=
  .next (s.ownFx req .flxXcCtrl ix0 (v ||| Fld.FLX_XC_CTRL_ARM.mask)
    (Machine.arm req v))

/-- DISARM, R196: a register write. -/
def execDisarm (req : Req) (v : W64) (s : State) : Host.Outcome State Fault Refusal :=
  .next (s.ownFx req .flxXcCtrl ix0 (v ||| Fld.FLX_XC_CTRL_DISARM.mask)
    (Machine.disarm req v))

/-- XC_PAGE_SWITCH, R195, while PARK has not stopped its clock (R94). -/
def execXcPageSwitch (joined : List (Fin 32)) (s : State) : Host.Outcome State Fault Refusal :=
  .next (s.clocked (fun s => Machine.xcPageSwitch joined s))

/-- LOS_DECLARE, R207. -/
def execLosDeclare (u : SigUnit) (s : State) : Host.Outcome State Fault Refusal :=
  .next (Machine.losDeclare u s)

/-- LOA_DECLARE, R207. -/
def execLoaDeclare (u : SigUnit) (s : State) : Host.Outcome State Fault Refusal :=
  .next (Machine.loaDeclare u s)

/-- GROUP_FAIL, R207. -/
def execGroupFail (n : Fin 32) (s : State) : Host.Outcome State Fault Refusal :=
  .next (Machine.groupFail n s)

/-- CLIENT_FAIL, R207. -/
def execClientFail (c : Fin 512) (s : State) : Host.Outcome State Fault Refusal :=
  .next (Machine.clientFail c s)

/-- DEFECT_CLEAR, R207. -/
def execDefectClear (d : Defect) (s : State) : Host.Outcome State Fault Refusal :=
  .next (Machine.defectClear d s)

/-- SD_PERIOD_END, R209. -/
def execSdPeriodEnd (u : SigUnit) (symbols corrected uncorrectable : BitVec 48)
    (s : State) : Host.Outcome State Fault Refusal :=
  .next (Machine.sdPeriodEnd u symbols corrected uncorrectable s)

/-- HOLD_OFF_EXPIRY, R210. -/
def execHoldOffExpiry (ent : Fin 1120) (sd : Bool) (s : State) : Host.Outcome State Fault Refusal :=
  .next (Machine.holdOffExpiry ent sd s)

/-- PM_SECOND_END, R214. -/
def execPmSecondEnd (counts : List SecondBlocks) (s : State) : Host.Outcome State Fault Refusal :=
  .next (Machine.pmSecondEnd counts s)

/-- PM_SECOND_COMMIT, R216. -/
def execPmSecondCommit (s : State) : Host.Outcome State Fault Refusal :=
  .next (Machine.pmSecondCommit s)

/-- REMOTE_FAULT, R186. -/
def execRemoteFault (port : Fin 256) (started : Bool) (s : State) : Host.Outcome State Fault Refusal :=
  .next (Machine.remoteFault port started s)

end Sys2Proof.Machine
end

