-- ==== Sys2Proof/Machine/CmdMill.lean ====
section
/-!
DEFINITION. Machine/CmdMill.lean: the meanings of commands:
the Mill (spec/19_mill.md),
each one over the operation of the same name. All of them answer a next state.
-/
namespace Sys2Proof.Machine

/-- LOCKSTEP_MISMATCH, R570. -/
def execLockstepMismatch (pc0 pc1 : W64) (s : State) : Host.Outcome State Fault Refusal :=
  .next (Machine.lockstepMismatch pc0 pc1 s)

/-- SRAM_UNCORRECTABLE, R570. -/
def execSramUncorrectable (addr : W64) (s : State) : Host.Outcome State Fault Refusal :=
  .next (Machine.sramUncorrectable addr s)

/-- MILL_WATCHDOG, R570. -/
def execMillWatchdog (pc0 pc1 : W64) (s : State) : Host.Outcome State Fault Refusal :=
  .next (Machine.millWatchdog pc0 pc1 s)

/-- MILL_RESTART_DONE, R571. -/
def execMillRestartDone (s : State) : Host.Outcome State Fault Refusal :=
  .next (Machine.millRestartDone s)

/-- SENSOR_SAMPLE, R577. -/
def execSensorSample (readings : List Reading) (s : State) : Host.Outcome State Fault Refusal :=
  .next (Machine.sensorSample readings s)

/-- LOG_FLASH_WRITE, R581. -/
def execLogFlashWrite (s : State) : Host.Outcome State Fault Refusal :=
  .next (Machine.logFlashWrite s)

/-- IDENTITY, R575. -/
def execIdentity (src : MillSrc) (s : State) : Host.Outcome State Fault Refusal :=
  .next (Machine.identity src s)

/-- SENSORS, R577. -/
def execSensors (src : MillSrc) (s : State) : Host.Outcome State Fault Refusal :=
  .next (Machine.sensors src s)

/-- ALERT_READ, R578. -/
def execAlertRead (src : MillSrc) (s : State) : Host.Outcome State Fault Refusal :=
  .next (Machine.alertRead src s)

/-- ALERT_WRITE, R578. -/
def execAlertWrite (src : MillSrc) (s : State) : Host.Outcome State Fault Refusal :=
  .next (Machine.alertWrite src s)

/-- ALERT_ACK, R578. -/
def execAlertAck (src : MillSrc) (s : State) : Host.Outcome State Fault Refusal :=
  .next (Machine.alertAck src s)

/-- SMBUS_ARA, R578. -/
def execSmbusAra (s : State) : Host.Outcome State Fault Refusal :=
  .next (Machine.smbusAra s)

/-- LOG_READ, R583. -/
def execLogRead (src : MillSrc) (s : State) : Host.Outcome State Fault Refusal :=
  .next (Machine.logRead src s)

/-- HEALTH, R575. -/
def execHealth (src : MillSrc) (s : State) : Host.Outcome State Fault Refusal :=
  .next (Machine.health src s)

/-- SELFTEST, R576. -/
def execSelftest (src : MillSrc) (failed : BitVec 16) (s : State) : Host.Outcome State Fault Refusal :=
  .next (Machine.selftest src failed s)

/-- PHASE, R576. -/
def execPhase (src : MillSrc) (s : State) : Host.Outcome State Fault Refusal :=
  .next (Machine.phase src s)

/-- DOMAIN, R576. -/
def execDomain (src : MillSrc) (s : State) : Host.Outcome State Fault Refusal :=
  .next (Machine.domain src s)

/-- RESET, R576. -/
def execReset (src : MillSrc) (s : State) : Host.Outcome State Fault Refusal :=
  .next (Machine.reset src s)

/-- SPARE_START, R576. -/
def execSpareStart (src : MillSrc) (s : State) : Host.Outcome State Fault Refusal :=
  .next (Machine.spareStart src s)

/-- SPARE_AUTO, R576. -/
def execSpareAuto (src : MillSrc) (s : State) : Host.Outcome State Fault Refusal :=
  .next (Machine.spareAuto src s)

/-- PARTITION_READ, R575. -/
def execPartitionRead (src : MillSrc) (s : State) : Host.Outcome State Fault Refusal :=
  .next (Machine.partitionRead src s)

/-- PARTITION_WRITE, R576. -/
def execPartitionWrite (src : MillSrc) (s : State) : Host.Outcome State Fault Refusal :=
  .next (Machine.partitionWrite src s)

/-- TAG_READ, R575. -/
def execTagRead (src : MillSrc) (s : State) : Host.Outcome State Fault Refusal :=
  .next (Machine.tagRead src s)

/-- TAG_WRITE, R584. -/
def execTagWrite (src : MillSrc) (s : State) : Host.Outcome State Fault Refusal :=
  .next (Machine.tagWrite src s)

/-- TAG_WP_READ, R585. -/
def execTagWpRead (src : MillSrc) (s : State) : Host.Outcome State Fault Refusal :=
  .next (Machine.tagWpRead src s)

/-- TAG_WP_SET, R585. -/
def execTagWpSet (src : MillSrc) (s : State) : Host.Outcome State Fault Refusal :=
  .next (Machine.tagWpSet src s)

/-- TAG_WP_CLEAR, R585. -/
def execTagWpClear (src : MillSrc) (s : State) : Host.Outcome State Fault Refusal :=
  .next (Machine.tagWpClear src s)

/-- GET_FILE, R575. -/
def execGetFile (src : MillSrc) (file : Option (List Byte)) (s : State) : Host.Outcome State Fault Refusal :=
  .next (Machine.getFile src file s)

/-- FW_BEGIN, R587. -/
def execFwBegin (src : MillSrc) (s : State) : Host.Outcome State Fault Refusal :=
  .next (Machine.fwBegin src s)

/-- FW_DATA, R587. -/
def execFwData (src : MillSrc) (s : State) : Host.Outcome State Fault Refusal :=
  .next (Machine.fwData src s)

/-- FW_VERIFY, R587. -/
def execFwVerify (src : MillSrc) (signatureOk hashOk : Bool) (s : State) : Host.Outcome State Fault Refusal :=
  .next (Machine.fwVerify src signatureOk hashOk s)

/-- FW_ACTIVATE, R589. -/
def execFwActivate (src : MillSrc) (s : State) : Host.Outcome State Fault Refusal :=
  .next (Machine.fwActivate src s)

/-- FW_COMMIT, R590. -/
def execFwCommit (src : MillSrc) (s : State) : Host.Outcome State Fault Refusal :=
  .next (Machine.fwCommit src s)

/-- DEBUG_UNLOCK, R595. -/
def execDebugUnlock (src : MillSrc) (s : State) : Host.Outcome State Fault Refusal :=
  .next (Machine.debugUnlock src s)

/-- DEBUG_LOCK, R595. -/
def execDebugLock (src : MillSrc) (s : State) : Host.Outcome State Fault Refusal :=
  .next (Machine.debugLock src s)

/-- DEBUG_EXPIRY, R595. -/
def execDebugExpiry (s : State) : Host.Outcome State Fault Refusal :=
  .next (Machine.debugExpiry s)

/-- MILL_NOTICE, R592. -/
def execMillNotice (s : State) : Host.Outcome State Fault Refusal :=
  .next (Machine.millNotice s)

/-- SMB_BLOCK_WRITE, R593. -/
def execSmbBlockWrite (off : BitVec 16) (data : List Byte) (pecOk : Bool)
    (s : State) : Host.Outcome State Fault Refusal :=
  .next (Machine.smbBlockWrite off data pecOk s)

/-- EXECUTE, R593. -/
def execExecute (b : Bool) (pecOk : Bool) (s : State) : Host.Outcome State Fault Refusal :=
  .next (Machine.execute b pecOk s)

/-- SMB_STATE_READ, R593. -/
def execSmbStateRead (s : State) : Host.Outcome State Fault Refusal :=
  .next (Machine.smbStateRead s)

/-- SMB_READ_SETUP, R593. -/
def execSmbReadSetup (off count : BitVec 16) (pecOk : Bool) (s : State) : Host.Outcome State Fault Refusal :=
  .next (Machine.smbReadSetup off count pecOk s)

/-- SMB_BLOCK_READ, R593. -/
def execSmbBlockRead (s : State) : Host.Outcome State Fault Refusal :=
  .next (Machine.smbBlockRead s)

/-- SMB_CLK_LOW_TIMEOUT, R613. -/
def execSmbClkLowTimeout (s : State) : Host.Outcome State Fault Refusal :=
  .next (Machine.smbClkLowTimeout s)

end Sys2Proof.Machine
end

