-- ==== Sys2Proof/Machine/CmdModule.lean ====
section
/-!
DEFINITION. Machine/CmdModule.lean: the meanings of commands:
the module, its registers, its phases and its PCIe endpoint (spec/00_scope.md to spec/04_host_pcie.md),
each one over the operation of the same name. All of them answer a next state.
-/
namespace Sys2Proof.Machine

/-- REGISTER_WRITE, R10. -/
def execRegisterWrite (req : Req) (off : BitVec 28) (v : W64) (s : State) : Host.Outcome State Fault Refusal :=
  .next (Machine.registerWrite req off v s)

/-- RC_REGISTER_READ, R11. -/
def execRcRegisterRead (req : Req) (off : BitVec 28) (part : RdPart) (s : State) : Host.Outcome State Fault Refusal :=
  .next (Machine.rcRegisterRead req off part s)

/-- LOW_HALF_WRITE, R12. -/
def execLowHalfWrite (req : Req) (off : BitVec 28) (v : W32) (s : State) : Host.Outcome State Fault Refusal :=
  .next (Machine.lowHalfWrite req off v s)

/-- HIGH_HALF_WRITE, R12. -/
def execHighHalfWrite (req : Req) (off : BitVec 28) (v : W32) (s : State) : Host.Outcome State Fault Refusal :=
  .next (Machine.highHalfWrite req off v s)

/-- LOW_HALF_READ, R14. -/
def execLowHalfRead (req : Req) (off : BitVec 28) (s : State) : Host.Outcome State Fault Refusal :=
  .next (Machine.lowHalfRead req off s)

/-- FX_WRITE_DELIVERY, R16. -/
def execFxWriteDelivery (req : Req) (s : State) : Host.Outcome State Fault Refusal :=
  .next (Machine.fxWriteDelivery req s)

/-- RW_FIELD_EFFECT, R6. -/
def execRwFieldEffect (off : BitVec 28) (s : State) : Host.Outcome State Fault Refusal :=
  .next (Machine.rwFieldEffect off s)

/-- APPLY_GO, R8. -/
def execApplyGo (req : Req) (b : Block) (inst : Fin 16) (s : State) : Host.Outcome State Fault Refusal :=
  .next (Machine.applyGo req b inst s)

/-- STAGED_APPLY, R7. -/
def execStagedApply (b : Block) (inst : Fin 16) (s : State) : Host.Outcome State Fault Refusal :=
  .next (Machine.stagedApply b inst s)

/-- INT_STATUS_CLEAR, R601. -/
def execIntStatusClear (req : Req) (b : Block) (inst : Fin 16) (v : W64) (newCauses : W64)
    (s : State) : Host.Outcome State Fault Refusal :=
  .next (Machine.intStatusClear req b inst v newCauses s)

/-- MSIX_UNMASK, R125. -/
def execMsixUnmask (fn : Fn) (vec : Option (Fin 2048)) (s : State) : Host.Outcome State Fault Refusal :=
  .next (Machine.msixUnmask fn vec s)

/-- PACKET_DISPATCH, R30, in a module that is neither isolated nor parked (R94, R96). -/
def execPacketDispatch (slice : Fin 16) (idle : Fin 64) (older : Bool)
    (s : State) : Host.Outcome State Fault Refusal :=
  .next (s.inService (fun s => Machine.packetDispatch slice idle older s))

/-- COUCH_UNIT_RECEIVE, R34. -/
def execCouchUnitReceive (d : CouchDir) (crcGood : Bool) (s : State) : Host.Outcome State Fault Refusal :=
  .next ((Machine.couchUnitReceive d crcGood s).drainAll)

/-- COUCH_RETRAIN, R35. -/
def execCouchRetrain (s : State) : Host.Outcome State Fault Refusal :=
  .next (Machine.couchRetrain s)

/-- COUCH_RETRAIN_DONE, R35. -/
def execCouchRetrainDone (s : State) : Host.Outcome State Fault Refusal :=
  .next ((Machine.couchRetrainDone s).couchSettled)

/-- COUCH_DOWN, R36. -/
def execCouchDown (s : State) : Host.Outcome State Fault Refusal :=
  .next ((Machine.couchDown s).couchSettled)

/-- POWER_GOOD, R54. -/
def execPowerGood (slotId : BitVec 6) (s : State) : Host.Outcome State Fault Refusal :=
  .next (Machine.powerGood slotId s)

/-- POWER_FAIL, R57. -/
def execPowerFail (overvoltage : Bool) (s : State) : Host.Outcome State Fault Refusal :=
  .next (Machine.powerFail overvoltage s)

/-- LAST_GASP_ENTRY, R582. -/
def execLastGaspEntry (vin : BitVec 16) (s : State) : Host.Outcome State Fault Refusal :=
  .next (Machine.lastGaspEntry vin s)

/-- RAILS_OFF, R58. -/
def execRailsOff (s : State) : Host.Outcome State Fault Refusal :=
  .next (Machine.railsOff s)

/-- THERMAL_TRIP, R53. -/
def execThermalTrip (point : Fin 128) (value : Int) (s : State) : Host.Outcome State Fault Refusal :=
  .next (Machine.thermalTrip point value s)

/-- HEARTBEAT_STROBE, R63. -/
def execHeartbeatStrobe (s : State) : Host.Outcome State Fault Refusal :=
  .next (Machine.heartbeatStrobe s)

/-- WATCHDOG_STROBES_MISSED, R63. -/
def execWatchdogStrobesMissed (s : State) : Host.Outcome State Fault Refusal :=
  .next (Machine.watchdogStrobesMissed s)

/-- MATE_PRESENT_CHANGE, R75. -/
def execMatePresentChange (s : State) : Host.Outcome State Fault Refusal :=
  .next (Machine.matePresentChange s)

/-- ALIVE_IN_CHANGE, R75. -/
def execAliveInChange (s : State) : Host.Outcome State Fault Refusal :=
  .next (Machine.aliveInChange s)

/-- REGULATORS_SEQUENCED, R83. -/
def execRegulatorsSequenced (s : State) : Host.Outcome State Fault Refusal :=
  .next (Machine.regulatorsSequenced s)

/-- IMAGE_VERIFY, R81. -/
def execImageVerify (goodA goodB : Bool) (s : State) : Host.Outcome State Fault Refusal :=
  .next (Machine.imageVerify goodA goodB s)

/-- INIT_COMPLETE, R81. -/
def execInitComplete (fails : BitVec 144) (s : State) : Host.Outcome State Fault Refusal :=
  .next (Machine.initComplete fails s)

/-- SELFTEST_PASS, R81. -/
def execSelftestPass (s : State) : Host.Outcome State Fault Refusal :=
  .next (Machine.selftestPass s)

/-- SELFTEST_FAIL, R81. -/
def execSelftestFail (slices : BitVec 16) (qx : Bool) (s : State) : Host.Outcome State Fault Refusal :=
  .next (Machine.selftestFail slices qx s)

/-- PHASE_REQ_PARK, R94: a register write. -/
def execPhaseReqPark (req : Req) (s : State) : Host.Outcome State Fault Refusal :=
  .next (s.own req .genPhaseCtrl ix0 (Machine.phaseReqPark req))

/-- PHASE_REQ_RUN, R95: a register write. -/
def execPhaseReqRun (req : Req) (s : State) : Host.Outcome State Fault Refusal :=
  .next (s.own req .genPhaseCtrl ix0 (Machine.phaseReqRun req))

/-- PHASE_REQ_ISOLATE, R96: a register write. -/
def execPhaseReqIsolate (req : Req) (s : State) : Host.Outcome State Fault Refusal :=
  .next (s.own req .genPhaseCtrl ix0 (Machine.phaseReqIsolate req))

/-- MOD_RESET, R85. -/
def execModReset (s : State) : Host.Outcome State Fault Refusal :=
  .next (Machine.modReset s)

/-- COLD, R103: a register write. -/
def execCold (req : Req) (key : BitVec 16) (s : State) : Host.Outcome State Fault Refusal :=
  .next (s.own req .genResetCtrl ix0 (Machine.cold req key))

/-- WARM_QX, R91: a register write. -/
def execWarmQx (req : Req) (key : BitVec 16) (s : State) : Host.Outcome State Fault Refusal :=
  .next (s.own req .genResetCtrl ix0 (Machine.warmQx req key))

/-- WARM_QX_COMPLETE, R91. -/
def execWarmQxComplete (fails : BitVec 144) (s : State) : Host.Outcome State Fault Refusal :=
  .next ((Machine.warmQxComplete fails s).couchSettled)

/-- DOMAIN_HOLD, R88: a register write. -/
def execDomainHold (req : Req) (hold : BitVec 29) (s : State) : Host.Outcome State Fault Refusal :=
  .next (s.own req .genDomainReset ix0 (Machine.domainHold req hold))

/-- DOMAIN_RELEASE, R88: a register write. -/
def execDomainRelease (req : Req) (hold : BitVec 29) (s : State) : Host.Outcome State Fault Refusal :=
  .next (s.own req .genDomainReset ix0 (Machine.domainRelease req hold))

/-- DOMAIN_READY, R90. -/
def execDomainReady (d : Fin 29) (s : State) : Host.Outcome State Fault Refusal :=
  .next ((Machine.domainReady d s).couchSettled)

/-- PERST_ASSERT, R86. -/
def execPerstAssert (s : State) : Host.Outcome State Fault Refusal :=
  .next (Machine.perstAssert s)

/-- HOT_RESET, R132. -/
def execHotReset (rate width : BitVec 4) (flit : Bool) (s : State) : Host.Outcome State Fault Refusal :=
  .next (Machine.hotReset rate width flit s)

/-- DL_DOWN, R132. -/
def execDlDown (s : State) : Host.Outcome State Fault Refusal :=
  .next (Machine.dlDown s)

/-- FLR, R130. -/
def execFlr (fn : Fn) (s : State) : Host.Outcome State Fault Refusal :=
  .next (Machine.flr fn s)

/-- FLR_COMPLETE, R129. -/
def execFlrComplete (fn : Fn) (s : State) : Host.Outcome State Fault Refusal :=
  .next (Machine.flrComplete fn s)

/-- D3HOT_ENTRY, R131. -/
def execD3hotEntry (fn : Fn) (s : State) : Host.Outcome State Fault Refusal :=
  .next (Machine.d3hotEntry fn s)

/-- D0_TRANSITION, R131. -/
def execD0Transition (fn : Fn) (s : State) : Host.Outcome State Fault Refusal :=
  .next (Machine.d0Transition fn s)

/-- BME_CLEAR, R128. -/
def execBmeClear (fn : Fn) (s : State) : Host.Outcome State Fault Refusal :=
  .next (Machine.bmeClear fn s)

/-- PCIE_LANE_FAIL, R106. -/
def execPcieLaneFail (working : BitVec 8) (s : State) : Host.Outcome State Fault Refusal :=
  .next (Machine.pcieLaneFail working s)

/-- PCIE_MEM_REQUEST, R117. -/
def execPcieMemRequest (t : Tlp) (s : State) : Host.Outcome State Fault Refusal :=
  .next (Machine.pcieMemRequest t s)

/-- PEER_WINDOW_ACCESS, R119. -/
def execPeerWindowAccess (t : Tlp) (s : State) : Host.Outcome State Fault Refusal :=
  .next (Machine.peerWindowAccess t s)

/-- PCE_WIN_WRITE, R122. -/
def execPceWinWrite (req : Req) (n : Fin 16) (v : W64) (s : State) : Host.Outcome State Fault Refusal :=
  .next (Machine.pceWinWrite req n v s)

/-- PCIE_COMPLETION, R133. -/
def execPcieCompletion (tag : Fin 512) (status : CplStatus) (s : State) : Host.Outcome State Fault Refusal :=
  .next (Machine.pcieCompletion tag status s)

/-- COMPLETION_TIMEOUT, R133. -/
def execCompletionTimeout (tag : Fin 512) (s : State) : Host.Outcome State Fault Refusal :=
  .next (Machine.completionTimeout tag s)

/-- PCIE_TAG_GRANT, R127. -/
def execPcieTagGrant (fn : Fn) (s : State) : Host.Outcome State Fault Refusal :=
  .next (Machine.pcieTagGrant fn s)

/-- HWM_WINDOW_READ, R114. -/
def execHwmWindowRead (fn : Fn) (off : BitVec 24) (s : State) : Host.Outcome State Fault Refusal :=
  .next (Machine.hwmWindowRead fn off s)

/-- PERST_DEASSERT, R83. -/
def execPerstDeassert (rate width : BitVec 4) (flit : Bool) (s : State) : Host.Outcome State Fault Refusal :=
  .next (Machine.perstDeassert rate width flit s)

/-- MOD_RESET_RELEASE, R85. -/
def execModResetRelease (s : State) : Host.Outcome State Fault Refusal :=
  .next (Machine.modResetRelease s)

/-- BUS_MASTER_ENABLE_SET, R164. -/
def execBusMasterEnableSet (fn : Fn) (s : State) : Host.Outcome State Fault Refusal :=
  .next (Machine.busMasterEnableSet fn s)

/-- MSIX_ENABLE, R126. -/
def execMsixEnable (fn : Fn) (intDisable : Bool) (s : State) : Host.Outcome State Fault Refusal :=
  .next (Machine.msixEnable fn intDisable s)

end Sys2Proof.Machine
end

