-- ==== Sys2Proof/Machine/CmdPipe.lean ====
section
/-!
DEFINITION. Machine/CmdPipe.lean: the meanings of commands:
parsing, lookup, the associative search and reams (spec/08_parser.md to spec/11_reams.md),
each one over the operation of the same name. All of them answer a next state.
-/
namespace Sys2Proof.Machine

/-- PARSE_START, R227, in a module that is neither isolated nor parked (R94, R96). -/
def execParseStart (pipe : Fin 64) (bad : Bool) (s : State) : Host.Outcome State Fault Refusal :=
  .next (s.inService (fun s => Machine.parseStart pipe bad s))

/-- NOP, R230, in a module that is neither isolated nor parked (R94, R96). -/
def execNop (e : Fin 8192) (bad : Bool) (s : State) : Host.Outcome State Fault Refusal :=
  .next (s.inService (fun s => Machine.nop e bad s))

/-- LDW, R230, in a module that is neither isolated nor parked (R94, R96). -/
def execLdw (e : Fin 8192) (bad : Bool) (s : State) : Host.Outcome State Fault Refusal :=
  .next (s.inService (fun s => Machine.ldw e bad s))

/-- ALU, R230, in a module that is neither isolated nor parked (R94, R96). -/
def execAlu (e : Fin 8192) (bad : Bool) (s : State) : Host.Outcome State Fault Refusal :=
  .next (s.inService (fun s => Machine.alu e bad s))

/-- ADV, R230, in a module that is neither isolated nor parked (R94, R96). -/
def execAdv (e : Fin 8192) (bad : Bool) (s : State) : Host.Outcome State Fault Refusal :=
  .next (s.inService (fun s => Machine.adv e bad s))

/-- HDR, R230, in a module that is neither isolated nor parked (R94, R96). -/
def execHdr (e : Fin 8192) (bad : Bool) (s : State) : Host.Outcome State Fault Refusal :=
  .next (s.inService (fun s => Machine.hdr e bad s))

/-- KEY, R230, in a module that is neither isolated nor parked (R94, R96). -/
def execKey (e : Fin 8192) (bad : Bool) (s : State) : Host.Outcome State Fault Refusal :=
  .next (s.inService (fun s => Machine.key e bad s))

/-- KEYR, R230, in a module that is neither isolated nor parked (R94, R96). -/
def execKeyr (e : Fin 8192) (bad : Bool) (s : State) : Host.Outcome State Fault Refusal :=
  .next (s.inService (fun s => Machine.keyr e bad s))

/-- BR, R230, in a module that is neither isolated nor parked (R94, R96). -/
def execBr (e : Fin 8192) (bad : Bool) (s : State) : Host.Outcome State Fault Refusal :=
  .next (s.inService (fun s => Machine.br e bad s))

/-- JMP, R230, in a module that is neither isolated nor parked (R94, R96). -/
def execJmp (e : Fin 8192) (bad : Bool) (s : State) : Host.Outcome State Fault Refusal :=
  .next (s.inService (fun s => Machine.jmp e bad s))

/-- CHK, R230, in a module that is neither isolated nor parked (R94, R96). -/
def execChk (e : Fin 8192) (bad : Bool) (s : State) : Host.Outcome State Fault Refusal :=
  .next (s.inService (fun s => Machine.chk e bad s))

/-- TRIM, R236, in a module that is neither isolated nor parked (R94, R96). -/
def execTrim (e : Fin 8192) (bad : Bool) (s : State) : Host.Outcome State Fault Refusal :=
  .next (s.inService (fun s => Machine.trim e bad s))

/-- MOVS, R230, in a module that is neither isolated nor parked (R94, R96). -/
def execMovs (e : Fin 8192) (bad : Bool) (s : State) : Host.Outcome State Fault Refusal :=
  .next (s.inService (fun s => Machine.movs e bad s))

/-- FLAG, R230, in a module that is neither isolated nor parked (R94, R96). -/
def execFlag (e : Fin 8192) (bad : Bool) (s : State) : Host.Outcome State Fault Refusal :=
  .next (s.inService (fun s => Machine.flag e bad s))

/-- BRW, R230, in a module that is neither isolated nor parked (R94, R96). -/
def execBrw (e : Fin 8192) (bad : Bool) (s : State) : Host.Outcome State Fault Refusal :=
  .next (s.inService (fun s => Machine.brw e bad s))

/-- DEC, R230, in a module that is neither isolated nor parked (R94, R96). -/
def execDec (e : Fin 8192) (bad : Bool) (s : State) : Host.Outcome State Fault Refusal :=
  .next (s.inService (fun s => Machine.dec e bad s))

/-- DONE, R230, in a module that is neither isolated nor parked (R94, R96). -/
def execDone (e : Fin 8192) (bad : Bool) (s : State) : Host.Outcome State Fault Refusal :=
  .next (s.inService (fun s => Machine.done e bad s))

/-- PARSE_STEP_LIMIT, R233, in a module that is neither isolated nor parked (R94, R96). -/
def execParseStepLimit (e : Fin 8192) (s : State) : Host.Outcome State Fault Refusal :=
  .next (s.inService (fun s => Machine.parseStepLimit e s))

/-- PARSE_RESULT_DELIVERY, R225, in a module that is neither isolated nor parked (R94, R96). -/
def execParseResultDelivery (pipe : Fin 64) (s : State) : Host.Outcome State Fault Refusal :=
  .next (s.inService (fun s => Machine.parseResultDelivery pipe s))

/-- KEY_BUILD, R256, in a module that is neither isolated nor parked (R94, R96). -/
def execKeyBuild (pipe : Fin 64) (upset : List TableWord) (s : State) : Host.Outcome State Fault Refusal :=
  .next (s.inService (fun s => Machine.keyBuild pipe upset s))

/-- EXACT_MATCH_LOOKUP, R262, in a module that is neither isolated nor parked (R94, R96). -/
def execExactMatchLookup (pipe : Fin 64) (d : Fin 6) (upset : List TableWord) (stall : BitVec 32)
    (s : State) : Host.Outcome State Fault Refusal :=
  .next (s.inService (fun s => Machine.exactMatchLookup pipe d upset stall s))

/-- ROUTE_LOOKUP, R267, in a module that is neither isolated nor parked (R94, R96). -/
def execRouteLookup (pipe : Fin 64) (d : Fin 6) (path : List (BitVec 24)) (upset : List TableWord) (stall : BitVec 32)
    (s : State) : Host.Outcome State Fault Refusal :=
  .next (s.inService (fun s => Machine.routeLookup pipe d path upset stall s))

/-- ASA_SEARCH, R305, in a module that is neither isolated nor parked (R94, R96). -/
def execAsaSearch (pipe : Fin 64) (d : Fin 6) (upset : List TableWord)
    (s : State) : Host.Outcome State Fault Refusal :=
  .next (s.inService (fun s => Machine.asaSearch pipe d upset s))

/-- FORWARDING_DECISION, R258, in a module that is neither isolated nor parked (R94, R96). -/
def execForwardingDecision (pipe : Fin 64) (upset : List TableWord) (stall : BitVec 32)
    (s : State) : Host.Outcome State Fault Refusal :=
  .next (s.inService (fun s => Machine.forwardingDecision pipe upset stall s))

/-- LEARN_INSERT, R278, while PARK has not stopped its clock (R94). -/
def execLearnInsert (s : State) : Host.Outcome State Fault Refusal :=
  .next (s.clocked (fun s => Machine.learnInsert s))

/-- AGE_VISIT, R280, while PARK has not stopped its clock (R94). -/
def execAgeVisit (slot : BitVec 24) (met : Bool) (s : State) : Host.Outcome State Fault Refusal :=
  .next (s.clocked (fun s => Machine.ageVisit slot met s))

/-- FLUSH_START, R281: a register write. -/
def execFlushStart (req : Req) (v : W64) (s : State) : Host.Outcome State Fault Refusal :=
  .next (s.ownFx req .lkpFlush ix0 (v ||| Fld.LKP_FLUSH_GO.mask)
    (Machine.flushStart req v))

/-- FLUSH_COMPLETE, R281, while PARK has not stopped its clock (R94). -/
def execFlushComplete (late : List (BitVec 24)) (s : State) : Host.Outcome State Fault Refusal :=
  .next (s.clocked (fun s => Machine.flushComplete late s))

/-- REPLICATOR_EXPAND, R275, in a module that is neither isolated nor parked (R94, R96). -/
def execReplicatorExpand (upset : List TableWord) (stall : BitVec 32)
    (s : State) : Host.Outcome State Fault Refusal :=
  .next (s.inService (fun s => Machine.replicatorExpand upset stall s))

/-- DANDY_SCAN_CHECK, R620, while PARK has not stopped its clock (R94). -/
def execDandyScanCheck (w : TableWord) (found : WordFault) (s : State) : Host.Outcome State Fault Refusal :=
  .next (s.clocked (fun s => Machine.dandyScanCheck w found s))

/-- TRIE_REBUILD, R283, while PARK has not stopped its clock (R94). -/
def execTrieRebuild (node : BitVec 24) (s : State) : Host.Outcome State Fault Refusal :=
  .next (s.clocked (fun s => Machine.trieRebuild node s))

/-- DIGEST_RECOMPUTE, R286, while PARK has not stopped its clock (R94). -/
def execDigestRecompute (i : Fin 6434) (s : State) : Host.Outcome State Fault Refusal :=
  .next (s.clocked (fun s => Machine.digestRecompute i s))

/-- POISON_CLR, R284: a register write. -/
def execPoisonClr (req : Req) (v : W64) (s : State) : Host.Outcome State Fault Refusal :=
  .next (s.ownFx req .lkpPoisonClr ix0 v (Machine.poisonClr req v))

/-- ASA_BANK_RUN, R298: a register write. -/
def execAsaBankRun (req : Req) (k : Fin 128) (v : W64) (s : State) : Host.Outcome State Fault Refusal :=
  .next (s.ownFx req .asaBankCfg (ixI k.val) (v ||| Fld.ASA_BANK_CFG_RUN.mask)
    (Machine.asaBankRun req k v))

/-- ASA_BANK_STOP, R297: a register write. -/
def execAsaBankStop (req : Req) (k : Fin 128) (v : W64) (s : State) : Host.Outcome State Fault Refusal :=
  .next (s.ownFx req .asaBankCfg (ixI k.val) (v &&& ~~~Fld.ASA_BANK_CFG_RUN.mask)
    (Machine.asaBankStop req k v))

/-- START, R309: a register write. -/
def execStart (req : Req) (c : Fin 4) (v : W64) (s : State) : Host.Outcome State Fault Refusal :=
  .next (s.ownFx req .asaSrchCmd (ixI c.val) (Fld.ASA_SRCH_CMD_OP.put v 1)
    (Machine.start req c v))

/-- NEXT, R310: a register write. -/
def execNext (req : Req) (c : Fin 4) (v : W64) (s : State) : Host.Outcome State Fault Refusal :=
  .next (s.ownFx req .asaSrchCmd (ixI c.val) (Fld.ASA_SRCH_CMD_OP.put v 2)
    (Machine.next req c v))

/-- END, R310: a register write. -/
def execSrchEnd (req : Req) (c : Fin 4) (v : W64) (s : State) : Host.Outcome State Fault Refusal :=
  .next (s.ownFx req .asaSrchCmd (ixI c.val) (Fld.ASA_SRCH_CMD_OP.put v 3)
    (Machine.srchEnd req c v))

/-- ASA_SEARCH_STEP, R310, while PARK has not stopped its clock (R94). -/
def execAsaSearchStep (c : Fin 4) (upset : List TableWord) (s : State) : Host.Outcome State Fault Refusal :=
  .next (s.clocked (fun s => Machine.asaSearchStep c upset s))

/-- ASA_PIN_EXPIRY, R312, while PARK has not stopped its clock (R94). -/
def execAsaPinExpiry (c : Fin 4) (s : State) : Host.Outcome State Fault Refusal :=
  .next (s.clocked (fun s => Machine.asaPinExpiry c s))

/-- ASA_ORIGINAL_FREE, R315, while PARK has not stopped its clock (R94). -/
def execAsaOriginalFree (u : BitVec 20) (s : State) : Host.Outcome State Fault Refusal :=
  .next (s.clocked (fun s => Machine.asaOriginalFree u s))

/-- WRITE, R334, while PARK has not stopped its clock (R94). -/
def execWrite (r : Fin 1024) (op : BitVec 8) (d : ChgDesc) (s : State) : Host.Outcome State Fault Refusal :=
  .next (s.clocked (fun s => Machine.write r op d s))

/-- RETIRE, R334, while PARK has not stopped its clock (R94). -/
def execRetire (r : Fin 1024) (d : ChgDesc) (s : State) : Host.Outcome State Fault Refusal :=
  .next (s.clocked (fun s => Machine.retire r d s))

/-- EM_ADD, R334, while PARK has not stopped its clock (R94). -/
def execEmAdd (r : Fin 1024) (d : ChgDesc) (s : State) : Host.Outcome State Fault Refusal :=
  .next (s.clocked (fun s => Machine.emAdd r d s))

/-- EM_DEL, R334, while PARK has not stopped its clock (R94). -/
def execEmDel (r : Fin 1024) (d : ChgDesc) (s : State) : Host.Outcome State Fault Refusal :=
  .next (s.clocked (fun s => Machine.emDel r d s))

/-- MOVE, R314, while PARK has not stopped its clock (R94). -/
def execMove (r : Fin 1024) (d : ChgDesc) (s : State) : Host.Outcome State Fault Refusal :=
  .next (s.clocked (fun s => Machine.move r d s))

/-- COMMIT, R335, while PARK has not stopped its clock (R94). -/
def execCommit (r : Fin 1024) (number : BitVec 32) (numberEn resume : Bool)
    (s : State) : Host.Outcome State Fault Refusal :=
  .next (s.clocked (fun s => Machine.commit r number numberEn resume s))

/-- REAM_ABANDON, R337, while PARK has not stopped its clock (R94). -/
def execReamAbandon (s : State) : Host.Outcome State Fault Refusal :=
  .next (s.clocked (fun s => Machine.reamAbandon s))

/-- COMMIT_INSTANT, R339, while PARK has not stopped its clock (R94). -/
def execCommitInstant (s : State) : Host.Outcome State Fault Refusal :=
  .next (s.clocked (fun s => Machine.commitInstant s))

/-- DRAIN_WAIT, R348, while PARK has not stopped its clock (R94). -/
def execDrainWait (s : State) : Host.Outcome State Fault Refusal :=
  .next (s.clocked (fun s => Machine.drainWait s))

/-- REAM_DRAINED, R345, while PARK has not stopped its clock (R94). -/
def execReamDrained (s : State) : Host.Outcome State Fault Refusal :=
  .next (s.clocked (fun s => Machine.reamDrained s))

/-- SETTLEMENT, R345, while PARK has not stopped its clock (R94). -/
def execSettlement (s : State) : Host.Outcome State Fault Refusal :=
  .next (s.clocked (fun s => Machine.settlement s))

/-- TABLE_READ, R350: a register write. -/
def execTableRead (req : Req) (v : W64) (s : State) : Host.Outcome State Fault Refusal :=
  .next (s.ownFx req .cmtRdCmd ix0 (v ||| Fld.CMT_RD_CMD_GO.mask)
    (Machine.tableRead req v))

/-- TABLE_READ_DONE, R355, while PARK has not stopped its clock (R94). -/
def execTableReadDone (s : State) : Host.Outcome State Fault Refusal :=
  .next (s.clocked (fun s => Machine.tableReadDone s))

end Sys2Proof.Machine
end

