-- ==== Sys2Proof/Machine/CmdProt.lean ====
section
/-!
DEFINITION. Machine/CmdProt.lean: the meanings of commands:
pair protection and comparison (spec/18_protection.md),
each one over the operation of the same name. All of them answer a next state.
-/
namespace Sys2Proof.Machine

/-- FELT_HEARTBEAT_SEND, R538. -/
def execFeltHeartbeatSend (s : State) : Host.Outcome State Fault Refusal :=
  .next (Machine.feltHeartbeatSend s)

/-- FELT_HEARTBEAT, R538. -/
def execFeltHeartbeat (lane : Fin 4) (msg : List Byte) (s : State) : Host.Outcome State Fault Refusal :=
  .next (Machine.feltHeartbeat lane msg s)

/-- FELT_PATH_LOST, R539. -/
def execFeltPathLost (s : State) : Host.Outcome State Fault Refusal :=
  .next (Machine.feltPathLost s)

/-- FAST_HEARTBEAT_SEND, R541. -/
def execFastHeartbeatSend (s : State) : Host.Outcome State Fault Refusal :=
  .next (Machine.fastHeartbeatSend s)

/-- ALIVE_FAULT, R544. -/
def execAliveFault (s : State) : Host.Outcome State Fault Refusal :=
  .next (Machine.aliveFault s)

/-- GROUP_ROLE_INIT, R545. -/
def execGroupRoleInit (s : State) : Host.Outcome State Fault Refusal :=
  .next (Machine.groupRoleInit s)

/-- PROT_GROUP_ENABLE, R545: a register write. -/
def execProtGroupEnable (req : Req) (g : Fin 32) (v : W64) (s : State) : Host.Outcome State Fault Refusal :=
  .next (s.own req .prtGroupCfg (ixI g.val) (Machine.protGroupEnable req g v))

/-- ROLE_RELEASE, R547. -/
def execRoleRelease (lane : Fin 4) (msg : List Byte) (s : State) : Host.Outcome State Fault Refusal :=
  .next (Machine.roleRelease lane msg s)

/-- ROLE_ACK, R547. -/
def execRoleAck (lane : Fin 4) (msg : List Byte) (s : State) : Host.Outcome State Fault Refusal :=
  .next (Machine.roleAck lane msg s)

/-- ROLE_DRAINED, R547. -/
def execRoleDrained (lane : Fin 4) (msg : List Byte) (s : State) : Host.Outcome State Fault Refusal :=
  .next (Machine.roleDrained lane msg s)

/-- ROLE_ABORT, R547. -/
def execRoleAbort (lane : Fin 4) (msg : List Byte) (s : State) : Host.Outcome State Fault Refusal :=
  .next (Machine.roleAbort lane msg s)

/-- SWITCH_ACK_TIMEOUT, R547. -/
def execSwitchAckTimeout (g : Fin 32) (s : State) : Host.Outcome State Fault Refusal :=
  .next (Machine.switchAckTimeout g s)

/-- SWITCH_INSTANT, R547. -/
def execSwitchInstant (g : Fin 32) (s : State) : Host.Outcome State Fault Refusal :=
  .next (Machine.switchInstant g s)

/-- DRAIN_MAX_EXPIRY, R547. -/
def execDrainMaxExpiry (g : Fin 32) (s : State) : Host.Outcome State Fault Refusal :=
  .next (Machine.drainMaxExpiry g s)

/-- INGRESS_GAP_EXPIRY, R547. -/
def execIngressGapExpiry (g : Fin 32) (s : State) : Host.Outcome State Fault Refusal :=
  .next (Machine.ingressGapExpiry g s)

/-- WTR_EXPIRY, R549. -/
def execWtrExpiry (g : Fin 32) (s : State) : Host.Outcome State Fault Refusal :=
  .next (Machine.wtrExpiry g s)

/-- BOUNDARY, R553. -/
def execBoundary (slice : Fin 16) (msg : Option (List Byte)) (s : State) : Host.Outcome State Fault Refusal :=
  .next (Machine.boundary slice msg s)

/-- DIGEST, R554. -/
def execDigest (lane : Fin 4) (msg : List Byte) (s : State) : Host.Outcome State Fault Refusal :=
  .next (Machine.digest lane msg s)

/-- TEST_REQUEST, R555. -/
def execTestRequest (lane : Fin 4) (msg : List Byte) (s : State) : Host.Outcome State Fault Refusal :=
  .next (Machine.testRequest lane msg s)

/-- SLICE_SELFTEST, R555. -/
def execSliceSelftest (slice : Fin 16) (pass : Bool) (s : State) : Host.Outcome State Fault Refusal :=
  .next (Machine.sliceSelftest slice pass s)

/-- TEST_RESULT, R556. -/
def execTestResult (lane : Fin 4) (msg : List Byte) (s : State) : Host.Outcome State Fault Refusal :=
  .next (Machine.testResult lane msg s)

/-- TEST_RESULT_TIMEOUT, R556. -/
def execTestResultTimeout (slice : Fin 16) (s : State) : Host.Outcome State Fault Refusal :=
  .next (Machine.testResultTimeout slice s)

/-- FELT_HEALTH, R557. -/
def execFeltHealth (lane : Fin 4) (msg : List Byte) (s : State) : Host.Outcome State Fault Refusal :=
  .next (Machine.feltHealth lane msg s)

/-- HEALTH_SEND, R538. -/
def execHealthSend (s : State) : Host.Outcome State Fault Refusal :=
  .next (Machine.healthSend s)

/-- FELT_LOCK_READ, R171. -/
def execFeltLockRead (lane : Fin 4) (msg : List Byte) (s : State) : Host.Outcome State Fault Refusal :=
  .next (Machine.feltLockRead lane msg s)

/-- FELT_LOCK_RELEASE, R171. -/
def execFeltLockRelease (lane : Fin 4) (msg : List Byte) (s : State) : Host.Outcome State Fault Refusal :=
  .next (Machine.feltLockRelease lane msg s)

/-- FELT_LOCK_RESULT, R171. -/
def execFeltLockResult (lane : Fin 4) (msg : List Byte) (s : State) : Host.Outcome State Fault Refusal :=
  .next (Machine.feltLockResult lane msg s)

/-- BACKGROUND_TEST, R557. -/
def execBackgroundTest (sched buf spare asa : Bool) (s : State) : Host.Outcome State Fault Refusal :=
  .next (Machine.backgroundTest sched buf spare asa s)

/-- RECOVERY_DONE, R558: a register write. -/
def execRecoveryDone (req : Req) (v : W64) (s : State) : Host.Outcome State Fault Refusal :=
  .next (s.own req .prtRecovery ix0 (Machine.recoveryDone req v))

end Sys2Proof.Machine
end

