-- ==== Sys2Proof/Machine/CmdQueue.lean ====
section
/-!
DEFINITION. Machine/CmdQueue.lean: the meanings of commands:
buffering, memory and scheduling (spec/12_buffering.md to spec/14_scheduling.md),
each one over the operation of the same name. All of them answer a next state.
-/
namespace Sys2Proof.Machine

/-- ALLOC, R360, while PARK has not stopped its clock (R94). -/
def execAlloc (r : Fin 32) (h : BitVec 32) (s : State) : Host.Outcome State Fault Refusal :=
  .next (s.clocked (fun s => Machine.alloc r h s))

/-- USE, R360, while PARK has not stopped its clock (R94). -/
def execBufUse (r : Fin 32) (h : BitVec 32) (s : State) : Host.Outcome State Fault Refusal :=
  .next (s.clocked (fun s => Machine.bufUse r h s))

/-- REF, R360, while PARK has not stopped its clock (R94). -/
def execBufRef (r : Fin 32) (h : BitVec 32) (n : BitVec 8) (holder : Fin 32)
    (s : State) : Host.Outcome State Fault Refusal :=
  .next (s.clocked (fun s => Machine.bufRef r h n holder s))

/-- BUF_DEC, R360, while PARK has not stopped its clock (R94). -/
def execBufDec (r : Fin 32) (h : BitVec 32) (s : State) : Host.Outcome State Fault Refusal :=
  .next (s.clocked (fun s => Machine.bufDec r h s))

/-- RETURN, R360, while PARK has not stopped its clock (R94). -/
def execBufReturn (r : Fin 32) (h : BitVec 32) (s : State) : Host.Outcome State Fault Refusal :=
  .next (s.clocked (fun s => Machine.bufReturn r h s))

/-- CACHE_IDLE_RETURN, R360, while PARK has not stopped its clock (R94). -/
def execCacheIdleReturn (h : BitVec 32) (s : State) : Host.Outcome State Fault Refusal :=
  .next (s.clocked (fun s => Machine.cacheIdleReturn h s))

/-- REFILL, R364, in a module that is neither isolated nor parked (R94, R96). -/
def execRefill (r : Fin 32) (s : State) : Host.Outcome State Fault Refusal :=
  .next (s.inService (fun s => Machine.refill r s))

/-- REFILL_RETRY_EXPIRY, R363, in a module that is neither isolated nor parked (R94, R96). -/
def execRefillRetryExpiry (r : Fin 32) (s : State) : Host.Outcome State Fault Refusal :=
  .next (s.inService (fun s => Machine.refillRetryExpiry r s))

/-- ADMISSION, R369, in a module that is neither isolated nor parked (R94, R96). -/
def execAdmission (s : State) : Host.Outcome State Fault Refusal :=
  .next (s.inService (fun s => Machine.admission s))

/-- DEEP_EVICT, R372, in a module that is neither isolated nor parked (R94, R96). -/
def execDeepEvict (own : Option (Fin 8)) (ue : Option (BitVec 32)) (s : State) : Host.Outcome State Fault Refusal :=
  .next (s.inService (fun s => Machine.deepEvict own ue s))

/-- PARTIAL_PAGE_TIMER, R371, in a module that is neither isolated nor parked (R94, R96). -/
def execPartialPageTimer (q : BitVec 20) (ue : Option (BitVec 32)) (s : State) : Host.Outcome State Fault Refusal :=
  .next (s.inService (fun s => Machine.partialPageTimer q ue s))

/-- DEEP_PAGE_WRITTEN, R371, while PARK has not stopped its clock (R94). -/
def execDeepPageWritten (page : BitVec 32) (s : State) : Host.Outcome State Fault Refusal :=
  .next (s.clocked (fun s => Machine.deepPageWritten page s))

/-- DEEP_REFILL, R371, in a module that is neither isolated nor parked (R94, R96). -/
def execDeepRefill (q : BitVec 20) (s : State) : Host.Outcome State Fault Refusal :=
  .next (s.inService (fun s => Machine.deepRefill q s))

/-- DRAM_READ, R401. -/
def execDramRead (part : Fin 4) (off : BitVec 35) (err : DramErr) (s : State) : Host.Outcome State Fault Refusal :=
  .next (Machine.dramRead part off err s)

/-- SET_RETRAIN, R400. -/
def execSetRetrain (fails : BitVec 9) (s : State) : Host.Outcome State Fault Refusal :=
  .next (Machine.setRetrain fails s)

/-- DDC_RUN, R398: a register write. -/
def execDdcRun (req : Req) (v : W64) (s : State) : Host.Outcome State Fault Refusal :=
  .next (s.own req .ddcCtrl ix0 (Machine.ddcRun req v))

/-- SPARE_GO, R403: a register write. -/
def execSpareGo (req : Req) (n : Fin 9) (v : W64) (s : State) : Host.Outcome State Fault Refusal :=
  .next (s.own req .ddcSpare (ixN n.val) (Machine.spareGo req n v))

/-- SPARE_COPY_DONE, R404. -/
def execSpareCopyDone (n : Fin 9) (bad : Bool) (s : State) : Host.Outcome State Fault Refusal :=
  .next (Machine.spareCopyDone n bad s)

/-- SPARE_TEST, R406. -/
def execSpareTest (n : Fin 9) (ue : Bool) (corr : BitVec 32) (s : State) : Host.Outcome State Fault Refusal :=
  .next (Machine.spareTest n ue corr s)

/-- CNT_CLR, R409: a register write. -/
def execCntClr (req : Req) (v : W64) (s : State) : Host.Outcome State Fault Refusal :=
  .next (s.own req .ddcCntClr ix0 (Machine.cntClr req v))

/-- QSC_RUN, R414: a register write. -/
def execQscRun (req : Req) (v : W64) (s : State) : Host.Outcome State Fault Refusal :=
  .next (s.own req .qscCtrl ix0 (Machine.qscRun req v))

/-- QUEUE_FLUSH_START, R416: a register write. -/
def execQueueFlushStart (req : Req) (v : W64) (s : State) : Host.Outcome State Fault Refusal :=
  .next (s.own req .qscFlush ix0 (Machine.queueFlushStart req v))

/-- QUEUE_FLUSH_DONE, R416, while PARK has not stopped its clock (R94). -/
def execQueueFlushDone (s : State) : Host.Outcome State Fault Refusal :=
  .next (s.clocked (fun s => Machine.queueFlushDone s))

/-- CREDIT_REQUEST, R417, in a module that is neither isolated nor parked (R94, R96). -/
def execCreditRequest (q : BitVec 20) (s : State) : Host.Outcome State Fault Refusal :=
  .next (s.inService (fun s => Machine.creditRequest q s))

/-- REQUEST_ARRIVAL, R421, in a module that is neither isolated nor parked (R94, R96). -/
def execRequestArrival (s : State) : Host.Outcome State Fault Refusal :=
  .next (s.inService (fun s => Machine.requestArrival s))

/-- CREDIT_SLOT, R422, in a module that is neither isolated nor parked (R94, R96). -/
def execCreditSlot (s : State) : Host.Outcome State Fault Refusal :=
  .next (s.inService (fun s => Machine.creditSlot s))

/-- GRANT, R418, in a module that is neither isolated nor parked (R94, R96). -/
def execGrant (s : State) : Host.Outcome State Fault Refusal :=
  .next (s.inService (fun s => Machine.grant s))

/-- DEFER, R418, in a module that is neither isolated nor parked (R94, R96). -/
def execDefer (s : State) : Host.Outcome State Fault Refusal :=
  .next (s.inService (fun s => Machine.defer s))

/-- DEFER_BACKOFF_EXPIRY, R418, in a module that is neither isolated nor parked (R94, R96). -/
def execDeferBackoffExpiry (q : BitVec 20) (s : State) : Host.Outcome State Fault Refusal :=
  .next (s.inService (fun s => Machine.deferBackoffExpiry q s))

/-- REQ_TIMEOUT, R418, in a module that is neither isolated nor parked (R94, R96). -/
def execReqTimeout (q : BitVec 20) (s : State) : Host.Outcome State Fault Refusal :=
  .next (s.inService (fun s => Machine.reqTimeout q s))

/-- VOQ_DEQUEUE, R419, in a module that is neither isolated nor parked (R94, R96). -/
def execVoqDequeue (ue : Bool) (s : State) : Host.Outcome State Fault Refusal :=
  .next (s.inService (fun s => Machine.voqDequeue ue s))

/-- CREDIT_RETURN_RECEIVE, R423, in a module that is neither isolated nor parked (R94, R96). -/
def execCreditReturnReceive (s : State) : Host.Outcome State Fault Refusal :=
  .next (s.inService (fun s => Machine.creditReturnReceive s))

/-- IDLE_CLR, R423, in a module that is neither isolated nor parked (R94, R96). -/
def execIdleClr (g : Fin 32) (k : Fin 8) (s : State) : Host.Outcome State Fault Refusal :=
  .next (s.inService (fun s => Machine.idleClr g k s))

/-- CRD_RES_ENABLE, R425: a register write. -/
def execCrdResEnable (req : Req) (r : Fin 4096) (v : W64) (s : State) : Host.Outcome State Fault Refusal :=
  .next (s.own req .crdRes (ixI r.val) (Machine.crdResEnable req r v))

/-- EGRESS_ENQUEUE, R415, in a module that is neither isolated nor parked (R94, R96). -/
def execEgressEnqueue (s : State) : Host.Outcome State Fault Refusal :=
  .next (s.inService (fun s => Machine.egressEnqueue s))

/-- SCHEDULER_SELECTION, R430, in a module that is neither isolated nor parked (R94, R96). -/
def execSchedulerSelection (port : Fin 288) (ue : Bool) (s : State) : Host.Outcome State Fault Refusal :=
  .next (s.inService (fun s => (Machine.schedulerSelection port ue s).drainAll))

/-- GATE_EVENT, R435, in a module that is neither isolated nor parked (R94, R96). -/
def execGateEvent (port : Fin 288) (s : State) : Host.Outcome State Fault Refusal :=
  .next (s.inService (fun s => Machine.gateEvent port s))

/-- CHANGE, R438: a register write. -/
def execChange (req : Req) (port : Fin 288) (v : W64) (s : State) : Host.Outcome State Fault Refusal :=
  .next (s.own req .tgtCtrl (ixI port.val) (Machine.change req port v))

/-- GATE_LIST_SWITCH, R438, in a module that is neither isolated nor parked (R94, R96). -/
def execGateListSwitch (port : Fin 288) (s : State) : Host.Outcome State Fault Refusal :=
  .next (s.inService (fun s => Machine.gateListSwitch port s))

end Sys2Proof.Machine
end

