-- ==== Sys2Proof/Machine/Dispatch.lean ====
section
/-! DEFINITION. Machine/Dispatch.lean: the command's effect on everything but the queue: one arm per command. -/
namespace Sys2Proof.Machine

def exec (i : Instr) (s : State) : Host.Outcome State Fault Refusal :=
  match i with
  | .registerWrite req off v => Sys2Proof.Machine.execRegisterWrite req off v s
  | .rcRegisterRead req off part => Sys2Proof.Machine.execRcRegisterRead req off part s
  | .lowHalfWrite req off v => Sys2Proof.Machine.execLowHalfWrite req off v s
  | .highHalfWrite req off v => Sys2Proof.Machine.execHighHalfWrite req off v s
  | .lowHalfRead req off => Sys2Proof.Machine.execLowHalfRead req off s
  | .fxWriteDelivery req => Sys2Proof.Machine.execFxWriteDelivery req s
  | .rwFieldEffect off => Sys2Proof.Machine.execRwFieldEffect off s
  | .applyGo req b inst => Sys2Proof.Machine.execApplyGo req b inst s
  | .stagedApply b inst => Sys2Proof.Machine.execStagedApply b inst s
  | .intStatusClear req b inst v newCauses => Sys2Proof.Machine.execIntStatusClear req b inst v newCauses s
  | .msixUnmask fn vec => Sys2Proof.Machine.execMsixUnmask fn vec s
  | .packetDispatch slice idle older => Sys2Proof.Machine.execPacketDispatch slice idle older s
  | .couchUnitReceive d crcGood => Sys2Proof.Machine.execCouchUnitReceive d crcGood s
  | .couchRetrain => Sys2Proof.Machine.execCouchRetrain s
  | .couchRetrainDone => Sys2Proof.Machine.execCouchRetrainDone s
  | .couchDown => Sys2Proof.Machine.execCouchDown s
  | .powerGood slotId => Sys2Proof.Machine.execPowerGood slotId s
  | .powerFail overvoltage => Sys2Proof.Machine.execPowerFail overvoltage s
  | .lastGaspEntry vin => Sys2Proof.Machine.execLastGaspEntry vin s
  | .railsOff => Sys2Proof.Machine.execRailsOff s
  | .thermalTrip point value => Sys2Proof.Machine.execThermalTrip point value s
  | .heartbeatStrobe => Sys2Proof.Machine.execHeartbeatStrobe s
  | .watchdogStrobesMissed => Sys2Proof.Machine.execWatchdogStrobesMissed s
  | .matePresentChange => Sys2Proof.Machine.execMatePresentChange s
  | .aliveInChange => Sys2Proof.Machine.execAliveInChange s
  | .regulatorsSequenced => Sys2Proof.Machine.execRegulatorsSequenced s
  | .imageVerify goodA goodB => Sys2Proof.Machine.execImageVerify goodA goodB s
  | .initComplete fails => Sys2Proof.Machine.execInitComplete fails s
  | .selftestPass => Sys2Proof.Machine.execSelftestPass s
  | .selftestFail slices qx => Sys2Proof.Machine.execSelftestFail slices qx s
  | .phaseReqPark req => Sys2Proof.Machine.execPhaseReqPark req s
  | .phaseReqRun req => Sys2Proof.Machine.execPhaseReqRun req s
  | .phaseReqIsolate req => Sys2Proof.Machine.execPhaseReqIsolate req s
  | .modReset => Sys2Proof.Machine.execModReset s
  | .cold req key => Sys2Proof.Machine.execCold req key s
  | .warmQx req key => Sys2Proof.Machine.execWarmQx req key s
  | .warmQxComplete fails => Sys2Proof.Machine.execWarmQxComplete fails s
  | .domainHold req hold => Sys2Proof.Machine.execDomainHold req hold s
  | .domainRelease req hold => Sys2Proof.Machine.execDomainRelease req hold s
  | .domainReady d => Sys2Proof.Machine.execDomainReady d s
  | .perstAssert => Sys2Proof.Machine.execPerstAssert s
  | .hotReset rate width flit => Sys2Proof.Machine.execHotReset rate width flit s
  | .dlDown => Sys2Proof.Machine.execDlDown s
  | .flr fn => Sys2Proof.Machine.execFlr fn s
  | .flrComplete fn => Sys2Proof.Machine.execFlrComplete fn s
  | .d3hotEntry fn => Sys2Proof.Machine.execD3hotEntry fn s
  | .d0Transition fn => Sys2Proof.Machine.execD0Transition fn s
  | .bmeClear fn => Sys2Proof.Machine.execBmeClear fn s
  | .pcieLaneFail working => Sys2Proof.Machine.execPcieLaneFail working s
  | .pcieMemRequest t => Sys2Proof.Machine.execPcieMemRequest t s
  | .peerWindowAccess t => Sys2Proof.Machine.execPeerWindowAccess t s
  | .pceWinWrite req n v => Sys2Proof.Machine.execPceWinWrite req n v s
  | .pcieCompletion tag status => Sys2Proof.Machine.execPcieCompletion tag status s
  | .completionTimeout tag => Sys2Proof.Machine.execCompletionTimeout tag s
  | .pcieTagGrant fn => Sys2Proof.Machine.execPcieTagGrant fn s
  | .hwmWindowRead fn off => Sys2Proof.Machine.execHwmWindowRead fn off s
  | .ringDoorbell r hostIdx => Sys2Proof.Machine.execRingDoorbell r hostIdx s
  | .ringEnable req r cfg => Sys2Proof.Machine.execRingEnable req r cfg s
  | .ringDisable req r cfg => Sys2Proof.Machine.execRingDisable req r cfg s
  | .ringDrained r => Sys2Proof.Machine.execRingDrained r s
  | .ringArm r => Sys2Proof.Machine.execRingArm r s
  | .ringCoalTimer r => Sys2Proof.Machine.execRingCoalTimer r s
  | .dmaSlotAvailable e => Sys2Proof.Machine.execDmaSlotAvailable e s
  | .txDescriptor r chain data => Sys2Proof.Machine.execTxDescriptor r chain data s
  | .rxPacketDeliver r bufs ue => Sys2Proof.Machine.execRxPacketDeliver r bufs ue s
  | .mbxH2mPost k v => Sys2Proof.Machine.execMbxH2mPost k v s
  | .millTakeNotice k readOk block => Sys2Proof.Machine.execMillTakeNotice k readOk block s
  | .millAnswer src => Sys2Proof.Machine.execMillAnswer src s
  | .mbxM2hTake k v => Sys2Proof.Machine.execMbxM2hTake k v s
  | .mbxTimeout k h2m => Sys2Proof.Machine.execMbxTimeout k h2m s
  | .mbxModeWrite req k v => Sys2Proof.Machine.execMbxModeWrite req k v s
  | .semLockRead n readers part => Sys2Proof.Machine.execSemLockRead n readers part s
  | .rel m n => Sys2Proof.Machine.execRel m n s
  | .force m n => Sys2Proof.Machine.execForce m n s
  | .sliceRun req slice v => Sys2Proof.Machine.execSliceRun req slice v s
  | .sliceStop req slice v => Sys2Proof.Machine.execSliceStop req slice v s
  | .portEnable req port v => Sys2Proof.Machine.execPortEnable req port v s
  | .portLinkUp port => Sys2Proof.Machine.execPortLinkUp port s
  | .frameReceive port frame fcs => Sys2Proof.Machine.execFrameReceive port frame fcs s
  | .pfcReceive port en quanta => Sys2Proof.Machine.execPfcReceive port en quanta s
  | .pfcPauseExpiry port cls => Sys2Proof.Machine.execPfcPauseExpiry port cls s
  | .pfcXoffRepeat port cls => Sys2Proof.Machine.execPfcXoffRepeat port cls s
  | .flxGroupEnable req n v => Sys2Proof.Machine.execFlxGroupEnable req n v s
  | .calReq req n v => Sys2Proof.Machine.execCalReq req n v s
  | .calendarSwitch n => Sys2Proof.Machine.execCalendarSwitch n s
  | .calFail n => Sys2Proof.Machine.execCalFail n s
  | .flxClientEnable req c v => Sys2Proof.Machine.execFlxClientEnable req c v s
  | .flxCktEnable req c v => Sys2Proof.Machine.execFlxCktEnable req c v s
  | .copy req v => Sys2Proof.Machine.execCopy req v s
  | .copyDone => Sys2Proof.Machine.execCopyDone s
  | .arm req v => Sys2Proof.Machine.execArm req v s
  | .disarm req v => Sys2Proof.Machine.execDisarm req v s
  | .xcPageSwitch joined => Sys2Proof.Machine.execXcPageSwitch joined s
  | .losDeclare u => Sys2Proof.Machine.execLosDeclare u s
  | .loaDeclare u => Sys2Proof.Machine.execLoaDeclare u s
  | .groupFail n => Sys2Proof.Machine.execGroupFail n s
  | .clientFail c => Sys2Proof.Machine.execClientFail c s
  | .defectClear d => Sys2Proof.Machine.execDefectClear d s
  | .sdPeriodEnd u symbols corrected uncorrectable => Sys2Proof.Machine.execSdPeriodEnd u symbols corrected uncorrectable s
  | .holdOffExpiry ent sd => Sys2Proof.Machine.execHoldOffExpiry ent sd s
  | .pmSecondEnd counts => Sys2Proof.Machine.execPmSecondEnd counts s
  | .pmSecondCommit => Sys2Proof.Machine.execPmSecondCommit s
  | .parseStart pipe bad => Sys2Proof.Machine.execParseStart pipe bad s
  | .nop e bad => Sys2Proof.Machine.execNop e bad s
  | .ldw e bad => Sys2Proof.Machine.execLdw e bad s
  | .alu e bad => Sys2Proof.Machine.execAlu e bad s
  | .adv e bad => Sys2Proof.Machine.execAdv e bad s
  | .hdr e bad => Sys2Proof.Machine.execHdr e bad s
  | .key e bad => Sys2Proof.Machine.execKey e bad s
  | .keyr e bad => Sys2Proof.Machine.execKeyr e bad s
  | .br e bad => Sys2Proof.Machine.execBr e bad s
  | .jmp e bad => Sys2Proof.Machine.execJmp e bad s
  | .chk e bad => Sys2Proof.Machine.execChk e bad s
  | .trim e bad => Sys2Proof.Machine.execTrim e bad s
  | .movs e bad => Sys2Proof.Machine.execMovs e bad s
  | .flag e bad => Sys2Proof.Machine.execFlag e bad s
  | .brw e bad => Sys2Proof.Machine.execBrw e bad s
  | .dec e bad => Sys2Proof.Machine.execDec e bad s
  | .done e bad => Sys2Proof.Machine.execDone e bad s
  | .parseStepLimit e => Sys2Proof.Machine.execParseStepLimit e s
  | .parseResultDelivery pipe => Sys2Proof.Machine.execParseResultDelivery pipe s
  | .keyBuild pipe upset => Sys2Proof.Machine.execKeyBuild pipe upset s
  | .exactMatchLookup pipe d upset stall => Sys2Proof.Machine.execExactMatchLookup pipe d upset stall s
  | .routeLookup pipe d path upset stall => Sys2Proof.Machine.execRouteLookup pipe d path upset stall s
  | .asaSearch pipe d upset => Sys2Proof.Machine.execAsaSearch pipe d upset s
  | .forwardingDecision pipe upset stall => Sys2Proof.Machine.execForwardingDecision pipe upset stall s
  | .learnInsert => Sys2Proof.Machine.execLearnInsert s
  | .ageVisit slot met => Sys2Proof.Machine.execAgeVisit slot met s
  | .flushStart req v => Sys2Proof.Machine.execFlushStart req v s
  | .flushComplete late => Sys2Proof.Machine.execFlushComplete late s
  | .replicatorExpand upset stall => Sys2Proof.Machine.execReplicatorExpand upset stall s
  | .dandyScanCheck w found => Sys2Proof.Machine.execDandyScanCheck w found s
  | .trieRebuild node => Sys2Proof.Machine.execTrieRebuild node s
  | .digestRecompute k => Sys2Proof.Machine.execDigestRecompute k s
  | .poisonClr req v => Sys2Proof.Machine.execPoisonClr req v s
  | .asaBankRun req k v => Sys2Proof.Machine.execAsaBankRun req k v s
  | .asaBankStop req k v => Sys2Proof.Machine.execAsaBankStop req k v s
  | .start req c v => Sys2Proof.Machine.execStart req c v s
  | .next req c v => Sys2Proof.Machine.execNext req c v s
  | .srchEnd req c v => Sys2Proof.Machine.execSrchEnd req c v s
  | .asaSearchStep c upset => Sys2Proof.Machine.execAsaSearchStep c upset s
  | .asaPinExpiry c => Sys2Proof.Machine.execAsaPinExpiry c s
  | .asaOriginalFree u => Sys2Proof.Machine.execAsaOriginalFree u s
  | .write r op d => Sys2Proof.Machine.execWrite r op d s
  | .retire r d => Sys2Proof.Machine.execRetire r d s
  | .emAdd r d => Sys2Proof.Machine.execEmAdd r d s
  | .emDel r d => Sys2Proof.Machine.execEmDel r d s
  | .move r d => Sys2Proof.Machine.execMove r d s
  | .commit r number numberEn resume => Sys2Proof.Machine.execCommit r number numberEn resume s
  | .reamAbandon => Sys2Proof.Machine.execReamAbandon s
  | .commitInstant => Sys2Proof.Machine.execCommitInstant s
  | .drainWait => Sys2Proof.Machine.execDrainWait s
  | .reamDrained => Sys2Proof.Machine.execReamDrained s
  | .settlement => Sys2Proof.Machine.execSettlement s
  | .tableRead req v => Sys2Proof.Machine.execTableRead req v s
  | .tableReadDone => Sys2Proof.Machine.execTableReadDone s
  | .alloc r h => Sys2Proof.Machine.execAlloc r h s
  | .bufUse r h => Sys2Proof.Machine.execBufUse r h s
  | .bufRef r h n holder => Sys2Proof.Machine.execBufRef r h n holder s
  | .bufDec r h => Sys2Proof.Machine.execBufDec r h s
  | .bufReturn r h => Sys2Proof.Machine.execBufReturn r h s
  | .cacheIdleReturn h => Sys2Proof.Machine.execCacheIdleReturn h s
  | .refill r => Sys2Proof.Machine.execRefill r s
  | .refillRetryExpiry r => Sys2Proof.Machine.execRefillRetryExpiry r s
  | .admission => Sys2Proof.Machine.execAdmission s
  | .deepEvict own ue => Sys2Proof.Machine.execDeepEvict own ue s
  | .partialPageTimer q ue => Sys2Proof.Machine.execPartialPageTimer q ue s
  | .deepPageWritten page => Sys2Proof.Machine.execDeepPageWritten page s
  | .deepRefill q => Sys2Proof.Machine.execDeepRefill q s
  | .dramRead part off err => Sys2Proof.Machine.execDramRead part off err s
  | .setRetrain fails => Sys2Proof.Machine.execSetRetrain fails s
  | .ddcRun req v => Sys2Proof.Machine.execDdcRun req v s
  | .spareGo req n v => Sys2Proof.Machine.execSpareGo req n v s
  | .spareCopyDone n bad => Sys2Proof.Machine.execSpareCopyDone n bad s
  | .spareTest n ue corr => Sys2Proof.Machine.execSpareTest n ue corr s
  | .cntClr req v => Sys2Proof.Machine.execCntClr req v s
  | .qscRun req v => Sys2Proof.Machine.execQscRun req v s
  | .queueFlushStart req v => Sys2Proof.Machine.execQueueFlushStart req v s
  | .queueFlushDone => Sys2Proof.Machine.execQueueFlushDone s
  | .creditRequest q => Sys2Proof.Machine.execCreditRequest q s
  | .requestArrival => Sys2Proof.Machine.execRequestArrival s
  | .creditSlot => Sys2Proof.Machine.execCreditSlot s
  | .grant => Sys2Proof.Machine.execGrant s
  | .defer => Sys2Proof.Machine.execDefer s
  | .deferBackoffExpiry q => Sys2Proof.Machine.execDeferBackoffExpiry q s
  | .reqTimeout q => Sys2Proof.Machine.execReqTimeout q s
  | .voqDequeue ue => Sys2Proof.Machine.execVoqDequeue ue s
  | .creditReturnReceive => Sys2Proof.Machine.execCreditReturnReceive s
  | .idleClr g k => Sys2Proof.Machine.execIdleClr g k s
  | .crdResEnable req r v => Sys2Proof.Machine.execCrdResEnable req r v s
  | .egressEnqueue => Sys2Proof.Machine.execEgressEnqueue s
  | .schedulerSelection port ue => Sys2Proof.Machine.execSchedulerSelection port ue s
  | .gateEvent port => Sys2Proof.Machine.execGateEvent port s
  | .change req port v => Sys2Proof.Machine.execChange req port v s
  | .gateListSwitch port => Sys2Proof.Machine.execGateListSwitch port s
  | .fabMacroRun req n v => Sys2Proof.Machine.execFabMacroRun req n v s
  | .markerReceive lane pos marker => Sys2Proof.Machine.execMarkerReceive lane pos marker s
  | .searchWindowEnd lane => Sys2Proof.Machine.execSearchWindowEnd lane s
  | .cellReceive l cell => Sys2Proof.Machine.execCellReceive l cell s
  | .advert => Sys2Proof.Machine.execAdvert s
  | .reach => Sys2Proof.Machine.execReach s
  | .reachTimeout l block => Sys2Proof.Machine.execReachTimeout l block s
  | .sprayRejoin l => Sys2Proof.Machine.execSprayRejoin l s
  | .cellTransmit l => Sys2Proof.Machine.execCellTransmit l s
  | .unreachHoldExpiry d pair => Sys2Proof.Machine.execUnreachHoldExpiry d pair s
  | .dataCell => Sys2Proof.Machine.execDataCell s
  | .reorderTimeout src => Sys2Proof.Machine.execReorderTimeout src s
  | .reorderIdle src => Sys2Proof.Machine.execReorderIdle src s
  | .seqRestart d pair => Sys2Proof.Machine.execSeqRestart d pair s
  | .heartbeatSend => Sys2Proof.Machine.execHeartbeatSend s
  | .heartbeat => Sys2Proof.Machine.execHeartbeat s
  | .heartbeatLost src => Sys2Proof.Machine.execHeartbeatLost src s
  | .slotCell => Sys2Proof.Machine.execSlotCell s
  | .playoutTurn src ckt member => Sys2Proof.Machine.execPlayoutTurn src ckt member s
  | .egressProcess pipe upset paths older stall => Sys2Proof.Machine.execEgressProcess pipe upset paths older stall s
  | .ppsEdge sub => Sys2Proof.Machine.execPpsEdge sub s
  | .todMessage msg inWindow => Sys2Proof.Machine.execTodMessage msg inWindow s
  | .ppsLoss => Sys2Proof.Machine.execPpsLoss s
  | .ppsOut => Sys2Proof.Machine.execPpsOut s
  | .todSend => Sys2Proof.Machine.execTodSend s
  | .servoMeasurement => Sys2Proof.Machine.execServoMeasurement s
  | .timeDreqSend => Sys2Proof.Machine.execTimeDreqSend s
  | .timeDreq => Sys2Proof.Machine.execTimeDreq s
  | .timeDresp => Sys2Proof.Machine.execTimeDresp s
  | .timeSync => Sys2Proof.Machine.execTimeSync s
  | .timeExchangeTimeout => Sys2Proof.Machine.execTimeExchangeTimeout s
  | .timAdjSlew req v => Sys2Proof.Machine.execTimAdjSlew req v s
  | .timAdjStep req v => Sys2Proof.Machine.execTimAdjStep req v s
  | .timAdjLoad req v => Sys2Proof.Machine.execTimAdjLoad req v s
  | .timeCaptureRead req => Sys2Proof.Machine.execTimeCaptureRead req s
  | .ref10mChange => Sys2Proof.Machine.execRef10mChange s
  | .feltHeartbeatSend => Sys2Proof.Machine.execFeltHeartbeatSend s
  | .feltHeartbeat lane msg => Sys2Proof.Machine.execFeltHeartbeat lane msg s
  | .feltPathLost => Sys2Proof.Machine.execFeltPathLost s
  | .fastHeartbeatSend => Sys2Proof.Machine.execFastHeartbeatSend s
  | .aliveFault => Sys2Proof.Machine.execAliveFault s
  | .groupRoleInit => Sys2Proof.Machine.execGroupRoleInit s
  | .protGroupEnable req g v => Sys2Proof.Machine.execProtGroupEnable req g v s
  | .roleRelease lane msg => Sys2Proof.Machine.execRoleRelease lane msg s
  | .roleAck lane msg => Sys2Proof.Machine.execRoleAck lane msg s
  | .roleDrained lane msg => Sys2Proof.Machine.execRoleDrained lane msg s
  | .roleAbort lane msg => Sys2Proof.Machine.execRoleAbort lane msg s
  | .switchAckTimeout g => Sys2Proof.Machine.execSwitchAckTimeout g s
  | .switchInstant g => Sys2Proof.Machine.execSwitchInstant g s
  | .drainMaxExpiry g => Sys2Proof.Machine.execDrainMaxExpiry g s
  | .ingressGapExpiry g => Sys2Proof.Machine.execIngressGapExpiry g s
  | .wtrExpiry g => Sys2Proof.Machine.execWtrExpiry g s
  | .boundary slice msg => Sys2Proof.Machine.execBoundary slice msg s
  | .digest lane msg => Sys2Proof.Machine.execDigest lane msg s
  | .testRequest lane msg => Sys2Proof.Machine.execTestRequest lane msg s
  | .sliceSelftest slice pass => Sys2Proof.Machine.execSliceSelftest slice pass s
  | .testResult lane msg => Sys2Proof.Machine.execTestResult lane msg s
  | .testResultTimeout slice => Sys2Proof.Machine.execTestResultTimeout slice s
  | .feltHealth lane msg => Sys2Proof.Machine.execFeltHealth lane msg s
  | .healthSend => Sys2Proof.Machine.execHealthSend s
  | .feltLockRead lane msg => Sys2Proof.Machine.execFeltLockRead lane msg s
  | .feltLockRelease lane msg => Sys2Proof.Machine.execFeltLockRelease lane msg s
  | .feltLockResult lane msg => Sys2Proof.Machine.execFeltLockResult lane msg s
  | .backgroundTest sched buf spare asa => Sys2Proof.Machine.execBackgroundTest sched buf spare asa s
  | .recoveryDone req v => Sys2Proof.Machine.execRecoveryDone req v s
  | .lockstepMismatch pc0 pc1 => Sys2Proof.Machine.execLockstepMismatch pc0 pc1 s
  | .sramUncorrectable addr => Sys2Proof.Machine.execSramUncorrectable addr s
  | .millWatchdog pc0 pc1 => Sys2Proof.Machine.execMillWatchdog pc0 pc1 s
  | .millRestartDone => Sys2Proof.Machine.execMillRestartDone s
  | .sensorSample readings => Sys2Proof.Machine.execSensorSample readings s
  | .logFlashWrite => Sys2Proof.Machine.execLogFlashWrite s
  | .identity src => Sys2Proof.Machine.execIdentity src s
  | .sensors src => Sys2Proof.Machine.execSensors src s
  | .alertRead src => Sys2Proof.Machine.execAlertRead src s
  | .alertWrite src => Sys2Proof.Machine.execAlertWrite src s
  | .alertAck src => Sys2Proof.Machine.execAlertAck src s
  | .smbusAra => Sys2Proof.Machine.execSmbusAra s
  | .logRead src => Sys2Proof.Machine.execLogRead src s
  | .health src => Sys2Proof.Machine.execHealth src s
  | .selftest src failed => Sys2Proof.Machine.execSelftest src failed s
  | .phase src => Sys2Proof.Machine.execPhase src s
  | .domain src => Sys2Proof.Machine.execDomain src s
  | .reset src => Sys2Proof.Machine.execReset src s
  | .spareStart src => Sys2Proof.Machine.execSpareStart src s
  | .spareAuto src => Sys2Proof.Machine.execSpareAuto src s
  | .partitionRead src => Sys2Proof.Machine.execPartitionRead src s
  | .partitionWrite src => Sys2Proof.Machine.execPartitionWrite src s
  | .tagRead src => Sys2Proof.Machine.execTagRead src s
  | .tagWrite src => Sys2Proof.Machine.execTagWrite src s
  | .tagWpRead src => Sys2Proof.Machine.execTagWpRead src s
  | .tagWpSet src => Sys2Proof.Machine.execTagWpSet src s
  | .tagWpClear src => Sys2Proof.Machine.execTagWpClear src s
  | .getFile src file => Sys2Proof.Machine.execGetFile src file s
  | .fwBegin src => Sys2Proof.Machine.execFwBegin src s
  | .fwData src => Sys2Proof.Machine.execFwData src s
  | .fwVerify src signatureOk hashOk => Sys2Proof.Machine.execFwVerify src signatureOk hashOk s
  | .fwActivate src => Sys2Proof.Machine.execFwActivate src s
  | .fwCommit src => Sys2Proof.Machine.execFwCommit src s
  | .debugUnlock src => Sys2Proof.Machine.execDebugUnlock src s
  | .debugLock src => Sys2Proof.Machine.execDebugLock src s
  | .debugExpiry => Sys2Proof.Machine.execDebugExpiry s
  | .millNotice => Sys2Proof.Machine.execMillNotice s
  | .smbBlockWrite off data pecOk => Sys2Proof.Machine.execSmbBlockWrite off data pecOk s
  | .execute b pecOk => Sys2Proof.Machine.execExecute b pecOk s
  | .smbStateRead => Sys2Proof.Machine.execSmbStateRead s
  | .smbReadSetup off count pecOk => Sys2Proof.Machine.execSmbReadSetup off count pecOk s
  | .smbBlockRead => Sys2Proof.Machine.execSmbBlockRead s
  | .perstDeassert rate width flit => Sys2Proof.Machine.execPerstDeassert rate width flit s
  | .modResetRelease => Sys2Proof.Machine.execModResetRelease s
  | .remoteFault port started => Sys2Proof.Machine.execRemoteFault port started s
  | .busMasterEnableSet fn => Sys2Proof.Machine.execBusMasterEnableSet fn s
  | .msixEnable fn intDisable => Sys2Proof.Machine.execMsixEnable fn intDisable s
  | .smbClkLowTimeout => Sys2Proof.Machine.execSmbClkLowTimeout s

end Sys2Proof.Machine
end

