-- ==== Sys2Proof/Safety.lean ====
section
/-!
DEFINITION. Safety.lean: what a safe run of the block is, and the invariants that the statements speak of.
-/
namespace Sys2Proof.Machine

/-- A run of k steps from a state, stopped by no fault and no refusal. -/
def runsFor : Nat → State → Bool
  | 0, _ => true
  | k + 1, s =>
    match step s with
    | .next t => runsFor k t
    | .fault _ => false
    | .refused _ => false

/-- The time counter reads as a count of seconds, nanoseconds and a fraction does (spec/17_time.md R514). -/
def TimeInv (s : State) : Prop := s.tim.sec < 2 ^ 48 ∧ s.tim.ns < 1000000000 ∧ s.tim.frac < 65536

/-- Bytes written to host memory are among what the module has put out, in requests of at most n bytes
(spec/04_host_pcie.md R105). -/
abbrev State.hostWrote (t : State) (f : Fn) (n addr : Nat) (bs : List Byte) : Prop :=
  ∀ e ∈ cutWrite n bs.length addr bs, Out.hostWrite f e.1 e.2 ∈ t.out

/-- The parts of a state, one for each field of State. -/
inductive Part where
  | pending | now | freeCtr | regs | shadow | acc | gen | couch | pf0 | pf1 | pce | rng | hostQ | mbx | sem
  | ing | tab | asa | cmt | replQ | bpm | adm | ddc | qsc | crd | gates | fab | egr | prt | lin | pmn | tim
  | mil | arrivals | out
  deriving DecidableEq, Repr

/-- A part is the same in two states. -/
def Part.same (p : Part) (s t : State) : Prop :=
  match p with
  | .pending => t.pending = s.pending
  | .now => t.now = s.now
  | .freeCtr => t.freeCtr = s.freeCtr
  | .regs => t.regs = s.regs
  | .shadow => t.shadow = s.shadow
  | .acc => t.acc = s.acc
  | .gen => t.gen = s.gen
  | .couch => t.couch = s.couch
  | .pf0 => t.pf0 = s.pf0
  | .pf1 => t.pf1 = s.pf1
  | .pce => t.pce = s.pce
  | .rng => t.rng = s.rng
  | .hostQ => t.hostQ = s.hostQ
  | .mbx => t.mbx = s.mbx
  | .sem => t.sem = s.sem
  | .ing => t.ing = s.ing
  | .tab => t.tab = s.tab
  | .asa => t.asa = s.asa
  | .cmt => t.cmt = s.cmt
  | .replQ => t.replQ = s.replQ
  | .bpm => t.bpm = s.bpm
  | .adm => t.adm = s.adm
  | .ddc => t.ddc = s.ddc
  | .qsc => t.qsc = s.qsc
  | .crd => t.crd = s.crd
  | .gates => t.gates = s.gates
  | .fab => t.fab = s.fab
  | .egr => t.egr = s.egr
  | .prt => t.prt = s.prt
  | .lin => t.lin = s.lin
  | .pmn => t.pmn = s.pmn
  | .tim => t.tim = s.tim
  | .mil => t.mil = s.mil
  | .arrivals => t.arrivals = s.arrivals
  | .out => t.out = s.out

/-- The states differ in no part but those listed. -/
def Frame (ps : List Part) (s t : State) : Prop := ∀ p, p ∉ ps → p.same s t

/-- The register that a row that is a register write writes, and who writes it; none for every other row. -/
def writes : Instr → Option (Req × Reg × Ix)
  | .phaseReqPark req => some (req, .genPhaseCtrl, ix0)
  | .phaseReqRun req => some (req, .genPhaseCtrl, ix0)
  | .phaseReqIsolate req => some (req, .genPhaseCtrl, ix0)
  | .cold req _ => some (req, .genResetCtrl, ix0)
  | .warmQx req _ => some (req, .genResetCtrl, ix0)
  | .domainHold req _ => some (req, .genDomainReset, ix0)
  | .domainRelease req _ => some (req, .genDomainReset, ix0)
  | .ringEnable req r _ => some (req, .rngCfg, ixI r.val)
  | .ringDisable req r _ => some (req, .rngCfg, ixI r.val)
  | .mbxH2mPost i _ => some (.pf0, .mbxH2mPost, ixI i.val)
  | .mbxM2hTake i _ => some (.pf0, .mbxM2hTake, ixI i.val)
  | .mbxModeWrite req i _ => some (req, .mbxMode, ixI i.val)
  | .rel m n => if m == .mate then none else some (m, .semRelease, ixI n.val)
  | .force m n => if m == .mate then none else some (m, .semRelease, ixI n.val)
  | .sliceRun req slice _ => some (req, .linSliceCtrl, ixN slice.val)
  | .sliceStop req slice _ => some (req, .linSliceCtrl, ixN slice.val)
  | .portEnable req port _ => some (req, .linPortCfg, portIx port.val)
  | .flxGroupEnable req n _ => some (req, .flxGroupCfg, ixI n.val)
  | .calReq req n _ => some (req, .flxGroupCfg, ixI n.val)
  | .flxClientEnable req c _ => some (req, .flxClient, ixI c.val)
  | .flxCktEnable req c _ => some (req, .flxCkt, ixI c.val)
  | .copy req _ => some (req, .flxXcCtrl, ix0)
  | .arm req _ => some (req, .flxXcCtrl, ix0)
  | .disarm req _ => some (req, .flxXcCtrl, ix0)
  | .flushStart req _ => some (req, .lkpFlush, ix0)
  | .poisonClr req _ => some (req, .lkpPoisonClr, ix0)
  | .asaBankRun req k _ => some (req, .asaBankCfg, ixI k.val)
  | .asaBankStop req k _ => some (req, .asaBankCfg, ixI k.val)
  | .start req c _ => some (req, .asaSrchCmd, ixI c.val)
  | .next req c _ => some (req, .asaSrchCmd, ixI c.val)
  | .srchEnd req c _ => some (req, .asaSrchCmd, ixI c.val)
  | .tableRead req _ => some (req, .cmtRdCmd, ix0)
  | .ddcRun req _ => some (req, .ddcCtrl, ix0)
  | .spareGo req n _ => some (req, .ddcSpare, ixN n.val)
  | .cntClr req _ => some (req, .ddcCntClr, ix0)
  | .qscRun req _ => some (req, .qscCtrl, ix0)
  | .queueFlushStart req _ => some (req, .qscFlush, ix0)
  | .crdResEnable req r _ => some (req, .crdRes, ixI r.val)
  | .change req port _ => some (req, .tgtCtrl, ixI port.val)
  | .fabMacroRun req n _ => some (req, .fabMacroCtrl, ixN n.val)
  | .timAdjSlew req _ => some (req, .timAdj, ix0)
  | .timAdjStep req _ => some (req, .timAdj, ix0)
  | .timAdjLoad req _ => some (req, .timAdj, ix0)
  | .protGroupEnable req g _ => some (req, .prtGroupCfg, ixI g.val)
  | .recoveryDone req _ => some (req, .prtRecovery, ix0)
  | .pceWinWrite req n _ => some (req, .pceWin, ixI n.val)
  | .applyGo req b inst =>
    ((blockRegs b).find? fun r => applyBlock r == some b).bind fun r =>
      if inst.val < (blockInfo b).count then some (req, r, ixN inst.val) else none
  | .intStatusClear req b inst _ _ =>
    (intRegs b).bind fun r => if inst.val < (blockInfo b).count then some (req, r.1, ixN inst.val) else none
  | _ => none

/-- The parts of the state that a command may change, beside what a register write does before it arrives. -/
def mayChange : Instr → List Part
  | .registerWrite _ _ _ | .rcRegisterRead _ _ _ | .highHalfWrite _ _ _ | .lowHalfRead _ _ | .fxWriteDelivery _
  | .couchRetrainDone | .couchDown | .powerGood _ | .powerFail _ | .thermalTrip _ _ | .phaseReqRun _
  | .warmQxComplete _ | .domainHold _ _ | .domainRelease _ _ | .domainReady _ | .pcieMemRequest _
  | .timeCaptureRead _ | .phase _ | .domain _ | .reset _ =>
    [.freeCtr, .regs, .shadow, .acc, .gen, .couch, .pf0, .pf1, .pce, .rng, .hostQ, .mbx, .sem, .ing, .tab, .asa,
     .cmt, .replQ, .bpm, .adm, .ddc, .qsc, .crd, .gates, .fab, .egr, .prt, .lin, .pmn, .tim, .mil, .arrivals,
     .out]
  | .lowHalfWrite _ _ _ | .ringArm _ => [.freeCtr, .regs, .acc, .pf0, .pf1, .rng, .mil, .out]
  | .rwFieldEffect _ => [.freeCtr, .regs, .acc, .gen, .pf0, .pf1, .rng, .sem, .fab, .prt, .pmn, .tim, .mil, .out]
  | .applyGo _ _ _ => [.acc]
  | .stagedApply _ _ =>
    [.freeCtr, .regs, .shadow, .acc, .gen, .pf0, .pf1, .rng, .sem, .qsc, .crd, .fab, .prt, .lin, .tim, .mil,
     .out]
  | .intStatusClear _ _ _ _ _ | .trieRebuild _ => [.regs, .pf0, .pf1, .rng, .tab, .mil, .out]
  | .msixUnmask _ _ | .msixEnable _ _ => [.pf0, .pf1, .out]
  | .packetDispatch _ _ _ => [.regs, .couch, .ing, .arrivals]
  | .couchUnitReceive _ _ =>
    [.regs, .acc, .couch, .pf0, .pf1, .rng, .hostQ, .bpm, .adm, .qsc, .egr, .prt, .lin, .mil, .out]
  | .couchRetrain => [.regs, .couch, .pf0, .pf1, .rng, .mil, .out]
  | .lastGaspEntry _ | .smbusAra | .smbBlockRead => [.mil, .out]
  | .railsOff | .regulatorsSequenced | .modReset | .cold _ _ | .modResetRelease =>
    [.regs, .shadow, .acc, .gen, .couch, .pf0, .pf1, .pce, .rng, .hostQ, .mbx, .sem, .ing, .tab, .asa, .cmt,
     .replQ, .bpm, .adm, .ddc, .qsc, .crd, .gates, .fab, .egr, .prt, .lin, .pmn, .tim, .mil, .arrivals, .out]
  | .heartbeatStrobe | .watchdogStrobesMissed => [.gen]
  | .matePresentChange => [.regs, .gen, .pf0, .pf1, .rng, .sem, .mil, .out]
  | .aliveInChange | .selftestPass | .selftestFail _ _ | .phaseReqIsolate _ | .reach | .reachTimeout _ _
  | .sprayRejoin _ | .heartbeat | .heartbeatLost _ | .feltHeartbeat _ _ | .feltPathLost | .aliveFault
  | .groupRoleInit | .roleDrained _ _ | .roleAbort _ _ | .switchAckTimeout _ | .sliceSelftest _ _
  | .testResult _ _ | .recoveryDone _ _ =>
    [.freeCtr, .regs, .gen, .pf0, .pf1, .rng, .sem, .fab, .prt, .tim, .mil, .out]
  | .imageVerify _ _ =>
    [.freeCtr, .regs, .gen, .pf0, .pf1, .pce, .rng, .sem, .tab, .fab, .prt, .lin, .pmn, .tim, .mil, .out]
  | .initComplete _ => [.regs, .gen, .pf0, .pf1, .rng, .bpm, .ddc, .qsc, .prt, .mil, .out]
  | .phaseReqPark _ =>
    [.freeCtr, .regs, .gen, .couch, .pf0, .pf1, .rng, .hostQ, .sem, .ing, .replQ, .bpm, .adm, .qsc, .fab, .egr,
     .prt, .lin, .pmn, .tim, .mil, .arrivals, .out]
  | .warmQx _ _ =>
    [.freeCtr, .regs, .shadow, .acc, .gen, .couch, .pf0, .pf1, .rng, .hostQ, .sem, .replQ, .bpm, .adm, .qsc,
     .crd, .gates, .fab, .prt, .lin, .tim, .mil, .out]
  | .perstAssert | .dlDown => [.regs, .acc, .gen, .pf0, .pf1, .pce, .rng, .mbx, .sem, .cmt, .mil, .out]
  | .hotReset _ _ _ => [.freeCtr, .regs, .acc, .gen, .pf0, .pf1, .pce, .rng, .mbx, .sem, .cmt, .mil, .out]
  | .flr _ | .d0Transition _ => [.regs, .acc, .pf0, .pf1, .pce, .rng, .mbx, .sem, .cmt, .mil, .out]
  | .flrComplete _ | .busMasterEnableSet _ => [.pf0, .pf1]
  | .d3hotEntry _ | .bmeClear _ => [.regs, .pf0, .pf1, .pce, .rng, .mbx, .cmt, .mil, .out]
  | .pcieLaneFail _ | .dmaSlotAvailable _ => [.regs, .pf0, .pf1, .pce, .rng, .mil, .out]
  | .peerWindowAccess _ | .spareGo _ _ _ => [.regs, .acc, .pf0, .pf1, .rng, .ddc, .mil, .out]
  | .pceWinWrite _ _ _ | .ringEnable _ _ _ | .feltHealth _ _ | .backgroundTest _ _ _ _ | .sensorSample _
  | .logFlashWrite | .remoteFault _ _ => [.regs, .pf0, .pf1, .rng, .mil, .out]
  | .pcieCompletion _ _ | .completionTimeout _ | .ringDisable _ _ _ =>
    [.regs, .pf0, .pf1, .pce, .rng, .cmt, .mil, .out]
  | .pcieTagGrant _ => [.pce, .rng, .out]
  | .hwmWindowRead _ _ => [.freeCtr, .regs, .acc, .pf0, .pf1, .rng, .qsc, .mil, .out]
  | .ringDoorbell _ _ => [.freeCtr, .regs, .acc, .pf0, .pf1, .pce, .rng, .cmt, .mil, .out]
  | .ringDrained _ => [.rng]
  | .ringCoalTimer _ => [.pf0, .pf1, .rng, .out]
  | .txDescriptor _ _ _ => [.regs, .pf0, .pf1, .pce, .rng, .bpm, .mil, .arrivals, .out]
  | .rxPacketDeliver _ _ _ => [.regs, .pf0, .pf1, .rng, .hostQ, .bpm, .mil, .out]
  | .mbxH2mPost _ _ | .millAnswer _ | .mbxM2hTake _ _ | .mbxTimeout _ _ | .mbxModeWrite _ _ _ | .health _
  | .selftest _ _ | .tagWrite _ => [.regs, .pf0, .pf1, .rng, .mbx, .mil, .out]
  | .millTakeNotice _ _ _ => [.regs, .pf0, .pf1, .pce, .rng, .mbx, .mil, .out]
  | .semLockRead _ _ _ => [.freeCtr, .regs, .acc, .pf0, .pf1, .rng, .sem, .mil, .out]
  | .rel _ _ | .force _ _ | .feltLockRelease _ _ => [.regs, .sem]
  | .sliceRun _ _ _ | .sliceStop _ _ _ | .flxGroupEnable _ _ _ | .calReq _ _ _ =>
    [.freeCtr, .regs, .shadow, .acc, .gen, .pf0, .pf1, .rng, .sem, .fab, .prt, .lin, .pmn, .tim, .mil, .out]
  | .portEnable _ _ _ | .flxCktEnable _ _ _ | .copy _ _ | .arm _ _ | .disarm _ _ | .asaBankRun _ _ _
  | .asaBankStop _ _ _ | .next _ _ _ | .qscRun _ _ => [.regs, .shadow, .acc, .pf0, .pf1, .rng, .mil, .out]
  | .portLinkUp _ | .calendarSwitch _ | .calFail _ | .xcPageSwitch _ | .playoutTurn _ _ _ =>
    [.regs, .pf0, .pf1, .rng, .lin, .mil, .out]
  | .frameReceive _ _ _ => [.regs, .lin, .arrivals]
  | .pfcReceive _ _ _ | .pfcPauseExpiry _ _ | .copyDone | .idleClr _ _ | .gateEvent _ => [.regs]
  | .pfcXoffRepeat _ _ | .feltLockResult _ _ => [.regs, .out]
  | .flxClientEnable _ _ _ => [.regs, .shadow, .acc, .pf0, .pf1, .rng, .pmn, .mil, .out]
  | .losDeclare _ | .loaDeclare _ =>
    [.freeCtr, .regs, .gen, .pf0, .pf1, .rng, .sem, .fab, .prt, .lin, .pmn, .tim, .mil, .out]
  | .groupFail _ | .clientFail _ | .defectClear _ | .sdPeriodEnd _ _ _ _ | .holdOffExpiry _ _
  | .markerReceive _ _ _ | .searchWindowEnd _ =>
    [.freeCtr, .regs, .gen, .pf0, .pf1, .rng, .sem, .fab, .prt, .pmn, .tim, .mil, .out]
  | .pmSecondEnd _ | .pmSecondCommit => [.regs, .pf0, .pf1, .rng, .pmn, .mil, .out]
  | .parseStart _ _ | .nop _ _ | .ldw _ _ | .alu _ _ | .adv _ _ | .hdr _ _ | .key _ _ | .keyr _ _ | .br _ _
  | .jmp _ _ | .chk _ _ | .trim _ _ | .movs _ _ | .flag _ _ | .brw _ _ | .dec _ _ | .done _ _ =>
    [.regs, .couch, .pf0, .pf1, .rng, .ing, .tab, .cmt, .prt, .mil, .out]
  | .parseStepLimit _ => [.regs, .couch, .pf0, .pf1, .rng, .ing, .prt, .mil, .out]
  | .parseResultDelivery _ => [.ing]
  | .keyBuild _ _ | .routeLookup _ _ _ _ _ => [.regs, .pf0, .pf1, .rng, .ing, .tab, .cmt, .mil, .out]
  | .exactMatchLookup _ _ _ _ => [.freeCtr, .regs, .pf0, .pf1, .rng, .ing, .tab, .cmt, .mil, .out]
  | .asaSearch _ _ _ => [.regs, .pf0, .pf1, .rng, .ing, .tab, .asa, .cmt, .mil, .out]
  | .forwardingDecision _ _ _ => [.freeCtr, .regs, .couch, .pf0, .pf1, .rng, .ing, .tab, .cmt, .prt, .mil, .out]
  | .learnInsert | .flushComplete _ => [.regs, .couch, .pf0, .pf1, .rng, .tab, .mil, .out]
  | .ageVisit _ _ => [.couch, .tab]
  | .flushStart _ _ | .poisonClr _ _ => [.regs, .shadow, .acc, .pf0, .pf1, .rng, .tab, .mil, .out]
  | .replicatorExpand _ _ => [.regs, .pf0, .pf1, .rng, .tab, .cmt, .replQ, .bpm, .qsc, .lin, .mil, .out]
  | .dandyScanCheck _ _ => [.freeCtr, .regs, .pf0, .pf1, .rng, .tab, .asa, .cmt, .mil, .out]
  | .digestRecompute _ => [.tab]
  | .start _ _ _ | .srchEnd _ _ _ => [.regs, .shadow, .acc, .pf0, .pf1, .rng, .asa, .mil, .out]
  | .asaSearchStep _ _ => [.regs, .pf0, .pf1, .rng, .tab, .asa, .cmt, .mil, .out]
  | .asaPinExpiry _ => [.regs, .pf0, .pf1, .rng, .asa, .mil, .out]
  | .asaOriginalFree _ => [.asa, .cmt]
  | .write _ _ _ | .retire _ _ | .emAdd _ _ | .emDel _ _ | .move _ _ => [.pf0, .pf1, .pce, .rng, .cmt, .out]
  | .commit _ _ _ _ => [.freeCtr, .regs, .pf0, .pf1, .pce, .rng, .cmt, .mil, .out]
  | .reamAbandon | .drainWait => [.regs, .pf0, .pf1, .rng, .cmt, .mil, .out]
  | .commitInstant => [.regs, .pf0, .pf1, .pce, .rng, .tab, .asa, .cmt, .out]
  | .reamDrained => [.cmt]
  | .settlement => [.tab, .asa, .cmt]
  | .tableRead _ _ => [.regs, .shadow, .acc, .pf0, .pf1, .rng, .cmt, .mil, .out]
  | .tableReadDone => [.freeCtr, .regs, .cmt]
  | .alloc _ _ | .bufRef _ _ _ _ | .bufReturn _ _ | .refill _ => [.regs, .pf0, .pf1, .rng, .bpm, .mil, .out]
  | .bufUse _ _ | .cacheIdleReturn _ | .refillRetryExpiry _ => [.bpm]
  | .bufDec _ _ => [.regs, .pf0, .pf1, .rng, .bpm, .lin, .mil, .out]
  | .admission => [.regs, .pf0, .pf1, .rng, .replQ, .bpm, .adm, .ddc, .qsc, .lin, .mil, .out]
  | .deepEvict _ _ | .partialPageTimer _ _ | .deepRefill _ | .queueFlushDone | .voqDequeue _
  | .unreachHoldExpiry _ _ => [.regs, .pf0, .pf1, .rng, .bpm, .adm, .qsc, .fab, .lin, .mil, .out]
  | .deepPageWritten _ => [.regs, .pf0, .pf1, .rng, .bpm, .adm, .ddc, .qsc, .lin, .mil, .out]
  | .dramRead _ _ _ => [.regs, .pf0, .pf1, .rng, .ddc, .qsc, .mil, .out]
  | .setRetrain _ | .spareCopyDone _ _ | .spareTest _ _ _ => [.regs, .pf0, .pf1, .rng, .ddc, .mil, .out]
  | .ddcRun _ _ => [.regs, .shadow, .acc, .pf0, .pf1, .rng, .bpm, .ddc, .qsc, .mil, .out]
  | .cntClr _ _ => [.regs, .shadow, .acc, .pf0, .pf1, .rng, .ddc, .mil, .out]
  | .queueFlushStart _ _ => [.regs, .shadow, .acc, .pf0, .pf1, .rng, .qsc, .mil, .out]
  | .creditRequest _ | .grant | .defer => [.qsc, .fab]
  | .requestArrival => [.regs, .pf0, .pf1, .rng, .crd, .fab, .mil, .out]
  | .creditSlot => [.regs, .crd, .fab]
  | .deferBackoffExpiry _ => [.qsc]
  | .reqTimeout _ => [.regs, .pf0, .pf1, .rng, .qsc, .mil, .out]
  | .creditReturnReceive | .timeDreq => [.regs, .fab]
  | .crdResEnable _ _ _ => [.regs, .shadow, .acc, .pf0, .pf1, .rng, .crd, .mil, .out]
  | .egressEnqueue => [.regs, .pf0, .pf1, .rng, .bpm, .adm, .qsc, .lin, .mil, .out]
  | .schedulerSelection _ _ => [.regs, .couch, .pf0, .pf1, .rng, .bpm, .adm, .qsc, .fab, .prt, .lin, .mil, .out]
  | .change _ _ _ => [.regs, .shadow, .acc, .pf0, .pf1, .rng, .gates, .mil, .out]
  | .gateListSwitch _ => [.regs, .pf0, .pf1, .rng, .bpm, .adm, .qsc, .gates, .fab, .lin, .mil, .out]
  | .fabMacroRun _ _ _ =>
    [.freeCtr, .regs, .shadow, .acc, .gen, .pf0, .pf1, .rng, .sem, .fab, .prt, .pmn, .tim, .mil, .out]
  | .cellReceive _ _ => [.regs, .pf0, .pf1, .rng, .fab, .mil, .out]
  | .advert | .seqRestart _ _ | .heartbeatSend | .fastHeartbeatSend => [.fab]
  | .cellTransmit _ => [.fab, .tim, .out]
  | .dataCell | .reorderTimeout _ | .reorderIdle _ => [.regs, .pf0, .pf1, .rng, .bpm, .adm, .fab, .mil, .out]
  | .slotCell => [.regs, .pf0, .pf1, .rng, .fab, .lin, .mil, .out]
  | .egressProcess _ _ _ _ _ =>
    [.freeCtr, .regs, .couch, .pf0, .pf1, .rng, .ing, .tab, .asa, .cmt, .bpm, .adm, .qsc, .egr, .prt, .lin,
     .mil, .arrivals, .out]
  | .ppsEdge _ | .ppsLoss | .timeExchangeTimeout => [.freeCtr, .regs, .pf0, .pf1, .rng, .tim, .mil, .out]
  | .todMessage _ _ => [.regs, .pf0, .pf1, .rng, .tim, .mil, .out]
  | .ppsOut | .todSend | .smbStateRead | .smbClkLowTimeout => [.out]
  | .servoMeasurement => [.freeCtr, .regs, .pf0, .pf1, .rng, .gates, .pmn, .tim, .mil, .out]
  | .timeDreqSend | .timeDresp => [.fab, .tim]
  | .timeSync => [.freeCtr, .regs, .pf0, .pf1, .rng, .fab, .tim, .mil, .out]
  | .timAdjSlew _ _ | .timAdjStep _ _ | .timAdjLoad _ _ => [.regs, .pf0, .pf1, .rng, .gates, .pmn, .tim, .mil, .out]
  | .ref10mChange => [.tim]
  | .feltHeartbeatSend | .healthSend => [.prt, .out]
  | .protGroupEnable _ _ _ =>
    [.freeCtr, .regs, .shadow, .acc, .gen, .pf0, .pf1, .rng, .sem, .fab, .prt, .tim, .mil, .out]
  | .roleRelease _ _ => [.regs, .prt, .out]
  | .roleAck _ _ | .testRequest _ _ => [.regs, .prt]
  | .switchInstant _ | .drainMaxExpiry _ =>
    [.freeCtr, .regs, .gen, .pf0, .pf1, .rng, .sem, .bpm, .adm, .qsc, .fab, .prt, .lin, .tim, .mil, .out]
  | .ingressGapExpiry _ => [.prt]
  | .wtrExpiry _ | .digest _ _ | .testResultTimeout _ => [.regs, .pf0, .pf1, .rng, .prt, .mil, .out]
  | .boundary _ _ => [.regs, .pf0, .pf1, .rng, .prt, .lin, .mil, .out]
  | .feltLockRead _ _ => [.regs, .sem, .prt, .out]
  | .lockstepMismatch _ _ | .sramUncorrectable _ | .millWatchdog _ _ | .fwActivate _ =>
    [.regs, .shadow, .acc, .gen, .pf0, .pf1, .rng, .mbx, .sem, .mil, .out]
  | .millRestartDone => [.regs, .gen, .pf0, .pf1, .rng, .mil, .out]
  | .identity _ | .sensors _ | .alertRead _ | .logRead _ | .partitionRead _ | .tagRead _ | .tagWpRead _
  | .getFile _ _ => [.mbx]
  | .alertWrite _ | .alertAck _ | .fwVerify _ _ _ | .fwCommit _ => [.mbx, .mil, .out]
  | .spareStart _ => [.regs, .acc, .pf0, .pf1, .rng, .mbx, .ddc, .mil, .out]
  | .spareAuto _ | .partitionWrite _ | .tagWpSet _ | .tagWpClear _ | .fwBegin _ | .fwData _ | .debugUnlock _ =>
    [.mbx, .mil]
  | .debugLock _ => [.regs, .pf0, .pf1, .rng, .mbx, .sem, .mil, .out]
  | .debugExpiry => [.regs, .pf0, .pf1, .rng, .sem, .mil, .out]
  | .millNotice => [.freeCtr, .regs, .pf0, .pf1, .rng, .mbx, .mil, .out]
  | .smbBlockWrite _ _ _ | .smbReadSetup _ _ _ => [.regs, .mil]
  | .execute _ _ => [.regs, .mbx, .mil]
  | .perstDeassert _ _ _ => [.freeCtr, .regs, .gen, .pf0, .pf1, .pce, .rng, .mil, .out]

/-- The keys of a table rise strictly. -/
def rises {α : Type} : List (Nat × α) → Bool
  | [] => true
  | [_] => true
  | e :: f :: t => e.1 < f.1 && rises (f :: t)

/-- The registers in force and their shadow copies are tables in rising order of their addresses, which makes equal
register files equal data. -/
def RegsInv (s : State) : Prop := rises s.regs = true ∧ rises s.shadow = true

/-- Addresses rise strictly, and no byte is one that an unlisted address reads as. -/
def bytesWf : List (Nat × Byte) → Bool
  | [] => true
  | [e] => e.2 != 0
  | e :: f :: t => e.2 != 0 && e.1 < f.1 && bytesWf (f :: t)

/-- The window partition of deep memory is in its canonical form (spec/13_memory.md R402: an unwritten byte reads 0). -/
def WinInv (s : State) : Prop := bytesWf s.ddc.win = true

/-! ## What statements about packets say -/

/-- Engine e holds packet p at the instruction word w of its parse program, and the word is good (spec/08_parser.md
R226, R229, R233). -/
def ParsesAt (e : Nat) (p : Pkt) (w : Nat) (s : State) : Prop :=
  s.gen.phase ≠ .isolate ∧ s.gen.phase ≠ .park ∧ s.ing.pkts.find? (inEngine e) = some p ∧ p.eng.steps < 96 ∧ p.eng.pc < 8192 ∧
    ∃ n v, s.verIdx (tkey tStore (8192 * p.slice + p.eng.pc)) (p.ream % 16) = some (n, v) ∧ v.bad = false ∧ v.img = w

/-- The packet that arrived as p did is in the pipelines, and its engine's state is x. -/
def EngineIs (p : Pkt) (x : EngSt) (t : State) : Prop := ∃ q ∈ t.ing.pkts, q.arr = p.arr ∧ q.eng = x

/-- The packet that arrived as p did is in the pipelines, and its parse has ended so. -/
def ParseEnded (p : Pkt) (x : ParseEnd) (t : State) : Prop := ∃ q ∈ t.ing.pkts, q.arr = p.arr ∧ q.fin = some x

/-- The packet that arrived as p did is in the pipelines, and a lookup of it has this answer. -/
def Answered (p : Pkt) (a : LkAns) (t : State) : Prop := ∃ q ∈ t.ing.pkts, q.arr = p.arr ∧ a ∈ q.ans

/-- The kind of what waits from the fabric: a data, slot or link cell, or a message by its MTYPE (spec/15_fabric.md R463,
R474). -/
def rxKind : RxCell → Nat
  | .data _ => 9
  | .slot _ _ _ _ _ _ => 10
  | .link _ _ => 11
  | .msg _ m _ =>
    match m with
    | .request _ _ _ _ => 1
    | .grant _ _ _ _ _ => 2
    | .defer _ _ _ _ _ => 3
    | .creditReturn _ _ _ => 4
    | .heartbeat _ _ _ => 5
    | .timeSync _ _ => 6
    | .timeDreq _ _ => 7
    | .timeDresp _ _ => 8

/-- c is the oldest of its kind that has arrived from the fabric, and u is the state in which it is taken. -/
def Oldest (c : RxCell) (s u : State) : Prop :=
  ∃ before after, s.fab.rx = before ++ c :: after ∧ (∀ x ∈ before, rxKind x ≠ rxKind c) ∧
    u = { s with fab := { s.fab with rx := before ++ after } }

/-- A sound felt message of a type arrives on a locked lane (spec/18_protection.md R537, R538). -/
def FeltIs (lane : Fin 4) (msg : List Byte) (mtype : Nat) (s : State) : Prop :=
  s.laneLocked lane.val = true ∧ msg.length = 128 ∧
    beNat (bytesAt msg 124 4) = crc32c 0xFFFFFFFF (msg.take 124) ∧ beNat (bytesAt msg 0 1) = mtype

/-- The felt path is up, a lane of it is locked, and the module is not about to leave. -/
def PairUp (s : State) : Prop := s.prt.felt = true ∧ s.lockedLanes ≠ [] ∧ s.prt.leaving = none

/-- A command block of an opcode is the oldest that the Mill holds from a source, unanswered; the source may send it, its
LENGTH covers `need` bytes after the header, and an image of the Mill runs (spec/19_mill.md R573, R574,
spec/05_rings_mailboxes_locks.md R161). -/
def Asks (src : MillSrc) (op need : Nat) (b : List Byte) (s : State) : Prop :=
  ∃ pre x post, s.mbx.slots = pre ++ x :: post ∧ (∀ y ∈ pre, y.src ≠ src) ∧ x.src = src ∧ x.done = false ∧
    x.abandoned = false ∧ x.block = b ∧ blockOpcode b = op ∧ 16 + need ≤ blockLength b ∧ s.mil.ready = true ∧
    (isSmbus src = true → smbusMay op = true)

/-- The Mill has finished a source's command block with an answer (R573). -/
def Replied (src : MillSrc) (b : List Byte) (a : Answer) (t : State) : Prop :=
  ∃ x ∈ t.mbx.slots, x.src = src ∧ x.block = b ∧ x.done = true ∧ x.status = BitVec.ofNat 8 a.status ∧
    x.detail = BitVec.ofNat 24 a.detail ∧ x.resp = a.resp

end Sys2Proof.Machine
end

