-- ==== Sys2Proof/WellFormed.lean ====
section
/-!
DEFINITION. WellFormed.lean: what a command's operands must look like for it to be a thing that can happen: an aligned
register offset, a request with the data its length says, a whole felt message, a whole marker. exec gives every
command a meaning all the same.
-/
namespace Sys2Proof

/-- A register's offset is a multiple of 8 (spec/00_scope.md R12). -/
def offOk (off : BitVec 28) : Bool := off.toNat % 8 == 0

/-- A request TLP asks for at least a byte; a write brings its data and a read brings none; bytes that are not enabled
are bytes of it (spec/04_host_pcie.md R109). -/
def tlpOk (t : Tlp) : Bool :=
  0 < t.len && t.len ≤ 4096 && t.disabled.all (· < t.len)
    && (if t.kind == .write then t.data.length == t.len else t.data.isEmpty)

/-- A TX chain has a descriptor (spec/05_rings_mailboxes_locks.md R147). -/
def chainOk (chain : List TxDesc) : Bool := !chain.isEmpty

/-- A felt message is 128 bytes (spec/18_protection.md R537). -/
def feltOk (msg : List Byte) : Bool := msg.length == 128

/-- A descriptor's image has the bytes that its LEN says, or is DATA itself (spec/11_reams.md R333). -/
def descOk (d : ChgDesc) : Bool := d.inline || d.image.length == d.len.toNat

/-- No entity twice in a second's counts. -/
def countsOk (cs : List SecondBlocks) : Bool := (cs.map fun c => c.ent.val).Nodup

/-- The check of a command's operands. -/
def Instr.wellFormed : Instr → Bool
  | .registerWrite _ off _ => offOk off
  | .rcRegisterRead _ off _ => offOk off
  | .lowHalfWrite _ off _ => offOk off
  | .highHalfWrite _ off _ => offOk off
  | .lowHalfRead _ off => offOk off
  | .rwFieldEffect off => offOk off
  | .pcieMemRequest t => tlpOk t
  | .peerWindowAccess t => tlpOk t && t.fn == .pf0 && t.bar2
  | .hwmWindowRead fn off => fn == .pf1 && off.toNat % 8 == 0
  | .txDescriptor _ chain _ => chainOk chain
  | .semLockRead _ readers _ => readers.Nodup
  | .pfcReceive _ _ quanta => quanta.length == 8
  | .pmSecondEnd counts => countsOk counts
  | .write _ _ d => descOk d
  | .emAdd _ d => descOk d
  | .emDel _ d => descOk d
  | .markerReceive _ _ marker => marker.length == 15
  | .cellReceive _ cell => 12 ≤ cell.length && cell.length ≤ 464
  | .feltHeartbeat _ msg => feltOk msg
  | .roleRelease _ msg => feltOk msg
  | .roleAck _ msg => feltOk msg
  | .roleDrained _ msg => feltOk msg
  | .roleAbort _ msg => feltOk msg
  | .digest _ msg => feltOk msg
  | .testRequest _ msg => feltOk msg
  | .testResult _ msg => feltOk msg
  | .feltHealth _ msg => feltOk msg
  | .feltLockRead _ msg => feltOk msg
  | .feltLockRelease _ msg => feltOk msg
  | .feltLockResult _ msg => feltOk msg
  | .fxWriteDelivery _ | .applyGo _ _ _ | .stagedApply _ _ | .intStatusClear _ _ _ _ _ | .msixUnmask _ _
  | .packetDispatch _ _ _ | .couchUnitReceive _ _ | .couchRetrain | .couchRetrainDone | .couchDown
  | .powerGood _ | .powerFail _ | .lastGaspEntry _ | .railsOff | .thermalTrip _ _ | .heartbeatStrobe
  | .watchdogStrobesMissed | .matePresentChange | .aliveInChange | .regulatorsSequenced | .imageVerify _ _
  | .initComplete _ | .selftestPass | .selftestFail _ _ | .phaseReqPark _ | .phaseReqRun _ | .phaseReqIsolate _
  | .modReset | .cold _ _ | .warmQx _ _ | .warmQxComplete _ | .domainHold _ _ | .domainRelease _ _
  | .domainReady _ | .perstAssert | .hotReset _ _ _ | .dlDown | .flr _ | .flrComplete _ | .d3hotEntry _
  | .d0Transition _ | .bmeClear _ | .pcieLaneFail _ | .pceWinWrite _ _ _ | .pcieCompletion _ _
  | .completionTimeout _ | .pcieTagGrant _ | .ringDoorbell _ _ | .ringEnable _ _ _ | .ringDisable _ _ _
  | .ringDrained _ | .ringArm _ | .ringCoalTimer _ | .dmaSlotAvailable _ | .rxPacketDeliver _ _ _
  | .mbxH2mPost _ _ | .millTakeNotice _ _ _ | .millAnswer _ | .mbxM2hTake _ _ | .mbxTimeout _ _
  | .mbxModeWrite _ _ _ | .rel _ _ | .force _ _ | .sliceRun _ _ _ | .sliceStop _ _ _ | .portEnable _ _ _
  | .portLinkUp _ | .frameReceive _ _ _ | .pfcPauseExpiry _ _ | .pfcXoffRepeat _ _ | .flxGroupEnable _ _ _
  | .calReq _ _ _ | .calendarSwitch _ | .calFail _ | .flxClientEnable _ _ _ | .flxCktEnable _ _ _ | .copy _ _
  | .copyDone | .arm _ _ | .disarm _ _ | .xcPageSwitch _ | .losDeclare _ | .loaDeclare _ | .groupFail _
  | .clientFail _ | .defectClear _ | .sdPeriodEnd _ _ _ _ | .holdOffExpiry _ _ | .pmSecondCommit
  | .parseStart _ _ | .nop _ _ | .ldw _ _ | .alu _ _ | .adv _ _ | .hdr _ _ | .key _ _ | .keyr _ _ | .br _ _
  | .jmp _ _ | .chk _ _ | .trim _ _ | .movs _ _ | .flag _ _ | .brw _ _ | .dec _ _ | .done _ _
  | .parseStepLimit _ | .parseResultDelivery _ | .keyBuild _ _ | .exactMatchLookup _ _ _ _
  | .routeLookup _ _ _ _ _ | .asaSearch _ _ _ | .forwardingDecision _ _ _ | .learnInsert | .ageVisit _ _
  | .flushStart _ _ | .flushComplete _ | .replicatorExpand _ _ | .dandyScanCheck _ _ | .trieRebuild _
  | .digestRecompute _ | .poisonClr _ _ | .asaBankRun _ _ _ | .asaBankStop _ _ _ | .start _ _ _ | .next _ _ _
  | .srchEnd _ _ _ | .asaSearchStep _ _ | .asaPinExpiry _ | .asaOriginalFree _ | .retire _ _ | .move _ _
  | .commit _ _ _ _ | .reamAbandon | .commitInstant | .drainWait | .reamDrained | .settlement | .tableRead _ _
  | .tableReadDone | .alloc _ _ | .bufUse _ _ | .bufRef _ _ _ _ | .bufDec _ _ | .bufReturn _ _
  | .cacheIdleReturn _ | .refill _ | .refillRetryExpiry _ | .admission | .deepEvict _ _ | .partialPageTimer _ _
  | .deepPageWritten _ | .deepRefill _ | .dramRead _ _ _ | .setRetrain _ | .ddcRun _ _ | .spareGo _ _ _
  | .spareCopyDone _ _ | .spareTest _ _ _ | .cntClr _ _ | .qscRun _ _ | .queueFlushStart _ _ | .queueFlushDone
  | .creditRequest _ | .requestArrival | .creditSlot | .grant | .defer | .deferBackoffExpiry _ | .reqTimeout _
  | .voqDequeue _ | .creditReturnReceive | .idleClr _ _ | .crdResEnable _ _ _ | .egressEnqueue
  | .schedulerSelection _ _ | .gateEvent _ | .change _ _ _ | .gateListSwitch _ | .fabMacroRun _ _ _
  | .searchWindowEnd _ | .advert | .reach | .reachTimeout _ _ | .sprayRejoin _ | .cellTransmit _
  | .unreachHoldExpiry _ _ | .dataCell | .reorderTimeout _ | .reorderIdle _ | .seqRestart _ _ | .heartbeatSend
  | .heartbeat | .heartbeatLost _ | .slotCell | .playoutTurn _ _ _ | .egressProcess _ _ _ _ _ | .ppsEdge _
  | .todMessage _ _ | .ppsLoss | .ppsOut | .todSend | .servoMeasurement | .timeDreqSend | .timeDreq | .timeDresp
  | .timeSync | .timeExchangeTimeout | .timAdjSlew _ _ | .timAdjStep _ _ | .timAdjLoad _ _ | .timeCaptureRead _
  | .ref10mChange | .feltHeartbeatSend | .feltPathLost | .fastHeartbeatSend | .aliveFault | .groupRoleInit
  | .protGroupEnable _ _ _ | .switchAckTimeout _ | .switchInstant _ | .drainMaxExpiry _ | .ingressGapExpiry _
  | .wtrExpiry _ | .boundary _ _ | .sliceSelftest _ _ | .testResultTimeout _ | .healthSend
  | .backgroundTest _ _ _ _ | .recoveryDone _ _ | .lockstepMismatch _ _ | .sramUncorrectable _
  | .millWatchdog _ _ | .millRestartDone | .sensorSample _ | .logFlashWrite | .identity _ | .sensors _
  | .alertRead _ | .alertWrite _ | .alertAck _ | .smbusAra | .logRead _ | .health _ | .selftest _ _ | .phase _
  | .domain _ | .reset _ | .spareStart _ | .spareAuto _ | .partitionRead _ | .partitionWrite _ | .tagRead _
  | .tagWrite _ | .tagWpRead _ | .tagWpSet _ | .tagWpClear _ | .getFile _ _ | .fwBegin _ | .fwData _
  | .fwVerify _ _ _ | .fwActivate _ | .fwCommit _ | .debugUnlock _ | .debugLock _ | .debugExpiry | .millNotice
  | .smbBlockWrite _ _ _ | .execute _ _ | .smbStateRead | .smbReadSetup _ _ _ | .smbBlockRead
  | .perstDeassert _ _ _ | .modResetRelease | .remoteFault _ _ | .busMasterEnableSet _ | .msixEnable _ _
  | .smbClkLowTimeout => true

end Sys2Proof
end

