-- ==== Sys2Proof/Certificates/Slice0/Obligations.lean ====
section
/-!
DEFINITION. Certificates/Slice0/Obligations.lean: the statements for the provers. In a statement about a command that is
a register write, `s.arrives req r ix` says that the write reaches its block and `s.arrived req r ix` is the state in
which it is judged (Machine/RegAccess.lean).
-/

open Sys2Proof Sys2Proof.Machine Fld

/-- The front command runs with the queue's rest. -/
def Obligations.StepRunsFront : Prop :=
  ∀ (c : Instr) (rest : List Instr) (s : State),
    step { s with pending := c :: rest } = exec c { s with pending := rest }

/-- With nothing waiting, a step lets one tick of 0.2 ns pass, and no command runs: the queue stays empty. What time
does in the meantime is the model's choice (log entry 10). -/
def Obligations.IdleStepIsOneTick : Prop :=
  ∀ (s : State), s.pending = [] → ∃ t, step s = .next t ∧ t.pending = [] ∧ t.now = s.now + 1

/-- Every command, in every state, answers a next state; no command touches the queue or the instant. What the module
has put out is never taken back, and a free value is never used twice: the count of free values used only grows (the
free values themselves are the model's, log entry 3). -/
def Obligations.EveryCommandCompletes : Prop :=
  (∀ (c : Instr) (s : State), ∃ t, exec c s = .next t ∧ t.pending = s.pending ∧ t.now = s.now) ∧
  (∀ (c : Instr) (s t : State), exec c s = .next t → s.out <:+ t.out ∧ s.freeCtr ≤ t.freeCtr)

/-- Every step keeps the time counter a count of seconds, nanoseconds and a fraction of 16 bits (R514). -/
def Obligations.StepKeepsTimeCounterInRange : Prop :=
  ∀ (s t : State), TimeInv s → step s = .next t → TimeInv t

/-- Every step keeps the register file and the shadow copies tables in rising order of addresses, so that equal register
files are equal data. -/
def Obligations.StepKeepsRegisterFilesCanonical : Prop :=
  ∀ (s t : State), RegsInv s → step s = .next t → RegsInv t

/-- Every step keeps the window partition of deep memory in its one canonical form: addresses rise, and no byte is
listed that an unlisted address reads as (R402). -/
def Obligations.StepKeepsWindowMemoryCanonical : Prop :=
  ∀ (s t : State), WinInv s → step s = .next t → WinInv t

/-- The three invariants hold right after reset. -/
def Obligations.ResetMeetsInvariants : Prop :=
  TimeInv State.reset ∧ RegsInv State.reset ∧ WinInv State.reset

/-! ## Registers, spec/00_scope.md -/

/-- The frame of every command: a command changes no part of the state but those `mayChange` lists for it. A row that is
a register write changes no other part of the state in which it is judged. -/
def Obligations.CommandsChangeOnlyTheirParts : Prop :=
  ∀ (c : Instr) (s t : State), exec c s = .next t →
    match writes c with
    | none => Frame (mayChange c) s t
    | some (q, r, ix) => s.arrives q r ix = true → Frame (mayChange c) (s.arrived q r ix) t

/-- A row that is a register write is turned away where its requester does not reach the map; where its block cannot be
reached it is discarded and only recorded (R42); while the couch link is not UP a write to an FX register waits with the
posted writes (R35). A 64-bit write of an interrupt enable register of a block that is not on the FX die waits for its
island: the write is listed, and no register changes yet (R6). A write to the FX die is posted over the couch link
instead (R16), or with 256 on the link waits to be (R41), and a write where no register is does nothing but what any
access does (R15, R599). Each of these commands answers a next state with its own effect, in every state that meets the
clause's conditions: .registerWrite. -/
def Obligations.RegisterWritesWaitArePostedOrRecorded : Prop :=
  (∀ (c : Instr) (s : State) (q : Req) (r : Reg) (ix : Ix), writes c = some (q, r, ix) →
    (s.mayAccess q = false → exec c s = .next (s.refuse q (regAddr r ix) true)) ∧
    (s.mayAccess q = true → s.fxWaits (regAddr r ix) = false → s.arrives q r ix = false →
      exec c s = .next ((s.heard q r ix).unreachable q (regAddr r ix) (regDomain r ix.inst) true)) ∧
    (s.mayAccess q = true → s.fxWaits (regAddr r ix) = true →
      ∃ t p, exec c s = .next t ∧ p.req = q ∧ p.off = regAddr r ix ∧
        (p ∈ t.acc.held ∨ CouchUnit.write p ∈ t.couch.qxToFx))) ∧
  (∀ (b : Block) (st en : Reg) (inst : Fin 16) (req : Req) (off : BitVec 28) (v : W64) (s : State),
    intRegs b = some (st, en) → inst.val < (blockInfo b).count → isFx (blockDomain b inst) = false →
    off.toNat = regAddr en (ixN inst) → s.arrives req en (ixN inst) = true →
    ∃ t, exec (.registerWrite req off v) s = .next t ∧
      t.acc.rwPend = (s.arrived req en (ixN inst)).acc.rwPend ++
        [⟨off.toNat, off.toNat, classMask en .rw, v⟩] ∧
      Frame [.acc] (s.arrived req en (ixN inst)) t) ∧
  (∀ (req : Req) (off : BitVec 28) (v : W64) (d : Nat) (s : State), s.mayAccess req = true →
    offDomain off.toNat = some d → isFx d = true → s.reachable d = true →
    (s.acc.held = [] → s.postedCount < 256 →
      ∃ t, exec (.registerWrite req off v) s = .next t ∧
        t.couch.qxToFx = s.couch.qxToFx ++ [.write ⟨req, off.toNat, v, false⟩] ∧ t.acc.held = [] ∧
        Frame [.acc, .couch] s t) ∧
    (256 ≤ s.postedCount →
      ∃ t, exec (.registerWrite req off v) s = .next t ∧ t.acc.held = s.acc.held ++ [⟨req, off.toNat, v, false⟩] ∧
        Frame [.acc] s t)) ∧
  (∀ (req : Req) (off : BitVec 28) (v : W64) (s : State), s.mayAccess req = true → offDomain off.toNat = none →
    ∃ t, exec (.registerWrite req off v) s = .next t ∧ t.acc.rwPend = s.acc.rwPend ∧ t.acc.posted = s.acc.posted ∧
      Frame [.acc] s t)

/-- A 32-bit write of a low half is held and changes no register (R12); it replaces one held for the register (R13). A
32-bit write of a high half commits the register with the low half that its requester holds for it: it does what the
64-bit write of both halves does (R12). Each of these commands answers a next state with its own effect, in every state
that meets the clause's conditions: .lowHalfWrite, .highHalfWrite. -/
def Obligations.RegisterHalvesAreHeldAndCommitted : Prop :=
  (∀ (req : Req) (off : BitVec 28) (v : W32) (s : State), s.mayAccess req = true →
    ∃ t, exec (.lowHalfWrite req off v) s = .next t ∧
      t.acc.lows = (s.acc.lows.filter fun h => !(h.req == req && h.off == off.toNat)) ++ [⟨req, off.toNat, v⟩] ∧
      Frame [.acc] s t) ∧
  (∀ (req : Req) (off : BitVec 28) (v l : W32) (s : State), s.mayAccess req = true →
    s.acc.lows.find? (fun h => h.req == req && h.off == off.toNat) = some ⟨req, off.toNat, l⟩ →
    ∃ t, exec (.highHalfWrite req off v) s = .next t ∧ exec (.registerWrite req off (v ++ l)) s = .next t)

/-- The oldest waiting RW write of a register takes effect whole: the bits it covers take the value written, the others
stay, and no register at another address changes (R6). Of the registers whose written fields act on the module, the
command's own rules say the rest. The oldest posted write of a requester reaches its block, from those that have crossed
the couch link or first crossing it: a write of an interrupt enable register of the FX die then waits for its island
(R6, R16), and the posted writes left are the others, in order. Each of these commands answers a next state with its own
effect, in every state that meets the clause's conditions: .rwFieldEffect, .fxWriteDelivery. -/
def Obligations.WrittenFieldsArriveAndTakeEffect : Prop :=
  (∀ (off : BitVec 28) (p : RwPend) (rest : List RwPend) (r : Reg) (ix : Ix) (s : State),
    takeFirst (fun (p : RwPend) => p.off == off.toNat) s.acc.rwPend = some (p, rest) →
    findStored p.addr = some ⟨r, ix⟩ →
    r ≠ .fabLinkCfg → r ≠ .fabCmnHbSet → r ≠ .crdPgCfg → r ≠ .prtCtrl → r ≠ .timSynce → r ≠ .tgtCtrl →
    ∃ t, exec (.rwFieldEffect off) s = .next t ∧
      t.rd r ix = blend (s.rd r ix) p.val p.mask ∧ t.acc.rwPend = rest ∧
      ∀ r' ix', regAddr r' ix' ≠ regAddr r ix → t.rd r' ix' = s.rd r' ix') ∧
  (∀ (b : Block) (st en : Reg) (inst : Fin 16) (req : Req) (v : W64) (rest : List Posted) (s : State),
    intRegs b = some (st, en) → inst.val < (blockInfo b).count → isFx (blockDomain b inst) = true →
    s.reachable (blockDomain b inst) = true → s.acc.rwPend = [] → s.acc.held = [] →
    (s.couch.qxToFx = [] →
      takeFirst (fun (p : Posted) => p.req == req) s.acc.posted = some (⟨req, regAddr en (ixN inst), v, false⟩, rest) →
      ∃ t, exec (.fxWriteDelivery req) s = .next t ∧ t.acc.posted = rest ∧
        t.acc.rwPend = [⟨regAddr en (ixN inst), regAddr en (ixN inst), classMask en .rw, v⟩] ∧ Frame [.acc] s t) ∧
    (s.couch.st = .up → s.couchWaits = false → s.acc.posted = [] →
      s.couch.qxToFx = [.write ⟨req, regAddr en (ixN inst), v, false⟩] →
      ∃ t, exec (.fxWriteDelivery req) s = .next t ∧ t.acc.posted = [] ∧ t.couch.qxToFx = [] ∧
        t.acc.rwPend = [⟨regAddr en (ixN inst), regAddr en (ixN inst), classMask en .rw, v⟩] ∧
        Frame [.acc, .couch] s t))

/-- A 64-bit read answers the register's value and clears its RC fields (R11); a 32-bit read of a low half answers the
low half and captures the high half (R14), which the requester's read of the high half then answers. Each of these
commands answers a next state with its own effect, in every state that meets the clause's conditions: .rcRegisterRead,
.lowHalfRead. -/
def Obligations.ReadsAnswerAndCapture : Prop :=
  (∀ (req : Req) (off : BitVec 28) (r : Reg) (ix : Ix) (d : Nat) (s : State), s.mayAccess req = true →
    fxOff off.toNat = false → offDomain off.toNat = some d → s.reachable d = true →
    findReg off.toNat = some ⟨r, ix⟩ → r ≠ .semLock → r ≠ .timNowSec → r ≠ .timNowNs →
    ∃ t, exec (.rcRegisterRead req off .full) s = .next t ∧ t.out = .answer req (s.view r ix) :: s.out ∧
      (∀ f ∈ r.info.fields, f.acc = .rc → t.rd r ix &&& f.mask = 0) ∧
      ∀ r' ix', regAddr r' ix' ≠ regAddr r ix → t.rd r' ix' = s.rd r' ix') ∧
  (∀ (req : Req) (off : BitVec 28) (r : Reg) (ix : Ix) (d : Nat) (s : State), s.mayAccess req = true →
    fxOff off.toNat = false → offDomain off.toNat = some d → s.reachable d = true →
    findReg off.toNat = some ⟨r, ix⟩ → r ≠ .semLock → r ≠ .timNowSec → r ≠ .timNowNs →
    ∃ t, exec (.lowHalfRead req off) s = .next t ∧
      t.out = .answer req ((BitVec.ofNat 32 (s.view r ix).toNat).setWidth 64) :: s.out ∧
      (⟨req, off.toNat, BitVec.ofNat 32 ((s.view r ix).toNat / 2 ^ 32)⟩ : Half) ∈ t.acc.highs) ∧
  (∀ (req : Req) (off : BitVec 28) (h : Half) (s : State), s.mayAccess req = true →
    s.acc.highs.find? (fun h => h.req == req && h.off == off.toNat) = some h →
    ∃ t, exec (.rcRegisterRead req off .high) s = .next t ∧ t.out = .answer req (h.v.setWidth 64) :: s.out ∧
      t.regs = s.regs ∧ ∀ x ∈ t.acc.highs, x.req ≠ req)

/-- A write of GO makes an application of a block's staged fields pending: PENDING reads 1 from then on, and a GO while
one is pending changes nothing (R8). At the application point of a block instance whose blocks accept every staged
value, the application ends: nothing is pending, no shadow copy of the instance is left, and a register that alone was
staged by the requester that wrote GO has the value of its shadow copy (R7, R8). Each of these commands answers a next
state with its own effect, in every state that meets the clause's conditions: .applyGo, .stagedApply. -/
def Obligations.StagedFieldsWaitAndTakeEffect : Prop :=
  (∀ (req : Req) (b : Block) (inst : Fin 16) (r : Reg) (s : State),
    writes (.applyGo req b inst) = some (req, r, ixN inst.val) → s.arrives req r (ixN inst.val) = true →
    ∃ t, exec (.applyGo req b inst) s = .next t ∧ (t.applySt b inst).go.isSome = true ∧
      (((s.arrived req r (ixN inst.val)).applySt b inst).go.isSome = true → t = s.arrived req r (ixN inst.val)) ∧
      Frame [.acc] (s.arrived req r (ixN inst.val)) t) ∧
  (∀ (b : Block) (inst : Fin 16) (req : Req) (c : RegCell) (r : Reg) (ix : Ix) (s : State),
    b ∈ [Block.pmn, .prs, .lkp, .asa, .egr, .qsc, .tgt, .fabCmn] →
    (s.applySt b inst).go = some req → (s.applySt b inst).stagers.any (· != req) = false →
    s.domUp (blockDomain b inst) = true → s.stagedCells b inst = [c] → findStored c.1 = some ⟨r, ix⟩ →
    ∃ t, exec (.stagedApply b inst) s = .next t ∧ (t.applySt b inst).go = none ∧
      tblFind c.1 t.shadow = none ∧ t.rd r ix = blend (s.rd r ix) c.2 (classMask r .rws) ∧
      ∀ r' ix', regAddr r' ix' ≠ regAddr r ix → t.rd r' ix' = s.rd r' ix')

/-- A W1C write of an interrupt status register clears the causes written with 1 and no other register's (R5). Each of
these commands answers a next state with its own effect, in every state that meets the clause's conditions:
.intStatusClear. -/
def Obligations.IntStatusWriteClearsCauses : Prop :=
  ∀ (req : Req) (b : Block) (st en : Reg) (inst : Fin 16) (v : W64) (s : State), intRegs b = some (st, en) →
    inst.val < (blockInfo b).count → s.arrives req st (ixN inst.val) = true →
    ∃ t, exec (.intStatusClear req b inst v 0) s = .next t ∧
      t.rd st (ixN inst.val) = (s.arrived req st (ixN inst.val)).rd st (ixN inst.val) &&& ~~~(v &&& classMask st .w1c) ∧
      ∀ r' ix', regAddr r' ix' ≠ regAddr st (ixN inst.val) → t.rd r' ix' = (s.arrived req st (ixN inst.val)).rd r' ix'

/-! ## The module: power, heat, contacts, phases, resets, spec/02_module.md and spec/03_startup_reset.md -/

/-- Power-good samples SLOT_ID, starts the regulators with every domain in reset and every register at its Reset value
(R54, R65), the end of sequencing brings BOOT with HP, ML and TM running (R81, R83, R104). Power-fail releases
ALIVE_OUT_N, leaves every phase for OFF and powers the datapath down (R55, R57, R81, R93), also before the end of
sequencing; with ML running the last-gasp entry is programmed and what was staged is lost (R582); when the rails are off
nothing survives but the flash (R58). EPOCH's first value is free (log entry 3). A point at its trip threshold isolates
the module with cause 0x01 and powers the datapath down (R53). Each of these commands answers a next state with its own
effect, in every state that meets the clause's conditions: .powerGood, .regulatorsSequenced, .powerFail, .lastGaspEntry,
.railsOff, .thermalTrip. -/
def Obligations.PowerAndHeatMoveTheModule : Prop :=
  (∀ (slotId : BitVec 6) (s : State), s.gen.power = .absent →
    ∃ t, exec (.powerGood slotId) s = .next t ∧ t.gen.slotId = slotId ∧ t.gen.power = .sequencing ∧ t.gen.phase = .off ∧
      t.gen.inReset = 0x1FFFFFFF ∧ t.fab.epoch = s.free.setWidth 8 ∧ ∀ r ix, t.rd r ix = regReset r ix) ∧
  (∀ (s : State), s.gen.power = .sequencing → s.gen.phase = .off →
    ∃ t, exec .regulatorsSequenced s = .next t ∧ t.gen.phase = .boot ∧ t.gen.power = .up ∧ t.gen.auxOn = true ∧
      (∀ d < 29, t.domUp d = decide (26 ≤ d)) ∧ t.flag GEN_INT_STATUS_PHASE_CHG ix0 = true) ∧
  (∀ (overvoltage : Bool) (s : State), s.gen.power = .up ∨ s.gen.power = .sequencing →
    ∃ t, exec (.powerFail overvoltage) s = .next t ∧ t.gen.phase = .off ∧ t.gen.power = .failing ∧
      t.gen.aliveOut = false ∧ ∀ d < 26, t.domUp d = false) ∧
  (∀ (vin : BitVec 16) (s : State), s.gen.power = .failing → s.domUp domML = true →
    ∃ t e, exec (.lastGaspEntry vin) s = .next t ∧ t.mil.staged = [] ∧ (s.mil.flash.nextSeq, e) ∈ t.mil.flash.log ∧
      e.kind = 7 ∧ e.holdUp = true ∧ e.arg0 = vin.toNat + ofBool s.gen.overvolt * 2 ^ 16 ∧ Frame [.mil, .out] s t) ∧
  (∀ (s : State), s.gen.power = .failing →
    ∃ t, exec .railsOff s = .next t ∧ t.gen.power = .absent ∧ t.gen.phase = .off ∧ t.gen.powered = 0 ∧
      t.mil.flash = s.mil.flash ∧ ∀ r ix, t.rd r ix = regReset r ix) ∧
  (∀ (point : Fin 128) (value limit : Int) (s : State), tripLimit point.val = some limit → limit ≤ value →
    s.gen.power = .up → s.gen.tripped = false → (s.gen.phase = .isolate ∨ s.gen.phase.mayIsolate = true) →
    ∃ t, exec (.thermalTrip point value) s = .next t ∧ t.gen.phase = .isolate ∧ t.gen.isoCause = 1 ∧
      t.gen.tripped = true ∧ ∀ d < 26, t.domUp d = false)

/-- The watchdog drives ALIVE_OUT_N low after the eighth consecutive strobe, where a strobe 16 µs or more after the last
one begins a new run, and releases it after twelve missed ones (R63); each change of a contact is taken once and its
cause is set (R75). A verified image brings INIT with the datapath powered (R81, R83); without one the module stays in
BOOT (R82); a complete initialisation brings TEST, a self-test RUN or ISOLATE with cause 0x03 (R81, R99). A module whose
self-test must isolate it, one that is handing over (R556), is not spoken of. Each of these commands answers a next
state with its own effect, in every state that meets the clause's conditions: .heartbeatStrobe, .watchdogStrobesMissed,
.matePresentChange, .aliveInChange, .imageVerify, .initComplete, .selftestPass, .selftestFail. -/
def Obligations.ContactsAndBootSequence : Prop :=
  (∀ (n : Nat) (s : State), s.gen.hbOn = true → s.domUp domQC = true →
    n = (if 80000 ≤ s.now - s.gen.hbLast then 1 else s.gen.hbCount + 1) →
    ∃ t, exec .heartbeatStrobe s = .next t ∧ t.gen.hbCount = min n 8 ∧ t.gen.hbLast = s.now ∧
      t.gen.aliveOut = (s.gen.aliveOut || (decide (8 ≤ n) && s.gen.phase != .isolate)) ∧ Frame [.gen] s t) ∧
  (∀ (s : State), ∃ t, exec .watchdogStrobesMissed s = .next t ∧ t.gen.aliveOut = false ∧ t.gen.hbCount = 0 ∧
      Frame [.gen] s t) ∧
  (∀ (s : State), s.domUp domHP = true →
    ∃ t, exec .matePresentChange s = .next t ∧ t.gen.matePresent = !s.gen.matePresent ∧
      t.flag GEN_INT_STATUS_MATE_PRESENT_CHG ix0 = true ∧ (s.gen.matePresent = true →
      ∀ e ∈ t.sem, e.2 ≠ masterId .mate)) ∧
  (∀ (s : State), s.prt.leaving = none →
    ∃ t, exec .aliveInChange s = .next t ∧ t.gen = { s.gen with aliveIn := !s.gen.aliveIn }) ∧
  (∀ (goodA goodB : Bool) (s : State), s.gen.phase = .boot → s.gen.bootFail = false → s.mil.bootRom = true →
    s.domUp domML = true → s.prt.leaving = none →
    (s.mil.flash.slotA.valid && goodA || s.mil.flash.slotB.valid && goodB) = true →
    ∃ t, exec (.imageVerify goodA goodB) s = .next t ∧ t.gen.phase = .init ∧ t.gen.bootFail = false ∧
      t.mil.ready = true ∧ t.mil.bootRom = false) ∧
  (∀ (goodA goodB : Bool) (s : State), s.gen.phase = .boot → s.gen.bootFail = false → s.mil.bootRom = true →
    s.domUp domML = true → (s.mil.flash.slotA.valid && goodA || s.mil.flash.slotB.valid && goodB) = false →
    ∃ t, exec (.imageVerify goodA goodB) s = .next t ∧ t.gen.phase = .boot ∧ t.gen.bootFail = true ∧
      t.regs = s.regs) ∧
  (∀ (fails : BitVec 144) (s : State), s.gen.phase = .init → s.gen.warmBusy = false → s.datapathReady = true →
    s.gen.retain = true ∨ s.flag DDC_CTRL_RUN ix0 = true →
    ∃ t, exec (.initComplete fails) s = .next t ∧ t.gen.phase = .test ∧ t.gen.retain = false ∧
      t.gen.selfRefresh = false) ∧
  (∀ (s : State), s.gen.phase = .test → s.prt.leaving = none →
    ∃ t, exec .selftestPass s = .next t ∧ t.gen.phase = .run ∧ t.gen.hbOn = true ∧ t.gen.lineTx = true ∧
      t.gen.testMap = 0) ∧
  (∀ (slices : BitVec 16) (qx : Bool) (s : State), s.gen.phase = .test → s.prt.leaving = none →
    s.prt.recovering = false → slices ≠ 0 ∨ qx = true →
    ∃ t, exec (.selftestFail slices qx) s = .next t ∧ t.gen.phase = .isolate ∧ t.gen.isoCause = 3 ∧
      t.gen.testMap = slices ∧ t.gen.testQx = qx ∧ t.gen.lineTx = false ∧ t.gen.aliveOut = false)

/-- A phase request that R81 lists for the phase, heard while none is in progress, changes the phase: RUN to PARK, PARK
or an isolation not by heat to INIT, and any running phase to ISOLATE with cause 0x04 (R81, R94 to R97). A request that
R81 does not list changes nothing of the phase and sets PHASE_REQ_REJ (R82). Each of these commands answers a next state
with its own effect, in every state that meets the clause's conditions: .phaseReqPark, .phaseReqRun, .phaseReqIsolate.
-/
def Obligations.PhaseRequestsAreHeard : Prop :=
  (∀ (req : Req) (s u : State), s.arrives req .genPhaseCtrl ix0 = true → u = s.arrived req .genPhaseCtrl ix0 →
    u.mayReset req = true → u.gen.reqBusy = false → u.gen.warmBusy = false → u.gen.phase = .run →
    ∃ t, exec (.phaseReqPark req) s = .next t ∧ t.gen.phase = .park ∧ t.gen.selfRefresh = true ∧ t.arrivals = [] ∧
      t.ing.pkts = []) ∧
  (∀ (req : Req) (s u : State), s.arrives req .genPhaseCtrl ix0 = true → u = s.arrived req .genPhaseCtrl ix0 →
    u.mayReset req = true → u.gen.reqBusy = false → u.gen.warmBusy = false → u.gen.phase = .park →
    u.prt.leaving = none →
    ∃ t, exec (.phaseReqRun req) s = .next t ∧ t.gen.phase = .init ∧ t.gen.reqBusy = true ∧ t.gen.retain = true) ∧
  (∀ (req : Req) (s u : State), s.arrives req .genPhaseCtrl ix0 = true → u = s.arrived req .genPhaseCtrl ix0 →
    u.mayReset req = true → u.gen.reqBusy = false → u.gen.warmBusy = false → u.gen.phase.mayIsolate = true →
    u.prt.recovering = false → u.prt.leaving = none →
    ∃ t, exec (.phaseReqIsolate req) s = .next t ∧ t.gen.phase = .isolate ∧ t.gen.isoCause = 4) ∧
  (∀ (req : Req) (c : Instr) (s u : State), c ∈ [.phaseReqPark req, .phaseReqRun req, .phaseReqIsolate req] →
    s.arrives req .genPhaseCtrl ix0 = true → u = s.arrived req .genPhaseCtrl ix0 → u.mayReset req = true →
    u.gen.phase = .boot → u.domUp domHP = true →
    ∃ t, exec c s = .next t ∧ t.gen = u.gen ∧ t.flag GEN_INT_STATUS_PHASE_REQ_REJ ix0 = true)

/-- MOD_RESET_N holds every domain in reset with the flash kept (R85); its release, and a keyed write of COLD, start the
module in BOOT (R81, R103, R104). A write of GEN_RESET_CTRL with another key changes no phase and no domain and sets
CFG_VIOLATION (R103). A write of GEN_DOMAIN_RESET in RUN or ISOLATE puts HOLD in force (R88, R101), and is discarded in
any other phase. A released domain becomes READY when it has trained (R90). Each of these commands answers a next state
with its own effect, in every state that meets the clause's conditions: .modReset, .modResetRelease, .cold, .warmQx,
.domainHold, .domainRelease, .domainReady. -/
def Obligations.ResetsAndDomains : Prop :=
  (∀ (s : State), s.gen.power = .up → s.gen.modResetLow = false →
    ∃ t, exec .modReset s = .next t ∧ t.gen.modResetLow = true ∧ t.gen.inReset = 0x1FFFFFFF ∧
      t.mil.flash = s.mil.flash ∧ ∀ r ix, t.rd r ix = regReset r ix) ∧
  (∀ (s : State), s.gen.modResetLow = true → s.gen.power = .up →
    ∃ t, exec .modResetRelease s = .next t ∧ t.gen.modResetLow = false ∧ t.gen.phase = .boot ∧
      ∀ d < 29, t.domUp d = decide (26 ≤ d)) ∧
  (∀ (req : Req) (s u : State), s.arrives req .genResetCtrl ix0 = true → u = s.arrived req .genResetCtrl ix0 →
    u.mayReset req = true → u.gen.power = .up →
    ∃ t, exec (.cold req 0x5A3C) s = .next t ∧ t.gen.phase = .boot ∧ t.gen.slotId = u.gen.slotId ∧
      (∀ d < 29, t.domUp d = decide (26 ≤ d)) ∧ t.mil.flash = u.mil.flash) ∧
  (∀ (req : Req) (key : BitVec 16) (c : Instr) (s u : State), c ∈ [.cold req key, .warmQx req key] → key ≠ 0x5A3C →
    s.arrives req .genResetCtrl ix0 = true → u = s.arrived req .genResetCtrl ix0 → u.mayReset req = true →
    u.domUp domHP = true → u.gen.power = .up →
    ∃ t, exec c s = .next t ∧ t.flag GEN_INT_STATUS_CFG_VIOLATION ix0 = true ∧
      Frame [.regs, .pf0, .pf1, .rng, .mil, .out] u t) ∧
  (∀ (req : Req) (hold : BitVec 29) (c : Instr) (s u : State), c ∈ [.domainHold req hold, .domainRelease req hold] →
    s.arrives req .genDomainReset ix0 = true → u = s.arrived req .genDomainReset ix0 → u.mayReset req = true →
    u.gen.phase ≠ .run → u.gen.phase ≠ .isolate → u.domUp domHP = true →
    ∃ t, exec c s = .next t ∧ t.flag GEN_INT_STATUS_CFG_VIOLATION ix0 = true ∧
      Frame [.regs, .pf0, .pf1, .rng, .mil, .out] u t) ∧
  (∀ (req : Req) (s u : State), s.arrives req .genDomainReset ix0 = true → u = s.arrived req .genDomainReset ix0 →
    u.mayReset req = true → u.gen.phase = .run → u.fld GEN_DOMAIN_RESET_HOLD ix0 = 0 →
    u.gen.inReset.getLsbD 9 = false → u.prt.leaving = none →
    ∃ t, exec (.domainHold req 0x200) s = .next t ∧ t.domUp 9 = false ∧ t.gen.ready.getLsbD 9 = false ∧
      t.tab.em = [] ∧ t.tab.counters = []) ∧
  (∀ (req : Req) (s u : State), s.arrives req .genDomainReset ix0 = true → u = s.arrived req .genDomainReset ix0 →
    u.mayReset req = true → u.gen.phase = .run → u.fld GEN_DOMAIN_RESET_HOLD ix0 = 0x200 → u.gen.tripped = false →
    u.prt.leaving = none →
    ∃ t, exec (.domainRelease req 0) s = .next t ∧ t.domUp 9 = true) ∧
  (∀ (d : Fin 29) (s : State), s.domUp d.val = true → s.gen.ready.getLsbD d.val = false → d.val ≠ domML →
    s.prt.leaving = none → s.acc.waits = [] → s.couch.st ≠ .down →
    ∃ t, exec (.domainReady d) s = .next t ∧ t.gen.ready.getLsbD d.val = true ∧
      (s.gen.phase = t.gen.phase))

/-- A warm QX restart goes from RUN to INIT with what QC held for traffic gone, and ends in RUN with both domains READY
(R91, R92); of reads that wait for the couch link as it ends, their own rules speak. Requested while the module is not
in RUN, it is ignored and sets PHASE_REQ_REJ; a cold reset during one takes effect and DRAM contents are lost; a
power-fail during one runs the power-fail sequence unchanged (R93). Each of these commands answers a next state with its
own effect, in every state that meets the clause's conditions: .warmQx, .warmQxComplete, .cold, .modReset, .powerFail.
-/
def Obligations.WarmQxRestart : Prop :=
  (∀ (req : Req) (s u : State), s.arrives req .genResetCtrl ix0 = true → u = s.arrived req .genResetCtrl ix0 →
    u.mayReset req = true → u.gen.phase = .run → u.gen.warmBusy = false → u.gen.reqBusy = false →
    ∃ t, exec (.warmQx req 0x5A3C) s = .next t ∧ t.gen.phase = .init ∧ t.gen.warmBusy = true ∧
      t.gen.selfRefresh = true ∧ t.qsc.qs = [] ∧ t.gen.ready.getLsbD 10 = false ∧ t.gen.ready.getLsbD 11 = false) ∧
  (∀ (fails : BitVec 144) (s : State), s.gen.warmBusy = true → s.prt.leaving = none → s.domUp domQC = true →
    s.domUp domQB = true → s.acc.waits = [] →
    ∃ t, exec (.warmQxComplete fails) s = .next t ∧ t.gen.phase = .run ∧ t.gen.warmBusy = false ∧
      t.gen.ready.getLsbD 10 = true ∧ t.gen.ready.getLsbD 11 = true ∧ t.gen.selfRefresh = false) ∧
  (∀ (req : Req) (s u : State), s.arrives req .genResetCtrl ix0 = true → u = s.arrived req .genResetCtrl ix0 →
    u.mayReset req = true → u.gen.phase ≠ .run → u.domUp domHP = true →
    ∃ t, exec (.warmQx req 0x5A3C) s = .next t ∧ t.flag GEN_INT_STATUS_PHASE_REQ_REJ ix0 = true ∧
      Frame [.regs, .pf0, .pf1, .rng, .mil, .out] u t) ∧
  (∀ (req : Req) (s u : State), s.arrives req .genResetCtrl ix0 = true → u = s.arrived req .genResetCtrl ix0 →
    u.mayReset req = true → u.gen.warmBusy = true → u.gen.power = .up →
    ∃ t, exec (.cold req 0x5A3C) s = .next t ∧ t.gen.phase = .boot ∧ t.gen.warmBusy = false ∧
      t.gen.selfRefresh = false ∧ t.ddc = DdcSt.init ∧ ∀ d < 29, t.domUp d = decide (26 ≤ d)) ∧
  (∀ (s : State), s.gen.power = .up → s.gen.modResetLow = false → s.gen.warmBusy = true →
    ∃ t, exec .modReset s = .next t ∧ t.gen.warmBusy = false ∧ t.gen.selfRefresh = false ∧ t.ddc = DdcSt.init ∧
      t.gen.inReset = 0x1FFFFFFF) ∧
  (∀ (overvoltage : Bool) (s : State), s.gen.power = .up ∨ s.gen.power = .sequencing → s.gen.warmBusy = true →
    ∃ t, exec (.powerFail overvoltage) s = .next t ∧ t.gen.phase = .off ∧ t.gen.power = .failing ∧
      t.gen.warmBusy = false ∧ t.gen.aliveOut = false ∧ ∀ d < 26, t.domUp d = false)

/-! ## The host's endpoint and the couch link, spec/04_host_pcie.md and spec/01_architecture.md -/

/-- Unmasking a vector leaves it unmasked, and a pending vector whose cause is still present sends its message (R125);
enabling MSI-X or setting Interrupt Disable takes INTx away (R126). A function's FLR, power states and Bus Master
Enable: what each stops and what each leaves (R128 to R131). Each of these commands answers a next state with its own
effect, in every state that meets the clause's conditions: .msixUnmask, .msixEnable, .flr, .flrComplete, .d3hotEntry,
.d0Transition, .bmeClear, .busMasterEnableSet. -/
def Obligations.FunctionsAndTheirInterrupts : Prop :=
  (∀ (f : Fn) (v : Fin 2048) (s : State), ∃ t, exec (.msixUnmask f (some v)) s = .next t ∧
    ((t.fn f).entry v).mask = false ∧ ((t.fn f).entry v).addr = ((s.fn f).entry v).addr ∧
    ((s.fn f).msixEn = true → (s.fn f).msixMask = false → s.canMaster f = true → v.val ∈ (s.fn f).pend →
      s.vectorCause f v = true →
      .msix f v ((s.fn f).entry v).addr ((s.fn f).entry v).data ∈ t.out ∧ v.val ∉ (t.fn f).pend)) ∧
  (∀ (f : Fn) (s : State), ∃ t, exec (.msixUnmask f none) s = .next t ∧ (t.fn f).msixMask = false ∧ t.regs = s.regs) ∧
  (∀ (f : Fn) (s : State), ∃ t, exec (.msixEnable f false) s = .next t ∧ (t.fn f).msixEn = true ∧
    (t.fn f).intx = false) ∧
  (∀ (f : Fn) (s : State), ∃ t, exec (.msixEnable f true) s = .next t ∧ (t.fn f).intDis = true ∧
    (t.fn f).intx = false) ∧
  (∀ (f : Fn) (s : State), ∃ t, exec (.flr f) s = .next t ∧ (t.fn f).flr = true ∧ (t.fn f).bme = false ∧
    (t.fn f).msixEn = false ∧ (t.fn f).table = []) ∧
  (∀ (f : Fn) (s : State), ∃ t, exec (.flrComplete f) s = .next t ∧ t.fn f = { s.fn f with flr := false } ∧
    Frame [.pf0, .pf1] s t) ∧
  (∀ (f : Fn) (s : State), ∃ t, exec (.d3hotEntry f) s = .next t ∧ (t.fn f).d3 = true ∧ (t.fn f).intx = false) ∧
  (∀ (f : Fn) (s : State), (s.fn f).d3 = true → ∃ t, exec (.d0Transition f) s = .next t ∧ (t.fn f).d3 = false ∧
    (t.fn f).bme = false ∧ (t.fn f).msixEn = false) ∧
  (∀ (f : Fn) (s : State), ∃ t, exec (.bmeClear f) s = .next t ∧ (t.fn f).bme = false ∧
    ∀ w ∈ t.pce.waits, w.fn ≠ f) ∧
  (∀ (f : Fn) (s : State), ∃ t, exec (.busMasterEnableSet f) s = .next t ∧ t.fn f = { s.fn f with bme := true } ∧
    Frame [.pf0, .pf1] s t)

/-- PERST_N, a hot reset with PERST_N high and a lost data link reset the host-facing state: no lock is held, mailboxes
are empty, and after PERST_N both functions and every ring are as at reset (R86, R132). The link then trains to the rate
and width given (R83, R134). Each of these commands answers a next state with its own effect, in every state that meets
the clause's conditions: .perstAssert, .perstDeassert, .hotReset, .dlDown, .pcieLaneFail. -/
def Obligations.HostFacingResets : Prop :=
  (∀ (s : State), ∃ t, exec .perstAssert s = .next t ∧ t.gen.perst = true ∧ t.pf0 = FnSt.init .pf0 ∧
    t.pf1 = FnSt.init .pf1 ∧ t.rng = RingsSt.init ∧ t.mbx.pairs = [] ∧ t.sem = [] ∧ t.pce = PceSt.init) ∧
  (∀ (rate width : BitVec 4) (flit : Bool) (s : State), ∃ t, exec (.perstDeassert rate width flit) s = .next t ∧
    t.gen.perst = false ∧ t.pce.rate = rate.toNat % 8 ∧ t.pce.width = width.toNat ∧ t.pce.flit = flit) ∧
  (∀ (rate width : BitVec 4) (flit : Bool) (s : State), s.gen.perst = false → s.domUp domHP = true →
    ∃ t, exec (.hotReset rate width flit) s = .next t ∧ t.flag GEN_RESET_CAUSE_HOST_RESET ix0 = true ∧
      t.mbx.pairs = [] ∧ t.sem = [] ∧ t.pce.rate = rate.toNat % 8 ∧ t.pce.width = width.toNat) ∧
  (∀ (s : State), s.domUp domHP = true → ∃ t, exec .dlDown s = .next t ∧ t.mbx.pairs = [] ∧ t.sem = [] ∧
    t.flag PCE_INT_STATUS_DL_DOWN ix0 = true) ∧
  (∀ (working : BitVec 8) (s : State), s.pce.width ≠ 0 → ∃ t, exec (.pcieLaneFail working) s = .next t ∧
    t.pce.width = widestWidth working.toNat s.pce.width ∧ t.pce.retrains = satAdd 8 s.pce.retrains 1)

/-- A register request of the host is the register access it stands for: an 8-byte write of PF0 BAR0 is the 64-bit write
of its data, an 8-byte read is completed with the register's value (R110, R111). A request to a function in D3hot is
refused with reason 0x7 (R117). A read of a high-water word answers the mark and clears it (R114). Each of these
commands answers a next state with its own effect, in every state that meets the clause's conditions: .pcieMemRequest,
.hwmWindowRead. -/
def Obligations.HostRequestsReachRegistersAndMarks : Prop :=
  (∀ (t : Tlp) (off : BitVec 28) (s : State), s.domUp domHP = true → s.gen.perst = false → t.parityErr = false →
    t.badPrefix = false → t.fn = .pf0 → s.pf0.d3 = false → s.pf0.flr = false → t.bar2 = false → t.kind = .write →
    t.len = 8 →
    t.disabled = [] → t.off = off.toNat → off.toNat % 8 = 0 → 0x200000 ≤ off.toNat → off.toNat < 0x0E000000 →
    ∃ u, exec (.pcieMemRequest t) s = .next u ∧
      exec (.registerWrite .pf0 off (BitVec.ofNat 64 (leNat t.data))) s = .next u) ∧
  (∀ (t : Tlp) (off : BitVec 28) (r : Reg) (ix : Ix) (d : Nat) (s : State), s.domUp domHP = true →
    s.gen.perst = false → t.parityErr = false → t.badPrefix = false → t.fn = .pf0 → s.pf0.d3 = false →
    s.pf0.flr = false → t.bar2 = false → t.kind = .read → t.len = 8 → t.disabled = [] → t.off = off.toNat →
    off.toNat % 8 = 0 → 0x200000 ≤ off.toNat →
    off.toNat < 0x0E000000 → fxOff off.toNat = false → offDomain off.toNat = some d → s.reachable d = true →
    findReg off.toNat = some ⟨r, ix⟩ → r ≠ .semLock → r ≠ .timNowSec → r ≠ .timNowNs →
    ∃ u, exec (.pcieMemRequest t) s = .next u ∧ u.out = .completion .pf0 (leBytes 8 (s.view r ix).toNat) :: s.out) ∧
  (∀ (t : Tlp) (s : State), s.domUp domHP = true → s.gen.perst = false → t.parityErr = false →
    (s.fn t.fn).d3 = true → t.kind = .read →
    ∃ u, exec (.pcieMemRequest t) s = .next u ∧ .unsupported t.fn 7 ∈ u.out ∧ u.fld PCE_UR_LOG_INFO_COUNT ix0 =
      satAdd PCE_UR_LOG_INFO_COUNT.width (s.fld PCE_UR_LOG_INFO_COUNT ix0) 1) ∧
  (∀ (off : BitVec 24) (s : State), markOff off.toNat = true → off.toNat % 8 = 0 → s.fnAnswers .pf1 = true →
    s.reachable domQC = true →
    ∃ t, exec (.hwmWindowRead .pf1 off) s = .next t ∧
      t.out = .completion .pf1 (leBytes 8 (min (s.takeMark off.toNat).2 allOnes.toNat)) :: s.out ∧
      (t.takeMark off.toNat).2 = 0 ∧ t.regs = s.regs)

/-- A write through an open peer window that may be written, and then a read of the same bytes, completes with the bytes
written (R119, R120); no byte of the partition outside them changes. Each of these commands answers a next state with
its own effect, in every state that meets the clause's conditions: .peerWindowAccess. -/
def Obligations.WindowWriteThenReadReturnsData : Prop :=
  ∀ (w r : Tlp) (s : State), s.domUp domHP = true → s.gen.perst = false → s.pf0.d3 = false → s.pf0.flr = false →
    s.windowsDown = false → w.fn = .pf0 → w.bar2 = true → w.kind = .write → w.parityErr = false →
    w.badPrefix = false → w.poisoned = false → w.disabled = [] → w.data.length = w.len → w.off / 2 ^ 32 < 16 →
    PCE_WIN_OPEN.get (s.rd .pceWin (ixI (w.off / 2 ^ 32))) = 1 →
    PCE_WIN_WRITE_EN.get (s.rd .pceWin (ixI (w.off / 2 ^ 32))) ≠ 0 →
    w.off % 2 ^ 32 < PCE_WIN_SIZE.get (s.rd .pceWin (ixI (w.off / 2 ^ 32))) * 2 ^ 20 →
    PCE_WIN_BASE.get (s.rd .pceWin (ixI (w.off / 2 ^ 32))) * 2 ^ 20 + w.off % 2 ^ 32 + w.len ≤ s.partGib 2 * 2 ^ 30 →
    s.ddc.bad = [] → r = { w with kind := .read, data := [] } →
    ∃ t u, exec (.peerWindowAccess w) s = .next t ∧ exec (.peerWindowAccess r) t = .next u ∧
      u.out = .completion .pf0 w.data :: s.out ∧ Frame [.acc, .ddc] s t ∧
      ∀ a, a < PCE_WIN_BASE.get (s.rd .pceWin (ixI (w.off / 2 ^ 32))) * 2 ^ 20 + w.off % 2 ^ 32 ∨
          PCE_WIN_BASE.get (s.rd .pceWin (ixI (w.off / 2 ^ 32))) * 2 ^ 20 + w.off % 2 ^ 32 + w.len ≤ a →
        tblGet 0 t.ddc.win a = tblGet 0 s.ddc.win a

/-- A write of PCE_WIN that opens a window in the partition is in force at once and counts in GEN; one that does not lie
in it is discarded and sets WIN_CFG_VIOL (R120 to R122). A completion frees its tag; one whose read is no longer wanted
is discarded and counted (R128), and one with an error, or none at all, halts its ring and is reported in AER (R133). A
waiting read that may have a tag is issued (R127). Each of these commands answers a next state with its own effect, in
every state that meets the clause's conditions: .pceWinWrite, .pcieCompletion, .completionTimeout, .pcieTagGrant. -/
def Obligations.WindowsAreJudgedAndReadsEnd : Prop :=
  (∀ (req : Req) (n : Fin 16) (v : W64) (s u : State), s.arrives req .pceWin (ixI n.val) = true →
    u = s.arrived req .pceWin (ixI n.val) → PCE_WIN_SIZE.get (v &&& classMask .pceWin .rw) ≠ 0 →
    PCE_WIN_BASE.get (v &&& classMask .pceWin .rw) + PCE_WIN_SIZE.get (v &&& classMask .pceWin .rw) ≤
      u.partGib 2 * 1024 →
    ∃ t, exec (.pceWinWrite req n v) s = .next t ∧ t.rd .pceWin (ixI n.val) = v &&& classMask .pceWin .rw ∧
      t.fld PCE_WIN_GEN_GEN (ixI n.val) = (u.fld PCE_WIN_GEN_GEN (ixI n.val) + 1) % 2 ^ PCE_WIN_GEN_GEN.width ∧
      ∀ r ix, regAddr r ix ≠ regAddr .pceWin (ixI n.val) → regAddr r ix ≠ regAddr .pceWinGen (ixI n.val) →
        t.rd r ix = u.rd r ix) ∧
  (∀ (req : Req) (n : Fin 16) (v : W64) (s u : State), s.arrives req .pceWin (ixI n.val) = true →
    u = s.arrived req .pceWin (ixI n.val) → PCE_WIN_OPEN.get (v &&& classMask .pceWin .rw) = 1 →
    u.partGib 2 * 1024 <
      PCE_WIN_BASE.get (v &&& classMask .pceWin .rw) + PCE_WIN_SIZE.get (v &&& classMask .pceWin .rw) →
    u.domUp domHP = true →
    ∃ t, exec (.pceWinWrite req n v) s = .next t ∧ t.rd .pceWin (ixI n.val) = u.rd .pceWin (ixI n.val) ∧
      t.flag PCE_INT_STATUS_WIN_CFG_VIOL ix0 = true) ∧
  (∀ (tag : Fin 512) (u : TagUse) (rest : List TagUse) (r : Nat) (s : State),
    takeFirst (fun t : TagUse => t.tag = tag.val) s.pce.tags = some (u, rest) → u.use = .ring r → u.dead = false →
    ∃ t, exec (.pcieCompletion tag .ok) s = .next t ∧ t.pce.tags = rest ∧
      t.ring r = { s.ring r with inflight := (s.ring r).inflight - 1 } ∧ Frame [.pce, .rng] s t) ∧
  (∀ (tag : Fin 512) (st : CplStatus) (u : TagUse) (rest : List TagUse) (s : State),
    takeFirst (fun t : TagUse => t.tag = tag.val) s.pce.tags = some (u, rest) → u.dead = true →
    ∃ t, exec (.pcieCompletion tag st) s = .next t ∧ t.pce.tags = rest ∧
      t.fld PCE_DISCARD_CPL_COUNT ix0 =
        satAdd PCE_DISCARD_CPL_COUNT.width (s.fld PCE_DISCARD_CPL_COUNT ix0) 1) ∧
  (∀ (tag : Fin 512) (u : TagUse) (rest : List TagUse) (r : Nat) (s : State),
    takeFirst (fun t : TagUse => t.tag = tag.val) s.pce.tags = some (u, rest) → u.use = .ring r → u.dead = false →
    isTx r = true → (s.ring r).state = .run →
    ∃ t, exec (.completionTimeout tag) s = .next t ∧ (t.ring r).state = .halted ∧
      (t.ring r).haltCode = haltCplTimeout ∧ .cplTimeout ∈ (t.fn u.fn).aer.status ∧
      ((s.fn u.fn).aer.masked.contains .cplTimeout = false → ∃ sev, .aer u.fn .cplTimeout sev ∈ t.out)) ∧
  (∀ (f : Fn) (w : TagWait) (rest : List TagWait) (s : State),
    takeFirst (fun w : TagWait => w.fn == f) s.pce.waits = some (w, rest) → s.tagOk f = true → s.canMaster f = true →
    ∃ t, exec (.pcieTagGrant f) s = .next t ∧ t.pce.waits = rest ∧ t.out = .readReq f s.freeTag w.use :: s.out ∧
      t.pce.tags = s.pce.tags ++ [⟨s.freeTag, f, w.use, false⟩])

/-- The couch link: a unit with a good CRC arrives and is the die's, one with a bad CRC is replayed and counted (R34,
R35, R37); after eight failed replays the link retrains, ends UP, or after three failed retrains goes DOWN and isolates
the module (R35, R36, R39). A slice's dispatcher takes the oldest packet of a line port before one of an internal port,
in the last slot of every 64 the other way round (R31), gives it the slice's next pipeline and its stamp (R30, R329).
Each of these commands answers a next state with its own effect, in every state that meets the clause's conditions:
.couchUnitReceive, .couchRetrain, .couchRetrainDone, .couchDown, .packetDispatch. -/
def Obligations.CouchLinkAndDispatch : Prop :=
  (∀ (k : Nat) (p : XPkt) (us : List CouchUnit) (s : State), s.couch.fxToQx = .pipe k (.fwd p) :: us →
    s.couch.st = .up → s.couch.replaysF ≤ 8 →
    ∃ t, exec (.couchUnitReceive .fxToQx true) s = .next t ∧ t.couch = s.couch.setDir .fxToQx us 0 ∧
      t.adm.waiting = s.adm.waiting ++ [p]) ∧
  (∀ (d : CouchDir) (u : CouchUnit) (us : List CouchUnit) (s : State), s.couch.units d = u :: us → s.couch.st = .up →
    s.couch.replays d ≤ 8 →
    ∃ t, exec (.couchUnitReceive d false) s = .next t ∧
      t.couch = s.couch.setDir d (u :: us) (s.couch.replays d + 1)) ∧
  (∀ (s : State), s.couch.st = .up → 8 < s.couch.replaysF → s.domUp domHP = true →
    ∃ t, exec .couchRetrain s = .next t ∧ t.couch.st = .retrain ∧ t.couch.retrains = satAdd 8 s.couch.retrains 1 ∧
      t.flag GEN_INT_STATUS_COUCH_RETRAIN ix0 = true) ∧
  (∀ (s : State), s.couch.st = .retrain → s.acc.waits = [] →
    ∃ t, exec .couchRetrainDone s = .next t ∧
      t.couch = { s.couch with st := .up, failed := 0, replaysF := 0, replaysQ := 0 } ∧ Frame [.couch] s t) ∧
  (∀ (s : State), s.couch.st = .retrain → s.couch.failed = 2 → s.gen.phase.mayIsolate = true →
    s.prt.recovering = false → s.prt.leaving = none → s.acc.waits = [] →
    (∀ p ∈ s.couch.qxToFx.filterMap CouchUnit.posted ++ s.acc.held, fxOff p.off = true) →
    ∃ t, exec .couchDown s = .next t ∧ t.couch.st = .down ∧ t.couch.fxToQx = [] ∧ t.couch.qxToFx = [] ∧
      t.acc.held = [] ∧ t.gen.phase = .isolate ∧ t.gen.isoCause = 2) ∧
  (∀ (slice : Fin 16) (idle : Fin 64) (older : Bool) (slot : Nat) (a : Arrival) (rest : List (Nat × Arrival))
    (s : State), slot = (tblGet 0 s.ing.slots slice.val + idle.val) % 64 →
    takeFirst (fun e => e.1 == slice.val && ((256 ≤ e.2.port) == (slot == 63))) s.arrivals =
        some ((slice.val, a), rest) ∨
      takeFirst (fun e => e.1 == slice.val && ((256 ≤ e.2.port) == (slot == 63))) s.arrivals = none ∧
        takeFirst (fun e => e.1 == slice.val) s.arrivals = some ((slice.val, a), rest) →
    s.gen.phase ≠ .isolate → s.gen.phase ≠ .park → s.pipesUp = true → a.direct = none →
    ∃ t p, exec (.packetDispatch slice idle older) s = .next t ∧ t.arrivals = rest ∧ p ∈ t.ing.pkts ∧ p.arr = a ∧
      p.slice = slice.val ∧ p.pipe = tblGet 0 s.ing.nextPipe slice.val ∧
      p.ream = s.stampFor (4 * slice.val + tblGet 0 s.ing.nextPipe slice.val) older ∧
      tblGet 0 t.ing.nextPipe slice.val = (tblGet 0 s.ing.nextPipe slice.val + 1) % 4 ∧
      tblGet 0 t.ing.slots slice.val = (slot + 1) % 64)

/-! ## Rings, mailboxes and locks, spec/05_rings_mailboxes_locks.md -/

/-- A valid doorbell moves HOST_IDX of a running ring (R141). One that breaks the validity condition of the ring's type
moves the ring to HALTED with code BAD_DOORBELL and is not applied; a doorbell to a ring that is not in RUN is ignored
(R142). Each of these commands answers a next state with its own effect, in every state that meets the clause's
conditions: .ringDoorbell. -/
def Obligations.DoorbellsMoveOrHaltTheirRing : Prop :=
  (∀ (r : Fin 16384) (h : W32) (s : State), s.fnAnswers .pf1 = true → (s.ring r.val).state = .run →
    isEvent r.val = false →
    isExport r.val = false → (h - (s.ring r.val).modIdx).toNat ≤ s.ringSize r.val →
    ∃ t, exec (.ringDoorbell r h) s = .next t ∧ (t.ring r.val).hostIdx = h ∧ (t.ring r.val).state = .run ∧
      (t.ring r.val).modIdx = (s.ring r.val).modIdx ∧ Frame [.acc, .rng, .pce, .out] s t) ∧
  (∀ (r : Fin 16384) (h : W32) (s : State), s.fnAnswers .pf1 = true → (s.ring r.val).state = .run →
    isEvent r.val || isExport r.val →
    ((s.ring r.val).modIdx - h).toNat ≤ s.ringSize r.val →
    ∃ t, exec (.ringDoorbell r h) s = .next t ∧ (t.ring r.val).hostIdx = h ∧ (t.ring r.val).state = .run ∧
      Frame [.acc, .rng] s t) ∧
  (∀ (r : Fin 16384) (h : W32) (s : State), s.fnAnswers .pf1 = true → (s.ring r.val).state = .run →
    s.ringSize r.val < (if isEvent r.val || isExport r.val then (s.ring r.val).modIdx - h
      else h - (s.ring r.val).modIdx).toNat →
    ∃ t, exec (.ringDoorbell r h) s = .next t ∧ (t.ring r.val).state = .halted ∧ (t.ring r.val).haltCode = 7 ∧
      (t.ring r.val).hostIdx = (s.ring r.val).hostIdx) ∧
  (∀ (r : Fin 16384) (h : W32) (s : State), s.fnAnswers .pf1 = true → (s.ring r.val).state ≠ .run →
    ∃ t, exec (.ringDoorbell r h) s = .next t ∧ Frame [.acc] s t)

/-- Enabling a DISABLED ring sets its indices to 0 and runs it, where its size exists and the guarantees of its engine
still fit; disabling a running ring makes it STOPPING, and once nothing is in flight it is DISABLED (R146, R152). Arming
a ring re-arms it, with a request only for completions gathered meanwhile; the coalescing timer requests the vector of
an armed ring with completions not yet signalled (R155). Each of these commands answers a next state with its own
effect, in every state that meets the clause's conditions: .ringEnable, .ringDisable, .ringDrained, .ringArm,
.ringCoalTimer, .dmaSlotAvailable. -/
def Obligations.RingsRunStopAndSignal : Prop :=
  (∀ (req : Req) (r : Fin 16384) (cfg w : W64) (s u : State), s.arrives req .rngCfg (ixI r.val) = true →
    u = s.arrived req .rngCfg (ixI r.val) → (u.ring r.val).state = .disabled →
    w = blend (u.rd .rngCfg (ixI r.val)) cfg (classMask .rngCfg .rw ||| classMask .rngCfg .rwx) →
    RNG_CFG_SIZE.get w ≤ 0xA → ((u.wr .rngCfg (ixI r.val) w).slotSums (r.val % 4)).1 + RNG_CFG_GUAR.get w ≤ 2048 →
    ∃ t, exec (.ringEnable req r cfg) s = .next t ∧ (t.ring r.val).state = .run ∧ (t.ring r.val).hostIdx = 0 ∧
      (t.ring r.val).modIdx = 0 ∧ t.flag RNG_CFG_ENABLE (ixI r.val) = true ∧
      t.fld RNG_CFG_SIZE (ixI r.val) = RNG_CFG_SIZE.get w ∧
      (∀ k, k ≠ r.val → t.ring k = u.ring k) ∧
      ∀ q ix, regAddr q ix ≠ regAddr .rngCfg (ixI r.val) → t.rd q ix = u.rd q ix) ∧
  (∀ (req : Req) (r : Fin 16384) (cfg : W64) (s u : State), s.arrives req .rngCfg (ixI r.val) = true →
    u = s.arrived req .rngCfg (ixI r.val) → (u.ring r.val).state = .run → isCommit r.val = false →
    ∃ t, exec (.ringDisable req r cfg) s = .next t ∧ (t.ring r.val).state = .stopping ∧
      t.flag RNG_CFG_ENABLE (ixI r.val) = false) ∧
  (∀ (r : Fin 16384) (s : State), (s.ring r.val).inflight = 0 → (s.ring r.val).state = .stopping →
    ∃ t, exec (.ringDrained r) s = .next t ∧
      t.ring r.val = { s.ring r.val with state := .disabled, closing := false } ∧
      (∀ k, k ≠ r.val → t.ring k = s.ring k) ∧ Frame [.rng] s t) ∧
  (∀ (r : Fin 16384) (s : State), s.fnAnswers .pf1 = true → (s.ring r.val).gathered < s.coalCount r.val →
    ∃ t, exec (.ringArm r) s = .next t ∧
      t.ring r.val = { s.ring r.val with armed := true, irqPend := false } ∧ Frame [.acc, .rng, .pf1, .out] s t) ∧
  (∀ (r : Fin 16384) (s : State), s.flag RNG_CFG_IRQ_EN (ixI r.val) = true → (s.ring r.val).armed = true →
    s.fld RNG_CFG_COAL_TIME (ixI r.val) ≠ 0 → (s.ring r.val).gathered ≠ 0 →
    ∃ t, exec (.ringCoalTimer r) s = .next t ∧
      t.ring r.val = { s.ring r.val with armed := false, gathered := 0, irqPend := true } ∧
      Frame [.rng, .pf1, .out] s t) ∧
  (∀ (e : Fin 4) (h : HeldRec) (rest : List HeldRec) (s : State),
    takeFirst (fun h : HeldRec => h.ring % 4 = e.val) s.rng.fifos = some (h, rest) →
    (s.ring h.ring).state = .run → s.recFull h.ring = false → s.slotOk h.ring = true → s.canMaster .pf1 = true →
    ∃ t, exec (.dmaSlotAvailable e) s = .next t ∧ t.rng.fifos = rest ∧
      (t.ring h.ring).modIdx = (s.ring h.ring).modIdx + 1 ∧
      t.hostWrote .pf1 s.pf1.cfg.payload (s.descAddr h.ring (s.ring h.ring).modIdx.toNat)
        (withPhase h.bytes (s.phaseBit h.ring (s.ring h.ring).modIdx.toNat)))

/-- A TX chain that is in order enters the module at the host port of the ring's slice, and one that is not is refused:
either way every descriptor of it is written back and MOD_IDX moves past the chain (R147, R148). The oldest packet for
an RX ring fills the posted buffers in order and leaves the module; at a ring that does not run, and where a cell of it
is read with an uncorrectable error, it is dropped and counted (R146, R149, R153, spec/12_buffering.md R373). Each of
these commands answers a next state with its own effect, in every state that meets the clause's conditions:
.txDescriptor, .rxPacketDeliver. -/
def Obligations.PacketsCrossTheRings : Prop :=
  (∀ (r : Fin 16384) (chain : List TxDesc) (data : List Byte) (d : TxDesc) (s : State), isTx r.val = true →
    (s.ring r.val).state = .run → chain.head? = some d → chain.length ≤ s.covered r.val → s.canMaster .pf1 = true →
    (chain.length ≤ (s.ring r.val).slots ∨ s.slotsOk r.val (chain.length - (s.ring r.val).slots) = true) →
    txStatus chain data = 0 → s.domUp domQC = true →
    (s.hostDma data.length).2 = .covered →
    ∃ t, exec (.txDescriptor r chain data) s = .next t ∧
      t.arrivals = s.arrivals ++ [(s.fld RNG_CFG_SLICE (ixI r.val),
        { port := 256 + 2 * s.fld RNG_CFG_SLICE (ixI r.val), bytes := data, ts := none,
          direct := if d.mode then some (d.destPort.toNat, d.cls.toNat) else none, fseq := 0 })] ∧
      (t.ring r.val).modIdx = (s.ring r.val).modIdx + BitVec.ofNat 32 chain.length) ∧
  (∀ (r : Fin 16384) (chain : List TxDesc) (data : List Byte) (s : State), isTx r.val = true →
    (s.ring r.val).state = .run → chain ≠ [] → chain.length ≤ s.covered r.val → s.canMaster .pf1 = true →
    (chain.length ≤ (s.ring r.val).slots ∨ s.slotsOk r.val (chain.length - (s.ring r.val).slots) = true) →
    txStatus chain data ≠ 0 →
    ∃ t, exec (.txDescriptor r chain data) s = .next t ∧ t.arrivals = s.arrivals ∧
      (t.ring r.val).modIdx = (s.ring r.val).modIdx + BitVec.ofNat 32 chain.length) ∧
  (∀ (r : Fin 16384) (bufs : List (W64 × BitVec 16)) (p : HostPkt) (rest : List HostPkt)
      (pieces : List ((W64 × BitVec 16) × List Byte)) (s : State),
    takeFirst (fun p : HostPkt => p.ring = r.val) s.hostQ = some (p, rest) → (s.ring r.val).state = .run →
    isRx r.val = true → rxPieces p.bytes (bufs.take (s.covered r.val)) = some pieces →
    s.slotsOk r.val pieces.length = true → s.canMaster .pf1 = true →
    ∃ t, exec (.rxPacketDeliver r bufs false) s = .next t ∧ t.hostQ = rest ∧
      (t.ring r.val).modIdx = (s.ring r.val).modIdx + BitVec.ofNat 32 pieces.length ∧
      ∀ q ∈ pieces, t.hostWrote .pf1 s.pf1.cfg.payload q.1.1.toNat q.2) ∧
  (∀ (r : Fin 16384) (bufs : List (W64 × BitVec 16)) (p : HostPkt) (rest : List HostPkt)
      (pieces : List ((W64 × BitVec 16) × List Byte)) (s : State),
    takeFirst (fun p : HostPkt => p.ring = r.val) s.hostQ = some (p, rest) → (s.ring r.val).state = .run →
    isRx r.val = true → rxPieces p.bytes (bufs.take (s.covered r.val)) = some pieces →
    s.slotsOk r.val pieces.length = true → s.canMaster .pf1 = true →
    ∃ t, exec (.rxPacketDeliver r bufs true) s = .next t ∧ t.hostQ = rest ∧
      (t.ring r.val).drop = satAdd 48 (s.ring r.val).drop 1 ∧
      (t.ring r.val).modIdx = (s.ring r.val).modIdx) ∧
  (∀ (r : Fin 16384) (bufs : List (W64 × BitVec 16)) (ue : Bool) (p : HostPkt) (rest : List HostPkt) (s : State),
    takeFirst (fun p : HostPkt => p.ring = r.val) s.hostQ = some (p, rest) → (s.ring r.val).state ≠ .run →
    isRx r.val = true →
    ∃ t, exec (.rxPacketDeliver r bufs ue) s = .next t ∧ t.hostQ = rest ∧
      (t.ring r.val).drop = satAdd 48 (s.ring r.val).drop 1)

/-- A post fills H2M with the pointer and the posted fields, and one on a full mailbox replaces the notice; TAKE empties
M2H; outside RUN a full mailbox's timer empties it; FR_ACK changes while both mailboxes are empty (R159, R162 to R164).
The Mill takes a notice with its command block into a service slot and H2M empties; it answers a finished command by
writing the block's header and posting M2H (R160, R162, R165). Each of these commands answers a next state with its own
effect, in every state that meets the clause's conditions: .mbxH2mPost, .mbxM2hTake, .mbxTimeout, .mbxModeWrite,
.millTakeNotice, .millAnswer. -/
def Obligations.MailboxesCarryCommands : Prop :=
  (∀ (i : Fin 8) (v : W64) (s u : State), s.arrives .pf0 .mbxH2mPost (ixI i.val) = true →
    u = s.arrived .pf0 .mbxH2mPost (ixI i.val) → u.domUp domHP = true →
    ∃ t, exec (.mbxH2mPost i v) s = .next t ∧
      (t.pair i.val).h2m = some (⟨u.rd .mbxH2mPtr (ixI i.val), BitVec.ofNat 16 (MBX_H2M_POST_LEN.get v),
        BitVec.ofNat 8 (MBX_H2M_POST_TAG.get v), BitVec.ofNat 8 (MBX_H2M_POST_SEQ.get v)⟩ : Notice) ∧
      (t.pair i.val).m2h = (u.pair i.val).m2h ∧
      ((u.pair i.val).h2m.isSome = true → (t.pair i.val).collision = true)) ∧
  (∀ (i : Fin 8) (v : W64) (s u : State), s.arrives .pf0 .mbxM2hTake (ixI i.val) = true →
    u = s.arrived .pf0 .mbxM2hTake (ixI i.val) → MBX_M2H_TAKE_TAKE.get v = 1 → (u.pair i.val).m2h.isSome = true →
    (u.pair i.val).frAck = true →
    ∃ t, exec (.mbxM2hTake i v) s = .next t ∧
      t.pair i.val = { u.pair i.val with m2h := none, takeCode := BitVec.ofNat 8 (MBX_M2H_TAKE_CODE.get v) } ∧
      Frame [.mbx] u t) ∧
  (∀ (i : Fin 8) (s : State), s.gen.phase ≠ .run → (s.pair i.val).h2m.isSome = true →
    ∃ t, exec (.mbxTimeout i true) s = .next t ∧
      t.pair i.val = { s.pair i.val with h2m := none, timeout := true, ackCode := 6 }) ∧
  (∀ (i : Fin 8) (s : State), s.gen.phase ≠ .run → (s.pair i.val).m2h.isSome = true →
    ∃ t, exec (.mbxTimeout i false) s = .next t ∧ t.pair i.val = { s.pair i.val with m2h := none, takeCode := 6 } ∧
      Frame [.regs, .pf0, .pf1, .rng, .mbx, .mil, .out] s t) ∧
  (∀ (req : Req) (i : Fin 8) (v : W64) (s u : State), s.arrives req .mbxMode (ixI i.val) = true →
    u = s.arrived req .mbxMode (ixI i.val) → (u.pair i.val).h2m = none → (u.pair i.val).m2h = none →
    ∃ t, exec (.mbxModeWrite req i v) s = .next t ∧
      t.pair i.val = { u.pair i.val with frAck := MBX_MODE_FR_ACK.get v = 1 } ∧
      (∀ k, k ≠ i.val → t.pair k = u.pair k) ∧ Frame [.mbx] u t) ∧
  (∀ (i : Fin 8) (n : Notice) (block : List Byte) (s : State), (s.pair i.val).h2m = some n → s.millServes = true →
    s.canMaster .pf0 = true → (s.pair i.val).frAck = false → s.tagOk .pf0 = true → s.serviceOk (.mbx i) = true →
    n.ptr.toNat % 8 = 0 → 16 ≤ blockLength block → blockLength block % 8 = 0 → blockLength block = n.len.toNat →
    blockLength block ≤ 65528 → blockOpcode block ∈ millOpcodes →
    ∃ t, exec (.millTakeNotice i true block) s = .next t ∧
      t.mbx.slots = s.mbx.slots ++ [waiting (.mbx i) n block] ∧
      (t.pair i.val).h2m = none ∧ (t.pair i.val).m2h = (s.pair i.val).m2h) ∧
  (∀ (i : Fin 8) (x : MillSlot) (rest : List MillSlot) (s : State),
    takeFirst (fun x : MillSlot => x.src == .mbx i && (x.done || x.abandoned)) s.mbx.slots = some (x, rest) →
    x.abandoned = false → s.millServes = true → s.canMaster .pf0 = true → (s.pair i.val).frAck = false →
    (s.pair i.val).m2h = none →
    ∃ t, exec (.millAnswer (.mbx i)) s = .next t ∧ t.mbx.slots = rest ∧ (t.pair i.val).m2h = some x.notice ∧
      t.hostWrote .pf0 s.pf0.cfg.payload (x.notice.ptr.toNat + 16) (x.resp.take (x.notice.len.toNat - 16)) ∧
      t.hostWrote .pf0 s.pf0.cfg.payload (x.notice.ptr.toNat + 8) (leBytes 1 x.status.toNat ++
        leBytes 3 x.detail.toNat ++ leBytes 4 (x.resp.take (x.notice.len.toNat - 16)).length))

/-- A read of a SEM_LOCK that finds it 0 makes the reader, a master with its ID, the owner and answers 0; one that finds
it non-zero answers the owner's ID and changes nothing; a read of the high half alone answers 0 and never acquires
(R169). Of several masters that read in one cycle, the first in the order Mill, PF0, mate, debug port acquires, and each
other reader receives the winner's ID (R170). A release by the owner frees the lock, one by another master is ignored
and counted; the Mill's FORCE frees any lock, another master's none (R172). Each of these commands answers a next state
with its own effect, in every state that meets the clause's conditions: .semLockRead, .rel, .force. -/
def Obligations.LocksAreReadInTurnAndReleased : Prop :=
  (masterId .mill = 1 ∧ masterId .pf0 = 2 ∧ masterId .mate = 3 ∧ masterId .dbg = 4) ∧
  (∀ (n : Fin 64) (m : Req) (s : State), s.lockMaster m = true → s.domUp domHP = true → s.lockOwner n.val = 0 →
    ∃ t, exec (.semLockRead n [m] .full) s = .next t ∧ t.lockOwner n.val = masterId m ∧
      t.out = .answer m 0 :: s.out ∧ (∀ k, k ≠ n.val → t.lockOwner k = s.lockOwner k) ∧ Frame [.acc, .sem, .out] s t) ∧
  (∀ (n : Fin 64) (m : Req) (s : State), s.lockMaster m = true → s.domUp domHP = true → s.lockOwner n.val ≠ 0 →
    ∃ t, exec (.semLockRead n [m] .full) s = .next t ∧
      t.out = .answer m (BitVec.ofNat 64 (s.lockOwner n.val)) :: s.out ∧ Frame [.acc, .out] s t) ∧
  (∀ (n : Fin 64) (m : Req) (s : State), s.lockMaster m = true → s.domUp domHP = true →
    ∃ t, exec (.semLockRead n [m] .high) s = .next t ∧ t.out = .answer m 0 :: s.out ∧ Frame [.acc, .out] s t) ∧
  (∀ (n : Fin 64) (readers rest : List Req) (m : Req) (s : State), s.domUp domHP = true → s.lockOwner n.val = 0 →
    (∀ x ∈ readers, s.lockMaster x = true) → [Req.mill, .pf0, .mate, .dbg].filter (readers.contains ·) = m :: rest →
    ∃ t, exec (.semLockRead n readers .full) s = .next t ∧ t.lockOwner n.val = masterId m ∧
      t.out = (rest.map fun x => Out.answer x (BitVec.ofNat 64 (masterId m))).reverse ++ .answer m 0 :: s.out ∧
      (∀ k, k ≠ n.val → t.lockOwner k = s.lockOwner k) ∧ Frame [.acc, .sem, .out] s t) ∧
  (∀ (m : Req) (n : Fin 64) (s u : State), m ≠ .mate → s.arrives m .semRelease (ixI n.val) = true →
    u = s.arrived m .semRelease (ixI n.val) → u.lockMaster m = true → u.domUp domHP = true →
    u.lockOwner n.val = masterId m →
    ∃ t, exec (.rel m n) s = .next t ∧ t.lockOwner n.val = 0 ∧ (∀ k, k ≠ n.val → t.lockOwner k = u.lockOwner k) ∧
      Frame [.sem] u t) ∧
  (∀ (n : Fin 64) (s : State), s.domUp domHP = true → s.prt.felt = true → s.lockOwner n.val ≠ masterId .mate →
    ∃ t, exec (.rel .mate n) s = .next t ∧ t.sem = s.sem ∧ t.fld SEM_FOREIGN_COUNT ix0 =
      satAdd SEM_FOREIGN_COUNT.width (s.fld SEM_FOREIGN_COUNT ix0) 1 ∧ Frame [.regs] s t) ∧
  (∀ (n : Fin 64) (s u : State), s.arrives .mill .semRelease (ixI n.val) = true →
    u = s.arrived .mill .semRelease (ixI n.val) → u.domUp domHP = true →
    ∃ t, exec (.force .mill n) s = .next t ∧ t.lockOwner n.val = 0 ∧
      (∀ k, k ≠ n.val → t.lockOwner k = u.lockOwner k) ∧ Frame [.sem] u t) ∧
  (∀ (n : Fin 64) (s : State), s.domUp domHP = true →
    ∃ t, exec (.force .mate n) s = .next t ∧ t.sem = s.sem)

/-! ## Lines and FlexE, spec/06_line_flexe.md and spec/07_line_monitoring.md -/

/-- A slice with a map that exists starts, and one that runs stops with every link down (R174, R177, R186). A port is
enabled by its bit (R178). In the statements about register writes here, `u` is the state once what the instance was
written before has taken effect. A good frame goes to its slice with its time-stamp; a runt and a frame with a bad FCS
are counted and go nowhere (R180, R187). A PFC frame at an Ethernet MAC pauses or releases the enabled classes that it
names and no other; a pause runs out for its class alone; XOFF is repeated while admission asks for it at an Ethernet
MAC that transmits (R177 to R182). Each of these commands answers a next state with its own effect, in every state that
meets the clause's conditions: .sliceRun, .sliceStop, .portEnable, .portLinkUp, .remoteFault, .frameReceive,
.pfcReceive, .pfcPauseExpiry, .pfcXoffRepeat. -/
def Obligations.PortsRunAndReceive : Prop :=
  (∀ (req : Req) (k : Fin 16) (v : W64) (s u : State), s.arrives req .linSliceCtrl (ixN k.val) = true →
    u = (s.arrived req .linSliceCtrl (ixN k.val)).flushRw .lin k.val → u.sliceRuns k.val = false →
    LIN_SLICE_CTRL_MAP.get v < 0xC → u.prt.leaving = none →
    ∃ t, exec (.sliceRun req k v) s = .next t ∧ t.sliceRuns k.val = true ∧ t.sliceMap k.val = LIN_SLICE_CTRL_MAP.get v ∧
      t.flag LIN_SLICE_CTRL_STOPPED (ixN k.val) = false) ∧
  (∀ (req : Req) (k : Fin 16) (v : W64) (s u : State), s.arrives req .linSliceCtrl (ixN k.val) = true →
    u = (s.arrived req .linSliceCtrl (ixN k.val)).flushRw .lin k.val → u.sliceRuns k.val = true →
    u.prt.leaving = none →
    ∃ t, exec (.sliceStop req k v) s = .next t ∧ t.sliceRuns k.val = false ∧
      t.flag LIN_SLICE_CTRL_STOPPED (ixN k.val) = true ∧
      ∀ i < 16, t.flag LIN_PORT_STATUS_LINK_UP (portIx (16 * k.val + i)) = false) ∧
  (∀ (req : Req) (p : Fin 256) (v : W64) (s u : State), s.arrives req .linPortCfg (portIx p.val) = true →
    u = (s.arrived req .linPortCfg (portIx p.val)).flushRw .lin (p.val / 16) →
    ∃ t, exec (.portEnable req p v) s = .next t ∧
      t.flag LIN_PORT_CFG_ENABLE (portIx p.val) = (LIN_PORT_CFG_ENABLE.get v = 1)) ∧
  (∀ (p : Fin 256) (s : State), s.isPort p.val = true → s.domUp (portDomain p.val) = true →
    s.sliceRuns (p.val / 16) = true →
    ∃ t, exec (.portLinkUp p) s = .next t ∧ t.flag LIN_PORT_STATUS_LINK_UP (portIx p.val) = true ∧
      t.flag LIN_PORT_STATUS_LOCAL_FAULT (portIx p.val) = false ∧
      t.flag LIN_PORT_STATUS_REMOTE_FAULT (portIx p.val) = false) ∧
  (∀ (p : Fin 256) (on : Bool) (s : State), s.isPort p.val = true → s.domUp (portDomain p.val) = true →
    s.sliceRuns (p.val / 16) = true →
    ∃ t, exec (.remoteFault p on) s = .next t ∧ t.flag LIN_PORT_STATUS_REMOTE_FAULT (portIx p.val) = on ∧
      t.flag LIN_PORT_STATUS_LINK_UP (portIx p.val) = (!on && s.lin.aligned.contains p.val)) ∧
  (∀ (p : Fin 256) (frame : List Byte) (fcs : BitVec 32) (m : Mac) (s : State), s.macOf p.val = some m →
    s.domUp (portDomain p.val) = true → 64 ≤ frame.length + 4 → frame.length + 4 ≤ s.macMax p.val m →
    crc32 frame = fcs.toNat → s.macOn p.val m = true → macControl frame = none → s.pipesUp = true →
    ∃ t, exec (.frameReceive p frame fcs) s = .next t ∧ t.regs = s.regs ∧ t.arrivals = s.arrivals ++
      [(p.val / 16, ⟨p.val, frame, s.rxStamp p.val, none, (s.frames p.val).seq.toNat⟩)] ∧
      Frame [.lin, .arrivals] s t) ∧
  (∀ (p : Fin 256) (frame : List Byte) (fcs : BitVec 32) (m : Mac) (s : State), s.macOf p.val = some m →
    s.domUp (portDomain p.val) = true → frame.length + 4 < 64 →
    ∃ t, exec (.frameReceive p frame fcs) s = .next t ∧ t.arrivals = s.arrivals ∧
      t.fld LIN_RX_RUNT_COUNT (portIx p.val) =
        satAdd LIN_RX_RUNT_COUNT.width (s.fld LIN_RX_RUNT_COUNT (portIx p.val)) 1 ∧ Frame [.lin, .regs] s t) ∧
  (∀ (p : Fin 256) (frame : List Byte) (fcs : BitVec 32) (m : Mac) (s : State), s.macOf p.val = some m →
    s.domUp (portDomain p.val) = true → 64 ≤ frame.length + 4 → frame.length + 4 ≤ s.macMax p.val m →
    crc32 frame ≠ fcs.toNat →
    ∃ t, exec (.frameReceive p frame fcs) s = .next t ∧ t.arrivals = s.arrivals ∧
      t.fld LIN_RX_FCS_ERR_COUNT (portIx p.val) =
        satAdd LIN_RX_FCS_ERR_COUNT.width (s.fld LIN_RX_FCS_ERR_COUNT (portIx p.val)) 1 ∧ Frame [.lin, .regs] s t) ∧
  (∀ (p : Fin 256) (en : BitVec 8) (quanta : List (BitVec 16)) (s : State), s.macOf p.val = some .ether →
    s.domUp (portDomain p.val) = true → s.macOn p.val .ether = true →
    ∃ t, exec (.pfcReceive p en quanta) s = .next t ∧
      (∀ i < 8, bitAt (t.fld LIN_PORT_STATUS_PAUSED (portIx p.val)) i =
        if en.getLsbD i && bitAt (s.fld LIN_PORT_CFG_PFC_EN (portIx p.val)) i then (quanta.getD i 0).toNat != 0
        else bitAt (s.fld LIN_PORT_STATUS_PAUSED (portIx p.val)) i) ∧ Frame [.regs] s t) ∧
  (∀ (p : Fin 256) (cls : Fin 8) (s : State),
    ∃ t, exec (.pfcPauseExpiry p cls) s = .next t ∧
      (∀ i < 8, bitAt (t.fld LIN_PORT_STATUS_PAUSED (portIx p.val)) i =
        (i != cls.val && bitAt (s.fld LIN_PORT_STATUS_PAUSED (portIx p.val)) i)) ∧
      (∀ q ix, regAddr q ix ≠ regAddr .linPortStatus (portIx p.val) → t.rd q ix = s.rd q ix) ∧ Frame [.regs] s t) ∧
  (∀ (p : Fin 256) (cls : Fin 8) (s : State), 8 * p.val + cls.val ∈ s.lin.xoff →
    s.portTx p.val = true → s.macOf p.val = some .ether →
    ∃ t, exec (.pfcXoffRepeat p cls) s = .next t ∧
      t.out = .pfc p.val cls.val (s.fld LIN_PORT_CFG_PFC_QUANTA (portIx p.val)) :: s.out ∧ Frame [.regs, .out] s t)

/-- A FlexE group is enabled by its bit and asks for a calendar switch by CAL_REQ; the switch makes the other calendar
active, and a switch not acknowledged is abandoned (R191, R192). Clients and circuits are enabled by their bits (R193,
R197). The slot cross-connect: COPY starts a copy, whose end leaves the standby page equal to the active one; ARM arms
and DISARM disarms; a page switch in time mode makes the standby page the active one, with the calendars of the groups
that switch at the same boundary (R195, R196). The register file is taken to be canonical, which every step keeps
(StepKeepsRegisterFilesCanonical). Each of these commands answers a next state with its own effect, in every state that
meets the clause's conditions: .flxGroupEnable, .calReq, .calendarSwitch, .calFail, .flxClientEnable, .flxCktEnable,
.copy, .copyDone, .arm, .disarm, .xcPageSwitch. -/
def Obligations.FlexeAndCrossConnect : Prop :=
  (∀ (req : Req) (n : Fin 32) (v : W64) (s u : State), s.arrives req .flxGroupCfg (ixI n.val) = true →
    u = (s.arrived req .flxGroupCfg (ixI n.val)).flushRw .flx 0 → u.prt.leaving = none →
    ∃ t, exec (.flxGroupEnable req n v) s = .next t ∧ t.groupRuns n.val = (FLX_GROUP_CFG_EN.get v = 1)) ∧
  (∀ (req : Req) (n : Fin 32) (v : W64) (s u : State), s.arrives req .flxGroupCfg (ixI n.val) = true →
    u = (s.arrived req .flxGroupCfg (ixI n.val)).flushRw .flx 0 → u.prt.leaving = none →
    FLX_GROUP_CFG_EN.get v = 1 →
    ∃ t, exec (.calReq req n v) s = .next t ∧ t.groupRuns n.val = true ∧ n.val ∈ t.lin.calReq) ∧
  (∀ (n : Fin 32) (s : State), n.val ∈ s.lin.calReq → s.domUp domFC = true → s.gen.phase ≠ .park →
    s.xcWaitsFor n.val = false →
    ∃ t, exec (.calendarSwitch n) s = .next t ∧ n.val ∉ t.lin.calReq ∧
      t.fld FLX_GROUP_CFG_CAL_ACTIVE (ixI n.val) = 1 - s.fld FLX_GROUP_CFG_CAL_ACTIVE (ixI n.val) ∧
      t.flag FLX_INT_STATUS_CAL_SWITCHED ix0 = true) ∧
  (∀ (n : Fin 32) (s : State), n.val ∈ s.lin.calReq → s.domUp domFC = true → s.gen.phase ≠ .park →
    ∃ t, exec (.calFail n) s = .next t ∧ n.val ∉ t.lin.calReq ∧ t.flag FLX_INT_STATUS_CAL_FAIL ix0 = true ∧
      t.fld FLX_GROUP_CFG_CAL_ACTIVE (ixI n.val) = s.fld FLX_GROUP_CFG_CAL_ACTIVE (ixI n.val)) ∧
  (∀ (req : Req) (c : Fin 512) (v : W64) (s u : State), s.arrives req .flxClient (ixI c.val) = true →
    u = (s.arrived req .flxClient (ixI c.val)).flushRw .flx 0 → u.flag FLX_CLIENT_EN (ixI c.val) = false →
    FLX_CLIENT_EN.get v = 1 → (u.ownWrite req .flxClient (ixI c.val) v FLX_CLIENT_EN.mask).clientOk c.val = true →
    ∃ t, exec (.flxClientEnable req c v) s = .next t ∧ t.flag FLX_CLIENT_EN (ixI c.val) = true ∧
      t.fld FLX_CLIENT_GROUP (ixI c.val) = FLX_CLIENT_GROUP.get v) ∧
  (∀ (req : Req) (c : Fin 512) (v : W64) (s : State), s.arrives req .flxClient (ixI c.val) = true →
    FLX_CLIENT_EN.get v = 0 →
    ∃ t, exec (.flxClientEnable req c v) s = .next t ∧ t.flag FLX_CLIENT_EN (ixI c.val) = false) ∧
  (∀ (req : Req) (c : Fin 4096) (v : W64) (s : State), s.arrives req .flxCkt (ixI c.val) = true →
    ∃ t, exec (.flxCktEnable req c v) s = .next t ∧
      t.flag FLX_CKT_EN (ixI c.val) = (FLX_CKT_EN.get v = 1)) ∧
  (∀ (req : Req) (v : W64) (s u : State), s.arrives req .flxXcCtrl ix0 = true →
    u = (s.arrived req .flxXcCtrl ix0).flushRw .flx 0 → u.flag FLX_XC_STATUS_ARMED ix0 = false →
    ∃ t, exec (.copy req v) s = .next t ∧ t.flag FLX_XC_STATUS_COPY_BUSY ix0 = true) ∧
  (∀ (s : State), RegsInv s → s.flag FLX_XC_STATUS_COPY_BUSY ix0 = true → s.gen.phase ≠ .park →
    ∃ t, exec .copyDone s = .next t ∧ t.flag FLX_XC_STATUS_COPY_BUSY ix0 = false ∧
      ∀ k < 10240, t.rd .flxXcSby0 (ixI k) = s.rd .flxXcAct0 (ixI k) ∧
        t.rd .flxXcSby1 (ixI k) = s.rd .flxXcAct1 (ixI k) ∧ t.rd .flxXcAct0 (ixI k) = s.rd .flxXcAct0 (ixI k)) ∧
  (∀ (req : Req) (v : W64) (s u : State), s.arrives req .flxXcCtrl ix0 = true →
    u = (s.arrived req .flxXcCtrl ix0).flushRw .flx 0 → u.flag FLX_XC_STATUS_ARMED ix0 = false →
    ∃ t, exec (.arm req v) s = .next t ∧ t.flag FLX_XC_STATUS_ARMED ix0 = true) ∧
  (∀ (req : Req) (v : W64) (s u : State), s.arrives req .flxXcCtrl ix0 = true →
    u = (s.arrived req .flxXcCtrl ix0).flushRw .flx 0 → u.flag FLX_XC_STATUS_ARMED ix0 = true →
    ∃ t, exec (.disarm req v) s = .next t ∧ t.flag FLX_XC_STATUS_ARMED ix0 = false) ∧
  (∀ (joined : List (Fin 32)) (s : State), RegsInv s → s.flag FLX_XC_STATUS_ARMED ix0 = true →
    s.domUp domFC = true → s.gen.phase ≠ .park → s.fld FLX_XC_CTRL_MODE ix0 = 0 → s.domUp domTM = true →
    s.xcTimeReached = true →
    ∃ t, exec (.xcPageSwitch joined) s = .next t ∧ t.flag FLX_XC_STATUS_ARMED ix0 = false ∧
      t.fld FLX_XC_STATUS_ACTIVE ix0 = 1 - s.fld FLX_XC_STATUS_ACTIVE ix0 ∧
      t.flag FLX_INT_STATUS_XC_SWITCHED ix0 = true ∧
      (∀ n ∈ joined, n.val ∈ s.lin.calReq →
        t.fld FLX_GROUP_CFG_CAL_ACTIVE (ixI n.val) = 1 - s.fld FLX_GROUP_CFG_CAL_ACTIVE (ixI n.val)) ∧
      ∀ k < 10240, t.rd .flxXcAct0 (ixI k) = s.rd .flxXcSby0 (ixI k) ∧
        t.rd .flxXcSby0 (ixI k) = s.rd .flxXcAct0 (ixI k))

/-- A declared defect of an entity that can be monitored is its signal fail and makes its second severely errored, and a
cleared one is gone; GROUP_FAIL is not cleared while a PHY of the group is in LOS or LOA, nor CLIENT_FAIL while its
group is in GROUP_FAIL (R207, R208, R214). The last bad period of enough in a row declares SD, and hold-off runs out
(R209, R210); the second that ends is judged and waits, and is counted into the bins once ten more have been judged
(R214 to R216). Each of these commands answers a next state with its own effect, in every state that meets the clause's
conditions: .losDeclare, .loaDeclare, .groupFail, .clientFail, .defectClear, .sdPeriodEnd, .holdOffExpiry, .pmSecondEnd,
.pmSecondCommit. -/
def Obligations.SignalsAreMonitored : Prop :=
  (∀ (u : SigUnit) (s : State), s.notMon (unitEnt u) = false →
    ∃ t, exec (.losDeclare u) s = .next t ∧ (t.ent (unitEnt u)).los = true ∧ (t.ent (unitEnt u)).hit = true) ∧
  (∀ (u : SigUnit) (s : State), s.notMon (unitEnt u) = false →
    ∃ t, exec (.loaDeclare u) s = .next t ∧ (t.ent (unitEnt u)).loa = true ∧ (t.ent (unitEnt u)).hit = true) ∧
  (∀ (n : Fin 32) (s : State), s.notMon (entGroup n.val) = false →
    ∃ t, exec (.groupFail n) s = .next t ∧ (t.ent (entGroup n.val)).fail = true ∧
      (t.ent (entGroup n.val)).hit = true) ∧
  (∀ (c : Fin 512) (s : State), s.notMon (entClient c.val) = false →
    ∃ t, exec (.clientFail c) s = .next t ∧ (t.ent (entClient c.val)).fail = true ∧
      (t.ent (entClient c.val)).hit = true) ∧
  (∀ (u : SigUnit) (s : State),
    (∃ t, exec (.defectClear (.los u)) s = .next t ∧ (t.ent (unitEnt u)).los = false ∧
      (t.ent (unitEnt u)).loa = (s.ent (unitEnt u)).loa) ∧
    (∃ t, exec (.defectClear (.loa u)) s = .next t ∧ (t.ent (unitEnt u)).loa = false ∧
      (t.ent (unitEnt u)).los = (s.ent (unitEnt u)).los)) ∧
  (∀ (n : Fin 32) (c : Fin 512) (s : State),
    (s.phyFails n.val = false →
      ∃ t, exec (.defectClear (.group n)) s = .next t ∧ (t.ent (entGroup n.val)).fail = false) ∧
    ((s.ent (entGroup (s.fld FLX_CLIENT_GROUP (ixI c.val)))).fail = false →
      s.phyFails (s.fld FLX_CLIENT_GROUP (ixI c.val)) = false →
      ∃ t, exec (.defectClear (.client c)) s = .next t ∧ (t.ent (entClient c.val)).fail = false)) ∧
  (∀ (u : SigUnit) (symbols corrected uncorrectable : BitVec 48) (s : State), s.notMon (unitEnt u) = false →
    s.sf (unitEnt u) = false → (s.ent (unitEnt u)).sd = false → uncorrectable ≠ 0 →
    max 1 (s.fld PMN_ENT_CFG_SD_PERIODS (ixI (unitEnt u))) ≤ (s.ent (unitEnt u)).sdBad + 1 →
    ∃ t, exec (.sdPeriodEnd u symbols corrected uncorrectable) s = .next t ∧ (t.ent (unitEnt u)).sd = true) ∧
  (∀ (e : Fin 1120) (s : State),
    (∃ t, exec (.holdOffExpiry e true) s = .next t ∧ t.ent e.val = { s.ent e.val with sdHeld := false }) ∧
    (∃ t, exec (.holdOffExpiry e false) s = .next t ∧ t.ent e.val = { s.ent e.val with sfHeld := false })) ∧
  (∀ (counts : List SecondBlocks) (s : State), s.domUp domFC = true → s.domUp domTM = true →
    s.pmn.sec ≠ s.tim.sec →
    ∃ t, exec (.pmSecondEnd counts) s = .next t ∧ t.pmn.sec = s.tim.sec ∧
      t.pmn.pend.length = s.pmn.pend.length + 1) ∧
  (∀ (p : PmSecond) (rest : List PmSecond) (s : State), s.pmn.pend = p :: rest → 10 ≤ rest.length →
    s.domUp domFC = true →
    (p.sec + 1) % 900 ≠ 0 → s.dayOf (p.sec + 1) = s.dayOf p.sec →
    ∃ t, exec .pmSecondCommit s = .next t ∧ t.pmn.pend = rest ∧
      t.fld PMN_STATUS_COMMITTED ix0 = p.sec % 2 ^ PMN_STATUS_COMMITTED.width ∧
      ∀ e < 1120, (t.ent e).bins.cur15 = (s.ent e).bins.cur15.add p.sec p.suspect (tblFind e p.ents) ∧
        (t.ent e).bins.cur24 = (s.ent e).bins.cur24.add p.sec p.suspect (tblFind e p.ents))

/-! ## The parse engines, spec/08_parser.md -/

/-- A packet that waits gets an engine that starts at START_PC of its entry, and once its parse has ended it goes on; a
parse of 96 instructions is truncated (R224 to R228, R233). What the instructions that branch and end a parse do: BR,
JMP, BRW, DEC, CHK and DONE (R230, R233). The cause codes of CHK, TRIM and DONE run from 0x01 to 0x3F, and an
instruction that gives 0x00 reports 0x3F, which is said here where the action for the code lets the packet go on; a DONE
of KIND 0 that names CLASS 0xFE or 0xFF ends the parse TRUNCATED with reason PROGRAM (R232). Each of these commands
answers a next state with its own effect, in every state that meets the clause's conditions: .parseStart,
.parseStepLimit, .parseResultDelivery, .br, .jmp, .brw, .dec, .chk, .done. -/
def Obligations.ParsesStartBranchAndEnd : Prop :=
  (∀ (pipe : Fin 64) (p : Pkt) (e n : Nat) (v w : Ver) (s : State), s.gen.phase ≠ .isolate → s.gen.phase ≠ .park →
    s.ing.pkts.find? (fun p => p.stage == .dispatched && 4 * p.slice + p.pipe == pipe.val) = some p →
    s.nextFree pipe.val = some e →
    s.verIdx (tkey tEntry (32 * p.slice + entryOf p.arr.port)) (p.ream % 16) = some (n, v) → v.bad = false →
    bitAt v.img 32 = true → s.verAt (tkey tStore (8192 * p.slice + bitsOf v.img 0 13)) (p.ream % 16) = some w →
    ∃ (t : State) (q : Pkt), exec (.parseStart pipe false) s = .next t ∧ q ∈ t.ing.pkts ∧ q.arr = p.arr ∧
      q.stage = .parsing e ∧
      q.eng = { EngSt.init with
        pc := bitsOf v.img 0 13, fend := min 16379 p.arr.bytes.length,
        profile := BitVec.ofNat 16 (bitsOf v.img 16 16) }) ∧
  (∀ (e : Fin 8192) (p : Pkt) (s : State), s.gen.phase ≠ .isolate → s.gen.phase ≠ .park →
    s.ing.pkts.find? (inEngine e.val) = some p →
    p.eng.steps = 96 → ∃ t, exec (.parseStepLimit e) s = .next t ∧ ParseEnded p (.truncated truncSteps) t) ∧
  (∀ (pipe : Fin 64) (p : Pkt) (k : Nat) (s : State), s.gen.phase ≠ .isolate → s.gen.phase ≠ .park →
    s.ing.pkts.find? (fun p => 4 * p.slice + p.pipe == pipe.val &&
      (match p.stage with | .dispatched | .parsing _ | .ended _ => true | _ => false)) = some p → p.stage = .ended k →
    ∃ t, exec (.parseResultDelivery pipe) s = .next t ∧ { p with stage := .parsed } ∈ t.ing.pkts ∧ Frame [.ing] s t) ∧
  (∀ (e : Fin 8192) (p : Pkt) (w : Nat) (s : State), ParsesAt e.val p w s → bitsOf w 60 4 = 0x7 →
    ∃ t, exec (.br e false) s = .next t ∧ EngineIs p { p.eng with
        pc := if condHolds (bitsOf w 48 3) (p.eng.reg (bitsOf w 54 3))
            (if bitAt w 47 then BitVec.ofNat 16 (bitsOf w 16 16) else p.eng.reg (bitsOf w 51 3))
          then bitsOf w 0 13 else p.eng.pc + 1,
        steps := p.eng.steps + 1 } t) ∧
  (∀ (e : Fin 8192) (p : Pkt) (w : Nat) (s : State), ParsesAt e.val p w s → bitsOf w 60 4 = 0x8 →
    ∃ t, exec (.jmp e false) s = .next t ∧ EngineIs p
      { (if bitAt w 47 then p.eng.setReg (bitsOf w 57 3) (BitVec.ofNat 16 (p.eng.pc + 1)) else p.eng) with
        pc := if bitAt w 46 then (p.eng.reg (bitsOf w 54 3)).toNat % 8192 else bitsOf w 0 13,
        steps := p.eng.steps + 1 } t) ∧
  (∀ (e : Fin 8192) (p : Pkt) (w i n : Nat) (s : State), ParsesAt e.val p w s → bitsOf w 60 4 = 0xD →
    i = p.eng.cur + bitsOf w 48 8 → n = (if bitAt w 56 then 1 else 2) → i + n ≤ p.eng.fend → i + n ≤ 256 →
    ∃ t, exec (.brw e false) s = .next t ∧ EngineIs p { p.eng with
        pc := if condHolds (bitsOf w 57 3)
            (BitVec.ofNat 16 (beNat (bytesAt p.arr.bytes i n)) &&& BitVec.ofNat 16 (bitsOf w 32 16))
            (BitVec.ofNat 16 (bitsOf w 16 16)) then bitsOf w 0 13 else p.eng.pc + 1,
        steps := p.eng.steps + 1 } t) ∧
  (∀ (e : Fin 8192) (p : Pkt) (w : Nat) (s : State), ParsesAt e.val p w s → bitsOf w 60 4 = 0xE →
    ∃ t, exec (.dec e false) s = .next t ∧ EngineIs p
      { p.eng.setReg (bitsOf w 57 3) (p.eng.reg (bitsOf w 57 3) - 1) with
        pc := if p.eng.reg (bitsOf w 57 3) - 1 ≠ 0 then bitsOf w 0 13 else p.eng.pc + 1,
        steps := p.eng.steps + 1 } t) ∧
  (∀ (e : Fin 8192) (p : Pkt) (w : Nat) (s : State), ParsesAt e.val p w s → bitsOf w 60 4 = 0x9 →
    condHolds (bitsOf w 48 3) (p.eng.reg (bitsOf w 54 3))
      (if bitAt w 47 then BitVec.ofNat 16 (bitsOf w 16 16) else p.eng.reg (bitsOf w 51 3)) = false →
    ∃ t, exec (.chk e false) s = .next t ∧
      EngineIs p { p.eng with pc := p.eng.pc + 1, steps := p.eng.steps + 1 } t) ∧
  (∀ (e : Fin 8192) (p : Pkt) (w c : Nat) (s : State), ParsesAt e.val p w s → bitsOf w 60 4 = 0xF →
    bitsOf w 46 2 = 0 → c = bitsOf w 32 8 → c < 0xFE →
    ∃ t, exec (.done e false) s = .next t ∧ ParseEnded p (.normal c) t) ∧
  (∀ (e : Fin 8192) (p : Pkt) (w : Nat) (s : State), ParsesAt e.val p w s → bitsOf w 60 4 = 0xF →
    bitsOf w 46 2 = 0 → 0xFE ≤ bitsOf w 32 8 →
    ∃ t, exec (.done e false) s = .next t ∧ ParseEnded p (.truncated truncProgram) t) ∧
  (∀ (e : Fin 8192) (p : Pkt) (w c : Nat) (x : Instr) (s : State), ParsesAt e.val p w s →
    c = (if bitsOf w 0 6 = 0 then 0x3F else bitsOf w 0 6) → s.fld PRS_MAL_ACT_ACTION (ixNI p.slice c) = 2 →
    (x = .chk e false ∧ bitsOf w 60 4 = 0x9 ∧ condHolds (bitsOf w 48 3) (p.eng.reg (bitsOf w 54 3))
        (if bitAt w 47 then BitVec.ofNat 16 (bitsOf w 16 16) else p.eng.reg (bitsOf w 51 3)) = true ∨
      x = .trim e false ∧ bitsOf w 60 4 = 0xA ∧
        ((p.eng.reg (bitsOf w 54 3)).toNat + (BitVec.ofNat 16 (bitsOf w 16 16)).toInt < 0 ∨ (p.eng.fend : Int) <
          (p.eng.cur : Int) + ((p.eng.reg (bitsOf w 54 3)).toNat : Int) + (BitVec.ofNat 16 (bitsOf w 16 16)).toInt) ∨
      x = .done e false ∧ bitsOf w 60 4 = 0xF ∧ bitsOf w 46 2 = 2) →
    1 ≤ c ∧ c ≤ 0x3F ∧ ∃ t, exec x s = .next t ∧ ParseEnded p (.malformed c) t)

/-- What the instructions that compute do: NOP, ALU, LDW, MOVS and FLAG (R230, R231). What the instructions that move
the cursor, add a header instance, build the key and trim do: ADV, HDR, KEY, KEYR and TRIM (R230, R236, R237). Each of
these commands answers a next state with its own effect, in every state that meets the clause's conditions: .nop, .alu,
.ldw, .movs, .flag, .adv, .hdr, .key, .keyr, .trim. -/
def Obligations.ParseInstructionsComputeAndCollect : Prop :=
  (∀ (e : Fin 8192) (p : Pkt) (w : Nat) (s : State), ParsesAt e.val p w s → bitsOf w 60 4 = 0x0 →
    ∃ t, exec (.nop e false) s = .next t ∧
      EngineIs p { p.eng with pc := p.eng.pc + 1, steps := p.eng.steps + 1 } t) ∧
  (∀ (e : Fin 8192) (p : Pkt) (w : Nat) (s : State), ParsesAt e.val p w s → bitsOf w 60 4 = 0x2 →
    ∃ t, exec (.alu e false) s = .next t ∧
      EngineIs p { p.eng.setReg (bitsOf w 57 3) (aluOp (bitsOf w 48 3) (p.eng.reg (bitsOf w 54 3))
          (if bitAt w 47 then BitVec.ofNat 16 (bitsOf w 16 16) else p.eng.reg (bitsOf w 51 3))) with
        pc := p.eng.pc + 1, steps := p.eng.steps + 1 } t) ∧
  (∀ (e : Fin 8192) (p : Pkt) (w i n : Nat) (s : State), ParsesAt e.val p w s → bitsOf w 60 4 = 0x1 →
    i = p.eng.cur + bitsOf w 40 8 → n = (if bitAt w 48 then 1 else 2) → i + n ≤ p.eng.fend → i + n ≤ 256 →
    ∃ t, exec (.ldw e false) s = .next t ∧
      EngineIs p { p.eng.setReg (bitsOf w 57 3) ((BitVec.ofNat 16 (beNat (bytesAt p.arr.bytes i n)) >>> bitsOf w 36 4)
          &&& BitVec.ofNat 16 (bitsOf w 16 16)) with pc := p.eng.pc + 1, steps := p.eng.steps + 1 } t) ∧
  (∀ (e : Fin 8192) (p : Pkt) (w : Nat) (s : State), ParsesAt e.val p w s → bitsOf w 60 4 = 0xB →
    bitsOf w 48 3 = 0 →
    ∃ t, exec (.movs e false) s = .next t ∧ EngineIs p { p.eng.setReg (bitsOf w 57 3) (BitVec.ofNat 16 p.eng.cur) with
        pc := p.eng.pc + 1, steps := p.eng.steps + 1 } t) ∧
  (∀ (e : Fin 8192) (p : Pkt) (w : Nat) (s : State), ParsesAt e.val p w s → bitsOf w 60 4 = 0xC →
    ∃ t, exec (.flag e false) s = .next t ∧ EngineIs p { p.eng with
        flags := (p.eng.flags &&& ~~~(BitVec.ofNat 16 (bitsOf w 32 16))) ||| BitVec.ofNat 16 (bitsOf w 16 16),
        pc := p.eng.pc + 1, steps := p.eng.steps + 1 } t) ∧
  (∀ (e : Fin 8192) (p : Pkt) (w c : Nat) (s : State), ParsesAt e.val p w s → bitsOf w 60 4 = 0x3 →
    (c : Int) = (p.eng.cur : Int) + (BitVec.ofNat 16 (bitsOf w 16 16)).toInt +
      ((if bitAt w 47 then (p.eng.reg (bitsOf w 54 3)).toNat * 2 ^ bitsOf w 44 2 else 0 : Nat) : Int) →
    ∃ t, exec (.adv e false) s = .next t ∧
      EngineIs p { p.eng with cur := min 4095 c, pc := p.eng.pc + 1, steps := p.eng.steps + 1 } t) ∧
  (∀ (e : Fin 8192) (p : Pkt) (w : Nat) (s : State), ParsesAt e.val p w s → bitsOf w 60 4 = 0x4 →
    p.eng.cur < 256 → p.eng.hi.length < 32 →
    ∃ t, exec (.hdr e false) s = .next t ∧ EngineIs p { p.eng with
        hi := p.eng.hi ++ [⟨bitsOf w 32 8, p.eng.cur, min 4095
          (if bitAt w 47 then p.eng.reg (bitsOf w 54 3) else BitVec.ofNat 16 (bitsOf w 16 16)).toNat⟩],
        pc := p.eng.pc + 1, steps := p.eng.steps + 1 } t) ∧
  (∀ (e : Fin 8192) (p : Pkt) (w i n k : Nat) (s : State), ParsesAt e.val p w s → bitsOf w 60 4 = 0x5 →
    i = p.eng.cur + bitsOf w 40 8 → n = (if bitsOf w 36 4 = 0 then 16 else bitsOf w 36 4) → k = bitsOf w 8 7 →
    i + n ≤ p.eng.fend → i + n ≤ 256 → k + n ≤ 128 →
    ∃ t, exec (.key e false) s = .next t ∧ EngineIs p { p.eng with
        kv := overwrite p.eng.kv k (bytesAt p.arr.bytes i n), pc := p.eng.pc + 1, steps := p.eng.steps + 1 } t) ∧
  (∀ (e : Fin 8192) (p : Pkt) (w k : Nat) (s : State), ParsesAt e.val p w s → bitsOf w 60 4 = 0x6 →
    k = bitsOf w 8 7 → bitAt w 46 = false → k + 2 ≤ 128 →
    ∃ t, exec (.keyr e false) s = .next t ∧ EngineIs p { p.eng with
        kv := overwrite p.eng.kv k
          (beBytes 2 (if bitAt w 47 then BitVec.ofNat 16 (bitsOf w 16 16) else p.eng.reg (bitsOf w 54 3)).toNat),
        pc := p.eng.pc + 1, steps := p.eng.steps + 1 } t) ∧
  (∀ (e : Fin 8192) (p : Pkt) (w f : Nat) (s : State), ParsesAt e.val p w s → bitsOf w 60 4 = 0xA →
    (f : Int) = (p.eng.cur : Int) + ((p.eng.reg (bitsOf w 54 3)).toNat : Int) +
      (BitVec.ofNat 16 (bitsOf w 16 16)).toInt → p.eng.cur ≤ f → f < p.eng.fend →
    ∃ t, exec (.trim e false) s = .next t ∧
      EngineIs p { p.eng with fend := f, trimmed := true, pc := p.eng.pc + 1, steps := p.eng.steps + 1 } t)

/-! ## Lookups, learning and bad words, spec/09_lookup.md -/

/-- Key build reads the profile that the parse selects and issues the lookups; each lookup is answered with what it
finds under the packet's tag (R252 to R256, R262, R267). Each of these commands answers a next state with its own
effect, in every state that meets the clause's conditions: .keyBuild, .exactMatchLookup, .routeLookup, .asaSearch. -/
def Obligations.LookupsAreAnswered : Prop :=
  (∀ (pipe : Fin 64) (p : Pkt) (sel img : Nat) (s : State), s.gen.phase ≠ .isolate → s.gen.phase ≠ .park →
    s.ing.pkts.find? (fun p => ofPipe pipe.val p && p.stage == .parsed) = some p →
    s.readAt tProfSel (256 * s.fld LKP_PORT_PSET (ixI p.arr.port) + bitsOf p.status 0 8) (p.ream % 16) = (sel, false) →
    bitAt sel 8 = true → s.readAt tProfile (bitsOf sel 0 8) (p.ream % 16) = (img, false) →
    bitAt (profCtl img) 0 = true →
    ∃ (t : State) (q : Pkt), exec (.keyBuild pipe []) s = .next t ∧ q ∈ t.ing.pkts ∧ q.arr = p.arr ∧
      q.stage = .lookups ∧
      q.prof = img ∧ q.bad = false) ∧
  (∀ (pipe : Fin 64) (d : Fin 6) (p : Pkt) (r : LkReq) (i k key res data b b' : Nat) (l h : Bool) (s : State),
    s.gen.phase ≠ .isolate → s.gen.phase ≠ .park → s.ing.pkts.find? (awaits pipe.val d.val 1) = some p →
    p.open_.find? (fun r => r.d == d.val) = some r → s.mayLearn p r = false →
    s.emFind r.param (beNat r.key) (p.ream % 16) = some (i, .entry k key res data l h b b') →
    ∃ t, exec (.exactMatchLookup pipe d [] 0) s = .next t ∧
      Answered p ⟨d.val, r.fwd, .hit (normRes true res) data l⟩ t) ∧
  (∀ (pipe : Fin 64) (d : Fin 6) (p : Pkt) (r : LkReq) (s : State),
    s.gen.phase ≠ .isolate → s.gen.phase ≠ .park → s.ing.pkts.find? (awaits pipe.val d.val 1) = some p →
    p.open_.find? (fun r => r.d == d.val) = some r → s.mayLearn p r = false →
    s.emFind r.param (beNat r.key) (p.ream % 16) = none → s.poisoned r.param (beNat r.key) = false →
    ∃ t, exec (.exactMatchLookup pipe d [] 0) s = .next t ∧ Answered p ⟨d.val, r.fwd, .miss⟩ t) ∧
  (∀ (pipe : Fin 64) (d : Fin 6) (p : Pkt) (r : LkReq) (x : RouteHit) (s : State),
    s.gen.phase ≠ .isolate → s.gen.phase ≠ .park → s.ing.pkts.find? (awaits pipe.val d.val 2) = some p →
    p.open_.find? (fun r => r.d == d.val) = some r →
    s.bestRoute (r.param == 1) (beNat (bytesAt r.key 0 2)) (beNat (r.key.drop 2)) (p.ream % 16) = some x →
    x.bad = false →
    ∃ t, exec (.routeLookup pipe d [] [] 0) s = .next t ∧
      Answered p ⟨d.val, r.fwd, .hit (normRes false x.res) 0 false⟩ t) ∧
  (∀ (pipe : Fin 64) (d : Fin 6) (p : Pkt) (r : LkReq) (s : State),
    s.gen.phase ≠ .isolate → s.gen.phase ≠ .park → s.ing.pkts.find? (awaits pipe.val d.val 3) = some p →
    p.open_.find? (fun r => r.d == d.val) = some r →
    ∃ t, exec (.asaSearch pipe d []) s = .next t ∧
      Answered p ⟨d.val, r.fwd, (s.asaLookup r.param r.key (p.ream % 16) []).2⟩ t)

/-- A packet whose first forwarding result is a PORT result, with no ACL action, leaves its pipeline for that port
(R257, R258); one that met a bad profile is dropped with TABLE_ERROR (R283). It passes the exit in its port's order
(R30). The replicator serves the oldest packet of a valid group of at most 254 copies; one of a group that is not valid
is dropped (R273 to R275). Each of these commands answers a next state with its own effect, in every state that meets
the clause's conditions: .forwardingDecision, .replicatorExpand. -/
def Obligations.PacketsAreForwardedAndReplicated : Prop :=
  (∀ (pipe : Fin 64) (p : Pkt) (i : Nat) (l : Bool) (s : State), s.gen.phase ≠ .isolate → s.gen.phase ≠ .park →
    s.ing.pkts.find? (fun p => ofPipe pipe.val p && p.stage == .lookups && p.phaseB && p.open_.isEmpty) = some p →
    p.bad = false → asaActs (sortAns p.ans) = [] → (sortAns p.ans).findSome? LkAns.offer = some (i, l) →
    (∀ a ∈ sortAns p.ans, a.res ≠ .groupError) → i < 2 ^ 21 → i % 512 < 288 →
    ∃ (t m : State) (q : Pkt) (cls : Nat), exec (.forwardingDecision pipe [] 0) s = .next t ∧ t = m.settleExit ∧
      q ∈ m.ing.pkts ∧
      q.arr = p.arr ∧ q.stage = .exit ∧ q.outs = [.fwd ⟨p.arr.port, p.trimmed, p.arr.ts, cls,
        (bytesAt p.eng.kv 65 1).headD 0, none, 0, .voq (i / 512 % 2048) (portGroup (i % 512)) (i % 512) 0, p.ream⟩]) ∧
  (∀ (pipe : Fin 64) (p : Pkt) (s : State), s.gen.phase ≠ .isolate → s.gen.phase ≠ .park → s.domUp domQC = true →
    s.ing.pkts.find? (fun p => ofPipe pipe.val p && p.stage == .lookups && p.phaseB && p.open_.isEmpty) = some p →
    p.bad = true → asaActs (sortAns p.ans) = [] →
    ∃ (t m : State) (q : Pkt), exec (.forwardingDecision pipe [] 0) s = .next t ∧ t = m.settleExit ∧ q ∈ m.ing.pkts ∧
      q.arr = p.arr ∧ q.stage = .exit ∧ q.outs = [] ∧ m.fld ADM_DROP_PKT_COUNT (ixI causeTableError) =
        satAdd ADM_DROP_PKT_COUNT.width (s.fld ADM_DROP_PKT_COUNT (ixI causeTableError)) 1) ∧
  (∀ (r : ReplPkt) (rest : List ReplPkt) (g img : Nat) (f : Bool) (s : State), s.gen.phase ≠ .isolate →
    s.gen.phase ≠ .park →
    s.replQ = r :: rest → s.reachable domFL = true → s.couch.st = .up → r.pkt.dest = .group g f →
    s.readAt tMcast g (r.pkt.ream % 16) = (img, false) → bitAt img 36 = true →
    bitsOf img 0 18 + (bitsOf img 18 18 + 1) ≤ 262144 → bitsOf img 18 18 + 1 ≤ 254 →
    ∃ t, exec (.replicatorExpand [] 0) s = .next t ∧ t.replQ = rest) ∧
  (∀ (r : ReplPkt) (rest : List ReplPkt) (g img : Nat) (f : Bool) (s : State), s.gen.phase ≠ .isolate →
    s.gen.phase ≠ .park →
    s.replQ = r :: rest → s.reachable domFL = true → s.couch.st = .up → r.pkt.dest = .group g f →
    s.readAt tMcast g (r.pkt.ream % 16) = (img, false) → bitAt img 36 = false → s.domUp domQC = true →
    ∃ t, exec (.replicatorExpand [] 0) s = .next t ∧ t.replQ = rest ∧
      t.fld ADM_DROP_PKT_COUNT (ixI causeNoRoute) =
        satAdd ADM_DROP_PKT_COUNT.width (s.fld ADM_DROP_PKT_COUNT (ixI causeNoRoute)) 1)

/-- The oldest learn request becomes an entry where there is room; aging takes a learned entry that no lookup has hit
since its last visit and none hits in the same cycle; a flush takes every matching learned entry (R277 to R281). The
dandy scan marks a bad stored version and a bad trie node and passes a good word; a rebuilt subtree and a recomputed
digest are good again, and POISON goes once the block's digest is the expected one (R283, R284, R286). Each of these
commands answers a next state with its own effect, in every state that meets the clause's conditions: .learnInsert,
.ageVisit, .flushStart, .flushComplete, .dandyScanCheck, .trieRebuild, .digestRecompute, .poisonClr. -/
def Obligations.TablesLearnAndMend : Prop :=
  (∀ (q : LearnReq) (rest : List LearnReq) (i : Nat) (s : State), s.tab.fifo = q :: rest →
    s.gen.phase ≠ .park → s.learns = true → s.emFind 1 q.key s.newTag = none → s.placeLearn q.key = some (i, []) →
    s.learnedCount < min 4194304 (s.fld LKP_LEARN_CTRL_LIMIT ix0) →
    (poolSlots ≤ i ∨ (s.liveHeld tEm 0).1 + 1 ≤ poolSlots - s.headroom tEm) →
    ∃ t, exec .learnInsert s = .next t ∧ t.tab.fifo = rest ∧
      tblFind i t.tab.em = some (.entry 1 q.key (s.portResult q.port) 0 true true 0 0) ∧
      ∀ j, j ≠ i → tblFind j t.tab.em = tblFind j s.tab.em) ∧
  (∀ (slot : BitVec 24) (met : Bool) (k q r d b b' : Nat) (h : Bool) (s : State),
    tblFind slot.toNat s.tab.em = some (.entry k q r d true h b b') → s.fld LKP_LEARN_CTRL_AGE_PERIOD ix0 ≠ 0 →
    s.gen.phase ≠ .park → s.learns = true →
    ∃ t, exec (.ageVisit slot met) s = .next t ∧
      tblFind slot.toNat t.tab.em = (if met then some (.entry k q r d true true b b')
        else if h then some (.entry k q r d true false b b') else none) ∧
      ∀ j, j ≠ slot.toNat → tblFind j t.tab.em = tblFind j s.tab.em) ∧
  (∀ (req : Req) (v : W64) (s u : State), s.arrives req .lkpFlush ix0 = true →
    u = (s.arrived req .lkpFlush ix0).flushRw .lkp 0 → u.tab.flush = none →
    u.learns = true →
    ∃ t, exec (.flushStart req v) s = .next t ∧ t.flag LKP_FLUSH_BUSY ix0 = true ∧ t.tab.flush.isSome = true) ∧
  (∀ (f : FlushSt) (s : State), s.tab.flush = some f → s.learns = true → s.gen.phase ≠ .park →
    ∃ t, exec (.flushComplete []) s = .next t ∧ t.tab.flush = none ∧ t.flag LKP_FLUSH_BUSY ix0 = false ∧
      t.flag LKP_INT_STATUS_FLUSH_DONE ix0 = true ∧
      ∀ i k q r d h b b', tblFind i s.tab.em = some (.entry k q r d true h b b') → f.matches q r = true →
        tblFind i t.tab.em = none) ∧
  (∀ (w : TableWord) (s : State), exec (.dandyScanCheck w .good) s = .next s) ∧
  (∀ (n : BitVec 24) (s : State), s.gen.phase ≠ .park → ∃ t, exec (.dandyScanCheck (.trie n) .word) s = .next t ∧
    n.toNat ∈ t.tab.badTrie) ∧
  (∀ (i : BitVec 32) (n : Nat) (s : State), i.toNat < 1048576 → n < (s.tab.at_ (tkey tNextHop i.toNat)).length →
    s.gen.phase ≠ .park →
    ∃ t, exec (.dandyScanCheck (.entry 0x05 i n) .word) s = .next t ∧
      ∃ v, (t.tab.at_ (tkey tNextHop i.toNat))[n]? = some v ∧ v.bad = true) ∧
  (∀ (n : BitVec 24) (s : State), n.toNat ∈ s.tab.badTrie → s.domUp domFL = true → s.gen.phase ≠ .park →
    ∃ t, exec (.trieRebuild n) s = .next t ∧ n.toNat ∉ t.tab.badTrie ∧
      t.flag LKP_INT_STATUS_TRIE_REBUILT ix0 = true) ∧
  (∀ (i : Fin 6434) (s : State), s.gen.phase ≠ .park →
    ∃ t, exec (.digestRecompute i) s = .next t ∧ t.digest i.val = s.digestGood i.val ∧ Frame [.tab] s t) ∧
  (∀ (req : Req) (v : W64) (s u : State), s.arrives req .lkpPoisonClr ix0 = true →
    u = (s.arrived req .lkpPoisonClr ix0).flushRw .lkp 0 → tblFind (LKP_POISON_CLR_BLOCK.get v) u.tab.stale = none →
    u.digest (LKP_POISON_CLR_BLOCK.get v) = u.rd .lkpPoisonExp ix0 →
    ∃ t, exec (.poisonClr req v) s = .next t ∧ t.flag LKP_POISON_STATUS_LAST_OK ix0 = true ∧
      ∀ e ∈ t.tab.em, e.2 ≠ .poison (LKP_POISON_CLR_BLOCK.get v))

/-! ## Associative search, spec/10_associative_search.md -/

/-- A stopped bank of its group's width runs, and an empty one stops (R297, R298). A host search pins the newest ream,
steps to the next match in order, and ends; its pin runs out when something waits on it (R309 to R313). A relocated
original goes once every older packet has drained (R315). Each of these commands answers a next state with its own
effect, in every state that meets the clause's conditions: .asaBankRun, .asaBankStop, .start, .next, .srchEnd,
.asaSearchStep, .asaPinExpiry, .asaOriginalFree. -/
def Obligations.AsaRunsAndSearches : Prop :=
  (∀ (req : Req) (k : Fin 128) (v : W64) (s u : State), s.arrives req .asaBankCfg (ixI k.val) = true →
    u = (s.arrived req .asaBankCfg (ixI k.val)).flushRw .asa 0 → u.bankRuns k.val = false →
    ASA_BANK_CFG_WIDTH.get v = u.fld ASA_BANK_CFG_WIDTH (ixI k.val) →
    (∀ j ∈ u.groupBanks (ASA_BANK_CFG_GROUP.get v), u.fld ASA_BANK_CFG_WIDTH (ixI j) = ASA_BANK_CFG_WIDTH.get v) →
    ∃ t, exec (.asaBankRun req k v) s = .next t ∧ t.bankRuns k.val = true ∧
      t.flag ASA_BANK_CFG_STOPPED (ixI k.val) = false ∧
      t.fld ASA_BANK_CFG_GROUP (ixI k.val) = ASA_BANK_CFG_GROUP.get v) ∧
  (∀ (req : Req) (k : Fin 128) (v : W64) (s u : State), s.arrives req .asaBankCfg (ixI k.val) = true →
    u = (s.arrived req .asaBankCfg (ixI k.val)).flushRw .asa 0 → u.bankRuns k.val = true →
    u.bankEntries k.val = 0 → u.bankHeld k.val = 0 →
    ∃ t, exec (.asaBankStop req k v) s = .next t ∧ t.bankRuns k.val = false ∧
      t.flag ASA_BANK_CFG_STOPPED (ixI k.val) = true) ∧
  (∀ (req : Req) (c : Fin 4) (v : W64) (s u : State), s.arrives req .asaSrchCmd (ixI c.val) = true →
    u = (s.arrived req .asaSrchCmd (ixI c.val)).flushRw .asa 0 → u.srchState c.val ≠ srchBusy →
    ∃ t, exec (.start req c v) s = .next t ∧ t.srchState c.val = srchBusy ∧
      (t.actx c.val).pin = some u.cmt.newest ∧ (t.actx c.val).group = ASA_SRCH_CMD_GROUP.get v ∧
      (t.actx c.val).key = u.srchKey c.val) ∧
  (∀ (req : Req) (c : Fin 4) (v : W64) (s u : State), s.arrives req .asaSrchCmd (ixI c.val) = true →
    u = (s.arrived req .asaSrchCmd (ixI c.val)).flushRw .asa 0 → u.srchState c.val = srchActive →
    ∃ t, exec (.next req c v) s = .next t ∧ t.srchState c.val = srchBusy ∧ t.asa = u.asa) ∧
  (∀ (req : Req) (c : Fin 4) (v : W64) (s u : State), s.arrives req .asaSrchCmd (ixI c.val) = true →
    u = (s.arrived req .asaSrchCmd (ixI c.val)).flushRw .asa 0 → u.srchState c.val ≠ srchBusy →
    ∃ t, exec (.srchEnd req c v) s = .next t ∧ t.srchState c.val = srchIdle ∧ (t.actx c.val).pin = none) ∧
  (∀ (c : Fin 4) (pin : Nat) (x : AsaEnt) (rest : List AsaEnt) (s : State), (s.actx c.val).pin = some pin →
    s.srchState c.val = srchBusy → (s.srchSet c.val pin).filter (s.afterToken c.val) = x :: rest →
    (∀ y ∈ s.wordsRead x, y.bad = false) → s.gen.phase ≠ .park →
    ∃ t, exec (.asaSearchStep c []) s = .next t ∧ t.srchState c.val = srchActive ∧
      t.flag ASA_SRCH_STATUS_FOUND (ixI c.val) = true ∧
      t.fld ASA_SRCH_RESULT_INDEX (ixI c.val) = x.idx % 2 ^ ASA_SRCH_RESULT_INDEX.width ∧
      t.rd .asaSrchAct0 (ixI c.val) = x.act0 ∧ t.rd .asaSrchAct1 (ixI c.val) = x.act1) ∧
  (∀ (c : Fin 4) (pin : Nat) (s : State), (s.actx c.val).pin = some pin → s.srchState c.val = srchBusy →
    (s.srchSet c.val pin).filter (s.afterToken c.val) = [] → s.gen.phase ≠ .park →
    ∃ t, exec (.asaSearchStep c []) s = .next t ∧ t.srchState c.val = srchDone ∧
      t.flag ASA_SRCH_STATUS_FOUND (ixI c.val) = false ∧ (t.actx c.val).pin = none) ∧
  (∀ (c : Fin 4) (s : State), (s.actx c.val).pin.isSome = true → s.pinWanted c.val = true → s.domUp domFL = true →
    s.gen.phase ≠ .park →
    ∃ t, exec (.asaPinExpiry c) s = .next t ∧ t.srchState c.val = srchExpired ∧ (t.actx c.val).pin = none ∧
      t.flag ASA_INT_STATUS_PIN_EXPIRED ix0 = true) ∧
  (∀ (u : BitVec 20) (e : AsaEnt) (s : State), s.asa.ents.find? (fun e => e.loc == u.toNat && e.reloc) = some e →
    s.drainedBefore e.retired = true → (∀ c < 4, s.srchState c ≠ srchBusy ∧ s.srchState c ≠ srchActive) →
    s.gen.phase ≠ .park →
    ∃ t, exec (.asaOriginalFree u) s = .next t ∧ (∀ x ∈ t.asa.ents, ¬(x.loc = u.toNat ∧ x.reloc = true)) ∧
      Frame [.asa, .cmt] s t)

/-! ## Reams, spec/11_reams.md -/

/-- A change descriptor of the ring whose turn it is, judged good while the ream has not failed, is staged and completed
with status 0 (R334, R336 to R338). A change that may not be made fails its ream with its code: an OP that is none is
BAD_OP, a table that is none is BAD_TABLE, and nothing more is staged (R334, R336, R337). Each of these commands answers
a next state with its own effect, in every state that meets the clause's conditions: .write, .retire, .emAdd, .emDel,
.move. -/
def Obligations.ChangesAreStagedOrFailTheReam : Prop :=
  (∀ (r : Fin 1024) (d : ChgDesc) (es : List Edit) (n : Nat) (s : State), s.takes (commitRing r) = true →
    s.gen.phase ≠ .park →
    (∀ x ∈ s.cmt.rest, x.ring ≠ commitRing r) → s.cmt.fail = none → s.cmt.changes + n ≤ 65536 →
    (∀ c judge, (c, judge) ∈ [(Instr.write r 1 d, s.judgeWrite d), (.retire r d, s.judgeRetire d),
        (.emAdd r d, s.judgeEmAdd d), (.emDel r d, s.judgeEmDel d), (.move r d, s.judgeMove d)] →
      judge = .ok (es, n) →
      ∃ t, exec c s = .next t ∧ t.cmt.edits = addEdits s.cmt.edits es ∧ t.cmt.changes = s.cmt.changes + n ∧
        t.cmt.pos = s.cmt.pos + 1 ∧ t.cmt.ring = some (commitRing r) ∧ t.tab = s.tab ∧ t.asa = s.asa ∧
        (t.ring (commitRing r)).modIdx = (s.ring (commitRing r)).modIdx + 1)) ∧
  (∀ (r : Fin 1024) (op : BitVec 8) (d : ChgDesc) (s : State), s.takes (commitRing r) = true →
    (∀ x ∈ s.cmt.rest, x.ring ≠ commitRing r) → s.cmt.fail = none → s.gen.phase ≠ .park → (op = 0 ∨ 6 ≤ op.toNat) →
      op ≠ 0xF →
    ∃ t, exec (.write r op d) s = .next t ∧ t.cmt.fail = some ⟨stBadOp, d.table.toNat, s.cmt.pos⟩ ∧
      t.cmt.edits = s.cmt.edits ∧ t.cmt.changes = s.cmt.changes) ∧
  (∀ (r : Fin 1024) (d : ChgDesc) (s : State), s.takes (commitRing r) = true →
    (∀ x ∈ s.cmt.rest, x.ring ≠ commitRing r) → s.cmt.fail = none → s.gen.phase ≠ .park → d.table = 0x30 →
    ∀ c ∈ [Instr.write r 1 d, .retire r d, .emAdd r d, .emDel r d, .move r d],
      ∃ t, exec c s = .next t ∧ t.cmt.fail = some ⟨stBadTable, 0x30, s.cmt.pos⟩ ∧ t.cmt.edits = s.cmt.edits)

/-- A COMMIT waits with the number after the newest ream's, or with a higher one that it gives; at the commit instant
its changes take effect together under its tag and it is the newest (R328, R335, R339). A ring that falls silent loses
its ream (R337), and a long wait is reported (R348). The oldest undrained ream that nothing uses is drained, and the
oldest ream settles once it may: every stored version is what settlement makes of it (R345). A table read answers
whether there is an entry, and its image (R350, R355; the parity bit in it is a free value, log entry 3). Each of these
commands answers a next state with its own effect, in every state that meets the clause's conditions: .commit,
.commitInstant, .reamAbandon, .drainWait, .reamDrained, .settlement, .tableRead, .tableReadDone. -/
def Obligations.ReamsCommitDrainAndSettle : Prop :=
  (∀ (r : Fin 1024) (number : BitVec 32) (numberEn resume : Bool) (n : Nat) (s : State),
    s.takes (commitRing r) = true → (∀ x ∈ s.cmt.rest, x.ring ≠ commitRing r) → s.cmt.fail = none →
    s.gen.phase ≠ .park → s.commitNumber number.toNat numberEn = some n →
    ∃ t, exec (.commit r number numberEn resume) s = .next t ∧
      t.cmt.wait = some ⟨commitRing r, n, numberEn, resume, s.now, false,
        if s.commitClear n then some s.now else none⟩ ∧ t.cmt.edits = s.cmt.edits) ∧
  (∀ (w : CommitWait) (s : State), s.cmt.wait = some w → s.commitClear w.number = true → s.domUp domFC = true →
    s.domUp domFL = true → s.gen.phase ≠ .park →
    ∃ t, exec .commitInstant s = .next t ∧ t.cmt.newest = w.number ∧
      t.cmt.prev = (if w.resume && s.flag CMT_STATUS_FL_HOLD ix0 then w.number else s.cmt.newest) ∧
      t.cmt.undrained = s.cmt.undrained ++ [w.number] ∧ t.cmt.unsettled = s.cmt.unsettled ++ [w.number] ∧
      t.cmt.wait = none ∧ t.cmt.edits = [] ∧
      t.tab.vers = (s.withEdits (w.number % 16) s.cmt.edits).1.vers ∧
      t.tab.em = (s.withEdits (w.number % 16) s.cmt.edits).1.em ∧
      t.asa = (s.withEdits (w.number % 16) s.cmt.edits).2) ∧
  (∀ (r : Nat) (s : State), s.cmt.ring = some r → s.cmt.wait = none → s.covered r = 0 → s.domUp domFC = true →
    s.gen.phase ≠ .park →
    ∃ t, exec .reamAbandon s = .next t ∧ t.cmt.ring = none ∧ t.cmt.edits = [] ∧
      t.cmt.rest = s.cmt.rest ++ [⟨r, s.cmt.fail.getD ⟨stStalled, 0, s.cmt.pos⟩, s.cmt.changes, s.cmt.pos, false⟩] ∧
      t.fld CMT_REJECTS_COUNT ix0 = satAdd CMT_REJECTS_COUNT.width (s.fld CMT_REJECTS_COUNT ix0) 1) ∧
  (∀ (w : CommitWait) (s : State), s.cmt.wait = some w → w.warned = false → w.ended = none → s.domUp domFC = true →
    s.gen.phase ≠ .park →
    ∃ t, exec .drainWait s = .next t ∧ t.cmt.wait = some { w with warned := true } ∧
      t.flag CMT_INT_STATUS_DRAIN_WAIT ix0 = true) ∧
  (∀ (r r' : Nat) (rest : List Nat) (s : State), s.cmt.undrained = r :: r' :: rest → s.reamInUse r = false →
    s.gen.phase ≠ .park →
    ∃ t, exec .reamDrained s = .next t ∧ t.cmt.undrained = r' :: rest ∧ t.cmt.unsettled = s.cmt.unsettled ∧
      t.cmt.newest = s.cmt.newest ∧ t.cmt.edits = s.cmt.edits ∧ Frame [.cmt] s t) ∧
  (∀ (r : Nat) (rest : List Nat) (s : State), s.cmt.unsettled = r :: rest →
    (s.cmt.undrained.head? = some r ∨ r ∉ s.cmt.undrained) → s.domUp domFC = true → s.domUp domFL = true →
    s.gen.phase ≠ .park →
    ∃ t, exec .settlement s = .next t ∧ t.cmt.unsettled = rest ∧
      (∀ k vs, (k, vs) ∈ s.tab.vers → settleVers (r % 16) vs ≠ [] → (k, settleVers (r % 16) vs) ∈ t.tab.vers) ∧
      (∀ e ∈ t.tab.vers, ∃ vs, (e.1, vs) ∈ s.tab.vers ∧ e.2 = settleVers (r % 16) vs) ∧
      Frame [.tab, .asa, .cmt] s t) ∧
  (∀ (req : Req) (v : W64) (s u : State), s.arrives req .cmtRdCmd ix0 = true → u = s.arrived req .cmtRdCmd ix0 →
    u.cmt.rd = none →
    ∃ t, exec (.tableRead req v) s = .next t ∧ t.flag CMT_RD_CMD_BUSY ix0 = true ∧
      t.cmt.rd = some (CMT_RD_CMD_TABLE.get v, CMT_RD_CMD_INDEX.get v, CMT_RD_CMD_RAW.get v == 1)) ∧
  (∀ (x : Option Nat) (tb i : Nat) (raw : Bool) (s : State), s.cmt.rd = some (tb, i, raw) → s.gen.phase ≠ .park →
    x = s.readTable tb i raw (s.free.toNat % 2) →
    ∃ t, exec .tableReadDone s = .next t ∧ t.flag CMT_RD_CMD_BUSY ix0 = false ∧ t.cmt.rd = none ∧
      t.flag CMT_RD_CMD_FOUND ix0 = x.isSome ∧
      ∀ w < 35, t.fld CMT_RD_DATA_DATA (ixI w) = bitsOf (x.getD 0) (64 * w) 64)

/-! ## Buffers and deep memory, spec/12_buffering.md -/

/-- A buffer goes from free to cached to busy and back, and its references are counted (R360, R361, R363, R364); a REF
that meets DECs of its buffer in the same cycle comes first (R362). Admission takes the oldest packet of the ingress
pipelines; one that is neither metered nor mirrored, and that R369 admits, joins its VOQ (R368, R369). The deep mover's
slots write full pages, its timer partial ones; a written page counts as deep, and a refill brings it back in the order
requested; where the mover reads a cell with an uncorrectable error, its packet is dropped instead (R371 to R373). Each
of these commands answers a next state with its own effect, in every state that meets the clause's conditions: .alloc,
.bufUse, .bufRef, .bufDec, .bufReturn, .cacheIdleReturn, .refill, .refillRetryExpiry, .admission, .deepEvict,
.partialPageTimer, .deepPageWritten, .deepRefill. -/
def Obligations.BuffersAndAdmission : Prop :=
  (∀ (r : Fin 32) (h : BitVec 32) (s : State), s.handleOk h.toNat = true → isPage h.toNat = false →
    s.buf h.toNat = none → r.val < 22 → s.domUp domQC = true → s.cellsOk r.val 1 = true → s.bpmCached r.val < 128 →
    s.gen.phase ≠ .park →
    ∃ t, exec (.alloc r h) s = .next t ∧ t.buf h.toNat = some (cachedBuf r.val) ∧
      ∀ k, k ≠ h.toNat → t.buf k = s.buf k) ∧
  (∀ (r : Fin 32) (h : BitVec 32) (b : Buf) (s : State), s.buf h.toNat = some b → b.busy = false → b.owner = r.val →
    s.gen.phase ≠ .park →
    ∃ t, exec (.bufUse r h) s = .next t ∧ t.bpm.nextChain = s.bpm.nextChain + 1 ∧
      t.buf h.toNat = some { b with busy := true, count := 1, holders := holderBit r.val, chain := s.bpm.nextChain + 1 } ∧
      (∀ k, k ≠ h.toNat → t.buf k = s.buf k) ∧ Frame [.bpm] s t) ∧
  (∀ (r holder : Fin 32) (h : BitVec 32) (n : BitVec 8) (b : Buf) (s : State), rises s.bpm.bufs = true →
    s.buf h.toNat = some b → b.heldBy r.val = true → b.count + n.toNat ≤ 255 → s.decsNow = [] → s.gen.phase ≠ .park →
    ∃ t, exec (.bufRef r h n holder) s = .next t ∧ Frame [.bpm] s t ∧
      ∀ k, t.buf k = if k ∈ s.chainOf b then (s.buf k).map fun c =>
        { c with count := c.count + n.toNat, holders := c.holders ||| holderBit holder.val } else s.buf k) ∧
  (∀ (r holder : Fin 32) (h : BitVec 32) (n : BitVec 8) (k : Nat) (b : Buf) (s : State), s.decsNow = [(h.toNat, k, b)] →
    s.buf h.toNat = none → b.heldBy r.val = true → b.count + n.toNat ≤ 255 → k < b.count + n.toNat →
    s.gen.phase ≠ .park →
    ∃ t, exec (.bufRef r h n holder) s = .next t ∧ t.buf h.toNat = some { b with
      count := b.count + n.toNat - k, holders := b.holders ||| holderBit holder.val }) ∧
  (∀ (r : Fin 32) (h : BitVec 32) (b : Buf) (s : State), rises s.bpm.bufs = true → s.buf h.toNat = some b →
    b.heldBy r.val = true → (∀ k ∈ s.chainOf b, ∀ c, s.buf k = some c → c.heldBy r.val = true) →
    s.gen.phase ≠ .park →
    ∃ t, exec (.bufDec r h) s = .next t ∧ Frame [.regs, .bpm, .lin, .out] s t ∧
      ∀ k, t.buf k = if k ∈ s.chainOf b then (s.buf k).bind Buf.dec else s.buf k) ∧
  (∀ (r : Fin 32) (h : BitVec 32) (b : Buf) (s : State), s.buf h.toNat = some b → b.busy = false → b.owner = r.val →
    s.gen.phase ≠ .park →
    ∃ t, exec (.bufReturn r h) s = .next t ∧ t.buf h.toNat = none ∧ (∀ k, k ≠ h.toNat → t.buf k = s.buf k) ∧
      Frame [.bpm] s t) ∧
  (∀ (h : BitVec 32) (b : Buf) (s : State), s.buf h.toNat = some b → b.busy = false → s.gen.phase ≠ .park →
    ∃ t, exec (.cacheIdleReturn h) s = .next t ∧ t.buf h.toNat = none ∧ (∀ k, k ≠ h.toNat → t.buf k = s.buf k) ∧
      Frame [.bpm] s t) ∧
  (∀ (r : Fin 32) (s u : State), r.val < 22 → s.domUp domQC = true → s.bpmCached r.val < 64 →
    s.gen.phase ≠ .isolate → s.gen.phase ≠ .park → u = { s with bpm := { s.bpm with last := r.val } } →
    ∃ t, exec (.refill r) s = .next t ∧ t.bpm.last = r.val ∧ ((∀ x ∈ s.turnsBefore r.val, s.refillable x = false) →
      (u.cellsGrant r.val (min 64 (128 - u.bpmCached r.val)) = 0 →
        t = u.set BPM_REQ_NONE_COUNT (ixI r.val)
          (satAdd BPM_REQ_NONE_COUNT.width (s.fld BPM_REQ_NONE_COUNT (ixI r.val)) 1)) ∧
      ∀ n, u.cellsGrant r.val (min 64 (128 - u.bpmCached r.val)) = n + 1 →
        t.bpm = (u.allocCells (cachedBuf r.val) (n + 1)).1.bpm)) ∧
  (∀ (r : Fin 32) (s : State), r.val = 17 ∨ r.val = 19 ∨ r.val = 20 → r.val ∉ s.bpm.spent →
    s.gen.phase ≠ .isolate → s.gen.phase ≠ .park →
    ∃ t, exec (.refillRetryExpiry r) s = .next t ∧ t.bpm.spent = r.val :: s.bpm.spent ∧ Frame [.bpm] s t) ∧
  (∀ (x : XPkt) (rest : List XPkt) (m pg port rw : Nat) (s u w : State), s.adm.waiting = x :: rest →
    s.gen.phase ≠ .isolate → s.gen.phase ≠ .park → x.dest = .voq m pg port rw → x.policer = none → x.mirror = 0 →
    u = { s with adm := { s.adm with waiting := rest } } → u.ingressRole x.src = .pass →
    u.flag QSC_CTRL_RUN ix0 = true →
    u.voqOf m pg x.cls < u.voqEnd → u.addrOf m ∉ u.fab.dropping →
    u.qsc.flush.any (fun f => f.1 == u.voqOf m pg x.cls) = false →
    u.judge (u.voqOf m pg x.cls) (cellsOf x.bytes.length) x.bytes.length (some (requesterOf x.src))
      (u.lossOf x.src x.cls) = (w, .enter) →
    ∃ (t : State) (p : QPkt), exec .admission s = .next t ∧ t.adm.waiting = rest ∧ p.bytes = x.bytes ∧
      p.cls = x.cls ∧ p.dport = port ∧ p.rewrite = rw ∧
      (t.queue (u.voqOf m pg x.cls)).pkts = (s.queue (u.voqOf m pg x.cls)).pkts ++ [p]) ∧
  (∀ (k : Fin 8) (ue : Option (BitVec 32)) (q h : Nat) (s u : State), s.gen.phase ≠ .isolate → s.gen.phase ≠ .park →
    s.domUp domQC = true → s.slotComes (some k.val) = some u → oldestOf (u.evictors (· == k.val)) = some q →
    u.pageFor q = some h → u.readsBad q 16 ue = false →
    ∃ t, exec (.deepEvict (some k) ue) s = .next t ∧ (t.queue q).pages = (s.queue q).pages ++ [⟨h, false, 0, 16⟩] ∧
      (t.queue q).refused = false ∧ ∃ b, t.buf h = some b ∧ b.busy = true ∧ b.owner = 20) ∧
  (∀ (k : Fin 8) (b : BitVec 32) (q : Nat) (s u : State), s.gen.phase ≠ .isolate → s.gen.phase ≠ .park →
    s.domUp domQC = true → s.slotComes (some k.val) = some u → oldestOf (u.evictors (· == k.val)) = some q →
    u.readsBad q 16 (some b) = true →
    ∃ t, exec (.deepEvict (some k) (some b)) s = .next t ∧
      (t.queue q).pkts = (s.queue q).pkts.filter fun p => !p.cells.any (CellAt.dieAt b.toNat)) ∧
  (∀ (q : BitVec 20) (ue : Option (BitVec 32)) (h : Nat) (s u : State), s.gen.phase ≠ .isolate → s.gen.phase ≠ .park →
    s.domUp domQC = true → s.evictable q.toNat ≠ 0 → s.evictable q.toNat < 16 →
    s.slotFor (q.toNat % 8) = some u → u.pageFor q.toNat = some h →
    u.readsBad q.toNat (s.evictable q.toNat) ue = false →
    ∃ t, exec (.partialPageTimer q ue) s = .next t ∧
      (t.queue q.toNat).pages = (s.queue q.toNat).pages ++ [⟨h, false, 0, s.evictable q.toNat⟩]) ∧
  (∀ (h : BitVec 32) (q : Nat) (s : State), s.queueOfPage h.toNat = some q →
    (∀ g ∈ (s.queue q).pages, ¬(g.h = h.toNat ∧ g.written = true)) → s.dramUp = true →
    s.gen.phase ≠ .park →
    ∃ t, exec (.deepPageWritten h) s = .next t ∧ (t.queue q).pages =
      (s.queue q).pages.map (fun g => if g.h = h.toNat then { g with written := true } else g) ∧
      ∀ b r, CellAt.moving b r h.toNat ∉ (t.queue q).cells) ∧
  (∀ (q : BitVec 20) (h n : Nat) (p : DeepPage) (s w u : State), s.gen.phase ≠ .isolate → s.gen.phase ≠ .park →
    s.domUp domQC = true → w = s.refillWatch q.toNat → w.adm.reads.head? = some q.toNat →
    (w.queue q.toNat).nextPage = some (h, n) → w.mover.rd < moverSlots →
    (w.queue q.toNat).pages.find? (fun g => g.h == h) = some p → p.lost = 0 → w.dramUp = true →
    w.badIn 3 (8 * (p.h - pageBase)) ((p.size + 1) / 2) = [] →
    w.coverRetry 20 (((w.queue q.toNat).cells.filter (· == .deep p.h)).length) = (u, .covered) →
    ∃ t, exec (.deepRefill q) s = .next t ∧ (t.queue q.toNat).pkts = refillPkts p.h
      (u.useCells 20 (((w.queue q.toNat).cells.filter (· == .deep p.h)).length) none).2 (w.queue q.toNat).pkts)

/-! ## The DRAM clusters, spec/13_memory.md -/

/-- The clusters start with the rest of their capacity as the deep-buffer partition (R396, R397); an error is counted or
reported by its kind (R401); channels are retrained and spared (R400, R403 to R406); a counter pair is cleared (R409).
Each of these commands answers a next state with its own effect, in every state that meets the clause's conditions:
.ddcRun, .setRetrain, .dramRead, .cntClr, .spareGo, .spareCopyDone, .spareTest. -/
def Obligations.ClustersRunReadAndSpare : Prop :=
  (∀ (req : Req) (v : W64) (s u : State), s.arrives req .ddcCtrl ix0 = true →
    u = (s.arrived req .ddcCtrl ix0).ownWrite req .ddcCtrl ix0 v DDC_CTRL_RUN.mask →
    (s.arrived req .ddcCtrl ix0).domUp (domDC 0) = true → DDC_CTRL_RUN.get v = 1 → u.flag DDC_CTRL_RUN ix0 = false →
    u.partGib 0 ≤ 16 → u.partGib 0 + u.partGib 1 + u.partGib 2 + 16 ≤ u.usableGib →
    ∃ t, exec (.ddcRun req v) s = .next t ∧ t.flag DDC_CTRL_RUN ix0 = true ∧ t.flag DDC_CTRL_STOPPED ix0 = false ∧
      t.fld DDC_PART_DEEP_GIB ix0 = (u.usableGib - (u.partGib 0 + u.partGib 1 + u.partGib 2)) % 2048 ∧
      t.partGib 3 = u.usableGib - (u.partGib 0 + u.partGib 1 + u.partGib 2) ∧ t.ddc.win = []) ∧
  (∀ (fails : BitVec 9) (s : State), s.flag DDC_CTRL_RUN ix0 = true → s.gen.selfRefresh = false → s.ddc.set < 16 →
    ∃ t, exec (.setRetrain fails) s = .next t ∧ t.ddc.set = (s.ddc.set + 1) % 16 ∧ t.ddc.win = s.ddc.win ∧
      ∀ k < 9, s.clusterUp k = true → (s.spare k).mapped ≠ some s.ddc.set →
        t.flag DDC_CH_STATUS_RETRAIN_OK (ixNI k s.ddc.set) = !fails.getLsbD k) ∧
  (∀ (part : Fin 4) (off : BitVec 35) (word : Fin 8) (j : Fin 9) (set stripe k c : Nat) (s : State), s.dramUp = true →
    off.toNat < s.partGib part.val * 2 ^ 24 → s.stripeAt part.val off.toNat = (set, stripe) →
    k = burstCluster stripe j.val → c = s.channelOf k set →
    ∃ t, exec (.dramRead part off (.corrected word j)) s = .next t ∧ t.fld DDC_CE_COUNT (ixNI k c) =
      satAdd DDC_CE_COUNT.width (s.fld DDC_CE_COUNT (ixNI k c)) 1) ∧
  (∀ (off : BitVec 35) (w : Fin 8) (s : State), s.dramUp = true → off.toNat < s.partGib 0 * 2 ^ 24 →
    ∃ t, exec (.dramRead 0 off (.uncorrectable w)) s = .next t ∧ 4 * off.toNat + w.val / 2 ∈ t.ddc.invalid ∧
      tblFind (4 * off.toNat + w.val / 2) t.ddc.pairs = none) ∧
  (∀ (req : Req) (v : W64) (s u : State), s.arrives req .ddcCntClr ix0 = true →
    u = (s.arrived req .ddcCntClr ix0).ownWrite req .ddcCntClr ix0 v 0 → u.dramUp = true →
    DDC_CNT_CLR_PAIR.get v < u.pairTotal →
    ∃ t, exec (.cntClr req v) s = .next t ∧ tblFind (DDC_CNT_CLR_PAIR.get v) t.ddc.pairs = none ∧
      DDC_CNT_CLR_PAIR.get v ∉ t.ddc.invalid ∧ Frame [.ddc] u t) ∧
  (∀ (n : Fin 9) (v : W64) (s u : State), s.arrives .mill .ddcSpare (ixN n.val) = true →
    u = (s.arrived .mill .ddcSpare (ixN n.val)).flushRw .ddc n.val →
    (s.arrived .mill .ddcSpare (ixN n.val)).domUp (domDC n.val) = true → (u.spare n.val).copying = none →
    DDC_SPARE_SRC.get v ≠ 15 → u.spareOk n.val = true →
    ∃ t, exec (.spareGo .mill n v) s = .next t ∧ (t.spare n.val).copying = some (DDC_SPARE_SRC.get v) ∧
      tblFind n.val t.mil.flash.spares = some (DDC_SPARE_SRC.get v)) ∧
  (∀ (n : Fin 9) (bad : Bool) (c : Nat) (s : State), (s.spare n.val).copying = some c →
    s.clusterUp n.val = true →
    ∃ t, exec (.spareCopyDone n bad) s = .next t ∧ (t.spare n.val).copying = none ∧
      (bad = true → (t.spare n.val).failed = true) ∧ (bad = false → (t.spare n.val).mapped = some c)) ∧
  (∀ (n : Fin 9) (ue : Bool) (corr : BitVec 32) (s u : State), s.clusterUp n.val = true →
    s.flag DDC_CTRL_SPARE_EN ix0 = true → (s.spare n.val).copying = none →
    ((s.spare n.val).mapped = none ∨ s.gen.phase = .init) →
    u = (if corr = 0 then s else s.corrected n.val 15 corr.toNat) →
    ∃ t, exec (.spareTest n ue corr) s = .next t ∧
      (ue = false → u.ceNow n.val 15 ≤ s.fld DDC_CE_CFG_THRESH (ixN n.val) → (t.spare n.val).tested = true) ∧
      (ue = true ∨ s.fld DDC_CE_CFG_THRESH (ixN n.val) < u.ceNow n.val 15 →
        (t.spare n.val).failed = true ∧ (t.spare n.val).mapped = none))

/-! ## Queues, credit and scheduling, spec/14_scheduling.md -/

/-- QSC runs and stops (R414); a flush drops what its queue held (R416); a served VOQ sends its head packet and pays for
it (R419); an arrival that passes joins its egress queue (R415); a selection sends the head packet of the one queue that
is ready towards its slice (R430). A packet with a cell that is read with an uncorrectable error is dropped where it
would leave (spec/12_buffering.md R373). The gates of a port follow its operating list (R435), and the administrative
list takes its place at its instant (R438). Each of these commands answers a next state with its own effect, in every
state that meets the clause's conditions: .qscRun, .queueFlushStart, .queueFlushDone, .voqDequeue, .egressEnqueue,
.schedulerSelection, .gateEvent, .change, .gateListSwitch. -/
def Obligations.QueuesGatesAndSelection : Prop :=
  (∀ (req : Req) (v : W64) (s : State), s.arrives req .qscCtrl ix0 = true →
    (s.arrived req .qscCtrl ix0).domUp domQC = true → 1 ≤ QSC_CTRL_VOQ_BLOCKS.get v → QSC_CTRL_VOQ_BLOCKS.get v ≤ 8 →
    ∃ t, exec (.qscRun req v) s = .next t ∧ t.fld QSC_CTRL_RUN ix0 = QSC_CTRL_RUN.get v ∧
      t.fld QSC_CTRL_STOPPED ix0 = 1 - QSC_CTRL_RUN.get v) ∧
  (∀ (req : Req) (v : W64) (s u : State), s.arrives req .qscFlush ix0 = true →
    u = (s.arrived req .qscFlush ix0).ownWrite req .qscFlush ix0 v 0 →
    (s.arrived req .qscFlush ix0).domUp domQC = true →
    u.qsc.flush = none →
    ∃ t, exec (.queueFlushStart req v) s = .next t ∧ t.flag QSC_FLUSH_BUSY ix0 = true ∧
      t.qsc.flush = some (QSC_FLUSH_QUEUE.get v, (u.queue (QSC_FLUSH_QUEUE.get v)).pkts.length)) ∧
  (∀ (q n : Nat) (s : State), s.qsc.flush = some (q, n) → s.domUp domQC = true →
    s.gen.phase ≠ .park →
    ∃ t, exec .queueFlushDone s = .next t ∧ t.qsc.flush = none ∧ t.qsc.late = [] ∧
      (s.qsc.late = [] → (t.queue q).pkts = (s.queue q).pkts.drop n) ∧
      t.flag QSC_FLUSH_BUSY ix0 = false ∧ t.flag QSC_INT_STATUS_FLUSH_DONE ix0 = true) ∧
  (∀ (q : Nat) (p : QPkt) (rest : List QPkt) (s : State), s.gen.phase ≠ .isolate → s.gen.phase ≠ .park →
    s.domUp domQC = true → s.flag QSC_CTRL_RUN ix0 = true → s.qsc.elig.find? s.servable = some q →
    (s.queue q).pkts = p :: rest →
    (∃ t, exec (.voqDequeue true) s = .next t ∧ (t.queue q).pkts = rest ∧
      t.fld ADM_DROP_PKT_COUNT (ixI causeMemUncorrectable) =
        satAdd ADM_DROP_PKT_COUNT.width (s.fld ADM_DROP_PKT_COUNT (ixI causeMemUncorrectable)) 1) ∧
    ∃ t, exec (.voqDequeue false) s = .next t ∧ (t.queue q).pkts = rest ∧
      (t.queue q).balance = if rest.isEmpty && 0 < (s.queue q).balance - p.bytes.length then 0
        else (s.queue q).balance - p.bytes.length) ∧
  (∀ (a : EgrArr) (rest : List EgrArr) (q : Nat) (s u : State), s.gen.phase ≠ .isolate → s.gen.phase ≠ .park →
    s.adm.egress = a :: rest →
    u = { s with adm := { s.adm with egress := rest } } → u.egressRole a.dport a.pair = .pass →
    u.egressQueue a.dport a.rewrite a.cls = some q → u.flag QSC_CTRL_RUN ix0 = true →
    u.qsc.flush.any (fun f => f.1 == q) = false →
    (u.queue q).bytes + a.bytes.length ≤ u.fld ADM_PROF1_MAX_BYTES (ixI (u.profOf q)) →
    u.queueOk q (cellsOf a.bytes.length) = true →
    ∃ (t : State) (p : QPkt), exec .egressEnqueue s = .next t ∧ t.adm.egress = rest ∧ p.bytes = a.bytes ∧
      p.cells = ownCells 16 a.cells ∧ (t.queue q).pkts = (s.queue q).pkts ++ [p]) ∧
  (∀ (port : Fin 288) (ue : Bool) (q : Nat) (x : QPkt) (rest : List QPkt) (s u : State), s.gen.phase ≠ .isolate →
    s.gen.phase ≠ .park → s.domUp domQC = true → s.flag QSC_CTRL_RUN ix0 = true → s.couch.st = .up →
    s.domUp domFC = true → s.mayPick port.val = true → (∀ e ∈ s.prt.groups, e.2.draining = false) →
    u = (s.gateSettle port.val).dropOversizes port.val →
    (u.queuesOf port.val).filter (u.queueReady port.val) = [q] → (u.queue q).pkts = x :: rest →
    ∃ t, exec (.schedulerSelection port ue) s = .next t ∧ (t.queue q).pkts = rest ∧
      t.couch.qxToFx = s.couch.qxToFx ++ if ue then [] else
        [.egress (portSlice port.val) ⟨x.bytes, port.val, q % 8, x.rewrite, x.ts⟩]) ∧
  (∀ (port : Fin 288) (x : GateSeg) (n : Nat) (rest : List (GateSeg × Nat)) (s : State), s.domUp domQC = true →
    s.gen.phase ≠ .isolate → s.gen.phase ≠ .park →
    s.gatesHeld port.val = false → s.gateAhead port.val = (x, n) :: rest →
    ∃ t, exec (.gateEvent port) s = .next t ∧
      t.fld TGT_STATUS_GATES (ixI port.val) = x.gates % 2 ^ TGT_STATUS_GATES.width ∧
      t.fld TGT_STATUS_ENTRY (ixI port.val) = x.entry % 2 ^ TGT_STATUS_ENTRY.width ∧ Frame [.regs] s t) ∧
  (∀ (req : Req) (port : Fin 288) (v : W64) (s u : State), s.arrives req .tgtCtrl (ixI port.val) = true →
    u = ((s.arrived req .tgtCtrl (ixI port.val)).flushRw .tgt 0).ownWrite req .tgtCtrl (ixI port.val) v 0 →
    (s.arrived req .tgtCtrl (ixI port.val)).domUp domQC = true →
    (((s.arrived req .tgtCtrl (ixI port.val)).flushRw .tgt 0).gate port.val).switchAt = none →
    0 < u.fld TGT_CTRL_ADMIN_CYCLE (ixI port.val) → u.fld TGT_CTRL_ADMIN_CYCLE (ixI port.val) ≤ 1000000000 →
    ∃ t, exec (.change req port v) s = .next t ∧ t.flag TGT_CTRL_SWITCH_PENDING (ixI port.val) = true ∧
      (t.gate port.val).switchAt = some (u.switchTime
        (u.fld TGT_BASE_SEC_SEC (ixI port.val) * 1000000000 + u.fld TGT_BASE_NS_NS (ixI port.val))
        (u.fld TGT_CTRL_ADMIN_CYCLE (ixI port.val)))) ∧
  (∀ (port : Fin 288) (at_ : Nat) (s : State), (s.gate port.val).switchAt = some at_ → s.domUp domQC = true →
    s.gen.phase ≠ .isolate → s.gen.phase ≠ .park →
    s.domUp domTM = true → at_ * 65536 ≤ s.gateTime port.val →
    ∃ t, exec (.gateListSwitch port) s = .next t ∧
      (t.gate port.val).base = at_ ∧ (t.gate port.val).cycle = s.fld TGT_CTRL_ADMIN_CYCLE (ixI port.val) ∧
      (t.gate port.val).entries = s.fld TGT_CTRL_ADMIN_LEN_M1 (ixI port.val) + 1 ∧
      (t.gate port.val).switchAt = none ∧
      t.flag TGT_CTRL_SWITCH_PENDING (ixI port.val) = false ∧ t.flag TGT_INT_STATUS_SWITCHED ix0 = true)

/-- A packet that names a two-rate policer is metered at admission before it is judged: one that conforms takes its
length from both buckets, one beyond the committed bucket alone is yellow and takes it from the second, and a red one is
dropped with cause POLICED where RED_ACT is 0 (R439). Each of these commands answers a next state with its own effect,
in every state that meets the clause's conditions: .admission. -/
def Obligations.PolicersMeterPackets : Prop :=
  ∀ (x : XPkt) (rest : List XPkt) (n m pg port rw : Nat) (cfg : W64) (b : Bucket) (len : Int) (s : State),
    s.adm.waiting = x :: rest → s.gen.phase ≠ .isolate → s.gen.phase ≠ .park → s.domUp domQC = true →
    x.policer = some n →
    x.dest = .voq m pg port rw → x.mirror = 0 → cfg = s.rd .shpPolStore (ixIJ 5 n) → b = s.bucket 5 n →
    SHP_POL_CFG_MODE.get cfg = 2 → SHP_POL_CFG_AWARE.get cfg = 0 → SHP_POL_CFG_CNT_EN.get cfg = 0 →
    len = ((x.bytes.length * byteUnits : Nat) : Int) →
    (∀ c d, b.cir = c → b.pir = d → 0 ≤ c → 0 ≤ d →
      (len ≤ c → len ≤ d → ∃ t, exec .admission s = .next t ∧ t.adm.waiting = rest ∧
        (t.bucket 5 n).cir = c - len ∧ (t.bucket 5 n).pir = d - len) ∧
      (c < len → len ≤ d → ∃ t, exec .admission s = .next t ∧ t.adm.waiting = rest ∧
        (t.bucket 5 n).cir = c ∧ (t.bucket 5 n).pir = d - len) ∧
      (d < len → SHP_POL_CFG_RED_ACT.get cfg = 0 → s.ingressRole x.src = .pass →
        ∃ t, exec .admission s = .next t ∧ t.adm.waiting = rest ∧ t.qsc.qs = s.qsc.qs ∧
          t.fld ADM_DROP_PKT_COUNT (ixI causePoliced) =
            satAdd ADM_DROP_PKT_COUNT.width (s.fld ADM_DROP_PKT_COUNT (ixI causePoliced)) 1 ∧
          (t.bucket 5 n).cir = c ∧ (t.bucket 5 n).pir = d))

/-- A VOQ asks, is granted, deferred or not answered (R417, R418, R420); the credit scheduler takes requests in, judges
them slot by slot and lowers USED as credit comes back (R421 to R424); reservations stay within FAB_RATE (R425). Each of
these commands answers a next state with its own effect, in every state that meets the clause's conditions:
.creditRequest, .requestArrival, .creditSlot, .grant, .defer, .deferBackoffExpiry, .reqTimeout, .creditReturnReceive,
.idleClr, .crdResEnable. -/
def Obligations.CreditIsAskedAndGranted : Prop :=
  (∀ (q : BitVec 20) (s : State), s.gen.phase ≠ .isolate → s.gen.phase ≠ .park → s.domUp domQC = true →
    s.asks q.toNat = true →
    ∃ t, exec (.creditRequest q) s = .next t ∧ (t.queue q.toNat).out = (s.queue q.toNat).out + 1) ∧
  (∀ (src pg cls addr at_ : Nat) (pair : Bool) (s u : State),
    Oldest (.msg src (.request pg cls addr pair) at_) s u → s.gen.phase ≠ .isolate → s.gen.phase ≠ .park →
    ∃ t, exec .requestArrival s = .next t ∧
      (s.crd.slotReqs.length < 16 → t.crd.slotReqs = s.crd.slotReqs ++ [⟨src, pg, cls, addr, pair⟩]) ∧
      (16 ≤ s.crd.slotReqs.length → s.crd.queue.length < 1024 →
        t.crd.queue = s.crd.queue ++ [⟨src, pg, cls, addr, pair⟩]) ∧
      (16 ≤ s.crd.slotReqs.length → 1024 ≤ s.crd.queue.length → s.domUp domQC = true →
        t.flag CRD_INT_STATUS_REQ_OVF ix0 = true ∧ t.crd = s.crd)) ∧
  (∀ (s : State), s.gen.phase ≠ .isolate → s.gen.phase ≠ .park → s.domUp domQC = true →
    ∃ t, exec .creditSlot s = .next t ∧ t.crd.ptr = (s.crd.ptr + 1) % 16 ∧ t.crd.slotReqs = s.crd.queue.take 16 ∧
      t.crd.queue = s.crd.queue.drop 16 ∧ ∀ r : CrdReq, s.crd.slotReqs = [r] → r.pair = false →
        s.crdSettle.deferReason r.pg r.cls = none →
        s.fld CRD_CLASS_USED (ixIJ r.pg r.cls) + s.quantum < 2 ^ CRD_CLASS_USED.width →
        r.pg < 32 → r.cls < 8 →
        t.fld CRD_CLASS_USED (ixIJ r.pg r.cls) = s.fld CRD_CLASS_USED (ixIJ r.pg r.cls) + s.quantum) ∧
  (∀ (src pg cls addr bytes at_ q : Nat) (pair : Bool) (s u : State),
    Oldest (.msg src (.grant pg cls addr pair bytes) at_) s u → u.answers src pg cls addr pair = true →
    q = answeredVoq pg cls addr pair → (s.queue q).pkts ≠ [] →
    s.gen.phase ≠ .isolate → s.gen.phase ≠ .park →
    ∃ t, exec .grant s = .next t ∧ (t.queue q).balance = (s.queue q).balance + bytes ∧
      (t.queue q).out = (s.queue q).out - 1 ∧ (t.queue q).granter = src) ∧
  (∀ (src pg cls addr reason at_ q : Nat) (pair : Bool) (s u : State),
    Oldest (.msg src (.defer pg cls addr pair reason) at_) s u → u.answers src pg cls addr pair = true →
    q = answeredVoq pg cls addr pair → s.gen.phase ≠ .isolate → s.gen.phase ≠ .park →
    ∃ t, exec .defer s = .next t ∧ (t.queue q).out = (s.queue q).out - 1 ∧
      (t.queue q).backoff = (s.fld CRD_CTRL_DEFER_BACKOFF ix0 != 0)) ∧
  (∀ (q : BitVec 20) (s : State), (s.queue q.toNat).backoff = true → s.gen.phase ≠ .isolate → s.gen.phase ≠ .park →
    ∃ t, exec (.deferBackoffExpiry q) s = .next t ∧ (t.queue q.toNat).backoff = false ∧ Frame [.qsc] s t) ∧
  (∀ (q : BitVec 20) (s : State), (s.queue q.toNat).out ≠ 0 → s.domUp domQC = true → s.gen.phase ≠ .isolate →
    s.gen.phase ≠ .park →
    ∃ t, exec (.reqTimeout q) s = .next t ∧ (t.queue q.toNat).out = (s.queue q.toNat).out - 1 ∧
      t.flag CRD_INT_STATUS_REQ_TIMEOUT ix0 = true) ∧
  (∀ (src pg cls bytes at_ : Nat) (s u : State), Oldest (.msg src (.creditReturn pg cls bytes) at_) s u →
    s.gen.phase ≠ .isolate → s.gen.phase ≠ .park →
    ∃ t, exec .creditReturnReceive s = .next t ∧
      t.fld CRD_CLASS_USED (ixIJ pg cls) = s.fld CRD_CLASS_USED (ixIJ pg cls) - bytes) ∧
  (∀ (g : Fin 32) (k : Fin 8) (s : State), s.gen.phase ≠ .isolate → s.gen.phase ≠ .park →
    ∃ t, exec (.idleClr g k) s = .next t ∧ t.fld CRD_CLASS_USED (ixIJ g.val k.val) = 0 ∧ Frame [.regs] s t) ∧
  (∀ (req : Req) (r : Fin 4096) (v : W64) (s u : State), s.arrives req .crdRes (ixI r.val) = true →
    u = ((s.arrived req .crdRes (ixI r.val)).ownWrite req .crdRes (ixI r.val) v CRD_RES_EN.mask).crdSettle →
    (s.arrived req .crdRes (ixI r.val)).domUp domQC = true → CRD_RES_EN.get v = 1 →
    (u.set CRD_RES_EN (ixI r.val) 1).resRate ≤ u.fld CRD_FAB_FAB_RATE ix0 →
    ∃ t, exec (.crdResEnable req r v) s = .next t ∧ t.flag CRD_RES_EN (ixI r.val) = true)

/-! ## The fabric, spec/15_fabric.md -/

/-- A macro starts and stops, and its links search again (R455); a lane in SEARCH collects the positions of good
markers, and one that stands alone at count 4 locks it (R459, R460); a good marker at the locked position ends a run of
errored ones (R461); a sound control cell for this module gives its messages, and a bad header loses delineation (R463,
R464, R466, R474). Each of these commands answers a next state with its own effect, in every state that meets the
clause's conditions: .fabMacroRun, .markerReceive, .searchWindowEnd, .cellReceive. -/
def Obligations.LinksAlignAndReceive : Prop :=
  (∀ (req : Req) (n : Fin 5) (v : W64) (s u : State), s.arrives req .fabMacroCtrl (ixN n.val) = true →
    u = (s.arrived req .fabMacroCtrl (ixN n.val)).ownWrite req .fabMacroCtrl (ixN n.val) v FAB_MACRO_CTRL_RUN.mask →
    (s.arrived req .fabMacroCtrl (ixN n.val)).domUp (domFB n.val) = true → u.prt.leaving = none →
    u.macroRuns n.val = (FAB_MACRO_CTRL_RUN.get v == 0) →
    (FAB_MACRO_CTRL_RUN.get v = 1 → u.flag FAB_MACRO_CTRL_LEGACY (ixN n.val) = true → u.ownId < 1024) →
    ∃ t, exec (.fabMacroRun req n v) s = .next t ∧ t.fld FAB_MACRO_CTRL_RUN (ixN n.val) = FAB_MACRO_CTRL_RUN.get v ∧
      t.fld FAB_MACRO_CTRL_STOPPED (ixN n.val) = 1 - FAB_MACRO_CTRL_RUN.get v ∧
      ∀ l, l / 64 = n.val → (t.link l).align = AlignSt.init ∧ (t.link l).maps = []) ∧
  (∀ (lane : Lane) (pos : Fin 174080) (m : List Byte) (s : State), s.laneOn lane = true →
    (s.align lane).locked = none → markerKind lane m = .good → (∀ c ∈ (s.align lane).cands, c.pos ≠ pos.val) →
    (s.align lane).cands.length < 32 →
    ∃ t, exec (.markerReceive lane pos m) s = .next t ∧
      (t.align lane).cands = (s.align lane).cands ++ [⟨pos.val, 1, true⟩] ∧ (t.align lane).locked = none) ∧
  (∀ (lane : Lane) (pos : Fin 174080) (m : List Byte) (s : State), s.laneOn lane = true →
    (s.align lane).locked = some pos.val → markerKind lane m ≠ .errored → s.prt.leaving = none →
    ∃ t, exec (.markerReceive lane pos m) s = .next t ∧ (t.align lane).errRun = 0 ∧
      (t.align lane).locked = some pos.val) ∧
  (∀ (lane : Lane) (c : Cand) (s : State), s.laneOn lane = true → (s.align lane).locked = none →
    (s.align lane).cands.filter (fun c => c.seen && 4 ≤ c.count) = [c] → s.prt.leaving = none →
    ∃ t, exec (.searchWindowEnd lane) s = .next t ∧ (t.align lane).locked = some c.pos) ∧
  (∀ (l : Fin 320) (c : List Byte) (len src : Nat) (s : State), s.linkRuns l.val = true →
    (s.link l.val).align.locked.isSome = true → (s.link l.val).skip = false → s.legacy l.val = false →
    s.domUp domQC = true → crc16 (bytesAt c 0 14) = beNat (bytesAt c 14 2) →
    beNat (bytesAt c 0 1) = 2 * 16 + len → len ≤ 12 → beNat (bytesAt c 1 2) / 32 = s.ownId →
    src = beNat (bytesAt c 3 2) / 32 →
    ∃ t, exec (.cellReceive l c) s = .next t ∧ Frame [.fab] s t ∧ t.fab.rx = s.fab.rx ++ (List.range 4).filterMap
      fun i => (ctlMsgOf (bytesAt (bytesAt c 16 (64 + 32 * len)) (16 * i) 16)).map fun m => .msg src m s.tim.total) ∧
  (∀ (l : Fin 320) (c : List Byte) (s : State), s.linkRuns l.val = true →
    (s.link l.val).align.locked.isSome = true → (s.link l.val).skip = false → s.legacy l.val = false →
    crc16 (bytesAt c 0 14) ≠ beNat (bytesAt c 14 2) →
    ∃ t, exec (.cellReceive l c) s = .next t ∧ (t.link l.val).skip = true ∧ t.fab.rx = s.fab.rx)

/-- A macro is STOPPED while RUN is 0: its links transmit nothing, ignore what they receive, and its RWX fields can be
written. A link whose EN is 0 transmits nothing and is in no spray set (R455). Each of these commands answers a next
state with its own effect, in every state that meets the clause's conditions: .fabMacroRun, .registerWrite,
.rwFieldEffect. -/
def Obligations.StoppedMacrosAreSilent : Prop :=
  (∀ (l : Fin 320) (c m : List Byte) (pos : Fin 174080) (s : State),
    s.flag FAB_MACRO_CTRL_RUN (ixN (l.val / 64)) = false →
    exec (.cellTransmit l) s = .next s ∧ exec (.cellReceive l c) s = .next s ∧
      exec (.markerReceive (.fab l) pos m) s = .next s ∧ exec (.searchWindowEnd (.fab l)) s = .next s) ∧
  (∀ (req : Req) (n : Fin 5) (v : W64) (s u : State), s.arrives req .fabMacroCtrl (ixN n.val) = true →
    u = s.arrived req .fabMacroCtrl (ixN n.val) → u.flag FAB_MACRO_CTRL_RUN (ixN n.val) = false →
    u.domUp (domFB n.val) = true → FAB_MACRO_CTRL_RUN.get v = 0 →
    ∃ t, exec (.fabMacroRun req n v) s = .next t ∧ t.flag FAB_MACRO_CTRL_RUN (ixN n.val) = false ∧
      t.fld FAB_MACRO_CTRL_LEGACY (ixN n.val) = FAB_MACRO_CTRL_LEGACY.get v) ∧
  (∀ (req : Req) (off : BitVec 28) (l : Fin 320) (v : W64) (s u : State),
    off.toNat = regAddr .fabLinkCfg (linkIx l.val) →
    s.arrives req .fabLinkCfg (linkIx l.val) = true → u = s.arrived req .fabLinkCfg (linkIx l.val) →
    u.flag FAB_MACRO_CTRL_RUN (ixN (l.val / 64)) = false →
    ∃ t, exec (.registerWrite req off v) s = .next t ∧ t.rd .fabLinkCfg (linkIx l.val) =
      blend (u.rd .fabLinkCfg (linkIx l.val)) v (classMask .fabLinkCfg .rwx)) ∧
  (∀ (l : Fin 320) (s : State), s.flag FAB_LINK_CFG_EN (linkIx l.val) = false →
    exec (.cellTransmit l) s = .next s ∧ s.inSpray l.val = false) ∧
  (∀ (off : BitVec 28) (p : RwPend) (rest : List RwPend) (l : Fin 320) (s : State), rises s.fab.links = true →
    takeFirst (fun (p : RwPend) => p.off == off.toNat) s.acc.rwPend = some (p, rest) →
    findStored p.addr = some ⟨.fabLinkCfg, linkIx l.val⟩ → s.flag FAB_LINK_CFG_EN (linkIx l.val) = true →
    FAB_LINK_CFG_EN.get (blend (s.rd .fabLinkCfg (linkIx l.val)) p.val p.mask) = 0 → s.prt.leaving = none →
    ∃ t, exec (.rwFieldEffect off) s = .next t ∧ ∀ a, l.val ∉ t.sprayFor a)

/-- Links advertise, and learn what the far end reaches until its messages stop (R467); a link joins the spray sets
again (R468); a link that transmits sends what waits first, else an idle cell (R462, R469); an address out of reach too
long drops what its VOQs hold (R470); heartbeats tell which modules are alive (R475). Each of these commands answers a
next state with its own effect, in every state that meets the clause's conditions: .advert, .reach, .reachTimeout,
.sprayRejoin, .cellTransmit, .unreachHoldExpiry, .heartbeatSend, .heartbeat, .heartbeatLost. -/
def Obligations.LinksReachAndTransmit : Prop :=
  (∀ (l : Nat) (s : State), rises s.fab.links = true → s.domUp domQC = true → s.linkTx l = true →
    (s.link l).align.locked.isSome = true →
    ∃ t, exec .advert s = .next t ∧ (t.link l).txLink = (s.link l).txLink ++ [s.linkCell (s.legacy l)
      (beBytes 1 1 ++ beBytes 1 (ofBool (s.gen.phase == .run) + 2 * ofBool (s.mapped s.ownId)))]) ∧
  (∀ (l : Nat) (p : List Byte) (s u : State), Oldest (.link l p) s u → beNat (bytesAt p 0 1) = 2 →
    (s.legacy l = true → beNat (bytesAt p 1 1) % 8 < 4) → s.prt.leaving = none →
    ∃ t, exec .reach s = .next t ∧
      (t.link l).maps = tblPut (beNat (bytesAt p 1 1) % 8) (beNat (bytesAt p 4 32)) (s.link l).maps) ∧
  (∀ (l : Fin 320) (b : Fin 8) (s : State), s.prt.leaving = none →
    ∃ t, exec (.reachTimeout l b) s = .next t ∧ (t.link l.val).maps = tblDel b.val (s.link l.val).maps) ∧
  (∀ (l : Fin 320) (s : State), (s.link l.val).align.locked.isSome = true → s.prt.leaving = none →
    ∃ t, exec (.sprayRejoin l) s = .next t ∧ (t.link l.val).rejoined = true) ∧
  (∀ (l : Fin 320) (s : State), s.linkTx l.val = true →
    (∀ c rest, s.gen.phase = .run → (s.link l.val).txLink = c :: rest →
      ∃ t, exec (.cellTransmit l) s = .next t ∧ t.out = .cell l.val c :: s.out ∧ (t.link l.val).txLink = rest) ∧
    (∀ c rest, s.gen.phase = .run → (s.link l.val).txLink = [] → (s.link l.val).txCtl = [] →
      (s.link l.val).txSlot = [] → (s.link l.val).txData = c :: rest →
      ∃ t, exec (.cellTransmit l) s = .next t ∧ t.out = .cell l.val c :: s.out ∧ (t.link l.val).txData = rest) ∧
    (s.gen.phase ≠ .run → s.gen.phase ≠ .isolate → s.gen.phase ≠ .park → ∃ t, exec (.cellTransmit l) s = .next t ∧
      t.out = .cell l.val (idleCell (s.legacy l.val)) :: s.out ∧ Frame [.out] s t)) ∧
  (∀ (d : Fin 2048) (pair : Bool) (s : State), s.canReach (addrNamed d.val pair) = false →
    addrNamed d.val pair ∉ s.fab.dropping → s.domUp domQC = true → s.gen.phase = .run →
    ∃ t, exec (.unreachHoldExpiry d pair) s = .next t ∧ addrNamed d.val pair ∈ t.fab.dropping ∧
      ∀ q, q < s.voqEnd → s.voqAddr q = addrNamed d.val pair → (t.queue q).pkts = []) ∧
  (∀ (d l : Nat) (s : State), s.gen.phase = .run → s.domUp domQC = true → s.fab.monitored = [d] →
    s.leastBusy (s.sprayFor (2 * d)) = some l →
    ∃ t, exec .heartbeatSend s = .next t ∧ t.fab.hbSeq = s.fab.hbSeq + 1 ∧ (t.link l).txCtl = (s.link l).txCtl ++
      [(d, [.heartbeat s.gen.phase.code s.fab.hbSeq.toNat s.activeBits])]) ∧
  (∀ (src a b act at_ : Nat) (s u : State), Oldest (.msg src (.heartbeat a b act) at_) s u → s.monitors src = true →
    s.domUp domQC = true → s.prt.leaving = none →
    ∃ t, exec .heartbeat s = .next t ∧ src ∈ t.fab.hbUp) ∧
  (∀ (src : Fin 2048) (s : State), src.val ∈ s.fab.hbUp → s.domUp domQC = true → s.prt.leaving = none →
    ∃ t, exec (.heartbeatLost src) s = .next t ∧ src.val ∉ t.fab.hbUp ∧
      t.flag FABCMN_INT_STATUS_HB_LOST ix0 = true)

/-- A data cell in order moves its context on and one ahead of its turn is held; a gap that has waited its time is
passed, and a silent context starts over (R473, R480); SEQ restarts (R472). A slot cell waits in its member's buffer and
plays at its turn (R198, R477, R478). Each of these commands answers a next state with its own effect, in every state
that meets the clause's conditions: .dataCell, .reorderTimeout, .reorderIdle, .seqRestart, .slotCell, .playoutTurn. -/
def Obligations.CellsArePutInOrder : Prop :=
  (∀ (c : DataCell) (s u : State), Oldest (.data c) s u → s.gen.phase ≠ .isolate → s.gen.phase ≠ .park →
    s.domUp domQC = true → (s.ctx c.src).idle = false →
    (c.legacy = true ∨ (s.ctx c.src).epoch = some c.epoch) → (s.ctx c.src).held = [] →
    (ahead (s.ctx c.src).next c = 0 →
      ∃ t, exec .dataCell s = .next t ∧ (t.ctx c.src).next = ((s.ctx c.src).next + 1) % 2 ^ 32 ∧
        (t.ctx c.src).held = []) ∧
    (0 < ahead (s.ctx c.src).next c → isBehind (s.ctx c.src).next c = false →
      ∃ t, exec .dataCell s = .next t ∧ (t.ctx c.src).next = (s.ctx c.src).next ∧
        (t.ctx c.src).held = [(c, s.now)])) ∧
  (∀ (src : Fin 2048) (c : DataCell) (at_ : Nat) (s : State), (s.ctx src.val).held = [(c, at_)] → c.src = src.val →
    s.gen.phase ≠ .park →
    ∃ t, exec (.reorderTimeout src) s = .next t ∧ (t.ctx src.val).held = [] ∧
      (t.ctx src.val).next = ((s.ctx src.val).next + ahead (s.ctx src.val).next c + 1) % 2 ^ 32) ∧
  (∀ (src : Fin 2048) (s : State), s.gen.phase ≠ .park → ∃ t, exec (.reorderIdle src) s = .next t ∧
    (t.ctx src.val).epoch = none ∧
    (t.ctx src.val).next = 0) ∧
  (∀ (d : Fin 2048) (pair : Bool) (s : State), s.gen.phase ≠ .park → ∃ t, exec (.seqRestart d pair) s = .next t ∧
    tblFind (addrNamed d.val pair) t.fab.seqs = none ∧ Frame [.fab] s t) ∧
  (∀ (src ckt member mseq : Nat) (lf : Bool) (blocks : List Byte) (s u : State),
    Oldest (.slot src ckt member mseq lf blocks) s u → s.gen.phase ≠ .isolate → s.gen.phase ≠ .park →
    s.domUp domFC = true →
    s.memberReserved src ckt member = true → memberKey src ckt member ∈ s.fabricMembers →
    tblFind (memberKey src ckt member) s.lin.playout = none →
    ∃ t, exec .slotCell s = .next t ∧ ∃ p, tblFind (memberKey src ckt member) t.lin.playout = some p ∧
      p.cells = [⟨BitVec.ofNat 16 mseq, lf, blocks⟩] ∧ p.next = BitVec.ofNat 16 mseq) ∧
  (∀ (src : Fin 2048) (ckt : Fin 4096) (member : Fin 256) (p : Playout) (c : SlotCell) (rest : List SlotCell) (s : State),
    s.gen.phase ≠ .isolate → s.gen.phase ≠ .park → s.domUp domFC = true →
    memberKey src.val ckt.val member.val ∈ s.fabricMembers →
    tblFind (memberKey src.val ckt.val member.val) s.lin.playout = some p → p.filled = true →
    takeFirst (fun c => c.mseq == p.next) p.cells = some (c, rest) →
    ∃ t, exec (.playoutTurn src ckt member) s = .next t ∧
      tblFind (memberKey src.val ckt.val member.val) t.lin.playout = some { p with next := p.next + 1, cells := rest })

/-! ## Egress, spec/16_egress_rewrite.md -/

/-- A packet that every check of its egress pipeline passes leaves its MAC port as the rewritten frame, unless one
before it to its port is still in a pipeline (R30, R486, R501, R507). Each of these commands answers a next state with
its own effect, in every state that meets the clause's conditions: .egressProcess. -/
def Obligations.EgressSendsTheRewrittenFrame : Prop :=
  ∀ (pipe : Fin 64) (upset : List TableWord) (paths : List (List (BitVec 24))) (older bad : Bool) (stall : BitVec 32)
    (e : EgrSlot) (before after : List EgrSlot) (es : List (Nat × Nat)) (b : List Byte) (ream pr : Nat)
    (s u v w z : State),
    s.gen.phase ≠ .isolate → s.gen.phase ≠ .park → s.pipesUp = true → s.egr.waiting = before ++ e :: after →
    e.out = none → 4 * e.slice + e.pipe = pipe.val →
    (∀ x ∈ before, EgrSlot.next pipe.val x = false ∧ x.pkt.dport ≠ e.pkt.dport) →
    u = s.stalls stall.toNat → ream = u.stampFor (64 + 4 * e.slice + e.pipe) older →
    v = ({ u with ing := { u.ing with stamped := tblPut (64 + 4 * e.slice + e.pipe) ream u.ing.stamped } }).upsets upset →
    v.readChain (ream % 16) 29 (e.pkt.rewrite % 2 ^ 21) = (w, .ok es) →
    ((parseChain es).bind fun ch => w.rewrite ch e.pkt.cls
      (egrMv e.pkt.dport (v.fld EGR_PORT_PROFILE (ixI e.pkt.dport)) e.pkt.rewrite e.pkt.cls) (unstated w.free)
      e.pkt.bytes) = some (b, false) →
    b.length ≤ e.pkt.bytes.length + 192 → b.length + 4 ≤ w.fld EGR_PORT_MTU (ixI e.pkt.dport) →
    w.used.readProf (w.fld EGR_PORT_PROFILE (ixI e.pkt.dport)) (ream % 16) = (z, pr, bad) → bad = false →
    descReqs (keyVec (z.fld EGR_CTRL_TPID ix0) b)
      (egrMv e.pkt.dport (v.fld EGR_PORT_PROFILE (ixI e.pkt.dport)) e.pkt.rewrite e.pkt.cls) pr [0, 1, 2, 3] 2 = [] →
    z.fld EGR_PORT_MIRROR (ixI e.pkt.dport) = 0 → z.fld EGR_PORT_SAMPLER (ixI e.pkt.dport) = 0 →
    z.fld EGR_PORT_PTP_MODE (ixI e.pkt.dport) = 0 → e.pkt.dport < 256 → z.portTx e.pkt.dport = true →
    ∃ t, exec (.egressProcess pipe upset paths older stall) s = .next t ∧ .frame e.pkt.dport (macFrame b) ∈ t.out ∧
      ((∀ x ∈ before ++ after, x.out = none) → (∀ g ∈ s.prt.groups, g.2.draining = false) →
        t.egr.waiting = before ++ after)

/-! ## Time, spec/17_time.md -/

/-- A good message serves the next edge, which is measured against it (R520, R521); a source that falls silent is lost
(R518, R521); PPS and ToD go out (R522); a measurement is taken, and the first one in ACQUIRING that is far off steps
the counter (R518); software moves the counter (R529) and captures it (R516). The slave asks, the master answers in one
cell, and the completed exchange is a measurement if its delay passes the filter; one without an answer is given up
(R523, R524). Each of these commands answers a next state with its own effect, in every state that meets the clause's
conditions: .todMessage, .ppsEdge, .ppsLoss, .ppsOut, .todSend, .servoMeasurement, .timAdjSlew, .timAdjStep,
.timAdjLoad, .timeCaptureRead, .ref10mChange, .timeDreqSend, .timeDreq, .timeDresp, .timeSync, .timeExchangeTimeout. -/
def Obligations.TimeIsServedAndExchanged : Prop :=
  (∀ (m : List Byte) (inWindow : Bool) (s : State), s.domUp domTM = true →
    ∃ t, exec (.todMessage m inWindow) s = .next t ∧
      (inWindow = true → todGood m = true → ∃ x, t.tim.tod = some x ∧ x.sec = beNat (bytesAt m 4 6) ∧
        x.utcOffset = beNat (bytesAt m 10 2) ∧ x.clockClass = beNat (bytesAt m 12 1)) ∧
      (inWindow = false ∨ todGood m = false → t.flag TIM_INT_STATUS_TOD_ERR ix0 = true ∧ t.tim = s.tim)) ∧
  (∀ (sub : Fin 64) (m : TodMsg) (s : State), s.domUp domTM = true → s.timSrc = 1 → s.tim.tod = some m →
    ∃ t, exec (.ppsEdge sub) s = .next t ∧ t.tim.tod = none ∧ t.tim.lastTod = some m ∧ t.tim.meas = s.tim.meas ++
      [(s.tim.total : Int) + (sub.val * 1024 : Nat) - (s.fld TIM_CAL_PPS_IN_DELAY ix0 * 65536 : Nat)
        - (m.sec * 65536000000000 : Nat)]) ∧
  (∀ (s : State), s.domUp domTM = true → s.timSrc = 1 →
    ∃ t, exec .ppsLoss s = .next t ∧ t.tim.edgesNoMsg = 0 ∧
      (s.tim.servo = .locked → t.tim.servo = .holdover ∧ t.tim.holdSec = 0 ∧
        t.flag TIM_INT_STATUS_SRC_LOST ix0 = true) ∧
      (s.tim.servo = .acquiring → t.tim.servo = .freerun ∧ t.flag TIM_INT_STATUS_SRC_LOST ix0 = true)) ∧
  (∀ (s : State), s.domUp domTM = true → ∃ t, exec .ppsOut s = .next t ∧ t.out = .pps :: s.out ∧ Frame [.out] s t) ∧
  (∀ (s : State), s.domUp domTM = true →
    ∃ t, exec .todSend s = .next t ∧ t.out = .tod s.todBytes :: s.out ∧ Frame [.out] s t) ∧
  (∀ (off : Int) (rest : List Int) (s : State), s.tim.meas = off :: rest → s.domUp domTM = true →
    ∃ t, exec .servoMeasurement s = .next t ∧ t.tim.meas = rest ∧ t.tim.offset = offsetNs off ∧
      (s.tim.servo = .acquiring → s.tim.mayStep = true → s.fld TIM_CTRL_STEP_NS ix0 * 65536 ≤ off.natAbs →
        s.timSrc ≠ 3 →
        TimeInv s → t.tim.servo = .acquiring ∧ t.tim.mayStep = false ∧ t.flag TIM_INT_STATUS_STEPPED ix0 = true ∧
        (t.tim.total : Int) = ((s.tim.total : Int) - off) % ((2 ^ 48 * 65536000000000 : Nat) : Int)) ∧
      (s.tim.servo = .acquiring → s.tim.mayStep = false → s.tim.lockRun = 15 →
        off.natAbs < s.fld TIM_CTRL_LOCK_NS ix0 * 65536 → t.tim.servo = .locked) ∧
      (s.tim.servo = .locked → s.tim.badRun = 3 → s.fld TIM_CTRL_STEP_NS ix0 * 65536 ≤ off.natAbs →
        t.tim.servo = .acquiring)) ∧
  (∀ (req : Req) (v : W64) (s u : State), s.arrives req .timAdj ix0 = true → u = s.arrived req .timAdj ix0 →
    u.timSrc = 3 → (∃ t, exec (.timAdjSlew req v) s = .next t ∧
      t.tim.slew = u.tim.slew + signedOf 32 (TIM_ADJ_PHASE.get v) * 65536 * 1000000000 ∧
      t.tim.meas = u.tim.meas ++ [-(signedOf 32 (TIM_ADJ_PHASE.get v) * 65536)]) ∧
    (∃ t, exec (.timAdjStep req v) s = .next t ∧ t.tim.servo = .acquiring ∧ (t.tim.total : Int) =
      ((u.tim.total : Int) + signedOf 32 (TIM_ADJ_PHASE.get v) * 65536) % ((2 ^ 48 * 65536000000000 : Nat) : Int)) ∧
    (∃ t, exec (.timAdjLoad req v) s = .next t ∧ t.tim.servo = .acquiring ∧ t.tim.ns = 0 ∧ t.tim.frac = 0 ∧
      t.tim.sec = u.fld TIM_LOAD_SEC_SEC ix0 % 2 ^ 48)) ∧
  (∀ (req : Req) (s : State), (req = .pf1 → s.fnAnswers .pf1 = true) → (req ≠ .pf1 → s.mayAccess req = true) →
    s.reachable domTM = true →
    ∃ t, exec (.timeCaptureRead req) s = .next t ∧ t.tim = s.tim ∧
      (t.acc.nsCapt.find? (fun e => e.1 == req)).map (·.2) = some s.tim.nowNs) ∧
  (∀ (s : State), ∃ t, exec .ref10mChange s = .next t ∧ t.tim.ref10m = !s.tim.ref10m ∧ Frame [.tim] s t) ∧
  (∀ (s : State), s.domUp domTM = true → s.timSrc = 2 →
    ∃ t, exec .timeDreqSend s = .next t ∧ t.tim.xseq = s.tim.xseq + 1 ∧
      t.tim.exch = some ⟨s.tim.xseq + 1, s.tim.total, none⟩ ∧
      ∀ l, s.domUp domQC = true → s.leastBusy (s.sprayFor (2 * s.fld TIM_CTRL_MASTER_ID ix0)) = some l →
        (t.link l).txCtl = (s.link l).txCtl ++
          [(s.fld TIM_CTRL_MASTER_ID ix0, [.timeDreq (s.tim.xseq + 1).toNat s.tim.total])]) ∧
  (∀ (src x at_ t0 l : Nat) (s u : State), Oldest (.msg src (.timeDreq x t0) at_) s u → s.domUp domTM = true →
    s.domUp domQC = true → s.flag TIM_CTRL_FAB_MASTER ix0 = true → s.leastBusy (s.sprayFor (2 * src)) = some l →
    ∃ t, exec .timeDreq s = .next t ∧
      (t.link l).txCtl = (s.link l).txCtl ++ [(src, [.timeDresp x at_, .timeSync x s.tim.total])]) ∧
  (∀ (x t4 at_ : Nat) (e : Exchange) (s u : State),
    Oldest (.msg (s.fld TIM_CTRL_MASTER_ID ix0) (.timeDresp x t4) at_) s u → s.domUp domTM = true → s.timSrc = 2 →
    s.tim.exch = some e → e.xseq.toNat = x →
    ∃ t, exec .timeDresp s = .next t ∧ t.tim.exch = some { e with t4 := some t4 }) ∧
  (∀ (x t1 t2 t3 t4 : Nat) (y : BitVec 8) (off : Int) (s u : State),
    Oldest (.msg (s.fld TIM_CTRL_MASTER_ID ix0) (.timeSync x t1) t2) s u → s.domUp domTM = true → s.timSrc = 2 →
    s.tim.exch = some ⟨y, t3, some t4⟩ → y.toNat = x →
    (exchangeDelay t1 t2 t3 t4).toNat ≤ leastDelay (exchangeDelay t1 t2 t3 t4).toNat (s.tim.delays.take 63)
      + s.fld TIM_CTRL_FILTER_NS ix0 * 65536 →
    off = exchangeOffset t1 t2 t3 t4 (signedOf 16 (s.fld TIM_CAL_ASYM ix0) * 65536) →
    ∃ t, exec .timeSync s = .next t ∧ t.tim.exch = none ∧ t.tim.meas = s.tim.meas ++ [off] ∧ t.tim.discRun = 0) ∧
  (∀ (e : Exchange) (s : State), s.tim.exch = some e →
    ∃ t, exec .timeExchangeTimeout s = .next t ∧ t.tim.exch = none ∧
      t.fld TIM_FAB_DISCARD_COUNT ix0 = satAdd TIM_FAB_DISCARD_COUNT.width (s.fld TIM_FAB_DISCARD_COUNT ix0) 1)

/-! ## Protection, spec/18_protection.md -/

/-- The modules of a pair tell each other that they live, and their health (R538 to R541, R544, R557, R564); after 256
µs in RUN every enabled group has its role (R545). The mate's lock accesses are served over the felt link
(spec/05_rings_mailboxes_locks.md R171), and recovery ends when the module stands beside its mate (R558). Each of these
commands answers a next state with its own effect, in every state that meets the clause's conditions:
.feltHeartbeatSend, .feltHeartbeat, .feltPathLost, .fastHeartbeatSend, .aliveFault, .groupRoleInit, .healthSend,
.feltHealth, .backgroundTest, .feltLockRead, .feltLockRelease, .feltLockResult, .recoveryDone. -/
def Obligations.PairWatchesItsMate : Prop :=
  (∀ (s : State), s.gen.phase = .run → s.domUp domQC = true →
    ∃ t, exec .feltHeartbeatSend s = .next t ∧ t.prt.hbSeq = s.prt.hbSeq + 1 ∧ ∀ l ∈ s.lockedLanes,
      s.gen.feltTx = true → .felt l (feltBytes 1 (tblGet 0 s.prt.laneSeq l) s.feltBeat) ∈ t.out) ∧
  (∀ (lane : Fin 4) (msg : List Byte) (s : State), FeltIs lane msg 1 s → s.prt.leaving = none →
    ∃ t, exec (.feltHeartbeat lane msg) s = .next t ∧ t.prt.felt = true ∧ t.prt.mate = some (mateOfBeat msg)) ∧
  (∀ (s : State), s.prt.felt = true → s.domUp domQC = true → s.prt.leaving = none →
    ∃ t, exec .feltPathLost s = .next t ∧ t.prt.felt = false ∧ t.flag PRT_INT_STATUS_FELT_CHG ix0 = true) ∧
  (∀ (l : Nat) (s : State), s.gen.phase = .run → s.prt.felt = false → s.mapped s.ownId = true → s.domUp domQC = true →
    s.leastBusy (s.sprayFor (2 * mateOf s.ownId)) = some l →
    ∃ t, exec .fastHeartbeatSend s = .next t ∧ t.fab.hbSeq = s.fab.hbSeq + 1 ∧
      (t.link l).txCtl = (s.link l).txCtl ++
        [(mateOf s.ownId, [.heartbeat s.gen.phase.code s.fab.hbSeq.toNat s.activeBits])]) ∧
  (∀ (s : State), s.gen.aliveIn = false → s.prt.aliveFault = false → s.mateSeen = true → s.domUp domQC = true →
    s.prt.leaving = none →
    ∃ t, exec .aliveFault s = .next t ∧ t.prt.aliveFault = true ∧ t.flag PRT_INT_STATUS_ALIVE_FAULT ix0 = true) ∧
  (∀ (s : State), s.gen.phase = .run → s.prt.ready = false → s.domUp domQC = true → s.prt.leaving = none →
    ∃ t, exec .groupRoleInit s = .next t ∧ t.prt.ready = true ∧
      ∀ g, g < 32 → s.groupEn g = true → (t.group g).role ≠ none) ∧
  (∀ (l : Nat) (rest : List Nat) (s : State), s.gen.phase = .run → s.gen.feltTx = true → s.domUp domQC = true →
    s.lockedLanes = l :: rest →
    ∃ t, exec .healthSend s = .next t ∧ t.out = .felt l (feltBytes 6 (tblGet 0 s.prt.laneSeq l)
      (zeros 4 ++ beBytes 8 (s.rd .prtHealth ix0).toNat)) :: s.out) ∧
  (∀ (lane : Fin 4) (msg : List Byte) (w : W64) (s : State), FeltIs lane msg 6 s →
    w = BitVec.ofNat 64 (feltField msg 8 8) &&& 0x0000FFFF003FFFFF → w ≠ s.rd .prtMateHealth ix0 →
    ∃ t, exec (.feltHealth lane msg) s = .next t ∧ t.rd .prtMateHealth ix0 = w ∧
      t.flag PRT_INT_STATUS_HEALTH_CHG ix0 = true) ∧
  (∀ (sched buf spare asa : Bool) (s : State), s.domUp domQC = true →
    s.prt.groups.any (fun e => e.2.role == some false) = true →
    ∃ t, exec (.backgroundTest sched buf spare asa) s = .next t ∧
      t.flag PRT_HEALTH_SCHED_FAIL ix0 = (sched || s.flag PRT_HEALTH_SCHED_FAIL ix0) ∧
      t.flag PRT_HEALTH_BUF_FAIL ix0 = (buf || s.flag PRT_HEALTH_BUF_FAIL ix0) ∧
      t.flag PRT_HEALTH_SPARE_FAIL ix0 = (spare || s.flag PRT_HEALTH_SPARE_FAIL ix0) ∧
      t.flag PRT_HEALTH_ASA_FAIL ix0 = (asa || s.flag PRT_HEALTH_ASA_FAIL ix0)) ∧
  (∀ (lane : Fin 4) (msg : List Byte) (n : Nat) (s : State), FeltIs lane msg 7 s → feltField msg 5 1 = 1 →
    n = feltField msg 4 1 % 64 → s.domUp domHP = true → s.lockOwner n = 0 →
    ∃ t, exec (.feltLockRead lane msg) s = .next t ∧ t.lockOwner n = masterId .mate ∧
      ∀ k, k ≠ n → t.lockOwner k = s.lockOwner k) ∧
  (∀ (lane : Fin 4) (msg : List Byte) (n : Nat) (s : State), FeltIs lane msg 7 s → feltField msg 5 1 = 2 →
    n = feltField msg 4 1 % 64 → s.domUp domHP = true → s.lockOwner n = masterId .mate →
    ∃ t, exec (.feltLockRelease lane msg) s = .next t ∧ t.lockOwner n = 0 ∧ Frame [.sem] s t) ∧
  (∀ (lane : Fin 4) (msg : List Byte) (s : State), FeltIs lane msg 7 s → feltField msg 5 1 = 3 →
    ∃ t, exec (.feltLockResult lane msg) s = .next t ∧
      t.out = .lockResult (feltField msg 4 1 % 64) (feltField msg 6 1) :: s.out ∧ Frame [.out] s t) ∧
  (∀ (req : Req) (v : W64) (m : MateSt) (s u : State), s.arrives req .prtRecovery ix0 = true →
    u = s.arrived req .prtRecovery ix0 → u.domUp domQC = true → PRT_RECOVERY_DONE.get v = 1 →
    u.prt.mate = some m → u.prt.pairState = 1 → u.cmt.newest = m.ream →
    (∀ k, k < 16 → u.fld PRT_SLICE_STATUS_RUN (ixI k) = 0) → u.fld PRT_HEALTH_SLICE_FAIL ix0 = 0 →
      u.prt.leaving = none →
    ∃ t, exec (.recoveryDone req v) s = .next t ∧ t.prt.recovering = false ∧
      t.flag PRT_INT_STATUS_RECOVERY_DONE ix0 = true)

/-- A group starts and stops (R532, R545, R566, R567); its role changes hands by a coordinated switch: RELEASE, ACK, the
instant, the drain, DRAINED, or an abandonment (R547, R548); wait-to-restore starts one (R549). Each of these commands
answers a next state with its own effect, in every state that meets the clause's conditions: .protGroupEnable,
.roleRelease, .roleAck, .roleDrained, .roleAbort, .switchAckTimeout, .switchInstant, .drainMaxExpiry, .ingressGapExpiry,
.wtrExpiry. -/
def Obligations.RolesChangeHands : Prop :=
  (∀ (req : Req) (g : Fin 32) (v : W64) (s u : State), s.arrives req .prtGroupCfg (ixI g.val) = true →
    u = (s.arrived req .prtGroupCfg (ixI g.val)).ownWrite req .prtGroupCfg (ixI g.val) v PRT_GROUP_CFG_EN.mask →
    (s.arrived req .prtGroupCfg (ixI g.val)).domUp domQC = true → u.overlaps g.val = false → u.prt.leaving = none →
    ∃ t, exec (.protGroupEnable req g v) s = .next t ∧ t.groupEn g.val = (PRT_GROUP_CFG_EN.get v == 1)) ∧
  (∀ (lane : Fin 4) (msg : List Byte) (g : Nat) (s : State), FeltIs lane msg 5 s → feltField msg 5 1 = 1 →
    g = feltField msg 4 1 % 32 → s.prt.ready = true → s.groupEn g = true → (s.group g).switch = none →
    s.active g = false →
    ∃ t, exec (.roleRelease lane msg) s = .next t ∧ (t.group g).switch =
      some ⟨feltField msg 6 2, ofStamp96 (msg.drop 8), false, true, false, 0⟩) ∧
  (∀ (lane : Fin 4) (msg : List Byte) (g : Nat) (w : SwitchSt) (s : State), FeltIs lane msg 5 s →
    feltField msg 5 1 = 2 → g = feltField msg 4 1 % 32 → (s.group g).switch = some w → w.id = feltField msg 6 2 →
    w.giver = true →
    ∃ t, exec (.roleAck lane msg) s = .next t ∧ (t.group g).switch = some { w with acked := true } ∧ Frame [.prt] s t) ∧
  (∀ (lane : Fin 4) (msg : List Byte) (g : Nat) (w : SwitchSt) (s : State), FeltIs lane msg 5 s →
    feltField msg 5 1 = 3 → g = feltField msg 4 1 % 32 → (s.group g).switch = some w → w.id = feltField msg 6 2 →
    w.giver = false → w.done = true → s.prt.leaving = none →
    ∃ t, exec (.roleDrained lane msg) s = .next t ∧ (t.group g).txHeld = false ∧
      t.flag PRT_INT_STATUS_SWITCHED ix0 = true) ∧
  (∀ (lane : Fin 4) (msg : List Byte) (g : Nat) (w : SwitchSt) (s : State), FeltIs lane msg 5 s →
    feltField msg 5 1 = 4 → g = feltField msg 4 1 % 32 → (s.group g).switch = some w → w.id = feltField msg 6 2 →
    w.giver = true → w.done = false → s.prt.leaving = none →
    ∃ t, exec (.roleAbort lane msg) s = .next t ∧ (t.group g).switch = none) ∧
  (∀ (g : Fin 32) (w : SwitchSt) (s : State), (s.group g.val).switch = some w → w.giver = true → w.acked = false →
    w.done = false → s.domUp domQC = true → s.prt.leaving = none →
    ∃ t, exec (.switchAckTimeout g) s = .next t ∧ t.flag PRT_INT_STATUS_SWITCH_BLOCKED ix0 = true) ∧
  (∀ (g : Fin 32) (w : SwitchSt) (s : State), (s.group g.val).switch = some w → w.done = false → w.acked = true →
    PairUp s → (s.group g.val).undecided = false →
    ∃ t, exec (.switchInstant g) s = .next t ∧ (t.group g.val).role = some (!w.giver) ∧ (t.group g.val).gap = true) ∧
  (∀ (g : Fin 32) (s : State), s.prt.leaving = none →
    ∃ t, exec (.drainMaxExpiry g) s = .next t ∧ (t.group g.val).draining = false ∧
      ((s.group g.val).draining = false → (t.group g.val).txHeld = false)) ∧
  (∀ (g : Fin 32) (s : State),
    ∃ t, exec (.ingressGapExpiry g) s = .next t ∧ (t.group g.val).gap = false ∧ Frame [.prt] s t) ∧
  (∀ (g : Fin 32) (s : State), (s.group g.val).wtr.isSome = true → s.domUp domQC = true → s.active g.val = true →
    (s.group g.val).switch = none → (s.group g.val).blocked = none → s.prt.ready = true → s.prt.leaving = none →
    s.wtrRuns g.val = true → s.request g.val true = (1, true) → s.maySwitch = true →
    ∃ (t : State) (w : SwitchSt), exec (.wtrExpiry g) s = .next t ∧ (t.group g.val).switch = some w ∧
      w.giver = true ∧ w.id = (s.prt.nextId + 1) % 65536 ∧ w.t = s.tim.total + switchLead)

/-- The leader closes an epoch of a slice and the follower at its word (R553); digests are compared (R554); a mismatch
leads to a self-test on both modules, whose results are judged (R555, R556). Each of these commands answers a next state
with its own effect, in every state that meets the clause's conditions: .boundary, .digest, .testRequest,
.sliceSelftest, .testResult, .testResultTimeout. -/
def Obligations.SlicesAreComparedAndTested : Prop :=
  (∀ (k : Fin 16) (s : State), s.leads = true → s.domUp domQC = true → 4096 ≤ (s.cmp k.val).hist.length →
    ∃ t, exec (.boundary k none) s = .next t ∧
      t.fld PRT_SLICE_STATUS_EPOCH (ixI k.val) = (s.fld PRT_SLICE_STATUS_EPOCH (ixI k.val) + 1) % 2 ^ 32) ∧
  (∀ (k : Fin 16) (lane : Fin 4) (msg : List Byte) (s : State), FeltIs lane msg 2 s →
    ((List.range 4).map fun i => (k.val + i) % 4).find? s.laneLocked = some lane.val → s.leads = false →
    feltField msg 4 1 = k.val →
    ∃ t, exec (.boundary k (some msg)) s = .next t ∧
      t.fld PRT_SLICE_STATUS_EPOCH (ixI k.val) = feltField msg 8 4) ∧
  (∀ (lane : Fin 4) (msg : List Byte) (k : Nat) (d : DigestMsg) (s : State), FeltIs lane msg 3 s →
    k = feltField msg 4 1 % 16 → d = ⟨feltField msg 8 4, feltField msg 5 1 % 8, BitVec.ofNat 64 (feltField msg 12 8),
      feltField msg 20 4, feltField msg 24 4⟩ →
    ∃ t, exec (.digest lane msg) s = .next t ∧
      ((s.cmp k).mine = none → (t.cmp k).mate = some d) ∧
      (∀ a, (s.cmp k).mine = some a → a.epoch = d.epoch → a.nc = 0 → d.nc = 0 → a.fcsErr = d.fcsErr →
        a.ream = d.ream → (t.cmp k).mine = none ∧ (t.cmp k).mate = none ∧
          (a.digest = d.digest → t.fld PRT_SLICE_STATUS_RUN (ixI k) = 0) ∧
          (a.digest ≠ d.digest → t.flag PRT_INT_STATUS_MISMATCH ix0 = true ∧
            t.fld PRT_SLICE_STATUS_RUN (ixI k) = min 2 (s.fld PRT_SLICE_STATUS_RUN (ixI k) + 1)))) ∧
  (∀ (lane : Fin 4) (msg : List Byte) (k : Nat) (s : State), FeltIs lane msg 4 s → feltField msg 5 1 = 1 →
    k = feltField msg 4 1 % 16 →
    ∃ t, exec (.testRequest lane msg) s = .next t ∧ (t.cmp k).test = some ⟨ofStamp96 (msg.drop 8), none, none⟩ ∧
      t.flag PRT_SLICE_STATUS_TESTING (ixI k) = true) ∧
  (∀ (k : Fin 16) (pass : Bool) (x : TestSt) (s : State), (s.cmp k.val).test = some x → x.mine = none → x.mate = none →
    s.domUp domQC = true →
    ∃ t, exec (.sliceSelftest k pass) s = .next t ∧ (t.cmp k.val).test = some { x with mine := some pass } ∧
      bitAt (t.fld PRT_HEALTH_SLICE_FAIL ix0) k.val = !pass) ∧
  (∀ (lane : Fin 4) (msg : List Byte) (k : Nat) (x : TestSt) (s : State), FeltIs lane msg 4 s → feltField msg 5 1 = 2 →
    k = feltField msg 4 1 % 16 → (s.cmp k).test = some x →
    ∃ t, exec (.testResult lane msg) s = .next t ∧
      (x.mine = none → (t.cmp k).test = some { x with mate := some (feltField msg 6 1 != 0) }) ∧
      (x.mine = some true → feltField msg 6 1 ≠ 0 → (t.cmp k).test = none ∧
        t.fld PRT_SLICE_STATUS_LAST_TEST (ixI k) = 1 ∧ t.flag PRT_INT_STATUS_DIVERGENCE ix0 = true)) ∧
  (∀ (k : Fin 16) (x : TestSt) (s : State), (s.cmp k.val).test = some x → x.mine.isSome = true → x.mate = none →
    s.domUp domQC = true →
    ∃ t, exec (.testResultTimeout k) s = .next t ∧ (t.cmp k.val).test = none ∧
      t.fld PRT_SLICE_STATUS_LAST_TEST (ixI k.val) = 0 ∧ t.flag PRT_INT_STATUS_DIVERGENCE ix0 = true)

/-! ## The Mill, spec/19_mill.md -/

/-- A mismatch, a fatal memory error or the watchdog restarts the Mill and sets PRT_HEALTH.LOCKSTEP; its locks are
released and the debug port is locked (R570, R571, R595); it answers again and ML_RESTART is set (R104, R571). A
temperature sample stands as its point's value and state (R53, R577); the oldest staged entry goes into the log in flash
(R581); a notice that waits is posted (R592); debug access runs out (R595). Each of these commands answers a next state
with its own effect, in every state that meets the clause's conditions: .lockstepMismatch, .sramUncorrectable,
.millWatchdog, .millRestartDone, .sensorSample, .logFlashWrite, .millNotice, .debugExpiry. -/
def Obligations.MillRestartsWatchesAndLogs : Prop :=
  (∀ (x y : W64) (c : Instr) (s : State), c ∈ [.lockstepMismatch x y, .sramUncorrectable x, .millWatchdog x y] →
    s.domUp domQC = true → s.domUp domML = true →
    ∃ t, exec c s = .next t ∧ t.mil.ready = false ∧ t.mil.restarts = satAdd 16 s.mil.restarts 1 ∧
      t.mil.debug = false ∧ t.gen.ready.getLsbD 27 = false ∧ t.flag PRT_HEALTH_LOCKSTEP ix0 = true ∧
      t.flag MIL_INT_STATUS_MILL_RESTART ix0 = true ∧
      (∀ e ∈ t.sem, e.2 ≠ masterId .mill) ∧ (∀ z ∈ t.mbx.slots, z.done = true) ∧
      t.mil.lockstep = (if c = .lockstepMismatch x y then satAdd 16 s.mil.lockstep 1 else s.mil.lockstep) ∧
      t.mil.watchdog = (if c = .millWatchdog x y then satAdd 16 s.mil.watchdog 1 else s.mil.watchdog)) ∧
  (∀ (s : State), s.mil.ready = false → s.mil.bootRom = false → s.domUp domML = true →
    ∃ t, exec .millRestartDone s = .next t ∧ t.mil.ready = true ∧ t.mil.activating = false ∧
      t.flag GEN_RESET_CAUSE_ML_RESTART ix0 = true ∧ t.gen.image = t.mil.running) ∧
  (∀ (p : Fin 128) (v : Int) (outside : Bool) (s : State), s.mil.ready = true →
    ∃ t, exec (.sensorSample [⟨.temperature, p, some v, outside⟩]) s = .next t ∧
      (t.point .temperature p.val).value = v ∧ (t.point .temperature p.val).badRun = 0 ∧
      (t.point .temperature p.val).state =
        (if (tempLimits p.val).2 ≤ v then 2 else if (tempLimits p.val).1 ≤ v then 1 else 0) ∧
      (s.domUp domHP = true → (tempLimits p.val).1 ≤ v → (s.point .temperature p.val).warned = false →
        t.flag GEN_INT_STATUS_THERMAL_WARN ix0 = true)) ∧
  (∀ (e : LogEntry) (rest : List LogEntry) (s : State), s.mil.ready = true → s.mil.staged = e :: rest →
    (s.mil.writtenIn = s.tim.sec → s.mil.writtenSec < 1000) → s.mil.suppressed = 0 → s.mil.flash.log.length < 262144 →
    ∃ t, exec .logFlashWrite s = .next t ∧ t.mil.staged = rest ∧
      t.mil.flash.log = s.mil.flash.log ++ [(s.mil.flash.nextSeq, e)] ∧
      t.mil.flash.nextSeq = s.mil.flash.nextSeq + 1 ∧ Frame [.mil] s t) ∧
  (∀ (tag i : Nat) (rest : List Nat) (s : State), s.mil.notices = tag :: rest → s.noticePair = some i →
    s.mil.ready = true → s.domUp domHP = true →
    ∃ (t : State) (n : Notice), exec .millNotice s = .next t ∧ (t.pair i).m2h = some n ∧ n.ptr = 0 ∧ n.len = 0 ∧
      n.tag = BitVec.ofNat 8 tag ∧ t.mil.notices = rest) ∧
  (∀ (s : State), s.mil.debug = true →
    ∃ t, exec .debugExpiry s = .next t ∧ t.mil.debug = false ∧ t.mil.debugLeft = 0 ∧
      ∀ e ∈ t.sem, e.2 ≠ masterId .dbg)

/-- The commands that only read answer what they name, and change nothing else (R573, R575, R577, R578, R583 to R585).
The management controller fills a buffer, has it executed and reads it back (R593, R594); the Alert Response Address
clears the pending classes (R578); a clock held low releases the bus (R613). Each of these commands answers a next state
with its own effect, in every state that meets the clause's conditions: .identity, .sensors, .alertRead, .logRead,
.health, .partitionRead, .tagRead, .tagWpRead, .getFile, .smbBlockWrite, .execute, .smbStateRead, .smbReadSetup,
.smbBlockRead, .smbusAra, .smbClkLowTimeout. -/
def Obligations.MillAnswersReadsAndSmbus : Prop :=
  (∀ (src : MillSrc) (b : List Byte) (s : State), Asks src 0x0001 0x40 b s →
    ∃ t, exec (.identity src) s = .next t ∧ Replied src b ⟨rcOk, 0, s.identityResp⟩ t ∧ Frame [.mbx] s t) ∧
  (∀ (src : MillSrc) (b : List Byte) (k : SensorKind) (first n : Nat) (s : State), Asks src 0x0010 3 b s →
    (blkField b 0x10 1, k) ∈ [(0, .temperature), (1, .voltage), (2, .current)] → first = blkField b 0x11 1 →
    n = blkField b 0x12 1 → 0 < n → first + n ≤ kindPoints k → 0x18 + 4 * n ≤ blockLength b →
    ∃ t, exec (.sensors src) s = .next t ∧ Frame [.mbx] s t ∧ Replied src b ⟨rcOk, 0, leBytes 4 s.tim.sec ++
      leBytes 4 s.tim.ns ++ (List.range n).flatMap fun i => sensorWord (s.point k (first + i))⟩ t) ∧
  (∀ (src : MillSrc) (b : List Byte) (s : State), Asks src 0x0011 4 b s → blkField b 0x12 1 = 0 →
    ∃ t, exec (.alertRead src) s = .next t ∧ Frame [.mbx] s t ∧
      Replied src b ⟨rcOk, 0, leBytes 2 s.mil.flash.alertMask ++ leBytes 2 s.mil.pendingAlerts⟩ t) ∧
  (∀ (src : MillSrc) (b : List Byte) (s : State), Asks src 0x0020 0x10 b s →
    ∃ t, exec (.logRead src) s = .next t ∧ Frame [.mbx] s t ∧
      Replied src b (s.logResp (blkField b 0x10 6) (blkField b 0x16 2) ((blockLength b - 0x20) / 64)) t) ∧
  (∀ (src : MillSrc) (b : List Byte) (s : State), Asks src 0x0030 0x30 b s → s.domUp domQC = true →
    ∃ (t : State) (resp : List Byte), exec (.health src) s = .next t ∧ Frame [.mbx] s t ∧
      Replied src b ⟨rcOk, 0, resp⟩ t ∧ resp.length = 0x30 ∧
      resp.take 16 = leBytes 8 (s.rd .prtHealth ix0).toNat ++ leBytes 8 (s.rd .prtMateHealth ix0).toNat) ∧
  (∀ (src : MillSrc) (b : List Byte) (s : State), Asks src 0x0051 0x10 b s → blkField b 0x10 1 = 0 →
    ∃ t, exec (.partitionRead src) s = .next t ∧ Replied src b ⟨rcOk, 0, s.partResp 0⟩ t ∧ Frame [.mbx] s t) ∧
  (∀ (src : MillSrc) (b : List Byte) (off n : Nat) (s : State), Asks src 0x0060 4 b s → off = blkField b 0x10 2 →
    n = blkField b 0x12 2 → 0 < n → off < 1024 → off + n ≤ 1024 → 0x10 + n ≤ blockLength b →
    ∃ t, exec (.tagRead src) s = .next t ∧ Frame [.mbx] s t ∧
      Replied src b ⟨rcOk, 0, (List.range n).map fun i => tblGet 0 s.mil.flash.tag (off + i)⟩ t) ∧
  (∀ (src : MillSrc) (b : List Byte) (s : State), Asks src 0x0062 1 b s → isSmbus src = false → blkField b 0x10 1 = 0 →
    ∃ t, exec (.tagWpRead src) s = .next t ∧ Frame [.mbx] s t ∧
      Replied src b ⟨rcOk, 0, leBytes 1 (ofBool s.mil.flash.tagWp)⟩ t) ∧
  (∀ (src : MillSrc) (b f : List Byte) (s : State), Asks src 0x0070 0x0C b s → blkField b 0x14 4 ≤ f.length →
    0x18 + blkField b 0x18 4 ≤ blockLength b →
    ∃ t, exec (.getFile src (some f)) s = .next t ∧ Frame [.mbx] s t ∧
      Replied src b ⟨rcOk, 0,
      leBytes 4 f.length ++ zeros 4 ++ (f.drop (blkField b 0x14 4)).take (blkField b 0x18 4)⟩ t) ∧
  (∀ (off : BitVec 16) (data : List Byte) (s : State), s.smbServes = true → data.length ≤ 253 →
    (∀ b ∈ smbBufs off.toNat data.length, s.smbState b ≠ 1) → off.toNat + data.length ≤ 0x800 →
    ∃ t, exec (.smbBlockWrite off data true) s = .next t ∧ t.mil.smb = writeSmb s.mil.smb off.toNat data ∧
      (∀ b ∈ smbBufs off.toNat data.length, t.smbState b = 0) ∧ Frame [.mil] s t) ∧
  (∀ (off : BitVec 16) (data : List Byte) (s : State), s.smbServes = true → data.length ≤ 253 →
    ∃ t, exec (.smbBlockWrite off data false) s = .next t ∧ t.mil.smb = s.mil.smb ∧
      (∀ b ∈ smbBufs off.toNat data.length, t.smbState b = 3) ∧
      t.fld MIL_SMB_ERR_COUNT ix0 = satAdd MIL_SMB_ERR_COUNT.width (s.fld MIL_SMB_ERR_COUNT ix0) 1) ∧
  (∀ (b : Bool) (block : List Byte) (s : State), s.smbServes = true → s.smbState b ≠ 1 →
    block = (List.range 1024).map (fun i => tblGet 0 s.mil.smb ((if b then 0x400 else 0) + i)) →
    blockLength block ≤ 1024 →
    ∃ (t : State) (x : MillSlot), exec (.execute b true) s = .next t ∧ t.smbState b = 1 ∧
      t.mbx.slots = s.mbx.slots ++ [x] ∧ x.src = .smbus b ∧ x.block = block.take (blockLength block)) ∧
  (∀ (s : State), s.smbServes = true → ∃ t, exec .smbStateRead s = .next t ∧
    t.out = .smbData [BitVec.ofNat 8 (s.mil.smb0 + s.mil.smb1 * 4)] :: s.out ∧ Frame [.out] s t) ∧
  (∀ (off count : BitVec 16) (s : State), s.smbServes = true → 1 ≤ count.toNat → count.toNat ≤ 255 →
    ∃ t, exec (.smbReadSetup off count true) s = .next t ∧ t.mil.smbOff = off.toNat ∧ t.mil.smbCount = count.toNat ∧
      Frame [.mil] s t) ∧
  (∀ (s : State), s.smbServes = true → ∃ t, exec .smbBlockRead s = .next t ∧
    t.out = .smbData ((List.range s.mil.smbCount).map fun i => tblGet 0 s.mil.smb (s.mil.smbOff + i)) :: s.out ∧
    t.mil.smbOff = (s.mil.smbOff + s.mil.smbCount) % 65536 ∧ t.mil.smb = s.mil.smb) ∧
  (∀ (s : State), s.mil.ready = true → s.alertLow = true → ∃ t, exec .smbusAra s = .next t ∧
    t.mil.pendingAlerts = 0 ∧ .smbData [BitVec.ofNat 8 (2 * s.smbAddr)] ∈ t.out) ∧
  (∀ (s : State), ∃ t, exec .smbClkLowTimeout s = .next t ∧ t.out = .smbRelease :: s.out ∧ Frame [.out] s t)

/-- The commands on the Mill's own records: the alert mask and classes (R578), sparing and partition records (R576), the
tag area and its protection (R584, R585), and debug access (R595). The commands that act on the module: SELFTEST leaves
the result of each slice named in PRT_HEALTH; PHASE requests PARK; DOMAIN holds a domain; RESET starts a warm QX restart
or a cold reset (R103, R555, R576). Each of these commands answers a next state with its own effect, in every state that
meets the clause's conditions: .alertWrite, .alertAck, .spareStart, .spareAuto, .partitionWrite, .tagWrite, .tagWpSet,
.tagWpClear, .debugUnlock, .debugLock, .selftest, .phase, .domain, .reset. -/
def Obligations.MillCommandsKeepRecordsAndAct : Prop :=
  (∀ (src : MillSrc) (b : List Byte) (s : State), Asks src 0x0011 4 b s → blkField b 0x12 1 = 1 →
    ∃ t, exec (.alertWrite src) s = .next t ∧ t.mil.flash.alertMask = blkField b 0x10 2 ∧
      Replied src b ⟨rcOk, 0, t.alertResp⟩ t ∧ Frame [.mbx, .mil, .out] s t) ∧
  (∀ (src : MillSrc) (b : List Byte) (s : State), Asks src 0x0011 4 b s → blkField b 0x12 1 = 2 →
    ∃ t, exec (.alertAck src) s = .next t ∧ t.mil.pendingAlerts = 0 ∧ Replied src b ⟨rcOk, 0, t.alertResp⟩ t ∧
      Frame [.mbx, .mil, .out] s t) ∧
  (∀ (src : MillSrc) (b : List Byte) (n ch : Nat) (s : State), Asks src 0x0050 4 b s → blkField b 0x12 1 = 1 →
    n = blkField b 0x10 1 → ch = blkField b 0x11 1 → n ≤ 8 → ch ≤ 14 → s.domUp (domDC n) = true →
    s.spareOk n = true → (s.flushRw .ddc n).spareOk n = true → (s.spare n).copying = none →
    ∃ t, exec (.spareStart src) s = .next t ∧ (t.spare n).copying = some ch ∧
      Replied src b ⟨rcOk, 0, t.spareResp n⟩ t) ∧
  (∀ (src : MillSrc) (b : List Byte) (s : State), Asks src 0x0050 4 b s → blkField b 0x12 1 = 2 →
    blkField b 0x10 1 ≤ 8 → blkField b 0x13 1 ≤ 1 →
    ∃ t, exec (.spareAuto src) s = .next t ∧ t.mil.flash.spareAuto = (blkField b 0x13 1 == 1) ∧
      Replied src b ⟨rcOk, 0, t.spareResp (blkField b 0x10 1)⟩ t ∧ Frame [.mbx, .mil] s t) ∧
  (∀ (src : MillSrc) (b : List Byte) (s : State), Asks src 0x0051 0x10 b s → blkField b 0x10 1 = 1 →
    blkField b 0x11 1 ≤ 1 → blkField b 0x12 2 ≤ 16 →
    blkField b 0x12 2 + blkField b 0x14 2 + blkField b 0x16 2 + 16 ≤
      (if Config.is2T then 128 else 64) * (if blkField b 0x11 1 = 1 then 15 else 16) →
    ∃ t, exec (.partitionWrite src) s = .next t ∧ t.mil.flash.partSpare = blkField b 0x11 1 ∧
      t.mil.flash.partCnt = blkField b 0x12 2 ∧ t.mil.flash.partFlow = blkField b 0x14 2 ∧
      t.mil.flash.partWin = blkField b 0x16 2 ∧ Replied src b ⟨rcOk, 0, t.partResp 1⟩ t ∧ Frame [.mbx, .mil] s t) ∧
  (∀ (src : MillSrc) (b : List Byte) (off n : Nat) (s : State), Asks src 0x0061 8 b s → off = blkField b 0x10 2 →
    n = blkField b 0x12 2 → 0 < n → off < 1024 → off + n ≤ 1024 → 0x18 + n ≤ blockLength b →
    (isSmbus src = true → s.mil.flash.tagWp = false) → s.mil.flash.tagWrites < 100000 →
    ∃ t, exec (.tagWrite src) s = .next t ∧ t.mil.flash.tagWrites = s.mil.flash.tagWrites + 1 ∧
      t.mil.flash.tag = writeTag s.mil.flash.tag off (bytesAt b 0x18 n) ∧
      Replied src b ⟨rcOk, 0, leBytes 4 (s.mil.flash.tagWrites + 1)⟩ t) ∧
  (∀ (src : MillSrc) (b : List Byte) (s : State), Asks src 0x0062 1 b s → blkField b 0x10 1 = 1 →
    ∃ t, exec (.tagWpSet src) s = .next t ∧ t.mil.flash.tagWp = true ∧ Replied src b ⟨rcOk, 0, leBytes 1 1⟩ t ∧
      Frame [.mbx, .mil] s t) ∧
  (∀ (src : MillSrc) (b : List Byte) (s : State), Asks src 0x0062 1 b s → blkField b 0x10 1 = 2 →
    ∃ t, exec (.tagWpClear src) s = .next t ∧ Frame [.mbx, .mil] s t ∧
      (isSmbus src = false → t.mil.flash.tagWp = false ∧ Replied src b ⟨rcOk, 0, leBytes 1 0⟩ t) ∧
      (isSmbus src = true → t.mil.flash.tagWp = s.mil.flash.tagWp ∧ Replied src b ⟨rcDenied, 1, []⟩ t)) ∧
  (∀ (src : MillSrc) (b : List Byte) (s : State), Asks src 0x0090 8 b s → blkField b 0x10 1 = 1 →
    1 ≤ blkField b 0x14 4 → blkField b 0x14 4 ≤ 86400 →
    ∃ t, exec (.debugUnlock src) s = .next t ∧ t.mil.debug = true ∧ t.mil.debugLeft = blkField b 0x14 4 ∧
      Replied src b ⟨rcOk, 0, leBytes 4 (blkField b 0x14 4)⟩ t ∧ Frame [.mbx, .mil] s t) ∧
  (∀ (src : MillSrc) (b : List Byte) (s : State), Asks src 0x0090 8 b s → blkField b 0x10 1 = 0 →
    ∃ t, exec (.debugLock src) s = .next t ∧ t.mil.debug = false ∧ Replied src b ⟨rcOk, 0, leBytes 4 0⟩ t ∧
      ∀ e ∈ t.sem, e.2 ≠ masterId .dbg) ∧
  (∀ (src : MillSrc) (failed : BitVec 16) (b : List Byte) (s : State), Asks src 0x0031 2 b s → s.gen.phase = .run →
    s.domUp domQC = true → (∀ k, k < 16 → (s.cmp k).test = none) →
    ∃ (t : State) (resp : List Byte), exec (.selftest src failed) s = .next t ∧ Replied src b ⟨rcOk, 0, resp⟩ t ∧
      ∀ k, k < 16 → bitAt (t.fld PRT_HEALTH_SLICE_FAIL ix0) k =
        (if bitAt (blkField b 0x10 2) k then failed.getLsbD k else bitAt (s.fld PRT_HEALTH_SLICE_FAIL ix0) k)) ∧
  (∀ (src : MillSrc) (b : List Byte) (s : State), Asks src 0x0040 1 b s → blkField b 0x10 1 = 1 → s.gen.phase = .run →
    s.gen.reqBusy = false → s.gen.warmBusy = false →
    ∃ t, exec (.phase src) s = .next t ∧ t.gen.phase = .park ∧ t.gen.selfRefresh = true ∧
      Replied src b ⟨rcOk, 0, leBytes 1 Phase.park.code⟩ t) ∧
  (∀ (src : MillSrc) (b : List Byte) (s : State), Asks src 0x0041 8 b s →
    blkField b 0x10 4 = 0x200 → blkField b 0x14 4 = 0 → s.gen.phase = .run → s.fld GEN_DOMAIN_RESET_HOLD ix0 = 0 →
    s.gen.inReset.getLsbD 9 = false → s.prt.leaving = none →
    ∃ t, exec (.domain src) s = .next t ∧ t.domUp 9 = false ∧ t.tab.em = [] ∧
      Replied src b ⟨rcOk, 0, leBytes 4 t.gen.ready.toNat⟩ t) ∧
  (∀ (src : MillSrc) (b : List Byte) (s : State), Asks src 0x0042 1 b s →
    (blkField b 0x10 1 = 2 → s.gen.phase = .run → s.gen.warmBusy = false → s.gen.reqBusy = false →
      ∃ t, exec (.reset src) s = .next t ∧ t.gen.phase = .init ∧ t.gen.warmBusy = true ∧ t.qsc.qs = [] ∧
        Replied src b ⟨rcOk, 0, []⟩ t) ∧
    (blkField b 0x10 1 = 1 → s.gen.power = .up → ∃ t, exec (.reset src) s = .next t ∧ t.gen.phase = .boot ∧
      ∀ d, d < 29 → t.domUp d = decide (26 ≤ d)))

/-- An image is written into the slot that does not run, checked, activated by a restart of the Mill, and committed
(R586 to R590). Each of these commands answers a next state with its own effect, in every state that meets the clause's
conditions: .fwBegin, .fwData, .fwVerify, .fwActivate, .fwCommit. -/
def Obligations.FirmwareIsReplaced : Prop :=
  (∀ (src : MillSrc) (b : List Byte) (s : State), Asks src 0x0080 5 b s → blkField b 0x10 4 ≤ slotBytes →
    (s.mil.flash.trial = true → s.mil.flash.bootPref = !s.mil.running) →
    ∃ t, exec (.fwBegin src) s = .next t ∧ t.mil.fwSlot = some (!s.mil.running) ∧ t.mil.fwSize = blkField b 0x10 4 ∧
      (t.mil.flash.slot (!s.mil.running)).valid = false ∧ (t.mil.flash.slot (!s.mil.running)).chunks = [] ∧
      t.mil.flash.slot s.mil.running = s.mil.flash.slot s.mil.running ∧
      Replied src b ⟨rcOk, 0, leBytes 1 (ofBool (!s.mil.running))⟩ t ∧ Frame [.mbx, .mil] s t) ∧
  (∀ (src : MillSrc) (b : List Byte) (slot : Bool) (off n : Nat) (s : State), Asks src 0x0081 8 b s →
    s.mil.fwSlot = some slot → off = blkField b 0x10 4 → n = blkField b 0x14 4 → off % 8 = 0 → n % 8 = 0 →
    off + n ≤ s.mil.fwSize → off + n ≤ slotBytes → 0x18 + n ≤ blockLength b →
    ∃ t, exec (.fwData src) s = .next t ∧ (t.mil.flash.slot slot).valid = false ∧ (t.mil.flash.slot slot).chunks =
      (off, bytesAt b 0x18 n) :: (s.mil.flash.slot slot).chunks ∧ Replied src b ⟨rcOk, 0, []⟩ t) ∧
  (∀ (src : MillSrc) (b : List Byte) (slot sig hash : Bool) (x : ImageSlot) (s : State), Asks src 0x0082 5 b s →
    s.mil.fwSlot = some slot → x = s.mil.flash.slot slot →
    ∃ t, exec (.fwVerify src sig hash) s = .next t ∧
      (sig = true → hash = true → imageField x 0 8 = fwMagic → imageField x 8 4 = 1 → imageField x 0x10 1 < 64 →
        4096 + imageField x 0x14 4 = s.mil.fwSize → s.mil.flash.rollback ≤ imageField x 0x10 1 →
        (t.mil.flash.slot slot).valid = true ∧ (t.mil.flash.slot slot).version = imageField x 0x0C 4 ∧
        Replied src b ⟨rcOk, 0, leBytes 4 (imageField x 0x0C 4) ++ leBytes 1 (imageField x 0x10 1)⟩ t) ∧
      (sig = false ∨ hash = false → t.mil.flash = s.mil.flash.setSlot slot { x with valid := false } ∧
        Replied src b ⟨rcDenied, 3, []⟩ t)) ∧
  (∀ (src : MillSrc) (b : List Byte) (s : State), Asks src 0x0083 1 b s → s.mil.activating = false →
    (s.mil.flash.slot (!s.mil.running)).valid = true →
    ∃ t, exec (.fwActivate src) s = .next t ∧ t.mil.running = (!s.mil.running) ∧ t.mil.ready = false ∧
      t.mil.activating = true ∧ t.mil.flash.trial = true ∧ t.mil.flash.bootPref = (!s.mil.running)) ∧
  (∀ (src : MillSrc) (b : List Byte) (s : State), Asks src 0x0084 1 b s → s.mil.flash.trial = true →
    s.mil.flash.bootPref = s.mil.running →
    ∃ t, exec (.fwCommit src) s = .next t ∧ t.mil.flash.trial = false ∧ t.mil.flash.rollback =
      max s.mil.flash.rollback (s.mil.flash.slot s.mil.running).svn ∧
      Replied src b ⟨rcOk, 0, leBytes 1 (max s.mil.flash.rollback (s.mil.flash.slot s.mil.running).svn)⟩ t)
end

