-- ==== Sys2Proof/Laws/Kept.lean ====
section
/-!
SUPPORT. Laws/Kept.lean: what every operation of the model keeps, said once: the queue, the instant, the canonical form
of the register files and of the window partition, the ranges of the time counter, everything already put out, and the
free values already used.
-/
namespace Sys2Proof.Laws

open Sys2Proof.Machine

/-- What an operation that takes `s` to `t` keeps: no part but those listed changes; the instant and the queue stay. -/
structure Kept (ps : List Part) (s t : State) : Prop where
  same : Frame ps s t
  pending : t.pending = s.pending
  now : t.now = s.now
  regs : rises s.regs = true → rises t.regs = true
  shadow : rises s.shadow = true → rises t.shadow = true
  tim : TimeInv s → TimeInv t
  win : WinInv s → WinInv t
  out : s.out <:+ t.out
  freeCtr : s.freeCtr ≤ t.freeCtr

theorem inAll {α : Type} {a b c : List α} (h : a ⊆ b) (k : b ⊆ c) : a ⊆ c := List.Subset.trans h k

theorem Part.same_refl (p : Part) (s : State) : p.same s s := by cases p <;> rfl

theorem Part.same_trans {p : Part} {s t u : State} (a : p.same s t) (b : p.same t u) : p.same s u := by
  cases p <;> exact Eq.trans b a

theorem Kept.refl (ps : List Part) (s : State) : Kept ps s s :=
  ⟨fun p _ => Part.same_refl p s, rfl, rfl, id, id, id, id, List.suffix_refl _, Nat.le_refl _⟩

theorem Kept.trans {ps : List Part} {s t u : State} (a : Kept ps s t) (b : Kept ps t u) : Kept ps s u :=
  ⟨fun p h => Part.same_trans (a.same p h) (b.same p h), b.pending.trans a.pending, b.now.trans a.now,
    fun h => b.regs (a.regs h), fun h => b.shadow (a.shadow h), fun h => b.tim (a.tim h), fun h => b.win (a.win h),
    a.out.trans b.out, Nat.le_trans a.freeCtr b.freeCtr⟩

/-- What is kept with more parts listed. -/
theorem Kept.mono {ps qs : List Part} {s t : State} (h : Kept ps s t) (hs : ps ⊆ qs) : Kept qs s t :=
  ⟨fun p hp => h.same p fun hq => hp (hs hq), h.2, h.3, h.4, h.5, h.6, h.7, h.8, h.9⟩

/-- The goal for a state given by its fields. -/
def KeptMk (ps : List Part) (s0 : State) (pending : List Instr) (now : Nat) (freeCtr : Nat) (regs : List RegCell)
    (shadow : List RegCell) (acc : AccSt) (gen : GenSt) (couch : CouchSt) (pf0 : FnSt) (pf1 : FnSt) (pce : PceSt)
    (rng : RingsSt) (hostQ : List HostPkt) (mbx : MbxSt) (sem : LockTable) (ing : IngSt) (tab : TablesSt)
    (asa : AsaSt) (cmt : CmtSt) (replQ : List ReplPkt) (bpm : BpmSt) (adm : AdmSt) (ddc : DdcSt) (qsc : QscSt)
    (crd : CrdSt) (gates : List (Nat × GateSt)) (fab : FabSt) (egr : EgrSt) (prt : PrtSt) (lin : LinSt)
    (pmn : PmnSt) (tim : TimSt) (mil : MilSt) (arrivals : List (Nat × Arrival)) (out : List Out) : Prop :=
  Kept ps s0 ⟨pending, now, freeCtr, regs, shadow, acc, gen, couch, pf0, pf1, pce, rng, hostQ, mbx, sem,
    ing, tab, asa, cmt, replQ, bpm, adm, ddc, qsc, crd, gates, fab, egr, prt, lin, pmn, tim, mil, arrivals, out⟩

theorem keptMk {ps s0 pending now freeCtr regs shadow acc gen couch pf0 pf1 pce rng hostQ mbx sem ing tab asa
    cmt replQ bpm adm ddc qsc crd gates fab egr prt lin pmn tim mil arrivals out} :
    Kept ps s0 ⟨pending, now, freeCtr, regs, shadow, acc, gen, couch, pf0, pf1, pce, rng, hostQ, mbx, sem,
      ing, tab, asa, cmt, replQ, bpm, adm, ddc, qsc, crd, gates, fab, egr, prt, lin, pmn, tim, mil, arrivals, out⟩ =
    KeptMk ps s0 pending now freeCtr regs shadow acc gen couch pf0 pf1 pce rng hostQ mbx sem ing tab asa
      cmt replQ bpm adm ddc qsc crd gates fab egr prt lin pmn tim mil arrivals out := rfl

/-- A change of the fields that no clause of Kept but the first speaks of. -/
theorem KeptMk.upd {ps : List Part} {s0 s : State} {acc gen couch pf0 pf1 pce rng hostQ mbx sem ing tab asa cmt replQ bpm adm qsc crd gates fab egr prt lin pmn mil arrivals} {ddc : DdcSt}
    (h : Kept ps s0 s) (hw : ddc.win = s.ddc.win)
    (hs : ∀ p, p ∈ ps ∨ p.same s ⟨s.pending, s.now, s.freeCtr, s.regs, s.shadow, acc, gen, couch, pf0, pf1, pce, rng, hostQ, mbx, sem, ing, tab, asa, cmt, replQ, bpm, adm, ddc, qsc, crd, gates, fab, egr, prt, lin, pmn, s.tim, mil, arrivals, s.out⟩) :
    KeptMk ps s0 s.pending s.now s.freeCtr s.regs s.shadow acc gen couch pf0 pf1 pce rng hostQ mbx sem ing tab asa cmt replQ bpm adm ddc qsc crd gates fab egr prt lin pmn s.tim mil arrivals s.out :=
  h.trans ⟨fun p hp => (hs p).resolve_left hp, rfl, rfl, id, id, id, fun h => by simpa [WinInv, hw] using h,
    List.suffix_refl _, Nat.le_refl _⟩

/-- A change inside the time part that leaves the counter. -/
theorem KeptMk.tim {ps : List Part} {s0 s : State} {x : TimSt} (h : Kept ps s0 s)
    (hx : x.sec = s.tim.sec ∧ x.ns = s.tim.ns ∧ x.frac = s.tim.frac) (hp : .tim ∈ ps) :
    KeptMk ps s0 s.pending s.now s.freeCtr s.regs s.shadow s.acc s.gen s.couch s.pf0 s.pf1 s.pce s.rng s.hostQ s.mbx s.sem s.ing s.tab s.asa s.cmt s.replQ s.bpm s.adm s.ddc s.qsc s.crd s.gates s.fab s.egr s.prt s.lin s.pmn x s.mil s.arrivals s.out :=
  h.trans ⟨fun p hq => by cases p <;> first | rfl | exact absurd hp hq, rfl, rfl, id, id,
    fun h => by simpa [TimeInv, hx.1, hx.2.1, hx.2.2] using h, id, List.suffix_refl _, Nat.le_refl _⟩

theorem Kept.fst {ps : List Part} {s0 s : State} {α : Type} {p : State × α} {a : α} (e : p = (s, a))
    (h : Kept ps s0 p.1) : Kept ps s0 s := by subst e; exact h

theorem Kept.ite {ps : List Part} {s0 a b : State} {c : Prop} [Decidable c] (h : Kept ps s0 a) (k : Kept ps s0 b) :
    Kept ps s0 (if c then a else b) := by split <;> assumption

theorem Kept.foldl {ps : List Part} {s0 s : State} {α : Type} {f : State → α → State} {l : List α}
    (h : Kept ps s0 s) (hf : ∀ s x, Kept ps s0 s → Kept ps s0 (f s x)) : Kept ps s0 (l.foldl f s) := by
  induction l generalizing s with
  | nil => exact h
  | cons x l ih => exact ih (hf s x h)

theorem Kept.foldl_fst {ps : List Part} {s0 : State} {α β : Type} {f : State × β → α → State × β} {l : List α}
    {p : State × β} (h : Kept ps s0 p.1) (hf : ∀ p x, Kept ps s0 p.1 → Kept ps s0 (f p x).1) :
    Kept ps s0 (l.foldl f p).1 := by
  induction l generalizing p with
  | nil => exact h
  | cons x l ih => exact ih (hf p x h)

/-! ## Tables in rising order -/

theorem rises_put_head {α : Type} (k : Nat) (v : α) (e : Nat × α) (t : List (Nat × α))
    (h : rises (e :: t) = true) (hk : e.1 < k) : rises (e :: tblPut k v t) = true := by
  induction t generalizing e with
  | nil => simp [tblPut, rises, hk]
  | cons f t ih =>
    obtain ⟨k', v'⟩ := f
    simp only [rises, Bool.and_eq_true, decide_eq_true_eq] at h
    simp only [tblPut]
    split
    · simp [rises, *]
    · split
      · simp [rises, *]
        cases t with
        | nil => simp [rises]
        | cons g t => simp_all [rises]
      · simp only [rises, Bool.and_eq_true, decide_eq_true_eq]
        exact ⟨h.1, ih _ h.2 (by simp; omega)⟩

theorem rises_put {α : Type} (k : Nat) (v : α) (t : List (Nat × α)) (h : rises t = true) : rises (tblPut k v t) = true := by
  cases t with
  | nil => simp [tblPut, rises]
  | cons e t =>
    obtain ⟨k', v'⟩ := e
    simp only [tblPut]
    split
    · simp [rises, *]
    · split
      · cases t with
        | nil => simp [rises]
        | cons g t => simp_all [rises]
      · exact rises_put_head k v _ t h (by simp; omega)

theorem rises_iff {α : Type} (t : List (Nat × α)) : rises t = true ↔ t.Pairwise (fun a b => a.1 < b.1) := by
  induction t with
  | nil => simp [rises]
  | cons e t ih =>
    cases t with
    | nil => simp [rises]
    | cons f t =>
      simp only [rises, Bool.and_eq_true, decide_eq_true_eq, ih, List.pairwise_cons, List.mem_cons]
      constructor
      · rintro ⟨h1, h2, h3⟩
        refine ⟨?_, h2, h3⟩
        rintro a (rfl | ha)
        · exact h1
        · exact Nat.lt_trans h1 (h2 a ha)
      · rintro ⟨h1, h2⟩
        exact ⟨h1 f (.inl rfl), h2⟩

theorem rises_filter {α : Type} (p : Nat × α → Bool) (t : List (Nat × α)) (h : rises t = true) :
    rises (t.filter p) = true := by
  rw [rises_iff] at *; exact h.filter p

theorem rises_del {α : Type} (k : Nat) (t : List (Nat × α)) (h : rises t = true) : rises (tblDel k t) = true :=
  rises_filter _ t h

theorem rises_foldl_put {α β : Type} (k : β → Nat) (v : β → α) (l : List β) (t : List (Nat × α)) (h : rises t = true) :
    rises (l.foldl (fun t e => tblPut (k e) (v e) t) t) = true := by
  induction l generalizing t with
  | nil => exact h
  | cons e l ih => exact ih _ (rises_put _ _ _ h)

theorem rises_foldl_del {α β : Type} (k : β → Nat) (l : List β) (t : List (Nat × α)) (h : rises t = true) :
    rises (l.foldl (fun t e => tblDel (k e) t) t) = true := by
  induction l generalizing t with
  | nil => exact h
  | cons e l ih => exact ih _ (rises_del _ _ h)

theorem rises_filterMap {α : Type} (f : Nat × α → Option (Nat × α)) (t : List (Nat × α))
    (hf : ∀ e e', f e = some e' → e'.1 = e.1) (h : rises t = true) : rises (t.filterMap f) = true := by
  rw [rises_iff] at *
  refine List.Pairwise.filterMap f ?_ h
  intro a b hab a' ha b' hb
  rw [hf a a' ha, hf b b' hb]; exact hab

/-! ## The window partition -/

theorem bytesWf_iff (t : List (Nat × Byte)) : bytesWf t = true ↔ rises t = true ∧ ∀ e ∈ t, e.2 ≠ 0 := by
  induction t with
  | nil => simp [bytesWf, rises]
  | cons e t ih =>
    cases t with
    | nil => simp [bytesWf, rises]
    | cons f t => simp only [bytesWf, rises, Bool.and_eq_true, bne_iff_ne, ne_eq, decide_eq_true_eq, ih, List.mem_cons]; grind

theorem mem_tblPut {α : Type} (k : Nat) (v : α) (t : List (Nat × α)) (e : Nat × α) (h : e ∈ tblPut k v t) :
    e = (k, v) ∨ e ∈ t := by
  induction t with
  | nil => simp [tblPut] at h; exact .inl h
  | cons f t ih =>
    obtain ⟨k', v'⟩ := f
    simp only [tblPut] at h
    split at h
    · simpa using h
    · split at h
      · simp only [List.mem_cons] at h ⊢; rcases h with h | h <;> simp [h]
      · simp only [List.mem_cons] at h ⊢
        rcases h with h | h
        · simp [h]
        · rcases ih h with h | h <;> simp [h]

/-- A byte written keeps the canonical form (spec/13_memory.md R402). -/
theorem winPut_wf (a : Nat) (b : Byte) (m : List (Nat × Byte)) (h : bytesWf m = true) : bytesWf (winPut a b m) = true := by
  rw [bytesWf_iff] at *
  unfold winPut; split
  · exact ⟨rises_del _ _ h.1, fun e he => h.2 e ((List.mem_filter.mp he).1)⟩
  · refine ⟨rises_put _ _ _ h.1, fun e he => ?_⟩
    rcases mem_tblPut _ _ _ _ he with rfl | he
    · assumption
    · exact h.2 e he

theorem winWrite_wf (a : Nat) (off : List Nat) (i : Nat) (bs : List Byte) (m : List (Nat × Byte)) (h : bytesWf m = true) :
    bytesWf (winWrite a off i bs m) = true := by
  induction bs generalizing i m with
  | nil => exact h
  | cons b bs ih =>
    unfold winWrite
    apply ih
    split
    · exact h
    · exact winPut_wf _ _ _ h

/-! ## Registers -/

theorem rises_putReg (r : Reg) (ix : Ix) (v : W64) (regs : List RegCell) (h : rises regs = true) :
    rises (putReg r ix v regs) = true := by
  unfold putReg; split
  · exact rises_del _ _ h
  · exact rises_put _ _ _ h

theorem Kept.of_regs {ps : List Part} {s0 s : State} (h : Kept ps s0 s) {f : List RegCell → List RegCell}
    (hf : ∀ l, rises l = true → rises (f l) = true) (hp : .regs ∈ ps) : Kept ps s0 { s with regs := f s.regs } :=
  h.trans ⟨fun p hq => by cases p <;> first | rfl | exact absurd hp hq, rfl, rfl, hf _, id, id, id,
    List.suffix_refl _, Nat.le_refl _⟩

/-- A change inside the module part. -/
theorem Kept.of_gen {pts : List Part} {s0 s : State} (h : Kept pts s0 s) {g : GenSt} (hp : .gen ∈ pts) :
    Kept pts s0 { s with gen := g } :=
  h.trans ⟨fun p hq => by cases p <;> first | rfl | exact absurd hp hq, rfl, rfl, id, id, id, id, List.suffix_refl _,
    Nat.le_refl _⟩

/-- The time counter takes a value in its ranges. -/
theorem Kept.of_tim {ps : List Part} {s0 s : State} (h : Kept ps s0 s) {x : TimSt}
    (hx : s.tim.sec < 2 ^ 48 ∧ s.tim.ns < 1000000000 ∧ s.tim.frac < 65536 →
      x.sec < 2 ^ 48 ∧ x.ns < 1000000000 ∧ x.frac < 65536) (hp : .tim ∈ ps) : Kept ps s0 { s with tim := x } :=
  h.trans ⟨fun p hq => by cases p <;> first | rfl | exact absurd hp hq, rfl, rfl, id, id, hx, id, List.suffix_refl _,
    Nat.le_refl _⟩

/-- A counter set from one number is in its ranges (spec/17_time.md R514). -/
theorem ofTotal_ok (t : TimSt) (n : Nat) :
    (t.ofTotal n).sec < 2 ^ 48 ∧ (t.ofTotal n).ns < 1000000000 ∧ (t.ofTotal n).frac < 65536 :=
  ⟨Nat.mod_lt _ (by decide), Nat.mod_lt _ (by decide), Nat.mod_lt _ (by decide)⟩

theorem Kept.of_nanosecond {ps : List Part} {s0 s : State} (h : Kept ps s0 s) (hp : .tim ∈ ps) {n : Nat} {a b : Int} {c : Bool} {k : Nat} :
    Kept ps s0 { s with tim := if c then { ({ s.tim.ofTotal n with acc := a, slew := b }) with holdSec := k }
                            else { s.tim.ofTotal n with acc := a, slew := b } } := by
  refine Kept.of_tim h ?_ hp
  intro _
  have := ofTotal_ok s.tim n
  cases c <;> exact this

theorem State.emit_kept {ps : List Part} {s0 s : State} {o : Out} (h : Kept ps s0 s) (hp : [.out] ⊆ ps) :
    Kept ps s0 (s.emit o) :=
  h.trans ⟨fun p hq => by cases p <;> first | rfl | exact absurd (hp (by decide)) hq, rfl, rfl, id, id, id, id,
    List.suffix_cons _ _, Nat.le_refl _⟩

theorem State.used_kept {ps : List Part} {s0 s : State} (h : Kept ps s0 s) (hp : [.freeCtr] ⊆ ps) : Kept ps s0 s.used :=
  h.trans ⟨fun p hq => by cases p <;> first | rfl | exact absurd (hp (by decide)) hq, rfl, rfl, id, id, id, id,
    List.suffix_refl _, Nat.le_succ _⟩

end Sys2Proof.Laws
end

