-- ==== Sys2Proof/Laws/KeptOps.lean ====
section
/-!
SUPPORT. Laws/KeptOps.lean: what the operations of registers, locks, buffers, tables and monitoring keep (Laws/Kept.lean),
one lemma for each.
-/
namespace Sys2Proof.Laws

open Sys2Proof.Machine

theorem State.wr_kept {pts : List Part} {s0 : State} {s : State} {r : Reg} {ix : Ix} {v : W64} (hk : Kept pts s0 s)
    (hp : [.regs] ⊆ pts) : Kept pts s0 (s.wr r ix v) := by
  exact hk.of_regs (f := putReg r ix v) (fun l hl => rises_putReg _ _ _ _ hl) (hp (by decide))

theorem State.set_kept {pts : List Part} {s0 : State} {s : State} {f : Field} {ix : Ix} {x : Nat} (hk : Kept pts s0 s)
    (hp : [.regs] ⊆ pts) : Kept pts s0 (s.set f ix x) := by
  unfold State.set
  repeat' first
    | with_reducible assumption | intro _ | with_reducible refine State.wr_kept ?_ (inAll (by decide) hp)

theorem State.count_kept {pts : List Part} {s0 : State} {s : State} {f : Field} {ix : Ix} {n : Nat}
    (hk : Kept pts s0 s) (hp : [.regs] ⊆ pts) : Kept pts s0 (s.count f ix n) := by
  unfold State.count
  repeat' first
    | with_reducible assumption | intro _ | with_reducible refine State.set_kept ?_ (inAll (by decide) hp)

theorem State.setFn_kept {pts : List Part} {s0 : State} {s : State} {f : Fn} {x : FnSt} (hk : Kept pts s0 s)
    (hp : [.pf0, .pf1] ⊆ pts) : Kept pts s0 (s.setFn f x) := by
  unfold State.setFn
  repeat' first
    | with_reducible assumption | intro _ | with_reducible apply Kept.ite
    | (with_reducible refine Kept.fst (by assumption) ?_)
    | (simp -zeta only [keptMk]; (with_reducible refine KeptMk.upd ?_ rfl ?_); rotate_left;
        · intro p; cases p <;> first | exact .inl (hp (by decide)) | (right; dsimp only [Part.same]))
    | split

theorem State.aer_kept {pts : List Part} {s0 : State} {s : State} {f : Fn} {k : AerKind} (hk : Kept pts s0 s)
    (hp : [.pf0, .pf1, .out] ⊆ pts) : Kept pts s0 (s.aer f k) := by
  unfold State.aer
  repeat' first
    | with_reducible assumption | intro _ | (guard_target =~ Kept _ _ _; extract_lets +lift)
    | with_reducible refine State.setFn_kept ?_ (inAll (by decide) hp)
    | with_reducible refine State.emit_kept ?_ (inAll (by decide) hp) | with_reducible apply Kept.ite

theorem State.dmaWrite_kept {pts : List Part} {s0 : State} {s : State} {f : Fn} {addr : Nat} {data : List Byte}
    (hk : Kept pts s0 s) (hp : [.out] ⊆ pts) : Kept pts s0 (s.dmaWrite f addr data) := by
  unfold State.dmaWrite
  repeat' first
    | with_reducible assumption | intro _ | (guard_target =~ Kept _ _ _; extract_lets +lift)
    | with_reducible refine State.emit_kept ?_ (inAll (by decide) hp) | with_reducible apply Kept.ite
    | (with_reducible apply Kept.foldl; rotate_left; intro _ _ _)

theorem State.sendVector_kept {pts : List Part} {s0 : State} {s : State} {f : Fn} {v : Nat} (hk : Kept pts s0 s)
    (hp : [.pf0, .pf1, .out] ⊆ pts) : Kept pts s0 (s.sendVector f v) := by
  unfold State.sendVector
  repeat' first
    | with_reducible assumption | intro _ | (guard_target =~ Kept _ _ _; extract_lets +lift)
    | with_reducible refine State.setFn_kept ?_ (inAll (by decide) hp)
    | with_reducible refine State.emit_kept ?_ (inAll (by decide) hp) | with_reducible apply Kept.ite

theorem State.settleIntx_kept {pts : List Part} {s0 : State} {s : State} {f : Fn} (hk : Kept pts s0 s)
    (hp : [.pf0, .pf1, .out] ⊆ pts) : Kept pts s0 (s.settleIntx f) := by
  unfold State.settleIntx
  repeat' first
    | with_reducible assumption | intro _ | (guard_target =~ Kept _ _ _; extract_lets +lift)
    | with_reducible refine State.emit_kept ?_ (inAll (by decide) hp)
    | with_reducible refine State.setFn_kept ?_ (inAll (by decide) hp) | with_reducible apply Kept.ite

theorem State.settleIrq_kept {pts : List Part} {s0 : State} {s : State} {b : Block} {was : Bool} (hk : Kept pts s0 s)
    (hp : [.pf0, .pf1, .out] ⊆ pts) : Kept pts s0 (s.settleIrq b was) := by
  unfold State.settleIrq
  repeat' first
    | with_reducible assumption | intro _ | (guard_target =~ Kept _ _ _; extract_lets +lift)
    | with_reducible refine State.sendVector_kept ?_ (inAll (by decide) hp)
    | with_reducible refine State.settleIntx_kept ?_ (inAll (by decide) hp)
    | with_reducible apply Kept.ite

theorem State.settleAlert_kept {pts : List Part} {s0 : State} {s : State} {was : Bool} (hk : Kept pts s0 s)
    (hp : [.out] ⊆ pts) : Kept pts s0 (s.settleAlert was) := by
  unfold State.settleAlert
  repeat' first
    | with_reducible assumption | intro _ | (guard_target =~ Kept _ _ _; extract_lets +lift)
    | with_reducible refine State.emit_kept ?_ (inAll (by decide) hp) | with_reducible apply Kept.ite

theorem State.queueNotice_kept {pts : List Part} {s0 : State} {s : State} {tag : Nat} (hk : Kept pts s0 s)
    (hp : [.mil] ⊆ pts) : Kept pts s0 (s.queueNotice tag) := by
  unfold State.queueNotice
  repeat' first
    | with_reducible assumption | intro _ | (guard_target =~ Kept _ _ _; extract_lets +lift)
    | with_reducible apply Kept.ite | (with_reducible refine Kept.fst (by assumption) ?_)
    | (simp -zeta only [keptMk]; (with_reducible refine KeptMk.upd ?_ rfl ?_); rotate_left;
        · intro p; cases p <;> first | exact .inl (hp (by decide)) | (right; dsimp only [Part.same]))

theorem State.alertClass_kept {pts : List Part} {s0 : State} {s : State} {c : Nat} (hk : Kept pts s0 s)
    (hp : [.mil, .out] ⊆ pts) : Kept pts s0 (s.alertClass c) := by
  unfold State.alertClass
  repeat' first
    | with_reducible assumption | intro _ | (guard_target =~ Kept _ _ _; extract_lets +lift)
    | with_reducible refine State.settleAlert_kept ?_ (inAll (by decide) hp)
    | with_reducible refine State.queueNotice_kept ?_ (inAll (by decide) hp)
    | with_reducible apply Kept.ite | (with_reducible refine Kept.fst (by assumption) ?_)
    | (simp -zeta only [keptMk]; (with_reducible refine KeptMk.upd ?_ rfl ?_); rotate_left;
        · intro p; cases p <;> first | exact .inl (hp (by decide)) | (right; dsimp only [Part.same]))
    | split | dsimp +zetaDelta only

theorem State.stageLog_kept {pts : List Part} {s0 : State} {s : State} {kind : Nat} {source : Nat} {arg0 : Nat}
    {arg1 : Nat} (hk : Kept pts s0 s) (hp : [.mil, .out] ⊆ pts) : Kept pts s0 (s.stageLog kind source arg0 arg1) := by
  unfold State.stageLog
  repeat' first
    | with_reducible assumption | intro _ | (guard_target =~ Kept _ _ _; extract_lets +lift)
    | with_reducible refine State.queueNotice_kept ?_ (inAll (by decide) hp)
    | with_reducible refine State.alertClass_kept ?_ (inAll (by decide) hp)
    | with_reducible apply Kept.ite | (with_reducible refine Kept.fst (by assumption) ?_)
    | (simp -zeta only [keptMk]; (with_reducible refine KeptMk.upd ?_ rfl ?_); rotate_left;
        · intro p; cases p <;> first | exact .inl (hp (by decide)) | (right; dsimp only [Part.same]))

theorem State.setRing_kept {pts : List Part} {s0 : State} {s : State} {r : Nat} {x : Ring} (hk : Kept pts s0 s)
    (hp : [.rng] ⊆ pts) : Kept pts s0 (s.setRing r x) := by
  unfold State.setRing
  repeat' first
    | with_reducible assumption | intro _ | (guard_target =~ Kept _ _ _; extract_lets +lift)
    | with_reducible apply Kept.ite | (with_reducible refine Kept.fst (by assumption) ?_)
    | (simp -zeta only [keptMk]; (with_reducible refine KeptMk.upd ?_ rfl ?_); rotate_left;
        · intro p; cases p <;> first | exact .inl (hp (by decide)) | (right; dsimp only [Part.same]))

theorem State.ringDrop_kept {pts : List Part} {s0 : State} {s : State} {r : Nat} (hk : Kept pts s0 s)
    (hp : [.rng] ⊆ pts) : Kept pts s0 (s.ringDrop r) := by
  unfold State.ringDrop
  repeat' first
    | with_reducible assumption | intro _ | (guard_target =~ Kept _ _ _; extract_lets +lift)
    | with_reducible refine State.setRing_kept ?_ (inAll (by decide) hp)

theorem State.ringRequest_kept {pts : List Part} {s0 : State} {s : State} {r : Nat} (hk : Kept pts s0 s)
    (hp : [.pf0, .pf1, .rng, .out] ⊆ pts) : Kept pts s0 (s.ringRequest r) := by
  unfold State.ringRequest
  repeat' first
    | with_reducible assumption | intro _ | (guard_target =~ Kept _ _ _; extract_lets +lift)
    | with_reducible refine State.settleIntx_kept ?_ (inAll (by decide) hp)
    | with_reducible refine State.sendVector_kept ?_ (inAll (by decide) hp)
    | with_reducible refine State.setRing_kept ?_ (inAll (by decide) hp)

theorem State.ringGather_kept {pts : List Part} {s0 : State} {s : State} {r : Nat} (hk : Kept pts s0 s)
    (hp : [.pf0, .pf1, .rng, .out] ⊆ pts) : Kept pts s0 (s.ringGather r) := by
  unfold State.ringGather
  repeat' first
    | with_reducible assumption | intro _ | (guard_target =~ Kept _ _ _; extract_lets +lift)
    | with_reducible refine State.ringRequest_kept ?_ (inAll (by decide) hp)
    | with_reducible apply Kept.ite

theorem State.ringCompletion_kept {pts : List Part} {s0 : State} {s : State} {r : Nat} (hk : Kept pts s0 s)
    (hp : [.pf0, .pf1, .rng, .out] ⊆ pts) : Kept pts s0 (s.ringCompletion r) := by
  unfold State.ringCompletion
  repeat' first
    | with_reducible assumption | intro _ | (guard_target =~ Kept _ _ _; extract_lets +lift)
    | with_reducible refine State.ringGather_kept ?_ (inAll (by decide) hp)
    | with_reducible refine State.setRing_kept ?_ (inAll (by decide) hp)

theorem State.writeRec_kept {pts : List Part} {s0 : State} {s : State} {r : Nat} {bytes : List Byte}
    (hk : Kept pts s0 s) (hp : [.pf0, .pf1, .rng, .out] ⊆ pts) : Kept pts s0 (s.writeRec r bytes) := by
  unfold State.writeRec
  repeat' first
    | with_reducible assumption | intro _ | (guard_target =~ Kept _ _ _; extract_lets +lift)
    | with_reducible refine State.dmaWrite_kept ?_ (inAll (by decide) hp)
    | with_reducible refine State.ringCompletion_kept ?_ (inAll (by decide) hp)
    | with_reducible refine State.setRing_kept ?_ (inAll (by decide) hp)

theorem State.putRec_kept {pts : List Part} {s0 : State} {s : State} {r : Nat} {bytes : List Byte}
    (hk : Kept pts s0 s) (hp : [.pf0, .pf1, .rng, .out] ⊆ pts) : Kept pts s0 (s.putRec r bytes).1 := by
  unfold State.putRec
  repeat' first
    | with_reducible assumption | intro _ | (guard_target =~ Kept _ _ _; extract_lets +lift)
    | with_reducible refine State.ringDrop_kept ?_ (inAll (by decide) hp)
    | with_reducible refine State.writeRec_kept ?_ (inAll (by decide) hp) | with_reducible apply Kept.ite
    | (with_reducible refine Kept.fst (by assumption) ?_)
    | (simp -zeta only [keptMk]; (with_reducible refine KeptMk.upd ?_ rfl ?_); rotate_left;
        · intro p; cases p <;> first | exact .inl (hp (by decide)) | (right; dsimp only [Part.same]))
    | split

theorem State.exportRec_kept {pts : List Part} {s0 : State} {s : State} {n : Nat} {kind : Nat} {body : List Byte}
    (hk : Kept pts s0 s) (hp : [.pf0, .pf1, .rng, .out] ⊆ pts) : Kept pts s0 (s.exportRec n kind body) := by
  unfold State.exportRec
  repeat' first
    | with_reducible assumption | intro _ | (guard_target =~ Kept _ _ _; extract_lets +lift)
    | with_reducible refine State.putRec_kept ?_ (inAll (by decide) hp) | with_reducible apply Kept.ite

theorem State.raiseN_kept {pts : List Part} {s0 : State} {n : Nat} {s : State} {f : Field} {inst : Nat} {bit : Nat}
    {arg0 : Nat} {arg1 : Nat} (hk : Kept pts s0 s) (hp : [.regs, .pf0, .pf1, .rng, .mil, .out] ⊆ pts)
    : Kept pts s0 (State.raiseN n s f inst bit arg0 arg1) := by
  induction n generalizing s f inst bit arg0 arg1 with
  | zero => exact hk
  | succ n ih =>
    unfold State.raiseN
    repeat' first
      | with_reducible assumption | (guard_target =~ Kept _ _ _; extract_lets +lift)
      | with_reducible refine State.settleIrq_kept ?_ (inAll (by decide) hp)
      | with_reducible refine State.stageLog_kept ?_ (inAll (by decide) hp)
      | with_reducible refine State.setRing_kept ?_ (inAll (by decide) hp)
      | with_reducible refine State.wr_kept ?_ (inAll (by decide) hp) | with_reducible apply ih
      | (with_reducible refine Kept.fst (by assumption) ?_)
      | with_reducible refine State.putRec_kept ?_ (inAll (by decide) hp) | split | dsimp +zetaDelta only

theorem State.raiseAt_kept {pts : List Part} {s0 : State} {s : State} {f : Field} {inst : Nat} {bit : Nat}
    {arg0 : Nat} {arg1 : Nat} (hk : Kept pts s0 s) (hp : [.regs, .pf0, .pf1, .rng, .mil, .out] ⊆ pts)
    : Kept pts s0 (s.raiseAt f inst bit arg0 arg1) := by
  unfold State.raiseAt
  repeat' first
    | with_reducible assumption | intro _
    | with_reducible refine State.raiseN_kept ?_ (inAll (by decide) hp)

theorem State.raise_kept {pts : List Part} {s0 : State} {s : State} {f : Field} (hk : Kept pts s0 s)
    (hp : [.regs, .pf0, .pf1, .rng, .mil, .out] ⊆ pts) : Kept pts s0 (s.raise f) := by
  unfold State.raise
  repeat' first
    | with_reducible assumption | intro _
    | with_reducible refine State.raiseAt_kept ?_ (inAll (by decide) hp)

theorem State.violation_kept {pts : List Part} {s0 : State} {s : State} {b : Block} {inst : Nat} (hk : Kept pts s0 s)
    (hp : [.regs, .pf0, .pf1, .rng, .mil, .out] ⊆ pts) : Kept pts s0 (s.violation b inst) := by
  unfold State.violation
  repeat' first
    | with_reducible assumption | intro _
    | with_reducible refine State.raiseAt_kept ?_ (inAll (by decide) hp) | with_reducible apply Kept.ite
    | (with_reducible refine Kept.fst (by assumption) ?_) | split

theorem State.healthTo_kept {pts : List Part} {s0 : State} {s : State} {f : Field} {bit : Nat} {on : Bool}
    (hk : Kept pts s0 s) (hp : [.regs, .pf0, .pf1, .rng, .mil, .out] ⊆ pts) : Kept pts s0 (s.healthTo f bit on) := by
  unfold State.healthTo
  repeat' first
    | with_reducible assumption | intro _ | (guard_target =~ Kept _ _ _; extract_lets +lift)
    | with_reducible refine State.alertClass_kept ?_ (inAll (by decide) hp)
    | with_reducible refine State.raise_kept ?_ (inAll (by decide) hp)
    | with_reducible refine State.wr_kept ?_ (inAll (by decide) hp) | with_reducible apply Kept.ite

theorem State.offline_kept {pts : List Part} {s0 : State} {s : State} {req : Req} {off : Nat} {dom : Nat}
    {write : Bool} {couch : Bool} (hk : Kept pts s0 s) (hp : [.regs, .pf0, .pf1, .rng, .mil, .out] ⊆ pts)
    : Kept pts s0 (s.offline req off dom write couch) := by
  unfold State.offline
  repeat' first
    | with_reducible assumption | intro _ | (guard_target =~ Kept _ _ _; extract_lets +lift)
    | with_reducible refine State.set_kept ?_ (inAll (by decide) hp)
    | with_reducible refine State.raise_kept ?_ (inAll (by decide) hp)
    | with_reducible refine State.count_kept ?_ (inAll (by decide) hp) | with_reducible apply Kept.ite

theorem State.countDrop_kept {pts : List Part} {s0 : State} {s : State} {cause : Nat} {bytes : Nat} {port : Nat}
    {queue : Nat} (hk : Kept pts s0 s) (hp : [.regs] ⊆ pts) : Kept pts s0 (s.countDrop cause bytes port queue) := by
  unfold State.countDrop
  repeat' first
    | with_reducible assumption | intro _ | (guard_target =~ Kept _ _ _; extract_lets +lift)
    | with_reducible refine State.count_kept ?_ (inAll (by decide) hp)
    | with_reducible refine State.set_kept ?_ (inAll (by decide) hp) | with_reducible apply Kept.ite

theorem State.arrive_kept {pts : List Part} {s0 : State} {s : State} {slice : Nat} {a : Arrival} (hk : Kept pts s0 s)
    (hp : [.arrivals] ⊆ pts) : Kept pts s0 (s.arrive slice a) := by
  unfold State.arrive
  repeat' first
    | with_reducible assumption | intro _ | with_reducible apply Kept.ite
    | (with_reducible refine Kept.fst (by assumption) ?_)
    | (simp -zeta only [keptMk]; (with_reducible refine KeptMk.upd ?_ rfl ?_); rotate_left;
        · intro p; cases p <;> first | exact .inl (hp (by decide)) | (right; dsimp only [Part.same]))

theorem State.readLock_kept {pts : List Part} {s0 : State} {s : State} {m : Req} {n : Nat} (hk : Kept pts s0 s)
    (hp : [.sem] ⊆ pts) : Kept pts s0 (s.readLock m n).1 := by
  unfold State.readLock
  repeat' first
    | with_reducible assumption | intro _ | (guard_target =~ Kept _ _ _; extract_lets +lift)
    | with_reducible apply Kept.ite | (with_reducible refine Kept.fst (by assumption) ?_)
    | (simp -zeta only [keptMk]; (with_reducible refine KeptMk.upd ?_ rfl ?_); rotate_left;
        · intro p; cases p <;> first | exact .inl (hp (by decide)) | (right; dsimp only [Part.same]))
    | split

theorem State.serveLock_kept {pts : List Part} {s0 : State} {s : State} {n : Nat} {part : RdPart} {m : Req}
    (hk : Kept pts s0 s) (hp : [.sem, .out] ⊆ pts) : Kept pts s0 (s.serveLock n part m) := by
  unfold State.serveLock
  repeat' first
    | with_reducible assumption | intro _ | (guard_target =~ Kept _ _ _; extract_lets +lift)
    | with_reducible refine State.emit_kept ?_ (inAll (by decide) hp)
    | with_reducible refine State.readLock_kept ?_ (inAll (by decide) hp) | with_reducible apply Kept.ite
    | (with_reducible refine Kept.fst (by assumption) ?_) | split

theorem semLockRead_kept {pts : List Part} {s0 : State} {n : Fin 64} {readers : List Req} {part : RdPart} {s : State}
    (hk : Kept pts s0 s) (hp : [.sem, .out] ⊆ pts) : Kept pts s0 (semLockRead n readers part s) := by
  unfold semLockRead
  repeat' first
    | with_reducible assumption | intro _ | (guard_target =~ Kept _ _ _; extract_lets +lift)
    | with_reducible refine State.serveLock_kept ?_ (inAll (by decide) hp) | with_reducible apply Kept.ite
    | (with_reducible apply Kept.foldl; rotate_left; intro _ _ _)

theorem State.releaseLock_kept {pts : List Part} {s0 : State} {s : State} {m : Req} {n : Nat} (hk : Kept pts s0 s)
    (hp : [.regs, .sem] ⊆ pts) : Kept pts s0 (s.releaseLock m n) := by
  unfold State.releaseLock
  repeat' first
    | with_reducible assumption | intro _ | (guard_target =~ Kept _ _ _; extract_lets +lift)
    | with_reducible refine State.count_kept ?_ (inAll (by decide) hp) | with_reducible apply Kept.ite
    | (with_reducible refine Kept.fst (by assumption) ?_)
    | (simp -zeta only [keptMk]; (with_reducible refine KeptMk.upd ?_ rfl ?_); rotate_left;
        · intro p; cases p <;> first | exact .inl (hp (by decide)) | (right; dsimp only [Part.same]))

theorem rel_kept {pts : List Part} {s0 : State} {m : Req} {n : Fin 64} {s : State} (hk : Kept pts s0 s)
    (hp : [.regs, .sem] ⊆ pts) : Kept pts s0 (rel m n s) := by
  unfold rel
  repeat' first
    | with_reducible assumption | intro _ | (guard_target =~ Kept _ _ _; extract_lets +lift)
    | with_reducible refine State.releaseLock_kept ?_ (inAll (by decide) hp)
    | with_reducible apply Kept.ite

theorem force_kept {pts : List Part} {s0 : State} {m : Req} {n : Fin 64} {s : State} (hk : Kept pts s0 s)
    (hp : [.regs, .sem] ⊆ pts) : Kept pts s0 (force m n s) := by
  unfold force
  repeat' first
    | with_reducible assumption | intro _ | (guard_target =~ Kept _ _ _; extract_lets +lift)
    | with_reducible refine State.count_kept ?_ (inAll (by decide) hp) | with_reducible apply Kept.ite
    | (with_reducible refine Kept.fst (by assumption) ?_)
    | (simp -zeta only [keptMk]; (with_reducible refine KeptMk.upd ?_ rfl ?_); rotate_left;
        · intro p; cases p <;> first | exact .inl (hp (by decide)) | (right; dsimp only [Part.same]))

theorem State.autoRelease_kept {pts : List Part} {s0 : State} {s : State} {m : Req} (hk : Kept pts s0 s)
    (hp : [.regs, .pf0, .pf1, .rng, .sem, .mil, .out] ⊆ pts) : Kept pts s0 (s.autoRelease m) := by
  unfold State.autoRelease
  repeat' first
    | with_reducible assumption | intro _ | (guard_target =~ Kept _ _ _; extract_lets +lift)
    | with_reducible refine State.raise_kept ?_ (inAll (by decide) hp) | with_reducible apply Kept.ite
    | (with_reducible refine Kept.fst (by assumption) ?_)
    | (simp -zeta only [keptMk]; (with_reducible refine KeptMk.upd ?_ rfl ?_); rotate_left;
        · intro p; cases p <;> first | exact .inl (hp (by decide)) | (right; dsimp only [Part.same]))

theorem State.setBuf_kept {pts : List Part} {s0 : State} {s : State} {h : Nat} {b : Buf} (hk : Kept pts s0 s)
    (hp : [.bpm] ⊆ pts) : Kept pts s0 (s.setBuf h b) := by
  unfold State.setBuf
  repeat' first
    | with_reducible assumption | intro _ | (guard_target =~ Kept _ _ _; extract_lets +lift)
    | with_reducible apply Kept.ite | (with_reducible refine Kept.fst (by assumption) ?_)
    | (simp -zeta only [keptMk]; (with_reducible refine KeptMk.upd ?_ rfl ?_); rotate_left;
        · intro p; cases p <;> first | exact .inl (hp (by decide)) | (right; dsimp only [Part.same]))

theorem State.freeBuf_kept {pts : List Part} {s0 : State} {s : State} {h : Nat} (hk : Kept pts s0 s)
    (hp : [.bpm] ⊆ pts) : Kept pts s0 (s.freeBuf h) := by
  unfold State.freeBuf
  repeat' first
    | with_reducible assumption | intro _ | (guard_target =~ Kept _ _ _; extract_lets +lift)
    | with_reducible apply Kept.ite | (with_reducible refine Kept.fst (by assumption) ?_)
    | (simp -zeta only [keptMk]; (with_reducible refine KeptMk.upd ?_ rfl ?_); rotate_left;
        · intro p; cases p <;> first | exact .inl (hp (by decide)) | (right; dsimp only [Part.same]))

theorem State.poolWatch_kept {pts : List Part} {s0 : State} {s : State} {was : Nat} (hk : Kept pts s0 s)
    (hp : [.regs, .pf0, .pf1, .rng, .mil, .out] ⊆ pts) : Kept pts s0 (s.poolWatch was) := by
  unfold State.poolWatch
  repeat' first
    | with_reducible assumption | intro _ | (guard_target =~ Kept _ _ _; extract_lets +lift)
    | with_reducible refine State.raise_kept ?_ (inAll (by decide) hp) | with_reducible apply Kept.ite

theorem State.allocCells_kept {pts : List Part} {s0 : State} {s : State} {b : Buf} {a3 : Nat} (hk : Kept pts s0 s)
    (hp : [.bpm] ⊆ pts) : Kept pts s0 (s.allocCells b a3).1 := by
  induction a3 generalizing s <;> (
    unfold State.allocCells
    repeat' first
      | with_reducible assumption | intro _ | with_reducible apply_assumption
      | (guard_target =~ Kept _ _ _; extract_lets +lift)
      | with_reducible refine State.setBuf_kept ?_ (inAll (by decide) hp) | with_reducible apply Kept.ite
      | (with_reducible apply Kept.foldl; rotate_left; intro _ _ _)
      | (with_reducible apply Kept.foldl_fst; rotate_left; intro _ _ _)
      | (with_reducible refine Kept.fst (by assumption) ?_)
      | (simp -zeta only [keptMk]; (with_reducible refine KeptMk.upd ?_ rfl ?_); rotate_left;
          · intro p; cases p <;> first | exact .inl (hp (by decide)) | (right; dsimp only [Part.same]))
      | split | dsimp +zetaDelta only)

theorem State.refillCache_kept {pts : List Part} {s0 : State} {s : State} {r : Nat} (hk : Kept pts s0 s)
    (hp : [.regs, .pf0, .pf1, .rng, .bpm, .mil, .out] ⊆ pts) : Kept pts s0 (s.refillCache r) := by
  unfold State.refillCache
  repeat' first
    | with_reducible assumption | intro _ | (guard_target =~ Kept _ _ _; extract_lets +lift)
    | with_reducible refine State.count_kept ?_ (inAll (by decide) hp)
    | with_reducible refine State.poolWatch_kept ?_ (inAll (by decide) hp)
    | with_reducible refine State.allocCells_kept ?_ (inAll (by decide) hp)
    | with_reducible apply Kept.ite | (with_reducible refine Kept.fst (by assumption) ?_)
    | (simp -zeta only [keptMk]; (with_reducible refine KeptMk.upd ?_ rfl ?_); rotate_left;
        · intro p; cases p <;> first | exact .inl (hp (by decide)) | (right; dsimp only [Part.same]))
    | split | dsimp +zetaDelta only

theorem State.cover_kept {pts : List Part} {s0 : State} {s : State} {r : Nat} {n : Nat} (hk : Kept pts s0 s)
    (hp : [.regs, .pf0, .pf1, .rng, .bpm, .mil, .out] ⊆ pts) : Kept pts s0 (s.cover r n).1 := by
  unfold State.cover
  repeat' first
    | with_reducible assumption | intro _ | (guard_target =~ Kept _ _ _; extract_lets +lift)
    | with_reducible refine State.refillCache_kept ?_ (inAll (by decide) hp)
    | with_reducible apply Kept.ite | (with_reducible refine Kept.fst (by assumption) ?_) | split

theorem State.useCells_kept {pts : List Part} {s0 : State} {s : State} {r : Nat} {n : Nat} {loss : Option (Nat × Nat)}
    (hk : Kept pts s0 s) (hp : [.bpm] ⊆ pts) : Kept pts s0 (s.useCells r n loss).1 := by
  unfold State.useCells
  repeat' first
    | with_reducible assumption | intro _ | (guard_target =~ Kept _ _ _; extract_lets +lift)
    | with_reducible refine State.setBuf_kept ?_ (inAll (by decide) hp) | with_reducible apply Kept.ite
    | (with_reducible apply Kept.foldl; rotate_left; intro _ _ _)
    | (with_reducible refine Kept.fst (by assumption) ?_)
    | (simp -zeta only [keptMk]; (with_reducible refine KeptMk.upd ?_ rfl ?_); rotate_left;
        · intro p; cases p <;> first | exact .inl (hp (by decide)) | (right; dsimp only [Part.same]))
    | split | dsimp +zetaDelta only

theorem State.useHeadroom_kept {pts : List Part} {s0 : State} {s : State} {r : Nat} {p : Nat} {k : Nat} {n : Nat}
    (hk : Kept pts s0 s) (hp : [.bpm] ⊆ pts) : Kept pts s0 (s.useHeadroom r p k n).1 := by
  unfold State.useHeadroom
  repeat' first
    | with_reducible assumption | intro _ | (guard_target =~ Kept _ _ _; extract_lets +lift)
    | with_reducible refine State.allocCells_kept ?_ (inAll (by decide) hp)
    | with_reducible apply Kept.ite | (with_reducible refine Kept.fst (by assumption) ?_)
    | (simp -zeta only [keptMk]; (with_reducible refine KeptMk.upd ?_ rfl ?_); rotate_left;
        · intro p; cases p <;> first | exact .inl (hp (by decide)) | (right; dsimp only [Part.same]))
    | split | dsimp +zetaDelta only

theorem State.bufError_kept {pts : List Part} {s0 : State} {s : State} {foreign : Bool} {r : Nat} {op : Nat} {h : Nat}
    (hk : Kept pts s0 s) (hp : [.regs, .pf0, .pf1, .rng, .mil, .out] ⊆ pts)
    : Kept pts s0 (s.bufError foreign r op h) := by
  unfold State.bufError
  repeat' first
    | with_reducible assumption | intro _ | (guard_target =~ Kept _ _ _; extract_lets +lift)
    | with_reducible refine State.raise_kept ?_ (inAll (by decide) hp)
    | with_reducible refine State.count_kept ?_ (inAll (by decide) hp)
    | with_reducible refine State.set_kept ?_ (inAll (by decide) hp) | with_reducible apply Kept.ite

theorem State.decCell_kept {pts : List Part} {s0 : State} {s : State} {r : Nat} {h : Nat} (hk : Kept pts s0 s)
    (hp : [.regs, .pf0, .pf1, .rng, .bpm, .mil, .out] ⊆ pts) : Kept pts s0 (s.decCell r h) := by
  unfold State.decCell
  repeat' first
    | with_reducible assumption | intro _ | (guard_target =~ Kept _ _ _; extract_lets +lift)
    | with_reducible refine State.bufError_kept ?_ (inAll (by decide) hp)
    | with_reducible refine State.freeBuf_kept ?_ (inAll (by decide) hp)
    | with_reducible refine State.setBuf_kept ?_ (inAll (by decide) hp) | with_reducible apply Kept.ite
    | (with_reducible refine Kept.fst (by assumption) ?_) | split

theorem State.refCells_kept {pts : List Part} {s0 : State} {s : State} {holder : Nat} {n : Nat} {hs : List Nat}
    (hk : Kept pts s0 s) (hp : [.bpm] ⊆ pts) : Kept pts s0 (s.refCells holder n hs) := by
  unfold State.refCells
  repeat' first
    | with_reducible assumption | intro _ | (guard_target =~ Kept _ _ _; extract_lets +lift)
    | with_reducible refine State.setBuf_kept ?_ (inAll (by decide) hp) | with_reducible apply Kept.ite
    | (with_reducible apply Kept.foldl; rotate_left; intro _ _ _)
    | (with_reducible refine Kept.fst (by assumption) ?_) | split

theorem State.noteDec_kept {pts : List Part} {s0 : State} {s : State} {h : Nat} (hk : Kept pts s0 s)
    (hp : [.bpm] ⊆ pts) : Kept pts s0 (s.noteDec h) := by
  unfold State.noteDec
  repeat' first
    | with_reducible assumption | intro _ | (guard_target =~ Kept _ _ _; extract_lets +lift)
    | with_reducible apply Kept.ite | (with_reducible refine Kept.fst (by assumption) ?_)
    | (simp -zeta only [keptMk]; (with_reducible refine KeptMk.upd ?_ rfl ?_); rotate_left;
        · intro p; cases p <;> first | exact .inl (hp (by decide)) | (right; dsimp only [Part.same]))
    | split

theorem State.refBefore_kept {pts : List Part} {s0 : State} {s : State} {holder : Nat} {n : Nat} {h : Nat} {k : Nat}
    {b : Buf} (hk : Kept pts s0 s) (hp : [.bpm] ⊆ pts) : Kept pts s0 (s.refBefore holder n h k b) := by
  unfold State.refBefore
  repeat' first
    | with_reducible assumption | intro _ | (guard_target =~ Kept _ _ _; extract_lets +lift)
    | with_reducible refine State.setBuf_kept ?_ (inAll (by decide) hp) | with_reducible apply Kept.ite
    | (with_reducible refine Kept.fst (by assumption) ?_)
    | (simp -zeta only [keptMk]; (with_reducible refine KeptMk.upd ?_ rfl ?_); rotate_left;
        · intro p; cases p <;> first | exact .inl (hp (by decide)) | (right; dsimp only [Part.same]))
    | split | dsimp +zetaDelta only

theorem alloc_kept {pts : List Part} {s0 : State} {r : Fin 32} {h : BitVec 32} {s : State} (hk : Kept pts s0 s)
    (hp : [.regs, .pf0, .pf1, .rng, .bpm, .mil, .out] ⊆ pts) : Kept pts s0 (alloc r h s) := by
  unfold alloc
  repeat' first
    | with_reducible assumption | intro _ | (guard_target =~ Kept _ _ _; extract_lets +lift)
    | with_reducible refine State.setBuf_kept ?_ (inAll (by decide) hp)
    | with_reducible refine State.poolWatch_kept ?_ (inAll (by decide) hp) | with_reducible apply Kept.ite

theorem bufUse_kept {pts : List Part} {s0 : State} {r : Fin 32} {h : BitVec 32} {s : State} (hk : Kept pts s0 s)
    (hp : [.bpm] ⊆ pts) : Kept pts s0 (bufUse r h s) := by
  unfold bufUse
  repeat' first
    | with_reducible assumption | intro _ | (guard_target =~ Kept _ _ _; extract_lets +lift)
    | with_reducible refine State.setBuf_kept ?_ (inAll (by decide) hp) | with_reducible apply Kept.ite
    | (with_reducible refine Kept.fst (by assumption) ?_)
    | (simp -zeta only [keptMk]; (with_reducible refine KeptMk.upd ?_ rfl ?_); rotate_left;
        · intro p; cases p <;> first | exact .inl (hp (by decide)) | (right; dsimp only [Part.same]))
    | split | dsimp +zetaDelta only

theorem bufRef_kept {pts : List Part} {s0 : State} {r : Fin 32} {h : BitVec 32} {n : BitVec 8} {holder : Fin 32}
    {s : State} (hk : Kept pts s0 s) (hp : [.regs, .pf0, .pf1, .rng, .bpm, .mil, .out] ⊆ pts)
    : Kept pts s0 (bufRef r h n holder s) := by
  unfold bufRef
  repeat' first
    | with_reducible assumption | intro _ | (guard_target =~ Kept _ _ _; extract_lets +lift)
    | with_reducible refine State.bufError_kept ?_ (inAll (by decide) hp)
    | with_reducible refine State.refCells_kept ?_ (inAll (by decide) hp)
    | with_reducible refine State.refBefore_kept ?_ (inAll (by decide) hp) | with_reducible apply Kept.ite
    | (with_reducible apply Kept.foldl; rotate_left; intro _ _ _)
    | (with_reducible refine Kept.fst (by assumption) ?_) | split

theorem bufReturn_kept {pts : List Part} {s0 : State} {r : Fin 32} {h : BitVec 32} {s : State} (hk : Kept pts s0 s)
    (hp : [.regs, .pf0, .pf1, .rng, .bpm, .mil, .out] ⊆ pts) : Kept pts s0 (bufReturn r h s) := by
  unfold bufReturn
  repeat' first
    | with_reducible assumption | intro _ | (guard_target =~ Kept _ _ _; extract_lets +lift)
    | with_reducible refine State.bufError_kept ?_ (inAll (by decide) hp)
    | with_reducible refine State.freeBuf_kept ?_ (inAll (by decide) hp) | with_reducible apply Kept.ite
    | (with_reducible refine Kept.fst (by assumption) ?_) | split

theorem cacheIdleReturn_kept {pts : List Part} {s0 : State} {h : BitVec 32} {s : State} (hk : Kept pts s0 s)
    (hp : [.bpm] ⊆ pts) : Kept pts s0 (cacheIdleReturn h s) := by
  unfold cacheIdleReturn
  repeat' first
    | with_reducible assumption | intro _ | (guard_target =~ Kept _ _ _; extract_lets +lift)
    | with_reducible refine State.freeBuf_kept ?_ (inAll (by decide) hp) | with_reducible apply Kept.ite
    | (with_reducible refine Kept.fst (by assumption) ?_) | split

theorem refill_kept {pts : List Part} {s0 : State} {r : Fin 32} {s : State} (hk : Kept pts s0 s)
    (hp : [.regs, .pf0, .pf1, .rng, .bpm, .mil, .out] ⊆ pts) : Kept pts s0 (refill r s) := by
  unfold refill
  repeat' first
    | with_reducible assumption | intro _ | (guard_target =~ Kept _ _ _; extract_lets +lift)
    | with_reducible refine State.refillCache_kept ?_ (inAll (by decide) hp)
    | with_reducible apply Kept.ite | (with_reducible apply Kept.foldl; rotate_left; intro _ _ _)

theorem refillRetryExpiry_kept {pts : List Part} {s0 : State} {r : Fin 32} {s : State} (hk : Kept pts s0 s)
    (hp : [.bpm] ⊆ pts) : Kept pts s0 (refillRetryExpiry r s) := by
  unfold refillRetryExpiry
  repeat' first
    | with_reducible assumption | intro _ | (guard_target =~ Kept _ _ _; extract_lets +lift)
    | with_reducible apply Kept.ite | (with_reducible refine Kept.fst (by assumption) ?_)
    | (simp -zeta only [keptMk]; (with_reducible refine KeptMk.upd ?_ rfl ?_); rotate_left;
        · intro p; cases p <;> first | exact .inl (hp (by decide)) | (right; dsimp only [Part.same]))

theorem State.coverRetry_kept {pts : List Part} {s0 : State} {s : State} {r : Nat} {n : Nat} (hk : Kept pts s0 s)
    (hp : [.regs, .pf0, .pf1, .rng, .bpm, .mil, .out] ⊆ pts) : Kept pts s0 (s.coverRetry r n).1 := by
  unfold State.coverRetry
  repeat' first
    | with_reducible assumption | intro _ | (guard_target =~ Kept _ _ _; extract_lets +lift)
    | with_reducible refine State.cover_kept ?_ (inAll (by decide) hp) | with_reducible apply Kept.ite
    | (with_reducible refine Kept.fst (by assumption) ?_)
    | (simp -zeta only [keptMk]; (with_reducible refine KeptMk.upd ?_ rfl ?_); rotate_left;
        · intro p; cases p <;> first | exact .inl (hp (by decide)) | (right; dsimp only [Part.same]))
    | split | dsimp +zetaDelta only

theorem State.hostDma_kept {pts : List Part} {s0 : State} {s : State} {len : Nat} (hk : Kept pts s0 s)
    (hp : [.regs, .pf0, .pf1, .rng, .bpm, .mil, .out] ⊆ pts) : Kept pts s0 (s.hostDma len).1 := by
  unfold State.hostDma
  repeat' first
    | with_reducible assumption | intro _
    | with_reducible refine State.coverRetry_kept ?_ (inAll (by decide) hp)

theorem State.setQueue_kept {pts : List Part} {s0 : State} {s : State} {q : Nat} {x : Queue} (hk : Kept pts s0 s)
    (hp : [.qsc] ⊆ pts) : Kept pts s0 (s.setQueue q x) := by
  unfold State.setQueue
  repeat' first
    | with_reducible assumption | intro _ | (guard_target =~ Kept _ _ _; extract_lets +lift)
    | with_reducible apply Kept.ite | (with_reducible refine Kept.fst (by assumption) ?_)
    | (simp -zeta only [keptMk]; (with_reducible refine KeptMk.upd ?_ rfl ?_); rotate_left;
        · intro p; cases p <;> first | exact .inl (hp (by decide)) | (right; dsimp only [Part.same]))

theorem State.modQueue_kept {pts : List Part} {s0 : State} {s : State} {q : Nat} {f : Queue → Queue}
    (hk : Kept pts s0 s) (hp : [.qsc] ⊆ pts) : Kept pts s0 (s.modQueue q f) := by
  unfold State.modQueue
  repeat' first
    | with_reducible assumption | intro _
    | with_reducible refine State.setQueue_kept ?_ (inAll (by decide) hp)

theorem State.takeRw_kept {pts : List Part} {s0 : State} {s : State} {p : RwPend} (hk : Kept pts s0 s)
    (hp : [.regs, .pf0, .pf1, .out] ⊆ pts) : Kept pts s0 (s.takeRw p) := by
  unfold State.takeRw
  repeat' first
    | with_reducible assumption | intro _ | (guard_target =~ Kept _ _ _; extract_lets +lift)
    | with_reducible refine State.wr_kept ?_ (inAll (by decide) hp)
    | with_reducible refine State.settleIrq_kept ?_ (inAll (by decide) hp) | with_reducible apply Kept.ite
    | (with_reducible refine Kept.fst (by assumption) ?_) | split | dsimp +zetaDelta only

theorem State.flushRw_kept {pts : List Part} {s0 : State} {s : State} {b : Block} {inst : Nat} (hk : Kept pts s0 s)
    (hp : [.regs, .acc, .pf0, .pf1, .out] ⊆ pts) : Kept pts s0 (s.flushRw b inst) := by
  unfold State.flushRw
  repeat' first
    | with_reducible assumption | intro _ | (guard_target =~ Kept _ _ _; extract_lets +lift)
    | with_reducible refine State.takeRw_kept ?_ (inAll (by decide) hp) | with_reducible apply Kept.ite
    | (with_reducible apply Kept.foldl; rotate_left; intro _ _ _)
    | (with_reducible refine Kept.fst (by assumption) ?_)
    | (simp -zeta only [keptMk]; (with_reducible refine KeptMk.upd ?_ rfl ?_); rotate_left;
        · intro p; cases p <;> first | exact .inl (hp (by decide)) | (right; dsimp only [Part.same]))

theorem State.writeRwx_kept {pts : List Part} {s0 : State} {s : State} {r : Reg} {ix : Ix} {v : W64}
    (hk : Kept pts s0 s) (hp : [.regs, .pf0, .pf1, .rng, .mil, .out] ⊆ pts) : Kept pts s0 (s.writeRwx r ix v) := by
  unfold State.writeRwx
  repeat' first
    | with_reducible assumption | intro _ | (guard_target =~ Kept _ _ _; extract_lets +lift)
    | with_reducible refine State.wr_kept ?_ (inAll (by decide) hp)
    | with_reducible refine State.violation_kept ?_ (inAll (by decide) hp) | with_reducible apply Kept.ite

theorem State.setApply_kept {pts : List Part} {s0 : State} {s : State} {a : ApplySt} (hk : Kept pts s0 s)
    (hp : [.acc] ⊆ pts) : Kept pts s0 (s.setApply a) := by
  unfold State.setApply
  repeat' first
    | with_reducible assumption | intro _ | (guard_target =~ Kept _ _ _; extract_lets +lift)
    | with_reducible apply Kept.ite | (with_reducible refine Kept.fst (by assumption) ?_)
    | (simp -zeta only [keptMk]; (with_reducible refine KeptMk.upd ?_ rfl ?_); rotate_left;
        · intro p; cases p <;> first | exact .inl (hp (by decide)) | (right; dsimp only [Part.same]))

theorem State.writeRws_kept {pts : List Part} {s0 : State} {s : State} {req : Req} {r : Reg} {ix : Ix} {v : W64}
    (hk : Kept pts s0 s) (hp : [.regs, .shadow, .acc, .pf0, .pf1, .rng, .mil, .out] ⊆ pts)
    : Kept pts s0 (s.writeRws req r ix v) := by
  unfold State.writeRws
  extract_lets m sh a new s'
  split
  · exact hk
  · split
    · exact State.violation_kept hk (inAll (by decide) hp)
    · have h : Kept pts s0 s' := hk.trans ⟨fun p hq => by cases p <;> first | rfl | exact absurd (hp (by decide)) hq, rfl, rfl, id, fun hr => by
        simp only [s']; split
        · exact rises_del _ _ hr
        · exact rises_put _ _ _ hr, id, id, List.suffix_refl _, Nat.le_refl _⟩
      split
      · exact h
      · exact State.setApply_kept h (inAll (by decide) hp)

theorem State.writeRw_kept {pts : List Part} {s0 : State} {s : State} {r : Reg} {ix : Ix} {v : W64} {skip : W64}
    (hk : Kept pts s0 s) (hp : [.regs] ⊆ pts) : Kept pts s0 (s.writeRw r ix v skip) := by
  unfold State.writeRw
  repeat' first
    | with_reducible assumption | intro _ | with_reducible refine State.wr_kept ?_ (inAll (by decide) hp)

theorem State.ownWrite_kept {pts : List Part} {s0 : State} {s : State} {req : Req} {r : Reg} {ix : Ix} {v : W64}
    {skip : W64} (hk : Kept pts s0 s) (hp : [.regs, .shadow, .acc, .pf0, .pf1, .rng, .mil, .out] ⊆ pts)
    : Kept pts s0 (s.ownWrite req r ix v skip) := by
  unfold State.ownWrite
  repeat' first
    | with_reducible assumption | intro _ | (guard_target =~ Kept _ _ _; extract_lets +lift)
    | with_reducible refine State.writeRw_kept ?_ (inAll (by decide) hp)
    | with_reducible refine State.writeRws_kept ?_ (inAll (by decide) hp)
    | with_reducible refine State.writeRwx_kept ?_ (inAll (by decide) hp)
    | with_reducible refine State.flushRw_kept ?_ (inAll (by decide) hp)

theorem State.goStale_kept {pts : List Part} {s0 : State} {s : State} {i : Nat} {h : W64} (hk : Kept pts s0 s)
    (hp : [.tab] ⊆ pts) : Kept pts s0 (s.goStale i h) := by
  unfold State.goStale
  repeat' first
    | with_reducible assumption | intro _ | (guard_target =~ Kept _ _ _; extract_lets +lift)
    | with_reducible apply Kept.ite | (with_reducible refine Kept.fst (by assumption) ?_)
    | (simp -zeta only [keptMk]; (with_reducible refine KeptMk.upd ?_ rfl ?_); rotate_left;
        · intro p; cases p <;> first | exact .inl (hp (by decide)) | (right; dsimp only [Part.same]))

theorem digestRecompute_kept {pts : List Part} {s0 : State} {i : Fin 6434} {s : State} (hk : Kept pts s0 s)
    (hp : [.tab] ⊆ pts) : Kept pts s0 (digestRecompute i s) := by
  unfold digestRecompute
  repeat' first
    | with_reducible assumption | intro _ | (guard_target =~ Kept _ _ _; extract_lets +lift)
    | with_reducible apply Kept.ite | (with_reducible refine Kept.fst (by assumption) ?_)
    | (simp -zeta only [keptMk]; (with_reducible refine KeptMk.upd ?_ rfl ?_); rotate_left;
        · intro p; cases p <;> first | exact .inl (hp (by decide)) | (right; dsimp only [Part.same]))

theorem State.lkpError_kept {pts : List Part} {s0 : State} {s : State} {table : Nat} {index : Nat} {scan : Bool}
    (hk : Kept pts s0 s) (hp : [.regs, .pf0, .pf1, .rng, .mil, .out] ⊆ pts)
    : Kept pts s0 (s.lkpError table index scan) := by
  unfold State.lkpError
  repeat' first
    | with_reducible assumption | intro _ | (guard_target =~ Kept _ _ _; extract_lets +lift)
    | with_reducible refine State.set_kept ?_ (inAll (by decide) hp)
    | with_reducible refine State.raise_kept ?_ (inAll (by decide) hp)
    | with_reducible refine State.count_kept ?_ (inAll (by decide) hp) | with_reducible apply Kept.ite

theorem State.prsError_kept {pts : List Part} {s0 : State} {s : State} {slice : Nat} {index : Nat} {entry : Bool}
    {scan : Bool} (hk : Kept pts s0 s) (hp : [.regs, .pf0, .pf1, .rng, .mil, .out] ⊆ pts)
    : Kept pts s0 (s.prsError slice index entry scan) := by
  unfold State.prsError
  repeat' first
    | with_reducible assumption | intro _ | (guard_target =~ Kept _ _ _; extract_lets +lift)
    | with_reducible refine State.set_kept ?_ (inAll (by decide) hp)
    | with_reducible refine State.raiseAt_kept ?_ (inAll (by decide) hp)
    | with_reducible refine State.count_kept ?_ (inAll (by decide) hp) | with_reducible apply Kept.ite

theorem State.egrError_kept {pts : List Part} {s0 : State} {s : State} {index : Nat} {scan : Bool}
    (hk : Kept pts s0 s) (hp : [.regs, .pf0, .pf1, .rng, .mil, .out] ⊆ pts)
    : Kept pts s0 (s.egrError index scan) := by
  unfold State.egrError
  repeat' first
    | with_reducible assumption | intro _ | (guard_target =~ Kept _ _ _; extract_lets +lift)
    | with_reducible refine State.set_kept ?_ (inAll (by decide) hp)
    | with_reducible refine State.raise_kept ?_ (inAll (by decide) hp)
    | with_reducible refine State.count_kept ?_ (inAll (by decide) hp) | with_reducible apply Kept.ite

theorem State.logBad_kept {pts : List Part} {s0 : State} {s : State} {t : Nat} {i : Nat} {scan : Bool}
    (hk : Kept pts s0 s) (hp : [.regs, .pf0, .pf1, .rng, .mil, .out] ⊆ pts) : Kept pts s0 (s.logBad t i scan) := by
  unfold State.logBad
  repeat' first
    | with_reducible assumption | intro _ | (guard_target =~ Kept _ _ _; extract_lets +lift)
    | with_reducible refine State.prsError_kept ?_ (inAll (by decide) hp)
    | with_reducible refine State.egrError_kept ?_ (inAll (by decide) hp)
    | with_reducible refine State.lkpError_kept ?_ (inAll (by decide) hp) | with_reducible apply Kept.ite

theorem State.badStaged_kept {pts : List Part} {s0 : State} {s : State} {k : Nat} (hk : Kept pts s0 s)
    (hp : [.cmt] ⊆ pts) : Kept pts s0 (s.badStaged k) := by
  unfold State.badStaged
  repeat' first
    | with_reducible assumption | intro _ | (guard_target =~ Kept _ _ _; extract_lets +lift)
    | with_reducible apply Kept.ite | (with_reducible refine Kept.fst (by assumption) ?_)
    | (simp -zeta only [keptMk]; (with_reducible refine KeptMk.upd ?_ rfl ?_); rotate_left;
        · intro p; cases p <;> first | exact .inl (hp (by decide)) | (right; dsimp only [Part.same]))

theorem State.badVer_kept {pts : List Part} {s0 : State} {s : State} {k : Nat} {n : Nat} (hk : Kept pts s0 s)
    (hp : [.tab, .cmt] ⊆ pts) : Kept pts s0 (s.badVer k n) := by
  unfold State.badVer
  repeat' first
    | with_reducible assumption | intro _ | (guard_target =~ Kept _ _ _; extract_lets +lift)
    | with_reducible refine State.badStaged_kept ?_ (inAll (by decide) hp)
    | with_reducible refine State.goStale_kept ?_ (inAll (by decide) hp) | with_reducible apply Kept.ite
    | (with_reducible refine Kept.fst (by assumption) ?_)
    | (simp -zeta only [keptMk]; (with_reducible refine KeptMk.upd ?_ rfl ?_); rotate_left;
        · intro p; cases p <;> first | exact .inl (hp (by decide)) | (right; dsimp only [Part.same]))
    | split | dsimp +zetaDelta only

theorem State.upsets_kept {pts : List Part} {s0 : State} {s : State} {ws : List TableWord} (hk : Kept pts s0 s)
    (hp : [.tab, .cmt] ⊆ pts) : Kept pts s0 (s.upsets ws) := by
  unfold State.upsets
  repeat' first
    | with_reducible assumption | intro _ | (guard_target =~ Kept _ _ _; extract_lets +lift)
    | with_reducible refine State.badVer_kept ?_ (inAll (by decide) hp) | with_reducible apply Kept.ite
    | (with_reducible apply Kept.foldl; rotate_left; intro _ _ _)
    | (with_reducible refine Kept.fst (by assumption) ?_) | split

theorem State.badSlot_kept {pts : List Part} {s0 : State} {s : State} {i : Nat} {scan : Bool} {occ : Bool}
    (hk : Kept pts s0 s) (hp : [.freeCtr, .regs, .pf0, .pf1, .rng, .tab, .mil, .out] ⊆ pts)
    : Kept pts s0 (s.badSlot i scan occ) := by
  unfold State.badSlot
  repeat' first
    | with_reducible assumption | intro _ | (guard_target =~ Kept _ _ _; extract_lets +lift)
    | with_reducible refine State.lkpError_kept ?_ (inAll (by decide) hp)
    | with_reducible refine State.goStale_kept ?_ (inAll (by decide) hp)
    | with_reducible refine State.used_kept ?_ (inAll (by decide) hp) | with_reducible apply Kept.ite
    | (with_reducible refine Kept.fst (by assumption) ?_)
    | (simp -zeta only [keptMk]; (with_reducible refine KeptMk.upd ?_ rfl ?_); rotate_left;
        · intro p; cases p <;> first | exact .inl (hp (by decide)) | (right; dsimp only [Part.same]))
    | split | dsimp +zetaDelta only

theorem State.asaError_kept {pts : List Part} {s0 : State} {s : State} {u : Nat} {kind : Nat} {scan : Bool}
    (hk : Kept pts s0 s) (hp : [.regs] ⊆ pts) : Kept pts s0 (s.asaError u kind scan) := by
  unfold State.asaError
  repeat' first
    | with_reducible assumption | intro _ | (guard_target =~ Kept _ _ _; extract_lets +lift)
    | with_reducible refine State.set_kept ?_ (inAll (by decide) hp)
    | with_reducible refine State.count_kept ?_ (inAll (by decide) hp) | with_reducible apply Kept.ite

theorem State.disableRows_kept {pts : List Part} {s0 : State} {s : State} {rows : List Nat} (hk : Kept pts s0 s)
    (hp : [.regs, .pf0, .pf1, .rng, .asa, .mil, .out] ⊆ pts) : Kept pts s0 (s.disableRows rows) := by
  unfold State.disableRows
  repeat' first
    | with_reducible assumption | intro _ | (guard_target =~ Kept _ _ _; extract_lets +lift)
    | with_reducible refine State.set_kept ?_ (inAll (by decide) hp)
    | with_reducible refine State.raise_kept ?_ (inAll (by decide) hp) | with_reducible apply Kept.ite
    | (with_reducible apply Kept.foldl; rotate_left; intro _ _ _)
    | (with_reducible refine Kept.fst (by assumption) ?_)
    | (simp -zeta only [keptMk]; (with_reducible refine KeptMk.upd ?_ rfl ?_); rotate_left;
        · intro p; cases p <;> first | exact .inl (hp (by decide)) | (right; dsimp only [Part.same]))
    | split | dsimp +zetaDelta only

theorem State.asaStale_kept {pts : List Part} {s0 : State} {s : State} {e : AsaEnt} (hk : Kept pts s0 s)
    (hp : [.tab] ⊆ pts) : Kept pts s0 (s.asaStale e) := by
  unfold State.asaStale
  repeat' first
    | with_reducible assumption | intro _ | (guard_target =~ Kept _ _ _; extract_lets +lift)
    | with_reducible refine State.goStale_kept ?_ (inAll (by decide) hp) | with_reducible apply Kept.ite

theorem State.badCtl_kept {pts : List Part} {s0 : State} {s : State} {e : AsaEnt} {scan : Bool} (hk : Kept pts s0 s)
    (hp : [.regs, .pf0, .pf1, .rng, .tab, .asa, .cmt, .mil, .out] ⊆ pts) : Kept pts s0 (s.badCtl e scan) := by
  unfold State.badCtl
  repeat' first
    | with_reducible assumption | intro _ | (guard_target =~ Kept _ _ _; extract_lets +lift)
    | with_reducible refine State.asaError_kept ?_ (inAll (by decide) hp)
    | with_reducible refine State.disableRows_kept ?_ (inAll (by decide) hp)
    | with_reducible refine State.asaStale_kept ?_ (inAll (by decide) hp) | with_reducible apply Kept.ite
    | (with_reducible refine Kept.fst (by assumption) ?_)
    | (simp -zeta only [keptMk]; (with_reducible refine KeptMk.upd ?_ rfl ?_); rotate_left;
        · intro p; cases p <;> first | exact .inl (hp (by decide)) | (right; dsimp only [Part.same]))

theorem State.badFree_kept {pts : List Part} {s0 : State} {s : State} {u : Nat} (hk : Kept pts s0 s)
    (hp : [.regs, .pf0, .pf1, .rng, .tab, .asa, .cmt, .mil, .out] ⊆ pts) : Kept pts s0 (s.badFree u) := by
  unfold State.badFree
  repeat' first
    | with_reducible assumption | intro _ | (guard_target =~ Kept _ _ _; extract_lets +lift)
    | with_reducible refine State.badCtl_kept ?_ (inAll (by decide) hp) | with_reducible apply Kept.ite
    | (with_reducible refine Kept.fst (by assumption) ?_)
    | (simp -zeta only [keptMk]; (with_reducible refine KeptMk.upd ?_ rfl ?_); rotate_left;
        · intro p; cases p <;> first | exact .inl (hp (by decide)) | (right; dsimp only [Part.same]))

theorem State.badRow_kept {pts : List Part} {s0 : State} {s : State} {r : Nat} (hk : Kept pts s0 s)
    (hp : [.regs, .pf0, .pf1, .rng, .tab, .asa, .mil, .out] ⊆ pts) : Kept pts s0 (s.badRow r) := by
  unfold State.badRow
  repeat' first
    | with_reducible assumption | intro _ | (guard_target =~ Kept _ _ _; extract_lets +lift)
    | with_reducible refine State.asaError_kept ?_ (inAll (by decide) hp)
    | with_reducible refine State.asaStale_kept ?_ (inAll (by decide) hp)
    | with_reducible refine State.disableRows_kept ?_ (inAll (by decide) hp)
    | with_reducible apply Kept.ite | (with_reducible apply Kept.foldl; rotate_left; intro _ _ _)

theorem State.badWord_kept {pts : List Part} {s0 : State} {s : State} {k : Nat} {n : Nat} {occ : Bool}
    (hk : Kept pts s0 s) (hp : [.tab, .cmt] ⊆ pts) : Kept pts s0 (s.badWord k n occ) := by
  unfold State.badWord
  repeat' first
    | with_reducible assumption | intro _ | (guard_target =~ Kept _ _ _; extract_lets +lift)
    | with_reducible refine State.badVer_kept ?_ (inAll (by decide) hp)
    | with_reducible refine State.goStale_kept ?_ (inAll (by decide) hp) | with_reducible apply Kept.ite
    | (with_reducible refine Kept.fst (by assumption) ?_)
    | (simp -zeta only [keptMk]; (with_reducible refine KeptMk.upd ?_ rfl ?_); rotate_left;
        · intro p; cases p <;> first | exact .inl (hp (by decide)) | (right; dsimp only [Part.same]))

theorem dandyScanCheck_kept {pts : List Part} {s0 : State} {w : TableWord} {found : WordFault} {s : State}
    (hk : Kept pts s0 s) (hp : [.freeCtr, .regs, .pf0, .pf1, .rng, .tab, .asa, .cmt, .mil, .out] ⊆ pts)
    : Kept pts s0 (dandyScanCheck w found s) := by
  unfold dandyScanCheck
  repeat' first
    | with_reducible assumption | intro _ | (guard_target =~ Kept _ _ _; extract_lets +lift)
    | with_reducible refine State.badWord_kept ?_ (inAll (by decide) hp)
    | with_reducible refine State.logBad_kept ?_ (inAll (by decide) hp)
    | with_reducible refine State.badSlot_kept ?_ (inAll (by decide) hp)
    | with_reducible refine State.lkpError_kept ?_ (inAll (by decide) hp)
    | with_reducible refine State.badRow_kept ?_ (inAll (by decide) hp)
    | with_reducible refine State.asaError_kept ?_ (inAll (by decide) hp)
    | with_reducible refine State.badCtl_kept ?_ (inAll (by decide) hp)
    | with_reducible refine State.badFree_kept ?_ (inAll (by decide) hp)
    | with_reducible refine State.goStale_kept ?_ (inAll (by decide) hp)
    | with_reducible refine State.used_kept ?_ (inAll (by decide) hp) | with_reducible apply Kept.ite
    | (with_reducible refine Kept.fst (by assumption) ?_)
    | (simp -zeta only [keptMk]; (with_reducible refine KeptMk.upd ?_ rfl ?_); rotate_left;
        · intro p; cases p <;> first | exact .inl (hp (by decide)) | (right; dsimp only [Part.same]))
    | split

theorem trieRebuild_kept {pts : List Part} {s0 : State} {node : BitVec 24} {s : State} (hk : Kept pts s0 s)
    (hp : [.regs, .pf0, .pf1, .rng, .tab, .mil, .out] ⊆ pts) : Kept pts s0 (trieRebuild node s) := by
  unfold trieRebuild
  repeat' first
    | with_reducible assumption | intro _ | (guard_target =~ Kept _ _ _; extract_lets +lift)
    | with_reducible refine State.raise_kept ?_ (inAll (by decide) hp) | with_reducible apply Kept.ite
    | (with_reducible refine Kept.fst (by assumption) ?_)
    | (simp -zeta only [keptMk]; (with_reducible refine KeptMk.upd ?_ rfl ?_); rotate_left;
        · intro p; cases p <;> first | exact .inl (hp (by decide)) | (right; dsimp only [Part.same]))

theorem poisonClr_kept {pts : List Part} {s0 : State} {req : Req} {v : W64} {s : State} (hk : Kept pts s0 s)
    (hp : [.regs, .shadow, .acc, .pf0, .pf1, .rng, .tab, .mil, .out] ⊆ pts) : Kept pts s0 (poisonClr req v s) := by
  unfold poisonClr
  repeat' first
    | with_reducible assumption | intro _ | (guard_target =~ Kept _ _ _; extract_lets +lift)
    | with_reducible refine State.ownWrite_kept ?_ (inAll (by decide) hp)
    | with_reducible refine State.set_kept ?_ (inAll (by decide) hp)
    | with_reducible refine State.raise_kept ?_ (inAll (by decide) hp) | with_reducible apply Kept.ite
    | (with_reducible refine Kept.fst (by assumption) ?_)
    | (simp -zeta only [keptMk]; (with_reducible refine KeptMk.upd ?_ rfl ?_); rotate_left;
        · intro p; cases p <;> first | exact .inl (hp (by decide)) | (right; dsimp only [Part.same]))

theorem State.reamRefused_kept {pts : List Part} {s0 : State} {s : State} {ring : Nat} {code : Nat} {table : Nat}
    {pos : Nat} (hk : Kept pts s0 s) (hp : [.regs] ⊆ pts) : Kept pts s0 (s.reamRefused ring code table pos) := by
  unfold State.reamRefused
  repeat' first
    | with_reducible assumption | intro _ | (guard_target =~ Kept _ _ _; extract_lets +lift)
    | with_reducible refine State.count_kept ?_ (inAll (by decide) hp)
    | with_reducible refine State.set_kept ?_ (inAll (by decide) hp) | with_reducible apply Kept.ite

theorem State.stageEnd_kept {pts : List Part} {s0 : State} {s : State} (hk : Kept pts s0 s) (hp : [.cmt] ⊆ pts)
    : Kept pts s0 (s.stageEnd) := by
  unfold State.stageEnd
  repeat' first
    | with_reducible assumption | intro _ | (guard_target =~ Kept _ _ _; extract_lets +lift)
    | with_reducible apply Kept.ite | (with_reducible refine Kept.fst (by assumption) ?_)
    | (simp -zeta only [keptMk]; (with_reducible refine KeptMk.upd ?_ rfl ?_); rotate_left;
        · intro p; cases p <;> first | exact .inl (hp (by decide)) | (right; dsimp only [Part.same]))

theorem State.waitEnds_kept {pts : List Part} {s0 : State} {s : State} (hk : Kept pts s0 s) (hp : [.cmt] ⊆ pts)
    : Kept pts s0 (s.waitEnds) := by
  unfold State.waitEnds
  repeat' first
    | with_reducible assumption | intro _ | (guard_target =~ Kept _ _ _; extract_lets +lift)
    | with_reducible apply Kept.ite | (with_reducible refine Kept.fst (by assumption) ?_)
    | (simp -zeta only [keptMk]; (with_reducible refine KeptMk.upd ?_ rfl ?_); rotate_left;
        · intro p; cases p <;> first | exact .inl (hp (by decide)) | (right; dsimp only [Part.same]))
    | split

theorem State.reamDiscard_kept {pts : List Part} {s0 : State} {s : State} {ring : Nat} (hk : Kept pts s0 s)
    (hp : [.regs, .pf0, .pf1, .rng, .cmt, .mil, .out] ⊆ pts) : Kept pts s0 (s.reamDiscard ring) := by
  unfold State.reamDiscard
  repeat' first
    | with_reducible assumption | intro _ | (guard_target =~ Kept _ _ _; extract_lets +lift)
    | with_reducible refine State.raise_kept ?_ (inAll (by decide) hp)
    | with_reducible refine State.stageEnd_kept ?_ (inAll (by decide) hp)
    | with_reducible refine State.reamRefused_kept ?_ (inAll (by decide) hp)

theorem State.commitLost_kept {pts : List Part} {s0 : State} {s : State} {r : Nat} (hk : Kept pts s0 s)
    (hp : [.regs, .pf0, .pf1, .rng, .cmt, .mil, .out] ⊆ pts) : Kept pts s0 (s.commitLost r) := by
  unfold State.commitLost
  repeat' first
    | with_reducible assumption | intro _ | (guard_target =~ Kept _ _ _; extract_lets +lift)
    | with_reducible refine State.reamDiscard_kept ?_ (inAll (by decide) hp)
    | with_reducible apply Kept.ite | (with_reducible refine Kept.fst (by assumption) ?_)
    | (simp -zeta only [keptMk]; (with_reducible refine KeptMk.upd ?_ rfl ?_); rotate_left;
        · intro p; cases p <;> first | exact .inl (hp (by decide)) | (right; dsimp only [Part.same]))
    | split | dsimp +zetaDelta only

theorem State.bankWrite_kept {pts : List Part} {s0 : State} {s : State} {req : Req} {k : Nat} {v : W64}
    (hk : Kept pts s0 s) (hp : [.regs, .shadow, .acc, .pf0, .pf1, .rng, .mil, .out] ⊆ pts)
    : Kept pts s0 (s.bankWrite req k v) := by
  unfold State.bankWrite
  repeat' first
    | with_reducible assumption | intro _ | (guard_target =~ Kept _ _ _; extract_lets +lift)
    | with_reducible refine State.flushRw_kept ?_ (inAll (by decide) hp)
    | with_reducible refine State.violation_kept ?_ (inAll (by decide) hp)
    | with_reducible refine State.ownWrite_kept ?_ (inAll (by decide) hp)
    | with_reducible refine State.set_kept ?_ (inAll (by decide) hp) | with_reducible apply Kept.ite

theorem asaBankRun_kept {pts : List Part} {s0 : State} {req : Req} {k : Fin 128} {v : W64} {s : State}
    (hk : Kept pts s0 s) (hp : [.regs, .shadow, .acc, .pf0, .pf1, .rng, .mil, .out] ⊆ pts)
    : Kept pts s0 (asaBankRun req k v s) := by
  unfold asaBankRun
  repeat' first
    | with_reducible assumption | intro _
    | with_reducible refine State.bankWrite_kept ?_ (inAll (by decide) hp)

theorem asaBankStop_kept {pts : List Part} {s0 : State} {req : Req} {k : Fin 128} {v : W64} {s : State}
    (hk : Kept pts s0 s) (hp : [.regs, .shadow, .acc, .pf0, .pf1, .rng, .mil, .out] ⊆ pts)
    : Kept pts s0 (asaBankStop req k v s) := by
  unfold asaBankStop
  repeat' first
    | with_reducible assumption | intro _
    | with_reducible refine State.bankWrite_kept ?_ (inAll (by decide) hp)

theorem State.asaLookup_kept {pts : List Part} {s0 : State} {s : State} {g : Nat} {key : List Byte} {tag : Nat}
    {upset : List TableWord} (hk : Kept pts s0 s) (hp : [.regs, .pf0, .pf1, .rng, .tab, .asa, .cmt, .mil, .out] ⊆ pts)
    : Kept pts s0 (s.asaLookup g key tag upset).1 := by
  unfold State.asaLookup
  repeat' first
    | with_reducible assumption | intro _ | (guard_target =~ Kept _ _ _; extract_lets +lift)
    | with_reducible refine State.raise_kept ?_ (inAll (by decide) hp)
    | with_reducible refine State.count_kept ?_ (inAll (by decide) hp)
    | with_reducible refine State.badCtl_kept ?_ (inAll (by decide) hp) | with_reducible apply Kept.ite
    | (with_reducible refine Kept.fst (by assumption) ?_) | split | dsimp +zetaDelta only

theorem State.setActx_kept {pts : List Part} {s0 : State} {s : State} {c : Nat} {x : AsaCtx} (hk : Kept pts s0 s)
    (hp : [.asa] ⊆ pts) : Kept pts s0 (s.setActx c x) := by
  unfold State.setActx
  repeat' first
    | with_reducible assumption | intro _ | (guard_target =~ Kept _ _ _; extract_lets +lift)
    | with_reducible apply Kept.ite | (with_reducible refine Kept.fst (by assumption) ?_)
    | (simp -zeta only [keptMk]; (with_reducible refine KeptMk.upd ?_ rfl ?_); rotate_left;
        · intro p; cases p <;> first | exact .inl (hp (by decide)) | (right; dsimp only [Part.same]))

theorem State.srchLeave_kept {pts : List Part} {s0 : State} {s : State} {c : Nat} {st : Nat} (hk : Kept pts s0 s)
    (hp : [.regs, .asa] ⊆ pts) : Kept pts s0 (s.srchLeave c st) := by
  unfold State.srchLeave
  repeat' first
    | with_reducible assumption | intro _ | (guard_target =~ Kept _ _ _; extract_lets +lift)
    | with_reducible refine State.set_kept ?_ (inAll (by decide) hp)
    | with_reducible refine State.setActx_kept ?_ (inAll (by decide) hp)

theorem State.srchStart_kept {pts : List Part} {s0 : State} {s : State} {c : Nat} (hk : Kept pts s0 s)
    (hp : [.regs, .asa] ⊆ pts) : Kept pts s0 (s.srchStart c) := by
  unfold State.srchStart
  repeat' first
    | with_reducible assumption | intro _ | (guard_target =~ Kept _ _ _; extract_lets +lift)
    | with_reducible refine State.setActx_kept ?_ (inAll (by decide) hp)
    | with_reducible refine State.set_kept ?_ (inAll (by decide) hp)

theorem start_kept {pts : List Part} {s0 : State} {req : Req} {c : Fin 4} {v : W64} {s : State} (hk : Kept pts s0 s)
    (hp : [.regs, .shadow, .acc, .pf0, .pf1, .rng, .asa, .mil, .out] ⊆ pts) : Kept pts s0 (start req c v s) := by
  unfold start
  repeat' first
    | with_reducible assumption | intro _ | (guard_target =~ Kept _ _ _; extract_lets +lift)
    | with_reducible refine State.ownWrite_kept ?_ (inAll (by decide) hp)
    | with_reducible refine State.violation_kept ?_ (inAll (by decide) hp)
    | with_reducible refine State.srchStart_kept ?_ (inAll (by decide) hp) | with_reducible apply Kept.ite

theorem next_kept {pts : List Part} {s0 : State} {req : Req} {c : Fin 4} {v : W64} {s : State} (hk : Kept pts s0 s)
    (hp : [.regs, .shadow, .acc, .pf0, .pf1, .rng, .mil, .out] ⊆ pts) : Kept pts s0 (next req c v s) := by
  unfold next
  repeat' first
    | with_reducible assumption | intro _ | (guard_target =~ Kept _ _ _; extract_lets +lift)
    | with_reducible refine State.ownWrite_kept ?_ (inAll (by decide) hp)
    | with_reducible refine State.set_kept ?_ (inAll (by decide) hp)
    | with_reducible refine State.violation_kept ?_ (inAll (by decide) hp) | with_reducible apply Kept.ite

theorem srchEnd_kept {pts : List Part} {s0 : State} {req : Req} {c : Fin 4} {v : W64} {s : State} (hk : Kept pts s0 s)
    (hp : [.regs, .shadow, .acc, .pf0, .pf1, .rng, .asa, .mil, .out] ⊆ pts) : Kept pts s0 (srchEnd req c v s) := by
  unfold srchEnd
  repeat' first
    | with_reducible assumption | intro _ | (guard_target =~ Kept _ _ _; extract_lets +lift)
    | with_reducible refine State.ownWrite_kept ?_ (inAll (by decide) hp)
    | with_reducible refine State.violation_kept ?_ (inAll (by decide) hp)
    | with_reducible refine State.srchLeave_kept ?_ (inAll (by decide) hp) | with_reducible apply Kept.ite

theorem srchPick_kept {pts : List Part} {s0 : State} {c : Nat} {upset : List TableWord} {a3 : List AsaEnt} {s : State}
    (hk : Kept pts s0 s) (hp : [.regs, .pf0, .pf1, .rng, .tab, .asa, .cmt, .mil, .out] ⊆ pts)
    : Kept pts s0 (srchPick c upset a3 s).1 := by
  induction a3 generalizing s <;> (
    unfold srchPick
    repeat' first
      | with_reducible assumption | intro _ | with_reducible apply_assumption
      | (guard_target =~ Kept _ _ _; extract_lets +lift)
      | with_reducible refine State.set_kept ?_ (inAll (by decide) hp)
      | with_reducible refine State.badCtl_kept ?_ (inAll (by decide) hp) | with_reducible apply Kept.ite
      | (with_reducible apply Kept.foldl; rotate_left; intro _ _ _)
      | (with_reducible apply Kept.foldl_fst; rotate_left; intro _ _ _)
      | (with_reducible refine Kept.fst (by assumption) ?_)
      | (simp -zeta only [keptMk]; (with_reducible refine KeptMk.upd ?_ rfl ?_); rotate_left;
          · intro p; cases p <;> first | exact .inl (hp (by decide)) | (right; dsimp only [Part.same]))
      | split | dsimp +zetaDelta only)

theorem State.srchFound_kept {pts : List Part} {s0 : State} {s : State} {c : Nat} {e : AsaEnt} (hk : Kept pts s0 s)
    (hp : [.regs] ⊆ pts) : Kept pts s0 (s.srchFound c e) := by
  unfold State.srchFound
  repeat' first
    | with_reducible assumption | intro _ | (guard_target =~ Kept _ _ _; extract_lets +lift)
    | with_reducible refine State.set_kept ?_ (inAll (by decide) hp)

theorem asaSearchStep_kept {pts : List Part} {s0 : State} {c : Fin 4} {upset : List TableWord} {s : State}
    (hk : Kept pts s0 s) (hp : [.regs, .pf0, .pf1, .rng, .tab, .asa, .cmt, .mil, .out] ⊆ pts)
    : Kept pts s0 (asaSearchStep c upset s) := by
  unfold asaSearchStep
  repeat' first
    | with_reducible assumption | intro _ | (guard_target =~ Kept _ _ _; extract_lets +lift)
    | with_reducible refine State.set_kept ?_ (inAll (by decide) hp)
    | with_reducible refine srchPick_kept ?_ (inAll (by decide) hp)
    | with_reducible refine State.srchFound_kept ?_ (inAll (by decide) hp)
    | with_reducible refine State.srchLeave_kept ?_ (inAll (by decide) hp) | with_reducible apply Kept.ite
    | (with_reducible refine Kept.fst (by assumption) ?_) | split

theorem asaPinExpiry_kept {pts : List Part} {s0 : State} {c : Fin 4} {s : State} (hk : Kept pts s0 s)
    (hp : [.regs, .pf0, .pf1, .rng, .asa, .mil, .out] ⊆ pts) : Kept pts s0 (asaPinExpiry c s) := by
  unfold asaPinExpiry
  repeat' first
    | with_reducible assumption | intro _ | (guard_target =~ Kept _ _ _; extract_lets +lift)
    | with_reducible refine State.raise_kept ?_ (inAll (by decide) hp)
    | with_reducible refine State.srchLeave_kept ?_ (inAll (by decide) hp) | with_reducible apply Kept.ite

theorem State.halfDone_kept {pts : List Part} {s0 : State} {s : State} (hk : Kept pts s0 s) (hp : [.cmt] ⊆ pts)
    : Kept pts s0 (s.halfDone) := by
  unfold State.halfDone
  repeat' first
    | with_reducible assumption | intro _ | (guard_target =~ Kept _ _ _; extract_lets +lift)
    | with_reducible refine State.waitEnds_kept ?_ (inAll (by decide) hp) | with_reducible apply Kept.ite
    | (with_reducible refine Kept.fst (by assumption) ?_)
    | (simp -zeta only [keptMk]; (with_reducible refine KeptMk.upd ?_ rfl ?_); rotate_left;
        · intro p; cases p <;> first | exact .inl (hp (by decide)) | (right; dsimp only [Part.same]))

theorem asaOriginalFree_kept {pts : List Part} {s0 : State} {u : BitVec 20} {s : State} (hk : Kept pts s0 s)
    (hp : [.asa, .cmt] ⊆ pts) : Kept pts s0 (asaOriginalFree u s) := by
  unfold asaOriginalFree
  repeat' first
    | with_reducible assumption | intro _ | (guard_target =~ Kept _ _ _; extract_lets +lift)
    | with_reducible refine State.halfDone_kept ?_ (inAll (by decide) hp) | with_reducible apply Kept.ite
    | (with_reducible refine Kept.fst (by assumption) ?_)
    | (simp -zeta only [keptMk]; (with_reducible refine KeptMk.upd ?_ rfl ?_); rotate_left;
        · intro p; cases p <;> first | exact .inl (hp (by decide)) | (right; dsimp only [Part.same]))
    | split

theorem State.setEnt_kept {pts : List Part} {s0 : State} {s : State} {e : Nat} {x : EntSt} (hk : Kept pts s0 s)
    (hp : [.pmn] ⊆ pts) : Kept pts s0 (s.setEnt e x) := by
  unfold State.setEnt
  repeat' first
    | with_reducible assumption | intro _ | (guard_target =~ Kept _ _ _; extract_lets +lift)
    | with_reducible apply Kept.ite | (with_reducible refine Kept.fst (by assumption) ?_)
    | (simp -zeta only [keptMk]; (with_reducible refine KeptMk.upd ?_ rfl ?_); rotate_left;
        · intro p; cases p <;> first | exact .inl (hp (by decide)) | (right; dsimp only [Part.same]))

theorem State.squelch_kept {pts : List Part} {s0 : State} {s : State} {e : Nat} (hk : Kept pts s0 s)
    (hp : [.regs, .pf0, .pf1, .rng, .mil, .out] ⊆ pts) : Kept pts s0 (s.squelch e) := by
  unfold State.squelch
  repeat' first
    | with_reducible assumption | intro _ | (guard_target =~ Kept _ _ _; extract_lets +lift)
    | with_reducible refine State.set_kept ?_ (inAll (by decide) hp)
    | with_reducible refine State.raise_kept ?_ (inAll (by decide) hp) | with_reducible apply Kept.ite
    | (with_reducible apply Kept.foldl; rotate_left; intro _ _ _)

theorem State.markSecond_kept {pts : List Part} {s0 : State} {s : State} {e : Nat} (hk : Kept pts s0 s)
    (hp : [.pmn] ⊆ pts) : Kept pts s0 (s.markSecond e) := by
  unfold State.markSecond
  repeat' first
    | with_reducible assumption | intro _ | (guard_target =~ Kept _ _ _; extract_lets +lift)
    | with_reducible refine State.setEnt_kept ?_ (inAll (by decide) hp) | with_reducible apply Kept.ite

theorem State.sfSettle_kept {pts : List Part} {s0 : State} {s : State} {e : Nat} {was : Bool} (hk : Kept pts s0 s)
    (hp : [.regs, .pf0, .pf1, .rng, .pmn, .mil, .out] ⊆ pts) : Kept pts s0 (s.sfSettle e was) := by
  unfold State.sfSettle
  repeat' first
    | with_reducible assumption | intro _ | (guard_target =~ Kept _ _ _; extract_lets +lift)
    | with_reducible refine State.markSecond_kept ?_ (inAll (by decide) hp)
    | with_reducible refine State.setEnt_kept ?_ (inAll (by decide) hp)
    | with_reducible refine State.raiseAt_kept ?_ (inAll (by decide) hp)
    | with_reducible refine State.squelch_kept ?_ (inAll (by decide) hp) | with_reducible apply Kept.ite

theorem State.sdTo_kept {pts : List Part} {s0 : State} {s : State} {e : Nat} {on : Bool} (hk : Kept pts s0 s)
    (hp : [.regs, .pf0, .pf1, .rng, .pmn, .mil, .out] ⊆ pts) : Kept pts s0 (s.sdTo e on) := by
  unfold State.sdTo
  repeat' first
    | with_reducible assumption | intro _ | (guard_target =~ Kept _ _ _; extract_lets +lift)
    | with_reducible refine State.setEnt_kept ?_ (inAll (by decide) hp)
    | with_reducible refine State.raiseAt_kept ?_ (inAll (by decide) hp) | with_reducible apply Kept.ite

theorem State.groupsSd_kept {pts : List Part} {s0 : State} {s : State} (hk : Kept pts s0 s)
    (hp : [.regs, .pf0, .pf1, .rng, .pmn, .mil, .out] ⊆ pts) : Kept pts s0 (s.groupsSd) := by
  unfold State.groupsSd
  repeat' first
    | with_reducible assumption | intro _ | (guard_target =~ Kept _ _ _; extract_lets +lift)
    | with_reducible refine State.sdTo_kept ?_ (inAll (by decide) hp) | with_reducible apply Kept.ite
    | (with_reducible apply Kept.foldl; rotate_left; intro _ _ _)

theorem State.watchSf_kept {pts : List Part} {s0 : State} {s : State} {es : List Nat} {f : State → State}
    (hk : Kept pts s0 s) (hp : [.regs, .pf0, .pf1, .rng, .pmn, .mil, .out] ⊆ pts)
    (hf : ∀ s, Kept pts s0 s → Kept pts s0 (f s)) : Kept pts s0 (s.watchSf es f) := by
  unfold State.watchSf
  exact State.groupsSd_kept (Kept.foldl (hf _ hk) fun s x h => State.sfSettle_kept h (inAll (by decide) hp))
    (inAll (by decide) hp)

theorem State.declareFail_kept {pts : List Part} {s0 : State} {s : State} {e : Nat} (hk : Kept pts s0 s)
    (hp : [.regs, .pf0, .pf1, .rng, .pmn, .mil, .out] ⊆ pts) : Kept pts s0 (s.declareFail e) := by
  unfold State.declareFail
  repeat' first
    | with_reducible assumption | intro _ | (guard_target =~ Kept _ _ _; extract_lets +lift)
    | with_reducible refine State.watchSf_kept ?_ (inAll (by decide) hp) ?_
    | with_reducible refine State.setEnt_kept ?_ (inAll (by decide) hp) | with_reducible apply Kept.ite

theorem State.failSettle_kept {pts : List Part} {s0 : State} {s : State} (hk : Kept pts s0 s)
    (hp : [.regs, .pf0, .pf1, .rng, .pmn, .mil, .out] ⊆ pts) : Kept pts s0 (s.failSettle) := by
  unfold State.failSettle
  repeat' first
    | with_reducible assumption | intro _ | (guard_target =~ Kept _ _ _; extract_lets +lift)
    | with_reducible refine State.declareFail_kept ?_ (inAll (by decide) hp)
    | with_reducible apply Kept.ite | (with_reducible apply Kept.foldl; rotate_left; intro _ _ _)

theorem State.servoSlew_kept {pts : List Part} {s0 : State} {s : State} (hk : Kept pts s0 s)
    (hp : [.freeCtr, .tim] ⊆ pts) : Kept pts s0 (s.servoSlew) := by
  unfold State.servoSlew
  exact State.used_kept (hk.trans ⟨fun p hq => by cases p <;> first | rfl | exact absurd (hp (by decide)) hq, rfl, rfl, id, id, id, id, List.suffix_refl _, Nat.le_refl _⟩) (inAll (by decide) hp)

theorem State.sourceLost_kept {pts : List Part} {s0 : State} {s : State} (hk : Kept pts s0 s)
    (hp : [.freeCtr, .regs, .pf0, .pf1, .rng, .tim, .mil, .out] ⊆ pts) : Kept pts s0 (s.sourceLost) := by
  unfold State.sourceLost
  repeat' first
    | with_reducible assumption | intro _ | (guard_target =~ Kept _ _ _; extract_lets +lift)
    | with_reducible refine State.raise_kept ?_ (inAll (by decide) hp)
    | with_reducible refine State.servoSlew_kept ?_ (inAll (by decide) hp) | with_reducible apply Kept.ite
    | (with_reducible refine Kept.fst (by assumption) ?_)
    | (simp -zeta only [keptMk]; (with_reducible refine KeptMk.tim ?_ ⟨rfl, rfl, rfl⟩ ?_); rotate_left; · exact hp (by decide))
    | split

end Sys2Proof.Laws
end

