-- ==== Sys2Proof/Laws/KeptQueues.lean ====
section
/-!
SUPPORT. Laws/KeptQueues.lean: what the operations of links, queues, admission, parsing and lookups keep (Laws/Kept.lean),
one lemma for each.
-/
namespace Sys2Proof.Laws

open Sys2Proof.Machine

theorem State.setLink_kept {pts : List Part} {s0 : State} {s : State} {l : Nat} {x : LinkSt} (hk : Kept pts s0 s)
    (hp : [.fab] ⊆ pts) : Kept pts s0 (s.setLink l x) := by
  unfold State.setLink
  repeat' first
    | with_reducible assumption | intro _ | (guard_target =~ Kept _ _ _; extract_lets +lift)
    | with_reducible apply Kept.ite | (with_reducible refine Kept.fst (by assumption) ?_)
    | (simp -zeta only [keptMk]; (with_reducible refine KeptMk.upd ?_ rfl ?_); rotate_left;
        · intro p; cases p <;> first | exact .inl (hp (by decide)) | (right; dsimp only [Part.same]))

theorem State.modLink_kept {pts : List Part} {s0 : State} {s : State} {l : Nat} {f : LinkSt → LinkSt}
    (hk : Kept pts s0 s) (hp : [.fab] ⊆ pts) : Kept pts s0 (s.modLink l f) := by
  unfold State.modLink
  repeat' first
    | with_reducible assumption | intro _
    | with_reducible refine State.setLink_kept ?_ (inAll (by decide) hp)

theorem State.settleSpray_kept {pts : List Part} {s0 : State} {s : State} (hk : Kept pts s0 s)
    (hp : [.regs, .pf0, .pf1, .rng, .fab, .mil, .out] ⊆ pts) : Kept pts s0 (s.settleSpray) := by
  unfold State.settleSpray
  repeat' first
    | with_reducible assumption | intro _ | (guard_target =~ Kept _ _ _; extract_lets +lift)
    | with_reducible refine State.raiseAt_kept ?_ (inAll (by decide) hp)
    | with_reducible refine State.modLink_kept ?_ (inAll (by decide) hp) | with_reducible apply Kept.ite
    | (with_reducible apply Kept.foldl; rotate_left; intro _ _ _)

theorem State.settleMonitors_kept {pts : List Part} {s0 : State} {s : State} (hk : Kept pts s0 s) (hp : [.fab] ⊆ pts)
    : Kept pts s0 (s.settleMonitors) := by
  unfold State.settleMonitors
  repeat' first
    | with_reducible assumption | intro _ | (guard_target =~ Kept _ _ _; extract_lets +lift)
    | with_reducible apply Kept.ite | (with_reducible refine Kept.fst (by assumption) ?_)
    | (simp -zeta only [keptMk]; (with_reducible refine KeptMk.upd ?_ rfl ?_); rotate_left;
        · intro p; cases p <;> first | exact .inl (hp (by decide)) | (right; dsimp only [Part.same]))

theorem State.masterSettle_kept {pts : List Part} {s0 : State} {s : State} (hk : Kept pts s0 s)
    (hp : [.freeCtr, .regs, .pf0, .pf1, .rng, .tim, .mil, .out] ⊆ pts) : Kept pts s0 (s.masterSettle) := by
  unfold State.masterSettle
  repeat' first
    | with_reducible assumption | intro _ | (guard_target =~ Kept _ _ _; extract_lets +lift)
    | with_reducible refine State.sourceLost_kept ?_ (inAll (by decide) hp)
    | with_reducible apply Kept.ite

theorem State.settleReach_kept {pts : List Part} {s0 : State} {s : State} (hk : Kept pts s0 s)
    (hp : [.freeCtr, .regs, .pf0, .pf1, .rng, .fab, .tim, .mil, .out] ⊆ pts) : Kept pts s0 (s.settleReach) := by
  unfold State.settleReach
  repeat' first
    | with_reducible assumption | intro _ | (guard_target =~ Kept _ _ _; extract_lets +lift)
    | with_reducible refine State.masterSettle_kept ?_ (inAll (by decide) hp)
    | with_reducible refine State.raiseAt_kept ?_ (inAll (by decide) hp) | with_reducible apply Kept.ite
    | (with_reducible apply Kept.foldl; rotate_left; intro _ _ _)
    | (with_reducible refine Kept.fst (by assumption) ?_)
    | (simp -zeta only [keptMk]; (with_reducible refine KeptMk.upd ?_ rfl ?_); rotate_left;
        · intro p; cases p <;> first | exact .inl (hp (by decide)) | (right; dsimp only [Part.same]))
    | split | dsimp +zetaDelta only

theorem State.settleFab_kept {pts : List Part} {s0 : State} {s : State} (hk : Kept pts s0 s)
    (hp : [.freeCtr, .regs, .pf0, .pf1, .rng, .fab, .tim, .mil, .out] ⊆ pts) : Kept pts s0 (s.settleFab) := by
  unfold State.settleFab
  repeat' first
    | with_reducible assumption | intro _ | (guard_target =~ Kept _ _ _; extract_lets +lift)
    | with_reducible refine State.settleReach_kept ?_ (inAll (by decide) hp)
    | with_reducible refine State.settleMonitors_kept ?_ (inAll (by decide) hp)
    | with_reducible refine State.settleSpray_kept ?_ (inAll (by decide) hp)

theorem State.newMarkers_kept {pts : List Part} {s0 : State} {s : State} {l : Nat} (hk : Kept pts s0 s)
    (hp : [.out] ⊆ pts) : Kept pts s0 (s.newMarkers l) := by
  unfold State.newMarkers
  repeat' first
    | with_reducible assumption | intro _ | (guard_target =~ Kept _ _ _; extract_lets +lift)
    | with_reducible refine State.emit_kept ?_ (inAll (by decide) hp) | with_reducible apply Kept.ite

theorem State.linkUnlock_kept {pts : List Part} {s0 : State} {s : State} {l : Nat} (hk : Kept pts s0 s)
    (hp : [.regs, .pf0, .pf1, .rng, .fab, .mil, .out] ⊆ pts) : Kept pts s0 (s.linkUnlock l) := by
  unfold State.linkUnlock
  repeat' first
    | with_reducible assumption | intro _ | (guard_target =~ Kept _ _ _; extract_lets +lift)
    | with_reducible refine State.modLink_kept ?_ (inAll (by decide) hp)
    | with_reducible refine State.newMarkers_kept ?_ (inAll (by decide) hp)
    | with_reducible refine State.raiseAt_kept ?_ (inAll (by decide) hp) | with_reducible apply Kept.ite
    | (with_reducible refine Kept.fst (by assumption) ?_)
    | (simp -zeta only [keptMk]; (with_reducible refine KeptMk.upd ?_ rfl ?_); rotate_left;
        · intro p; cases p <;> first | exact .inl (hp (by decide)) | (right; dsimp only [Part.same]))

theorem State.linkReset_kept {pts : List Part} {s0 : State} {s : State} {l : Nat} (hk : Kept pts s0 s)
    (hp : [.regs, .pf0, .pf1, .rng, .fab, .mil, .out] ⊆ pts) : Kept pts s0 (s.linkReset l) := by
  unfold State.linkReset
  repeat' first
    | with_reducible assumption | intro _ | (guard_target =~ Kept _ _ _; extract_lets +lift)
    | with_reducible refine State.modLink_kept ?_ (inAll (by decide) hp)
    | with_reducible refine State.linkUnlock_kept ?_ (inAll (by decide) hp)

theorem State.putCell_kept {pts : List Part} {s0 : State} {s : State} {ls : List Nat} {f : LinkSt → LinkSt}
    (hk : Kept pts s0 s) (hp : [.fab] ⊆ pts) : Kept pts s0 (s.putCell ls f) := by
  unfold State.putCell
  repeat' first
    | with_reducible assumption | intro _ | (guard_target =~ Kept _ _ _; extract_lets +lift)
    | with_reducible refine State.modLink_kept ?_ (inAll (by decide) hp) | with_reducible apply Kept.ite
    | (with_reducible refine Kept.fst (by assumption) ?_)
    | (simp -zeta only [keptMk]; (with_reducible refine KeptMk.upd ?_ rfl ?_); rotate_left;
        · intro p; cases p <;> first | exact .inl (hp (by decide)) | (right; dsimp only [Part.same]))
    | split

theorem State.sendCtl_kept {pts : List Part} {s0 : State} {s : State} {d : Nat} {ms : List CtlMsg}
    (hk : Kept pts s0 s) (hp : [.fab] ⊆ pts) : Kept pts s0 (s.sendCtl d ms) := by
  unfold State.sendCtl
  repeat' first
    | with_reducible assumption | intro _ | (guard_target =~ Kept _ _ _; extract_lets +lift)
    | with_reducible refine State.putCell_kept ?_ (inAll (by decide) hp) | with_reducible apply Kept.ite

theorem State.putRx_kept {pts : List Part} {s0 : State} {s : State} {c : RxCell} (hk : Kept pts s0 s)
    (hp : [.fab] ⊆ pts) : Kept pts s0 (s.putRx c) := by
  unfold State.putRx
  repeat' first
    | with_reducible assumption | intro _ | (guard_target =~ Kept _ _ _; extract_lets +lift)
    | with_reducible apply Kept.ite | (with_reducible refine Kept.fst (by assumption) ?_)
    | (simp -zeta only [keptMk]; (with_reducible refine KeptMk.upd ?_ rfl ?_); rotate_left;
        · intro p; cases p <;> first | exact .inl (hp (by decide)) | (right; dsimp only [Part.same]))

theorem State.takeRx_kept {pts : List Part} {s0 : State} {s : State} {f : RxCell → Bool} (hk : Kept pts s0 s)
    (hp : [.fab] ⊆ pts) {x res} (e : s.takeRx f = some (x, res)) : Kept pts s0 res := by
  unfold State.takeRx at e
  rw [Option.map_eq_some_iff] at e
  obtain ⟨⟨c, rest⟩, _, e⟩ := e
  cases e
  exact hk.trans ⟨fun p hq => by cases p <;> first | rfl | exact absurd (hp (by decide)) hq, rfl, rfl, id, id, id, id, List.suffix_refl _, Nat.le_refl _⟩

theorem State.sendMsg_kept {pts : List Part} {s0 : State} {s : State} {d : Nat} {m : CtlMsg} (hk : Kept pts s0 s)
    (hp : [.fab] ⊆ pts) : Kept pts s0 (s.sendMsg d m) := by
  unfold State.sendMsg
  repeat' first
    | with_reducible assumption | intro _ | (guard_target =~ Kept _ _ _; extract_lets +lift)
    | with_reducible refine State.putRx_kept ?_ (inAll (by decide) hp)
    | with_reducible refine State.sendCtl_kept ?_ (inAll (by decide) hp) | with_reducible apply Kept.ite

theorem State.setGroup_kept {pts : List Part} {s0 : State} {s : State} {g : Nat} {x : GroupSt} (hk : Kept pts s0 s)
    (hp : [.prt] ⊆ pts) : Kept pts s0 (s.setGroup g x) := by
  unfold State.setGroup
  repeat' first
    | with_reducible assumption | intro _ | (guard_target =~ Kept _ _ _; extract_lets +lift)
    | with_reducible apply Kept.ite | (with_reducible refine Kept.fst (by assumption) ?_)
    | (simp -zeta only [keptMk]; (with_reducible refine KeptMk.upd ?_ rfl ?_); rotate_left;
        · intro p; cases p <;> first | exact .inl (hp (by decide)) | (right; dsimp only [Part.same]))

theorem State.modGroup_kept {pts : List Part} {s0 : State} {s : State} {g : Nat} {f : GroupSt → GroupSt}
    (hk : Kept pts s0 s) (hp : [.prt] ⊆ pts) : Kept pts s0 (s.modGroup g f) := by
  unfold State.modGroup
  repeat' first
    | with_reducible assumption | intro _
    | with_reducible refine State.setGroup_kept ?_ (inAll (by decide) hp)

theorem State.roleDiscard_kept {pts : List Part} {s0 : State} {s : State} {f : RoleFate} {n : Nat}
    (hk : Kept pts s0 s) (hp : [.regs] ⊆ pts) : Kept pts s0 (s.roleDiscard f n) := by
  unfold State.roleDiscard
  repeat' first
    | with_reducible assumption | intro _
    | with_reducible refine State.count_kept ?_ (inAll (by decide) hp) | with_reducible apply Kept.ite
    | (with_reducible refine Kept.fst (by assumption) ?_) | split

theorem State.freshUsed_kept {pts : List Part} {s0 : State} {s : State} {g : Nat} (hk : Kept pts s0 s)
    (hp : [.regs] ⊆ pts) : Kept pts s0 (s.freshUsed g) := by
  unfold State.freshUsed
  repeat' first
    | with_reducible assumption | intro _ | (guard_target =~ Kept _ _ _; extract_lets +lift)
    | with_reducible refine State.set_kept ?_ (inAll (by decide) hp) | with_reducible apply Kept.ite
    | (with_reducible apply Kept.foldl; rotate_left; intro _ _ _)

theorem State.takeRole_kept {pts : List Part} {s0 : State} {s : State} {g : Nat} {act : Bool} (hk : Kept pts s0 s)
    (hp : [.regs, .prt] ⊆ pts) : Kept pts s0 (s.takeRole g act) := by
  unfold State.takeRole
  repeat' first
    | with_reducible assumption | intro _ | (guard_target =~ Kept _ _ _; extract_lets +lift)
    | with_reducible refine State.modGroup_kept ?_ (inAll (by decide) hp)
    | with_reducible refine State.set_kept ?_ (inAll (by decide) hp)
    | with_reducible refine State.freshUsed_kept ?_ (inAll (by decide) hp) | with_reducible apply Kept.ite
    | (with_reducible apply Kept.foldl; rotate_left; intro _ _ _)

theorem State.sendPfc_kept {pts : List Part} {s0 : State} {s : State} {p : Nat} {cls : Nat} {quanta : Nat}
    (hk : Kept pts s0 s) (hp : [.regs, .out] ⊆ pts) : Kept pts s0 (s.sendPfc p cls quanta) := by
  unfold State.sendPfc
  repeat' first
    | with_reducible assumption | intro _ | (guard_target =~ Kept _ _ _; extract_lets +lift)
    | with_reducible refine State.count_kept ?_ (inAll (by decide) hp)
    | with_reducible refine State.emit_kept ?_ (inAll (by decide) hp) | with_reducible apply Kept.ite

theorem State.xoff_kept {pts : List Part} {s0 : State} {s : State} {p : Nat} {k : Nat} (hk : Kept pts s0 s)
    (hp : [.regs, .lin, .out] ⊆ pts) : Kept pts s0 (s.xoff p k) := by
  unfold State.xoff
  repeat' first
    | with_reducible assumption | intro _ | (guard_target =~ Kept _ _ _; extract_lets +lift)
    | with_reducible refine State.sendPfc_kept ?_ (inAll (by decide) hp) | with_reducible apply Kept.ite
    | (with_reducible refine Kept.fst (by assumption) ?_)
    | (simp -zeta only [keptMk]; (with_reducible refine KeptMk.upd ?_ rfl ?_); rotate_left;
        · intro p; cases p <;> first | exact .inl (hp (by decide)) | (right; dsimp only [Part.same]))

theorem State.xoffWatch_kept {pts : List Part} {s0 : State} {s : State} {loss : Option (Nat × Nat)}
    (hk : Kept pts s0 s) (hp : [.regs, .lin, .out] ⊆ pts) : Kept pts s0 (s.xoffWatch loss) := by
  unfold State.xoffWatch
  repeat' first
    | with_reducible assumption | intro _ | (guard_target =~ Kept _ _ _; extract_lets +lift)
    | with_reducible refine State.xoff_kept ?_ (inAll (by decide) hp) | with_reducible apply Kept.ite
    | (with_reducible refine Kept.fst (by assumption) ?_) | split

theorem State.xonWatch_kept {pts : List Part} {s0 : State} {s : State} (hk : Kept pts s0 s)
    (hp : [.regs, .lin, .out] ⊆ pts) : Kept pts s0 (s.xonWatch) := by
  unfold State.xonWatch
  repeat' first
    | with_reducible assumption | intro _ | (guard_target =~ Kept _ _ _; extract_lets +lift)
    | with_reducible refine State.sendPfc_kept ?_ (inAll (by decide) hp) | with_reducible apply Kept.ite
    | (with_reducible apply Kept.foldl; rotate_left; intro _ _ _)
    | (with_reducible refine Kept.fst (by assumption) ?_)
    | (simp -zeta only [keptMk]; (with_reducible refine KeptMk.upd ?_ rfl ?_); rotate_left;
        · intro p; cases p <;> first | exact .inl (hp (by decide)) | (right; dsimp only [Part.same]))

theorem State.dropCells_kept {pts : List Part} {s0 : State} {s : State} {cs : List CellAt} (hk : Kept pts s0 s)
    (hp : [.regs, .pf0, .pf1, .rng, .bpm, .lin, .mil, .out] ⊆ pts) : Kept pts s0 (s.dropCells cs) := by
  unfold State.dropCells
  repeat' first
    | with_reducible assumption | intro _ | (guard_target =~ Kept _ _ _; extract_lets +lift)
    | with_reducible refine State.xonWatch_kept ?_ (inAll (by decide) hp)
    | with_reducible refine State.decCell_kept ?_ (inAll (by decide) hp) | with_reducible apply Kept.ite
    | (with_reducible apply Kept.foldl; rotate_left; intro _ _ _)
    | (with_reducible refine Kept.fst (by assumption) ?_) | split

theorem bufDec_kept {pts : List Part} {s0 : State} {r : Fin 32} {h : BitVec 32} {s : State} (hk : Kept pts s0 s)
    (hp : [.regs, .pf0, .pf1, .rng, .bpm, .lin, .mil, .out] ⊆ pts) : Kept pts s0 (bufDec r h s) := by
  unfold bufDec
  repeat' first
    | with_reducible assumption | intro _ | (guard_target =~ Kept _ _ _; extract_lets +lift)
    | with_reducible refine State.bufError_kept ?_ (inAll (by decide) hp)
    | with_reducible refine State.xonWatch_kept ?_ (inAll (by decide) hp)
    | with_reducible refine State.decCell_kept ?_ (inAll (by decide) hp)
    | with_reducible refine State.noteDec_kept ?_ (inAll (by decide) hp) | with_reducible apply Kept.ite
    | (with_reducible apply Kept.foldl; rotate_left; intro _ _ _)
    | (with_reducible refine Kept.fst (by assumption) ?_) | split

theorem State.trimPages_kept {pts : List Part} {s0 : State} {s : State} {q : Nat} (hk : Kept pts s0 s)
    (hp : [.bpm, .qsc] ⊆ pts) : Kept pts s0 (s.trimPages q) := by
  unfold State.trimPages
  repeat' first
    | with_reducible assumption | intro _ | (guard_target =~ Kept _ _ _; extract_lets +lift)
    | with_reducible refine State.freeBuf_kept ?_ (inAll (by decide) hp)
    | with_reducible refine State.setQueue_kept ?_ (inAll (by decide) hp) | with_reducible apply Kept.ite
    | (with_reducible apply Kept.foldl; rotate_left; intro _ _ _)

theorem State.refillWatch_kept {pts : List Part} {s0 : State} {s : State} {q : Nat} (hk : Kept pts s0 s)
    (hp : [.adm] ⊆ pts) : Kept pts s0 (s.refillWatch q) := by
  unfold State.refillWatch
  repeat' first
    | with_reducible assumption | intro _ | (guard_target =~ Kept _ _ _; extract_lets +lift)
    | with_reducible apply Kept.ite | (with_reducible refine Kept.fst (by assumption) ?_)
    | (simp -zeta only [keptMk]; (with_reducible refine KeptMk.upd ?_ rfl ?_); rotate_left;
        · intro p; cases p <;> first | exact .inl (hp (by decide)) | (right; dsimp only [Part.same]))

theorem State.deepSettle_kept {pts : List Part} {s0 : State} {s : State} {q : Nat} (hk : Kept pts s0 s)
    (hp : [.qsc] ⊆ pts) : Kept pts s0 (s.deepSettle q) := by
  unfold State.deepSettle
  repeat' first
    | with_reducible assumption | intro _ | (guard_target =~ Kept _ _ _; extract_lets +lift)
    | with_reducible refine State.setQueue_kept ?_ (inAll (by decide) hp) | with_reducible apply Kept.ite

theorem State.flushLess_kept {pts : List Part} {s0 : State} {s : State} {q : Nat} {n : Nat} (hk : Kept pts s0 s)
    (hp : [.qsc] ⊆ pts) : Kept pts s0 (s.flushLess q n) := by
  unfold State.flushLess
  repeat' first
    | with_reducible assumption | intro _ | (guard_target =~ Kept _ _ _; extract_lets +lift)
    | with_reducible apply Kept.ite | (with_reducible refine Kept.fst (by assumption) ?_)
    | (simp -zeta only [keptMk]; (with_reducible refine KeptMk.upd ?_ rfl ?_); rotate_left;
        · intro p; cases p <;> first | exact .inl (hp (by decide)) | (right; dsimp only [Part.same]))
    | split

theorem State.popQueue_kept {pts : List Part} {s0 : State} {s : State} {q : Nat} {n : Nat} (hk : Kept pts s0 s)
    (hp : [.regs, .pf0, .pf1, .rng, .bpm, .adm, .qsc, .lin, .mil, .out] ⊆ pts) : Kept pts s0 (s.popQueue q n).1 := by
  unfold State.popQueue
  repeat' first
    | with_reducible assumption | intro _ | (guard_target =~ Kept _ _ _; extract_lets +lift)
    | with_reducible refine State.flushLess_kept ?_ (inAll (by decide) hp)
    | with_reducible refine State.setQueue_kept ?_ (inAll (by decide) hp)
    | with_reducible refine State.refillWatch_kept ?_ (inAll (by decide) hp)
    | with_reducible refine State.deepSettle_kept ?_ (inAll (by decide) hp)
    | with_reducible refine State.trimPages_kept ?_ (inAll (by decide) hp)
    | with_reducible refine State.dropCells_kept ?_ (inAll (by decide) hp)

theorem State.usedDown_kept {pts : List Part} {s0 : State} {s : State} {pg : Nat} {k : Nat} {n : Nat}
    (hk : Kept pts s0 s) (hp : [.regs] ⊆ pts) : Kept pts s0 (s.usedDown pg k n) := by
  unfold State.usedDown
  repeat' first
    | with_reducible assumption | intro _ | with_reducible refine State.set_kept ?_ (inAll (by decide) hp)

theorem State.sendData_kept {pts : List Part} {s0 : State} {s : State} {q : Nat} {c : List Byte × Nat}
    (hk : Kept pts s0 s) (hp : [.fab] ⊆ pts) : Kept pts s0 (s.sendData q c) := by
  unfold State.sendData
  repeat' first
    | with_reducible assumption | intro _ | (guard_target =~ Kept _ _ _; extract_lets +lift)
    | with_reducible refine State.putCell_kept ?_ (inAll (by decide) hp) | with_reducible apply Kept.ite
    | (with_reducible refine Kept.fst (by assumption) ?_)
    | (simp -zeta only [keptMk]; (with_reducible refine KeptMk.upd ?_ rfl ?_); rotate_left;
        · intro p; cases p <;> first | exact .inl (hp (by decide)) | (right; dsimp only [Part.same]))
    | split | dsimp +zetaDelta only

theorem State.closeStream_kept {pts : List Part} {s0 : State} {s : State} {q : Nat} (hk : Kept pts s0 s)
    (hp : [.qsc, .fab] ⊆ pts) : Kept pts s0 (s.closeStream q) := by
  unfold State.closeStream
  repeat' first
    | with_reducible assumption | intro _ | (guard_target =~ Kept _ _ _; extract_lets +lift)
    | with_reducible refine State.modQueue_kept ?_ (inAll (by decide) hp)
    | with_reducible refine State.sendData_kept ?_ (inAll (by decide) hp) | with_reducible apply Kept.ite

theorem State.stream_kept {pts : List Part} {s0 : State} {s : State} {q : Nat} {p : QPkt} (hk : Kept pts s0 s)
    (hp : [.qsc, .fab] ⊆ pts) : Kept pts s0 (s.stream q p) := by
  unfold State.stream
  repeat' first
    | with_reducible assumption | intro _ | (guard_target =~ Kept _ _ _; extract_lets +lift)
    | with_reducible refine State.modQueue_kept ?_ (inAll (by decide) hp)
    | with_reducible refine State.sendData_kept ?_ (inAll (by decide) hp) | with_reducible apply Kept.ite
    | (with_reducible apply Kept.foldl; rotate_left; intro _ _ _)

theorem State.voqSettle_kept {pts : List Part} {s0 : State} {s : State} {q : Nat} (hk : Kept pts s0 s)
    (hp : [.qsc, .fab] ⊆ pts) : Kept pts s0 (s.voqSettle q) := by
  unfold State.voqSettle
  repeat' first
    | with_reducible assumption | intro _ | (guard_target =~ Kept _ _ _; extract_lets +lift)
    | with_reducible refine State.closeStream_kept ?_ (inAll (by decide) hp)
    | with_reducible refine State.sendMsg_kept ?_ (inAll (by decide) hp)
    | with_reducible refine State.modQueue_kept ?_ (inAll (by decide) hp) | with_reducible apply Kept.ite
    | (with_reducible refine Kept.fst (by assumption) ?_)
    | (simp -zeta only [keptMk]; (with_reducible refine KeptMk.upd ?_ rfl ?_); rotate_left;
        · intro p; cases p <;> first | exact .inl (hp (by decide)) | (right; dsimp only [Part.same]))
    | split | dsimp +zetaDelta only

theorem State.portMark_kept {pts : List Part} {s0 : State} {s : State} {p : Nat} {bytes : Nat} {ns : Nat}
    (hk : Kept pts s0 s) (hp : [.qsc] ⊆ pts) : Kept pts s0 (s.portMark p bytes ns) := by
  unfold State.portMark
  repeat' first
    | with_reducible assumption | intro _ | (guard_target =~ Kept _ _ _; extract_lets +lift)
    | with_reducible apply Kept.ite | (with_reducible refine Kept.fst (by assumption) ?_)
    | (simp -zeta only [keptMk]; (with_reducible refine KeptMk.upd ?_ rfl ?_); rotate_left;
        · intro p; cases p <;> first | exact .inl (hp (by decide)) | (right; dsimp only [Part.same]))

theorem State.setDeficit_kept {pts : List Part} {s0 : State} {s : State} {level : Nat} {i : Nat} {d : Int}
    (hk : Kept pts s0 s) (hp : [.qsc] ⊆ pts) : Kept pts s0 (s.setDeficit level i d) := by
  unfold State.setDeficit
  repeat' first
    | with_reducible assumption | intro _ | (guard_target =~ Kept _ _ _; extract_lets +lift)
    | with_reducible apply Kept.ite | (with_reducible refine Kept.fst (by assumption) ?_)
    | (simp -zeta only [keptMk]; (with_reducible refine KeptMk.upd ?_ rfl ?_); rotate_left;
        · intro p; cases p <;> first | exact .inl (hp (by decide)) | (right; dsimp only [Part.same]))

theorem State.emptied_kept {pts : List Part} {s0 : State} {s : State} {q : Nat} (hk : Kept pts s0 s)
    (hp : [.qsc] ⊆ pts) : Kept pts s0 (s.emptied q) := by
  unfold State.emptied
  repeat' first
    | with_reducible assumption | intro _ | (guard_target =~ Kept _ _ _; extract_lets +lift)
    | with_reducible refine State.setDeficit_kept ?_ (inAll (by decide) hp)
    | with_reducible apply Kept.ite | (with_reducible apply Kept.foldl; rotate_left; intro _ _ _)

theorem State.dropHead_kept {pts : List Part} {s0 : State} {s : State} {q : Nat} {n : Nat} {cause : Nat}
    (hk : Kept pts s0 s) (hp : [.regs, .pf0, .pf1, .rng, .bpm, .adm, .qsc, .fab, .lin, .mil, .out] ⊆ pts)
    : Kept pts s0 (s.dropHead q n cause) := by
  unfold State.dropHead
  repeat' first
    | with_reducible assumption | intro _ | (guard_target =~ Kept _ _ _; extract_lets +lift)
    | with_reducible refine State.popQueue_kept ?_ (inAll (by decide) hp)
    | with_reducible refine State.countDrop_kept ?_ (inAll (by decide) hp)
    | with_reducible refine State.usedDown_kept ?_ (inAll (by decide) hp)
    | with_reducible refine State.voqSettle_kept ?_ (inAll (by decide) hp)
    | with_reducible refine State.emptied_kept ?_ (inAll (by decide) hp) | with_reducible apply Kept.ite
    | (with_reducible apply Kept.foldl; rotate_left; intro _ _ _)

theorem State.enqueue_kept {pts : List Part} {s0 : State} {s : State} {q : Nat} {p : QPkt} (hk : Kept pts s0 s)
    (hp : [.regs, .qsc, .lin, .out] ⊆ pts) : Kept pts s0 (s.enqueue q p) := by
  unfold State.enqueue
  repeat' first
    | with_reducible assumption | intro _ | (guard_target =~ Kept _ _ _; extract_lets +lift)
    | with_reducible refine State.setQueue_kept ?_ (inAll (by decide) hp)
    | with_reducible refine State.portMark_kept ?_ (inAll (by decide) hp)
    | with_reducible refine State.xoffWatch_kept ?_ (inAll (by decide) hp) | with_reducible apply Kept.ite

theorem State.admitDrop_kept {pts : List Part} {s0 : State} {s : State} {q : Nat} {cause : Nat} {len : Nat}
    {port : Nat} (hk : Kept pts s0 s) (hp : [.regs, .pf0, .pf1, .rng, .mil, .out] ⊆ pts)
    : Kept pts s0 (s.admitDrop q cause len port) := by
  unfold State.admitDrop
  repeat' first
    | with_reducible assumption | intro _ | (guard_target =~ Kept _ _ _; extract_lets +lift)
    | with_reducible refine State.raise_kept ?_ (inAll (by decide) hp)
    | with_reducible refine State.count_kept ?_ (inAll (by decide) hp)
    | with_reducible refine State.countDrop_kept ?_ (inAll (by decide) hp) | with_reducible apply Kept.ite

theorem State.judge_kept {pts : List Part} {s0 : State} {s : State} {q : Nat} {n : Nat} {len : Nat} {req : Option Nat}
    {loss : Option (Nat × Nat)} (hk : Kept pts s0 s) (hp : [.regs, .pf0, .pf1, .rng, .bpm, .lin, .mil, .out] ⊆ pts)
    : Kept pts s0 (s.judge q n len req loss).1 := by
  unfold State.judge
  repeat' first
    | with_reducible assumption | intro _ | (guard_target =~ Kept _ _ _; extract_lets +lift)
    | with_reducible refine State.xoff_kept ?_ (inAll (by decide) hp)
    | with_reducible refine State.cover_kept ?_ (inAll (by decide) hp) | with_reducible apply Kept.ite
    | (with_reducible refine Kept.fst (by assumption) ?_) | split | dsimp +zetaDelta only

theorem State.judged_kept {pts : List Part} {s0 : State} {s : State} {q : Nat} {req : Nat} {have_ : Option (List Nat)}
    {p : QPkt} (hk : Kept pts s0 s) (hp : [.regs, .pf0, .pf1, .rng, .bpm, .qsc, .lin, .mil, .out] ⊆ pts)
    : Kept pts s0 (s.judged q req have_ p).1 := by
  unfold State.judged
  repeat' first
    | with_reducible assumption | intro _ | (guard_target =~ Kept _ _ _; extract_lets +lift)
    | with_reducible refine State.judge_kept ?_ (inAll (by decide) hp)
    | with_reducible refine State.raise_kept ?_ (inAll (by decide) hp)
    | with_reducible refine State.dropCells_kept ?_ (inAll (by decide) hp)
    | with_reducible refine State.admitDrop_kept ?_ (inAll (by decide) hp)
    | with_reducible refine State.useHeadroom_kept ?_ (inAll (by decide) hp)
    | with_reducible refine State.useCells_kept ?_ (inAll (by decide) hp)
    | with_reducible refine State.enqueue_kept ?_ (inAll (by decide) hp) | with_reducible apply Kept.ite
    | (with_reducible refine Kept.fst (by assumption) ?_) | split | dsimp +zetaDelta only

theorem State.takeIn_kept {pts : List Part} {s0 : State} {s : State} {q : Nat} {req : Nat} {have_ : Option (List Nat)}
    {p : QPkt} (hk : Kept pts s0 s) (hp : [.regs, .pf0, .pf1, .rng, .bpm, .qsc, .lin, .mil, .out] ⊆ pts)
    : Kept pts s0 (s.takeIn q req have_ p).1 := by
  unfold State.takeIn
  repeat' first
    | with_reducible assumption | intro _ | (guard_target =~ Kept _ _ _; extract_lets +lift)
    | with_reducible refine State.judged_kept ?_ (inAll (by decide) hp) | with_reducible apply Kept.ite
    | (with_reducible refine Kept.fst (by assumption) ?_)
    | (simp -zeta only [keptMk]; (with_reducible refine KeptMk.upd ?_ rfl ?_); rotate_left;
        · intro p; cases p <;> first | exact .inl (hp (by decide)) | (right; dsimp only [Part.same]))
    | split

theorem State.takeLate_kept {pts : List Part} {s0 : State} {s : State} (hk : Kept pts s0 s)
    (hp : [.regs, .pf0, .pf1, .rng, .bpm, .qsc, .lin, .mil, .out] ⊆ pts) : Kept pts s0 (s.takeLate) := by
  unfold State.takeLate
  repeat' first
    | with_reducible assumption | intro _ | (guard_target =~ Kept _ _ _; extract_lets +lift)
    | with_reducible refine State.dropCells_kept ?_ (inAll (by decide) hp)
    | with_reducible refine State.admitDrop_kept ?_ (inAll (by decide) hp)
    | with_reducible refine State.judged_kept ?_ (inAll (by decide) hp)
    | with_reducible refine State.usedDown_kept ?_ (inAll (by decide) hp) | with_reducible apply Kept.ite
    | (with_reducible apply Kept.foldl; rotate_left; intro _ _ _)
    | (with_reducible refine Kept.fst (by assumption) ?_)
    | (simp -zeta only [keptMk]; (with_reducible refine KeptMk.upd ?_ rfl ?_); rotate_left;
        · intro p; cases p <;> first | exact .inl (hp (by decide)) | (right; dsimp only [Part.same]))
    | split | dsimp +zetaDelta only

theorem State.countDram_kept {pts : List Part} {s0 : State} {s : State} {n : Nat} {bytes : Nat} (hk : Kept pts s0 s)
    (hp : [.ddc] ⊆ pts) : Kept pts s0 (s.countDram n bytes) := by
  unfold State.countDram
  repeat' first
    | with_reducible assumption | intro _ | (guard_target =~ Kept _ _ _; extract_lets +lift)
    | with_reducible apply Kept.ite | (with_reducible refine Kept.fst (by assumption) ?_)
    | (simp -zeta only [keptMk]; (with_reducible refine KeptMk.upd ?_ rfl ?_); rotate_left;
        · intro p; cases p <;> first | exact .inl (hp (by decide)) | (right; dsimp only [Part.same]))

theorem State.setBucket_kept {pts : List Part} {s0 : State} {s : State} {level : Nat} {i : Nat} {b : Bucket}
    (hk : Kept pts s0 s) (hp : [.qsc] ⊆ pts) : Kept pts s0 (s.setBucket level i b) := by
  unfold State.setBucket
  repeat' first
    | with_reducible assumption | intro _ | (guard_target =~ Kept _ _ _; extract_lets +lift)
    | with_reducible apply Kept.ite | (with_reducible refine Kept.fst (by assumption) ?_)
    | (simp -zeta only [keptMk]; (with_reducible refine KeptMk.upd ?_ rfl ?_); rotate_left;
        · intro p; cases p <;> first | exact .inl (hp (by decide)) | (right; dsimp only [Part.same]))

theorem State.settleBucket_kept {pts : List Part} {s0 : State} {s : State} {level : Nat} {i : Nat}
    (hk : Kept pts s0 s) (hp : [.qsc] ⊆ pts) : Kept pts s0 (s.settleBucket level i) := by
  unfold State.settleBucket
  repeat' first
    | with_reducible assumption | intro _
    | with_reducible refine State.setBucket_kept ?_ (inAll (by decide) hp)

theorem State.newRates_kept {pts : List Part} {s0 : State} {s : State} {level : Nat} {i : Nat} (hk : Kept pts s0 s)
    (hp : [.regs, .qsc] ⊆ pts) : Kept pts s0 (s.newRates level i) := by
  unfold State.newRates
  repeat' first
    | with_reducible assumption | intro _ | (guard_target =~ Kept _ _ _; extract_lets +lift)
    | with_reducible refine State.setBucket_kept ?_ (inAll (by decide) hp)
    | with_reducible refine State.wr_kept ?_ (inAll (by decide) hp)

theorem State.police_kept {pts : List Part} {s0 : State} {s : State} {n : Nat} {len : Nat} {tos : Byte}
    (hk : Kept pts s0 s) (hp : [.ddc, .qsc] ⊆ pts) : Kept pts s0 (s.police n len tos).1 := by
  unfold State.police
  repeat' first
    | with_reducible assumption | intro _ | (guard_target =~ Kept _ _ _; extract_lets +lift)
    | with_reducible refine State.setBucket_kept ?_ (inAll (by decide) hp)
    | with_reducible refine State.countDram_kept ?_ (inAll (by decide) hp) | with_reducible apply Kept.ite

theorem State.toVoq_kept {pts : List Part} {s0 : State} {s : State} {m : Nat} {req : Nat} {have_ : Option (List Nat)}
    {p : QPkt} (hk : Kept pts s0 s) (hp : [.regs, .pf0, .pf1, .rng, .bpm, .qsc, .lin, .mil, .out] ⊆ pts)
    : Kept pts s0 (s.toVoq m req have_ p) := by
  unfold State.toVoq
  repeat' first
    | with_reducible assumption | intro _ | (guard_target =~ Kept _ _ _; extract_lets +lift)
    | with_reducible refine State.dropCells_kept ?_ (inAll (by decide) hp)
    | with_reducible refine State.admitDrop_kept ?_ (inAll (by decide) hp)
    | with_reducible refine State.takeIn_kept ?_ (inAll (by decide) hp) | with_reducible apply Kept.ite
    | (with_reducible refine Kept.fst (by assumption) ?_) | split | dsimp +zetaDelta only

theorem State.mirrorCopy_kept {pts : List Part} {s0 : State} {s : State} {m : Nat} {bytes : List Byte}
    {ts : Option (Nat × Nat)} {port : Nat} (hk : Kept pts s0 s)
    (hp : [.regs, .pf0, .pf1, .rng, .bpm, .qsc, .lin, .mil, .out] ⊆ pts)
    : Kept pts s0 (s.mirrorCopy m bytes ts port) := by
  unfold State.mirrorCopy
  repeat' first
    | with_reducible assumption | intro _ | (guard_target =~ Kept _ _ _; extract_lets +lift)
    | with_reducible refine State.cover_kept ?_ (inAll (by decide) hp)
    | with_reducible refine State.countDrop_kept ?_ (inAll (by decide) hp)
    | with_reducible refine State.useCells_kept ?_ (inAll (by decide) hp)
    | with_reducible refine State.toVoq_kept ?_ (inAll (by decide) hp) | with_reducible apply Kept.ite

theorem State.groupCells_kept {pts : List Part} {s0 : State} {s : State} {req : Nat} {n : Nat}
    {loss : Option (Nat × Nat)} (hk : Kept pts s0 s) (hp : [.regs, .pf0, .pf1, .rng, .bpm, .lin, .mil, .out] ⊆ pts)
    : Kept pts s0 (s.groupCells req n loss).1 := by
  unfold State.groupCells
  repeat' first
    | with_reducible assumption | intro _ | (guard_target =~ Kept _ _ _; extract_lets +lift)
    | with_reducible refine State.useHeadroom_kept ?_ (inAll (by decide) hp)
    | with_reducible refine State.raise_kept ?_ (inAll (by decide) hp)
    | with_reducible refine State.cover_kept ?_ (inAll (by decide) hp)
    | with_reducible refine State.useCells_kept ?_ (inAll (by decide) hp)
    | with_reducible refine State.xoffWatch_kept ?_ (inAll (by decide) hp)
    | with_reducible refine State.xoff_kept ?_ (inAll (by decide) hp) | with_reducible apply Kept.ite
    | (with_reducible refine Kept.fst (by assumption) ?_) | split | dsimp +zetaDelta only

theorem State.toReplicator_kept {pts : List Part} {s0 : State} {s : State} {x : XPkt} (hk : Kept pts s0 s)
    (hp : [.regs, .pf0, .pf1, .rng, .replQ, .bpm, .lin, .mil, .out] ⊆ pts) : Kept pts s0 (s.toReplicator x) := by
  unfold State.toReplicator
  repeat' first
    | with_reducible assumption | intro _ | (guard_target =~ Kept _ _ _; extract_lets +lift)
    | with_reducible refine State.admitDrop_kept ?_ (inAll (by decide) hp)
    | with_reducible refine State.groupCells_kept ?_ (inAll (by decide) hp)
    | with_reducible apply Kept.ite | (with_reducible refine Kept.fst (by assumption) ?_)
    | (simp -zeta only [keptMk]; (with_reducible refine KeptMk.upd ?_ rfl ?_); rotate_left;
        · intro p; cases p <;> first | exact .inl (hp (by decide)) | (right; dsimp only [Part.same]))
    | split

theorem State.admitTo_kept {pts : List Part} {s0 : State} {s : State} {x : XPkt} (hk : Kept pts s0 s)
    (hp : [.regs, .pf0, .pf1, .rng, .replQ, .bpm, .qsc, .lin, .mil, .out] ⊆ pts) : Kept pts s0 (s.admitTo x) := by
  unfold State.admitTo
  repeat' first
    | with_reducible assumption | intro _
    | with_reducible refine State.toVoq_kept ?_ (inAll (by decide) hp)
    | with_reducible refine State.toReplicator_kept ?_ (inAll (by decide) hp)
    | with_reducible refine State.mirrorCopy_kept ?_ (inAll (by decide) hp)
    | with_reducible apply Kept.ite | (with_reducible refine Kept.fst (by assumption) ?_) | split

theorem admission_kept {pts : List Part} {s0 : State} {s : State} (hk : Kept pts s0 s)
    (hp : [.regs, .pf0, .pf1, .rng, .replQ, .bpm, .adm, .ddc, .qsc, .lin, .mil, .out] ⊆ pts)
    : Kept pts s0 (admission s) := by
  unfold admission
  repeat' first
    | with_reducible assumption | intro _ | (guard_target =~ Kept _ _ _; extract_lets +lift)
    | with_reducible refine State.admitTo_kept ?_ (inAll (by decide) hp)
    | with_reducible refine State.police_kept ?_ (inAll (by decide) hp)
    | with_reducible refine State.mirrorCopy_kept ?_ (inAll (by decide) hp)
    | with_reducible refine State.admitDrop_kept ?_ (inAll (by decide) hp)
    | with_reducible refine State.roleDiscard_kept ?_ (inAll (by decide) hp)
    | with_reducible apply Kept.ite | (with_reducible refine Kept.fst (by assumption) ?_)
    | (simp -zeta only [keptMk]; (with_reducible refine KeptMk.upd ?_ rfl ?_); rotate_left;
        · intro p; cases p <;> first | exact .inl (hp (by decide)) | (right; dsimp only [Part.same]))
    | split | dsimp +zetaDelta only

theorem State.setCmp_kept {pts : List Part} {s0 : State} {s : State} {k : Nat} {x : CmpSt} (hk : Kept pts s0 s)
    (hp : [.prt] ⊆ pts) : Kept pts s0 (s.setCmp k x) := by
  unfold State.setCmp
  repeat' first
    | with_reducible assumption | intro _ | (guard_target =~ Kept _ _ _; extract_lets +lift)
    | with_reducible apply Kept.ite | (with_reducible refine Kept.fst (by assumption) ?_)
    | (simp -zeta only [keptMk]; (with_reducible refine KeptMk.upd ?_ rfl ?_); rotate_left;
        · intro p; cases p <;> first | exact .inl (hp (by decide)) | (right; dsimp only [Part.same]))

theorem State.formRecord_kept {pts : List Part} {s0 : State} {s : State} {p : Pkt} {d : Decision} (hk : Kept pts s0 s)
    (hp : [.prt] ⊆ pts) : Kept pts s0 (s.formRecord p d) := by
  unfold State.formRecord
  repeat' first
    | with_reducible assumption | intro _ | (guard_target =~ Kept _ _ _; extract_lets +lift)
    | with_reducible refine State.setCmp_kept ?_ (inAll (by decide) hp) | with_reducible apply Kept.ite

theorem State.releaseAlive_kept {pts : List Part} {s0 : State} {s : State} (hk : Kept pts s0 s) (hp : [.gen] ⊆ pts)
    : Kept pts s0 (s.releaseAlive) := by
  unfold State.releaseAlive
  repeat' first
    | with_reducible assumption | intro _ | (guard_target =~ Kept _ _ _; extract_lets +lift)
    | with_reducible apply Kept.ite | (with_reducible refine Kept.fst (by assumption) ?_)
    | (simp -zeta only [keptMk]; (with_reducible refine KeptMk.upd ?_ rfl ?_); rotate_left;
        · intro p; cases p <;> first | exact .inl (hp (by decide)) | (right; dsimp only [Part.same]))

theorem State.rolesLost_kept {pts : List Part} {s0 : State} {s : State} (hk : Kept pts s0 s)
    (hp : [.regs, .prt] ⊆ pts) : Kept pts s0 (s.rolesLost) := by
  unfold State.rolesLost
  repeat' first
    | with_reducible assumption | intro _ | (guard_target =~ Kept _ _ _; extract_lets +lift)
    | with_reducible refine State.takeRole_kept ?_ (inAll (by decide) hp) | with_reducible apply Kept.ite
    | (with_reducible apply Kept.foldl; rotate_left; intro _ _ _)
    | (with_reducible refine Kept.fst (by assumption) ?_)
    | (simp -zeta only [keptMk]; (with_reducible refine KeptMk.upd ?_ rfl ?_); rotate_left;
        · intro p; cases p <;> first | exact .inl (hp (by decide)) | (right; dsimp only [Part.same]))

theorem State.leaveRun_kept {pts : List Part} {s0 : State} {s : State} (hk : Kept pts s0 s)
    (hp : [.regs, .gen, .prt] ⊆ pts) : Kept pts s0 (s.leaveRun) := by
  unfold State.leaveRun
  repeat' first
    | with_reducible assumption | intro _ | (guard_target =~ Kept _ _ _; extract_lets +lift)
    | with_reducible refine State.rolesLost_kept ?_ (inAll (by decide) hp)
    | with_reducible refine State.releaseAlive_kept ?_ (inAll (by decide) hp)
    | with_reducible apply Kept.ite | (with_reducible refine Kept.fst (by assumption) ?_)
    | (simp -zeta only [keptMk]; (with_reducible refine KeptMk.upd ?_ rfl ?_); rotate_left;
        · intro p; cases p <;> first | exact .inl (hp (by decide)) | (right; dsimp only [Part.same]))
    | split | dsimp +zetaDelta only

theorem State.enterPhase_kept {pts : List Part} {s0 : State} {s : State} {p : Phase} (hk : Kept pts s0 s)
    (hp : [.regs, .gen, .pf0, .pf1, .rng, .prt, .mil, .out] ⊆ pts) : Kept pts s0 (s.enterPhase p) := by
  unfold State.enterPhase
  repeat' first
    | with_reducible assumption | intro _ | (guard_target =~ Kept _ _ _; extract_lets +lift)
    | with_reducible refine State.leaveRun_kept ?_ (inAll (by decide) hp)
    | with_reducible refine State.stageLog_kept ?_ (inAll (by decide) hp)
    | with_reducible refine State.raise_kept ?_ (inAll (by decide) hp) | with_reducible apply Kept.ite
    | (with_reducible refine Kept.fst (by assumption) ?_)
    | (simp -zeta only [keptMk]; (with_reducible refine KeptMk.upd ?_ rfl ?_); rotate_left;
        · intro p; cases p <;> first | exact .inl (hp (by decide)) | (right; dsimp only [Part.same]))
    | split | dsimp +zetaDelta only

theorem State.enterIsolate_kept {pts : List Part} {s0 : State} {s : State} {cause : Nat} (hk : Kept pts s0 s)
    (hp : [.freeCtr, .regs, .gen, .pf0, .pf1, .rng, .fab, .prt, .tim, .mil, .out] ⊆ pts)
    : Kept pts s0 (s.enterIsolate cause) := by
  unfold State.enterIsolate
  repeat' first
    | with_reducible assumption | intro _ | (guard_target =~ Kept _ _ _; extract_lets +lift)
    | with_reducible refine State.settleFab_kept ?_ (inAll (by decide) hp)
    | with_reducible refine State.releaseAlive_kept ?_ (inAll (by decide) hp)
    | with_reducible refine State.enterPhase_kept ?_ (inAll (by decide) hp)
    | with_reducible apply Kept.ite | (with_reducible refine Kept.fst (by assumption) ?_)
    | (simp -zeta only [keptMk]; (with_reducible refine KeptMk.upd ?_ rfl ?_); rotate_left;
        · intro p; cases p <;> first | exact .inl (hp (by decide)) | (right; dsimp only [Part.same]))
    | split | dsimp +zetaDelta only

theorem State.newFeltMarkers_kept {pts : List Part} {s0 : State} {s : State} {i : Nat} (hk : Kept pts s0 s)
    (hp : [.out] ⊆ pts) : Kept pts s0 (s.newFeltMarkers i) := by
  unfold State.newFeltMarkers
  repeat' first
    | with_reducible assumption | intro _ | (guard_target =~ Kept _ _ _; extract_lets +lift)
    | with_reducible refine State.emit_kept ?_ (inAll (by decide) hp) | with_reducible apply Kept.ite

theorem State.sendLane_kept {pts : List Part} {s0 : State} {s : State} {mtype : Nat} {body : List Byte} {lane : Nat}
    (hk : Kept pts s0 s) (hp : [.prt, .out] ⊆ pts) : Kept pts s0 (s.sendLane mtype body lane) := by
  unfold State.sendLane
  repeat' first
    | with_reducible assumption | intro _ | (guard_target =~ Kept _ _ _; extract_lets +lift)
    | with_reducible refine State.emit_kept ?_ (inAll (by decide) hp) | with_reducible apply Kept.ite
    | (with_reducible refine Kept.fst (by assumption) ?_)
    | (simp -zeta only [keptMk]; (with_reducible refine KeptMk.upd ?_ rfl ?_); rotate_left;
        · intro p; cases p <;> first | exact .inl (hp (by decide)) | (right; dsimp only [Part.same]))
    | split | dsimp +zetaDelta only

theorem State.sendFelt_kept {pts : List Part} {s0 : State} {s : State} {lane : Nat} {mtype : Nat} {body : List Byte}
    (hk : Kept pts s0 s) (hp : [.prt, .out] ⊆ pts) : Kept pts s0 (s.sendFelt lane mtype body) := by
  unfold State.sendFelt
  repeat' first
    | with_reducible assumption | intro _
    | with_reducible refine State.sendLane_kept ?_ (inAll (by decide) hp) | with_reducible apply Kept.ite
    | (with_reducible refine Kept.fst (by assumption) ?_) | split

theorem State.sendAll_kept {pts : List Part} {s0 : State} {s : State} {mtype : Nat} {body : List Byte}
    (hk : Kept pts s0 s) (hp : [.prt, .out] ⊆ pts) : Kept pts s0 (s.sendAll mtype body) := by
  unfold State.sendAll
  repeat' first
    | with_reducible assumption | intro _ | (guard_target =~ Kept _ _ _; extract_lets +lift)
    | with_reducible refine State.sendLane_kept ?_ (inAll (by decide) hp) | with_reducible apply Kept.ite
    | (with_reducible apply Kept.foldl; rotate_left; intro _ _ _)

theorem State.sendRole_kept {pts : List Part} {s0 : State} {s : State} {g : Nat} {op : Nat} {id : Nat} {t : Nat}
    (hk : Kept pts s0 s) (hp : [.prt, .out] ⊆ pts) : Kept pts s0 (s.sendRole g op id t) := by
  unfold State.sendRole
  repeat' first
    | with_reducible assumption | intro _
    | with_reducible refine State.sendAll_kept ?_ (inAll (by decide) hp)

theorem State.takeFelt_kept {pts : List Part} {s0 : State} {s : State} {lane : Nat} {msg : List Byte} {mtype : Nat}
    {f : List Byte → State → State} (hk : Kept pts s0 s) (hp : [.regs] ⊆ pts)
    (hf : ∀ m s, Kept pts s0 s → Kept pts s0 (f m s)) : Kept pts s0 (s.takeFelt lane msg mtype f) := by
  unfold State.takeFelt
  repeat' first
    | with_reducible assumption | intro _ | with_reducible apply hf | (guard_target =~ Kept _ _ _; extract_lets +lift)
    | with_reducible refine State.count_kept ?_ (inAll (by decide) hp) | with_reducible apply Kept.ite

theorem State.startSwitch_kept {pts : List Part} {s0 : State} {s : State} {g : Nat} {code : Nat} (hk : Kept pts s0 s)
    (hp : [.prt, .out] ⊆ pts) : Kept pts s0 (s.startSwitch g code) := by
  unfold State.startSwitch
  repeat' first
    | with_reducible assumption | intro _ | (guard_target =~ Kept _ _ _; extract_lets +lift)
    | with_reducible refine State.sendRole_kept ?_ (inAll (by decide) hp)
    | with_reducible refine State.modGroup_kept ?_ (inAll (by decide) hp) | with_reducible apply Kept.ite
    | (with_reducible refine Kept.fst (by assumption) ?_)
    | (simp -zeta only [keptMk]; (with_reducible refine KeptMk.upd ?_ rfl ?_); rotate_left;
        · intro p; cases p <;> first | exact .inl (hp (by decide)) | (right; dsimp only [Part.same]))
    | split | dsimp +zetaDelta only

theorem State.switched_kept {pts : List Part} {s0 : State} {s : State} {g : Nat} (hk : Kept pts s0 s)
    (hp : [.regs, .pf0, .pf1, .rng, .prt, .mil, .out] ⊆ pts) : Kept pts s0 (s.switched g) := by
  unfold State.switched
  repeat' first
    | with_reducible assumption | intro _ | (guard_target =~ Kept _ _ _; extract_lets +lift)
    | with_reducible refine State.modGroup_kept ?_ (inAll (by decide) hp)
    | with_reducible refine State.set_kept ?_ (inAll (by decide) hp)
    | with_reducible refine State.raiseAt_kept ?_ (inAll (by decide) hp) | with_reducible apply Kept.ite

theorem State.abandon_kept {pts : List Part} {s0 : State} {s : State} {g : Nat} {again : Bool} (hk : Kept pts s0 s)
    (hp : [.prt] ⊆ pts) : Kept pts s0 (s.abandon g again) := by
  unfold State.abandon
  repeat' first
    | with_reducible assumption | intro _
    | with_reducible refine State.modGroup_kept ?_ (inAll (by decide) hp)

theorem State.judgeGroup_kept {pts : List Part} {s0 : State} {s : State} {g : Nat} {wtrDone : Bool}
    (hk : Kept pts s0 s) (hp : [.regs, .pf0, .pf1, .rng, .prt, .mil, .out] ⊆ pts)
    : Kept pts s0 (s.judgeGroup g wtrDone) := by
  unfold State.judgeGroup
  repeat' first
    | with_reducible assumption | intro _ | (guard_target =~ Kept _ _ _; extract_lets +lift)
    | with_reducible refine State.setGroup_kept ?_ (inAll (by decide) hp)
    | with_reducible refine State.startSwitch_kept ?_ (inAll (by decide) hp)
    | with_reducible refine State.raiseAt_kept ?_ (inAll (by decide) hp) | with_reducible apply Kept.ite

theorem State.leaveSettle_kept {pts : List Part} {s0 : State} {s : State} (hk : Kept pts s0 s)
    (hp : [.freeCtr, .regs, .gen, .pf0, .pf1, .rng, .fab, .prt, .tim, .mil, .out] ⊆ pts)
    : Kept pts s0 (s.leaveSettle) := by
  unfold State.leaveSettle
  repeat' first
    | with_reducible assumption | intro _ | (guard_target =~ Kept _ _ _; extract_lets +lift)
    | with_reducible refine State.enterIsolate_kept ?_ (inAll (by decide) hp)
    | with_reducible apply Kept.ite | (with_reducible refine Kept.fst (by assumption) ?_)
    | (simp -zeta only [keptMk]; (with_reducible refine KeptMk.upd ?_ rfl ?_); rotate_left;
        · intro p; cases p <;> first | exact .inl (hp (by decide)) | (right; dsimp only [Part.same]))
    | split

theorem State.initRole_kept {pts : List Part} {s0 : State} {s : State} {g : Nat} (hk : Kept pts s0 s)
    (hp : [.regs, .prt] ⊆ pts) : Kept pts s0 (s.initRole g) := by
  unfold State.initRole
  repeat' first
    | with_reducible assumption | intro _ | (guard_target =~ Kept _ _ _; extract_lets +lift)
    | with_reducible refine State.modGroup_kept ?_ (inAll (by decide) hp)
    | with_reducible refine State.takeRole_kept ?_ (inAll (by decide) hp)

theorem State.claim_kept {pts : List Part} {s0 : State} {s : State} (hk : Kept pts s0 s)
    (hp : [.regs, .pf0, .pf1, .rng, .prt, .mil, .out] ⊆ pts) : Kept pts s0 (s.claim) := by
  unfold State.claim
  repeat' first
    | with_reducible assumption | intro _ | (guard_target =~ Kept _ _ _; extract_lets +lift)
    | with_reducible refine State.switched_kept ?_ (inAll (by decide) hp)
    | with_reducible refine State.modGroup_kept ?_ (inAll (by decide) hp)
    | with_reducible refine State.takeRole_kept ?_ (inAll (by decide) hp)
    | with_reducible refine State.raiseAt_kept ?_ (inAll (by decide) hp) | with_reducible apply Kept.ite
    | (with_reducible apply Kept.foldl; rotate_left; intro _ _ _)
    | (with_reducible refine Kept.fst (by assumption) ?_) | split | dsimp +zetaDelta only

theorem State.feltLost_kept {pts : List Part} {s0 : State} {s : State} (hk : Kept pts s0 s)
    (hp : [.regs, .pf0, .pf1, .rng, .sem, .prt, .mil, .out] ⊆ pts) : Kept pts s0 (s.feltLost) := by
  unfold State.feltLost
  repeat' first
    | with_reducible assumption | intro _ | (guard_target =~ Kept _ _ _; extract_lets +lift)
    | with_reducible refine State.setCmp_kept ?_ (inAll (by decide) hp)
    | with_reducible refine State.raise_kept ?_ (inAll (by decide) hp)
    | with_reducible refine State.autoRelease_kept ?_ (inAll (by decide) hp)
    | with_reducible apply Kept.ite | (with_reducible apply Kept.foldl; rotate_left; intro _ _ _)
    | (with_reducible refine Kept.fst (by assumption) ?_)
    | (simp -zeta only [keptMk]; (with_reducible refine KeptMk.upd ?_ rfl ?_); rotate_left;
        · intro p; cases p <;> first | exact .inl (hp (by decide)) | (right; dsimp only [Part.same]))
    | split | dsimp +zetaDelta only

theorem State.signs_kept {pts : List Part} {s0 : State} {s : State} (hk : Kept pts s0 s)
    (hp : [.regs, .pf0, .pf1, .rng, .sem, .prt, .mil, .out] ⊆ pts) : Kept pts s0 (s.signs) := by
  unfold State.signs
  repeat' first
    | with_reducible assumption | intro _ | (guard_target =~ Kept _ _ _; extract_lets +lift)
    | with_reducible refine State.feltLost_kept ?_ (inAll (by decide) hp) | with_reducible apply Kept.ite
    | (with_reducible refine Kept.fst (by assumption) ?_)
    | (simp -zeta only [keptMk]; (with_reducible refine KeptMk.upd ?_ rfl ?_); rotate_left;
        · intro p; cases p <;> first | exact .inl (hp (by decide)) | (right; dsimp only [Part.same]))

theorem State.pairSettle_kept {pts : List Part} {s0 : State} {s : State} (hk : Kept pts s0 s)
    (hp : [.regs, .pf0, .pf1, .rng, .prt, .mil, .out] ⊆ pts) : Kept pts s0 (s.pairSettle) := by
  unfold State.pairSettle
  repeat' first
    | with_reducible assumption | intro _ | (guard_target =~ Kept _ _ _; extract_lets +lift)
    | with_reducible refine State.modGroup_kept ?_ (inAll (by decide) hp)
    | with_reducible refine State.raise_kept ?_ (inAll (by decide) hp)
    | with_reducible refine State.claim_kept ?_ (inAll (by decide) hp) | with_reducible apply Kept.ite
    | (with_reducible apply Kept.foldl; rotate_left; intro _ _ _)
    | (with_reducible refine Kept.fst (by assumption) ?_)
    | (simp -zeta only [keptMk]; (with_reducible refine KeptMk.upd ?_ rfl ?_); rotate_left;
        · intro p; cases p <;> first | exact .inl (hp (by decide)) | (right; dsimp only [Part.same]))
    | split | dsimp +zetaDelta only

theorem State.protJudge_kept {pts : List Part} {s0 : State} {s : State} (hk : Kept pts s0 s)
    (hp : [.freeCtr, .regs, .gen, .pf0, .pf1, .rng, .sem, .fab, .prt, .tim, .mil, .out] ⊆ pts)
    : Kept pts s0 (s.protJudge) := by
  unfold State.protJudge
  repeat' first
    | with_reducible assumption | intro _ | (guard_target =~ Kept _ _ _; extract_lets +lift)
    | with_reducible refine State.pairSettle_kept ?_ (inAll (by decide) hp)
    | with_reducible refine State.signs_kept ?_ (inAll (by decide) hp)
    | with_reducible refine State.initRole_kept ?_ (inAll (by decide) hp)
    | with_reducible refine State.judgeGroup_kept ?_ (inAll (by decide) hp)
    | with_reducible refine State.leaveSettle_kept ?_ (inAll (by decide) hp)
    | with_reducible apply Kept.ite | (with_reducible apply Kept.foldl; rotate_left; intro _ _ _)

theorem State.couchDiscard_kept {pts : List Part} {s0 : State} {s : State} {slice : Nat} (hk : Kept pts s0 s)
    (hp : [.regs] ⊆ pts) : Kept pts s0 (s.couchDiscard slice) := by
  unfold State.couchDiscard
  repeat' first
    | with_reducible assumption | intro _ | (guard_target =~ Kept _ _ _; extract_lets +lift)
    | with_reducible refine State.count_kept ?_ (inAll (by decide) hp) | with_reducible apply Kept.ite

theorem State.couchSend_kept {pts : List Part} {s0 : State} {s : State} {slice : Nat} {u : CouchUnit} {size : Nat}
    (hk : Kept pts s0 s) (hp : [.regs, .couch] ⊆ pts) : Kept pts s0 (s.couchSend slice u size) := by
  unfold State.couchSend
  repeat' first
    | with_reducible assumption | intro _ | (guard_target =~ Kept _ _ _; extract_lets +lift)
    | with_reducible refine State.couchDiscard_kept ?_ (inAll (by decide) hp)
    | with_reducible apply Kept.ite | (with_reducible refine Kept.fst (by assumption) ?_)
    | (simp -zeta only [keptMk]; (with_reducible refine KeptMk.upd ?_ rfl ?_); rotate_left;
        · intro p; cases p <;> first | exact .inl (hp (by decide)) | (right; dsimp only [Part.same]))

theorem State.settleExit_kept {pts : List Part} {s0 : State} {s : State} (hk : Kept pts s0 s)
    (hp : [.regs, .couch, .ing] ⊆ pts) : Kept pts s0 (s.settleExit) := by
  unfold State.settleExit
  repeat' first
    | with_reducible assumption | intro _ | (guard_target =~ Kept _ _ _; extract_lets +lift)
    | with_reducible refine State.couchSend_kept ?_ (inAll (by decide) hp) | with_reducible apply Kept.ite
    | (with_reducible apply Kept.foldl; rotate_left; intro _ _ _)
    | (with_reducible refine Kept.fst (by assumption) ?_)
    | (simp -zeta only [keptMk]; (with_reducible refine KeptMk.upd ?_ rfl ?_); rotate_left;
        · intro p; cases p <;> first | exact .inl (hp (by decide)) | (right; dsimp only [Part.same]))

theorem State.modPkt_kept {pts : List Part} {s0 : State} {s : State} {q : Pkt → Bool} {f : Pkt → Pkt}
    (hk : Kept pts s0 s) (hp : [.ing] ⊆ pts) : Kept pts s0 (s.modPkt q f) := by
  unfold State.modPkt
  repeat' first
    | with_reducible assumption | intro _ | (guard_target =~ Kept _ _ _; extract_lets +lift)
    | with_reducible apply Kept.ite | (with_reducible refine Kept.fst (by assumption) ?_)
    | (simp -zeta only [keptMk]; (with_reducible refine KeptMk.upd ?_ rfl ?_); rotate_left;
        · intro p; cases p <;> first | exact .inl (hp (by decide)) | (right; dsimp only [Part.same]))

theorem State.dropPkt_kept {pts : List Part} {s0 : State} {s : State} {q : Pkt → Bool} (hk : Kept pts s0 s)
    (hp : [.regs, .couch, .ing] ⊆ pts) : Kept pts s0 (s.dropPkt q) := by
  unfold State.dropPkt
  repeat' first
    | with_reducible assumption | intro _ | (guard_target =~ Kept _ _ _; extract_lets +lift)
    | with_reducible refine State.settleExit_kept ?_ (inAll (by decide) hp)
    | with_reducible apply Kept.ite | (with_reducible refine Kept.fst (by assumption) ?_)
    | (simp -zeta only [keptMk]; (with_reducible refine KeptMk.upd ?_ rfl ?_); rotate_left;
        · intro p; cases p <;> first | exact .inl (hp (by decide)) | (right; dsimp only [Part.same]))
    | split | dsimp +zetaDelta only

theorem State.dropAt_kept {pts : List Part} {s0 : State} {s : State} {p : Pkt} {q : Pkt → Bool} {cause : Nat}
    {d : Decision} (hk : Kept pts s0 s) (hp : [.regs, .couch, .ing, .prt] ⊆ pts)
    : Kept pts s0 (s.dropAt p q cause d) := by
  unfold State.dropAt
  repeat' first
    | with_reducible assumption | intro _ | (guard_target =~ Kept _ _ _; extract_lets +lift)
    | with_reducible refine State.dropPkt_kept ?_ (inAll (by decide) hp)
    | with_reducible refine State.formRecord_kept ?_ (inAll (by decide) hp)
    | with_reducible refine State.countDrop_kept ?_ (inAll (by decide) hp)

theorem packetDispatch_kept {pts : List Part} {s0 : State} {slice : Fin 16} {idle : Fin 64} {older : Bool} {s : State}
    (hk : Kept pts s0 s) (hp : [.regs, .couch, .ing, .arrivals] ⊆ pts)
    : Kept pts s0 (packetDispatch slice idle older s) := by
  unfold packetDispatch
  repeat' first
    | with_reducible assumption | intro _ | (guard_target =~ Kept _ _ _; extract_lets +lift)
    | with_reducible refine State.settleExit_kept ?_ (inAll (by decide) hp)
    | with_reducible apply Kept.ite | (with_reducible refine Kept.fst (by assumption) ?_)
    | (simp -zeta only [keptMk]; (with_reducible refine KeptMk.upd ?_ rfl ?_); rotate_left;
        · intro p; cases p <;> first | exact .inl (hp (by decide)) | (right; dsimp only [Part.same]))
    | split | dsimp +zetaDelta only

theorem State.malformed_kept {pts : List Part} {s0 : State} {s : State} {e : Nat} {p : Pkt} {c : Nat}
    (hk : Kept pts s0 s) (hp : [.regs, .couch, .pf0, .pf1, .rng, .ing, .prt, .mil, .out] ⊆ pts)
    : Kept pts s0 (s.malformed e p c) := by
  unfold State.malformed
  repeat' first
    | with_reducible assumption | intro _ | (guard_target =~ Kept _ _ _; extract_lets +lift)
    | with_reducible refine State.raiseAt_kept ?_ (inAll (by decide) hp)
    | with_reducible refine State.count_kept ?_ (inAll (by decide) hp)
    | with_reducible refine State.modPkt_kept ?_ (inAll (by decide) hp)
    | with_reducible refine State.formRecord_kept ?_ (inAll (by decide) hp)
    | with_reducible refine State.settleExit_kept ?_ (inAll (by decide) hp)
    | with_reducible refine State.dropAt_kept ?_ (inAll (by decide) hp) | with_reducible apply Kept.ite

theorem State.parseFin_kept {pts : List Part} {s0 : State} {s : State} {e : Nat} {x : ParseEnd} (hk : Kept pts s0 s)
    (hp : [.regs, .couch, .pf0, .pf1, .rng, .ing, .prt, .mil, .out] ⊆ pts) : Kept pts s0 (s.parseFin e x) := by
  unfold State.parseFin
  repeat' first
    | with_reducible assumption | intro _ | (guard_target =~ Kept _ _ _; extract_lets +lift)
    | with_reducible refine State.modPkt_kept ?_ (inAll (by decide) hp)
    | with_reducible refine State.raiseAt_kept ?_ (inAll (by decide) hp)
    | with_reducible refine State.count_kept ?_ (inAll (by decide) hp)
    | with_reducible refine State.malformed_kept ?_ (inAll (by decide) hp) | with_reducible apply Kept.ite
    | (with_reducible refine Kept.fst (by assumption) ?_) | split

theorem State.parseBad_kept {pts : List Part} {s0 : State} {s : State} {e : Nat} {p : Pkt} {t : Nat} {i : Nat}
    {n : Nat} (hk : Kept pts s0 s) (hp : [.regs, .couch, .pf0, .pf1, .rng, .ing, .tab, .cmt, .prt, .mil, .out] ⊆ pts)
    : Kept pts s0 (s.parseBad e p t i n) := by
  unfold State.parseBad
  repeat' first
    | with_reducible assumption | intro _ | (guard_target =~ Kept _ _ _; extract_lets +lift)
    | with_reducible refine State.dropAt_kept ?_ (inAll (by decide) hp)
    | with_reducible refine State.logBad_kept ?_ (inAll (by decide) hp)
    | with_reducible refine State.badVer_kept ?_ (inAll (by decide) hp)

theorem State.fetchCheck_kept {pts : List Part} {s0 : State} {s : State} {e : Nat} (hk : Kept pts s0 s)
    (hp : [.regs, .couch, .pf0, .pf1, .rng, .ing, .prt, .mil, .out] ⊆ pts) : Kept pts s0 (s.fetchCheck e) := by
  unfold State.fetchCheck
  repeat' first
    | with_reducible assumption | intro _ | (guard_target =~ Kept _ _ _; extract_lets +lift)
    | with_reducible refine State.parseFin_kept ?_ (inAll (by decide) hp) | with_reducible apply Kept.ite
    | (with_reducible refine Kept.fst (by assumption) ?_) | split

theorem parseStart_kept {pts : List Part} {s0 : State} {pipe : Fin 64} {bad : Bool} {s : State} (hk : Kept pts s0 s)
    (hp : [.regs, .couch, .pf0, .pf1, .rng, .ing, .tab, .cmt, .prt, .mil, .out] ⊆ pts)
    : Kept pts s0 (parseStart pipe bad s) := by
  unfold parseStart
  repeat' first
    | with_reducible assumption | intro _ | (guard_target =~ Kept _ _ _; extract_lets +lift)
    | with_reducible refine State.parseFin_kept ?_ (inAll (by decide) hp)
    | with_reducible refine State.modPkt_kept ?_ (inAll (by decide) hp)
    | with_reducible refine State.parseBad_kept ?_ (inAll (by decide) hp)
    | with_reducible refine State.fetchCheck_kept ?_ (inAll (by decide) hp)
    | with_reducible apply Kept.ite | (with_reducible refine Kept.fst (by assumption) ?_)
    | (simp -zeta only [keptMk]; (with_reducible refine KeptMk.upd ?_ rfl ?_); rotate_left;
        · intro p; cases p <;> first | exact .inl (hp (by decide)) | (right; dsimp only [Part.same]))
    | split | dsimp +zetaDelta only

theorem State.parseInstr_kept {pts : List Part} {s0 : State} {s : State} {code : Nat} {op : ParseOp} {e : Nat}
    {bad : Bool} (hk : Kept pts s0 s)
    (hp : [.regs, .couch, .pf0, .pf1, .rng, .ing, .tab, .cmt, .prt, .mil, .out] ⊆ pts)
    : Kept pts s0 (s.parseInstr code op e bad) := by
  unfold State.parseInstr
  repeat' first
    | with_reducible assumption | intro _ | (guard_target =~ Kept _ _ _; extract_lets +lift)
    | with_reducible refine State.parseFin_kept ?_ (inAll (by decide) hp)
    | with_reducible refine State.parseBad_kept ?_ (inAll (by decide) hp)
    | with_reducible refine State.count_kept ?_ (inAll (by decide) hp)
    | with_reducible refine State.modPkt_kept ?_ (inAll (by decide) hp)
    | with_reducible refine State.fetchCheck_kept ?_ (inAll (by decide) hp)
    | with_reducible apply Kept.ite | (with_reducible refine Kept.fst (by assumption) ?_) | split

theorem nop_kept {pts : List Part} {s0 : State} {e : Fin 8192} {bad : Bool} {s : State} (hk : Kept pts s0 s)
    (hp : [.regs, .couch, .pf0, .pf1, .rng, .ing, .tab, .cmt, .prt, .mil, .out] ⊆ pts)
    : Kept pts s0 (nop e bad s) := by
  unfold nop
  repeat' first
    | with_reducible assumption | intro _
    | with_reducible refine State.parseInstr_kept ?_ (inAll (by decide) hp)

theorem ldw_kept {pts : List Part} {s0 : State} {e : Fin 8192} {bad : Bool} {s : State} (hk : Kept pts s0 s)
    (hp : [.regs, .couch, .pf0, .pf1, .rng, .ing, .tab, .cmt, .prt, .mil, .out] ⊆ pts)
    : Kept pts s0 (ldw e bad s) := by
  unfold ldw
  repeat' first
    | with_reducible assumption | intro _
    | with_reducible refine State.parseInstr_kept ?_ (inAll (by decide) hp)

theorem alu_kept {pts : List Part} {s0 : State} {e : Fin 8192} {bad : Bool} {s : State} (hk : Kept pts s0 s)
    (hp : [.regs, .couch, .pf0, .pf1, .rng, .ing, .tab, .cmt, .prt, .mil, .out] ⊆ pts)
    : Kept pts s0 (alu e bad s) := by
  unfold alu
  repeat' first
    | with_reducible assumption | intro _
    | with_reducible refine State.parseInstr_kept ?_ (inAll (by decide) hp)

theorem adv_kept {pts : List Part} {s0 : State} {e : Fin 8192} {bad : Bool} {s : State} (hk : Kept pts s0 s)
    (hp : [.regs, .couch, .pf0, .pf1, .rng, .ing, .tab, .cmt, .prt, .mil, .out] ⊆ pts)
    : Kept pts s0 (adv e bad s) := by
  unfold adv
  repeat' first
    | with_reducible assumption | intro _
    | with_reducible refine State.parseInstr_kept ?_ (inAll (by decide) hp)

theorem hdr_kept {pts : List Part} {s0 : State} {e : Fin 8192} {bad : Bool} {s : State} (hk : Kept pts s0 s)
    (hp : [.regs, .couch, .pf0, .pf1, .rng, .ing, .tab, .cmt, .prt, .mil, .out] ⊆ pts)
    : Kept pts s0 (hdr e bad s) := by
  unfold hdr
  repeat' first
    | with_reducible assumption | intro _
    | with_reducible refine State.parseInstr_kept ?_ (inAll (by decide) hp)

theorem key_kept {pts : List Part} {s0 : State} {e : Fin 8192} {bad : Bool} {s : State} (hk : Kept pts s0 s)
    (hp : [.regs, .couch, .pf0, .pf1, .rng, .ing, .tab, .cmt, .prt, .mil, .out] ⊆ pts)
    : Kept pts s0 (key e bad s) := by
  unfold key
  repeat' first
    | with_reducible assumption | intro _
    | with_reducible refine State.parseInstr_kept ?_ (inAll (by decide) hp)

theorem keyr_kept {pts : List Part} {s0 : State} {e : Fin 8192} {bad : Bool} {s : State} (hk : Kept pts s0 s)
    (hp : [.regs, .couch, .pf0, .pf1, .rng, .ing, .tab, .cmt, .prt, .mil, .out] ⊆ pts)
    : Kept pts s0 (keyr e bad s) := by
  unfold keyr
  repeat' first
    | with_reducible assumption | intro _
    | with_reducible refine State.parseInstr_kept ?_ (inAll (by decide) hp)

theorem br_kept {pts : List Part} {s0 : State} {e : Fin 8192} {bad : Bool} {s : State} (hk : Kept pts s0 s)
    (hp : [.regs, .couch, .pf0, .pf1, .rng, .ing, .tab, .cmt, .prt, .mil, .out] ⊆ pts)
    : Kept pts s0 (br e bad s) := by
  unfold br
  repeat' first
    | with_reducible assumption | intro _
    | with_reducible refine State.parseInstr_kept ?_ (inAll (by decide) hp)

theorem jmp_kept {pts : List Part} {s0 : State} {e : Fin 8192} {bad : Bool} {s : State} (hk : Kept pts s0 s)
    (hp : [.regs, .couch, .pf0, .pf1, .rng, .ing, .tab, .cmt, .prt, .mil, .out] ⊆ pts)
    : Kept pts s0 (jmp e bad s) := by
  unfold jmp
  repeat' first
    | with_reducible assumption | intro _
    | with_reducible refine State.parseInstr_kept ?_ (inAll (by decide) hp)

theorem chk_kept {pts : List Part} {s0 : State} {e : Fin 8192} {bad : Bool} {s : State} (hk : Kept pts s0 s)
    (hp : [.regs, .couch, .pf0, .pf1, .rng, .ing, .tab, .cmt, .prt, .mil, .out] ⊆ pts)
    : Kept pts s0 (chk e bad s) := by
  unfold chk
  repeat' first
    | with_reducible assumption | intro _
    | with_reducible refine State.parseInstr_kept ?_ (inAll (by decide) hp)

theorem trim_kept {pts : List Part} {s0 : State} {e : Fin 8192} {bad : Bool} {s : State} (hk : Kept pts s0 s)
    (hp : [.regs, .couch, .pf0, .pf1, .rng, .ing, .tab, .cmt, .prt, .mil, .out] ⊆ pts)
    : Kept pts s0 (trim e bad s) := by
  unfold trim
  repeat' first
    | with_reducible assumption | intro _
    | with_reducible refine State.parseInstr_kept ?_ (inAll (by decide) hp)

theorem movs_kept {pts : List Part} {s0 : State} {e : Fin 8192} {bad : Bool} {s : State} (hk : Kept pts s0 s)
    (hp : [.regs, .couch, .pf0, .pf1, .rng, .ing, .tab, .cmt, .prt, .mil, .out] ⊆ pts)
    : Kept pts s0 (movs e bad s) := by
  unfold movs
  repeat' first
    | with_reducible assumption | intro _
    | with_reducible refine State.parseInstr_kept ?_ (inAll (by decide) hp)

theorem flag_kept {pts : List Part} {s0 : State} {e : Fin 8192} {bad : Bool} {s : State} (hk : Kept pts s0 s)
    (hp : [.regs, .couch, .pf0, .pf1, .rng, .ing, .tab, .cmt, .prt, .mil, .out] ⊆ pts)
    : Kept pts s0 (flag e bad s) := by
  unfold flag
  repeat' first
    | with_reducible assumption | intro _
    | with_reducible refine State.parseInstr_kept ?_ (inAll (by decide) hp)

theorem brw_kept {pts : List Part} {s0 : State} {e : Fin 8192} {bad : Bool} {s : State} (hk : Kept pts s0 s)
    (hp : [.regs, .couch, .pf0, .pf1, .rng, .ing, .tab, .cmt, .prt, .mil, .out] ⊆ pts)
    : Kept pts s0 (brw e bad s) := by
  unfold brw
  repeat' first
    | with_reducible assumption | intro _
    | with_reducible refine State.parseInstr_kept ?_ (inAll (by decide) hp)

theorem dec_kept {pts : List Part} {s0 : State} {e : Fin 8192} {bad : Bool} {s : State} (hk : Kept pts s0 s)
    (hp : [.regs, .couch, .pf0, .pf1, .rng, .ing, .tab, .cmt, .prt, .mil, .out] ⊆ pts)
    : Kept pts s0 (dec e bad s) := by
  unfold dec
  repeat' first
    | with_reducible assumption | intro _
    | with_reducible refine State.parseInstr_kept ?_ (inAll (by decide) hp)

theorem done_kept {pts : List Part} {s0 : State} {e : Fin 8192} {bad : Bool} {s : State} (hk : Kept pts s0 s)
    (hp : [.regs, .couch, .pf0, .pf1, .rng, .ing, .tab, .cmt, .prt, .mil, .out] ⊆ pts)
    : Kept pts s0 (done e bad s) := by
  unfold done
  repeat' first
    | with_reducible assumption | intro _
    | with_reducible refine State.parseInstr_kept ?_ (inAll (by decide) hp)

theorem parseStepLimit_kept {pts : List Part} {s0 : State} {e : Fin 8192} {s : State} (hk : Kept pts s0 s)
    (hp : [.regs, .couch, .pf0, .pf1, .rng, .ing, .prt, .mil, .out] ⊆ pts) : Kept pts s0 (parseStepLimit e s) := by
  unfold parseStepLimit
  repeat' first
    | with_reducible assumption | intro _ | (guard_target =~ Kept _ _ _; extract_lets +lift)
    | with_reducible refine State.parseFin_kept ?_ (inAll (by decide) hp) | with_reducible apply Kept.ite
    | (with_reducible refine Kept.fst (by assumption) ?_) | split

theorem parseResultDelivery_kept {pts : List Part} {s0 : State} {pipe : Fin 64} {s : State} (hk : Kept pts s0 s)
    (hp : [.ing] ⊆ pts) : Kept pts s0 (parseResultDelivery pipe s) := by
  unfold parseResultDelivery
  repeat' first
    | with_reducible assumption | intro _ | (guard_target =~ Kept _ _ _; extract_lets +lift)
    | with_reducible refine State.modPkt_kept ?_ (inAll (by decide) hp) | with_reducible apply Kept.ite
    | (with_reducible refine Kept.fst (by assumption) ?_) | split

theorem State.readPkt_kept {pts : List Part} {s0 : State} {s : State} {t : Nat} {i : Nat} {tag : Nat}
    (hk : Kept pts s0 s) (hp : [.regs, .pf0, .pf1, .rng, .mil, .out] ⊆ pts) : Kept pts s0 (s.readPkt t i tag).1 := by
  unfold State.readPkt
  repeat' first
    | with_reducible assumption | intro _
    | with_reducible refine State.logBad_kept ?_ (inAll (by decide) hp) | with_reducible apply Kept.ite
    | (with_reducible refine Kept.fst (by assumption) ?_) | split

theorem State.readProf_kept {pts : List Part} {s0 : State} {s : State} {n : Nat} {tag : Nat} (hk : Kept pts s0 s)
    (hp : [.regs, .pf0, .pf1, .rng, .mil, .out] ⊆ pts) : Kept pts s0 (s.readProf n tag).1 := by
  unfold State.readProf
  repeat' first
    | with_reducible assumption | intro _
    | with_reducible refine State.readPkt_kept ?_ (inAll (by decide) hp)

theorem State.issueB_kept {pts : List Part} {s0 : State} {s : State} {pipe : Nat} (hk : Kept pts s0 s)
    (hp : [.regs, .pf0, .pf1, .rng, .ing, .mil, .out] ⊆ pts) : Kept pts s0 (s.issueB pipe) := by
  unfold State.issueB
  repeat' first
    | with_reducible assumption | intro _ | (guard_target =~ Kept _ _ _; extract_lets +lift)
    | with_reducible refine State.readProf_kept ?_ (inAll (by decide) hp)
    | with_reducible refine State.modPkt_kept ?_ (inAll (by decide) hp) | with_reducible apply Kept.ite
    | (with_reducible refine Kept.fst (by assumption) ?_) | split

theorem keyBuild_kept {pts : List Part} {s0 : State} {pipe : Fin 64} {upset : List TableWord} {s : State}
    (hk : Kept pts s0 s) (hp : [.regs, .pf0, .pf1, .rng, .ing, .tab, .cmt, .mil, .out] ⊆ pts)
    : Kept pts s0 (keyBuild pipe upset s) := by
  unfold keyBuild
  repeat' first
    | with_reducible assumption | intro _ | (guard_target =~ Kept _ _ _; extract_lets +lift)
    | with_reducible refine State.upsets_kept ?_ (inAll (by decide) hp)
    | with_reducible refine State.readPkt_kept ?_ (inAll (by decide) hp)
    | with_reducible refine State.readProf_kept ?_ (inAll (by decide) hp)
    | with_reducible refine State.modPkt_kept ?_ (inAll (by decide) hp)
    | with_reducible refine State.issueB_kept ?_ (inAll (by decide) hp) | with_reducible apply Kept.ite
    | (with_reducible refine Kept.fst (by assumption) ?_) | split

theorem State.answer_kept {pts : List Part} {s0 : State} {s : State} {pipe : Nat} {d : Nat} {target : Nat}
    {fwd : Bool} {res : LkRes} (hk : Kept pts s0 s) (hp : [.regs, .pf0, .pf1, .rng, .ing, .mil, .out] ⊆ pts)
    : Kept pts s0 (s.answer pipe d target fwd res) := by
  unfold State.answer
  repeat' first
    | with_reducible assumption | intro _ | (guard_target =~ Kept _ _ _; extract_lets +lift)
    | with_reducible refine State.issueB_kept ?_ (inAll (by decide) hp)
    | with_reducible refine State.modPkt_kept ?_ (inAll (by decide) hp)

theorem State.stalls_kept {pts : List Part} {s0 : State} {s : State} {n : Nat} (hk : Kept pts s0 s)
    (hp : [.regs, .pf0, .pf1, .rng, .mil, .out] ⊆ pts) : Kept pts s0 (s.stalls n) := by
  unfold State.stalls
  repeat' first
    | with_reducible assumption | intro _ | (guard_target =~ Kept _ _ _; extract_lets +lift)
    | with_reducible refine State.raise_kept ?_ (inAll (by decide) hp)
    | with_reducible refine State.count_kept ?_ (inAll (by decide) hp) | with_reducible apply Kept.ite

theorem State.emUpsets_kept {pts : List Part} {s0 : State} {s : State} {kind : Nat} {key : Nat} {ws : List TableWord}
    (hk : Kept pts s0 s) (hp : [.freeCtr, .regs, .pf0, .pf1, .rng, .tab, .mil, .out] ⊆ pts)
    : Kept pts s0 (s.emUpsets kind key ws) := by
  unfold State.emUpsets
  repeat' first
    | with_reducible assumption | intro _ | (guard_target =~ Kept _ _ _; extract_lets +lift)
    | with_reducible refine State.badSlot_kept ?_ (inAll (by decide) hp) | with_reducible apply Kept.ite
    | (with_reducible apply Kept.foldl; rotate_left; intro _ _ _)
    | (with_reducible refine Kept.fst (by assumption) ?_) | split

theorem State.learnReq_kept {pts : List Part} {s0 : State} {s : State} {q : LearnReq} (hk : Kept pts s0 s)
    (hp : [.regs, .tab] ⊆ pts) : Kept pts s0 (s.learnReq q) := by
  unfold State.learnReq
  repeat' first
    | with_reducible assumption | intro _ | (guard_target =~ Kept _ _ _; extract_lets +lift)
    | with_reducible refine State.count_kept ?_ (inAll (by decide) hp) | with_reducible apply Kept.ite
    | (with_reducible refine Kept.fst (by assumption) ?_)
    | (simp -zeta only [keptMk]; (with_reducible refine KeptMk.upd ?_ rfl ?_); rotate_left;
        · intro p; cases p <;> first | exact .inl (hp (by decide)) | (right; dsimp only [Part.same]))

theorem State.sourceLookup_kept {pts : List Part} {s0 : State} {s : State} {p : Pkt} {r : LkReq}
    {found : Option (Nat × EmSlot)} (hk : Kept pts s0 s) (hp : [.regs, .tab] ⊆ pts)
    : Kept pts s0 (s.sourceLookup p r found) := by
  unfold State.sourceLookup
  repeat' first
    | with_reducible assumption | intro _ | (guard_target =~ Kept _ _ _; extract_lets +lift)
    | with_reducible refine State.learnReq_kept ?_ (inAll (by decide) hp)
    | with_reducible refine State.count_kept ?_ (inAll (by decide) hp) | with_reducible apply Kept.ite
    | (with_reducible refine Kept.fst (by assumption) ?_)
    | (simp -zeta only [keptMk]; (with_reducible refine KeptMk.upd ?_ rfl ?_); rotate_left;
        · intro p; cases p <;> first | exact .inl (hp (by decide)) | (right; dsimp only [Part.same]))
    | split

theorem exactMatchLookup_kept {pts : List Part} {s0 : State} {pipe : Fin 64} {d : Fin 6} {upset : List TableWord}
    {stall : BitVec 32} {s : State} (hk : Kept pts s0 s)
    (hp : [.freeCtr, .regs, .pf0, .pf1, .rng, .ing, .tab, .cmt, .mil, .out] ⊆ pts)
    : Kept pts s0 (exactMatchLookup pipe d upset stall s) := by
  unfold exactMatchLookup
  repeat' first
    | with_reducible assumption | intro _ | (guard_target =~ Kept _ _ _; extract_lets +lift)
    | with_reducible refine State.stalls_kept ?_ (inAll (by decide) hp)
    | with_reducible refine State.upsets_kept ?_ (inAll (by decide) hp)
    | with_reducible refine State.emUpsets_kept ?_ (inAll (by decide) hp)
    | with_reducible refine State.readPkt_kept ?_ (inAll (by decide) hp)
    | with_reducible refine State.sourceLookup_kept ?_ (inAll (by decide) hp)
    | with_reducible refine State.modPkt_kept ?_ (inAll (by decide) hp)
    | with_reducible refine State.answer_kept ?_ (inAll (by decide) hp) | with_reducible apply Kept.ite
    | (with_reducible refine Kept.fst (by assumption) ?_) | split

theorem State.routeFind_kept {pts : List Part} {s0 : State} {s : State} {v6 : Bool} {key : List Byte} {tag : Nat}
    {path : List (BitVec 24)} {upset : List TableWord} (hk : Kept pts s0 s)
    (hp : [.regs, .pf0, .pf1, .rng, .tab, .mil, .out] ⊆ pts) : Kept pts s0 (s.routeFind v6 key tag path upset).1 := by
  unfold State.routeFind
  repeat' first
    | with_reducible assumption | intro _ | (guard_target =~ Kept _ _ _; extract_lets +lift)
    | with_reducible refine State.lkpError_kept ?_ (inAll (by decide) hp) | with_reducible apply Kept.ite
    | (with_reducible refine Kept.fst (by assumption) ?_)
    | (simp -zeta only [keptMk]; (with_reducible refine KeptMk.upd ?_ rfl ?_); rotate_left;
        · intro p; cases p <;> first | exact .inl (hp (by decide)) | (right; dsimp only [Part.same]))
    | split | dsimp +zetaDelta only

theorem routeLookup_kept {pts : List Part} {s0 : State} {pipe : Fin 64} {d : Fin 6} {path : List (BitVec 24)}
    {upset : List TableWord} {stall : BitVec 32} {s : State} (hk : Kept pts s0 s)
    (hp : [.regs, .pf0, .pf1, .rng, .ing, .tab, .cmt, .mil, .out] ⊆ pts)
    : Kept pts s0 (routeLookup pipe d path upset stall s) := by
  unfold routeLookup
  repeat' first
    | with_reducible assumption | intro _ | (guard_target =~ Kept _ _ _; extract_lets +lift)
    | with_reducible refine State.routeFind_kept ?_ (inAll (by decide) hp)
    | with_reducible refine State.upsets_kept ?_ (inAll (by decide) hp)
    | with_reducible refine State.stalls_kept ?_ (inAll (by decide) hp)
    | with_reducible refine State.answer_kept ?_ (inAll (by decide) hp) | with_reducible apply Kept.ite
    | (with_reducible refine Kept.fst (by assumption) ?_) | split

theorem asaSearch_kept {pts : List Part} {s0 : State} {pipe : Fin 64} {d : Fin 6} {upset : List TableWord} {s : State}
    (hk : Kept pts s0 s) (hp : [.regs, .pf0, .pf1, .rng, .ing, .tab, .asa, .cmt, .mil, .out] ⊆ pts)
    : Kept pts s0 (asaSearch pipe d upset s) := by
  unfold asaSearch
  repeat' first
    | with_reducible assumption | intro _ | (guard_target =~ Kept _ _ _; extract_lets +lift)
    | with_reducible refine State.asaLookup_kept ?_ (inAll (by decide) hp)
    | with_reducible refine State.answer_kept ?_ (inAll (by decide) hp) | with_reducible apply Kept.ite
    | (with_reducible refine Kept.fst (by assumption) ?_) | split

theorem State.countOnDie_kept {pts : List Part} {s0 : State} {s : State} {n : Nat} {bytes : Nat} (hk : Kept pts s0 s)
    (hp : [.tab] ⊆ pts) : Kept pts s0 (s.countOnDie n bytes) := by
  unfold State.countOnDie
  repeat' first
    | with_reducible assumption | intro _ | (guard_target =~ Kept _ _ _; extract_lets +lift)
    | with_reducible apply Kept.ite | (with_reducible refine Kept.fst (by assumption) ?_)
    | (simp -zeta only [keptMk]; (with_reducible refine KeptMk.upd ?_ rfl ?_); rotate_left;
        · intro p; cases p <;> first | exact .inl (hp (by decide)) | (right; dsimp only [Part.same]))

theorem State.nextHop_kept {pts : List Part} {s0 : State} {s : State} {n : Nat} {tag : Nat} {bytes : Nat}
    (hk : Kept pts s0 s) (hp : [.regs, .pf0, .pf1, .rng, .tab, .mil, .out] ⊆ pts)
    : Kept pts s0 (s.nextHop n tag bytes).1 := by
  unfold State.nextHop
  repeat' first
    | with_reducible assumption | intro _ | (guard_target =~ Kept _ _ _; extract_lets +lift)
    | with_reducible refine State.readPkt_kept ?_ (inAll (by decide) hp)
    | with_reducible refine State.countOnDie_kept ?_ (inAll (by decide) hp)
    | with_reducible apply Kept.ite | (with_reducible refine Kept.fst (by assumption) ?_) | split
    | dsimp +zetaDelta only

theorem State.multipath_kept {pts : List Part} {s0 : State} {s : State} {g : Nat} {tag : Nat} {bytes : Nat}
    {kv : List Byte} {mv : List Byte} (hk : Kept pts s0 s) (hp : [.regs, .pf0, .pf1, .rng, .tab, .mil, .out] ⊆ pts)
    : Kept pts s0 (s.multipath g tag bytes kv mv).1 := by
  unfold State.multipath
  repeat' first
    | with_reducible assumption | intro _ | (guard_target =~ Kept _ _ _; extract_lets +lift)
    | with_reducible refine State.readPkt_kept ?_ (inAll (by decide) hp)
    | with_reducible refine State.nextHop_kept ?_ (inAll (by decide) hp) | with_reducible apply Kept.ite
    | (with_reducible refine Kept.fst (by assumption) ?_) | split | dsimp +zetaDelta only

theorem State.flood_kept {pts : List Part} {s0 : State} {s : State} {bd : Nat} {tag : Nat} (hk : Kept pts s0 s)
    (hp : [.regs, .pf0, .pf1, .rng, .mil, .out] ⊆ pts) : Kept pts s0 (s.flood bd tag).1 := by
  unfold State.flood
  repeat' first
    | with_reducible assumption | intro _ | (guard_target =~ Kept _ _ _; extract_lets +lift)
    | with_reducible refine State.readPkt_kept ?_ (inAll (by decide) hp) | with_reducible apply Kept.ite
    | (with_reducible refine Kept.fst (by assumption) ?_) | split

theorem State.follow_kept {pts : List Part} {s0 : State} {s : State} {r : Nat} {tag : Nat} {bytes : Nat}
    {kv : List Byte} {mv : List Byte} (hk : Kept pts s0 s)
    (hp : [.freeCtr, .regs, .pf0, .pf1, .rng, .tab, .mil, .out] ⊆ pts)
    : Kept pts s0 (s.follow r tag bytes kv mv).1 := by
  unfold State.follow
  repeat' first
    | with_reducible assumption | intro _ | (guard_target =~ Kept _ _ _; extract_lets +lift)
    | with_reducible refine State.nextHop_kept ?_ (inAll (by decide) hp)
    | with_reducible refine State.multipath_kept ?_ (inAll (by decide) hp)
    | with_reducible refine State.used_kept ?_ (inAll (by decide) hp) | with_reducible apply Kept.ite
    | (with_reducible refine Kept.fst (by assumption) ?_) | split

theorem State.miss_kept {pts : List Part} {s0 : State} {s : State} {p : Pkt} (hk : Kept pts s0 s)
    (hp : [.regs, .pf0, .pf1, .rng, .mil, .out] ⊆ pts) : Kept pts s0 (s.miss p).1 := by
  unfold State.miss
  repeat' first
    | with_reducible assumption | intro _ | (guard_target =~ Kept _ _ _; extract_lets +lift)
    | with_reducible refine State.flood_kept ?_ (inAll (by decide) hp) | with_reducible apply Kept.ite
    | (with_reducible refine Kept.fst (by assumption) ?_) | split

theorem State.resolve_kept {pts : List Part} {s0 : State} {s : State} {p : Pkt} {as : List LkAns} (hk : Kept pts s0 s)
    (hp : [.freeCtr, .regs, .pf0, .pf1, .rng, .tab, .mil, .out] ⊆ pts) : Kept pts s0 (s.resolve p as).1 := by
  unfold State.resolve
  repeat' first
    | with_reducible assumption | intro _ | (guard_target =~ Kept _ _ _; extract_lets +lift)
    | with_reducible refine State.follow_kept ?_ (inAll (by decide) hp)
    | with_reducible refine State.miss_kept ?_ (inAll (by decide) hp) | with_reducible apply Kept.ite
    | (with_reducible refine Kept.fst (by assumption) ?_) | split

theorem forwardingDecision_kept {pts : List Part} {s0 : State} {pipe : Fin 64} {upset : List TableWord}
    {stall : BitVec 32} {s : State} (hk : Kept pts s0 s)
    (hp : [.freeCtr, .regs, .couch, .pf0, .pf1, .rng, .ing, .tab, .cmt, .prt, .mil, .out] ⊆ pts)
    : Kept pts s0 (forwardingDecision pipe upset stall s) := by
  unfold forwardingDecision
  repeat' first
    | with_reducible assumption | intro _ | (guard_target =~ Kept _ _ _; extract_lets +lift)
    | with_reducible refine State.upsets_kept ?_ (inAll (by decide) hp)
    | with_reducible refine State.stalls_kept ?_ (inAll (by decide) hp)
    | with_reducible refine State.countOnDie_kept ?_ (inAll (by decide) hp)
    | with_reducible refine State.resolve_kept ?_ (inAll (by decide) hp)
    | with_reducible refine State.used_kept ?_ (inAll (by decide) hp)
    | with_reducible refine State.countDrop_kept ?_ (inAll (by decide) hp)
    | with_reducible refine State.formRecord_kept ?_ (inAll (by decide) hp)
    | with_reducible refine State.settleExit_kept ?_ (inAll (by decide) hp)
    | with_reducible refine State.modPkt_kept ?_ (inAll (by decide) hp) | with_reducible apply Kept.ite
    | (with_reducible apply Kept.foldl; rotate_left; intro _ _ _)
    | (with_reducible refine Kept.fst (by assumption) ?_) | split

theorem State.learnNote_kept {pts : List Part} {s0 : State} {s : State} {n : Nat} {kind : Nat} {body : List Byte}
    (hk : Kept pts s0 s) (hp : [.couch] ⊆ pts) : Kept pts s0 (s.learnNote n kind body) := by
  unfold State.learnNote
  repeat' first
    | with_reducible assumption | intro _ | (guard_target =~ Kept _ _ _; extract_lets +lift)
    | with_reducible apply Kept.ite | (with_reducible refine Kept.fst (by assumption) ?_)
    | (simp -zeta only [keptMk]; (with_reducible refine KeptMk.upd ?_ rfl ?_); rotate_left;
        · intro p; cases p <;> first | exact .inl (hp (by decide)) | (right; dsimp only [Part.same]))

theorem State.learnExport_kept {pts : List Part} {s0 : State} {s : State} {kind : Nat} {flags : Nat} {slot : Nat}
    {key : Nat} {res : Nat} (hk : Kept pts s0 s) (hp : [.couch] ⊆ pts)
    : Kept pts s0 (s.learnExport kind flags slot key res) := by
  unfold State.learnExport
  repeat' first
    | with_reducible assumption | intro _ | (guard_target =~ Kept _ _ _; extract_lets +lift)
    | with_reducible refine State.learnNote_kept ?_ (inAll (by decide) hp) | with_reducible apply Kept.ite

theorem State.freshSlot_kept {pts : List Part} {s0 : State} {s : State} {i : Nat} (hk : Kept pts s0 s)
    (hp : [.tab] ⊆ pts) : Kept pts s0 (s.freshSlot i) := by
  unfold State.freshSlot
  repeat' first
    | with_reducible assumption | intro _ | (guard_target =~ Kept _ _ _; extract_lets +lift)
    | with_reducible apply Kept.ite | (with_reducible refine Kept.fst (by assumption) ?_)
    | (simp -zeta only [keptMk]; (with_reducible refine KeptMk.upd ?_ rfl ?_); rotate_left;
        · intro p; cases p <;> first | exact .inl (hp (by decide)) | (right; dsimp only [Part.same]))
    | split

theorem State.unlearn_kept {pts : List Part} {s0 : State} {s : State} {i : Nat} {flags : Nat} {key : Nat} {res : Nat}
    {export_ : Bool} (hk : Kept pts s0 s) (hp : [.couch, .tab] ⊆ pts)
    : Kept pts s0 (s.unlearn i flags key res export_) := by
  unfold State.unlearn
  repeat' first
    | with_reducible assumption | intro _ | (guard_target =~ Kept _ _ _; extract_lets +lift)
    | with_reducible refine State.learnExport_kept ?_ (inAll (by decide) hp)
    | with_reducible apply Kept.ite | (with_reducible refine Kept.fst (by assumption) ?_)
    | (simp -zeta only [keptMk]; (with_reducible refine KeptMk.upd ?_ rfl ?_); rotate_left;
        · intro p; cases p <;> first | exact .inl (hp (by decide)) | (right; dsimp only [Part.same]))
    | split | dsimp +zetaDelta only

theorem State.relocate_kept {pts : List Part} {s0 : State} {s : State} {src : Nat} {dst : Nat} (hk : Kept pts s0 s)
    (hp : [.couch, .tab] ⊆ pts) : Kept pts s0 (s.relocate src dst) := by
  unfold State.relocate
  repeat' first
    | with_reducible assumption | intro _ | (guard_target =~ Kept _ _ _; extract_lets +lift)
    | with_reducible refine State.unlearn_kept ?_ (inAll (by decide) hp)
    | with_reducible refine State.freshSlot_kept ?_ (inAll (by decide) hp) | with_reducible apply Kept.ite
    | (with_reducible refine Kept.fst (by assumption) ?_)
    | (simp -zeta only [keptMk]; (with_reducible refine KeptMk.upd ?_ rfl ?_); rotate_left;
        · intro p; cases p <;> first | exact .inl (hp (by decide)) | (right; dsimp only [Part.same]))
    | split

theorem State.learnFail_kept {pts : List Part} {s0 : State} {s : State} {key : Nat} {reason : Nat}
    (hk : Kept pts s0 s) (hp : [.regs, .pf0, .pf1, .rng, .mil, .out] ⊆ pts)
    : Kept pts s0 (s.learnFail key reason) := by
  unfold State.learnFail
  repeat' first
    | with_reducible assumption | intro _ | (guard_target =~ Kept _ _ _; extract_lets +lift)
    | with_reducible refine State.count_kept ?_ (inAll (by decide) hp)
    | with_reducible refine State.raiseAt_kept ?_ (inAll (by decide) hp) | with_reducible apply Kept.ite

theorem State.learnOne_kept {pts : List Part} {s0 : State} {s : State} {q : LearnReq} (hk : Kept pts s0 s)
    (hp : [.regs, .couch, .pf0, .pf1, .rng, .tab, .mil, .out] ⊆ pts) : Kept pts s0 (s.learnOne q) := by
  unfold State.learnOne
  repeat' first
    | with_reducible assumption | intro _ | (guard_target =~ Kept _ _ _; extract_lets +lift)
    | with_reducible refine State.learnExport_kept ?_ (inAll (by decide) hp)
    | with_reducible refine State.freshSlot_kept ?_ (inAll (by decide) hp)
    | with_reducible refine State.count_kept ?_ (inAll (by decide) hp)
    | with_reducible refine State.learnFail_kept ?_ (inAll (by decide) hp)
    | with_reducible refine State.relocate_kept ?_ (inAll (by decide) hp) | with_reducible apply Kept.ite
    | (with_reducible apply Kept.foldl; rotate_left; intro _ _ _)
    | (with_reducible refine Kept.fst (by assumption) ?_)
    | (simp -zeta only [keptMk]; (with_reducible refine KeptMk.upd ?_ rfl ?_); rotate_left;
        · intro p; cases p <;> first | exact .inl (hp (by decide)) | (right; dsimp only [Part.same]))
    | split

theorem learnInsert_kept {pts : List Part} {s0 : State} {s : State} (hk : Kept pts s0 s)
    (hp : [.regs, .couch, .pf0, .pf1, .rng, .tab, .mil, .out] ⊆ pts) : Kept pts s0 (learnInsert s) := by
  unfold learnInsert
  repeat' first
    | with_reducible assumption | intro _ | (guard_target =~ Kept _ _ _; extract_lets +lift)
    | with_reducible refine State.learnOne_kept ?_ (inAll (by decide) hp) | with_reducible apply Kept.ite
    | (with_reducible refine Kept.fst (by assumption) ?_)
    | (simp -zeta only [keptMk]; (with_reducible refine KeptMk.upd ?_ rfl ?_); rotate_left;
        · intro p; cases p <;> first | exact .inl (hp (by decide)) | (right; dsimp only [Part.same]))
    | split

theorem ageVisit_kept {pts : List Part} {s0 : State} {slot : BitVec 24} {met : Bool} {s : State} (hk : Kept pts s0 s)
    (hp : [.couch, .tab] ⊆ pts) : Kept pts s0 (ageVisit slot met s) := by
  unfold ageVisit
  repeat' first
    | with_reducible assumption | intro _ | (guard_target =~ Kept _ _ _; extract_lets +lift)
    | with_reducible refine State.unlearn_kept ?_ (inAll (by decide) hp) | with_reducible apply Kept.ite
    | (with_reducible refine Kept.fst (by assumption) ?_)
    | (simp -zeta only [keptMk]; (with_reducible refine KeptMk.upd ?_ rfl ?_); rotate_left;
        · intro p; cases p <;> first | exact .inl (hp (by decide)) | (right; dsimp only [Part.same]))
    | split

theorem flushStart_kept {pts : List Part} {s0 : State} {req : Req} {v : W64} {s : State} (hk : Kept pts s0 s)
    (hp : [.regs, .shadow, .acc, .pf0, .pf1, .rng, .tab, .mil, .out] ⊆ pts) : Kept pts s0 (flushStart req v s) := by
  unfold flushStart
  repeat' first
    | with_reducible assumption | intro _ | (guard_target =~ Kept _ _ _; extract_lets +lift)
    | with_reducible refine State.ownWrite_kept ?_ (inAll (by decide) hp)
    | with_reducible refine State.set_kept ?_ (inAll (by decide) hp) | with_reducible apply Kept.ite
    | (with_reducible refine Kept.fst (by assumption) ?_)
    | (simp -zeta only [keptMk]; (with_reducible refine KeptMk.upd ?_ rfl ?_); rotate_left;
        · intro p; cases p <;> first | exact .inl (hp (by decide)) | (right; dsimp only [Part.same]))

theorem flushComplete_kept {pts : List Part} {s0 : State} {late : List (BitVec 24)} {s : State} (hk : Kept pts s0 s)
    (hp : [.regs, .couch, .pf0, .pf1, .rng, .tab, .mil, .out] ⊆ pts) : Kept pts s0 (flushComplete late s) := by
  unfold flushComplete
  repeat' first
    | with_reducible assumption | intro _ | (guard_target =~ Kept _ _ _; extract_lets +lift)
    | with_reducible refine State.unlearn_kept ?_ (inAll (by decide) hp)
    | with_reducible refine State.raise_kept ?_ (inAll (by decide) hp)
    | with_reducible refine State.set_kept ?_ (inAll (by decide) hp) | with_reducible apply Kept.ite
    | (with_reducible apply Kept.foldl; rotate_left; intro _ _ _)
    | (with_reducible refine Kept.fst (by assumption) ?_)
    | (simp -zeta only [keptMk]; (with_reducible refine KeptMk.upd ?_ rfl ?_); rotate_left;
        · intro p; cases p <;> first | exact .inl (hp (by decide)) | (right; dsimp only [Part.same]))
    | split

theorem State.toHostQueue_kept {pts : List Part} {s0 : State} {s : State} {p : HostPkt} (hk : Kept pts s0 s)
    (hp : [.regs, .pf0, .pf1, .rng, .hostQ, .bpm, .mil, .out] ⊆ pts) : Kept pts s0 (s.toHostQueue p) := by
  unfold State.toHostQueue
  repeat' first
    | with_reducible assumption | intro _ | (guard_target =~ Kept _ _ _; extract_lets +lift)
    | with_reducible refine State.cover_kept ?_ (inAll (by decide) hp)
    | with_reducible refine State.useCells_kept ?_ (inAll (by decide) hp)
    | with_reducible refine State.countDrop_kept ?_ (inAll (by decide) hp) | with_reducible apply Kept.ite
    | (with_reducible refine Kept.fst (by assumption) ?_)
    | (simp -zeta only [keptMk]; (with_reducible refine KeptMk.upd ?_ rfl ?_); rotate_left;
        · intro p; cases p <;> first | exact .inl (hp (by decide)) | (right; dsimp only [Part.same]))

theorem State.toEgress_kept {pts : List Part} {s0 : State} {s : State} {k : Nat} {p : EgrPkt} (hk : Kept pts s0 s)
    (hp : [.egr] ⊆ pts) : Kept pts s0 (s.toEgress k p) := by
  unfold State.toEgress
  repeat' first
    | with_reducible assumption | intro _ | (guard_target =~ Kept _ _ _; extract_lets +lift)
    | with_reducible apply Kept.ite | (with_reducible refine Kept.fst (by assumption) ?_)
    | (simp -zeta only [keptMk]; (with_reducible refine KeptMk.upd ?_ rfl ?_); rotate_left;
        · intro p; cases p <;> first | exact .inl (hp (by decide)) | (right; dsimp only [Part.same]))

theorem State.couchDeliver_kept {pts : List Part} {s0 : State} {s : State} {u : CouchUnit} (hk : Kept pts s0 s)
    (hp : [.regs, .acc, .pf0, .pf1, .rng, .hostQ, .bpm, .adm, .egr, .mil, .out] ⊆ pts)
    : Kept pts s0 (s.couchDeliver u) := by
  unfold State.couchDeliver
  repeat' first
    | with_reducible assumption | intro _ | (guard_target =~ Kept _ _ _; extract_lets +lift)
    | with_reducible refine State.toHostQueue_kept ?_ (inAll (by decide) hp)
    | with_reducible refine State.roleDiscard_kept ?_ (inAll (by decide) hp)
    | with_reducible refine State.toEgress_kept ?_ (inAll (by decide) hp)
    | with_reducible refine State.exportRec_kept ?_ (inAll (by decide) hp) | with_reducible apply Kept.ite
    | (with_reducible refine Kept.fst (by assumption) ?_)
    | (simp -zeta only [keptMk]; (with_reducible refine KeptMk.upd ?_ rfl ?_); rotate_left;
        · intro p; cases p <;> first | exact .inl (hp (by decide)) | (right; dsimp only [Part.same]))
    | split

theorem couchUnitReceive_kept {pts : List Part} {s0 : State} {d : CouchDir} {crcGood : Bool} {s : State}
    (hk : Kept pts s0 s) (hp : [.regs, .acc, .couch, .pf0, .pf1, .rng, .hostQ, .bpm, .adm, .egr, .mil, .out] ⊆ pts)
    : Kept pts s0 (couchUnitReceive d crcGood s) := by
  unfold couchUnitReceive
  repeat' first
    | with_reducible assumption | intro _ | (guard_target =~ Kept _ _ _; extract_lets +lift)
    | with_reducible refine State.couchDeliver_kept ?_ (inAll (by decide) hp)
    | with_reducible refine State.count_kept ?_ (inAll (by decide) hp) | with_reducible apply Kept.ite
    | (with_reducible refine Kept.fst (by assumption) ?_)
    | (simp -zeta only [keptMk]; (with_reducible refine KeptMk.upd ?_ rfl ?_); rotate_left;
        · intro p; cases p <;> first | exact .inl (hp (by decide)) | (right; dsimp only [Part.same]))
    | split

theorem State.admitHeld_kept {pts : List Part} {s0 : State} {s : State} (hk : Kept pts s0 s)
    (hp : [.acc, .couch] ⊆ pts) : Kept pts s0 (s.admitHeld) := by
  unfold State.admitHeld
  repeat' first
    | with_reducible assumption | intro _ | (guard_target =~ Kept _ _ _; extract_lets +lift)
    | with_reducible apply Kept.ite | (with_reducible refine Kept.fst (by assumption) ?_)
    | (simp -zeta only [keptMk]; (with_reducible refine KeptMk.upd ?_ rfl ?_); rotate_left;
        · intro p; cases p <;> first | exact .inl (hp (by decide)) | (right; dsimp only [Part.same]))

theorem State.postWrite_kept {pts : List Part} {s0 : State} {s : State} {p : Posted} (hk : Kept pts s0 s)
    (hp : [.acc, .couch] ⊆ pts) : Kept pts s0 (s.postWrite p) := by
  unfold State.postWrite
  repeat' first
    | with_reducible assumption | intro _ | (guard_target =~ Kept _ _ _; extract_lets +lift)
    | with_reducible refine State.admitHeld_kept ?_ (inAll (by decide) hp) | with_reducible apply Kept.ite
    | (with_reducible refine Kept.fst (by assumption) ?_)
    | (simp -zeta only [keptMk]; (with_reducible refine KeptMk.upd ?_ rfl ?_); rotate_left;
        · intro p; cases p <;> first | exact .inl (hp (by decide)) | (right; dsimp only [Part.same]))

theorem State.crossWrites_kept {pts : List Part} {s0 : State} {s : State} {req : Req} (hk : Kept pts s0 s)
    (hp : [.regs, .acc, .couch, .pf0, .pf1, .rng, .hostQ, .bpm, .adm, .egr, .mil, .out] ⊆ pts)
    : Kept pts s0 (s.crossWrites req) := by
  unfold State.crossWrites
  repeat' first
    | with_reducible assumption | intro _ | (guard_target =~ Kept _ _ _; extract_lets +lift)
    | with_reducible refine State.couchDeliver_kept ?_ (inAll (by decide) hp)
    | with_reducible apply Kept.ite | (with_reducible apply Kept.foldl; rotate_left; intro _ _ _)
    | (with_reducible refine Kept.fst (by assumption) ?_)
    | (simp -zeta only [keptMk]; (with_reducible refine KeptMk.upd ?_ rfl ?_); rotate_left;
        · intro p; cases p <;> first | exact .inl (hp (by decide)) | (right; dsimp only [Part.same]))

theorem State.retrain_kept {pts : List Part} {s0 : State} {s : State} {failed : Nat} (hk : Kept pts s0 s)
    (hp : [.regs, .couch, .pf0, .pf1, .rng, .mil, .out] ⊆ pts) : Kept pts s0 (s.retrain failed) := by
  unfold State.retrain
  repeat' first
    | with_reducible assumption | intro _ | (guard_target =~ Kept _ _ _; extract_lets +lift)
    | with_reducible refine State.healthTo_kept ?_ (inAll (by decide) hp)
    | with_reducible refine State.raise_kept ?_ (inAll (by decide) hp) | with_reducible apply Kept.ite
    | (with_reducible refine Kept.fst (by assumption) ?_)
    | (simp -zeta only [keptMk]; (with_reducible refine KeptMk.upd ?_ rfl ?_); rotate_left;
        · intro p; cases p <;> first | exact .inl (hp (by decide)) | (right; dsimp only [Part.same]))
    | split | dsimp +zetaDelta only

theorem couchRetrain_kept {pts : List Part} {s0 : State} {s : State} (hk : Kept pts s0 s)
    (hp : [.regs, .couch, .pf0, .pf1, .rng, .mil, .out] ⊆ pts) : Kept pts s0 (couchRetrain s) := by
  unfold couchRetrain
  repeat' first
    | with_reducible assumption | intro _ | (guard_target =~ Kept _ _ _; extract_lets +lift)
    | with_reducible refine State.retrain_kept ?_ (inAll (by decide) hp) | with_reducible apply Kept.ite
    | (with_reducible refine Kept.fst (by assumption) ?_) | split

theorem couchRetrainDone_kept {pts : List Part} {s0 : State} {s : State} (hk : Kept pts s0 s) (hp : [.couch] ⊆ pts)
    : Kept pts s0 (couchRetrainDone s) := by
  unfold couchRetrainDone
  repeat' first
    | with_reducible assumption | intro _ | (guard_target =~ Kept _ _ _; extract_lets +lift)
    | with_reducible apply Kept.ite | (with_reducible refine Kept.fst (by assumption) ?_)
    | (simp -zeta only [keptMk]; (with_reducible refine KeptMk.upd ?_ rfl ?_); rotate_left;
        · intro p; cases p <;> first | exact .inl (hp (by decide)) | (right; dsimp only [Part.same]))

theorem couchDown_kept {pts : List Part} {s0 : State} {s : State} (hk : Kept pts s0 s)
    (hp : [.freeCtr, .regs, .gen, .couch, .pf0, .pf1, .rng, .sem, .fab, .prt, .tim, .mil, .out] ⊆ pts)
    : Kept pts s0 (couchDown s) := by
  unfold couchDown
  repeat' first
    | with_reducible assumption | intro _ | (guard_target =~ Kept _ _ _; extract_lets +lift)
    | with_reducible refine State.protJudge_kept ?_ (inAll (by decide) hp)
    | with_reducible refine State.enterIsolate_kept ?_ (inAll (by decide) hp)
    | with_reducible refine State.raise_kept ?_ (inAll (by decide) hp) | with_reducible apply Kept.ite
    | (with_reducible refine Kept.fst (by assumption) ?_)
    | (simp -zeta only [keptMk]; (with_reducible refine KeptMk.upd ?_ rfl ?_); rotate_left;
        · intro p; cases p <;> first | exact .inl (hp (by decide)) | (right; dsimp only [Part.same]))

theorem State.copiesOf_kept {pts : List Part} {s0 : State} {s : State} {flood : Bool} {src : Nat} {tag : Nat}
    {a5 : List Nat} (hk : Kept pts s0 s) (hp : [.regs, .pf0, .pf1, .rng, .mil, .out] ⊆ pts)
    : Kept pts s0 (s.copiesOf flood src tag a5).1 := by
  induction a5 generalizing s with
  | nil => exact hk
  | cons i t ih =>
    have h := ih (State.readPkt_kept hk (inAll (by decide) hp) (t := tRepl) (i := i) (tag := tag))
    unfold State.copiesOf
    dsimp only
    repeat' split
    all_goals exact h

theorem State.nextChain_kept {pts : List Part} {s0 : State} {s : State} {x : XPkt} (hk : Kept pts s0 s)
    (hp : [.regs, .pf0, .pf1, .rng, .bpm, .mil, .out] ⊆ pts) : Kept pts s0 (s.nextChain x).1 := by
  unfold State.nextChain
  repeat' first
    | with_reducible assumption | intro _ | (guard_target =~ Kept _ _ _; extract_lets +lift)
    | with_reducible refine State.coverRetry_kept ?_ (inAll (by decide) hp)
    | with_reducible refine State.useCells_kept ?_ (inAll (by decide) hp)
    | with_reducible refine State.count_kept ?_ (inAll (by decide) hp) | with_reducible apply Kept.ite
    | (with_reducible refine Kept.fst (by assumption) ?_) | split

theorem State.endChain_kept {pts : List Part} {s0 : State} {s : State} {c : CellChain} (hk : Kept pts s0 s)
    (hp : [.regs, .pf0, .pf1, .rng, .bpm, .lin, .mil, .out] ⊆ pts) : Kept pts s0 (s.endChain c) := by
  unfold State.endChain
  repeat' first
    | with_reducible assumption | intro _
    | with_reducible refine State.dropCells_kept ?_ (inAll (by decide) hp)

theorem State.makeCopies_kept {pts : List Part} {s0 : State} {s : State} {x : XPkt} {c : CellChain} {a4 : List Copy}
    (hk : Kept pts s0 s) (hp : [.regs, .pf0, .pf1, .rng, .bpm, .qsc, .lin, .mil, .out] ⊆ pts)
    : Kept pts s0 (s.makeCopies x c a4).1 := by
  induction a4 generalizing s c with
  | nil => exact hk
  | cons a t ih =>
    rcases a with ⟨m, pg, port, rw⟩ | _
    · unfold State.makeCopies
      split
      rename_i s' next e
      have h : Kept pts s0 s' := by
        split at e
        · cases e; exact hk
        · have hn := State.nextChain_kept hk (inAll (by decide) hp) (x := x)
          split at e <;> (rename_i he; cases e; rw [he] at hn)
          · exact hn
          · exact hn
          · exact State.endChain_kept hn (inAll (by decide) hp)
      repeat' split
      · exact h
      · exact ih (State.admitDrop_kept h (inAll (by decide) hp))
      · exact ih (State.toVoq_kept (State.refCells_kept h (inAll (by decide) hp)) (inAll (by decide) hp))
    · exact ih (State.admitDrop_kept hk (inAll (by decide) hp))

theorem replicatorExpand_kept {pts : List Part} {s0 : State} {upset : List TableWord} {stall : BitVec 32} {s : State}
    (hk : Kept pts s0 s) (hp : [.regs, .pf0, .pf1, .rng, .tab, .cmt, .replQ, .bpm, .qsc, .lin, .mil, .out] ⊆ pts)
    : Kept pts s0 (replicatorExpand upset stall s) := by
  unfold replicatorExpand
  repeat' first
    | with_reducible assumption | intro _ | (guard_target =~ Kept _ _ _; extract_lets +lift)
    | with_reducible refine State.upsets_kept ?_ (inAll (by decide) hp)
    | with_reducible refine State.stalls_kept ?_ (inAll (by decide) hp)
    | with_reducible refine State.readPkt_kept ?_ (inAll (by decide) hp)
    | with_reducible refine State.admitDrop_kept ?_ (inAll (by decide) hp)
    | with_reducible refine State.endChain_kept ?_ (inAll (by decide) hp)
    | with_reducible refine State.copiesOf_kept ?_ (inAll (by decide) hp)
    | with_reducible refine State.makeCopies_kept ?_ (inAll (by decide) hp)
    | with_reducible refine State.count_kept ?_ (inAll (by decide) hp) | with_reducible apply Kept.ite
    | (with_reducible refine Kept.fst (by assumption) ?_)
    | (simp -zeta only [keptMk]; (with_reducible refine KeptMk.upd ?_ rfl ?_); rotate_left;
        · intro p; cases p <;> first | exact .inl (hp (by decide)) | (right; dsimp only [Part.same]))
    | split | dsimp +zetaDelta only

end Sys2Proof.Laws
end

