-- ==== Sys2Proof/Laws/KeptMemory.lean ====
section
/-!
SUPPORT. Laws/KeptMemory.lean: what the operations of gates, deep memory, credit, scheduling, lines and reams keep (Laws/Kept.lean),
one lemma for each.
-/
namespace Sys2Proof.Laws

open Sys2Proof.Machine

theorem State.setGate_kept {pts : List Part} {s0 : State} {s : State} {p : Nat} {g : GateSt} (hk : Kept pts s0 s)
    (hp : [.gates] ⊆ pts) : Kept pts s0 (s.setGate p g) := by
  unfold State.setGate
  repeat' first
    | with_reducible assumption | intro _ | with_reducible apply Kept.ite
    | (with_reducible refine Kept.fst (by assumption) ?_)
    | (simp -zeta only [keptMk]; (with_reducible refine KeptMk.upd ?_ rfl ?_); rotate_left;
        · intro p; cases p <;> first | exact .inl (hp (by decide)) | (right; dsimp only [Part.same]))

theorem State.gateSettle_kept {pts : List Part} {s0 : State} {s : State} {p : Nat} (hk : Kept pts s0 s)
    (hp : [.regs] ⊆ pts) : Kept pts s0 (s.gateSettle p) := by
  unfold State.gateSettle
  repeat' first
    | with_reducible assumption | intro _ | (guard_target =~ Kept _ _ _; extract_lets +lift)
    | with_reducible refine State.set_kept ?_ (inAll (by decide) hp) | with_reducible apply Kept.ite
    | (with_reducible refine Kept.fst (by assumption) ?_) | split

theorem State.dropOversize_kept {pts : List Part} {s0 : State} {s : State} {p : Nat} {q : Nat} (hk : Kept pts s0 s)
    (hp : [.regs, .pf0, .pf1, .rng, .bpm, .adm, .qsc, .fab, .lin, .mil, .out] ⊆ pts)
    : Kept pts s0 (s.dropOversize p q) := by
  unfold State.dropOversize
  repeat' first
    | with_reducible assumption | intro _ | (guard_target =~ Kept _ _ _; extract_lets +lift)
    | with_reducible refine State.raiseAt_kept ?_ (inAll (by decide) hp)
    | with_reducible refine State.dropHead_kept ?_ (inAll (by decide) hp) | with_reducible apply Kept.ite

theorem State.dropOversizes_kept {pts : List Part} {s0 : State} {s : State} {p : Nat} (hk : Kept pts s0 s)
    (hp : [.regs, .pf0, .pf1, .rng, .bpm, .adm, .qsc, .fab, .lin, .mil, .out] ⊆ pts)
    : Kept pts s0 (s.dropOversizes p) := by
  unfold State.dropOversizes
  repeat' first
    | with_reducible assumption | intro _ | (guard_target =~ Kept _ _ _; extract_lets +lift)
    | with_reducible refine State.dropOversize_kept ?_ (inAll (by decide) hp)
    | with_reducible apply Kept.ite | (with_reducible apply Kept.foldl; rotate_left; intro _ _ _)

theorem gateEvent_kept {pts : List Part} {s0 : State} {port : Fin 288} {s : State} (hk : Kept pts s0 s)
    (hp : [.regs] ⊆ pts) : Kept pts s0 (gateEvent port s) := by
  unfold gateEvent
  repeat' first
    | with_reducible assumption | intro _ | (guard_target =~ Kept _ _ _; extract_lets +lift)
    | with_reducible refine State.gateSettle_kept ?_ (inAll (by decide) hp)
    | with_reducible apply Kept.ite

theorem change_kept {pts : List Part} {s0 : State} {req : Req} {port : Fin 288} {v : W64} {s : State}
    (hk : Kept pts s0 s) (hp : [.regs, .shadow, .acc, .pf0, .pf1, .rng, .gates, .mil, .out] ⊆ pts)
    : Kept pts s0 (change req port v s) := by
  unfold change
  repeat' first
    | with_reducible assumption | intro _ | (guard_target =~ Kept _ _ _; extract_lets +lift)
    | with_reducible refine State.flushRw_kept ?_ (inAll (by decide) hp)
    | with_reducible refine State.violation_kept ?_ (inAll (by decide) hp)
    | with_reducible refine State.ownWrite_kept ?_ (inAll (by decide) hp)
    | with_reducible refine State.set_kept ?_ (inAll (by decide) hp)
    | with_reducible refine State.setGate_kept ?_ (inAll (by decide) hp) | with_reducible apply Kept.ite

theorem State.swapLists_kept {pts : List Part} {s0 : State} {s : State} {p : Nat} (hk : Kept pts s0 s)
    (hp : [.regs] ⊆ pts) : Kept pts s0 (s.swapLists p) := by
  unfold State.swapLists
  repeat' first
    | with_reducible assumption | intro _ | (guard_target =~ Kept _ _ _; extract_lets +lift)
    | with_reducible refine State.wr_kept ?_ (inAll (by decide) hp) | with_reducible apply Kept.ite
    | (with_reducible apply Kept.foldl; rotate_left; intro _ _ _)

theorem gateListSwitch_kept {pts : List Part} {s0 : State} {port : Fin 288} {s : State} (hk : Kept pts s0 s)
    (hp : [.regs, .pf0, .pf1, .rng, .bpm, .adm, .qsc, .gates, .fab, .lin, .mil, .out] ⊆ pts)
    : Kept pts s0 (gateListSwitch port s) := by
  unfold gateListSwitch
  repeat' first
    | with_reducible assumption | intro _ | (guard_target =~ Kept _ _ _; extract_lets +lift)
    | with_reducible refine State.swapLists_kept ?_ (inAll (by decide) hp)
    | with_reducible refine State.setGate_kept ?_ (inAll (by decide) hp)
    | with_reducible refine State.set_kept ?_ (inAll (by decide) hp)
    | with_reducible refine State.dropOversizes_kept ?_ (inAll (by decide) hp)
    | with_reducible refine State.gateSettle_kept ?_ (inAll (by decide) hp)
    | with_reducible refine State.raise_kept ?_ (inAll (by decide) hp) | with_reducible apply Kept.ite
    | (with_reducible refine Kept.fst (by assumption) ?_) | split

theorem State.gatesStepped_kept {pts : List Part} {s0 : State} {s : State} (hk : Kept pts s0 s) (hp : [.gates] ⊆ pts)
    : Kept pts s0 (s.gatesStepped) := by
  unfold State.gatesStepped
  repeat' first
    | with_reducible assumption | intro _ | (guard_target =~ Kept _ _ _; extract_lets +lift)
    | with_reducible apply Kept.ite | (with_reducible refine Kept.fst (by assumption) ?_)
    | (simp -zeta only [keptMk]; (with_reducible refine KeptMk.upd ?_ rfl ?_); rotate_left;
        · intro p; cases p <;> first | exact .inl (hp (by decide)) | (right; dsimp only [Part.same]))

theorem State.setMover_kept {pts : List Part} {s0 : State} {s : State} {m : MoverSt} (hk : Kept pts s0 s)
    (hp : [.adm] ⊆ pts) : Kept pts s0 (s.setMover m) := by
  unfold State.setMover
  repeat' first
    | with_reducible assumption | intro _ | (guard_target =~ Kept _ _ _; extract_lets +lift)
    | with_reducible apply Kept.ite | (with_reducible refine Kept.fst (by assumption) ?_)
    | (simp -zeta only [keptMk]; (with_reducible refine KeptMk.upd ?_ rfl ?_); rotate_left;
        · intro p; cases p <;> first | exact .inl (hp (by decide)) | (right; dsimp only [Part.same]))

theorem State.slotComes_kept {pts : List Part} {s0 : State} {s : State} {own : Option Nat} (hk : Kept pts s0 s)
    (hp : [.adm] ⊆ pts) {res} (e : s.slotComes own = some res) : Kept pts s0 res := by
  unfold State.slotComes at e
  extract_lets m key n most at e
  split at e
  · cases e; exact State.setMover_kept hk (inAll (by decide) hp)
  · cases e

theorem State.dropPkts_kept {pts : List Part} {s0 : State} {s : State} {q : Nat} {hit : QPkt → Bool} {cause : Nat}
    (hk : Kept pts s0 s) (hp : [.regs, .pf0, .pf1, .rng, .bpm, .adm, .qsc, .fab, .lin, .mil, .out] ⊆ pts)
    : Kept pts s0 (s.dropPkts q hit cause) := by
  unfold State.dropPkts
  repeat' first
    | with_reducible assumption | intro _ | (guard_target =~ Kept _ _ _; extract_lets +lift)
    | with_reducible refine State.flushLess_kept ?_ (inAll (by decide) hp)
    | with_reducible refine State.setQueue_kept ?_ (inAll (by decide) hp)
    | with_reducible refine State.dropCells_kept ?_ (inAll (by decide) hp)
    | with_reducible refine State.countDrop_kept ?_ (inAll (by decide) hp)
    | with_reducible refine State.voqSettle_kept ?_ (inAll (by decide) hp)
    | with_reducible refine State.refillWatch_kept ?_ (inAll (by decide) hp)
    | with_reducible refine State.deepSettle_kept ?_ (inAll (by decide) hp)
    | with_reducible refine State.trimPages_kept ?_ (inAll (by decide) hp) | with_reducible apply Kept.ite
    | (with_reducible apply Kept.foldl; rotate_left; intro _ _ _)

theorem State.evict_kept {pts : List Part} {s0 : State} {s : State} {q : Nat} {n : Nat} (hk : Kept pts s0 s)
    (hp : [.bpm, .adm, .qsc] ⊆ pts) : Kept pts s0 (s.evict q n) := by
  unfold State.evict
  repeat' first
    | with_reducible assumption | intro _ | (guard_target =~ Kept _ _ _; extract_lets +lift)
    | with_reducible refine State.setQueue_kept ?_ (inAll (by decide) hp)
    | with_reducible refine State.setBuf_kept ?_ (inAll (by decide) hp)
    | with_reducible refine State.setMover_kept ?_ (inAll (by decide) hp) | with_reducible apply Kept.ite
    | (with_reducible refine Kept.fst (by assumption) ?_)
    | (simp -zeta only [keptMk]; (with_reducible refine KeptMk.upd ?_ rfl ?_); rotate_left;
        · intro p; cases p <;> first | exact .inl (hp (by decide)) | (right; dsimp only [Part.same]))
    | split | dsimp +zetaDelta only

theorem State.evictRead_kept {pts : List Part} {s0 : State} {s : State} {q : Nat} {n : Nat} {ue : Option (BitVec 32)}
    (hk : Kept pts s0 s) (hp : [.regs, .pf0, .pf1, .rng, .bpm, .adm, .qsc, .fab, .lin, .mil, .out] ⊆ pts)
    : Kept pts s0 (s.evictRead q n ue) := by
  unfold State.evictRead
  repeat' first
    | with_reducible assumption | intro _ | (guard_target =~ Kept _ _ _; extract_lets +lift)
    | with_reducible refine State.dropPkts_kept ?_ (inAll (by decide) hp)
    | with_reducible refine State.evict_kept ?_ (inAll (by decide) hp) | with_reducible apply Kept.ite
    | (with_reducible refine Kept.fst (by assumption) ?_) | split

theorem deepEvict_kept {pts : List Part} {s0 : State} {own : Option (Fin 8)} {ue : Option (BitVec 32)} {s : State}
    (hk : Kept pts s0 s) (hp : [.regs, .pf0, .pf1, .rng, .bpm, .adm, .qsc, .fab, .lin, .mil, .out] ⊆ pts)
    : Kept pts s0 (deepEvict own ue s) := by
  unfold deepEvict
  repeat' first
    | with_reducible assumption | intro _ | (guard_target =~ Kept _ _ _; extract_lets +lift)
    | with_reducible refine State.evictRead_kept ?_ (inAll (by decide) hp)
    | with_reducible refine State.slotComes_kept ?_ (inAll (by decide) hp) (by assumption)
    | with_reducible apply Kept.ite | (with_reducible refine Kept.fst (by assumption) ?_) | split
    | dsimp +zetaDelta only

theorem State.slotFor_kept {pts : List Part} {s0 : State} {s : State} {k : Nat} (hk : Kept pts s0 s)
    (hp : [.adm] ⊆ pts) {res} (e : s.slotFor k = some res) : Kept pts s0 res := by
  unfold State.slotFor at e
  split at e
  · rename_i he; cases e; exact State.slotComes_kept hk (inAll (by decide) hp) he
  · split at e
    · exact State.slotComes_kept hk (inAll (by decide) hp) e
    · cases e

theorem partialPageTimer_kept {pts : List Part} {s0 : State} {q : BitVec 20} {ue : Option (BitVec 32)} {s : State}
    (hk : Kept pts s0 s) (hp : [.regs, .pf0, .pf1, .rng, .bpm, .adm, .qsc, .fab, .lin, .mil, .out] ⊆ pts)
    : Kept pts s0 (partialPageTimer q ue s) := by
  unfold partialPageTimer
  repeat' first
    | with_reducible assumption | intro _ | (guard_target =~ Kept _ _ _; extract_lets +lift)
    | with_reducible refine State.evictRead_kept ?_ (inAll (by decide) hp)
    | with_reducible refine State.slotFor_kept ?_ (inAll (by decide) hp) (by assumption)
    | with_reducible apply Kept.ite | (with_reducible refine Kept.fst (by assumption) ?_) | split

theorem State.healed_kept {pts : List Part} {s0 : State} {s : State} {p : Nat} {k : Nat} {n : Nat}
    (hk : Kept pts s0 s) (hp : [.ddc] ⊆ pts) : Kept pts s0 (s.healed p k n) := by
  unfold State.healed
  repeat' first
    | with_reducible assumption | intro _ | (guard_target =~ Kept _ _ _; extract_lets +lift)
    | with_reducible apply Kept.ite | (with_reducible refine Kept.fst (by assumption) ?_)
    | (simp -zeta only [keptMk]; (with_reducible refine KeptMk.upd ?_ rfl ?_); rotate_left;
        · intro p; cases p <;> first | exact .inl (hp (by decide)) | (right; dsimp only [Part.same]))

theorem State.ueLog_kept {pts : List Part} {s0 : State} {s : State} {p : Nat} {off : Nat} (hk : Kept pts s0 s)
    (hp : [.regs] ⊆ pts) : Kept pts s0 (s.ueLog p off) := by
  unfold State.ueLog
  repeat' first
    | with_reducible assumption | intro _ | (guard_target =~ Kept _ _ _; extract_lets +lift)
    | with_reducible refine State.count_kept ?_ (inAll (by decide) hp)
    | with_reducible refine State.set_kept ?_ (inAll (by decide) hp) | with_reducible apply Kept.ite

theorem State.ueMet_kept {pts : List Part} {s0 : State} {s : State} {p : Nat} {word : Nat} (hk : Kept pts s0 s)
    (hp : [.regs, .pf0, .pf1, .rng, .mil, .out] ⊆ pts) : Kept pts s0 (s.ueMet p word) := by
  unfold State.ueMet
  repeat' first
    | with_reducible assumption | intro _ | (guard_target =~ Kept _ _ _; extract_lets +lift)
    | with_reducible refine State.ueLog_kept ?_ (inAll (by decide) hp)
    | with_reducible refine State.count_kept ?_ (inAll (by decide) hp)
    | with_reducible refine State.raiseAt_kept ?_ (inAll (by decide) hp) | with_reducible apply Kept.ite
    | (with_reducible apply Kept.foldl; rotate_left; intro _ _ _)

theorem deepPageWritten_kept {pts : List Part} {s0 : State} {page : BitVec 32} {s : State} (hk : Kept pts s0 s)
    (hp : [.regs, .pf0, .pf1, .rng, .bpm, .adm, .ddc, .qsc, .lin, .mil, .out] ⊆ pts)
    : Kept pts s0 (deepPageWritten page s) := by
  unfold deepPageWritten
  repeat' first
    | with_reducible assumption | intro _ | (guard_target =~ Kept _ _ _; extract_lets +lift)
    | with_reducible refine State.dropCells_kept ?_ (inAll (by decide) hp)
    | with_reducible refine State.setQueue_kept ?_ (inAll (by decide) hp)
    | with_reducible refine State.refillWatch_kept ?_ (inAll (by decide) hp)
    | with_reducible refine State.deepSettle_kept ?_ (inAll (by decide) hp)
    | with_reducible refine State.healed_kept ?_ (inAll (by decide) hp) | with_reducible apply Kept.ite
    | (with_reducible refine Kept.fst (by assumption) ?_) | split

theorem State.refillLoss_kept {pts : List Part} {s0 : State} {s : State} {hs : List Nat} {p : QPkt}
    (hk : Kept pts s0 s) (hp : [.regs, .bpm, .lin, .out] ⊆ pts) : Kept pts s0 (s.refillLoss hs p) := by
  unfold State.refillLoss
  repeat' first
    | with_reducible assumption | intro _ | (guard_target =~ Kept _ _ _; extract_lets +lift)
    | with_reducible refine State.xoffWatch_kept ?_ (inAll (by decide) hp)
    | with_reducible refine State.setBuf_kept ?_ (inAll (by decide) hp) | with_reducible apply Kept.ite
    | (with_reducible apply Kept.foldl; rotate_left; intro _ _ _)
    | (with_reducible refine Kept.fst (by assumption) ?_) | split

theorem State.readServed_kept {pts : List Part} {s0 : State} {s : State} {q : Nat} (hk : Kept pts s0 s)
    (hp : [.adm] ⊆ pts) : Kept pts s0 (s.readServed q) := by
  unfold State.readServed
  repeat' first
    | with_reducible assumption | intro _ | (guard_target =~ Kept _ _ _; extract_lets +lift)
    | with_reducible refine State.refillWatch_kept ?_ (inAll (by decide) hp)
    | with_reducible apply Kept.ite | (with_reducible refine Kept.fst (by assumption) ?_)
    | (simp -zeta only [keptMk]; (with_reducible refine KeptMk.upd ?_ rfl ?_); rotate_left;
        · intro p; cases p <;> first | exact .inl (hp (by decide)) | (right; dsimp only [Part.same]))

theorem deepRefill_kept {pts : List Part} {s0 : State} {q : BitVec 20} {s : State} (hk : Kept pts s0 s)
    (hp : [.regs, .pf0, .pf1, .rng, .bpm, .adm, .qsc, .fab, .lin, .mil, .out] ⊆ pts)
    : Kept pts s0 (deepRefill q s) := by
  unfold deepRefill
  repeat' first
    | with_reducible assumption | intro _ | (guard_target =~ Kept _ _ _; extract_lets +lift)
    | with_reducible refine State.refillWatch_kept ?_ (inAll (by decide) hp)
    | with_reducible refine State.readServed_kept ?_ (inAll (by decide) hp)
    | with_reducible refine State.dropPkts_kept ?_ (inAll (by decide) hp)
    | with_reducible refine State.ueMet_kept ?_ (inAll (by decide) hp)
    | with_reducible refine State.coverRetry_kept ?_ (inAll (by decide) hp)
    | with_reducible refine State.useCells_kept ?_ (inAll (by decide) hp)
    | with_reducible refine State.setMover_kept ?_ (inAll (by decide) hp)
    | with_reducible refine State.refillLoss_kept ?_ (inAll (by decide) hp)
    | with_reducible refine State.setQueue_kept ?_ (inAll (by decide) hp)
    | with_reducible refine State.deepSettle_kept ?_ (inAll (by decide) hp)
    | with_reducible refine State.trimPages_kept ?_ (inAll (by decide) hp) | with_reducible apply Kept.ite
    | (with_reducible apply Kept.foldl; rotate_left; intro _ _ _)
    | (with_reducible refine Kept.fst (by assumption) ?_) | split

theorem State.pagesLost_kept {pts : List Part} {s0 : State} {s : State} (hk : Kept pts s0 s) (hp : [.bpm, .qsc] ⊆ pts)
    : Kept pts s0 (s.pagesLost) := by
  unfold State.pagesLost
  repeat' first
    | with_reducible assumption | intro _ | (guard_target =~ Kept _ _ _; extract_lets +lift)
    | with_reducible apply Kept.ite | (with_reducible refine Kept.fst (by assumption) ?_)
    | (simp -zeta only [keptMk]; (with_reducible refine KeptMk.upd ?_ rfl ?_); rotate_left;
        · intro p; cases p <;> first | exact .inl (hp (by decide)) | (right; dsimp only [Part.same]))

theorem State.dramLost_kept {pts : List Part} {s0 : State} {s : State} (hk : Kept pts s0 s)
    (hp : [.bpm, .ddc, .qsc] ⊆ pts) : Kept pts s0 (s.dramLost) := by
  exact State.pagesLost_kept (hk.trans ⟨fun p hq => by cases p <;> first | rfl | exact absurd (hp (by decide)) hq, rfl, rfl, id, id, id, fun _ => rfl, List.suffix_refl _, Nat.le_refl _⟩) (inAll (by decide) hp)

theorem State.setSpare_kept {pts : List Part} {s0 : State} {s : State} {n : Nat} {x : SpareSt} (hk : Kept pts s0 s)
    (hp : [.ddc] ⊆ pts) : Kept pts s0 (s.setSpare n x) := by
  unfold State.setSpare
  repeat' first
    | with_reducible assumption | intro _ | (guard_target =~ Kept _ _ _; extract_lets +lift)
    | with_reducible apply Kept.ite | (with_reducible refine Kept.fst (by assumption) ?_)
    | (simp -zeta only [keptMk]; (with_reducible refine KeptMk.upd ?_ rfl ?_); rotate_left;
        · intro p; cases p <;> first | exact .inl (hp (by decide)) | (right; dsimp only [Part.same]))

theorem State.ddcRunTo_kept {pts : List Part} {s0 : State} {s : State} {run : Bool} (hk : Kept pts s0 s)
    (hp : [.regs, .pf0, .pf1, .rng, .bpm, .ddc, .qsc, .mil, .out] ⊆ pts) : Kept pts s0 (s.ddcRunTo run) := by
  unfold State.ddcRunTo
  repeat' first
    | with_reducible assumption | intro _ | (guard_target =~ Kept _ _ _; extract_lets +lift)
    | with_reducible refine State.violation_kept ?_ (inAll (by decide) hp)
    | with_reducible refine State.set_kept ?_ (inAll (by decide) hp)
    | with_reducible refine State.dramLost_kept ?_ (inAll (by decide) hp) | with_reducible apply Kept.ite
    | (with_reducible refine Kept.fst (by assumption) ?_)
    | (simp -zeta only [keptMk]; (with_reducible refine KeptMk.upd ?_ rfl ?_); rotate_left;
        · intro p; cases p <;> first | exact .inl (hp (by decide)) | (right; dsimp only [Part.same]))

theorem ddcRun_kept {pts : List Part} {s0 : State} {req : Req} {v : W64} {s : State} (hk : Kept pts s0 s)
    (hp : [.regs, .shadow, .acc, .pf0, .pf1, .rng, .bpm, .ddc, .qsc, .mil, .out] ⊆ pts)
    : Kept pts s0 (ddcRun req v s) := by
  unfold ddcRun
  repeat' first
    | with_reducible assumption | intro _ | (guard_target =~ Kept _ _ _; extract_lets +lift)
    | with_reducible refine State.ddcRunTo_kept ?_ (inAll (by decide) hp)
    | with_reducible refine State.ownWrite_kept ?_ (inAll (by decide) hp) | with_reducible apply Kept.ite

theorem State.sparing_kept {pts : List Part} {s0 : State} {s : State} {n : Nat} {ch : Nat} (hk : Kept pts s0 s)
    (hp : [.mil, .out] ⊆ pts) : Kept pts s0 (s.sparing n ch) := by
  unfold State.sparing
  repeat' first
    | with_reducible assumption | intro _ | (guard_target =~ Kept _ _ _; extract_lets +lift)
    | with_reducible refine State.stageLog_kept ?_ (inAll (by decide) hp)
    | with_reducible refine State.alertClass_kept ?_ (inAll (by decide) hp)
    | with_reducible apply Kept.ite

theorem State.spareBegin_kept {pts : List Part} {s0 : State} {s : State} {n : Nat} {src : Nat} (hk : Kept pts s0 s)
    (hp : [.ddc, .mil, .out] ⊆ pts) : Kept pts s0 (s.spareBegin n src) := by
  unfold State.spareBegin
  repeat' first
    | with_reducible assumption | intro _ | (guard_target =~ Kept _ _ _; extract_lets +lift)
    | with_reducible refine State.setSpare_kept ?_ (inAll (by decide) hp)
    | with_reducible refine State.sparing_kept ?_ (inAll (by decide) hp) | with_reducible apply Kept.ite
    | (with_reducible refine Kept.fst (by assumption) ?_)
    | (simp -zeta only [keptMk]; (with_reducible refine KeptMk.upd ?_ rfl ?_); rotate_left;
        · intro p; cases p <;> first | exact .inl (hp (by decide)) | (right; dsimp only [Part.same]))

theorem State.autoSpare_kept {pts : List Part} {s0 : State} {s : State} {n : Nat} {ch : Nat} (hk : Kept pts s0 s)
    (hp : [.ddc, .mil, .out] ⊆ pts) : Kept pts s0 (s.autoSpare n ch) := by
  unfold State.autoSpare
  repeat' first
    | with_reducible assumption | intro _ | (guard_target =~ Kept _ _ _; extract_lets +lift)
    | with_reducible refine State.spareBegin_kept ?_ (inAll (by decide) hp)
    | with_reducible apply Kept.ite | (with_reducible refine Kept.fst (by assumption) ?_)
    | (simp -zeta only [keptMk]; (with_reducible refine KeptMk.upd ?_ rfl ?_); rotate_left;
        · intro p; cases p <;> first | exact .inl (hp (by decide)) | (right; dsimp only [Part.same]))
    | split | dsimp +zetaDelta only

theorem State.corrected_kept {pts : List Part} {s0 : State} {s : State} {k : Nat} {c : Nat} {m : Nat}
    (hk : Kept pts s0 s) (hp : [.regs, .pf0, .pf1, .rng, .ddc, .mil, .out] ⊆ pts)
    : Kept pts s0 (s.corrected k c m) := by
  unfold State.corrected
  repeat' first
    | with_reducible assumption | intro _ | (guard_target =~ Kept _ _ _; extract_lets +lift)
    | with_reducible refine State.count_kept ?_ (inAll (by decide) hp)
    | with_reducible refine State.autoSpare_kept ?_ (inAll (by decide) hp)
    | with_reducible refine State.raiseAt_kept ?_ (inAll (by decide) hp) | with_reducible apply Kept.ite
    | (with_reducible refine Kept.fst (by assumption) ?_)
    | (simp -zeta only [keptMk]; (with_reducible refine KeptMk.upd ?_ rfl ?_); rotate_left;
        · intro p; cases p <;> first | exact .inl (hp (by decide)) | (right; dsimp only [Part.same]))
    | split | dsimp +zetaDelta only

theorem State.ueActs_kept {pts : List Part} {s0 : State} {s : State} {p : Nat} {off : Nat} {word : Nat}
    (hk : Kept pts s0 s) (hp : [.regs, .ddc, .qsc, .out] ⊆ pts) : Kept pts s0 (s.ueActs p off word) := by
  unfold State.ueActs
  repeat' first
    | with_reducible assumption | intro _ | (guard_target =~ Kept _ _ _; extract_lets +lift)
    | with_reducible refine State.modQueue_kept ?_ (inAll (by decide) hp)
    | with_reducible refine State.emit_kept ?_ (inAll (by decide) hp)
    | with_reducible refine State.count_kept ?_ (inAll (by decide) hp) | with_reducible apply Kept.ite
    | (with_reducible refine Kept.fst (by assumption) ?_)
    | (simp -zeta only [keptMk]; (with_reducible refine KeptMk.upd ?_ rfl ?_); rotate_left;
        · intro p; cases p <;> first | exact .inl (hp (by decide)) | (right; dsimp only [Part.same]))
    | split

theorem dramRead_kept {pts : List Part} {s0 : State} {part : Fin 4} {off : BitVec 35} {err : DramErr} {s : State}
    (hk : Kept pts s0 s) (hp : [.regs, .pf0, .pf1, .rng, .ddc, .qsc, .mil, .out] ⊆ pts)
    : Kept pts s0 (dramRead part off err s) := by
  unfold dramRead
  repeat' first
    | with_reducible assumption | intro _ | (guard_target =~ Kept _ _ _; extract_lets +lift)
    | with_reducible refine State.corrected_kept ?_ (inAll (by decide) hp)
    | with_reducible refine State.ueActs_kept ?_ (inAll (by decide) hp)
    | with_reducible refine State.ueMet_kept ?_ (inAll (by decide) hp) | with_reducible apply Kept.ite
    | (with_reducible refine Kept.fst (by assumption) ?_) | split

theorem cntClr_kept {pts : List Part} {s0 : State} {req : Req} {v : W64} {s : State} (hk : Kept pts s0 s)
    (hp : [.regs, .shadow, .acc, .pf0, .pf1, .rng, .ddc, .mil, .out] ⊆ pts) : Kept pts s0 (cntClr req v s) := by
  unfold cntClr
  repeat' first
    | with_reducible assumption | intro _ | (guard_target =~ Kept _ _ _; extract_lets +lift)
    | with_reducible refine State.ownWrite_kept ?_ (inAll (by decide) hp) | with_reducible apply Kept.ite
    | (with_reducible refine Kept.fst (by assumption) ?_)
    | (simp -zeta only [keptMk]; (with_reducible refine KeptMk.upd ?_ rfl ?_); rotate_left;
        · intro p; cases p <;> first | exact .inl (hp (by decide)) | (right; dsimp only [Part.same]))

theorem State.retrainChannel_kept {pts : List Part} {s0 : State} {s : State} {k : Nat} {c : Nat} {bad : Bool}
    (hk : Kept pts s0 s) (hp : [.regs, .pf0, .pf1, .rng, .mil, .out] ⊆ pts)
    : Kept pts s0 (s.retrainChannel k c bad) := by
  unfold State.retrainChannel
  repeat' first
    | with_reducible assumption | intro _ | (guard_target =~ Kept _ _ _; extract_lets +lift)
    | with_reducible refine State.set_kept ?_ (inAll (by decide) hp)
    | with_reducible refine State.raiseAt_kept ?_ (inAll (by decide) hp) | with_reducible apply Kept.ite

theorem setRetrain_kept {pts : List Part} {s0 : State} {fails : BitVec 9} {s : State} (hk : Kept pts s0 s)
    (hp : [.regs, .pf0, .pf1, .rng, .ddc, .mil, .out] ⊆ pts) : Kept pts s0 (setRetrain fails s) := by
  unfold setRetrain
  repeat' first
    | with_reducible assumption | intro _ | (guard_target =~ Kept _ _ _; extract_lets +lift)
    | with_reducible refine State.retrainChannel_kept ?_ (inAll (by decide) hp)
    | with_reducible apply Kept.ite | (with_reducible apply Kept.foldl; rotate_left; intro _ _ _)
    | (with_reducible refine Kept.fst (by assumption) ?_)
    | (simp -zeta only [keptMk]; (with_reducible refine KeptMk.upd ?_ rfl ?_); rotate_left;
        · intro p; cases p <;> first | exact .inl (hp (by decide)) | (right; dsimp only [Part.same]))
    | split | dsimp +zetaDelta only

theorem State.leaveSelfRefresh_kept {pts : List Part} {s0 : State} {s : State} {fails : BitVec 144}
    (hk : Kept pts s0 s) (hp : [.regs, .gen, .pf0, .pf1, .rng, .ddc, .mil, .out] ⊆ pts)
    : Kept pts s0 (s.leaveSelfRefresh fails) := by
  unfold State.leaveSelfRefresh
  repeat' first
    | with_reducible assumption | intro _ | (guard_target =~ Kept _ _ _; extract_lets +lift)
    | with_reducible refine State.retrainChannel_kept ?_ (inAll (by decide) hp)
    | with_reducible apply Kept.ite | (with_reducible apply Kept.foldl; rotate_left; intro _ _ _)
    | (with_reducible refine Kept.fst (by assumption) ?_)
    | (simp -zeta only [keptMk]; (with_reducible refine KeptMk.upd ?_ rfl ?_); rotate_left;
        · intro p; cases p <;> first | exact .inl (hp (by decide)) | (right; dsimp only [Part.same]))
    | split | dsimp +zetaDelta only

theorem State.spareStart_kept {pts : List Part} {s0 : State} {s : State} {req : Req} {n : Nat} {src : Nat}
    (hk : Kept pts s0 s) (hp : [.regs, .pf0, .pf1, .rng, .ddc, .mil, .out] ⊆ pts)
    : Kept pts s0 (s.spareStart req n src) := by
  unfold State.spareStart
  repeat' first
    | with_reducible assumption | intro _ | (guard_target =~ Kept _ _ _; extract_lets +lift)
    | with_reducible refine State.violation_kept ?_ (inAll (by decide) hp)
    | with_reducible refine State.spareBegin_kept ?_ (inAll (by decide) hp)
    | with_reducible refine State.sparing_kept ?_ (inAll (by decide) hp)
    | with_reducible refine State.raiseAt_kept ?_ (inAll (by decide) hp) | with_reducible apply Kept.ite

theorem spareGo_kept {pts : List Part} {s0 : State} {req : Req} {n : Fin 9} {v : W64} {s : State} (hk : Kept pts s0 s)
    (hp : [.regs, .acc, .pf0, .pf1, .rng, .ddc, .mil, .out] ⊆ pts) : Kept pts s0 (spareGo req n v s) := by
  unfold spareGo
  repeat' first
    | with_reducible assumption | intro _ | (guard_target =~ Kept _ _ _; extract_lets +lift)
    | with_reducible refine State.spareStart_kept ?_ (inAll (by decide) hp)
    | with_reducible refine State.flushRw_kept ?_ (inAll (by decide) hp) | with_reducible apply Kept.ite

theorem spareCopyDone_kept {pts : List Part} {s0 : State} {n : Fin 9} {bad : Bool} {s : State} (hk : Kept pts s0 s)
    (hp : [.regs, .pf0, .pf1, .rng, .ddc, .mil, .out] ⊆ pts) : Kept pts s0 (spareCopyDone n bad s) := by
  unfold spareCopyDone
  repeat' first
    | with_reducible assumption | intro _ | (guard_target =~ Kept _ _ _; extract_lets +lift)
    | with_reducible refine State.sparing_kept ?_ (inAll (by decide) hp)
    | with_reducible refine State.raiseAt_kept ?_ (inAll (by decide) hp)
    | with_reducible refine State.setSpare_kept ?_ (inAll (by decide) hp) | with_reducible apply Kept.ite
    | (with_reducible refine Kept.fst (by assumption) ?_) | split

theorem spareTest_kept {pts : List Part} {s0 : State} {n : Fin 9} {ue : Bool} {corr : BitVec 32} {s : State}
    (hk : Kept pts s0 s) (hp : [.regs, .pf0, .pf1, .rng, .ddc, .mil, .out] ⊆ pts)
    : Kept pts s0 (spareTest n ue corr s) := by
  unfold spareTest
  repeat' first
    | with_reducible assumption | intro _ | (guard_target =~ Kept _ _ _; extract_lets +lift)
    | with_reducible refine State.corrected_kept ?_ (inAll (by decide) hp)
    | with_reducible refine State.setSpare_kept ?_ (inAll (by decide) hp)
    | with_reducible refine State.healthTo_kept ?_ (inAll (by decide) hp)
    | with_reducible refine State.raiseAt_kept ?_ (inAll (by decide) hp) | with_reducible apply Kept.ite

theorem qscRun_kept {pts : List Part} {s0 : State} {req : Req} {v : W64} {s : State} (hk : Kept pts s0 s)
    (hp : [.regs, .shadow, .acc, .pf0, .pf1, .rng, .mil, .out] ⊆ pts) : Kept pts s0 (qscRun req v s) := by
  unfold qscRun
  repeat' first
    | with_reducible assumption | intro _ | (guard_target =~ Kept _ _ _; extract_lets +lift)
    | with_reducible refine State.violation_kept ?_ (inAll (by decide) hp)
    | with_reducible refine State.flushRw_kept ?_ (inAll (by decide) hp)
    | with_reducible refine State.ownWrite_kept ?_ (inAll (by decide) hp)
    | with_reducible refine State.set_kept ?_ (inAll (by decide) hp) | with_reducible apply Kept.ite

theorem queueFlushStart_kept {pts : List Part} {s0 : State} {req : Req} {v : W64} {s : State} (hk : Kept pts s0 s)
    (hp : [.regs, .shadow, .acc, .pf0, .pf1, .rng, .qsc, .mil, .out] ⊆ pts)
    : Kept pts s0 (queueFlushStart req v s) := by
  unfold queueFlushStart
  repeat' first
    | with_reducible assumption | intro _ | (guard_target =~ Kept _ _ _; extract_lets +lift)
    | with_reducible refine State.ownWrite_kept ?_ (inAll (by decide) hp)
    | with_reducible refine State.set_kept ?_ (inAll (by decide) hp) | with_reducible apply Kept.ite
    | (with_reducible refine Kept.fst (by assumption) ?_)
    | (simp -zeta only [keptMk]; (with_reducible refine KeptMk.upd ?_ rfl ?_); rotate_left;
        · intro p; cases p <;> first | exact .inl (hp (by decide)) | (right; dsimp only [Part.same]))
    | split

theorem queueFlushDone_kept {pts : List Part} {s0 : State} {s : State} (hk : Kept pts s0 s)
    (hp : [.regs, .pf0, .pf1, .rng, .bpm, .adm, .qsc, .fab, .lin, .mil, .out] ⊆ pts)
    : Kept pts s0 (queueFlushDone s) := by
  unfold queueFlushDone
  repeat' first
    | with_reducible assumption | intro _ | (guard_target =~ Kept _ _ _; extract_lets +lift)
    | with_reducible refine State.takeLate_kept ?_ (inAll (by decide) hp)
    | with_reducible refine State.raise_kept ?_ (inAll (by decide) hp)
    | with_reducible refine State.set_kept ?_ (inAll (by decide) hp)
    | with_reducible refine State.dropHead_kept ?_ (inAll (by decide) hp) | with_reducible apply Kept.ite
    | (with_reducible refine Kept.fst (by assumption) ?_)
    | (simp -zeta only [keptMk]; (with_reducible refine KeptMk.upd ?_ rfl ?_); rotate_left;
        · intro p; cases p <;> first | exact .inl (hp (by decide)) | (right; dsimp only [Part.same]))
    | split | dsimp +zetaDelta only

theorem creditRequest_kept {pts : List Part} {s0 : State} {q : BitVec 20} {s : State} (hk : Kept pts s0 s)
    (hp : [.qsc, .fab] ⊆ pts) : Kept pts s0 (creditRequest q s) := by
  unfold creditRequest
  repeat' first
    | with_reducible assumption | intro _ | (guard_target =~ Kept _ _ _; extract_lets +lift)
    | with_reducible refine State.modQueue_kept ?_ (inAll (by decide) hp)
    | with_reducible refine State.sendMsg_kept ?_ (inAll (by decide) hp) | with_reducible apply Kept.ite

theorem State.deferred_kept {pts : List Part} {s0 : State} {s : State} {q : Nat} (hk : Kept pts s0 s)
    (hp : [.qsc] ⊆ pts) : Kept pts s0 (s.deferred q) := by
  unfold State.deferred
  repeat' first
    | with_reducible assumption | intro _
    | with_reducible refine State.modQueue_kept ?_ (inAll (by decide) hp)

theorem grant_kept {pts : List Part} {s0 : State} {s : State} (hk : Kept pts s0 s) (hp : [.qsc, .fab] ⊆ pts)
    : Kept pts s0 (grant s) := by
  unfold grant
  repeat' first
    | with_reducible assumption | intro _ | (guard_target =~ Kept _ _ _; extract_lets +lift)
    | with_reducible refine State.setQueue_kept ?_ (inAll (by decide) hp)
    | with_reducible refine State.voqSettle_kept ?_ (inAll (by decide) hp)
    | with_reducible refine State.takeRx_kept ?_ (inAll (by decide) hp) (by assumption)
    | with_reducible apply Kept.ite | (with_reducible refine Kept.fst (by assumption) ?_)
    | (simp -zeta only [keptMk]; (with_reducible refine KeptMk.upd ?_ rfl ?_); rotate_left;
        · intro p; cases p <;> first | exact .inl (hp (by decide)) | (right; dsimp only [Part.same]))
    | split | dsimp +zetaDelta only

theorem defer_kept {pts : List Part} {s0 : State} {s : State} (hk : Kept pts s0 s) (hp : [.qsc, .fab] ⊆ pts)
    : Kept pts s0 (defer s) := by
  unfold defer
  repeat' first
    | with_reducible assumption | intro _ | (guard_target =~ Kept _ _ _; extract_lets +lift)
    | with_reducible refine State.deferred_kept ?_ (inAll (by decide) hp)
    | with_reducible refine State.takeRx_kept ?_ (inAll (by decide) hp) (by assumption)
    | with_reducible apply Kept.ite | (with_reducible refine Kept.fst (by assumption) ?_) | split

theorem deferBackoffExpiry_kept {pts : List Part} {s0 : State} {q : BitVec 20} {s : State} (hk : Kept pts s0 s)
    (hp : [.qsc] ⊆ pts) : Kept pts s0 (deferBackoffExpiry q s) := by
  unfold deferBackoffExpiry
  repeat' first
    | with_reducible assumption | intro _ | (guard_target =~ Kept _ _ _; extract_lets +lift)
    | with_reducible refine State.modQueue_kept ?_ (inAll (by decide) hp) | with_reducible apply Kept.ite

theorem reqTimeout_kept {pts : List Part} {s0 : State} {q : BitVec 20} {s : State} (hk : Kept pts s0 s)
    (hp : [.regs, .pf0, .pf1, .rng, .qsc, .mil, .out] ⊆ pts) : Kept pts s0 (reqTimeout q s) := by
  unfold reqTimeout
  repeat' first
    | with_reducible assumption | intro _ | (guard_target =~ Kept _ _ _; extract_lets +lift)
    | with_reducible refine State.raise_kept ?_ (inAll (by decide) hp)
    | with_reducible refine State.count_kept ?_ (inAll (by decide) hp)
    | with_reducible refine State.deferred_kept ?_ (inAll (by decide) hp) | with_reducible apply Kept.ite

theorem State.reassembled_kept {pts : List Part} {s0 : State} {s : State} {a : EgrArr} (hk : Kept pts s0 s)
    (hp : [.regs, .pf0, .pf1, .rng, .bpm, .adm, .mil, .out] ⊆ pts) : Kept pts s0 (s.reassembled a) := by
  unfold State.reassembled
  repeat' first
    | with_reducible assumption | intro _ | (guard_target =~ Kept _ _ _; extract_lets +lift)
    | with_reducible refine State.cover_kept ?_ (inAll (by decide) hp)
    | with_reducible refine State.useCells_kept ?_ (inAll (by decide) hp)
    | with_reducible refine State.usedDown_kept ?_ (inAll (by decide) hp)
    | with_reducible refine State.countDrop_kept ?_ (inAll (by decide) hp) | with_reducible apply Kept.ite
    | (with_reducible refine Kept.fst (by assumption) ?_)
    | (simp -zeta only [keptMk]; (with_reducible refine KeptMk.upd ?_ rfl ?_); rotate_left;
        · intro p; cases p <;> first | exact .inl (hp (by decide)) | (right; dsimp only [Part.same]))
    | split | dsimp +zetaDelta only

theorem voqDequeue_kept {pts : List Part} {s0 : State} {ue : Bool} {s : State} (hk : Kept pts s0 s)
    (hp : [.regs, .pf0, .pf1, .rng, .bpm, .adm, .qsc, .fab, .lin, .mil, .out] ⊆ pts)
    : Kept pts s0 (voqDequeue ue s) := by
  unfold voqDequeue
  repeat' first
    | with_reducible assumption | intro _ | (guard_target =~ Kept _ _ _; extract_lets +lift)
    | with_reducible refine State.dropHead_kept ?_ (inAll (by decide) hp)
    | with_reducible refine State.popQueue_kept ?_ (inAll (by decide) hp)
    | with_reducible refine State.modQueue_kept ?_ (inAll (by decide) hp)
    | with_reducible refine State.reassembled_kept ?_ (inAll (by decide) hp)
    | with_reducible refine State.stream_kept ?_ (inAll (by decide) hp)
    | with_reducible refine State.voqSettle_kept ?_ (inAll (by decide) hp) | with_reducible apply Kept.ite
    | (with_reducible refine Kept.fst (by assumption) ?_) | split | dsimp +zetaDelta only

theorem State.enterReq_kept {pts : List Part} {s0 : State} {s : State} {r : CrdReq} (hk : Kept pts s0 s)
    (hp : [.regs, .pf0, .pf1, .rng, .crd, .mil, .out] ⊆ pts) : Kept pts s0 (s.enterReq r) := by
  unfold State.enterReq
  repeat' first
    | with_reducible assumption | intro _ | (guard_target =~ Kept _ _ _; extract_lets +lift)
    | with_reducible refine State.raise_kept ?_ (inAll (by decide) hp)
    | with_reducible refine State.count_kept ?_ (inAll (by decide) hp) | with_reducible apply Kept.ite
    | (with_reducible refine Kept.fst (by assumption) ?_)
    | (simp -zeta only [keptMk]; (with_reducible refine KeptMk.upd ?_ rfl ?_); rotate_left;
        · intro p; cases p <;> first | exact .inl (hp (by decide)) | (right; dsimp only [Part.same]))

theorem requestArrival_kept {pts : List Part} {s0 : State} {s : State} (hk : Kept pts s0 s)
    (hp : [.regs, .pf0, .pf1, .rng, .crd, .fab, .mil, .out] ⊆ pts) : Kept pts s0 (requestArrival s) := by
  unfold requestArrival
  repeat' first
    | with_reducible assumption | intro _ | (guard_target =~ Kept _ _ _; extract_lets +lift)
    | with_reducible refine State.enterReq_kept ?_ (inAll (by decide) hp)
    | with_reducible refine State.takeRx_kept ?_ (inAll (by decide) hp) (by assumption)
    | with_reducible apply Kept.ite | (with_reducible refine Kept.fst (by assumption) ?_) | split

theorem State.crdSettle_kept {pts : List Part} {s0 : State} {s : State} (hk : Kept pts s0 s) (hp : [.crd] ⊆ pts)
    : Kept pts s0 (s.crdSettle) := by
  unfold State.crdSettle
  repeat' first
    | with_reducible assumption | intro _ | (guard_target =~ Kept _ _ _; extract_lets +lift)
    | with_reducible apply Kept.ite | (with_reducible refine Kept.fst (by assumption) ?_)
    | (simp -zeta only [keptMk]; (with_reducible refine KeptMk.upd ?_ rfl ?_); rotate_left;
        · intro p; cases p <;> first | exact .inl (hp (by decide)) | (right; dsimp only [Part.same]))

theorem State.judgeReq_kept {pts : List Part} {s0 : State} {s : State} {r : CrdReq} (hk : Kept pts s0 s)
    (hp : [.regs, .crd, .fab] ⊆ pts) : Kept pts s0 (s.judgeReq r) := by
  unfold State.judgeReq
  repeat' first
    | with_reducible assumption | intro _ | (guard_target =~ Kept _ _ _; extract_lets +lift)
    | with_reducible refine State.sendMsg_kept ?_ (inAll (by decide) hp)
    | with_reducible refine State.count_kept ?_ (inAll (by decide) hp)
    | with_reducible refine State.set_kept ?_ (inAll (by decide) hp) | with_reducible apply Kept.ite
    | (with_reducible refine Kept.fst (by assumption) ?_)
    | (simp -zeta only [keptMk]; (with_reducible refine KeptMk.upd ?_ rfl ?_); rotate_left;
        · intro p; cases p <;> first | exact .inl (hp (by decide)) | (right; dsimp only [Part.same]))
    | split | dsimp +zetaDelta only

theorem creditSlot_kept {pts : List Part} {s0 : State} {s : State} (hk : Kept pts s0 s)
    (hp : [.regs, .crd, .fab] ⊆ pts) : Kept pts s0 (creditSlot s) := by
  unfold creditSlot
  repeat' first
    | with_reducible assumption | intro _ | (guard_target =~ Kept _ _ _; extract_lets +lift)
    | with_reducible refine State.crdSettle_kept ?_ (inAll (by decide) hp)
    | with_reducible refine State.judgeReq_kept ?_ (inAll (by decide) hp) | with_reducible apply Kept.ite
    | (with_reducible apply Kept.foldl; rotate_left; intro _ _ _)
    | (with_reducible refine Kept.fst (by assumption) ?_)
    | (simp -zeta only [keptMk]; (with_reducible refine KeptMk.upd ?_ rfl ?_); rotate_left;
        · intro p; cases p <;> first | exact .inl (hp (by decide)) | (right; dsimp only [Part.same]))
    | split | dsimp +zetaDelta only

theorem creditReturnReceive_kept {pts : List Part} {s0 : State} {s : State} (hk : Kept pts s0 s)
    (hp : [.regs, .fab] ⊆ pts) : Kept pts s0 (creditReturnReceive s) := by
  unfold creditReturnReceive
  repeat' first
    | with_reducible assumption | intro _ | (guard_target =~ Kept _ _ _; extract_lets +lift)
    | with_reducible refine State.usedDown_kept ?_ (inAll (by decide) hp)
    | with_reducible refine State.takeRx_kept ?_ (inAll (by decide) hp) (by assumption)
    | with_reducible apply Kept.ite | (with_reducible refine Kept.fst (by assumption) ?_) | split

theorem idleClr_kept {pts : List Part} {s0 : State} {g : Fin 32} {k : Fin 8} {s : State} (hk : Kept pts s0 s)
    (hp : [.regs] ⊆ pts) : Kept pts s0 (idleClr g k s) := by
  unfold idleClr
  repeat' first
    | with_reducible assumption | intro _ | with_reducible refine State.set_kept ?_ (inAll (by decide) hp)

theorem crdResEnable_kept {pts : List Part} {s0 : State} {req : Req} {r : Fin 4096} {v : W64} {s : State}
    (hk : Kept pts s0 s) (hp : [.regs, .shadow, .acc, .pf0, .pf1, .rng, .crd, .mil, .out] ⊆ pts)
    : Kept pts s0 (crdResEnable req r v s) := by
  unfold crdResEnable
  repeat' first
    | with_reducible assumption | intro _ | (guard_target =~ Kept _ _ _; extract_lets +lift)
    | with_reducible refine State.crdSettle_kept ?_ (inAll (by decide) hp)
    | with_reducible refine State.ownWrite_kept ?_ (inAll (by decide) hp)
    | with_reducible refine State.set_kept ?_ (inAll (by decide) hp)
    | with_reducible refine State.violation_kept ?_ (inAll (by decide) hp) | with_reducible apply Kept.ite

theorem egressEnqueue_kept {pts : List Part} {s0 : State} {s : State} (hk : Kept pts s0 s)
    (hp : [.regs, .pf0, .pf1, .rng, .bpm, .adm, .qsc, .lin, .mil, .out] ⊆ pts) : Kept pts s0 (egressEnqueue s) := by
  unfold egressEnqueue
  repeat' first
    | with_reducible assumption | intro _ | (guard_target =~ Kept _ _ _; extract_lets +lift)
    | with_reducible refine State.usedDown_kept ?_ (inAll (by decide) hp)
    | with_reducible refine State.admitDrop_kept ?_ (inAll (by decide) hp)
    | with_reducible refine State.dropCells_kept ?_ (inAll (by decide) hp)
    | with_reducible refine State.takeIn_kept ?_ (inAll (by decide) hp)
    | with_reducible refine State.roleDiscard_kept ?_ (inAll (by decide) hp)
    | with_reducible apply Kept.ite | (with_reducible refine Kept.fst (by assumption) ?_)
    | (simp -zeta only [keptMk]; (with_reducible refine KeptMk.upd ?_ rfl ?_); rotate_left;
        · intro p; cases p <;> first | exact .inl (hp (by decide)) | (right; dsimp only [Part.same]))
    | split | dsimp +zetaDelta only

theorem State.wdrr_kept {pts : List Part} {s0 : State} {s : State} {level : Nat} {cs : List Nat} {a4 : Nat} {a5 : Nat}
    (hk : Kept pts s0 s) (hp : [.qsc] ⊆ pts) : Kept pts s0 (s.wdrr level cs a4 a5).1 := by
  induction a4 generalizing s a5 with
  | zero => exact hk
  | succ n ih =>
    unfold State.wdrr; split
    · exact hk
    · exact ih (State.setDeficit_kept hk (inAll (by decide) hp))

theorem State.chooseChild_kept {pts : List Part} {s0 : State} {s : State} {level : Nat} {parent : Nat} {cs : List Nat}
    (hk : Kept pts s0 s) (hp : [.qsc] ⊆ pts) : Kept pts s0 (s.chooseChild level parent cs).1 := by
  exact (State.wdrr_kept hk (inAll (by decide) hp)).trans ⟨fun p hq => by cases p <;> first | rfl | exact absurd (hp (by decide)) hq, rfl, rfl, id, id, id, id, List.suffix_refl _, Nat.le_refl _⟩

theorem State.walk_kept {pts : List Part} {s0 : State} {s : State} {a2 : Nat} {a3 : Nat} {a4 : Nat}
    {a5 : List (List Nat)} (hk : Kept pts s0 s) (hp : [.qsc] ⊆ pts) : Kept pts s0 (s.walk a2 a3 a4 a5).1 := by
  induction a2 generalizing s a3 a4 a5 with
  | zero => exact hk
  | succ n ih => exact ih (State.chooseChild_kept hk (inAll (by decide) hp))

theorem State.chargeNode_kept {pts : List Part} {s0 : State} {s : State} {level : Nat} {i : Nat} {len : Nat}
    {wasGreen : Bool} (hk : Kept pts s0 s) (hp : [.qsc] ⊆ pts) : Kept pts s0 (s.chargeNode level i len wasGreen) := by
  unfold State.chargeNode
  repeat' first
    | with_reducible assumption | intro _ | (guard_target =~ Kept _ _ _; extract_lets +lift)
    | with_reducible refine State.setBucket_kept ?_ (inAll (by decide) hp)

theorem State.sendSelected_kept {pts : List Part} {s0 : State} {s : State} {p : Nat} {q : Nat} {x : QPkt} {ue : Bool}
    (hk : Kept pts s0 s) (hp : [.regs, .couch, .pf0, .pf1, .rng, .bpm, .adm, .qsc, .lin, .mil, .out] ⊆ pts)
    : Kept pts s0 (s.sendSelected p q x ue) := by
  unfold State.sendSelected
  repeat' first
    | with_reducible assumption | intro _ | (guard_target =~ Kept _ _ _; extract_lets +lift)
    | with_reducible refine State.popQueue_kept ?_ (inAll (by decide) hp)
    | with_reducible refine State.usedDown_kept ?_ (inAll (by decide) hp)
    | with_reducible refine State.portMark_kept ?_ (inAll (by decide) hp)
    | with_reducible refine State.modQueue_kept ?_ (inAll (by decide) hp)
    | with_reducible refine State.chargeNode_kept ?_ (inAll (by decide) hp)
    | with_reducible refine State.setDeficit_kept ?_ (inAll (by decide) hp)
    | with_reducible refine State.emptied_kept ?_ (inAll (by decide) hp)
    | with_reducible refine State.countDrop_kept ?_ (inAll (by decide) hp) | with_reducible apply Kept.ite
    | (with_reducible apply Kept.foldl; rotate_left; intro _ _ _)
    | (with_reducible refine Kept.fst (by assumption) ?_)
    | (simp -zeta only [keptMk]; (with_reducible refine KeptMk.upd ?_ rfl ?_); rotate_left;
        · intro p; cases p <;> first | exact .inl (hp (by decide)) | (right; dsimp only [Part.same]))
    | split | dsimp +zetaDelta only

theorem schedulerSelection_kept {pts : List Part} {s0 : State} {port : Fin 288} {ue : Bool} {s : State}
    (hk : Kept pts s0 s) (hp : [.regs, .couch, .pf0, .pf1, .rng, .bpm, .adm, .qsc, .fab, .lin, .mil, .out] ⊆ pts)
    : Kept pts s0 (schedulerSelection port ue s) := by
  unfold schedulerSelection
  repeat' first
    | with_reducible assumption | intro _ | (guard_target =~ Kept _ _ _; extract_lets +lift)
    | with_reducible refine State.dropOversizes_kept ?_ (inAll (by decide) hp)
    | with_reducible refine State.gateSettle_kept ?_ (inAll (by decide) hp)
    | with_reducible refine State.walk_kept ?_ (inAll (by decide) hp)
    | with_reducible refine State.sendSelected_kept ?_ (inAll (by decide) hp)
    | with_reducible apply Kept.ite | (with_reducible refine Kept.fst (by assumption) ?_) | split

theorem State.linkTo_kept {pts : List Part} {s0 : State} {s : State} {p : Nat} {up : Bool} (hk : Kept pts s0 s)
    (hp : [.regs, .pf0, .pf1, .rng, .mil, .out] ⊆ pts) : Kept pts s0 (s.linkTo p up) := by
  unfold State.linkTo
  repeat' first
    | with_reducible assumption | intro _ | (guard_target =~ Kept _ _ _; extract_lets +lift)
    | with_reducible refine State.raiseAt_kept ?_ (inAll (by decide) hp)
    | with_reducible refine State.set_kept ?_ (inAll (by decide) hp) | with_reducible apply Kept.ite

theorem State.alignTo_kept {pts : List Part} {s0 : State} {s : State} {p : Nat} {yes : Bool} (hk : Kept pts s0 s)
    (hp : [.regs, .pf0, .pf1, .rng, .lin, .mil, .out] ⊆ pts) : Kept pts s0 (s.alignTo p yes) := by
  unfold State.alignTo
  repeat' first
    | with_reducible assumption | intro _ | (guard_target =~ Kept _ _ _; extract_lets +lift)
    | with_reducible refine State.linkTo_kept ?_ (inAll (by decide) hp)
    | with_reducible refine State.set_kept ?_ (inAll (by decide) hp) | with_reducible apply Kept.ite
    | (with_reducible refine Kept.fst (by assumption) ?_)
    | (simp -zeta only [keptMk]; (with_reducible refine KeptMk.upd ?_ rfl ?_); rotate_left;
        · intro p; cases p <;> first | exact .inl (hp (by decide)) | (right; dsimp only [Part.same]))
    | split | dsimp +zetaDelta only

theorem portLinkUp_kept {pts : List Part} {s0 : State} {port : Fin 256} {s : State} (hk : Kept pts s0 s)
    (hp : [.regs, .pf0, .pf1, .rng, .lin, .mil, .out] ⊆ pts) : Kept pts s0 (portLinkUp port s) := by
  unfold portLinkUp
  repeat' first
    | with_reducible assumption | intro _ | (guard_target =~ Kept _ _ _; extract_lets +lift)
    | with_reducible refine State.alignTo_kept ?_ (inAll (by decide) hp)
    | with_reducible refine State.set_kept ?_ (inAll (by decide) hp) | with_reducible apply Kept.ite

theorem remoteFault_kept {pts : List Part} {s0 : State} {port : Fin 256} {started : Bool} {s : State}
    (hk : Kept pts s0 s) (hp : [.regs, .pf0, .pf1, .rng, .mil, .out] ⊆ pts)
    : Kept pts s0 (remoteFault port started s) := by
  unfold remoteFault
  repeat' first
    | with_reducible assumption | intro _ | (guard_target =~ Kept _ _ _; extract_lets +lift)
    | with_reducible refine State.linkTo_kept ?_ (inAll (by decide) hp)
    | with_reducible refine State.set_kept ?_ (inAll (by decide) hp) | with_reducible apply Kept.ite

theorem State.sliceLinksDown_kept {pts : List Part} {s0 : State} {s : State} {k : Nat} (hk : Kept pts s0 s)
    (hp : [.regs, .pf0, .pf1, .rng, .lin, .mil, .out] ⊆ pts) : Kept pts s0 (s.sliceLinksDown k) := by
  unfold State.sliceLinksDown
  repeat' first
    | with_reducible assumption | intro _ | (guard_target =~ Kept _ _ _; extract_lets +lift)
    | with_reducible refine State.linkTo_kept ?_ (inAll (by decide) hp) | with_reducible apply Kept.ite
    | (with_reducible apply Kept.foldl; rotate_left; intro _ _ _)
    | (with_reducible refine Kept.fst (by assumption) ?_)
    | (simp -zeta only [keptMk]; (with_reducible refine KeptMk.upd ?_ rfl ?_); rotate_left;
        · intro p; cases p <;> first | exact .inl (hp (by decide)) | (right; dsimp only [Part.same]))

theorem State.sliceWrite_kept {pts : List Part} {s0 : State} {s : State} {req : Req} {k : Nat} {v : W64}
    (hk : Kept pts s0 s)
    (hp : [.freeCtr, .regs, .shadow, .acc, .gen, .pf0, .pf1, .rng, .sem, .fab, .prt, .lin, .pmn, .tim, .mil, .out] ⊆ pts)
    : Kept pts s0 (s.sliceWrite req k v) := by
  unfold State.sliceWrite
  repeat' first
    | with_reducible assumption | intro _ | (guard_target =~ Kept _ _ _; extract_lets +lift)
    | with_reducible refine State.watchSf_kept ?_ (inAll (by decide) hp) ?_
    | with_reducible refine State.ownWrite_kept ?_ (inAll (by decide) hp)
    | with_reducible refine State.violation_kept ?_ (inAll (by decide) hp)
    | with_reducible refine State.set_kept ?_ (inAll (by decide) hp)
    | with_reducible refine State.sliceLinksDown_kept ?_ (inAll (by decide) hp)
    | with_reducible refine State.protJudge_kept ?_ (inAll (by decide) hp) | with_reducible apply Kept.ite

theorem sliceRun_kept {pts : List Part} {s0 : State} {req : Req} {slice : Fin 16} {v : W64} {s : State}
    (hk : Kept pts s0 s)
    (hp : [.freeCtr, .regs, .shadow, .acc, .gen, .pf0, .pf1, .rng, .sem, .fab, .prt, .lin, .pmn, .tim, .mil, .out] ⊆ pts)
    : Kept pts s0 (sliceRun req slice v s) := by
  unfold sliceRun
  repeat' first
    | with_reducible assumption | intro _
    | with_reducible refine State.sliceWrite_kept ?_ (inAll (by decide) hp)

theorem sliceStop_kept {pts : List Part} {s0 : State} {req : Req} {slice : Fin 16} {v : W64} {s : State}
    (hk : Kept pts s0 s)
    (hp : [.freeCtr, .regs, .shadow, .acc, .gen, .pf0, .pf1, .rng, .sem, .fab, .prt, .lin, .pmn, .tim, .mil, .out] ⊆ pts)
    : Kept pts s0 (sliceStop req slice v s) := by
  unfold sliceStop
  repeat' first
    | with_reducible assumption | intro _
    | with_reducible refine State.sliceWrite_kept ?_ (inAll (by decide) hp)

theorem portEnable_kept {pts : List Part} {s0 : State} {req : Req} {port : Fin 256} {v : W64} {s : State}
    (hk : Kept pts s0 s) (hp : [.regs, .shadow, .acc, .pf0, .pf1, .rng, .mil, .out] ⊆ pts)
    : Kept pts s0 (portEnable req port v s) := by
  unfold portEnable
  repeat' first
    | with_reducible assumption | intro _
    | with_reducible refine State.ownWrite_kept ?_ (inAll (by decide) hp)

theorem State.pfcFrame_kept {pts : List Part} {s0 : State} {s : State} {p : Nat} {m : Mac} {en : Nat}
    {quanta : List Nat} (hk : Kept pts s0 s) (hp : [.regs] ⊆ pts) : Kept pts s0 (s.pfcFrame p m en quanta) := by
  unfold State.pfcFrame
  repeat' first
    | with_reducible assumption | intro _ | (guard_target =~ Kept _ _ _; extract_lets +lift)
    | with_reducible refine State.count_kept ?_ (inAll (by decide) hp)
    | with_reducible refine State.set_kept ?_ (inAll (by decide) hp) | with_reducible apply Kept.ite
    | (with_reducible refine Kept.fst (by assumption) ?_) | split

theorem pfcReceive_kept {pts : List Part} {s0 : State} {port : Fin 256} {en : BitVec 8} {quanta : List (BitVec 16)}
    {s : State} (hk : Kept pts s0 s) (hp : [.regs] ⊆ pts) : Kept pts s0 (pfcReceive port en quanta s) := by
  unfold pfcReceive
  repeat' first
    | with_reducible assumption | intro _ | (guard_target =~ Kept _ _ _; extract_lets +lift)
    | with_reducible refine State.pfcFrame_kept ?_ (inAll (by decide) hp)
    | with_reducible refine State.count_kept ?_ (inAll (by decide) hp) | with_reducible apply Kept.ite
    | (with_reducible refine Kept.fst (by assumption) ?_) | split

theorem State.frameCount_kept {pts : List Part} {s0 : State} {s : State} {p : Nat} {fcs : BitVec 32} {good : Bool}
    (hk : Kept pts s0 s) (hp : [.lin] ⊆ pts) : Kept pts s0 (s.frameCount p fcs good) := by
  unfold State.frameCount
  repeat' first
    | with_reducible assumption | intro _ | (guard_target =~ Kept _ _ _; extract_lets +lift)
    | with_reducible apply Kept.ite | (with_reducible refine Kept.fst (by assumption) ?_)
    | (simp -zeta only [keptMk]; (with_reducible refine KeptMk.upd ?_ rfl ?_); rotate_left;
        · intro p; cases p <;> first | exact .inl (hp (by decide)) | (right; dsimp only [Part.same]))

theorem frameReceive_kept {pts : List Part} {s0 : State} {port : Fin 256} {frame : List Byte} {fcs : BitVec 32}
    {s : State} (hk : Kept pts s0 s) (hp : [.regs, .lin, .arrivals] ⊆ pts)
    : Kept pts s0 (frameReceive port frame fcs s) := by
  unfold frameReceive
  repeat' first
    | with_reducible assumption | intro _ | (guard_target =~ Kept _ _ _; extract_lets +lift)
    | with_reducible refine State.frameCount_kept ?_ (inAll (by decide) hp)
    | with_reducible refine State.count_kept ?_ (inAll (by decide) hp)
    | with_reducible refine State.pfcFrame_kept ?_ (inAll (by decide) hp)
    | with_reducible refine State.arrive_kept ?_ (inAll (by decide) hp) | with_reducible apply Kept.ite
    | (with_reducible refine Kept.fst (by assumption) ?_) | split

theorem pfcPauseExpiry_kept {pts : List Part} {s0 : State} {port : Fin 256} {cls : Fin 8} {s : State}
    (hk : Kept pts s0 s) (hp : [.regs] ⊆ pts) : Kept pts s0 (pfcPauseExpiry port cls s) := by
  unfold pfcPauseExpiry
  repeat' first
    | with_reducible assumption | intro _ | (guard_target =~ Kept _ _ _; extract_lets +lift)
    | with_reducible refine State.set_kept ?_ (inAll (by decide) hp)

theorem pfcXoffRepeat_kept {pts : List Part} {s0 : State} {port : Fin 256} {cls : Fin 8} {s : State}
    (hk : Kept pts s0 s) (hp : [.regs, .out] ⊆ pts) : Kept pts s0 (pfcXoffRepeat port cls s) := by
  unfold pfcXoffRepeat
  repeat' first
    | with_reducible assumption | intro _ | (guard_target =~ Kept _ _ _; extract_lets +lift)
    | with_reducible refine State.sendPfc_kept ?_ (inAll (by decide) hp) | with_reducible apply Kept.ite

theorem State.defectTo_kept {pts : List Part} {s0 : State} {s : State} {e : Nat} {f : State → State}
    (hk : Kept pts s0 s)
    (hp : [.freeCtr, .regs, .gen, .pf0, .pf1, .rng, .sem, .fab, .prt, .pmn, .tim, .mil, .out] ⊆ pts)
    (hf : ∀ s, Kept pts s0 s → Kept pts s0 (f s)) : Kept pts s0 (s.defectTo e f) := by
  unfold State.defectTo
  repeat' first
    | with_reducible assumption | intro _ | with_reducible apply hf | (guard_target =~ Kept _ _ _; extract_lets +lift)
    | with_reducible refine State.protJudge_kept ?_ (inAll (by decide) hp)
    | with_reducible refine State.settleFab_kept ?_ (inAll (by decide) hp)
    | with_reducible refine State.failSettle_kept ?_ (inAll (by decide) hp)
    | with_reducible refine State.watchSf_kept ?_ (inAll (by decide) hp) ?_

theorem State.modEnt_kept {pts : List Part} {s0 : State} {s : State} {e : Nat} {f : EntSt → EntSt}
    (hk : Kept pts s0 s) (hp : [.pmn] ⊆ pts) : Kept pts s0 (s.modEnt e f) := by
  unfold State.modEnt
  repeat' first
    | with_reducible assumption | intro _
    | with_reducible refine State.setEnt_kept ?_ (inAll (by decide) hp)

theorem State.portDown_kept {pts : List Part} {s0 : State} {s : State} {a2 : SigUnit} (hk : Kept pts s0 s)
    (hp : [.regs, .pf0, .pf1, .rng, .fab, .lin, .mil, .out] ⊆ pts) : Kept pts s0 (s.portDown a2) := by
  unfold State.portDown
  repeat' first
    | with_reducible assumption | intro _ | (guard_target =~ Kept _ _ _; extract_lets +lift)
    | with_reducible refine State.alignTo_kept ?_ (inAll (by decide) hp)
    | with_reducible refine State.linkUnlock_kept ?_ (inAll (by decide) hp)
    | with_reducible apply Kept.ite | (with_reducible refine Kept.fst (by assumption) ?_) | split

theorem losDeclare_kept {pts : List Part} {s0 : State} {u : SigUnit} {s : State} (hk : Kept pts s0 s)
    (hp : [.freeCtr, .regs, .gen, .pf0, .pf1, .rng, .sem, .fab, .prt, .lin, .pmn, .tim, .mil, .out] ⊆ pts)
    : Kept pts s0 (losDeclare u s) := by
  unfold losDeclare
  repeat' first
    | with_reducible assumption | intro _ | (guard_target =~ Kept _ _ _; extract_lets +lift)
    | with_reducible refine State.defectTo_kept ?_ (inAll (by decide) hp) ?_
    | with_reducible refine State.modEnt_kept ?_ (inAll (by decide) hp)
    | with_reducible refine State.portDown_kept ?_ (inAll (by decide) hp) | with_reducible apply Kept.ite

theorem loaDeclare_kept {pts : List Part} {s0 : State} {u : SigUnit} {s : State} (hk : Kept pts s0 s)
    (hp : [.freeCtr, .regs, .gen, .pf0, .pf1, .rng, .sem, .fab, .prt, .lin, .pmn, .tim, .mil, .out] ⊆ pts)
    : Kept pts s0 (loaDeclare u s) := by
  unfold loaDeclare
  repeat' first
    | with_reducible assumption | intro _ | (guard_target =~ Kept _ _ _; extract_lets +lift)
    | with_reducible refine State.defectTo_kept ?_ (inAll (by decide) hp) ?_
    | with_reducible refine State.modEnt_kept ?_ (inAll (by decide) hp)
    | with_reducible refine State.portDown_kept ?_ (inAll (by decide) hp) | with_reducible apply Kept.ite

theorem groupFail_kept {pts : List Part} {s0 : State} {n : Fin 32} {s : State} (hk : Kept pts s0 s)
    (hp : [.freeCtr, .regs, .gen, .pf0, .pf1, .rng, .sem, .fab, .prt, .pmn, .tim, .mil, .out] ⊆ pts)
    : Kept pts s0 (groupFail n s) := by
  unfold groupFail
  repeat' first
    | with_reducible assumption | intro _ | (guard_target =~ Kept _ _ _; extract_lets +lift)
    | with_reducible refine State.defectTo_kept ?_ (inAll (by decide) hp) ?_
    | with_reducible refine State.declareFail_kept ?_ (inAll (by decide) hp)

theorem clientFail_kept {pts : List Part} {s0 : State} {c : Fin 512} {s : State} (hk : Kept pts s0 s)
    (hp : [.freeCtr, .regs, .gen, .pf0, .pf1, .rng, .sem, .fab, .prt, .pmn, .tim, .mil, .out] ⊆ pts)
    : Kept pts s0 (clientFail c s) := by
  unfold clientFail
  repeat' first
    | with_reducible assumption | intro _ | (guard_target =~ Kept _ _ _; extract_lets +lift)
    | with_reducible refine State.defectTo_kept ?_ (inAll (by decide) hp) ?_
    | with_reducible refine State.declareFail_kept ?_ (inAll (by decide) hp)

theorem defectClear_kept {pts : List Part} {s0 : State} {d : Defect} {s : State} (hk : Kept pts s0 s)
    (hp : [.freeCtr, .regs, .gen, .pf0, .pf1, .rng, .sem, .fab, .prt, .pmn, .tim, .mil, .out] ⊆ pts)
    : Kept pts s0 (defectClear d s) := by
  unfold defectClear
  repeat' first
    | with_reducible assumption | intro _ | (guard_target =~ Kept _ _ _; extract_lets +lift)
    | with_reducible refine State.defectTo_kept ?_ (inAll (by decide) hp) ?_
    | with_reducible refine State.modEnt_kept ?_ (inAll (by decide) hp) | with_reducible apply Kept.ite
    | (with_reducible refine Kept.fst (by assumption) ?_) | split

theorem State.sdPeriod_kept {pts : List Part} {s0 : State} {s : State} {e : Nat} {symbols : Nat} {corrected : Nat}
    {uncorr : Nat} (hk : Kept pts s0 s) (hp : [.regs, .pf0, .pf1, .rng, .pmn, .mil, .out] ⊆ pts)
    : Kept pts s0 (s.sdPeriod e symbols corrected uncorr) := by
  unfold State.sdPeriod
  repeat' first
    | with_reducible assumption | intro _ | (guard_target =~ Kept _ _ _; extract_lets +lift)
    | with_reducible refine State.setEnt_kept ?_ (inAll (by decide) hp)
    | with_reducible refine State.sdTo_kept ?_ (inAll (by decide) hp) | with_reducible apply Kept.ite

theorem State.countErrors_kept {pts : List Part} {s0 : State} {s : State} {corrected : Nat} {uncorr : Nat} {e : Nat}
    (hk : Kept pts s0 s) (hp : [.regs] ⊆ pts) : Kept pts s0 (s.countErrors corrected uncorr e) := by
  unfold State.countErrors
  repeat' first
    | with_reducible assumption | intro _ | (guard_target =~ Kept _ _ _; extract_lets +lift)
    | with_reducible refine State.count_kept ?_ (inAll (by decide) hp) | with_reducible apply Kept.ite

theorem sdPeriodEnd_kept {pts : List Part} {s0 : State} {u : SigUnit} {symbols : BitVec 48} {corrected : BitVec 48}
    {uncorrectable : BitVec 48} {s : State} (hk : Kept pts s0 s)
    (hp : [.freeCtr, .regs, .gen, .pf0, .pf1, .rng, .sem, .fab, .prt, .pmn, .tim, .mil, .out] ⊆ pts)
    : Kept pts s0 (sdPeriodEnd u symbols corrected uncorrectable s) := by
  unfold sdPeriodEnd
  repeat' first
    | with_reducible assumption | intro _ | (guard_target =~ Kept _ _ _; extract_lets +lift)
    | with_reducible refine State.countErrors_kept ?_ (inAll (by decide) hp)
    | with_reducible refine State.protJudge_kept ?_ (inAll (by decide) hp)
    | with_reducible refine State.groupsSd_kept ?_ (inAll (by decide) hp)
    | with_reducible refine State.sdPeriod_kept ?_ (inAll (by decide) hp) | with_reducible apply Kept.ite
    | (with_reducible apply Kept.foldl; rotate_left; intro _ _ _)

theorem holdOffExpiry_kept {pts : List Part} {s0 : State} {ent : Fin 1120} {sd : Bool} {s : State}
    (hk : Kept pts s0 s)
    (hp : [.freeCtr, .regs, .gen, .pf0, .pf1, .rng, .sem, .fab, .prt, .pmn, .tim, .mil, .out] ⊆ pts)
    : Kept pts s0 (holdOffExpiry ent sd s) := by
  unfold holdOffExpiry
  repeat' first
    | with_reducible assumption | intro _ | (guard_target =~ Kept _ _ _; extract_lets +lift)
    | with_reducible refine State.protJudge_kept ?_ (inAll (by decide) hp)
    | with_reducible refine State.settleFab_kept ?_ (inAll (by decide) hp)
    | with_reducible refine State.setEnt_kept ?_ (inAll (by decide) hp) | with_reducible apply Kept.ite

theorem State.endSecondOf_kept {pts : List Part} {s0 : State} {s : State} {counts : List SecondBlocks} {e : Nat}
    (hk : Kept pts s0 s) (hp : [.regs, .pf0, .pf1, .rng, .pmn, .mil, .out] ⊆ pts)
    : Kept pts s0 (s.endSecondOf counts e) := by
  unfold State.endSecondOf
  repeat' first
    | with_reducible assumption | intro _ | (guard_target =~ Kept _ _ _; extract_lets +lift)
    | with_reducible refine State.setEnt_kept ?_ (inAll (by decide) hp)
    | with_reducible refine State.raiseAt_kept ?_ (inAll (by decide) hp) | with_reducible apply Kept.ite
    | (with_reducible refine Kept.fst (by assumption) ?_)
    | (simp -zeta only [keptMk]; (with_reducible refine KeptMk.upd ?_ rfl ?_); rotate_left;
        · intro p; cases p <;> first | exact .inl (hp (by decide)) | (right; dsimp only [Part.same]))
    | split | dsimp +zetaDelta only

theorem pmSecondEnd_kept {pts : List Part} {s0 : State} {counts : List SecondBlocks} {s : State} (hk : Kept pts s0 s)
    (hp : [.regs, .pf0, .pf1, .rng, .pmn, .mil, .out] ⊆ pts) : Kept pts s0 (pmSecondEnd counts s) := by
  unfold pmSecondEnd
  repeat' first
    | with_reducible assumption | intro _ | (guard_target =~ Kept _ _ _; extract_lets +lift)
    | with_reducible refine State.endSecondOf_kept ?_ (inAll (by decide) hp)
    | with_reducible apply Kept.ite | (with_reducible apply Kept.foldl; rotate_left; intro _ _ _)
    | (with_reducible refine Kept.fst (by assumption) ?_)
    | (simp -zeta only [keptMk]; (with_reducible refine KeptMk.upd ?_ rfl ?_); rotate_left;
        · intro p; cases p <;> first | exact .inl (hp (by decide)) | (right; dsimp only [Part.same]))
    | split | dsimp +zetaDelta only

theorem State.allBins_kept {pts : List Part} {s0 : State} {s : State} {f : Nat → PmBins → PmBins} (hk : Kept pts s0 s)
    (hp : [.pmn] ⊆ pts) : Kept pts s0 (s.allBins f) := by
  unfold State.allBins
  repeat' first
    | with_reducible assumption | intro _ | (guard_target =~ Kept _ _ _; extract_lets +lift)
    | with_reducible refine State.setEnt_kept ?_ (inAll (by decide) hp) | with_reducible apply Kept.ite
    | (with_reducible apply Kept.foldl; rotate_left; intro _ _ _)

theorem State.close15_kept {pts : List Part} {s0 : State} {s : State} {suspect : Bool} (hk : Kept pts s0 s)
    (hp : [.regs, .pf0, .pf1, .rng, .pmn, .mil, .out] ⊆ pts) : Kept pts s0 (s.close15 suspect) := by
  unfold State.close15
  repeat' first
    | with_reducible assumption | intro _ | (guard_target =~ Kept _ _ _; extract_lets +lift)
    | with_reducible refine State.allBins_kept ?_ (inAll (by decide) hp)
    | with_reducible refine State.raise_kept ?_ (inAll (by decide) hp)
    | with_reducible refine State.set_kept ?_ (inAll (by decide) hp)

theorem State.close24_kept {pts : List Part} {s0 : State} {s : State} {suspect : Bool} (hk : Kept pts s0 s)
    (hp : [.regs, .pf0, .pf1, .rng, .pmn, .mil, .out] ⊆ pts) : Kept pts s0 (s.close24 suspect) := by
  unfold State.close24
  repeat' first
    | with_reducible assumption | intro _ | (guard_target =~ Kept _ _ _; extract_lets +lift)
    | with_reducible refine State.allBins_kept ?_ (inAll (by decide) hp)
    | with_reducible refine State.raise_kept ?_ (inAll (by decide) hp) | with_reducible apply Kept.ite
    | (with_reducible refine Kept.fst (by assumption) ?_)
    | (simp -zeta only [keptMk]; (with_reducible refine KeptMk.upd ?_ rfl ?_); rotate_left;
        · intro p; cases p <;> first | exact .inl (hp (by decide)) | (right; dsimp only [Part.same]))

theorem State.commitSecond_kept {pts : List Part} {s0 : State} {s : State} (hk : Kept pts s0 s)
    (hp : [.regs, .pf0, .pf1, .rng, .pmn, .mil, .out] ⊆ pts) : Kept pts s0 (s.commitSecond) := by
  unfold State.commitSecond
  repeat' first
    | with_reducible assumption | intro _ | (guard_target =~ Kept _ _ _; extract_lets +lift)
    | with_reducible refine State.set_kept ?_ (inAll (by decide) hp)
    | with_reducible refine State.allBins_kept ?_ (inAll (by decide) hp)
    | with_reducible refine State.close15_kept ?_ (inAll (by decide) hp)
    | with_reducible refine State.close24_kept ?_ (inAll (by decide) hp) | with_reducible apply Kept.ite
    | (with_reducible refine Kept.fst (by assumption) ?_)
    | (simp -zeta only [keptMk]; (with_reducible refine KeptMk.upd ?_ rfl ?_); rotate_left;
        · intro p; cases p <;> first | exact .inl (hp (by decide)) | (right; dsimp only [Part.same]))
    | split | dsimp +zetaDelta only

theorem pmSecondCommit_kept {pts : List Part} {s0 : State} {s : State} (hk : Kept pts s0 s)
    (hp : [.regs, .pf0, .pf1, .rng, .pmn, .mil, .out] ⊆ pts) : Kept pts s0 (pmSecondCommit s) := by
  unfold pmSecondCommit
  repeat' first
    | with_reducible assumption | intro _ | (guard_target =~ Kept _ _ _; extract_lets +lift)
    | with_reducible refine State.commitSecond_kept ?_ (inAll (by decide) hp)
    | with_reducible apply Kept.ite

theorem State.suspectBins_kept {pts : List Part} {s0 : State} {s : State} (hk : Kept pts s0 s) (hp : [.pmn] ⊆ pts)
    : Kept pts s0 (s.suspectBins) := by
  unfold State.suspectBins
  repeat' first
    | with_reducible assumption | intro _ | (guard_target =~ Kept _ _ _; extract_lets +lift)
    | with_reducible refine State.allBins_kept ?_ (inAll (by decide) hp)

theorem State.commitAll_kept {pts : List Part} {s0 : State} {s : State} (hk : Kept pts s0 s)
    (hp : [.regs, .pf0, .pf1, .rng, .pmn, .mil, .out] ⊆ pts) : Kept pts s0 (s.commitAll) := by
  unfold State.commitAll
  repeat' first
    | with_reducible assumption | intro _ | (guard_target =~ Kept _ _ _; extract_lets +lift)
    | with_reducible refine State.commitSecond_kept ?_ (inAll (by decide) hp)
    | with_reducible apply Kept.ite | (with_reducible apply Kept.foldl; rotate_left; intro _ _ _)

theorem State.pmStepped_kept {pts : List Part} {s0 : State} {s : State} {old : Nat} (hk : Kept pts s0 s)
    (hp : [.regs, .pf0, .pf1, .rng, .pmn, .mil, .out] ⊆ pts) : Kept pts s0 (s.pmStepped old) := by
  unfold State.pmStepped
  repeat' first
    | with_reducible assumption | intro _ | (guard_target =~ Kept _ _ _; extract_lets +lift)
    | with_reducible refine State.commitAll_kept ?_ (inAll (by decide) hp)
    | with_reducible refine State.close15_kept ?_ (inAll (by decide) hp)
    | with_reducible refine State.close24_kept ?_ (inAll (by decide) hp)
    | with_reducible refine State.raise_kept ?_ (inAll (by decide) hp) | with_reducible apply Kept.ite
    | (with_reducible refine Kept.fst (by assumption) ?_)
    | (simp -zeta only [keptMk]; (with_reducible refine KeptMk.upd ?_ rfl ?_); rotate_left;
        · intro p; cases p <;> first | exact .inl (hp (by decide)) | (right; dsimp only [Part.same]))
    | split | dsimp +zetaDelta only

theorem State.pmTmBack_kept {pts : List Part} {s0 : State} {s : State} (hk : Kept pts s0 s)
    (hp : [.regs, .pf0, .pf1, .rng, .pmn, .mil, .out] ⊆ pts) : Kept pts s0 (s.pmTmBack) := by
  unfold State.pmTmBack
  repeat' first
    | with_reducible assumption | intro _ | (guard_target =~ Kept _ _ _; extract_lets +lift)
    | with_reducible refine State.raise_kept ?_ (inAll (by decide) hp)
    | with_reducible refine State.suspectBins_kept ?_ (inAll (by decide) hp)
    | with_reducible apply Kept.ite | (with_reducible refine Kept.fst (by assumption) ?_)
    | (simp -zeta only [keptMk]; (with_reducible refine KeptMk.upd ?_ rfl ?_); rotate_left;
        · intro p; cases p <;> first | exact .inl (hp (by decide)) | (right; dsimp only [Part.same]))

theorem State.pmFresh_kept {pts : List Part} {s0 : State} {s : State} (hk : Kept pts s0 s) (hp : [.pmn] ⊆ pts)
    : Kept pts s0 (s.pmFresh) := by
  unfold State.pmFresh
  repeat' first
    | with_reducible assumption | intro _ | (guard_target =~ Kept _ _ _; extract_lets +lift)
    | with_reducible apply Kept.ite | (with_reducible refine Kept.fst (by assumption) ?_)
    | (simp -zeta only [keptMk]; (with_reducible refine KeptMk.upd ?_ rfl ?_); rotate_left;
        · intro p; cases p <;> first | exact .inl (hp (by decide)) | (right; dsimp only [Part.same]))

theorem State.xcSettle_kept {pts : List Part} {s0 : State} {s : State} (hk : Kept pts s0 s) (hp : [.regs, .lin] ⊆ pts)
    : Kept pts s0 (s.xcSettle) := by
  unfold State.xcSettle
  repeat' first
    | with_reducible assumption | intro _ | (guard_target =~ Kept _ _ _; extract_lets +lift)
    | with_reducible refine State.count_kept ?_ (inAll (by decide) hp) | with_reducible apply Kept.ite
    | (with_reducible refine Kept.fst (by assumption) ?_)
    | (simp -zeta only [keptMk]; (with_reducible refine KeptMk.upd ?_ rfl ?_); rotate_left;
        · intro p; cases p <;> first | exact .inl (hp (by decide)) | (right; dsimp only [Part.same]))
    | split | dsimp +zetaDelta only

theorem State.pageSwitch_kept {pts : List Part} {s0 : State} {s : State} (hk : Kept pts s0 s)
    (hp : [.regs, .pf0, .pf1, .rng, .mil, .out] ⊆ pts) : Kept pts s0 (s.pageSwitch) := by
  unfold State.pageSwitch
  extract_lets s1 s2 s3 s4
  have h : Kept pts s0 s1 := hk.of_regs (f := swapPages) (fun l hl => by
    unfold swapPages
    exact rises_foldl_put _ _ _ _ (rises_foldl_put _ _ _ _ (rises_filter _ _ hl))) (hp (by decide))
  exact State.raise_kept (State.set_kept (State.set_kept (State.set_kept h (inAll (by decide) hp)) (inAll (by decide) hp)) (inAll (by decide) hp)) (inAll (by decide) hp)

theorem State.xcCtrl_kept {pts : List Part} {s0 : State} {s : State} {req : Req} {v : W64} (hk : Kept pts s0 s)
    (hp : [.regs, .shadow, .acc, .pf0, .pf1, .rng, .mil, .out] ⊆ pts) : Kept pts s0 (s.xcCtrl req v) := by
  unfold State.xcCtrl
  repeat' first
    | with_reducible assumption | intro _ | (guard_target =~ Kept _ _ _; extract_lets +lift)
    | with_reducible refine State.flushRw_kept ?_ (inAll (by decide) hp)
    | with_reducible refine State.set_kept ?_ (inAll (by decide) hp)
    | with_reducible refine State.violation_kept ?_ (inAll (by decide) hp)
    | with_reducible refine State.ownWrite_kept ?_ (inAll (by decide) hp)
    | with_reducible refine State.raise_kept ?_ (inAll (by decide) hp)
    | with_reducible refine State.count_kept ?_ (inAll (by decide) hp) | with_reducible apply Kept.ite

theorem copy_kept {pts : List Part} {s0 : State} {req : Req} {v : W64} {s : State} (hk : Kept pts s0 s)
    (hp : [.regs, .shadow, .acc, .pf0, .pf1, .rng, .mil, .out] ⊆ pts) : Kept pts s0 (copy req v s) := by
  unfold copy
  repeat' first
    | with_reducible assumption | intro _
    | with_reducible refine State.xcCtrl_kept ?_ (inAll (by decide) hp)

theorem arm_kept {pts : List Part} {s0 : State} {req : Req} {v : W64} {s : State} (hk : Kept pts s0 s)
    (hp : [.regs, .shadow, .acc, .pf0, .pf1, .rng, .mil, .out] ⊆ pts) : Kept pts s0 (arm req v s) := by
  unfold arm
  repeat' first
    | with_reducible assumption | intro _
    | with_reducible refine State.xcCtrl_kept ?_ (inAll (by decide) hp)

theorem disarm_kept {pts : List Part} {s0 : State} {req : Req} {v : W64} {s : State} (hk : Kept pts s0 s)
    (hp : [.regs, .shadow, .acc, .pf0, .pf1, .rng, .mil, .out] ⊆ pts) : Kept pts s0 (disarm req v s) := by
  unfold disarm
  repeat' first
    | with_reducible assumption | intro _
    | with_reducible refine State.xcCtrl_kept ?_ (inAll (by decide) hp)

theorem copyDone_kept {pts : List Part} {s0 : State} {s : State} (hk : Kept pts s0 s) (hp : [.regs] ⊆ pts)
    : Kept pts s0 (copyDone s) := by
  unfold copyDone; split
  · refine State.set_kept (hk.of_regs (f := copyPage) (fun l hl => ?_) (hp (by decide))) (inAll (by decide) hp)
    unfold copyPage
    exact rises_foldl_put _ _ _ _ (rises_filter _ _ hl)
  · exact hk

theorem State.groupWrite_kept {pts : List Part} {s0 : State} {s : State} {req : Req} {n : Nat} {v : W64}
    (hk : Kept pts s0 s)
    (hp : [.freeCtr, .regs, .shadow, .acc, .gen, .pf0, .pf1, .rng, .sem, .fab, .prt, .lin, .pmn, .tim, .mil, .out] ⊆ pts)
    : Kept pts s0 (s.groupWrite req n v) := by
  unfold State.groupWrite
  repeat' first
    | with_reducible assumption | intro _ | (guard_target =~ Kept _ _ _; extract_lets +lift)
    | with_reducible refine State.failSettle_kept ?_ (inAll (by decide) hp)
    | with_reducible refine State.watchSf_kept ?_ (inAll (by decide) hp) ?_
    | with_reducible refine State.ownWrite_kept ?_ (inAll (by decide) hp)
    | with_reducible refine State.protJudge_kept ?_ (inAll (by decide) hp) | with_reducible apply Kept.ite
    | (with_reducible refine Kept.fst (by assumption) ?_)
    | (simp -zeta only [keptMk]; (with_reducible refine KeptMk.upd ?_ rfl ?_); rotate_left;
        · intro p; cases p <;> first | exact .inl (hp (by decide)) | (right; dsimp only [Part.same]))

theorem flxGroupEnable_kept {pts : List Part} {s0 : State} {req : Req} {n : Fin 32} {v : W64} {s : State}
    (hk : Kept pts s0 s)
    (hp : [.freeCtr, .regs, .shadow, .acc, .gen, .pf0, .pf1, .rng, .sem, .fab, .prt, .lin, .pmn, .tim, .mil, .out] ⊆ pts)
    : Kept pts s0 (flxGroupEnable req n v s) := by
  unfold flxGroupEnable
  repeat' first
    | with_reducible assumption | intro _
    | with_reducible refine State.groupWrite_kept ?_ (inAll (by decide) hp)

theorem calReq_kept {pts : List Part} {s0 : State} {req : Req} {n : Fin 32} {v : W64} {s : State} (hk : Kept pts s0 s)
    (hp : [.freeCtr, .regs, .shadow, .acc, .gen, .pf0, .pf1, .rng, .sem, .fab, .prt, .lin, .pmn, .tim, .mil, .out] ⊆ pts)
    : Kept pts s0 (calReq req n v s) := by
  unfold calReq
  repeat' first
    | with_reducible assumption | intro _
    | with_reducible refine State.groupWrite_kept ?_ (inAll (by decide) hp)

theorem State.calTo_kept {pts : List Part} {s0 : State} {s : State} {n : Nat} (hk : Kept pts s0 s)
    (hp : [.regs, .pf0, .pf1, .rng, .lin, .mil, .out] ⊆ pts) : Kept pts s0 (s.calTo n) := by
  unfold State.calTo
  repeat' first
    | with_reducible assumption | intro _ | (guard_target =~ Kept _ _ _; extract_lets +lift)
    | with_reducible refine State.raise_kept ?_ (inAll (by decide) hp)
    | with_reducible refine State.set_kept ?_ (inAll (by decide) hp) | with_reducible apply Kept.ite
    | (with_reducible refine Kept.fst (by assumption) ?_)
    | (simp -zeta only [keptMk]; (with_reducible refine KeptMk.upd ?_ rfl ?_); rotate_left;
        · intro p; cases p <;> first | exact .inl (hp (by decide)) | (right; dsimp only [Part.same]))
    | split | dsimp +zetaDelta only

theorem State.calSwitch_kept {pts : List Part} {s0 : State} {s : State} {n : Nat} (hk : Kept pts s0 s)
    (hp : [.regs, .pf0, .pf1, .rng, .lin, .mil, .out] ⊆ pts) : Kept pts s0 (s.calSwitch n) := by
  unfold State.calSwitch
  repeat' first
    | with_reducible assumption | intro _ | (guard_target =~ Kept _ _ _; extract_lets +lift)
    | with_reducible refine State.calTo_kept ?_ (inAll (by decide) hp)
    | with_reducible refine State.xcSettle_kept ?_ (inAll (by decide) hp)
    | with_reducible refine State.pageSwitch_kept ?_ (inAll (by decide) hp)
    | with_reducible apply Kept.ite

theorem calendarSwitch_kept {pts : List Part} {s0 : State} {n : Fin 32} {s : State} (hk : Kept pts s0 s)
    (hp : [.regs, .pf0, .pf1, .rng, .lin, .mil, .out] ⊆ pts) : Kept pts s0 (calendarSwitch n s) := by
  unfold calendarSwitch
  repeat' first
    | with_reducible assumption | intro _
    | with_reducible refine State.calSwitch_kept ?_ (inAll (by decide) hp)

theorem xcPageSwitch_kept {pts : List Part} {s0 : State} {joined : List (Fin 32)} {s : State} (hk : Kept pts s0 s)
    (hp : [.regs, .pf0, .pf1, .rng, .lin, .mil, .out] ⊆ pts) : Kept pts s0 (xcPageSwitch joined s) := by
  unfold xcPageSwitch
  repeat' first
    | with_reducible assumption | intro _ | (guard_target =~ Kept _ _ _; extract_lets +lift)
    | with_reducible refine State.xcSettle_kept ?_ (inAll (by decide) hp)
    | with_reducible refine State.pageSwitch_kept ?_ (inAll (by decide) hp)
    | with_reducible refine State.calTo_kept ?_ (inAll (by decide) hp) | with_reducible apply Kept.ite
    | (with_reducible apply Kept.foldl; rotate_left; intro _ _ _)

theorem calFail_kept {pts : List Part} {s0 : State} {n : Fin 32} {s : State} (hk : Kept pts s0 s)
    (hp : [.regs, .pf0, .pf1, .rng, .lin, .mil, .out] ⊆ pts) : Kept pts s0 (calFail n s) := by
  unfold calFail
  repeat' first
    | with_reducible assumption | intro _ | (guard_target =~ Kept _ _ _; extract_lets +lift)
    | with_reducible refine State.raise_kept ?_ (inAll (by decide) hp) | with_reducible apply Kept.ite
    | (with_reducible refine Kept.fst (by assumption) ?_)
    | (simp -zeta only [keptMk]; (with_reducible refine KeptMk.upd ?_ rfl ?_); rotate_left;
        · intro p; cases p <;> first | exact .inl (hp (by decide)) | (right; dsimp only [Part.same]))

theorem flxClientEnable_kept {pts : List Part} {s0 : State} {req : Req} {c : Fin 512} {v : W64} {s : State}
    (hk : Kept pts s0 s) (hp : [.regs, .shadow, .acc, .pf0, .pf1, .rng, .pmn, .mil, .out] ⊆ pts)
    : Kept pts s0 (flxClientEnable req c v s) := by
  unfold flxClientEnable
  repeat' first
    | with_reducible assumption | intro _ | (guard_target =~ Kept _ _ _; extract_lets +lift)
    | with_reducible refine State.failSettle_kept ?_ (inAll (by decide) hp)
    | with_reducible refine State.watchSf_kept ?_ (inAll (by decide) hp) ?_
    | with_reducible refine State.ownWrite_kept ?_ (inAll (by decide) hp)
    | with_reducible refine State.set_kept ?_ (inAll (by decide) hp)
    | with_reducible refine State.violation_kept ?_ (inAll (by decide) hp) | with_reducible apply Kept.ite

theorem flxCktEnable_kept {pts : List Part} {s0 : State} {req : Req} {c : Fin 4096} {v : W64} {s : State}
    (hk : Kept pts s0 s) (hp : [.regs, .shadow, .acc, .pf0, .pf1, .rng, .mil, .out] ⊆ pts)
    : Kept pts s0 (flxCktEnable req c v s) := by
  unfold flxCktEnable
  repeat' first
    | with_reducible assumption | intro _
    | with_reducible refine State.ownWrite_kept ?_ (inAll (by decide) hp)

theorem State.sendRead_kept {pts : List Part} {s0 : State} {s : State} {f : Fn} {u : ReadUse} (hk : Kept pts s0 s)
    (hp : [.pce, .rng, .out] ⊆ pts) : Kept pts s0 (s.sendRead f u) := by
  unfold State.sendRead
  repeat' first
    | with_reducible assumption | intro _ | (guard_target =~ Kept _ _ _; extract_lets +lift)
    | with_reducible refine State.setRing_kept ?_ (inAll (by decide) hp)
    | with_reducible refine State.emit_kept ?_ (inAll (by decide) hp) | with_reducible apply Kept.ite
    | (with_reducible refine Kept.fst (by assumption) ?_)
    | (simp -zeta only [keptMk]; (with_reducible refine KeptMk.upd ?_ rfl ?_); rotate_left;
        · intro p; cases p <;> first | exact .inl (hp (by decide)) | (right; dsimp only [Part.same]))
    | split | dsimp +zetaDelta only

theorem State.wantRead_kept {pts : List Part} {s0 : State} {s : State} {f : Fn} {u : ReadUse} (hk : Kept pts s0 s)
    (hp : [.pce, .rng, .out] ⊆ pts) : Kept pts s0 (s.wantRead f u) := by
  unfold State.wantRead
  repeat' first
    | with_reducible assumption | intro _ | (guard_target =~ Kept _ _ _; extract_lets +lift)
    | with_reducible refine State.sendRead_kept ?_ (inAll (by decide) hp) | with_reducible apply Kept.ite
    | (with_reducible refine Kept.fst (by assumption) ?_)
    | (simp -zeta only [keptMk]; (with_reducible refine KeptMk.upd ?_ rfl ?_); rotate_left;
        · intro p; cases p <;> first | exact .inl (hp (by decide)) | (right; dsimp only [Part.same]))

theorem State.dropWaits_kept {pts : List Part} {s0 : State} {s : State} {r : Nat} (hk : Kept pts s0 s)
    (hp : [.pce] ⊆ pts) : Kept pts s0 (s.dropWaits r) := by
  unfold State.dropWaits
  repeat' first
    | with_reducible assumption | intro _ | (guard_target =~ Kept _ _ _; extract_lets +lift)
    | with_reducible apply Kept.ite | (with_reducible refine Kept.fst (by assumption) ?_)
    | (simp -zeta only [keptMk]; (with_reducible refine KeptMk.upd ?_ rfl ?_); rotate_left;
        · intro p; cases p <;> first | exact .inl (hp (by decide)) | (right; dsimp only [Part.same]))

theorem State.haltRing_kept {pts : List Part} {s0 : State} {s : State} {r : Nat} {code : Nat} (hk : Kept pts s0 s)
    (hp : [.regs, .pf0, .pf1, .pce, .rng, .cmt, .mil, .out] ⊆ pts) : Kept pts s0 (s.haltRing r code) := by
  unfold State.haltRing
  repeat' first
    | with_reducible assumption | intro _ | (guard_target =~ Kept _ _ _; extract_lets +lift)
    | with_reducible refine State.setRing_kept ?_ (inAll (by decide) hp)
    | with_reducible refine State.dropWaits_kept ?_ (inAll (by decide) hp)
    | with_reducible refine State.set_kept ?_ (inAll (by decide) hp)
    | with_reducible refine State.count_kept ?_ (inAll (by decide) hp)
    | with_reducible refine State.raiseAt_kept ?_ (inAll (by decide) hp)
    | with_reducible refine State.commitLost_kept ?_ (inAll (by decide) hp)
    | with_reducible refine State.ringRequest_kept ?_ (inAll (by decide) hp)
    | with_reducible apply Kept.ite

theorem State.growSlots_kept {pts : List Part} {s0 : State} {s : State} {r : Nat} {a3 : Nat} (hk : Kept pts s0 s)
    (hp : [.rng] ⊆ pts) : Kept pts s0 (s.growSlots r a3) := by
  induction a3 generalizing s <;> (
    unfold State.growSlots
    repeat' first
      | with_reducible assumption | intro _ | with_reducible apply_assumption
      | (guard_target =~ Kept _ _ _; extract_lets +lift)
      | with_reducible refine State.setRing_kept ?_ (inAll (by decide) hp) | with_reducible apply Kept.ite
      | (with_reducible apply Kept.foldl; rotate_left; intro _ _ _)
      | (with_reducible apply Kept.foldl_fst; rotate_left; intro _ _ _)
      | (with_reducible refine Kept.fst (by assumption) ?_)
      | (simp -zeta only [keptMk]; (with_reducible refine KeptMk.upd ?_ rfl ?_); rotate_left;
          · intro p; cases p <;> first | exact .inl (hp (by decide)) | (right; dsimp only [Part.same]))
      | split | dsimp +zetaDelta only)

theorem State.startFetch_kept {pts : List Part} {s0 : State} {s : State} {r : Nat} (hk : Kept pts s0 s)
    (hp : [.pce, .rng, .out] ⊆ pts) : Kept pts s0 (s.startFetch r) := by
  unfold State.startFetch
  repeat' first
    | with_reducible assumption | intro _ | (guard_target =~ Kept _ _ _; extract_lets +lift)
    | with_reducible refine State.wantRead_kept ?_ (inAll (by decide) hp)
    | with_reducible refine State.growSlots_kept ?_ (inAll (by decide) hp) | with_reducible apply Kept.ite

theorem State.doorbell_kept {pts : List Part} {s0 : State} {s : State} {r : Nat} {h : W32} (hk : Kept pts s0 s)
    (hp : [.regs, .pf0, .pf1, .pce, .rng, .cmt, .mil, .out] ⊆ pts) : Kept pts s0 (s.doorbell r h) := by
  unfold State.doorbell
  repeat' first
    | with_reducible assumption | intro _ | (guard_target =~ Kept _ _ _; extract_lets +lift)
    | with_reducible refine State.startFetch_kept ?_ (inAll (by decide) hp)
    | with_reducible refine State.setRing_kept ?_ (inAll (by decide) hp)
    | with_reducible refine State.haltRing_kept ?_ (inAll (by decide) hp) | with_reducible apply Kept.ite

theorem ringDoorbell_kept {pts : List Part} {s0 : State} {r : Fin 16384} {h : W32} {s : State} (hk : Kept pts s0 s)
    (hp : [.regs, .pf0, .pf1, .pce, .rng, .cmt, .mil, .out] ⊆ pts) : Kept pts s0 (ringDoorbell r h s) := by
  unfold ringDoorbell
  repeat' first
    | with_reducible assumption | intro _
    | with_reducible refine State.doorbell_kept ?_ (inAll (by decide) hp)

theorem State.ringRw_kept {pts : List Part} {s0 : State} {s : State} {r : Nat} {v : W64} (hk : Kept pts s0 s)
    (hp : [.regs] ⊆ pts) : Kept pts s0 (s.ringRw r v) := by
  unfold State.ringRw
  repeat' first
    | with_reducible assumption | intro _ | with_reducible refine State.wr_kept ?_ (inAll (by decide) hp)

theorem State.ringRwxRefused_kept {pts : List Part} {s0 : State} {s : State} {r : Nat} {v : W64} (hk : Kept pts s0 s)
    (hp : [.regs, .pf0, .pf1, .rng, .mil, .out] ⊆ pts) : Kept pts s0 (s.ringRwxRefused r v) := by
  unfold State.ringRwxRefused
  repeat' first
    | with_reducible assumption | intro _ | (guard_target =~ Kept _ _ _; extract_lets +lift)
    | with_reducible refine State.raiseAt_kept ?_ (inAll (by decide) hp) | with_reducible apply Kept.ite

theorem State.ringRwxTaken_kept {pts : List Part} {s0 : State} {s : State} {r : Nat} {v : W64} (hk : Kept pts s0 s)
    (hp : [.regs] ⊆ pts) : Kept pts s0 (s.ringRwxTaken r v) := by
  unfold State.ringRwxTaken
  repeat' first
    | with_reducible assumption | intro _ | with_reducible refine State.wr_kept ?_ (inAll (by decide) hp)

theorem State.enableRing_kept {pts : List Part} {s0 : State} {s : State} {r : Nat} {v : W64} (hk : Kept pts s0 s)
    (hp : [.regs, .pf0, .pf1, .rng, .mil, .out] ⊆ pts) : Kept pts s0 (s.enableRing r v) := by
  unfold State.enableRing
  repeat' first
    | with_reducible assumption | intro _ | (guard_target =~ Kept _ _ _; extract_lets +lift)
    | with_reducible refine State.ringRwxTaken_kept ?_ (inAll (by decide) hp)
    | with_reducible refine State.ringRw_kept ?_ (inAll (by decide) hp)
    | with_reducible refine State.raiseAt_kept ?_ (inAll (by decide) hp)
    | with_reducible refine State.set_kept ?_ (inAll (by decide) hp)
    | with_reducible refine State.setRing_kept ?_ (inAll (by decide) hp)
    | with_reducible refine State.ringRwxRefused_kept ?_ (inAll (by decide) hp)
    | with_reducible apply Kept.ite | (with_reducible refine Kept.fst (by assumption) ?_) | split

theorem ringEnable_kept {pts : List Part} {s0 : State} {r : Fin 16384} {cfg : W64} {s : State} (hk : Kept pts s0 s)
    (hp : [.regs, .pf0, .pf1, .rng, .mil, .out] ⊆ pts) : Kept pts s0 (ringEnable r cfg s) := by
  unfold ringEnable
  repeat' first
    | with_reducible assumption | intro _
    | with_reducible refine State.enableRing_kept ?_ (inAll (by decide) hp)

theorem State.disableRing_kept {pts : List Part} {s0 : State} {s : State} {r : Nat} {v : W64} (hk : Kept pts s0 s)
    (hp : [.regs, .pf0, .pf1, .pce, .rng, .cmt, .mil, .out] ⊆ pts) : Kept pts s0 (s.disableRing r v) := by
  unfold State.disableRing
  repeat' first
    | with_reducible assumption | intro _ | (guard_target =~ Kept _ _ _; extract_lets +lift)
    | with_reducible refine State.ringRwxTaken_kept ?_ (inAll (by decide) hp)
    | with_reducible refine State.ringRw_kept ?_ (inAll (by decide) hp)
    | with_reducible refine State.ringRwxRefused_kept ?_ (inAll (by decide) hp)
    | with_reducible refine State.setRing_kept ?_ (inAll (by decide) hp)
    | with_reducible refine State.set_kept ?_ (inAll (by decide) hp)
    | with_reducible refine State.dropWaits_kept ?_ (inAll (by decide) hp)
    | with_reducible refine State.commitLost_kept ?_ (inAll (by decide) hp)
    | with_reducible apply Kept.ite | (with_reducible refine Kept.fst (by assumption) ?_) | split

theorem ringDisable_kept {pts : List Part} {s0 : State} {r : Fin 16384} {cfg : W64} {s : State} (hk : Kept pts s0 s)
    (hp : [.regs, .pf0, .pf1, .pce, .rng, .cmt, .mil, .out] ⊆ pts) : Kept pts s0 (ringDisable r cfg s) := by
  unfold ringDisable
  repeat' first
    | with_reducible assumption | intro _
    | with_reducible refine State.disableRing_kept ?_ (inAll (by decide) hp)

theorem ringDrained_kept {pts : List Part} {s0 : State} {r : Fin 16384} {s : State} (hk : Kept pts s0 s)
    (hp : [.rng] ⊆ pts) : Kept pts s0 (ringDrained r s) := by
  unfold ringDrained
  repeat' first
    | with_reducible assumption | intro _ | (guard_target =~ Kept _ _ _; extract_lets +lift)
    | with_reducible refine State.setRing_kept ?_ (inAll (by decide) hp) | with_reducible apply Kept.ite

theorem State.armRing_kept {pts : List Part} {s0 : State} {s : State} {r : Nat} (hk : Kept pts s0 s)
    (hp : [.pf0, .pf1, .rng, .out] ⊆ pts) : Kept pts s0 (s.armRing r) := by
  unfold State.armRing
  repeat' first
    | with_reducible assumption | intro _ | (guard_target =~ Kept _ _ _; extract_lets +lift)
    | with_reducible refine State.ringGather_kept ?_ (inAll (by decide) hp)
    | with_reducible refine State.settleIntx_kept ?_ (inAll (by decide) hp)
    | with_reducible refine State.setRing_kept ?_ (inAll (by decide) hp)

theorem ringArm_kept {pts : List Part} {s0 : State} {r : Fin 16384} {s : State} (hk : Kept pts s0 s)
    (hp : [.pf0, .pf1, .rng, .out] ⊆ pts) : Kept pts s0 (ringArm r s) := by
  unfold ringArm
  repeat' first
    | with_reducible assumption | intro _
    | with_reducible refine State.armRing_kept ?_ (inAll (by decide) hp)

theorem ringCoalTimer_kept {pts : List Part} {s0 : State} {r : Fin 16384} {s : State} (hk : Kept pts s0 s)
    (hp : [.pf0, .pf1, .rng, .out] ⊆ pts) : Kept pts s0 (ringCoalTimer r s) := by
  unfold ringCoalTimer
  repeat' first
    | with_reducible assumption | intro _ | (guard_target =~ Kept _ _ _; extract_lets +lift)
    | with_reducible refine State.ringRequest_kept ?_ (inAll (by decide) hp)
    | with_reducible apply Kept.ite

theorem dmaSlotAvailable_kept {pts : List Part} {s0 : State} {e : Fin 4} {s : State} (hk : Kept pts s0 s)
    (hp : [.regs, .pf0, .pf1, .pce, .rng, .mil, .out] ⊆ pts) : Kept pts s0 (dmaSlotAvailable e s) := by
  unfold dmaSlotAvailable
  repeat' first
    | with_reducible assumption | intro _ | (guard_target =~ Kept _ _ _; extract_lets +lift)
    | with_reducible refine State.ringDrop_kept ?_ (inAll (by decide) hp)
    | with_reducible refine State.raiseAt_kept ?_ (inAll (by decide) hp)
    | with_reducible refine State.writeRec_kept ?_ (inAll (by decide) hp)
    | with_reducible refine State.startFetch_kept ?_ (inAll (by decide) hp)
    | with_reducible apply Kept.ite | (with_reducible refine Kept.fst (by assumption) ?_)
    | (simp -zeta only [keptMk]; (with_reducible refine KeptMk.upd ?_ rfl ?_); rotate_left;
        · intro p; cases p <;> first | exact .inl (hp (by decide)) | (right; dsimp only [Part.same]))
    | split

theorem State.completeDesc_kept {pts : List Part} {s0 : State} {s : State} {r : Nat} {bytes : List Byte}
    (hk : Kept pts s0 s) (hp : [.pf0, .pf1, .rng, .out] ⊆ pts) : Kept pts s0 (s.completeDesc r bytes) := by
  unfold State.completeDesc
  repeat' first
    | with_reducible assumption | intro _ | (guard_target =~ Kept _ _ _; extract_lets +lift)
    | with_reducible refine State.dmaWrite_kept ?_ (inAll (by decide) hp)
    | with_reducible refine State.ringCompletion_kept ?_ (inAll (by decide) hp)
    | with_reducible refine State.setRing_kept ?_ (inAll (by decide) hp) | with_reducible apply Kept.ite

theorem State.fetchDone_kept {pts : List Part} {s0 : State} {s : State} {r : Nat} {n : Nat} (hk : Kept pts s0 s)
    (hp : [.pce, .rng] ⊆ pts) : Kept pts s0 (s.fetchDone r n) := by
  unfold State.fetchDone
  repeat' first
    | with_reducible assumption | intro _ | (guard_target =~ Kept _ _ _; extract_lets +lift)
    | with_reducible refine State.setRing_kept ?_ (inAll (by decide) hp)
    | with_reducible refine State.dropWaits_kept ?_ (inAll (by decide) hp) | with_reducible apply Kept.ite
    | (with_reducible refine Kept.fst (by assumption) ?_)
    | (simp -zeta only [keptMk]; (with_reducible refine KeptMk.upd ?_ rfl ?_); rotate_left;
        · intro p; cases p <;> first | exact .inl (hp (by decide)) | (right; dsimp only [Part.same]))
    | split | dsimp +zetaDelta only

theorem txDescriptor_kept {pts : List Part} {s0 : State} {r : Fin 16384} {chain : List TxDesc} {data : List Byte}
    {s : State} (hk : Kept pts s0 s) (hp : [.regs, .pf0, .pf1, .pce, .rng, .bpm, .mil, .arrivals, .out] ⊆ pts)
    : Kept pts s0 (txDescriptor r chain data s) := by
  unfold txDescriptor
  repeat' first
    | with_reducible assumption | intro _ | (guard_target =~ Kept _ _ _; extract_lets +lift)
    | with_reducible refine State.hostDma_kept ?_ (inAll (by decide) hp)
    | with_reducible refine State.fetchDone_kept ?_ (inAll (by decide) hp)
    | with_reducible refine State.countDrop_kept ?_ (inAll (by decide) hp)
    | with_reducible refine State.arrive_kept ?_ (inAll (by decide) hp)
    | with_reducible refine State.completeDesc_kept ?_ (inAll (by decide) hp)
    | with_reducible refine State.startFetch_kept ?_ (inAll (by decide) hp)
    | with_reducible apply Kept.ite | (with_reducible apply Kept.foldl; rotate_left; intro _ _ _)
    | (with_reducible refine Kept.fst (by assumption) ?_) | split | dsimp +zetaDelta only

theorem State.freeHost_kept {pts : List Part} {s0 : State} {s : State} {p : HostPkt} (hk : Kept pts s0 s)
    (hp : [.regs, .pf0, .pf1, .rng, .bpm, .mil, .out] ⊆ pts) : Kept pts s0 (s.freeHost p) := by
  unfold State.freeHost
  repeat' first
    | with_reducible assumption | intro _ | (guard_target =~ Kept _ _ _; extract_lets +lift)
    | with_reducible refine State.decCell_kept ?_ (inAll (by decide) hp) | with_reducible apply Kept.ite
    | (with_reducible apply Kept.foldl; rotate_left; intro _ _ _)

theorem State.withHost_kept {pts : List Part} {s0 : State} {s : State} {ps : List HostPkt} (hk : Kept pts s0 s)
    (hp : [.hostQ] ⊆ pts) : Kept pts s0 (s.withHost ps) := by
  unfold State.withHost
  repeat' first
    | with_reducible assumption | intro _ | with_reducible apply Kept.ite
    | (with_reducible refine Kept.fst (by assumption) ?_)
    | (simp -zeta only [keptMk]; (with_reducible refine KeptMk.upd ?_ rfl ?_); rotate_left;
        · intro p; cases p <;> first | exact .inl (hp (by decide)) | (right; dsimp only [Part.same]))

theorem State.dropHost_kept {pts : List Part} {s0 : State} {s : State} {p : HostPkt} {rest : List HostPkt}
    {cause : Nat} (hk : Kept pts s0 s) (hp : [.regs, .pf0, .pf1, .rng, .hostQ, .bpm, .mil, .out] ⊆ pts)
    : Kept pts s0 (s.dropHost p rest cause) := by
  unfold State.dropHost
  repeat' first
    | with_reducible assumption | intro _ | (guard_target =~ Kept _ _ _; extract_lets +lift)
    | with_reducible refine State.withHost_kept ?_ (inAll (by decide) hp)
    | with_reducible refine State.countDrop_kept ?_ (inAll (by decide) hp)
    | with_reducible refine State.ringDrop_kept ?_ (inAll (by decide) hp)
    | with_reducible refine State.freeHost_kept ?_ (inAll (by decide) hp)

theorem rxPacketDeliver_kept {pts : List Part} {s0 : State} {r : Fin 16384} {bufs : List (W64 × BitVec 16)}
    {ue : Bool} {s : State} (hk : Kept pts s0 s) (hp : [.regs, .pf0, .pf1, .rng, .hostQ, .bpm, .mil, .out] ⊆ pts)
    : Kept pts s0 (rxPacketDeliver r bufs ue s) := by
  unfold rxPacketDeliver
  repeat' first
    | with_reducible assumption | intro _ | (guard_target =~ Kept _ _ _; extract_lets +lift)
    | with_reducible refine State.dropHost_kept ?_ (inAll (by decide) hp)
    | with_reducible refine State.withHost_kept ?_ (inAll (by decide) hp)
    | with_reducible refine State.freeHost_kept ?_ (inAll (by decide) hp)
    | with_reducible refine State.dmaWrite_kept ?_ (inAll (by decide) hp)
    | with_reducible refine State.completeDesc_kept ?_ (inAll (by decide) hp)
    | with_reducible apply Kept.ite | (with_reducible apply Kept.foldl; rotate_left; intro _ _ _)
    | (with_reducible refine Kept.fst (by assumption) ?_) | split

theorem State.without_kept {pts : List Part} {s0 : State} {s : State} {e : Edit} (hk : Kept pts s0 s)
    (hp : [.cmt] ⊆ pts) : Kept pts s0 (s.without e) := by
  unfold State.without
  repeat' first
    | with_reducible assumption | intro _ | (guard_target =~ Kept _ _ _; extract_lets +lift)
    | with_reducible apply Kept.ite | (with_reducible refine Kept.fst (by assumption) ?_)
    | (simp -zeta only [keptMk]; (with_reducible refine KeptMk.upd ?_ rfl ?_); rotate_left;
        · intro p; cases p <;> first | exact .inl (hp (by decide)) | (right; dsimp only [Part.same]))

theorem State.skipRest_kept {pts : List Part} {s0 : State} {s : State} {r : Nat} {bytes : List Byte}
    (hk : Kept pts s0 s) (hp : [.pf0, .pf1, .pce, .rng, .cmt, .out] ⊆ pts) : Kept pts s0 (s.skipRest r bytes) := by
  unfold State.skipRest
  repeat' first
    | with_reducible assumption | intro _ | (guard_target =~ Kept _ _ _; extract_lets +lift)
    | with_reducible refine State.startFetch_kept ?_ (inAll (by decide) hp)
    | with_reducible refine State.completeDesc_kept ?_ (inAll (by decide) hp)
    | with_reducible refine State.fetchDone_kept ?_ (inAll (by decide) hp) | with_reducible apply Kept.ite
    | (with_reducible refine Kept.fst (by assumption) ?_)
    | (simp -zeta only [keptMk]; (with_reducible refine KeptMk.upd ?_ rfl ?_); rotate_left;
        · intro p; cases p <;> first | exact .inl (hp (by decide)) | (right; dsimp only [Part.same]))

theorem State.change_kept {pts : List Part} {s0 : State} {s : State} {r : Nat} {op : Nat} {d : ChgDesc}
    {judge : State → Judged} (hk : Kept pts s0 s) (hp : [.pf0, .pf1, .pce, .rng, .cmt, .out] ⊆ pts)
    : Kept pts s0 (s.change r op d judge) := by
  unfold State.change
  repeat' first
    | with_reducible assumption | intro _ | (guard_target =~ Kept _ _ _; extract_lets +lift)
    | with_reducible refine State.skipRest_kept ?_ (inAll (by decide) hp)
    | with_reducible refine State.fetchDone_kept ?_ (inAll (by decide) hp)
    | with_reducible refine State.startFetch_kept ?_ (inAll (by decide) hp)
    | with_reducible refine State.completeDesc_kept ?_ (inAll (by decide) hp)
    | with_reducible apply Kept.ite | (with_reducible refine Kept.fst (by assumption) ?_)
    | (simp -zeta only [keptMk]; (with_reducible refine KeptMk.upd ?_ rfl ?_); rotate_left;
        · intro p; cases p <;> first | exact .inl (hp (by decide)) | (right; dsimp only [Part.same]))
    | split | dsimp +zetaDelta only

theorem write_kept {pts : List Part} {s0 : State} {r : Fin 1024} {op : BitVec 8} {d : ChgDesc} {s : State}
    (hk : Kept pts s0 s) (hp : [.pf0, .pf1, .pce, .rng, .cmt, .out] ⊆ pts) : Kept pts s0 (write r op d s) := by
  unfold write
  repeat' first
    | with_reducible assumption | intro _ | (guard_target =~ Kept _ _ _; extract_lets +lift)
    | with_reducible refine State.change_kept ?_ (inAll (by decide) hp) | with_reducible apply Kept.ite

theorem retire_kept {pts : List Part} {s0 : State} {r : Fin 1024} {d : ChgDesc} {s : State} (hk : Kept pts s0 s)
    (hp : [.pf0, .pf1, .pce, .rng, .cmt, .out] ⊆ pts) : Kept pts s0 (retire r d s) := by
  unfold retire
  repeat' first
    | with_reducible assumption | intro _
    | with_reducible refine State.change_kept ?_ (inAll (by decide) hp)

theorem emAdd_kept {pts : List Part} {s0 : State} {r : Fin 1024} {d : ChgDesc} {s : State} (hk : Kept pts s0 s)
    (hp : [.pf0, .pf1, .pce, .rng, .cmt, .out] ⊆ pts) : Kept pts s0 (emAdd r d s) := by
  unfold emAdd
  repeat' first
    | with_reducible assumption | intro _
    | with_reducible refine State.change_kept ?_ (inAll (by decide) hp)

theorem emDel_kept {pts : List Part} {s0 : State} {r : Fin 1024} {d : ChgDesc} {s : State} (hk : Kept pts s0 s)
    (hp : [.pf0, .pf1, .pce, .rng, .cmt, .out] ⊆ pts) : Kept pts s0 (emDel r d s) := by
  unfold emDel
  repeat' first
    | with_reducible assumption | intro _
    | with_reducible refine State.change_kept ?_ (inAll (by decide) hp)

theorem move_kept {pts : List Part} {s0 : State} {r : Fin 1024} {d : ChgDesc} {s : State} (hk : Kept pts s0 s)
    (hp : [.pf0, .pf1, .pce, .rng, .cmt, .out] ⊆ pts) : Kept pts s0 (move r d s) := by
  unfold move
  repeat' first
    | with_reducible assumption | intro _
    | with_reducible refine State.change_kept ?_ (inAll (by decide) hp)

theorem State.commitRefuse_kept {pts : List Part} {s0 : State} {s : State} {r : Nat} {f : ReamFail} {changes : Nat}
    {numberEn : Bool} {resume : Bool} (hk : Kept pts s0 s) (hp : [.freeCtr, .pf0, .pf1, .pce, .rng, .out] ⊆ pts)
    : Kept pts s0 (s.commitRefuse r f changes numberEn resume) := by
  unfold State.commitRefuse
  repeat' first
    | with_reducible assumption | intro _ | (guard_target =~ Kept _ _ _; extract_lets +lift)
    | with_reducible refine State.used_kept ?_ (inAll (by decide) hp)
    | with_reducible refine State.startFetch_kept ?_ (inAll (by decide) hp)
    | with_reducible refine State.completeDesc_kept ?_ (inAll (by decide) hp)

theorem commit_kept {pts : List Part} {s0 : State} {r : Fin 1024} {number : BitVec 32} {numberEn : Bool}
    {resume : Bool} {s : State} (hk : Kept pts s0 s)
    (hp : [.freeCtr, .regs, .pf0, .pf1, .pce, .rng, .cmt, .mil, .out] ⊆ pts)
    : Kept pts s0 (commit r number numberEn resume s) := by
  unfold commit
  repeat' first
    | with_reducible assumption | intro _ | (guard_target =~ Kept _ _ _; extract_lets +lift)
    | with_reducible refine State.commitRefuse_kept ?_ (inAll (by decide) hp)
    | with_reducible refine State.fetchDone_kept ?_ (inAll (by decide) hp)
    | with_reducible refine State.raise_kept ?_ (inAll (by decide) hp)
    | with_reducible refine State.stageEnd_kept ?_ (inAll (by decide) hp)
    | with_reducible refine State.reamRefused_kept ?_ (inAll (by decide) hp)
    | with_reducible refine State.waitEnds_kept ?_ (inAll (by decide) hp) | with_reducible apply Kept.ite
    | (with_reducible refine Kept.fst (by assumption) ?_)
    | (simp -zeta only [keptMk]; (with_reducible refine KeptMk.upd ?_ rfl ?_); rotate_left;
        · intro p; cases p <;> first | exact .inl (hp (by decide)) | (right; dsimp only [Part.same]))
    | split | dsimp +zetaDelta only

theorem reamAbandon_kept {pts : List Part} {s0 : State} {s : State} (hk : Kept pts s0 s)
    (hp : [.regs, .pf0, .pf1, .rng, .cmt, .mil, .out] ⊆ pts) : Kept pts s0 (reamAbandon s) := by
  unfold reamAbandon
  repeat' first
    | with_reducible assumption | intro _ | (guard_target =~ Kept _ _ _; extract_lets +lift)
    | with_reducible refine State.stageEnd_kept ?_ (inAll (by decide) hp)
    | with_reducible refine State.reamRefused_kept ?_ (inAll (by decide) hp)
    | with_reducible refine State.raise_kept ?_ (inAll (by decide) hp) | with_reducible apply Kept.ite
    | (with_reducible refine Kept.fst (by assumption) ?_)
    | (simp -zeta only [keptMk]; (with_reducible refine KeptMk.upd ?_ rfl ?_); rotate_left;
        · intro p; cases p <;> first | exact .inl (hp (by decide)) | (right; dsimp only [Part.same]))
    | split

theorem State.freshEdits_kept {pts : List Part} {s0 : State} {s : State} {es : List Edit} (hk : Kept pts s0 s)
    (hp : [.tab] ⊆ pts) : Kept pts s0 (s.freshEdits es) := by
  unfold State.freshEdits
  repeat' first
    | with_reducible assumption | intro _ | (guard_target =~ Kept _ _ _; extract_lets +lift)
    | with_reducible apply Kept.ite | (with_reducible apply Kept.foldl; rotate_left; intro _ _ _)
    | (with_reducible refine Kept.fst (by assumption) ?_)
    | (simp -zeta only [keptMk]; (with_reducible refine KeptMk.upd ?_ rfl ?_); rotate_left;
        · intro p; cases p <;> first | exact .inl (hp (by decide)) | (right; dsimp only [Part.same]))
    | split

theorem commitInstant_kept {pts : List Part} {s0 : State} {s : State} (hk : Kept pts s0 s)
    (hp : [.regs, .pf0, .pf1, .pce, .rng, .tab, .asa, .cmt, .out] ⊆ pts) : Kept pts s0 (commitInstant s) := by
  unfold commitInstant
  repeat' first
    | with_reducible assumption | intro _ | (guard_target =~ Kept _ _ _; extract_lets +lift)
    | with_reducible refine State.freshEdits_kept ?_ (inAll (by decide) hp)
    | with_reducible refine State.stageEnd_kept ?_ (inAll (by decide) hp)
    | with_reducible refine State.set_kept ?_ (inAll (by decide) hp)
    | with_reducible refine State.startFetch_kept ?_ (inAll (by decide) hp)
    | with_reducible refine State.completeDesc_kept ?_ (inAll (by decide) hp)
    | with_reducible apply Kept.ite | (with_reducible refine Kept.fst (by assumption) ?_)
    | (simp -zeta only [keptMk]; (with_reducible refine KeptMk.upd ?_ rfl ?_); rotate_left;
        · intro p; cases p <;> first | exact .inl (hp (by decide)) | (right; dsimp only [Part.same]))
    | split

theorem drainWait_kept {pts : List Part} {s0 : State} {s : State} (hk : Kept pts s0 s)
    (hp : [.regs, .pf0, .pf1, .rng, .cmt, .mil, .out] ⊆ pts) : Kept pts s0 (drainWait s) := by
  unfold drainWait
  repeat' first
    | with_reducible assumption | intro _ | (guard_target =~ Kept _ _ _; extract_lets +lift)
    | with_reducible refine State.raise_kept ?_ (inAll (by decide) hp) | with_reducible apply Kept.ite
    | (with_reducible refine Kept.fst (by assumption) ?_)
    | (simp -zeta only [keptMk]; (with_reducible refine KeptMk.upd ?_ rfl ?_); rotate_left;
        · intro p; cases p <;> first | exact .inl (hp (by decide)) | (right; dsimp only [Part.same]))
    | split

theorem reamDrained_kept {pts : List Part} {s0 : State} {s : State} (hk : Kept pts s0 s) (hp : [.cmt] ⊆ pts)
    : Kept pts s0 (reamDrained s) := by
  unfold reamDrained
  repeat' first
    | with_reducible assumption | intro _ | (guard_target =~ Kept _ _ _; extract_lets +lift)
    | with_reducible refine State.waitEnds_kept ?_ (inAll (by decide) hp) | with_reducible apply Kept.ite
    | (with_reducible refine Kept.fst (by assumption) ?_)
    | (simp -zeta only [keptMk]; (with_reducible refine KeptMk.upd ?_ rfl ?_); rotate_left;
        · intro p; cases p <;> first | exact .inl (hp (by decide)) | (right; dsimp only [Part.same]))
    | split

theorem settlement_kept {pts : List Part} {s0 : State} {s : State} (hk : Kept pts s0 s)
    (hp : [.tab, .asa, .cmt] ⊆ pts) : Kept pts s0 (settlement s) := by
  unfold settlement
  repeat' first
    | with_reducible assumption | intro _ | (guard_target =~ Kept _ _ _; extract_lets +lift)
    | with_reducible refine State.halfDone_kept ?_ (inAll (by decide) hp) | with_reducible apply Kept.ite
    | (with_reducible refine Kept.fst (by assumption) ?_)
    | (simp -zeta only [keptMk]; (with_reducible refine KeptMk.upd ?_ rfl ?_); rotate_left;
        · intro p; cases p <;> first | exact .inl (hp (by decide)) | (right; dsimp only [Part.same]))
    | split | dsimp +zetaDelta only

theorem tableRead_kept {pts : List Part} {s0 : State} {req : Req} {v : W64} {s : State} (hk : Kept pts s0 s)
    (hp : [.regs, .shadow, .acc, .pf0, .pf1, .rng, .cmt, .mil, .out] ⊆ pts) : Kept pts s0 (tableRead req v s) := by
  unfold tableRead
  repeat' first
    | with_reducible assumption | intro _ | (guard_target =~ Kept _ _ _; extract_lets +lift)
    | with_reducible refine State.ownWrite_kept ?_ (inAll (by decide) hp)
    | with_reducible refine State.set_kept ?_ (inAll (by decide) hp) | with_reducible apply Kept.ite
    | (with_reducible refine Kept.fst (by assumption) ?_)
    | (simp -zeta only [keptMk]; (with_reducible refine KeptMk.upd ?_ rfl ?_); rotate_left;
        · intro p; cases p <;> first | exact .inl (hp (by decide)) | (right; dsimp only [Part.same]))

theorem tableReadDone_kept {pts : List Part} {s0 : State} {s : State} (hk : Kept pts s0 s)
    (hp : [.freeCtr, .regs, .cmt] ⊆ pts) : Kept pts s0 (tableReadDone s) := by
  unfold tableReadDone
  repeat' first
    | with_reducible assumption | intro _ | (guard_target =~ Kept _ _ _; extract_lets +lift)
    | with_reducible refine State.used_kept ?_ (inAll (by decide) hp)
    | with_reducible refine State.set_kept ?_ (inAll (by decide) hp) | with_reducible apply Kept.ite
    | (with_reducible apply Kept.foldl; rotate_left; intro _ _ _)
    | (with_reducible refine Kept.fst (by assumption) ?_)
    | (simp -zeta only [keptMk]; (with_reducible refine KeptMk.upd ?_ rfl ?_); rotate_left;
        · intro p; cases p <;> first | exact .inl (hp (by decide)) | (right; dsimp only [Part.same]))
    | split | dsimp +zetaDelta only

end Sys2Proof.Laws
end

