-- ==== Sys2Proof/Laws/KeptModule.lean ====
section
/-!
SUPPORT. Laws/KeptModule.lean: what the operations of mailboxes, PCIe, time, the Mill, protection, phases and the fabric keep (Laws/Kept.lean),
one lemma for each.
-/
namespace Sys2Proof.Laws

open Sys2Proof.Machine

theorem State.setPair_kept {pts : List Part} {s0 : State} {s : State} {i : Nat} {p : MbxPair} (hk : Kept pts s0 s)
    (hp : [.mbx] ⊆ pts) : Kept pts s0 (s.setPair i p) := by
  unfold State.setPair
  repeat' first
    | with_reducible assumption | intro _ | (guard_target =~ Kept _ _ _; extract_lets +lift)
    | with_reducible apply Kept.ite | (with_reducible refine Kept.fst (by assumption) ?_)
    | (simp -zeta only [keptMk]; (with_reducible refine KeptMk.upd ?_ rfl ?_); rotate_left;
        · intro p; cases p <;> first | exact .inl (hp (by decide)) | (right; dsimp only [Part.same]))

theorem State.movePair_kept {pts : List Part} {s0 : State} {s : State} {i : Nat} {p : MbxPair} (hk : Kept pts s0 s)
    (hp : [.regs, .pf0, .pf1, .rng, .mbx, .mil, .out] ⊆ pts) : Kept pts s0 (s.movePair i p) := by
  unfold State.movePair
  repeat' first
    | with_reducible assumption | intro _ | (guard_target =~ Kept _ _ _; extract_lets +lift)
    | with_reducible refine State.setPair_kept ?_ (inAll (by decide) hp)
    | with_reducible refine State.raiseAt_kept ?_ (inAll (by decide) hp) | with_reducible apply Kept.ite

theorem State.emptyH2m_kept {pts : List Part} {s0 : State} {s : State} {i : Nat} (hk : Kept pts s0 s)
    (hp : [.regs, .pf0, .pf1, .rng, .mbx, .mil, .out] ⊆ pts) : Kept pts s0 (s.emptyH2m i) := by
  unfold State.emptyH2m
  repeat' first
    | with_reducible assumption | intro _ | (guard_target =~ Kept _ _ _; extract_lets +lift)
    | with_reducible refine State.raiseAt_kept ?_ (inAll (by decide) hp)
    | with_reducible refine State.movePair_kept ?_ (inAll (by decide) hp)

theorem mbxH2mPost_kept {pts : List Part} {s0 : State} {i : Fin 8} {v : W64} {s : State} (hk : Kept pts s0 s)
    (hp : [.regs, .pf0, .pf1, .rng, .mbx, .mil, .out] ⊆ pts) : Kept pts s0 (mbxH2mPost i v s) := by
  unfold mbxH2mPost
  repeat' first
    | with_reducible assumption | intro _ | (guard_target =~ Kept _ _ _; extract_lets +lift)
    | with_reducible refine State.raiseAt_kept ?_ (inAll (by decide) hp)
    | with_reducible refine State.movePair_kept ?_ (inAll (by decide) hp) | with_reducible apply Kept.ite

theorem State.takeCommand_kept {pts : List Part} {s0 : State} {s : State} {src : MillSrc} {n : Notice} {readOk : Bool}
    {block : List Byte} {maxLen : Nat} (hk : Kept pts s0 s) (hp : [.mbx] ⊆ pts)
    : Kept pts s0 (s.takeCommand src n readOk block maxLen) := by
  unfold State.takeCommand
  repeat' first
    | with_reducible assumption | intro _ | (guard_target =~ Kept _ _ _; extract_lets +lift)
    | with_reducible apply Kept.ite | (with_reducible refine Kept.fst (by assumption) ?_)
    | (simp -zeta only [keptMk]; (with_reducible refine KeptMk.upd ?_ rfl ?_); rotate_left;
        · intro p; cases p <;> first | exact .inl (hp (by decide)) | (right; dsimp only [Part.same]))

theorem millTakeNotice_kept {pts : List Part} {s0 : State} {i : Fin 8} {readOk : Bool} {block : List Byte} {s : State}
    (hk : Kept pts s0 s) (hp : [.regs, .pf0, .pf1, .pce, .rng, .mbx, .mil, .out] ⊆ pts)
    : Kept pts s0 (millTakeNotice i readOk block s) := by
  unfold millTakeNotice
  repeat' first
    | with_reducible assumption | intro _ | (guard_target =~ Kept _ _ _; extract_lets +lift)
    | with_reducible refine State.wantRead_kept ?_ (inAll (by decide) hp)
    | with_reducible refine State.takeCommand_kept ?_ (inAll (by decide) hp)
    | with_reducible refine State.emptyH2m_kept ?_ (inAll (by decide) hp) | with_reducible apply Kept.ite
    | (with_reducible refine Kept.fst (by assumption) ?_)
    | (simp -zeta only [keptMk]; (with_reducible refine KeptMk.upd ?_ rfl ?_); rotate_left;
        · intro p; cases p <;> first | exact .inl (hp (by decide)) | (right; dsimp only [Part.same]))
    | split | dsimp +zetaDelta only

theorem State.writeAnswer_kept {pts : List Part} {s0 : State} {s : State} {x : MillSlot} (hk : Kept pts s0 s)
    (hp : [.out] ⊆ pts) : Kept pts s0 (s.writeAnswer x) := by
  unfold State.writeAnswer
  repeat' first
    | with_reducible assumption | intro _ | (guard_target =~ Kept _ _ _; extract_lets +lift)
    | with_reducible refine State.dmaWrite_kept ?_ (inAll (by decide) hp)

theorem State.postM2h_kept {pts : List Part} {s0 : State} {s : State} {i : Nat} {n : Notice} (hk : Kept pts s0 s)
    (hp : [.regs, .pf0, .pf1, .rng, .mbx, .mil, .out] ⊆ pts) : Kept pts s0 (s.postM2h i n) := by
  unfold State.postM2h
  repeat' first
    | with_reducible assumption | intro _ | (guard_target =~ Kept _ _ _; extract_lets +lift)
    | with_reducible refine State.raiseAt_kept ?_ (inAll (by decide) hp)
    | with_reducible refine State.movePair_kept ?_ (inAll (by decide) hp)

theorem State.setSmbState_kept {pts : List Part} {s0 : State} {s : State} {b : Bool} {x : Nat} (hk : Kept pts s0 s)
    (hp : [.mil] ⊆ pts) : Kept pts s0 (s.setSmbState b x) := by
  unfold State.setSmbState
  repeat' first
    | with_reducible assumption | intro _ | (guard_target =~ Kept _ _ _; extract_lets +lift)
    | with_reducible apply Kept.ite | (with_reducible refine Kept.fst (by assumption) ?_)
    | (simp -zeta only [keptMk]; (with_reducible refine KeptMk.upd ?_ rfl ?_); rotate_left;
        · intro p; cases p <;> first | exact .inl (hp (by decide)) | (right; dsimp only [Part.same]))

theorem State.answerSmb_kept {pts : List Part} {s0 : State} {s : State} {b : Bool} {x : MillSlot} (hk : Kept pts s0 s)
    (hp : [.mil] ⊆ pts) : Kept pts s0 (s.answerSmb b x) := by
  unfold State.answerSmb
  repeat' first
    | with_reducible assumption | intro _ | (guard_target =~ Kept _ _ _; extract_lets +lift)
    | with_reducible refine State.setSmbState_kept ?_ (inAll (by decide) hp)
    | with_reducible apply Kept.ite | (with_reducible refine Kept.fst (by assumption) ?_)
    | (simp -zeta only [keptMk]; (with_reducible refine KeptMk.upd ?_ rfl ?_); rotate_left;
        · intro p; cases p <;> first | exact .inl (hp (by decide)) | (right; dsimp only [Part.same]))

theorem millAnswer_kept {pts : List Part} {s0 : State} {src : MillSrc} {s : State} (hk : Kept pts s0 s)
    (hp : [.regs, .pf0, .pf1, .rng, .mbx, .mil, .out] ⊆ pts) : Kept pts s0 (millAnswer src s) := by
  unfold millAnswer
  repeat' first
    | with_reducible assumption | intro _ | (guard_target =~ Kept _ _ _; extract_lets +lift)
    | with_reducible refine State.answerSmb_kept ?_ (inAll (by decide) hp)
    | with_reducible refine State.writeAnswer_kept ?_ (inAll (by decide) hp)
    | with_reducible refine State.setPair_kept ?_ (inAll (by decide) hp)
    | with_reducible refine State.emptyH2m_kept ?_ (inAll (by decide) hp)
    | with_reducible refine State.postM2h_kept ?_ (inAll (by decide) hp) | with_reducible apply Kept.ite
    | (with_reducible refine Kept.fst (by assumption) ?_)
    | (simp -zeta only [keptMk]; (with_reducible refine KeptMk.upd ?_ rfl ?_); rotate_left;
        · intro p; cases p <;> first | exact .inl (hp (by decide)) | (right; dsimp only [Part.same]))
    | split | dsimp +zetaDelta only

theorem mbxM2hTake_kept {pts : List Part} {s0 : State} {i : Fin 8} {v : W64} {s : State} (hk : Kept pts s0 s)
    (hp : [.regs, .pf0, .pf1, .rng, .mbx, .mil, .out] ⊆ pts) : Kept pts s0 (mbxM2hTake i v s) := by
  unfold mbxM2hTake
  repeat' first
    | with_reducible assumption | intro _ | (guard_target =~ Kept _ _ _; extract_lets +lift)
    | with_reducible refine State.movePair_kept ?_ (inAll (by decide) hp) | with_reducible apply Kept.ite

theorem mbxTimeout_kept {pts : List Part} {s0 : State} {i : Fin 8} {h2m : Bool} {s : State} (hk : Kept pts s0 s)
    (hp : [.regs, .pf0, .pf1, .rng, .mbx, .mil, .out] ⊆ pts) : Kept pts s0 (mbxTimeout i h2m s) := by
  unfold mbxTimeout
  repeat' first
    | with_reducible assumption | intro _ | (guard_target =~ Kept _ _ _; extract_lets +lift)
    | with_reducible refine State.raiseAt_kept ?_ (inAll (by decide) hp)
    | with_reducible refine State.emptyH2m_kept ?_ (inAll (by decide) hp)
    | with_reducible refine State.setPair_kept ?_ (inAll (by decide) hp)
    | with_reducible refine State.movePair_kept ?_ (inAll (by decide) hp) | with_reducible apply Kept.ite

theorem mbxModeWrite_kept {pts : List Part} {s0 : State} {i : Fin 8} {v : W64} {s : State} (hk : Kept pts s0 s)
    (hp : [.regs, .pf0, .pf1, .rng, .mbx, .mil, .out] ⊆ pts) : Kept pts s0 (mbxModeWrite i v s) := by
  unfold mbxModeWrite
  repeat' first
    | with_reducible assumption | intro _ | (guard_target =~ Kept _ _ _; extract_lets +lift)
    | with_reducible refine State.setPair_kept ?_ (inAll (by decide) hp)
    | with_reducible refine State.violation_kept ?_ (inAll (by decide) hp) | with_reducible apply Kept.ite

theorem State.clearH2mStat_kept {pts : List Part} {s0 : State} {s : State} {i : Nat} {v : W64} (hk : Kept pts s0 s)
    (hp : [.mbx] ⊆ pts) : Kept pts s0 (s.clearH2mStat i v) := by
  unfold State.clearH2mStat
  repeat' first
    | with_reducible assumption | intro _ | (guard_target =~ Kept _ _ _; extract_lets +lift)
    | with_reducible refine State.setPair_kept ?_ (inAll (by decide) hp)

theorem State.unsupported_kept {pts : List Part} {s0 : State} {s : State} {t : Tlp} {reason : Nat}
    (hk : Kept pts s0 s) (hp : [.regs, .pf0, .pf1, .rng, .mil, .out] ⊆ pts)
    : Kept pts s0 (s.unsupported t reason) := by
  unfold State.unsupported
  repeat' first
    | with_reducible assumption | intro _ | (guard_target =~ Kept _ _ _; extract_lets +lift)
    | with_reducible refine State.set_kept ?_ (inAll (by decide) hp)
    | with_reducible refine State.count_kept ?_ (inAll (by decide) hp)
    | with_reducible refine State.raise_kept ?_ (inAll (by decide) hp)
    | with_reducible refine State.aer_kept ?_ (inAll (by decide) hp)
    | with_reducible refine State.emit_kept ?_ (inAll (by decide) hp) | with_reducible apply Kept.ite
    | (with_reducible refine Kept.fst (by assumption) ?_) | split

theorem State.sendPending_kept {pts : List Part} {s0 : State} {s : State} {f : Fn} (hk : Kept pts s0 s)
    (hp : [.pf0, .pf1, .out] ⊆ pts) : Kept pts s0 (s.sendPending f) := by
  unfold State.sendPending
  repeat' first
    | with_reducible assumption | intro _ | (guard_target =~ Kept _ _ _; extract_lets +lift)
    | with_reducible refine State.setFn_kept ?_ (inAll (by decide) hp)
    | with_reducible refine State.emit_kept ?_ (inAll (by decide) hp) | with_reducible apply Kept.ite
    | (with_reducible apply Kept.foldl; rotate_left; intro _ _ _)

theorem msixUnmask_kept {pts : List Part} {s0 : State} {f : Fn} {vec : Option (Fin 2048)} {s : State}
    (hk : Kept pts s0 s) (hp : [.pf0, .pf1, .out] ⊆ pts) : Kept pts s0 (msixUnmask f vec s) := by
  unfold msixUnmask
  repeat' first
    | with_reducible assumption | intro _ | (guard_target =~ Kept _ _ _; extract_lets +lift)
    | with_reducible refine State.setFn_kept ?_ (inAll (by decide) hp)
    | with_reducible refine State.sendPending_kept ?_ (inAll (by decide) hp)
    | with_reducible apply Kept.ite | (with_reducible refine Kept.fst (by assumption) ?_) | split
    | dsimp +zetaDelta only

theorem msixEnable_kept {pts : List Part} {s0 : State} {f : Fn} {intDisable : Bool} {s : State} (hk : Kept pts s0 s)
    (hp : [.pf0, .pf1, .out] ⊆ pts) : Kept pts s0 (msixEnable f intDisable s) := by
  unfold msixEnable
  repeat' first
    | with_reducible assumption | intro _ | (guard_target =~ Kept _ _ _; extract_lets +lift)
    | with_reducible refine State.settleIntx_kept ?_ (inAll (by decide) hp)
    | with_reducible refine State.setFn_kept ?_ (inAll (by decide) hp)
    | with_reducible refine State.sendVector_kept ?_ (inAll (by decide) hp)
    | with_reducible apply Kept.ite | (with_reducible apply Kept.foldl; rotate_left; intro _ _ _)
    | (with_reducible refine Kept.fst (by assumption) ?_) | split

theorem State.readLanded_kept {pts : List Part} {s0 : State} {s : State} {r : Nat} (hk : Kept pts s0 s)
    (hp : [.rng] ⊆ pts) : Kept pts s0 (s.readLanded r) := by
  unfold State.readLanded
  repeat' first
    | with_reducible assumption | intro _ | (guard_target =~ Kept _ _ _; extract_lets +lift)
    | with_reducible refine State.setRing_kept ?_ (inAll (by decide) hp)

theorem pcieCompletion_kept {pts : List Part} {s0 : State} {tag : Fin 512} {status : CplStatus} {s : State}
    (hk : Kept pts s0 s) (hp : [.regs, .pf0, .pf1, .pce, .rng, .cmt, .mil, .out] ⊆ pts)
    : Kept pts s0 (pcieCompletion tag status s) := by
  unfold pcieCompletion
  repeat' first
    | with_reducible assumption | intro _ | (guard_target =~ Kept _ _ _; extract_lets +lift)
    | with_reducible refine State.count_kept ?_ (inAll (by decide) hp)
    | with_reducible refine State.readLanded_kept ?_ (inAll (by decide) hp)
    | with_reducible refine State.haltRing_kept ?_ (inAll (by decide) hp)
    | with_reducible refine State.aer_kept ?_ (inAll (by decide) hp) | with_reducible apply Kept.ite
    | (with_reducible refine Kept.fst (by assumption) ?_)
    | (simp -zeta only [keptMk]; (with_reducible refine KeptMk.upd ?_ rfl ?_); rotate_left;
        · intro p; cases p <;> first | exact .inl (hp (by decide)) | (right; dsimp only [Part.same]))
    | split | dsimp +zetaDelta only

theorem completionTimeout_kept {pts : List Part} {s0 : State} {tag : Fin 512} {s : State} (hk : Kept pts s0 s)
    (hp : [.regs, .pf0, .pf1, .pce, .rng, .cmt, .mil, .out] ⊆ pts) : Kept pts s0 (completionTimeout tag s) := by
  unfold completionTimeout
  repeat' first
    | with_reducible assumption | intro _ | (guard_target =~ Kept _ _ _; extract_lets +lift)
    | with_reducible refine State.aer_kept ?_ (inAll (by decide) hp)
    | with_reducible refine State.readLanded_kept ?_ (inAll (by decide) hp)
    | with_reducible refine State.haltRing_kept ?_ (inAll (by decide) hp) | with_reducible apply Kept.ite
    | (with_reducible refine Kept.fst (by assumption) ?_)
    | (simp -zeta only [keptMk]; (with_reducible refine KeptMk.upd ?_ rfl ?_); rotate_left;
        · intro p; cases p <;> first | exact .inl (hp (by decide)) | (right; dsimp only [Part.same]))
    | split | dsimp +zetaDelta only

theorem pcieTagGrant_kept {pts : List Part} {s0 : State} {f : Fn} {s : State} (hk : Kept pts s0 s)
    (hp : [.pce, .rng, .out] ⊆ pts) : Kept pts s0 (pcieTagGrant f s) := by
  unfold pcieTagGrant
  repeat' first
    | with_reducible assumption | intro _ | (guard_target =~ Kept _ _ _; extract_lets +lift)
    | with_reducible refine State.sendRead_kept ?_ (inAll (by decide) hp) | with_reducible apply Kept.ite
    | (with_reducible refine Kept.fst (by assumption) ?_)
    | (simp -zeta only [keptMk]; (with_reducible refine KeptMk.upd ?_ rfl ?_); rotate_left;
        · intro p; cases p <;> first | exact .inl (hp (by decide)) | (right; dsimp only [Part.same]))
    | split

theorem State.silence_kept {pts : List Part} {s0 : State} {s : State} {f : Fn} {code : Nat} (hk : Kept pts s0 s)
    (hp : [.regs, .pf0, .pf1, .pce, .rng, .mbx, .cmt, .mil, .out] ⊆ pts) : Kept pts s0 (s.silence f code) := by
  unfold State.silence
  repeat' first
    | with_reducible assumption | intro _ | (guard_target =~ Kept _ _ _; extract_lets +lift)
    | with_reducible refine State.haltRing_kept ?_ (inAll (by decide) hp) | with_reducible apply Kept.ite
    | (with_reducible apply Kept.foldl; rotate_left; intro _ _ _)
    | (with_reducible refine Kept.fst (by assumption) ?_)
    | (simp -zeta only [keptMk]; (with_reducible refine KeptMk.upd ?_ rfl ?_); rotate_left;
        · intro p; cases p <;> first | exact .inl (hp (by decide)) | (right; dsimp only [Part.same]))
    | split | dsimp +zetaDelta only

theorem bmeClear_kept {pts : List Part} {s0 : State} {f : Fn} {s : State} (hk : Kept pts s0 s)
    (hp : [.regs, .pf0, .pf1, .pce, .rng, .mbx, .cmt, .mil, .out] ⊆ pts) : Kept pts s0 (bmeClear f s) := by
  unfold bmeClear
  repeat' first
    | with_reducible assumption | intro _ | (guard_target =~ Kept _ _ _; extract_lets +lift)
    | with_reducible refine State.silence_kept ?_ (inAll (by decide) hp)
    | with_reducible refine State.setFn_kept ?_ (inAll (by decide) hp)

theorem busMasterEnableSet_kept {pts : List Part} {s0 : State} {f : Fn} {s : State} (hk : Kept pts s0 s)
    (hp : [.pf0, .pf1] ⊆ pts) : Kept pts s0 (busMasterEnableSet f s) := by
  unfold busMasterEnableSet
  repeat' first
    | with_reducible assumption | intro _ | (guard_target =~ Kept _ _ _; extract_lets +lift)
    | with_reducible refine State.setFn_kept ?_ (inAll (by decide) hp)

theorem State.resetFn_kept {pts : List Part} {s0 : State} {s : State} {f : Fn} (hk : Kept pts s0 s)
    (hp : [.regs, .acc, .pf0, .pf1, .rng, .mbx, .sem, .mil, .out] ⊆ pts) : Kept pts s0 (s.resetFn f) := by
  unfold State.resetFn
  repeat' first
    | with_reducible assumption | intro _ | (guard_target =~ Kept _ _ _; extract_lets +lift)
    | with_reducible refine State.emit_kept ?_ (inAll (by decide) hp)
    | with_reducible refine State.setFn_kept ?_ (inAll (by decide) hp)
    | with_reducible refine State.wr_kept ?_ (inAll (by decide) hp)
    | with_reducible refine State.set_kept ?_ (inAll (by decide) hp)
    | with_reducible refine State.autoRelease_kept ?_ (inAll (by decide) hp)
    | with_reducible apply Kept.ite | (with_reducible apply Kept.foldl; rotate_left; intro _ _ _)
    | (with_reducible refine Kept.fst (by assumption) ?_)
    | (simp -zeta only [keptMk]; (with_reducible refine KeptMk.upd ?_ rfl ?_); rotate_left;
        · intro p; cases p <;> first | exact .inl (hp (by decide)) | (right; dsimp only [Part.same]))
    | split | dsimp +zetaDelta only

theorem flr_kept {pts : List Part} {s0 : State} {f : Fn} {s : State} (hk : Kept pts s0 s)
    (hp : [.regs, .acc, .pf0, .pf1, .pce, .rng, .mbx, .sem, .cmt, .mil, .out] ⊆ pts) : Kept pts s0 (flr f s) := by
  unfold flr
  repeat' first
    | with_reducible assumption | intro _ | (guard_target =~ Kept _ _ _; extract_lets +lift)
    | with_reducible refine State.resetFn_kept ?_ (inAll (by decide) hp)
    | with_reducible refine State.silence_kept ?_ (inAll (by decide) hp)
    | with_reducible refine State.setFn_kept ?_ (inAll (by decide) hp)

theorem flrComplete_kept {pts : List Part} {s0 : State} {f : Fn} {s : State} (hk : Kept pts s0 s)
    (hp : [.pf0, .pf1] ⊆ pts) : Kept pts s0 (flrComplete f s) := by
  unfold flrComplete
  repeat' first
    | with_reducible assumption | intro _ | (guard_target =~ Kept _ _ _; extract_lets +lift)
    | with_reducible refine State.setFn_kept ?_ (inAll (by decide) hp)

theorem d3hotEntry_kept {pts : List Part} {s0 : State} {f : Fn} {s : State} (hk : Kept pts s0 s)
    (hp : [.regs, .pf0, .pf1, .pce, .rng, .mbx, .cmt, .mil, .out] ⊆ pts) : Kept pts s0 (d3hotEntry f s) := by
  unfold d3hotEntry
  repeat' first
    | with_reducible assumption | intro _ | (guard_target =~ Kept _ _ _; extract_lets +lift)
    | with_reducible refine State.settleIntx_kept ?_ (inAll (by decide) hp)
    | with_reducible refine State.silence_kept ?_ (inAll (by decide) hp)
    | with_reducible refine State.setFn_kept ?_ (inAll (by decide) hp)

theorem d0Transition_kept {pts : List Part} {s0 : State} {f : Fn} {s : State} (hk : Kept pts s0 s)
    (hp : [.regs, .acc, .pf0, .pf1, .pce, .rng, .mbx, .sem, .cmt, .mil, .out] ⊆ pts)
    : Kept pts s0 (d0Transition f s) := by
  unfold d0Transition
  repeat' first
    | with_reducible assumption | intro _ | (guard_target =~ Kept _ _ _; extract_lets +lift)
    | with_reducible refine State.resetFn_kept ?_ (inAll (by decide) hp)
    | with_reducible refine State.silence_kept ?_ (inAll (by decide) hp)
    | with_reducible refine State.setFn_kept ?_ (inAll (by decide) hp) | with_reducible apply Kept.ite

theorem State.resetHost_kept {pts : List Part} {s0 : State} {s : State} (hk : Kept pts s0 s)
    (hp : [.regs, .acc, .gen, .pf0, .pf1, .pce, .rng, .mbx, .sem, .cmt, .mil, .out] ⊆ pts)
    : Kept pts s0 (s.resetHost) := by
  unfold State.resetHost
  extract_lets s1 s2 s3 mine
  have h1 : Kept pts s0 s1 := Kept.foldl hk fun s x h => by
    split
    · exact State.commitLost_kept h (inAll (by decide) hp)
    · exact h
  have h2 : Kept pts s0 s2 := Kept.ite (State.emit_kept h1 (inAll (by decide) hp)) h1
  have h3 : Kept pts s0 s3 := Kept.ite (State.emit_kept h2 (inAll (by decide) hp)) h2
  exact h3.trans ⟨fun p hq => by cases p <;> first | rfl | exact absurd (hp (by decide)) hq, rfl, rfl, fun h => rises_filter _ _ h, id, id, id, List.suffix_refl _, Nat.le_refl _⟩

theorem State.linkUp_kept {pts : List Part} {s0 : State} {s : State} {rate : BitVec 4} {width : BitVec 4}
    {flit : Bool} (hk : Kept pts s0 s) (hp : [.freeCtr, .regs, .pf0, .pf1, .pce, .rng, .mil, .out] ⊆ pts)
    : Kept pts s0 (s.linkUp rate width flit) := by
  unfold State.linkUp
  repeat' first
    | with_reducible assumption | intro _ | (guard_target =~ Kept _ _ _; extract_lets +lift)
    | with_reducible refine State.used_kept ?_ (inAll (by decide) hp)
    | with_reducible refine State.raise_kept ?_ (inAll (by decide) hp) | with_reducible apply Kept.ite
    | (with_reducible refine Kept.fst (by assumption) ?_)
    | (simp -zeta only [keptMk]; (with_reducible refine KeptMk.upd ?_ rfl ?_); rotate_left;
        · intro p; cases p <;> first | exact .inl (hp (by decide)) | (right; dsimp only [Part.same]))
    | split | dsimp +zetaDelta only

theorem perstAssert_kept {pts : List Part} {s0 : State} {s : State} (hk : Kept pts s0 s)
    (hp : [.regs, .acc, .gen, .pf0, .pf1, .pce, .rng, .mbx, .sem, .cmt, .mil, .out] ⊆ pts)
    : Kept pts s0 (perstAssert s) := by
  unfold perstAssert
  repeat' first
    | with_reducible assumption | intro _ | (guard_target =~ Kept _ _ _; extract_lets +lift)
    | with_reducible refine State.resetHost_kept ?_ (inAll (by decide) hp) | with_reducible apply Kept.ite
    | (with_reducible refine Kept.fst (by assumption) ?_)
    | (simp -zeta only [keptMk]; (with_reducible refine KeptMk.upd ?_ rfl ?_); rotate_left;
        · intro p; cases p <;> first | exact .inl (hp (by decide)) | (right; dsimp only [Part.same]))

theorem perstDeassert_kept {pts : List Part} {s0 : State} {rate : BitVec 4} {width : BitVec 4} {flit : Bool}
    {s : State} (hk : Kept pts s0 s) (hp : [.freeCtr, .regs, .gen, .pf0, .pf1, .pce, .rng, .mil, .out] ⊆ pts)
    : Kept pts s0 (perstDeassert rate width flit s) := by
  unfold perstDeassert
  repeat' first
    | with_reducible assumption | intro _ | (guard_target =~ Kept _ _ _; extract_lets +lift)
    | with_reducible refine State.linkUp_kept ?_ (inAll (by decide) hp)
    | with_reducible refine State.set_kept ?_ (inAll (by decide) hp) | with_reducible apply Kept.ite
    | (with_reducible refine Kept.fst (by assumption) ?_)
    | (simp -zeta only [keptMk]; (with_reducible refine KeptMk.upd ?_ rfl ?_); rotate_left;
        · intro p; cases p <;> first | exact .inl (hp (by decide)) | (right; dsimp only [Part.same]))
    | split | dsimp +zetaDelta only

theorem hotReset_kept {pts : List Part} {s0 : State} {rate : BitVec 4} {width : BitVec 4} {flit : Bool} {s : State}
    (hk : Kept pts s0 s)
    (hp : [.freeCtr, .regs, .acc, .gen, .pf0, .pf1, .pce, .rng, .mbx, .sem, .cmt, .mil, .out] ⊆ pts)
    : Kept pts s0 (hotReset rate width flit s) := by
  unfold hotReset
  repeat' first
    | with_reducible assumption | intro _ | (guard_target =~ Kept _ _ _; extract_lets +lift)
    | with_reducible refine State.linkUp_kept ?_ (inAll (by decide) hp)
    | with_reducible refine State.set_kept ?_ (inAll (by decide) hp)
    | with_reducible refine State.resetHost_kept ?_ (inAll (by decide) hp) | with_reducible apply Kept.ite

theorem dlDown_kept {pts : List Part} {s0 : State} {s : State} (hk : Kept pts s0 s)
    (hp : [.regs, .acc, .gen, .pf0, .pf1, .pce, .rng, .mbx, .sem, .cmt, .mil, .out] ⊆ pts)
    : Kept pts s0 (dlDown s) := by
  unfold dlDown
  repeat' first
    | with_reducible assumption | intro _ | (guard_target =~ Kept _ _ _; extract_lets +lift)
    | with_reducible refine State.raise_kept ?_ (inAll (by decide) hp)
    | with_reducible refine State.resetHost_kept ?_ (inAll (by decide) hp)

theorem pcieLaneFail_kept {pts : List Part} {s0 : State} {working : BitVec 8} {s : State} (hk : Kept pts s0 s)
    (hp : [.regs, .pf0, .pf1, .pce, .rng, .mil, .out] ⊆ pts) : Kept pts s0 (pcieLaneFail working s) := by
  unfold pcieLaneFail
  repeat' first
    | with_reducible assumption | intro _ | (guard_target =~ Kept _ _ _; extract_lets +lift)
    | with_reducible refine State.raise_kept ?_ (inAll (by decide) hp) | with_reducible apply Kept.ite
    | (with_reducible refine Kept.fst (by assumption) ?_)
    | (simp -zeta only [keptMk]; (with_reducible refine KeptMk.upd ?_ rfl ?_); rotate_left;
        · intro p; cases p <;> first | exact .inl (hp (by decide)) | (right; dsimp only [Part.same]))
    | split | dsimp +zetaDelta only

theorem State.writeWin_kept {pts : List Part} {s0 : State} {s : State} {partMib : Nat} {n : Nat} {v : W64}
    (hk : Kept pts s0 s) (hp : [.regs, .pf0, .pf1, .rng, .mil, .out] ⊆ pts)
    : Kept pts s0 (s.writeWin partMib n v) := by
  unfold State.writeWin
  repeat' first
    | with_reducible assumption | intro _ | (guard_target =~ Kept _ _ _; extract_lets +lift)
    | with_reducible refine State.raise_kept ?_ (inAll (by decide) hp)
    | with_reducible refine State.set_kept ?_ (inAll (by decide) hp)
    | with_reducible refine State.wr_kept ?_ (inAll (by decide) hp) | with_reducible apply Kept.ite

theorem State.dropWrites_kept {pts : List Part} {s0 : State} {s : State} {d : Nat} (hk : Kept pts s0 s)
    (hp : [.shadow, .acc] ⊆ pts) : Kept pts s0 (s.dropWrites d) := by
  exact hk.trans ⟨fun p hq => by cases p <;> first | rfl | exact absurd (hp (by decide)) hq, rfl, rfl, id, fun h => rises_filter _ _ h, id, id, List.suffix_refl _, Nat.le_refl _⟩

theorem State.clearRegs_kept {pts : List Part} {s0 : State} {s : State} {d : Nat} (hk : Kept pts s0 s)
    (hp : [.regs, .shadow, .acc] ⊆ pts) : Kept pts s0 (s.clearRegs d) := by
  exact (State.dropWrites_kept hk (inAll (by decide) hp)).of_regs (f := dropRegs (heldIn d)) (fun l hl => rises_filter _ _ hl) (hp (by decide))

theorem State.warmRegs_kept {pts : List Part} {s0 : State} {s : State} {d : Nat} (hk : Kept pts s0 s)
    (hp : [.regs, .shadow, .acc] ⊆ pts) : Kept pts s0 (s.warmRegs d) := by
  unfold State.warmRegs
  refine (State.dropWrites_kept hk (inAll (by decide) hp)).trans ⟨fun p hq => by cases p <;> first | rfl | exact absurd (hp (by decide)) hq, rfl, rfl, fun h => ?_, id, id, id, List.suffix_refl _, Nat.le_refl _⟩
  refine rises_filterMap _ _ ?_ h
  intro e e' he
  dsimp only at he
  split at he
  · cases he; rfl
  · split at he
    · cases he; rfl
    · rw [Option.ite_none_left_eq_some] at he
      cases he.2; rfl

theorem State.counterStepped_kept {pts : List Part} {s0 : State} {s : State} {old : Nat} (hk : Kept pts s0 s)
    (hp : [.regs, .pf0, .pf1, .rng, .gates, .pmn, .mil, .out] ⊆ pts) : Kept pts s0 (s.counterStepped old) := by
  unfold State.counterStepped
  repeat' first
    | with_reducible assumption | intro _ | (guard_target =~ Kept _ _ _; extract_lets +lift)
    | with_reducible refine State.gatesStepped_kept ?_ (inAll (by decide) hp)
    | with_reducible refine State.pmStepped_kept ?_ (inAll (by decide) hp)

theorem State.nanosecond_kept {pts : List Part} {s0 : State} {s : State} (hk : Kept pts s0 s) (hp : [.tim] ⊆ pts)
    : Kept pts s0 (s.nanosecond) := by
  unfold State.nanosecond
  generalize (s.tim.total + (65536 + (s.tim.acc + s.freqNow + slewStep s.tim.slew) / 1000000000).toNat) %
    (2 ^ 48 * 65536000000000) = n
  exact Kept.of_nanosecond hk (hp (by decide))

theorem State.stepTo_kept {pts : List Part} {s0 : State} {s : State} {n : Nat} (hk : Kept pts s0 s)
    (hp : [.regs, .pf0, .pf1, .rng, .gates, .pmn, .tim, .mil, .out] ⊆ pts) : Kept pts s0 (s.stepTo n) := by
  unfold State.stepTo
  extract_lets old s1
  have h : Kept pts s0 s1 := hk.trans ⟨fun p hq => by cases p <;> first | rfl | exact absurd (hp (by decide)) hq, rfl, rfl, id, id, fun _ => ofTotal_ok _ _, id, List.suffix_refl _, Nat.le_refl _⟩
  exact State.counterStepped_kept (State.raise_kept h (inAll (by decide) hp)) (inAll (by decide) hp)

theorem State.stepBy_kept {pts : List Part} {s0 : State} {s : State} {d : Int} (hk : Kept pts s0 s)
    (hp : [.regs, .pf0, .pf1, .rng, .gates, .pmn, .tim, .mil, .out] ⊆ pts) : Kept pts s0 (s.stepBy d) := by
  unfold State.stepBy
  repeat' first
    | with_reducible assumption | intro _
    | with_reducible refine State.stepTo_kept ?_ (inAll (by decide) hp)

theorem State.servoTo_kept {pts : List Part} {s0 : State} {s : State} {x : ServoState} (hk : Kept pts s0 s)
    (hp : [.regs, .pf0, .pf1, .rng, .tim, .mil, .out] ⊆ pts) : Kept pts s0 (s.servoTo x) := by
  unfold State.servoTo
  repeat' first
    | with_reducible assumption | intro _ | (guard_target =~ Kept _ _ _; extract_lets +lift)
    | with_reducible refine State.raise_kept ?_ (inAll (by decide) hp) | with_reducible apply Kept.ite
    | (with_reducible refine Kept.fst (by assumption) ?_)
    | (simp -zeta only [keptMk]; (with_reducible refine KeptMk.tim ?_ ⟨rfl, rfl, rfl⟩ ?_); rotate_left; · exact hp (by decide))

theorem State.acquire_kept {pts : List Part} {s0 : State} {s : State} {off : Int} (hk : Kept pts s0 s)
    (hp : [.freeCtr, .regs, .pf0, .pf1, .rng, .gates, .pmn, .tim, .mil, .out] ⊆ pts)
    : Kept pts s0 (s.acquire off) := by
  unfold State.acquire
  repeat' first
    | with_reducible assumption | intro _ | (guard_target =~ Kept _ _ _; extract_lets +lift)
    | with_reducible refine State.stepBy_kept ?_ (inAll (by decide) hp)
    | with_reducible refine State.servoSlew_kept ?_ (inAll (by decide) hp)
    | with_reducible refine State.servoTo_kept ?_ (inAll (by decide) hp) | with_reducible apply Kept.ite
    | (with_reducible refine Kept.fst (by assumption) ?_)
    | (simp -zeta only [keptMk]; (with_reducible refine KeptMk.tim ?_ ⟨rfl, rfl, rfl⟩ ?_); rotate_left; · exact hp (by decide))
    | split | dsimp +zetaDelta only

theorem State.track_kept {pts : List Part} {s0 : State} {s : State} {off : Int} (hk : Kept pts s0 s)
    (hp : [.freeCtr, .regs, .pf0, .pf1, .rng, .tim, .mil, .out] ⊆ pts) : Kept pts s0 (s.track off) := by
  unfold State.track
  repeat' first
    | with_reducible assumption | intro _ | (guard_target =~ Kept _ _ _; extract_lets +lift)
    | with_reducible refine State.servoTo_kept ?_ (inAll (by decide) hp)
    | with_reducible refine State.servoSlew_kept ?_ (inAll (by decide) hp) | with_reducible apply Kept.ite
    | (with_reducible refine Kept.fst (by assumption) ?_)
    | (simp -zeta only [keptMk]; (with_reducible refine KeptMk.tim ?_ ⟨rfl, rfl, rfl⟩ ?_); rotate_left; · exact hp (by decide))
    | split | dsimp +zetaDelta only

theorem servoMeasurement_kept {pts : List Part} {s0 : State} {s : State} (hk : Kept pts s0 s)
    (hp : [.freeCtr, .regs, .pf0, .pf1, .rng, .gates, .pmn, .tim, .mil, .out] ⊆ pts)
    : Kept pts s0 (servoMeasurement s) := by
  unfold servoMeasurement
  repeat' first
    | with_reducible assumption | intro _ | (guard_target =~ Kept _ _ _; extract_lets +lift)
    | with_reducible refine State.acquire_kept ?_ (inAll (by decide) hp)
    | with_reducible refine State.track_kept ?_ (inAll (by decide) hp)
    | with_reducible refine State.servoTo_kept ?_ (inAll (by decide) hp) | with_reducible apply Kept.ite
    | (with_reducible refine Kept.fst (by assumption) ?_)
    | (simp -zeta only [keptMk]; (with_reducible refine KeptMk.tim ?_ ⟨rfl, rfl, rfl⟩ ?_); rotate_left; · exact hp (by decide))
    | split | dsimp +zetaDelta only

theorem State.measured_kept {pts : List Part} {s0 : State} {s : State} {off : Int} (hk : Kept pts s0 s)
    (hp : [.tim] ⊆ pts) : Kept pts s0 (s.measured off) := by
  unfold State.measured
  repeat' first
    | with_reducible assumption | intro _ | (guard_target =~ Kept _ _ _; extract_lets +lift)
    | with_reducible apply Kept.ite | (with_reducible refine Kept.fst (by assumption) ?_)
    | (simp -zeta only [keptMk]; (with_reducible refine KeptMk.tim ?_ ⟨rfl, rfl, rfl⟩ ?_); rotate_left; · exact hp (by decide))

theorem todMessage_kept {pts : List Part} {s0 : State} {m : List Byte} {inWindow : Bool} {s : State}
    (hk : Kept pts s0 s) (hp : [.regs, .pf0, .pf1, .rng, .tim, .mil, .out] ⊆ pts)
    : Kept pts s0 (todMessage m inWindow s) := by
  unfold todMessage
  repeat' first
    | with_reducible assumption | intro _ | (guard_target =~ Kept _ _ _; extract_lets +lift)
    | with_reducible refine State.raise_kept ?_ (inAll (by decide) hp) | with_reducible apply Kept.ite
    | (with_reducible refine Kept.fst (by assumption) ?_)
    | (simp -zeta only [keptMk]; (with_reducible refine KeptMk.tim ?_ ⟨rfl, rfl, rfl⟩ ?_); rotate_left; · exact hp (by decide))

theorem ppsEdge_kept {pts : List Part} {s0 : State} {sub : Fin 64} {s : State} (hk : Kept pts s0 s)
    (hp : [.freeCtr, .regs, .pf0, .pf1, .rng, .tim, .mil, .out] ⊆ pts) : Kept pts s0 (ppsEdge sub s) := by
  unfold ppsEdge
  repeat' first
    | with_reducible assumption | intro _ | (guard_target =~ Kept _ _ _; extract_lets +lift)
    | with_reducible refine State.measured_kept ?_ (inAll (by decide) hp)
    | with_reducible refine State.raise_kept ?_ (inAll (by decide) hp)
    | with_reducible refine State.sourceLost_kept ?_ (inAll (by decide) hp)
    | with_reducible apply Kept.ite | (with_reducible refine Kept.fst (by assumption) ?_)
    | (simp -zeta only [keptMk]; (with_reducible refine KeptMk.tim ?_ ⟨rfl, rfl, rfl⟩ ?_); rotate_left; · exact hp (by decide))
    | split | dsimp +zetaDelta only

theorem ppsLoss_kept {pts : List Part} {s0 : State} {s : State} (hk : Kept pts s0 s)
    (hp : [.freeCtr, .regs, .pf0, .pf1, .rng, .tim, .mil, .out] ⊆ pts) : Kept pts s0 (ppsLoss s) := by
  unfold ppsLoss
  repeat' first
    | with_reducible assumption | intro _ | (guard_target =~ Kept _ _ _; extract_lets +lift)
    | with_reducible refine State.sourceLost_kept ?_ (inAll (by decide) hp)
    | with_reducible apply Kept.ite | (with_reducible refine Kept.fst (by assumption) ?_)
    | (simp -zeta only [keptMk]; (with_reducible refine KeptMk.tim ?_ ⟨rfl, rfl, rfl⟩ ?_); rotate_left; · exact hp (by decide))

theorem ppsOut_kept {pts : List Part} {s0 : State} {s : State} (hk : Kept pts s0 s) (hp : [.out] ⊆ pts)
    : Kept pts s0 (ppsOut s) := by
  unfold ppsOut
  repeat' first
    | with_reducible assumption | intro _ | (guard_target =~ Kept _ _ _; extract_lets +lift)
    | with_reducible refine State.emit_kept ?_ (inAll (by decide) hp) | with_reducible apply Kept.ite

theorem todSend_kept {pts : List Part} {s0 : State} {s : State} (hk : Kept pts s0 s) (hp : [.out] ⊆ pts)
    : Kept pts s0 (todSend s) := by
  unfold todSend
  repeat' first
    | with_reducible assumption | intro _ | (guard_target =~ Kept _ _ _; extract_lets +lift)
    | with_reducible refine State.emit_kept ?_ (inAll (by decide) hp) | with_reducible apply Kept.ite

theorem timeDreqSend_kept {pts : List Part} {s0 : State} {s : State} (hk : Kept pts s0 s) (hp : [.fab, .tim] ⊆ pts)
    : Kept pts s0 (timeDreqSend s) := by
  unfold timeDreqSend
  repeat' first
    | with_reducible assumption | intro _ | (guard_target =~ Kept _ _ _; extract_lets +lift)
    | with_reducible refine State.sendCtl_kept ?_ (inAll (by decide) hp) | with_reducible apply Kept.ite
    | (with_reducible refine Kept.fst (by assumption) ?_)
    | (simp -zeta only [keptMk]; (with_reducible refine KeptMk.tim ?_ ⟨rfl, rfl, rfl⟩ ?_); rotate_left; · exact hp (by decide))

theorem State.takeTime_kept {pts : List Part} {s0 : State} {s : State} {f : CtlMsg → Option (Nat × Nat)}
    (hk : Kept pts s0 s) (hp : [.fab] ⊆ pts) {x res} (e : s.takeTime f = some (x, res)) : Kept pts s0 res := by
  unfold State.takeTime at e
  split at e
  · rename_i he
    rw [Option.map_eq_some_iff] at e
    obtain ⟨_, _, e⟩ := e
    cases e
    exact State.takeRx_kept hk (inAll (by decide) hp) he
  · cases e

theorem timeDreq_kept {pts : List Part} {s0 : State} {s : State} (hk : Kept pts s0 s) (hp : [.regs, .fab] ⊆ pts)
    : Kept pts s0 (timeDreq s) := by
  unfold timeDreq
  repeat' first
    | with_reducible assumption | intro _ | (guard_target =~ Kept _ _ _; extract_lets +lift)
    | with_reducible refine State.sendCtl_kept ?_ (inAll (by decide) hp)
    | with_reducible refine State.count_kept ?_ (inAll (by decide) hp)
    | with_reducible refine State.takeTime_kept ?_ (inAll (by decide) hp) (by assumption)
    | with_reducible apply Kept.ite | (with_reducible refine Kept.fst (by assumption) ?_) | split

theorem State.exchangeDiscarded_kept {pts : List Part} {s0 : State} {s : State} (hk : Kept pts s0 s)
    (hp : [.freeCtr, .regs, .pf0, .pf1, .rng, .tim, .mil, .out] ⊆ pts) : Kept pts s0 (s.exchangeDiscarded) := by
  unfold State.exchangeDiscarded
  repeat' first
    | with_reducible assumption | intro _ | (guard_target =~ Kept _ _ _; extract_lets +lift)
    | with_reducible refine State.count_kept ?_ (inAll (by decide) hp)
    | with_reducible refine State.sourceLost_kept ?_ (inAll (by decide) hp)
    | with_reducible apply Kept.ite | (with_reducible refine Kept.fst (by assumption) ?_)
    | (simp -zeta only [keptMk]; (with_reducible refine KeptMk.tim ?_ ⟨rfl, rfl, rfl⟩ ?_); rotate_left; · exact hp (by decide))

theorem State.answerStray_kept {pts : List Part} {s0 : State} {s : State} (hk : Kept pts s0 s) (hp : [.regs] ⊆ pts)
    : Kept pts s0 (s.answerStray) := by
  unfold State.answerStray
  repeat' first
    | with_reducible assumption | intro _
    | with_reducible refine State.count_kept ?_ (inAll (by decide) hp)

theorem timeDresp_kept {pts : List Part} {s0 : State} {s : State} (hk : Kept pts s0 s) (hp : [.fab, .tim] ⊆ pts)
    : Kept pts s0 (timeDresp s) := by
  unfold timeDresp
  repeat' first
    | with_reducible assumption | intro _ | (guard_target =~ Kept _ _ _; extract_lets +lift)
    | with_reducible refine State.takeTime_kept ?_ (inAll (by decide) hp) (by assumption)
    | with_reducible apply Kept.ite | (with_reducible refine Kept.fst (by assumption) ?_)
    | (simp -zeta only [keptMk]; (with_reducible refine KeptMk.tim ?_ ⟨rfl, rfl, rfl⟩ ?_); rotate_left; · exact hp (by decide))
    | split

theorem timeSync_kept {pts : List Part} {s0 : State} {s : State} (hk : Kept pts s0 s)
    (hp : [.freeCtr, .regs, .pf0, .pf1, .rng, .fab, .tim, .mil, .out] ⊆ pts) : Kept pts s0 (timeSync s) := by
  unfold timeSync
  repeat' first
    | with_reducible assumption | intro _ | (guard_target =~ Kept _ _ _; extract_lets +lift)
    | with_reducible refine State.measured_kept ?_ (inAll (by decide) hp)
    | with_reducible refine State.exchangeDiscarded_kept ?_ (inAll (by decide) hp)
    | with_reducible refine State.answerStray_kept ?_ (inAll (by decide) hp)
    | with_reducible refine State.takeTime_kept ?_ (inAll (by decide) hp) (by assumption)
    | with_reducible apply Kept.ite | (with_reducible refine Kept.fst (by assumption) ?_)
    | (simp -zeta only [keptMk]; (with_reducible refine KeptMk.tim ?_ ⟨rfl, rfl, rfl⟩ ?_); rotate_left; · exact hp (by decide))
    | split | dsimp +zetaDelta only

theorem timeExchangeTimeout_kept {pts : List Part} {s0 : State} {s : State} (hk : Kept pts s0 s)
    (hp : [.freeCtr, .regs, .pf0, .pf1, .rng, .tim, .mil, .out] ⊆ pts) : Kept pts s0 (timeExchangeTimeout s) := by
  unfold timeExchangeTimeout
  repeat' first
    | with_reducible assumption | intro _ | (guard_target =~ Kept _ _ _; extract_lets +lift)
    | with_reducible refine State.exchangeDiscarded_kept ?_ (inAll (by decide) hp)
    | with_reducible apply Kept.ite | (with_reducible refine Kept.fst (by assumption) ?_)
    | (simp -zeta only [keptMk]; (with_reducible refine KeptMk.tim ?_ ⟨rfl, rfl, rfl⟩ ?_); rotate_left; · exact hp (by decide))
    | split

theorem State.writeAdj_kept {pts : List Part} {s0 : State} {s : State} {v : W64} (hk : Kept pts s0 s)
    (hp : [.regs, .pf0, .pf1, .rng, .gates, .pmn, .tim, .mil, .out] ⊆ pts) : Kept pts s0 (s.writeAdj v) := by
  unfold State.writeAdj
  repeat' first
    | with_reducible assumption | intro _ | (guard_target =~ Kept _ _ _; extract_lets +lift)
    | with_reducible refine State.violation_kept ?_ (inAll (by decide) hp)
    | with_reducible refine State.servoTo_kept ?_ (inAll (by decide) hp)
    | with_reducible refine State.stepTo_kept ?_ (inAll (by decide) hp)
    | with_reducible refine State.stepBy_kept ?_ (inAll (by decide) hp)
    | with_reducible refine State.measured_kept ?_ (inAll (by decide) hp) | with_reducible apply Kept.ite
    | (with_reducible refine Kept.fst (by assumption) ?_)
    | (simp -zeta only [keptMk]; (with_reducible refine KeptMk.tim ?_ ⟨rfl, rfl, rfl⟩ ?_); rotate_left; · exact hp (by decide))

theorem timAdjSlew_kept {pts : List Part} {s0 : State} {v : W64} {s : State} (hk : Kept pts s0 s)
    (hp : [.regs, .pf0, .pf1, .rng, .gates, .pmn, .tim, .mil, .out] ⊆ pts) : Kept pts s0 (timAdjSlew v s) := by
  unfold timAdjSlew
  repeat' first
    | with_reducible assumption | intro _
    | with_reducible refine State.writeAdj_kept ?_ (inAll (by decide) hp)

theorem timAdjStep_kept {pts : List Part} {s0 : State} {v : W64} {s : State} (hk : Kept pts s0 s)
    (hp : [.regs, .pf0, .pf1, .rng, .gates, .pmn, .tim, .mil, .out] ⊆ pts) : Kept pts s0 (timAdjStep v s) := by
  unfold timAdjStep
  repeat' first
    | with_reducible assumption | intro _
    | with_reducible refine State.writeAdj_kept ?_ (inAll (by decide) hp)

theorem timAdjLoad_kept {pts : List Part} {s0 : State} {v : W64} {s : State} (hk : Kept pts s0 s)
    (hp : [.regs, .pf0, .pf1, .rng, .gates, .pmn, .tim, .mil, .out] ⊆ pts) : Kept pts s0 (timAdjLoad v s) := by
  unfold timAdjLoad
  repeat' first
    | with_reducible assumption | intro _
    | with_reducible refine State.writeAdj_kept ?_ (inAll (by decide) hp)

theorem State.captureNs_kept {pts : List Part} {s0 : State} {s : State} {req : Req} (hk : Kept pts s0 s)
    (hp : [.acc] ⊆ pts) : Kept pts s0 (s.captureNs req) := by
  unfold State.captureNs
  repeat' first
    | with_reducible assumption | intro _ | (guard_target =~ Kept _ _ _; extract_lets +lift)
    | with_reducible apply Kept.ite | (with_reducible refine Kept.fst (by assumption) ?_)
    | (simp -zeta only [keptMk]; (with_reducible refine KeptMk.upd ?_ rfl ?_); rotate_left;
        · intro p; cases p <;> first | exact .inl (hp (by decide)) | (right; dsimp only [Part.same]))

theorem ref10mChange_kept {pts : List Part} {s0 : State} {s : State} (hk : Kept pts s0 s) (hp : [.tim] ⊆ pts)
    : Kept pts s0 (ref10mChange s) := by
  unfold ref10mChange
  repeat' first
    | with_reducible assumption | intro _ | (guard_target =~ Kept _ _ _; extract_lets +lift)
    | with_reducible apply Kept.ite | (with_reducible refine Kept.fst (by assumption) ?_)
    | (simp -zeta only [keptMk]; (with_reducible refine KeptMk.tim ?_ ⟨rfl, rfl, rfl⟩ ?_); rotate_left; · exact hp (by decide))

theorem State.mill_kept {pts : List Part} {s0 : State} {s : State} {f : MilSt → MilSt} (hk : Kept pts s0 s)
    (hp : [.mil] ⊆ pts) : Kept pts s0 (s.mill f) := by
  unfold State.mill
  repeat' first
    | with_reducible assumption | intro _ | with_reducible apply Kept.ite
    | (with_reducible refine Kept.fst (by assumption) ?_)
    | (simp -zeta only [keptMk]; (with_reducible refine KeptMk.upd ?_ rfl ?_); rotate_left;
        · intro p; cases p <;> first | exact .inl (hp (by decide)) | (right; dsimp only [Part.same]))

theorem State.lockDebug_kept {pts : List Part} {s0 : State} {s : State} (hk : Kept pts s0 s)
    (hp : [.regs, .pf0, .pf1, .rng, .sem, .mil, .out] ⊆ pts) : Kept pts s0 (s.lockDebug) := by
  unfold State.lockDebug
  repeat' first
    | with_reducible assumption | intro _ | (guard_target =~ Kept _ _ _; extract_lets +lift)
    | with_reducible refine State.autoRelease_kept ?_ (inAll (by decide) hp)
    | with_reducible refine State.mill_kept ?_ (inAll (by decide) hp)

theorem State.millRestart_kept {pts : List Part} {s0 : State} {s : State} (hk : Kept pts s0 s)
    (hp : [.regs, .shadow, .acc, .gen, .pf0, .pf1, .rng, .mbx, .sem, .mil, .out] ⊆ pts)
    : Kept pts s0 (s.millRestart) := by
  unfold State.millRestart
  repeat' first
    | with_reducible assumption | intro _ | (guard_target =~ Kept _ _ _; extract_lets +lift)
    | with_reducible refine State.clearRegs_kept ?_ (inAll (by decide) hp)
    | with_reducible refine State.mill_kept ?_ (inAll (by decide) hp)
    | with_reducible refine State.raise_kept ?_ (inAll (by decide) hp)
    | with_reducible refine State.lockDebug_kept ?_ (inAll (by decide) hp)
    | with_reducible refine State.autoRelease_kept ?_ (inAll (by decide) hp)
    | with_reducible apply Kept.ite | (with_reducible refine Kept.fst (by assumption) ?_)
    | (simp -zeta only [keptMk]; (with_reducible refine KeptMk.upd ?_ rfl ?_); rotate_left;
        · intro p; cases p <;> first | exact .inl (hp (by decide)) | (right; dsimp only [Part.same]))
    | split | dsimp +zetaDelta only

theorem lockstepMismatch_kept {pts : List Part} {s0 : State} {pc0 : W64} {pc1 : W64} {s : State} (hk : Kept pts s0 s)
    (hp : [.regs, .shadow, .acc, .gen, .pf0, .pf1, .rng, .mbx, .sem, .mil, .out] ⊆ pts)
    : Kept pts s0 (lockstepMismatch pc0 pc1 s) := by
  unfold lockstepMismatch
  repeat' first
    | with_reducible assumption | intro _ | (guard_target =~ Kept _ _ _; extract_lets +lift)
    | with_reducible refine State.mill_kept ?_ (inAll (by decide) hp)
    | with_reducible refine State.healthTo_kept ?_ (inAll (by decide) hp)
    | with_reducible refine State.millRestart_kept ?_ (inAll (by decide) hp)
    | with_reducible refine State.stageLog_kept ?_ (inAll (by decide) hp)

theorem sramUncorrectable_kept {pts : List Part} {s0 : State} {addr : W64} {s : State} (hk : Kept pts s0 s)
    (hp : [.regs, .shadow, .acc, .gen, .pf0, .pf1, .rng, .mbx, .sem, .mil, .out] ⊆ pts)
    : Kept pts s0 (sramUncorrectable addr s) := by
  unfold sramUncorrectable
  repeat' first
    | with_reducible assumption | intro _ | (guard_target =~ Kept _ _ _; extract_lets +lift)
    | with_reducible refine State.healthTo_kept ?_ (inAll (by decide) hp)
    | with_reducible refine State.millRestart_kept ?_ (inAll (by decide) hp)
    | with_reducible refine State.stageLog_kept ?_ (inAll (by decide) hp)

theorem millWatchdog_kept {pts : List Part} {s0 : State} {pc0 : W64} {pc1 : W64} {s : State} (hk : Kept pts s0 s)
    (hp : [.regs, .shadow, .acc, .gen, .pf0, .pf1, .rng, .mbx, .sem, .mil, .out] ⊆ pts)
    : Kept pts s0 (millWatchdog pc0 pc1 s) := by
  unfold millWatchdog
  repeat' first
    | with_reducible assumption | intro _ | (guard_target =~ Kept _ _ _; extract_lets +lift)
    | with_reducible refine State.mill_kept ?_ (inAll (by decide) hp)
    | with_reducible refine State.healthTo_kept ?_ (inAll (by decide) hp)
    | with_reducible refine State.millRestart_kept ?_ (inAll (by decide) hp)
    | with_reducible refine State.stageLog_kept ?_ (inAll (by decide) hp)

theorem State.fwFallback_kept {pts : List Part} {s0 : State} {s : State} (hk : Kept pts s0 s)
    (hp : [.regs, .pf0, .pf1, .rng, .mil, .out] ⊆ pts) : Kept pts s0 (s.fwFallback) := by
  unfold State.fwFallback
  repeat' first
    | with_reducible assumption | intro _ | (guard_target =~ Kept _ _ _; extract_lets +lift)
    | with_reducible refine State.mill_kept ?_ (inAll (by decide) hp)
    | with_reducible refine State.stageLog_kept ?_ (inAll (by decide) hp)
    | with_reducible refine State.raise_kept ?_ (inAll (by decide) hp)
    | with_reducible refine State.alertClass_kept ?_ (inAll (by decide) hp)
    | with_reducible apply Kept.ite

theorem millRestartDone_kept {pts : List Part} {s0 : State} {s : State} (hk : Kept pts s0 s)
    (hp : [.regs, .gen, .pf0, .pf1, .rng, .mil, .out] ⊆ pts) : Kept pts s0 (millRestartDone s) := by
  unfold millRestartDone
  repeat' first
    | with_reducible assumption | intro _ | (guard_target =~ Kept _ _ _; extract_lets +lift)
    | with_reducible refine State.fwFallback_kept ?_ (inAll (by decide) hp)
    | with_reducible refine State.mill_kept ?_ (inAll (by decide) hp)
    | with_reducible refine State.set_kept ?_ (inAll (by decide) hp)
    | with_reducible refine State.raise_kept ?_ (inAll (by decide) hp)
    | with_reducible refine State.queueNotice_kept ?_ (inAll (by decide) hp)
    | with_reducible refine State.alertClass_kept ?_ (inAll (by decide) hp)
    | with_reducible apply Kept.ite | (with_reducible refine Kept.fst (by assumption) ?_)
    | (simp -zeta only [keptMk]; (with_reducible refine KeptMk.upd ?_ rfl ?_); rotate_left;
        · intro p; cases p <;> first | exact .inl (hp (by decide)) | (right; dsimp only [Part.same]))
    | split | dsimp +zetaDelta only

theorem State.setPoint_kept {pts : List Part} {s0 : State} {s : State} {k : SensorKind} {p : Nat} {x : SensorPt}
    (hk : Kept pts s0 s) (hp : [.mil] ⊆ pts) : Kept pts s0 (s.setPoint k p x) := by
  unfold State.setPoint
  repeat' first
    | with_reducible assumption | intro _
    | with_reducible refine State.mill_kept ?_ (inAll (by decide) hp)

theorem State.sampleTemp_kept {pts : List Part} {s0 : State} {s : State} {p : Nat} {v : Int} (hk : Kept pts s0 s)
    (hp : [.regs, .pf0, .pf1, .rng, .mil, .out] ⊆ pts) : Kept pts s0 (s.sampleTemp p v) := by
  unfold State.sampleTemp
  repeat' first
    | with_reducible assumption | intro _ | (guard_target =~ Kept _ _ _; extract_lets +lift)
    | with_reducible refine State.setPoint_kept ?_ (inAll (by decide) hp)
    | with_reducible refine State.mill_kept ?_ (inAll (by decide) hp)
    | with_reducible refine State.raiseAt_kept ?_ (inAll (by decide) hp)
    | with_reducible refine State.alertClass_kept ?_ (inAll (by decide) hp)
    | with_reducible refine State.stageLog_kept ?_ (inAll (by decide) hp) | with_reducible apply Kept.ite

theorem State.sample_kept {pts : List Part} {s0 : State} {s : State} {r : Reading} (hk : Kept pts s0 s)
    (hp : [.regs, .pf0, .pf1, .rng, .mil, .out] ⊆ pts) : Kept pts s0 (s.sample r) := by
  unfold State.sample
  repeat' first
    | with_reducible assumption | intro _ | (guard_target =~ Kept _ _ _; extract_lets +lift)
    | with_reducible refine State.setPoint_kept ?_ (inAll (by decide) hp)
    | with_reducible refine State.raise_kept ?_ (inAll (by decide) hp)
    | with_reducible refine State.mill_kept ?_ (inAll (by decide) hp)
    | with_reducible refine State.sampleTemp_kept ?_ (inAll (by decide) hp)
    | with_reducible refine State.alertClass_kept ?_ (inAll (by decide) hp)
    | with_reducible apply Kept.ite | (with_reducible refine Kept.fst (by assumption) ?_) | split

theorem sensorSample_kept {pts : List Part} {s0 : State} {rs : List Reading} {s : State} (hk : Kept pts s0 s)
    (hp : [.regs, .pf0, .pf1, .rng, .mil, .out] ⊆ pts) : Kept pts s0 (sensorSample rs s) := by
  unfold sensorSample
  repeat' first
    | with_reducible assumption | intro _ | (guard_target =~ Kept _ _ _; extract_lets +lift)
    | with_reducible refine State.sample_kept ?_ (inAll (by decide) hp) | with_reducible apply Kept.ite
    | (with_reducible apply Kept.foldl; rotate_left; intro _ _ _)

theorem State.flashEntry_kept {pts : List Part} {s0 : State} {s : State} {e : LogEntry} (hk : Kept pts s0 s)
    (hp : [.mil] ⊆ pts) : Kept pts s0 (s.flashEntry e) := by
  unfold State.flashEntry
  repeat' first
    | with_reducible assumption | intro _ | (guard_target =~ Kept _ _ _; extract_lets +lift)
    | with_reducible refine State.mill_kept ?_ (inAll (by decide) hp)

theorem logFlashWrite_kept {pts : List Part} {s0 : State} {s : State} (hk : Kept pts s0 s)
    (hp : [.regs, .pf0, .pf1, .rng, .mil, .out] ⊆ pts) : Kept pts s0 (logFlashWrite s) := by
  unfold logFlashWrite
  repeat' first
    | with_reducible assumption | intro _ | (guard_target =~ Kept _ _ _; extract_lets +lift)
    | with_reducible refine State.mill_kept ?_ (inAll (by decide) hp)
    | with_reducible refine State.flashEntry_kept ?_ (inAll (by decide) hp)
    | with_reducible refine State.raise_kept ?_ (inAll (by decide) hp) | with_reducible apply Kept.ite
    | (with_reducible refine Kept.fst (by assumption) ?_) | split

theorem State.runCmd_kept {pts : List Part} {s0 : State} {s : State} {src : MillSrc} {op : Nat}
    {mine : List Byte → Bool} {need : Nat} {act : Act} (hk : Kept pts s0 s) (hp : [.mbx] ⊆ pts)
    (hf : ∀ b s, Kept pts s0 s → Kept pts s0 (act b s).2) : Kept pts s0 (s.runCmd src op mine need act) := by
  unfold State.runCmd
  repeat' first
    | with_reducible assumption | intro _ | with_reducible apply hf | (guard_target =~ Kept _ _ _; extract_lets +lift)
    | with_reducible apply Kept.ite | (with_reducible refine Kept.fst (by assumption) ?_)
    | (simp -zeta only [keptMk]; (with_reducible refine KeptMk.upd ?_ rfl ?_); rotate_left;
        · intro p; cases p <;> first | exact .inl (hp (by decide)) | (right; dsimp only [Part.same]))
    | split | dsimp +zetaDelta only

theorem identity_kept {pts : List Part} {s0 : State} {src : MillSrc} {s : State} (hk : Kept pts s0 s)
    (hp : [.mbx] ⊆ pts) : Kept pts s0 (identity src s) := by
  unfold identity
  repeat' first
    | with_reducible assumption | intro _
    | with_reducible refine State.runCmd_kept ?_ (inAll (by decide) hp) ?_

theorem sensors_kept {pts : List Part} {s0 : State} {src : MillSrc} {s : State} (hk : Kept pts s0 s)
    (hp : [.mbx] ⊆ pts) : Kept pts s0 (sensors src s) := by
  unfold sensors
  repeat' first
    | with_reducible assumption | intro _ | (guard_target =~ Kept _ _ _; extract_lets +lift)
    | with_reducible refine State.runCmd_kept ?_ (inAll (by decide) hp) ?_ | with_reducible apply Kept.ite
    | (with_reducible refine Kept.fst (by assumption) ?_) | split

theorem alertRead_kept {pts : List Part} {s0 : State} {src : MillSrc} {s : State} (hk : Kept pts s0 s)
    (hp : [.mbx] ⊆ pts) : Kept pts s0 (alertRead src s) := by
  unfold alertRead
  repeat' first
    | with_reducible assumption | intro _ | (guard_target =~ Kept _ _ _; extract_lets +lift)
    | with_reducible refine State.runCmd_kept ?_ (inAll (by decide) hp) ?_ | with_reducible apply Kept.ite
    | (with_reducible refine Kept.fst (by assumption) ?_) | split

theorem alertWrite_kept {pts : List Part} {s0 : State} {src : MillSrc} {s : State} (hk : Kept pts s0 s)
    (hp : [.mbx, .mil, .out] ⊆ pts) : Kept pts s0 (alertWrite src s) := by
  unfold alertWrite
  repeat' first
    | with_reducible assumption | intro _ | (guard_target =~ Kept _ _ _; extract_lets +lift)
    | with_reducible refine State.runCmd_kept ?_ (inAll (by decide) hp) ?_
    | with_reducible refine State.settleAlert_kept ?_ (inAll (by decide) hp)
    | with_reducible refine State.mill_kept ?_ (inAll (by decide) hp)

theorem State.clearAlerts_kept {pts : List Part} {s0 : State} {s : State} (hk : Kept pts s0 s)
    (hp : [.mil, .out] ⊆ pts) : Kept pts s0 (s.clearAlerts) := by
  unfold State.clearAlerts
  repeat' first
    | with_reducible assumption | intro _ | (guard_target =~ Kept _ _ _; extract_lets +lift)
    | with_reducible refine State.settleAlert_kept ?_ (inAll (by decide) hp)
    | with_reducible refine State.mill_kept ?_ (inAll (by decide) hp)

theorem alertAck_kept {pts : List Part} {s0 : State} {src : MillSrc} {s : State} (hk : Kept pts s0 s)
    (hp : [.mbx, .mil, .out] ⊆ pts) : Kept pts s0 (alertAck src s) := by
  unfold alertAck
  repeat' first
    | with_reducible assumption | intro _ | (guard_target =~ Kept _ _ _; extract_lets +lift)
    | with_reducible refine State.runCmd_kept ?_ (inAll (by decide) hp) ?_
    | with_reducible refine State.clearAlerts_kept ?_ (inAll (by decide) hp)

theorem logRead_kept {pts : List Part} {s0 : State} {src : MillSrc} {s : State} (hk : Kept pts s0 s)
    (hp : [.mbx] ⊆ pts) : Kept pts s0 (logRead src s) := by
  unfold logRead
  repeat' first
    | with_reducible assumption | intro _
    | with_reducible refine State.runCmd_kept ?_ (inAll (by decide) hp) ?_

theorem tagRead_kept {pts : List Part} {s0 : State} {src : MillSrc} {s : State} (hk : Kept pts s0 s)
    (hp : [.mbx] ⊆ pts) : Kept pts s0 (tagRead src s) := by
  unfold tagRead
  repeat' first
    | with_reducible assumption | intro _ | (guard_target =~ Kept _ _ _; extract_lets +lift)
    | with_reducible refine State.runCmd_kept ?_ (inAll (by decide) hp) ?_ | with_reducible apply Kept.ite
    | (with_reducible refine Kept.fst (by assumption) ?_) | split

theorem tagWrite_kept {pts : List Part} {s0 : State} {src : MillSrc} {s : State} (hk : Kept pts s0 s)
    (hp : [.regs, .pf0, .pf1, .rng, .mbx, .mil, .out] ⊆ pts) : Kept pts s0 (tagWrite src s) := by
  unfold tagWrite
  repeat' first
    | with_reducible assumption | intro _ | (guard_target =~ Kept _ _ _; extract_lets +lift)
    | with_reducible refine State.runCmd_kept ?_ (inAll (by decide) hp) ?_
    | with_reducible refine State.raise_kept ?_ (inAll (by decide) hp)
    | with_reducible refine State.mill_kept ?_ (inAll (by decide) hp)
    | with_reducible refine State.stageLog_kept ?_ (inAll (by decide) hp) | with_reducible apply Kept.ite
    | (with_reducible refine Kept.fst (by assumption) ?_) | split

theorem tagWpRead_kept {pts : List Part} {s0 : State} {src : MillSrc} {s : State} (hk : Kept pts s0 s)
    (hp : [.mbx] ⊆ pts) : Kept pts s0 (tagWpRead src s) := by
  unfold tagWpRead
  repeat' first
    | with_reducible assumption | intro _ | (guard_target =~ Kept _ _ _; extract_lets +lift)
    | with_reducible refine State.runCmd_kept ?_ (inAll (by decide) hp) ?_ | with_reducible apply Kept.ite
    | (with_reducible refine Kept.fst (by assumption) ?_) | split

theorem State.setTagWp_kept {pts : List Part} {s0 : State} {s : State} {x : Bool} (hk : Kept pts s0 s)
    (hp : [.mil] ⊆ pts) : Kept pts s0 (s.setTagWp x) := by
  unfold State.setTagWp
  repeat' first
    | with_reducible assumption | intro _ | (guard_target =~ Kept _ _ _; extract_lets +lift)
    | with_reducible refine State.mill_kept ?_ (inAll (by decide) hp)

theorem tagWpSet_kept {pts : List Part} {s0 : State} {src : MillSrc} {s : State} (hk : Kept pts s0 s)
    (hp : [.mbx, .mil] ⊆ pts) : Kept pts s0 (tagWpSet src s) := by
  unfold tagWpSet
  repeat' first
    | with_reducible assumption | intro _ | (guard_target =~ Kept _ _ _; extract_lets +lift)
    | with_reducible refine State.runCmd_kept ?_ (inAll (by decide) hp) ?_
    | with_reducible refine State.setTagWp_kept ?_ (inAll (by decide) hp)

theorem tagWpClear_kept {pts : List Part} {s0 : State} {src : MillSrc} {s : State} (hk : Kept pts s0 s)
    (hp : [.mbx, .mil] ⊆ pts) : Kept pts s0 (tagWpClear src s) := by
  unfold tagWpClear
  repeat' first
    | with_reducible assumption | intro _ | (guard_target =~ Kept _ _ _; extract_lets +lift)
    | with_reducible refine State.runCmd_kept ?_ (inAll (by decide) hp) ?_
    | with_reducible refine State.setTagWp_kept ?_ (inAll (by decide) hp) | with_reducible apply Kept.ite
    | (with_reducible refine Kept.fst (by assumption) ?_) | split

theorem getFile_kept {pts : List Part} {s0 : State} {src : MillSrc} {file : Option (List Byte)} {s : State}
    (hk : Kept pts s0 s) (hp : [.mbx] ⊆ pts) : Kept pts s0 (getFile src file s) := by
  unfold getFile
  repeat' first
    | with_reducible assumption | intro _ | (guard_target =~ Kept _ _ _; extract_lets +lift)
    | with_reducible refine State.runCmd_kept ?_ (inAll (by decide) hp) ?_ | with_reducible apply Kept.ite
    | (with_reducible refine Kept.fst (by assumption) ?_) | split

theorem fwBegin_kept {pts : List Part} {s0 : State} {src : MillSrc} {s : State} (hk : Kept pts s0 s)
    (hp : [.mbx, .mil] ⊆ pts) : Kept pts s0 (fwBegin src s) := by
  unfold fwBegin
  repeat' first
    | with_reducible assumption | intro _ | (guard_target =~ Kept _ _ _; extract_lets +lift)
    | with_reducible refine State.runCmd_kept ?_ (inAll (by decide) hp) ?_
    | with_reducible refine State.mill_kept ?_ (inAll (by decide) hp) | with_reducible apply Kept.ite
    | (with_reducible refine Kept.fst (by assumption) ?_) | split

theorem fwData_kept {pts : List Part} {s0 : State} {src : MillSrc} {s : State} (hk : Kept pts s0 s)
    (hp : [.mbx, .mil] ⊆ pts) : Kept pts s0 (fwData src s) := by
  unfold fwData
  repeat' first
    | with_reducible assumption | intro _ | (guard_target =~ Kept _ _ _; extract_lets +lift)
    | with_reducible refine State.runCmd_kept ?_ (inAll (by decide) hp) ?_
    | with_reducible refine State.mill_kept ?_ (inAll (by decide) hp) | with_reducible apply Kept.ite
    | (with_reducible refine Kept.fst (by assumption) ?_) | split

theorem fwVerify_kept {pts : List Part} {s0 : State} {src : MillSrc} {signatureOk : Bool} {hashOk : Bool} {s : State}
    (hk : Kept pts s0 s) (hp : [.mbx, .mil, .out] ⊆ pts) : Kept pts s0 (fwVerify src signatureOk hashOk s) := by
  unfold fwVerify
  repeat' first
    | with_reducible assumption | intro _ | (guard_target =~ Kept _ _ _; extract_lets +lift)
    | with_reducible refine State.runCmd_kept ?_ (inAll (by decide) hp) ?_
    | with_reducible refine State.mill_kept ?_ (inAll (by decide) hp)
    | with_reducible refine State.stageLog_kept ?_ (inAll (by decide) hp) | with_reducible apply Kept.ite
    | (with_reducible refine Kept.fst (by assumption) ?_) | split

theorem fwActivate_kept {pts : List Part} {s0 : State} {src : MillSrc} {s : State} (hk : Kept pts s0 s)
    (hp : [.regs, .shadow, .acc, .gen, .pf0, .pf1, .rng, .mbx, .sem, .mil, .out] ⊆ pts)
    : Kept pts s0 (fwActivate src s) := by
  unfold fwActivate
  repeat' first
    | with_reducible assumption | intro _ | (guard_target =~ Kept _ _ _; extract_lets +lift)
    | with_reducible refine State.runCmd_kept ?_ (inAll (by decide) hp) ?_
    | with_reducible refine State.stageLog_kept ?_ (inAll (by decide) hp)
    | with_reducible refine State.mill_kept ?_ (inAll (by decide) hp)
    | with_reducible refine millAnswer_kept ?_ (inAll (by decide) hp)
    | with_reducible refine State.millRestart_kept ?_ (inAll (by decide) hp)
    | with_reducible apply Kept.ite | (with_reducible refine Kept.fst (by assumption) ?_) | split

theorem fwCommit_kept {pts : List Part} {s0 : State} {src : MillSrc} {s : State} (hk : Kept pts s0 s)
    (hp : [.mbx, .mil, .out] ⊆ pts) : Kept pts s0 (fwCommit src s) := by
  unfold fwCommit
  repeat' first
    | with_reducible assumption | intro _ | (guard_target =~ Kept _ _ _; extract_lets +lift)
    | with_reducible refine State.runCmd_kept ?_ (inAll (by decide) hp) ?_
    | with_reducible refine State.mill_kept ?_ (inAll (by decide) hp)
    | with_reducible refine State.stageLog_kept ?_ (inAll (by decide) hp) | with_reducible apply Kept.ite
    | (with_reducible refine Kept.fst (by assumption) ?_) | split

theorem debugUnlock_kept {pts : List Part} {s0 : State} {src : MillSrc} {s : State} (hk : Kept pts s0 s)
    (hp : [.mbx, .mil] ⊆ pts) : Kept pts s0 (debugUnlock src s) := by
  unfold debugUnlock
  repeat' first
    | with_reducible assumption | intro _ | (guard_target =~ Kept _ _ _; extract_lets +lift)
    | with_reducible refine State.runCmd_kept ?_ (inAll (by decide) hp) ?_
    | with_reducible refine State.mill_kept ?_ (inAll (by decide) hp) | with_reducible apply Kept.ite
    | (with_reducible refine Kept.fst (by assumption) ?_) | split

theorem debugLock_kept {pts : List Part} {s0 : State} {src : MillSrc} {s : State} (hk : Kept pts s0 s)
    (hp : [.regs, .pf0, .pf1, .rng, .mbx, .sem, .mil, .out] ⊆ pts) : Kept pts s0 (debugLock src s) := by
  unfold debugLock
  repeat' first
    | with_reducible assumption | intro _ | (guard_target =~ Kept _ _ _; extract_lets +lift)
    | with_reducible refine State.runCmd_kept ?_ (inAll (by decide) hp) ?_
    | with_reducible refine State.lockDebug_kept ?_ (inAll (by decide) hp) | with_reducible apply Kept.ite
    | (with_reducible refine Kept.fst (by assumption) ?_) | split

theorem debugExpiry_kept {pts : List Part} {s0 : State} {s : State} (hk : Kept pts s0 s)
    (hp : [.regs, .pf0, .pf1, .rng, .sem, .mil, .out] ⊆ pts) : Kept pts s0 (debugExpiry s) := by
  unfold debugExpiry
  repeat' first
    | with_reducible assumption | intro _ | (guard_target =~ Kept _ _ _; extract_lets +lift)
    | with_reducible refine State.lockDebug_kept ?_ (inAll (by decide) hp) | with_reducible apply Kept.ite

theorem millNotice_kept {pts : List Part} {s0 : State} {s : State} (hk : Kept pts s0 s)
    (hp : [.freeCtr, .regs, .pf0, .pf1, .rng, .mbx, .mil, .out] ⊆ pts) : Kept pts s0 (millNotice s) := by
  unfold millNotice
  repeat' first
    | with_reducible assumption | intro _ | (guard_target =~ Kept _ _ _; extract_lets +lift)
    | with_reducible refine State.postM2h_kept ?_ (inAll (by decide) hp)
    | with_reducible refine State.mill_kept ?_ (inAll (by decide) hp)
    | with_reducible refine State.used_kept ?_ (inAll (by decide) hp) | with_reducible apply Kept.ite
    | (with_reducible refine Kept.fst (by assumption) ?_) | split | dsimp +zetaDelta only

theorem smbusAra_kept {pts : List Part} {s0 : State} {s : State} (hk : Kept pts s0 s) (hp : [.mil, .out] ⊆ pts)
    : Kept pts s0 (smbusAra s) := by
  unfold smbusAra
  repeat' first
    | with_reducible assumption | intro _ | (guard_target =~ Kept _ _ _; extract_lets +lift)
    | with_reducible refine State.clearAlerts_kept ?_ (inAll (by decide) hp)
    | with_reducible refine State.emit_kept ?_ (inAll (by decide) hp) | with_reducible apply Kept.ite

theorem State.smbError_kept {pts : List Part} {s0 : State} {s : State} (hk : Kept pts s0 s) (hp : [.regs] ⊆ pts)
    : Kept pts s0 (s.smbError) := by
  unfold State.smbError
  repeat' first
    | with_reducible assumption | intro _
    | with_reducible refine State.count_kept ?_ (inAll (by decide) hp)

theorem smbBlockWrite_kept {pts : List Part} {s0 : State} {off : BitVec 16} {data : List Byte} {pecOk : Bool}
    {s : State} (hk : Kept pts s0 s) (hp : [.regs, .mil] ⊆ pts) : Kept pts s0 (smbBlockWrite off data pecOk s) := by
  unfold smbBlockWrite
  repeat' first
    | with_reducible assumption | intro _ | (guard_target =~ Kept _ _ _; extract_lets +lift)
    | with_reducible refine State.smbError_kept ?_ (inAll (by decide) hp)
    | with_reducible refine State.setSmbState_kept ?_ (inAll (by decide) hp)
    | with_reducible refine State.mill_kept ?_ (inAll (by decide) hp) | with_reducible apply Kept.ite
    | (with_reducible apply Kept.foldl; rotate_left; intro _ _ _)

theorem execute_kept {pts : List Part} {s0 : State} {b : Bool} {pecOk : Bool} {s : State} (hk : Kept pts s0 s)
    (hp : [.regs, .mbx, .mil] ⊆ pts) : Kept pts s0 (execute b pecOk s) := by
  unfold execute
  repeat' first
    | with_reducible assumption | intro _ | (guard_target =~ Kept _ _ _; extract_lets +lift)
    | with_reducible refine State.smbError_kept ?_ (inAll (by decide) hp)
    | with_reducible refine State.setSmbState_kept ?_ (inAll (by decide) hp)
    | with_reducible refine State.answerSmb_kept ?_ (inAll (by decide) hp)
    | with_reducible refine State.takeCommand_kept ?_ (inAll (by decide) hp)
    | with_reducible apply Kept.ite

theorem smbStateRead_kept {pts : List Part} {s0 : State} {s : State} (hk : Kept pts s0 s) (hp : [.out] ⊆ pts)
    : Kept pts s0 (smbStateRead s) := by
  unfold smbStateRead
  repeat' first
    | with_reducible assumption | intro _ | (guard_target =~ Kept _ _ _; extract_lets +lift)
    | with_reducible refine State.emit_kept ?_ (inAll (by decide) hp) | with_reducible apply Kept.ite

theorem smbReadSetup_kept {pts : List Part} {s0 : State} {off : BitVec 16} {count : BitVec 16} {pecOk : Bool}
    {s : State} (hk : Kept pts s0 s) (hp : [.regs, .mil] ⊆ pts) : Kept pts s0 (smbReadSetup off count pecOk s) := by
  unfold smbReadSetup
  repeat' first
    | with_reducible assumption | intro _ | (guard_target =~ Kept _ _ _; extract_lets +lift)
    | with_reducible refine State.smbError_kept ?_ (inAll (by decide) hp)
    | with_reducible refine State.setSmbState_kept ?_ (inAll (by decide) hp)
    | with_reducible refine State.mill_kept ?_ (inAll (by decide) hp) | with_reducible apply Kept.ite

theorem smbBlockRead_kept {pts : List Part} {s0 : State} {s : State} (hk : Kept pts s0 s) (hp : [.mil, .out] ⊆ pts)
    : Kept pts s0 (smbBlockRead s) := by
  unfold smbBlockRead
  repeat' first
    | with_reducible assumption | intro _ | (guard_target =~ Kept _ _ _; extract_lets +lift)
    | with_reducible refine State.mill_kept ?_ (inAll (by decide) hp)
    | with_reducible refine State.emit_kept ?_ (inAll (by decide) hp) | with_reducible apply Kept.ite

theorem smbClkLowTimeout_kept {pts : List Part} {s0 : State} {s : State} (hk : Kept pts s0 s) (hp : [.out] ⊆ pts)
    : Kept pts s0 (smbClkLowTimeout s) := by
  unfold smbClkLowTimeout
  repeat' first
    | with_reducible assumption | intro _
    | with_reducible refine State.emit_kept ?_ (inAll (by decide) hp)

theorem feltHeartbeatSend_kept {pts : List Part} {s0 : State} {s : State} (hk : Kept pts s0 s)
    (hp : [.prt, .out] ⊆ pts) : Kept pts s0 (feltHeartbeatSend s) := by
  unfold feltHeartbeatSend
  repeat' first
    | with_reducible assumption | intro _ | (guard_target =~ Kept _ _ _; extract_lets +lift)
    | with_reducible refine State.sendAll_kept ?_ (inAll (by decide) hp) | with_reducible apply Kept.ite
    | (with_reducible refine Kept.fst (by assumption) ?_)
    | (simp -zeta only [keptMk]; (with_reducible refine KeptMk.upd ?_ rfl ?_); rotate_left;
        · intro p; cases p <;> first | exact .inl (hp (by decide)) | (right; dsimp only [Part.same]))

theorem feltHeartbeat_kept {pts : List Part} {s0 : State} {lane : Fin 4} {msg : List Byte} {s : State}
    (hk : Kept pts s0 s) (hp : [.freeCtr, .regs, .gen, .pf0, .pf1, .rng, .sem, .fab, .prt, .tim, .mil, .out] ⊆ pts)
    : Kept pts s0 (feltHeartbeat lane msg s) := by
  unfold feltHeartbeat
  repeat' first
    | with_reducible assumption | intro _ | (guard_target =~ Kept _ _ _; extract_lets +lift)
    | with_reducible refine State.takeFelt_kept ?_ (inAll (by decide) hp) ?_
    | with_reducible refine State.raise_kept ?_ (inAll (by decide) hp)
    | with_reducible refine State.modGroup_kept ?_ (inAll (by decide) hp)
    | with_reducible refine State.protJudge_kept ?_ (inAll (by decide) hp) | with_reducible apply Kept.ite
    | (with_reducible apply Kept.foldl; rotate_left; intro _ _ _)
    | (with_reducible refine Kept.fst (by assumption) ?_)
    | (simp -zeta only [keptMk]; (with_reducible refine KeptMk.upd ?_ rfl ?_); rotate_left;
        · intro p; cases p <;> first | exact .inl (hp (by decide)) | (right; dsimp only [Part.same]))
    | split | dsimp +zetaDelta only

theorem feltPathLost_kept {pts : List Part} {s0 : State} {s : State} (hk : Kept pts s0 s)
    (hp : [.freeCtr, .regs, .gen, .pf0, .pf1, .rng, .sem, .fab, .prt, .tim, .mil, .out] ⊆ pts)
    : Kept pts s0 (feltPathLost s) := by
  unfold feltPathLost
  repeat' first
    | with_reducible assumption | intro _ | (guard_target =~ Kept _ _ _; extract_lets +lift)
    | with_reducible refine State.protJudge_kept ?_ (inAll (by decide) hp)
    | with_reducible refine State.feltLost_kept ?_ (inAll (by decide) hp) | with_reducible apply Kept.ite

theorem fastHeartbeatSend_kept {pts : List Part} {s0 : State} {s : State} (hk : Kept pts s0 s) (hp : [.fab] ⊆ pts)
    : Kept pts s0 (fastHeartbeatSend s) := by
  unfold fastHeartbeatSend
  repeat' first
    | with_reducible assumption | intro _ | (guard_target =~ Kept _ _ _; extract_lets +lift)
    | with_reducible refine State.sendCtl_kept ?_ (inAll (by decide) hp) | with_reducible apply Kept.ite
    | (with_reducible refine Kept.fst (by assumption) ?_)
    | (simp -zeta only [keptMk]; (with_reducible refine KeptMk.upd ?_ rfl ?_); rotate_left;
        · intro p; cases p <;> first | exact .inl (hp (by decide)) | (right; dsimp only [Part.same]))

theorem aliveFault_kept {pts : List Part} {s0 : State} {s : State} (hk : Kept pts s0 s)
    (hp : [.freeCtr, .regs, .gen, .pf0, .pf1, .rng, .sem, .fab, .prt, .tim, .mil, .out] ⊆ pts)
    : Kept pts s0 (aliveFault s) := by
  unfold aliveFault
  repeat' first
    | with_reducible assumption | intro _ | (guard_target =~ Kept _ _ _; extract_lets +lift)
    | with_reducible refine State.protJudge_kept ?_ (inAll (by decide) hp)
    | with_reducible refine State.raise_kept ?_ (inAll (by decide) hp) | with_reducible apply Kept.ite
    | (with_reducible refine Kept.fst (by assumption) ?_)
    | (simp -zeta only [keptMk]; (with_reducible refine KeptMk.upd ?_ rfl ?_); rotate_left;
        · intro p; cases p <;> first | exact .inl (hp (by decide)) | (right; dsimp only [Part.same]))
    | split | dsimp +zetaDelta only

theorem groupRoleInit_kept {pts : List Part} {s0 : State} {s : State} (hk : Kept pts s0 s)
    (hp : [.freeCtr, .regs, .gen, .pf0, .pf1, .rng, .sem, .fab, .prt, .tim, .mil, .out] ⊆ pts)
    : Kept pts s0 (groupRoleInit s) := by
  unfold groupRoleInit
  repeat' first
    | with_reducible assumption | intro _ | (guard_target =~ Kept _ _ _; extract_lets +lift)
    | with_reducible refine State.protJudge_kept ?_ (inAll (by decide) hp)
    | with_reducible refine State.initRole_kept ?_ (inAll (by decide) hp) | with_reducible apply Kept.ite
    | (with_reducible apply Kept.foldl; rotate_left; intro _ _ _)
    | (with_reducible refine Kept.fst (by assumption) ?_)
    | (simp -zeta only [keptMk]; (with_reducible refine KeptMk.upd ?_ rfl ?_); rotate_left;
        · intro p; cases p <;> first | exact .inl (hp (by decide)) | (right; dsimp only [Part.same]))
    | split | dsimp +zetaDelta only

theorem State.groupStop_kept {pts : List Part} {s0 : State} {s : State} {g : Nat} (hk : Kept pts s0 s)
    (hp : [.regs, .prt] ⊆ pts) : Kept pts s0 (s.groupStop g) := by
  unfold State.groupStop
  repeat' first
    | with_reducible assumption | intro _ | (guard_target =~ Kept _ _ _; extract_lets +lift)
    | with_reducible refine State.takeRole_kept ?_ (inAll (by decide) hp)
    | with_reducible refine State.setGroup_kept ?_ (inAll (by decide) hp)
    | with_reducible refine State.set_kept ?_ (inAll (by decide) hp) | with_reducible apply Kept.ite

theorem protGroupEnable_kept {pts : List Part} {s0 : State} {req : Req} {g : Fin 32} {v : W64} {s : State}
    (hk : Kept pts s0 s)
    (hp : [.freeCtr, .regs, .shadow, .acc, .gen, .pf0, .pf1, .rng, .sem, .fab, .prt, .tim, .mil, .out] ⊆ pts)
    : Kept pts s0 (protGroupEnable req g v s) := by
  unfold protGroupEnable
  repeat' first
    | with_reducible assumption | intro _ | (guard_target =~ Kept _ _ _; extract_lets +lift)
    | with_reducible refine State.ownWrite_kept ?_ (inAll (by decide) hp)
    | with_reducible refine State.groupStop_kept ?_ (inAll (by decide) hp)
    | with_reducible refine State.violation_kept ?_ (inAll (by decide) hp)
    | with_reducible refine State.set_kept ?_ (inAll (by decide) hp)
    | with_reducible refine State.initRole_kept ?_ (inAll (by decide) hp)
    | with_reducible refine State.protJudge_kept ?_ (inAll (by decide) hp) | with_reducible apply Kept.ite

theorem State.takeRoleMsg_kept {pts : List Part} {s0 : State} {s : State} {lane : Nat} {msg : List Byte} {op : Nat}
    {f : Nat → Nat → Nat → State → State} (hk : Kept pts s0 s) (hp : [.regs] ⊆ pts)
    (hf : ∀ x y z s, Kept pts s0 s → Kept pts s0 (f x y z s)) : Kept pts s0 (s.takeRoleMsg lane msg op f) := by
  unfold State.takeRoleMsg
  repeat' first
    | with_reducible assumption | intro _ | with_reducible apply hf | (guard_target =~ Kept _ _ _; extract_lets +lift)
    | with_reducible refine State.takeFelt_kept ?_ (inAll (by decide) hp) ?_
    | with_reducible apply Kept.ite

theorem roleRelease_kept {pts : List Part} {s0 : State} {lane : Fin 4} {msg : List Byte} {s : State}
    (hk : Kept pts s0 s) (hp : [.regs, .prt, .out] ⊆ pts) : Kept pts s0 (roleRelease lane msg s) := by
  unfold roleRelease
  repeat' first
    | with_reducible assumption | intro _ | (guard_target =~ Kept _ _ _; extract_lets +lift)
    | with_reducible refine State.takeRoleMsg_kept ?_ (inAll (by decide) hp) ?_
    | with_reducible refine State.sendRole_kept ?_ (inAll (by decide) hp)
    | with_reducible refine State.abandon_kept ?_ (inAll (by decide) hp)
    | with_reducible refine State.modGroup_kept ?_ (inAll (by decide) hp) | with_reducible apply Kept.ite
    | (with_reducible refine Kept.fst (by assumption) ?_) | split

theorem State.withSwitch_kept {pts : List Part} {s0 : State} {s : State} {g : Nat} {id : Nat} {f : SwitchSt → State}
    (hk : Kept pts s0 s) (hf : ∀ w, Kept pts s0 (f w)) : Kept pts s0 (s.withSwitch g id f) := by
  unfold State.withSwitch
  split
  · exact Kept.ite (hf _) hk
  · exact hk

theorem roleAck_kept {pts : List Part} {s0 : State} {lane : Fin 4} {msg : List Byte} {s : State} (hk : Kept pts s0 s)
    (hp : [.regs, .prt] ⊆ pts) : Kept pts s0 (roleAck lane msg s) := by
  unfold roleAck
  repeat' first
    | with_reducible assumption | intro _ | (guard_target =~ Kept _ _ _; extract_lets +lift)
    | with_reducible refine State.takeRoleMsg_kept ?_ (inAll (by decide) hp) ?_
    | with_reducible refine State.withSwitch_kept ?_ ?_
    | with_reducible refine State.modGroup_kept ?_ (inAll (by decide) hp) | with_reducible apply Kept.ite

theorem roleDrained_kept {pts : List Part} {s0 : State} {lane : Fin 4} {msg : List Byte} {s : State}
    (hk : Kept pts s0 s) (hp : [.freeCtr, .regs, .gen, .pf0, .pf1, .rng, .sem, .fab, .prt, .tim, .mil, .out] ⊆ pts)
    : Kept pts s0 (roleDrained lane msg s) := by
  unfold roleDrained
  repeat' first
    | with_reducible assumption | intro _ | (guard_target =~ Kept _ _ _; extract_lets +lift)
    | with_reducible refine State.takeRoleMsg_kept ?_ (inAll (by decide) hp) ?_
    | with_reducible refine State.withSwitch_kept ?_ ?_
    | with_reducible refine State.protJudge_kept ?_ (inAll (by decide) hp)
    | with_reducible refine State.switched_kept ?_ (inAll (by decide) hp) | with_reducible apply Kept.ite

theorem roleAbort_kept {pts : List Part} {s0 : State} {lane : Fin 4} {msg : List Byte} {s : State}
    (hk : Kept pts s0 s) (hp : [.freeCtr, .regs, .gen, .pf0, .pf1, .rng, .sem, .fab, .prt, .tim, .mil, .out] ⊆ pts)
    : Kept pts s0 (roleAbort lane msg s) := by
  unfold roleAbort
  repeat' first
    | with_reducible assumption | intro _ | (guard_target =~ Kept _ _ _; extract_lets +lift)
    | with_reducible refine State.takeRoleMsg_kept ?_ (inAll (by decide) hp) ?_
    | with_reducible refine State.withSwitch_kept ?_ ?_
    | with_reducible refine State.protJudge_kept ?_ (inAll (by decide) hp)
    | with_reducible refine State.abandon_kept ?_ (inAll (by decide) hp) | with_reducible apply Kept.ite

theorem switchAckTimeout_kept {pts : List Part} {s0 : State} {g : Fin 32} {s : State} (hk : Kept pts s0 s)
    (hp : [.freeCtr, .regs, .gen, .pf0, .pf1, .rng, .sem, .fab, .prt, .tim, .mil, .out] ⊆ pts)
    : Kept pts s0 (switchAckTimeout g s) := by
  unfold switchAckTimeout
  repeat' first
    | with_reducible assumption | intro _ | (guard_target =~ Kept _ _ _; extract_lets +lift)
    | with_reducible refine State.protJudge_kept ?_ (inAll (by decide) hp)
    | with_reducible refine State.raiseAt_kept ?_ (inAll (by decide) hp)
    | with_reducible refine State.sendRole_kept ?_ (inAll (by decide) hp)
    | with_reducible refine State.abandon_kept ?_ (inAll (by decide) hp) | with_reducible apply Kept.ite
    | (with_reducible refine Kept.fst (by assumption) ?_) | split

theorem State.finishDrain_kept {pts : List Part} {s0 : State} {s : State} {g : Nat} (hk : Kept pts s0 s)
    (hp : [.regs, .pf0, .pf1, .rng, .bpm, .adm, .qsc, .prt, .lin, .mil, .out] ⊆ pts)
    : Kept pts s0 (s.finishDrain g) := by
  unfold State.finishDrain
  repeat' first
    | with_reducible assumption | intro _ | (guard_target =~ Kept _ _ _; extract_lets +lift)
    | with_reducible refine State.popQueue_kept ?_ (inAll (by decide) hp)
    | with_reducible refine State.count_kept ?_ (inAll (by decide) hp)
    | with_reducible refine State.usedDown_kept ?_ (inAll (by decide) hp)
    | with_reducible refine State.switched_kept ?_ (inAll (by decide) hp)
    | with_reducible refine State.sendRole_kept ?_ (inAll (by decide) hp)
    | with_reducible refine State.modGroup_kept ?_ (inAll (by decide) hp) | with_reducible apply Kept.ite
    | (with_reducible apply Kept.foldl; rotate_left; intro _ _ _)
    | (with_reducible refine Kept.fst (by assumption) ?_) | split

theorem State.drainSettle_kept {pts : List Part} {s0 : State} {s : State} {g : Nat} (hk : Kept pts s0 s)
    (hp : [.regs, .pf0, .pf1, .rng, .bpm, .adm, .qsc, .prt, .lin, .mil, .out] ⊆ pts)
    : Kept pts s0 (s.drainSettle g) := by
  unfold State.drainSettle
  repeat' first
    | with_reducible assumption | intro _ | (guard_target =~ Kept _ _ _; extract_lets +lift)
    | with_reducible refine State.finishDrain_kept ?_ (inAll (by decide) hp)
    | with_reducible apply Kept.ite

theorem switchInstant_kept {pts : List Part} {s0 : State} {g : Fin 32} {s : State} (hk : Kept pts s0 s)
    (hp : [.freeCtr, .regs, .gen, .pf0, .pf1, .rng, .sem, .bpm, .adm, .qsc, .fab, .prt, .lin, .tim, .mil, .out] ⊆ pts)
    : Kept pts s0 (switchInstant g s) := by
  unfold switchInstant
  repeat' first
    | with_reducible assumption | intro _ | (guard_target =~ Kept _ _ _; extract_lets +lift)
    | with_reducible refine State.modGroup_kept ?_ (inAll (by decide) hp)
    | with_reducible refine State.protJudge_kept ?_ (inAll (by decide) hp)
    | with_reducible refine State.drainSettle_kept ?_ (inAll (by decide) hp)
    | with_reducible refine State.takeRole_kept ?_ (inAll (by decide) hp) | with_reducible apply Kept.ite
    | (with_reducible refine Kept.fst (by assumption) ?_) | split

theorem drainMaxExpiry_kept {pts : List Part} {s0 : State} {g : Fin 32} {s : State} (hk : Kept pts s0 s)
    (hp : [.freeCtr, .regs, .gen, .pf0, .pf1, .rng, .sem, .bpm, .adm, .qsc, .fab, .prt, .lin, .tim, .mil, .out] ⊆ pts)
    : Kept pts s0 (drainMaxExpiry g s) := by
  unfold drainMaxExpiry
  repeat' first
    | with_reducible assumption | intro _ | (guard_target =~ Kept _ _ _; extract_lets +lift)
    | with_reducible refine State.protJudge_kept ?_ (inAll (by decide) hp)
    | with_reducible refine State.finishDrain_kept ?_ (inAll (by decide) hp)
    | with_reducible refine State.switched_kept ?_ (inAll (by decide) hp) | with_reducible apply Kept.ite

theorem ingressGapExpiry_kept {pts : List Part} {s0 : State} {g : Fin 32} {s : State} (hk : Kept pts s0 s)
    (hp : [.prt] ⊆ pts) : Kept pts s0 (ingressGapExpiry g s) := by
  unfold ingressGapExpiry
  repeat' first
    | with_reducible assumption | intro _
    | with_reducible refine State.modGroup_kept ?_ (inAll (by decide) hp)

theorem wtrExpiry_kept {pts : List Part} {s0 : State} {g : Fin 32} {s : State} (hk : Kept pts s0 s)
    (hp : [.regs, .pf0, .pf1, .rng, .prt, .mil, .out] ⊆ pts) : Kept pts s0 (wtrExpiry g s) := by
  unfold wtrExpiry
  repeat' first
    | with_reducible assumption | intro _ | (guard_target =~ Kept _ _ _; extract_lets +lift)
    | with_reducible refine State.judgeGroup_kept ?_ (inAll (by decide) hp)
    | with_reducible apply Kept.ite

theorem healthSend_kept {pts : List Part} {s0 : State} {s : State} (hk : Kept pts s0 s) (hp : [.prt, .out] ⊆ pts)
    : Kept pts s0 (healthSend s) := by
  unfold healthSend
  repeat' first
    | with_reducible assumption | intro _ | (guard_target =~ Kept _ _ _; extract_lets +lift)
    | with_reducible refine State.sendFelt_kept ?_ (inAll (by decide) hp) | with_reducible apply Kept.ite

theorem feltHealth_kept {pts : List Part} {s0 : State} {lane : Fin 4} {msg : List Byte} {s : State}
    (hk : Kept pts s0 s) (hp : [.regs, .pf0, .pf1, .rng, .mil, .out] ⊆ pts)
    : Kept pts s0 (feltHealth lane msg s) := by
  unfold feltHealth
  repeat' first
    | with_reducible assumption | intro _ | (guard_target =~ Kept _ _ _; extract_lets +lift)
    | with_reducible refine State.takeFelt_kept ?_ (inAll (by decide) hp) ?_
    | with_reducible refine State.alertClass_kept ?_ (inAll (by decide) hp)
    | with_reducible refine State.raise_kept ?_ (inAll (by decide) hp)
    | with_reducible refine State.wr_kept ?_ (inAll (by decide) hp) | with_reducible apply Kept.ite

theorem backgroundTest_kept {pts : List Part} {s0 : State} {sched : Bool} {buf : Bool} {spare : Bool} {asa : Bool}
    {s : State} (hk : Kept pts s0 s) (hp : [.regs, .pf0, .pf1, .rng, .mil, .out] ⊆ pts)
    : Kept pts s0 (backgroundTest sched buf spare asa s) := by
  unfold backgroundTest
  repeat' first
    | with_reducible assumption | intro _ | (guard_target =~ Kept _ _ _; extract_lets +lift)
    | with_reducible refine State.healthTo_kept ?_ (inAll (by decide) hp) | with_reducible apply Kept.ite

theorem State.takeLock_kept {pts : List Part} {s0 : State} {s : State} {lane : Nat} {msg : List Byte} {op : Nat}
    {f : Nat → Nat → State → State} (hk : Kept pts s0 s) (hp : [.regs] ⊆ pts)
    (hf : ∀ x y s, Kept pts s0 s → Kept pts s0 (f x y s)) : Kept pts s0 (s.takeLock lane msg op f) := by
  unfold State.takeLock
  repeat' first
    | with_reducible assumption | intro _ | with_reducible apply hf | (guard_target =~ Kept _ _ _; extract_lets +lift)
    | with_reducible refine State.takeFelt_kept ?_ (inAll (by decide) hp) ?_
    | with_reducible apply Kept.ite

theorem feltLockRead_kept {pts : List Part} {s0 : State} {lane : Fin 4} {msg : List Byte} {s : State}
    (hk : Kept pts s0 s) (hp : [.regs, .sem, .prt, .out] ⊆ pts) : Kept pts s0 (feltLockRead lane msg s) := by
  unfold feltLockRead
  repeat' first
    | with_reducible assumption | intro _ | (guard_target =~ Kept _ _ _; extract_lets +lift)
    | with_reducible refine State.takeLock_kept ?_ (inAll (by decide) hp) ?_
    | with_reducible refine State.readLock_kept ?_ (inAll (by decide) hp)
    | with_reducible refine State.sendFelt_kept ?_ (inAll (by decide) hp) | with_reducible apply Kept.ite
    | (with_reducible refine Kept.fst (by assumption) ?_) | split

theorem feltLockRelease_kept {pts : List Part} {s0 : State} {lane : Fin 4} {msg : List Byte} {s : State}
    (hk : Kept pts s0 s) (hp : [.regs, .sem] ⊆ pts) : Kept pts s0 (feltLockRelease lane msg s) := by
  unfold feltLockRelease
  repeat' first
    | with_reducible assumption | intro _ | (guard_target =~ Kept _ _ _; extract_lets +lift)
    | with_reducible refine State.takeLock_kept ?_ (inAll (by decide) hp) ?_
    | with_reducible refine State.releaseLock_kept ?_ (inAll (by decide) hp)
    | with_reducible apply Kept.ite

theorem feltLockResult_kept {pts : List Part} {s0 : State} {lane : Fin 4} {msg : List Byte} {s : State}
    (hk : Kept pts s0 s) (hp : [.regs, .out] ⊆ pts) : Kept pts s0 (feltLockResult lane msg s) := by
  unfold feltLockResult
  repeat' first
    | with_reducible assumption | intro _ | (guard_target =~ Kept _ _ _; extract_lets +lift)
    | with_reducible refine State.takeLock_kept ?_ (inAll (by decide) hp) ?_
    | with_reducible refine State.emit_kept ?_ (inAll (by decide) hp)

theorem recoveryDone_kept {pts : List Part} {s0 : State} {a1 : Req} {v : W64} {s : State} (hk : Kept pts s0 s)
    (hp : [.freeCtr, .regs, .gen, .pf0, .pf1, .rng, .sem, .fab, .prt, .tim, .mil, .out] ⊆ pts)
    : Kept pts s0 (recoveryDone a1 v s) := by
  unfold recoveryDone
  repeat' first
    | with_reducible assumption | intro _ | (guard_target =~ Kept _ _ _; extract_lets +lift)
    | with_reducible refine State.protJudge_kept ?_ (inAll (by decide) hp)
    | with_reducible refine State.raise_kept ?_ (inAll (by decide) hp)
    | with_reducible refine State.violation_kept ?_ (inAll (by decide) hp) | with_reducible apply Kept.ite
    | (with_reducible refine Kept.fst (by assumption) ?_)
    | (simp -zeta only [keptMk]; (with_reducible refine KeptMk.upd ?_ rfl ?_); rotate_left;
        · intro p; cases p <;> first | exact .inl (hp (by decide)) | (right; dsimp only [Part.same]))
    | split | dsimp +zetaDelta only

theorem State.markReset_kept {pts : List Part} {s0 : State} {s : State} {d : Nat} {on : Bool} (hk : Kept pts s0 s)
    (hp : [.gen] ⊆ pts) : Kept pts s0 (s.markReset d on) := by
  unfold State.markReset
  repeat' first
    | with_reducible assumption | intro _ | (guard_target =~ Kept _ _ _; extract_lets +lift)
    | with_reducible apply Kept.ite | (with_reducible refine Kept.fst (by assumption) ?_)
    | (simp -zeta only [keptMk]; (with_reducible refine KeptMk.upd ?_ rfl ?_); rotate_left;
        · intro p; cases p <;> first | exact .inl (hp (by decide)) | (right; dsimp only [Part.same]))

theorem State.markPower_kept {pts : List Part} {s0 : State} {s : State} {d : Nat} {on : Bool} (hk : Kept pts s0 s)
    (hp : [.gen] ⊆ pts) : Kept pts s0 (s.markPower d on) := by
  unfold State.markPower
  repeat' first
    | with_reducible assumption | intro _ | (guard_target =~ Kept _ _ _; extract_lets +lift)
    | with_reducible apply Kept.ite | (with_reducible refine Kept.fst (by assumption) ?_)
    | (simp -zeta only [keptMk]; (with_reducible refine KeptMk.upd ?_ rfl ?_); rotate_left;
        · intro p; cases p <;> first | exact .inl (hp (by decide)) | (right; dsimp only [Part.same]))

theorem State.wipeLd_kept {pts : List Part} {s0 : State} {s : State} {n : Nat} (hk : Kept pts s0 s)
    (hp : [.regs, .shadow, .acc, .lin] ⊆ pts) : Kept pts s0 (s.wipeLd n) := by
  unfold State.wipeLd
  repeat' first
    | with_reducible assumption | intro _ | (guard_target =~ Kept _ _ _; extract_lets +lift)
    | with_reducible refine State.clearRegs_kept ?_ (inAll (by decide) hp) | with_reducible apply Kept.ite
    | (with_reducible refine Kept.fst (by assumption) ?_)
    | (simp -zeta only [keptMk]; (with_reducible refine KeptMk.upd ?_ rfl ?_); rotate_left;
        · intro p; cases p <;> first | exact .inl (hp (by decide)) | (right; dsimp only [Part.same]))
    | split | dsimp +zetaDelta only

theorem State.reamDropped_kept {pts : List Part} {s0 : State} {s : State} {first : Bool} (hk : Kept pts s0 s)
    (hp : [.regs, .pf0, .pf1, .rng, .cmt, .mil, .out] ⊆ pts) : Kept pts s0 (s.reamDropped first) := by
  unfold State.reamDropped
  repeat' first
    | with_reducible assumption | intro _ | (guard_target =~ Kept _ _ _; extract_lets +lift)
    | with_reducible refine State.stageEnd_kept ?_ (inAll (by decide) hp)
    | with_reducible refine State.reamRefused_kept ?_ (inAll (by decide) hp)
    | with_reducible refine State.raise_kept ?_ (inAll (by decide) hp) | with_reducible apply Kept.ite
    | (with_reducible refine Kept.fst (by assumption) ?_)
    | (simp -zeta only [keptMk]; (with_reducible refine KeptMk.upd ?_ rfl ?_); rotate_left;
        · intro p; cases p <;> first | exact .inl (hp (by decide)) | (right; dsimp only [Part.same]))
    | split

theorem State.wipeFc_kept {pts : List Part} {s0 : State} {s : State} (hk : Kept pts s0 s)
    (hp : [.regs, .shadow, .acc, .couch, .pf0, .pf1, .rng, .ing, .tab, .cmt, .egr, .lin, .mil, .arrivals, .out] ⊆ pts)
    : Kept pts s0 (s.wipeFc) := by
  unfold State.wipeFc
  repeat' first
    | with_reducible assumption | intro _ | (guard_target =~ Kept _ _ _; extract_lets +lift)
    | with_reducible refine State.clearRegs_kept ?_ (inAll (by decide) hp)
    | with_reducible refine State.reamDropped_kept ?_ (inAll (by decide) hp)
    | with_reducible refine State.set_kept ?_ (inAll (by decide) hp) | with_reducible apply Kept.ite
    | (with_reducible refine Kept.fst (by assumption) ?_)
    | (simp -zeta only [keptMk]; (with_reducible refine KeptMk.upd ?_ rfl ?_); rotate_left;
        · intro p; cases p <;> first | exact .inl (hp (by decide)) | (right; dsimp only [Part.same]))

theorem State.wipeFl_kept {pts : List Part} {s0 : State} {s : State} {hold : Bool} (hk : Kept pts s0 s)
    (hp : [.regs, .shadow, .acc, .pf0, .pf1, .rng, .ing, .tab, .asa, .cmt, .mil, .out] ⊆ pts)
    : Kept pts s0 (s.wipeFl hold) := by
  unfold State.wipeFl
  repeat' first
    | with_reducible assumption | intro _ | (guard_target =~ Kept _ _ _; extract_lets +lift)
    | with_reducible refine State.clearRegs_kept ?_ (inAll (by decide) hp)
    | with_reducible refine State.reamDropped_kept ?_ (inAll (by decide) hp)
    | with_reducible refine State.set_kept ?_ (inAll (by decide) hp) | with_reducible apply Kept.ite
    | (with_reducible refine Kept.fst (by assumption) ?_)
    | (simp -zeta only [keptMk]; (with_reducible refine KeptMk.upd ?_ rfl ?_); rotate_left;
        · intro p; cases p <;> first | exact .inl (hp (by decide)) | (right; dsimp only [Part.same]))
    | split | dsimp +zetaDelta only

theorem State.wipeQc_kept {pts : List Part} {s0 : State} {s : State} (hk : Kept pts s0 s)
    (hp : [.regs, .gen, .couch, .pf0, .pf1, .rng, .hostQ, .sem, .replQ, .bpm, .adm, .qsc, .crd, .gates, .fab, .prt, .lin, .mil, .out] ⊆ pts)
    : Kept pts s0 (s.wipeQc) := by
  unfold State.wipeQc
  repeat' first
    | with_reducible assumption | intro _ | (guard_target =~ Kept _ _ _; extract_lets +lift)
    | with_reducible refine State.autoRelease_kept ?_ (inAll (by decide) hp)
    | with_reducible refine State.releaseAlive_kept ?_ (inAll (by decide) hp)
    | with_reducible apply Kept.ite | (with_reducible refine Kept.fst (by assumption) ?_)
    | (simp -zeta only [keptMk]; (with_reducible refine KeptMk.upd ?_ rfl ?_); rotate_left;
        · intro p; cases p <;> first | exact .inl (hp (by decide)) | (right; dsimp only [Part.same]))
    | split | dsimp +zetaDelta only

theorem State.wipeDc_kept {pts : List Part} {s0 : State} {s : State} {n : Nat} (hk : Kept pts s0 s)
    (hp : [.regs, .shadow, .acc, .bpm, .ddc, .qsc] ⊆ pts) : Kept pts s0 (s.wipeDc n) := by
  unfold State.wipeDc
  repeat' first
    | with_reducible assumption | intro _ | (guard_target =~ Kept _ _ _; extract_lets +lift)
    | with_reducible refine State.clearRegs_kept ?_ (inAll (by decide) hp)
    | with_reducible refine State.dramLost_kept ?_ (inAll (by decide) hp)
    | with_reducible refine State.setSpare_kept ?_ (inAll (by decide) hp)

theorem State.wipeFb_kept {pts : List Part} {s0 : State} {s : State} {n : Nat} (hk : Kept pts s0 s)
    (hp : [.regs, .shadow, .acc, .pf0, .pf1, .rng, .fab, .mil, .out] ⊆ pts) : Kept pts s0 (s.wipeFb n) := by
  unfold State.wipeFb
  repeat' first
    | with_reducible assumption | intro _ | (guard_target =~ Kept _ _ _; extract_lets +lift)
    | with_reducible refine State.clearRegs_kept ?_ (inAll (by decide) hp)
    | with_reducible refine State.linkReset_kept ?_ (inAll (by decide) hp) | with_reducible apply Kept.ite
    | (with_reducible apply Kept.foldl; rotate_left; intro _ _ _)

theorem State.wipeMl_kept {pts : List Part} {s0 : State} {s : State} (hk : Kept pts s0 s)
    (hp : [.regs, .shadow, .acc, .gen, .pf0, .pf1, .rng, .mbx, .sem, .mil, .out] ⊆ pts) : Kept pts s0 (s.wipeMl) := by
  unfold State.wipeMl
  repeat' first
    | with_reducible assumption | intro _ | (guard_target =~ Kept _ _ _; extract_lets +lift)
    | with_reducible refine State.millRestart_kept ?_ (inAll (by decide) hp)
    | with_reducible refine State.healthTo_kept ?_ (inAll (by decide) hp)
    | with_reducible refine State.clearRegs_kept ?_ (inAll (by decide) hp)
    | with_reducible refine State.mill_kept ?_ (inAll (by decide) hp)

theorem State.wipeTm_kept {pts : List Part} {s0 : State} {s : State} (hk : Kept pts s0 s)
    (hp : [.regs, .shadow, .acc, .tim] ⊆ pts) : Kept pts s0 (s.wipeTm) := by
  unfold State.wipeTm
  exact (State.clearRegs_kept hk (inAll (by decide) hp)).trans ⟨fun p hq => by cases p <;> first | rfl | exact absurd (hp (by decide)) hq, rfl, rfl, id, id, id, id, List.suffix_refl _, Nat.le_refl _⟩

theorem State.wipe_kept {pts : List Part} {s0 : State} {s : State} {d : Nat} {hold : Bool} (hk : Kept pts s0 s)
    (hp : [.regs, .shadow, .acc, .gen, .couch, .pf0, .pf1, .pce, .rng, .hostQ, .mbx, .sem, .ing, .tab, .asa, .cmt, .replQ, .bpm, .adm, .ddc, .qsc, .crd, .gates, .fab, .egr, .prt, .lin, .tim, .mil, .arrivals, .out] ⊆ pts)
    : Kept pts s0 (s.wipe d hold) := by
  unfold State.wipe
  repeat' first
    | with_reducible assumption | intro _ | (guard_target =~ Kept _ _ _; extract_lets +lift)
    | with_reducible refine State.wipeLd_kept ?_ (inAll (by decide) hp)
    | with_reducible refine State.wipeFc_kept ?_ (inAll (by decide) hp)
    | with_reducible refine State.wipeFl_kept ?_ (inAll (by decide) hp)
    | with_reducible refine State.clearRegs_kept ?_ (inAll (by decide) hp)
    | with_reducible refine State.wipeQc_kept ?_ (inAll (by decide) hp)
    | with_reducible refine State.wipeDc_kept ?_ (inAll (by decide) hp)
    | with_reducible refine State.wipeFb_kept ?_ (inAll (by decide) hp)
    | with_reducible refine State.dropWrites_kept ?_ (inAll (by decide) hp)
    | with_reducible refine State.resetHost_kept ?_ (inAll (by decide) hp)
    | with_reducible refine State.wipeMl_kept ?_ (inAll (by decide) hp)
    | with_reducible refine State.wipeTm_kept ?_ (inAll (by decide) hp) | with_reducible apply Kept.ite

theorem State.enterReset_kept {pts : List Part} {s0 : State} {s : State} {d : Nat} {hold : Bool} (hk : Kept pts s0 s)
    (hp : [.regs, .shadow, .acc, .gen, .couch, .pf0, .pf1, .pce, .rng, .hostQ, .mbx, .sem, .ing, .tab, .asa, .cmt, .replQ, .bpm, .adm, .ddc, .qsc, .crd, .gates, .fab, .egr, .prt, .lin, .pmn, .tim, .mil, .arrivals, .out] ⊆ pts)
    : Kept pts s0 (s.enterReset d hold) := by
  unfold State.enterReset
  repeat' first
    | with_reducible assumption | intro _ | (guard_target =~ Kept _ _ _; extract_lets +lift)
    | with_reducible refine State.watchSf_kept ?_ (inAll (by decide) hp) ?_
    | with_reducible refine State.markReset_kept ?_ (inAll (by decide) hp)
    | with_reducible refine State.wipe_kept ?_ (inAll (by decide) hp)

theorem State.qcOut_kept {pts : List Part} {s0 : State} {s : State} (hk : Kept pts s0 s) (hp : [.gen, .fab] ⊆ pts)
    : Kept pts s0 (s.qcOut) := by
  unfold State.qcOut
  repeat' first
    | with_reducible assumption | intro _ | (guard_target =~ Kept _ _ _; extract_lets +lift)
    | with_reducible apply Kept.ite | (with_reducible refine Kept.fst (by assumption) ?_)
    | (simp -zeta only [keptMk]; (with_reducible refine KeptMk.upd ?_ rfl ?_); rotate_left;
        · intro p; cases p <;> first | exact .inl (hp (by decide)) | (right; dsimp only [Part.same]))

theorem State.leftReset_kept {pts : List Part} {s0 : State} {s : State} {d : Nat} (hk : Kept pts s0 s)
    (hp : [.regs, .gen, .pf0, .pf1, .pce, .rng, .tab, .fab, .lin, .pmn, .tim, .mil, .out] ⊆ pts)
    : Kept pts s0 (s.leftReset d) := by
  unfold State.leftReset
  repeat' first
    | with_reducible assumption | intro _ | (guard_target =~ Kept _ _ _; extract_lets +lift)
    | with_reducible refine State.startFetch_kept ?_ (inAll (by decide) hp)
    | with_reducible refine State.pmFresh_kept ?_ (inAll (by decide) hp)
    | with_reducible refine State.qcOut_kept ?_ (inAll (by decide) hp)
    | with_reducible refine State.pmTmBack_kept ?_ (inAll (by decide) hp)
    | with_reducible refine State.servoTo_kept ?_ (inAll (by decide) hp) | with_reducible apply Kept.ite
    | (with_reducible apply Kept.foldl; rotate_left; intro _ _ _)
    | (with_reducible refine Kept.fst (by assumption) ?_)
    | (simp -zeta only [keptMk]; (with_reducible refine KeptMk.upd ?_ rfl ?_); rotate_left;
        · intro p; cases p <;> first | exact .inl (hp (by decide)) | (right; dsimp only [Part.same]))

theorem State.leaveReset_kept {pts : List Part} {s0 : State} {s : State} {d : Nat} (hk : Kept pts s0 s)
    (hp : [.regs, .gen, .pf0, .pf1, .pce, .rng, .tab, .fab, .lin, .pmn, .tim, .mil, .out] ⊆ pts)
    : Kept pts s0 (s.leaveReset d) := by
  unfold State.leaveReset
  repeat' first
    | with_reducible assumption | intro _ | (guard_target =~ Kept _ _ _; extract_lets +lift)
    | with_reducible refine State.watchSf_kept ?_ (inAll (by decide) hp) ?_
    | with_reducible refine State.leftReset_kept ?_ (inAll (by decide) hp)
    | with_reducible refine State.markReset_kept ?_ (inAll (by decide) hp)
    | with_reducible refine State.markPower_kept ?_ (inAll (by decide) hp)

theorem State.partitionDram_kept {pts : List Part} {s0 : State} {s : State} (hk : Kept pts s0 s)
    (hp : [.regs, .pf0, .pf1, .rng, .bpm, .ddc, .qsc, .mil, .out] ⊆ pts) : Kept pts s0 (s.partitionDram) := by
  unfold State.partitionDram
  repeat' first
    | with_reducible assumption | intro _ | (guard_target =~ Kept _ _ _; extract_lets +lift)
    | with_reducible refine State.ddcRunTo_kept ?_ (inAll (by decide) hp)
    | with_reducible refine State.set_kept ?_ (inAll (by decide) hp)
    | with_reducible refine State.setSpare_kept ?_ (inAll (by decide) hp) | with_reducible apply Kept.ite
    | (with_reducible apply Kept.foldl; rotate_left; intro _ _ _)

theorem domainReady_kept {pts : List Part} {s0 : State} {d : Fin 29} {s : State} (hk : Kept pts s0 s)
    (hp : [.freeCtr, .regs, .gen, .couch, .pf0, .pf1, .rng, .sem, .bpm, .ddc, .qsc, .fab, .prt, .tim, .mil, .out] ⊆ pts)
    : Kept pts s0 (domainReady d s) := by
  unfold domainReady
  repeat' first
    | with_reducible assumption | intro _ | (guard_target =~ Kept _ _ _; extract_lets +lift)
    | with_reducible refine millRestartDone_kept ?_ (inAll (by decide) hp)
    | with_reducible refine State.partitionDram_kept ?_ (inAll (by decide) hp)
    | with_reducible refine State.protJudge_kept ?_ (inAll (by decide) hp)
    | with_reducible refine State.settleFab_kept ?_ (inAll (by decide) hp) | with_reducible apply Kept.ite
    | (with_reducible refine Kept.fst (by assumption) ?_)
    | (simp -zeta only [keptMk]; (with_reducible refine KeptMk.upd ?_ rfl ?_); rotate_left;
        · intro p; cases p <;> first | exact .inl (hp (by decide)) | (right; dsimp only [Part.same]))
    | split | dsimp +zetaDelta only

theorem State.domainsSettled_kept {pts : List Part} {s0 : State} {s : State} (hk : Kept pts s0 s)
    (hp : [.freeCtr, .regs, .gen, .pf0, .pf1, .rng, .sem, .fab, .prt, .tim, .mil, .out] ⊆ pts)
    : Kept pts s0 (s.domainsSettled) := by
  unfold State.domainsSettled
  repeat' first
    | with_reducible assumption | intro _ | (guard_target =~ Kept _ _ _; extract_lets +lift)
    | with_reducible refine State.protJudge_kept ?_ (inAll (by decide) hp)
    | with_reducible refine State.settleFab_kept ?_ (inAll (by decide) hp)

theorem State.logReset_kept {pts : List Part} {s0 : State} {s : State} {hold : Nat} (hk : Kept pts s0 s)
    (hp : [.mil, .out] ⊆ pts) : Kept pts s0 (s.logReset hold) := by
  unfold State.logReset
  repeat' first
    | with_reducible assumption | intro _
    | with_reducible refine State.stageLog_kept ?_ (inAll (by decide) hp)

theorem State.holdWrite_kept {pts : List Part} {s0 : State} {s : State} {req : Req} {v : Nat} (hk : Kept pts s0 s)
    (hp : [.freeCtr, .regs, .shadow, .acc, .gen, .couch, .pf0, .pf1, .pce, .rng, .hostQ, .mbx, .sem, .ing, .tab, .asa, .cmt, .replQ, .bpm, .adm, .ddc, .qsc, .crd, .gates, .fab, .egr, .prt, .lin, .pmn, .tim, .mil, .arrivals, .out] ⊆ pts)
    : Kept pts s0 (s.holdWrite req v) := by
  unfold State.holdWrite
  repeat' first
    | with_reducible assumption | intro _ | (guard_target =~ Kept _ _ _; extract_lets +lift)
    | with_reducible refine State.violation_kept ?_ (inAll (by decide) hp)
    | with_reducible refine State.set_kept ?_ (inAll (by decide) hp)
    | with_reducible refine State.logReset_kept ?_ (inAll (by decide) hp)
    | with_reducible refine State.enterReset_kept ?_ (inAll (by decide) hp)
    | with_reducible refine State.leaveReset_kept ?_ (inAll (by decide) hp)
    | with_reducible refine State.domainsSettled_kept ?_ (inAll (by decide) hp)
    | with_reducible apply Kept.ite | (with_reducible apply Kept.foldl; rotate_left; intro _ _ _)

theorem domainHold_kept {pts : List Part} {s0 : State} {req : Req} {hold : BitVec 29} {s : State} (hk : Kept pts s0 s)
    (hp : [.freeCtr, .regs, .shadow, .acc, .gen, .couch, .pf0, .pf1, .pce, .rng, .hostQ, .mbx, .sem, .ing, .tab, .asa, .cmt, .replQ, .bpm, .adm, .ddc, .qsc, .crd, .gates, .fab, .egr, .prt, .lin, .pmn, .tim, .mil, .arrivals, .out] ⊆ pts)
    : Kept pts s0 (domainHold req hold s) := by
  unfold domainHold
  repeat' first
    | with_reducible assumption | intro _ | (guard_target =~ Kept _ _ _; extract_lets +lift)
    | with_reducible refine State.holdWrite_kept ?_ (inAll (by decide) hp) | with_reducible apply Kept.ite

theorem domainRelease_kept {pts : List Part} {s0 : State} {req : Req} {hold : BitVec 29} {s : State}
    (hk : Kept pts s0 s)
    (hp : [.freeCtr, .regs, .shadow, .acc, .gen, .couch, .pf0, .pf1, .pce, .rng, .hostQ, .mbx, .sem, .ing, .tab, .asa, .cmt, .replQ, .bpm, .adm, .ddc, .qsc, .crd, .gates, .fab, .egr, .prt, .lin, .pmn, .tim, .mil, .arrivals, .out] ⊆ pts)
    : Kept pts s0 (domainRelease req hold s) := by
  unfold domainRelease
  repeat' first
    | with_reducible assumption | intro _ | (guard_target =~ Kept _ _ _; extract_lets +lift)
    | with_reducible refine State.holdWrite_kept ?_ (inAll (by decide) hp) | with_reducible apply Kept.ite

theorem State.datapathOff_kept {pts : List Part} {s0 : State} {s : State} (hk : Kept pts s0 s)
    (hp : [.freeCtr, .regs, .shadow, .acc, .gen, .couch, .pf0, .pf1, .pce, .rng, .hostQ, .mbx, .sem, .ing, .tab, .asa, .cmt, .replQ, .bpm, .adm, .ddc, .qsc, .crd, .gates, .fab, .egr, .prt, .lin, .pmn, .tim, .mil, .arrivals, .out] ⊆ pts)
    : Kept pts s0 (s.datapathOff) := by
  unfold State.datapathOff
  repeat' first
    | with_reducible assumption | intro _ | (guard_target =~ Kept _ _ _; extract_lets +lift)
    | with_reducible refine State.domainsSettled_kept ?_ (inAll (by decide) hp)
    | with_reducible refine State.markPower_kept ?_ (inAll (by decide) hp)
    | with_reducible refine State.enterReset_kept ?_ (inAll (by decide) hp)
    | with_reducible apply Kept.ite | (with_reducible apply Kept.foldl; rotate_left; intro _ _ _)

theorem State.cold_kept {pts : List Part} {s0 : State} {s : State} (hk : Kept pts s0 s)
    (hp : [.regs, .shadow, .acc, .gen, .couch, .pf0, .pf1, .pce, .rng, .hostQ, .mbx, .sem, .ing, .tab, .asa, .cmt, .replQ, .bpm, .adm, .ddc, .qsc, .crd, .gates, .fab, .egr, .prt, .lin, .pmn, .tim, .mil, .arrivals, .out] ⊆ pts)
    : Kept pts s0 (s.cold) := by
  unfold State.cold
  extract_lets r g0 g f s'
  have h : Kept pts s0 s' := hk.trans ⟨fun p hq => by cases p <;> first | rfl | exact absurd (hp (by decide)) hq, rfl, rfl, fun _ => rfl, fun _ => rfl,
    fun _ => by simp [TimeInv, s', r, State.reset, TimSt.init], fun _ => rfl, List.suffix_refl _, Nat.le_refl _⟩
  exact Kept.ite (State.emit_kept h (inAll (by decide) hp)) h

theorem State.coldStart_kept {pts : List Part} {s0 : State} {s : State} {cause : Field} (hk : Kept pts s0 s)
    (hp : [.regs, .shadow, .acc, .gen, .couch, .pf0, .pf1, .pce, .rng, .hostQ, .mbx, .sem, .ing, .tab, .asa, .cmt, .replQ, .bpm, .adm, .ddc, .qsc, .crd, .gates, .fab, .egr, .prt, .lin, .pmn, .tim, .mil, .arrivals, .out] ⊆ pts)
    : Kept pts s0 (s.coldStart cause) := by
  unfold State.coldStart
  repeat' first
    | with_reducible assumption | intro _ | (guard_target =~ Kept _ _ _; extract_lets +lift)
    | with_reducible refine State.set_kept ?_ (inAll (by decide) hp)
    | with_reducible refine State.cold_kept ?_ (inAll (by decide) hp)
    | with_reducible refine State.logReset_kept ?_ (inAll (by decide) hp)
    | with_reducible refine State.raise_kept ?_ (inAll (by decide) hp)
    | with_reducible refine State.stageLog_kept ?_ (inAll (by decide) hp) | with_reducible apply Kept.ite

theorem modReset_kept {pts : List Part} {s0 : State} {s : State} (hk : Kept pts s0 s)
    (hp : [.regs, .shadow, .acc, .gen, .couch, .pf0, .pf1, .pce, .rng, .hostQ, .mbx, .sem, .ing, .tab, .asa, .cmt, .replQ, .bpm, .adm, .ddc, .qsc, .crd, .gates, .fab, .egr, .prt, .lin, .pmn, .tim, .mil, .arrivals, .out] ⊆ pts)
    : Kept pts s0 (modReset s) := by
  unfold modReset
  repeat' first
    | with_reducible assumption | intro _ | (guard_target =~ Kept _ _ _; extract_lets +lift)
    | with_reducible refine State.cold_kept ?_ (inAll (by decide) hp) | with_reducible apply Kept.ite
    | (with_reducible refine Kept.fst (by assumption) ?_)
    | (simp -zeta only [keptMk]; (with_reducible refine KeptMk.upd ?_ rfl ?_); rotate_left;
        · intro p; cases p <;> first | exact .inl (hp (by decide)) | (right; dsimp only [Part.same]))

theorem modResetRelease_kept {pts : List Part} {s0 : State} {s : State} (hk : Kept pts s0 s)
    (hp : [.regs, .shadow, .acc, .gen, .couch, .pf0, .pf1, .pce, .rng, .hostQ, .mbx, .sem, .ing, .tab, .asa, .cmt, .replQ, .bpm, .adm, .ddc, .qsc, .crd, .gates, .fab, .egr, .prt, .lin, .pmn, .tim, .mil, .arrivals, .out] ⊆ pts)
    : Kept pts s0 (modResetRelease s) := by
  unfold modResetRelease
  repeat' first
    | with_reducible assumption | intro _ | (guard_target =~ Kept _ _ _; extract_lets +lift)
    | with_reducible refine State.coldStart_kept ?_ (inAll (by decide) hp) | with_reducible apply Kept.ite
    | (with_reducible refine Kept.fst (by assumption) ?_)
    | (simp -zeta only [keptMk]; (with_reducible refine KeptMk.upd ?_ rfl ?_); rotate_left;
        · intro p; cases p <;> first | exact .inl (hp (by decide)) | (right; dsimp only [Part.same]))

theorem cold_kept {pts : List Part} {s0 : State} {req : Req} {key : BitVec 16} {s : State} (hk : Kept pts s0 s)
    (hp : [.regs, .shadow, .acc, .gen, .couch, .pf0, .pf1, .pce, .rng, .hostQ, .mbx, .sem, .ing, .tab, .asa, .cmt, .replQ, .bpm, .adm, .ddc, .qsc, .crd, .gates, .fab, .egr, .prt, .lin, .pmn, .tim, .mil, .arrivals, .out] ⊆ pts)
    : Kept pts s0 (cold req key s) := by
  unfold cold
  repeat' first
    | with_reducible assumption | intro _ | (guard_target =~ Kept _ _ _; extract_lets +lift)
    | with_reducible refine State.violation_kept ?_ (inAll (by decide) hp)
    | with_reducible refine State.coldStart_kept ?_ (inAll (by decide) hp) | with_reducible apply Kept.ite

theorem powerGood_kept {pts : List Part} {s0 : State} {slotId : BitVec 6} {s : State} (hk : Kept pts s0 s)
    (hp : [.freeCtr, .regs, .shadow, .acc, .gen, .couch, .pf0, .pf1, .pce, .rng, .hostQ, .mbx, .sem, .ing, .tab, .asa, .cmt, .replQ, .bpm, .adm, .ddc, .qsc, .crd, .gates, .fab, .egr, .prt, .lin, .pmn, .tim, .mil, .arrivals, .out] ⊆ pts)
    : Kept pts s0 (powerGood slotId s) := by
  unfold powerGood
  repeat' first
    | with_reducible assumption | intro _ | (guard_target =~ Kept _ _ _; extract_lets +lift)
    | with_reducible refine State.used_kept ?_ (inAll (by decide) hp)
    | with_reducible refine State.cold_kept ?_ (inAll (by decide) hp) | with_reducible apply Kept.ite
    | (with_reducible refine Kept.fst (by assumption) ?_)
    | (simp -zeta only [keptMk]; (with_reducible refine KeptMk.upd ?_ rfl ?_); rotate_left;
        · intro p; cases p <;> first | exact .inl (hp (by decide)) | (right; dsimp only [Part.same]))
    | split | dsimp +zetaDelta only

theorem regulatorsSequenced_kept {pts : List Part} {s0 : State} {s : State} (hk : Kept pts s0 s)
    (hp : [.regs, .shadow, .acc, .gen, .couch, .pf0, .pf1, .pce, .rng, .hostQ, .mbx, .sem, .ing, .tab, .asa, .cmt, .replQ, .bpm, .adm, .ddc, .qsc, .crd, .gates, .fab, .egr, .prt, .lin, .pmn, .tim, .mil, .arrivals, .out] ⊆ pts)
    : Kept pts s0 (regulatorsSequenced s) := by
  unfold regulatorsSequenced
  repeat' first
    | with_reducible assumption | intro _ | (guard_target =~ Kept _ _ _; extract_lets +lift)
    | with_reducible refine State.coldStart_kept ?_ (inAll (by decide) hp) | with_reducible apply Kept.ite

theorem powerFail_kept {pts : List Part} {s0 : State} {overvoltage : Bool} {s : State} (hk : Kept pts s0 s)
    (hp : [.freeCtr, .regs, .shadow, .acc, .gen, .couch, .pf0, .pf1, .pce, .rng, .hostQ, .mbx, .sem, .ing, .tab, .asa, .cmt, .replQ, .bpm, .adm, .ddc, .qsc, .crd, .gates, .fab, .egr, .prt, .lin, .pmn, .tim, .mil, .arrivals, .out] ⊆ pts)
    : Kept pts s0 (powerFail overvoltage s) := by
  unfold powerFail
  have h : Kept pts s0 (s.enterPhase .off).releaseAlive.datapathOff := State.datapathOff_kept (State.releaseAlive_kept
    (State.enterPhase_kept hk (inAll (by decide) hp)) (inAll (by decide) hp)) (inAll (by decide) hp)
  exact Kept.ite hk (Kept.of_gen h (hp (by decide)))

theorem lastGaspEntry_kept {pts : List Part} {s0 : State} {vin : BitVec 16} {s : State} (hk : Kept pts s0 s)
    (hp : [.mil, .out] ⊆ pts) : Kept pts s0 (lastGaspEntry vin s) := by
  unfold lastGaspEntry
  repeat' first
    | with_reducible assumption | intro _ | (guard_target =~ Kept _ _ _; extract_lets +lift)
    | with_reducible refine State.alertClass_kept ?_ (inAll (by decide) hp)
    | with_reducible refine State.flashEntry_kept ?_ (inAll (by decide) hp)
    | with_reducible refine State.mill_kept ?_ (inAll (by decide) hp) | with_reducible apply Kept.ite

theorem railsOff_kept {pts : List Part} {s0 : State} {s : State} (hk : Kept pts s0 s)
    (hp : [.regs, .shadow, .acc, .gen, .couch, .pf0, .pf1, .pce, .rng, .hostQ, .mbx, .sem, .ing, .tab, .asa, .cmt, .replQ, .bpm, .adm, .ddc, .qsc, .crd, .gates, .fab, .egr, .prt, .lin, .pmn, .tim, .mil, .arrivals, .out] ⊆ pts)
    : Kept pts s0 (railsOff s) := by
  unfold railsOff
  repeat' first
    | with_reducible assumption | intro _ | (guard_target =~ Kept _ _ _; extract_lets +lift)
    | with_reducible refine State.cold_kept ?_ (inAll (by decide) hp) | with_reducible apply Kept.ite
    | (with_reducible refine Kept.fst (by assumption) ?_)
    | (simp -zeta only [keptMk]; (with_reducible refine KeptMk.upd ?_ rfl ?_); rotate_left;
        · intro p; cases p <;> first | exact .inl (hp (by decide)) | (right; dsimp only [Part.same]))

theorem State.tripIsolate_kept {pts : List Part} {s0 : State} {s : State} (hk : Kept pts s0 s)
    (hp : [.freeCtr, .regs, .gen, .pf0, .pf1, .rng, .fab, .prt, .tim, .mil, .out] ⊆ pts)
    : Kept pts s0 (s.tripIsolate) := by
  unfold State.tripIsolate
  repeat' first
    | with_reducible assumption | intro _ | (guard_target =~ Kept _ _ _; extract_lets +lift)
    | with_reducible refine State.enterIsolate_kept ?_ (inAll (by decide) hp)
    | with_reducible apply Kept.ite | (with_reducible refine Kept.fst (by assumption) ?_)
    | (simp -zeta only [keptMk]; (with_reducible refine KeptMk.upd ?_ rfl ?_); rotate_left;
        · intro p; cases p <;> first | exact .inl (hp (by decide)) | (right; dsimp only [Part.same]))

theorem State.tripCut_kept {pts : List Part} {s0 : State} {s : State} (hk : Kept pts s0 s)
    (hp : [.freeCtr, .regs, .shadow, .acc, .gen, .couch, .pf0, .pf1, .pce, .rng, .hostQ, .mbx, .sem, .ing, .tab, .asa, .cmt, .replQ, .bpm, .adm, .ddc, .qsc, .crd, .gates, .fab, .egr, .prt, .lin, .pmn, .tim, .mil, .arrivals, .out] ⊆ pts)
    : Kept pts s0 (s.tripCut) := by
  unfold State.tripCut
  repeat' first
    | with_reducible assumption | intro _ | (guard_target =~ Kept _ _ _; extract_lets +lift)
    | with_reducible refine State.datapathOff_kept ?_ (inAll (by decide) hp)
    | with_reducible apply Kept.ite | (with_reducible refine Kept.fst (by assumption) ?_)
    | (simp -zeta only [keptMk]; (with_reducible refine KeptMk.upd ?_ rfl ?_); rotate_left;
        · intro p; cases p <;> first | exact .inl (hp (by decide)) | (right; dsimp only [Part.same]))

theorem thermalTrip_kept {pts : List Part} {s0 : State} {point : Fin 128} {value : Int} {s : State}
    (hk : Kept pts s0 s)
    (hp : [.freeCtr, .regs, .shadow, .acc, .gen, .couch, .pf0, .pf1, .pce, .rng, .hostQ, .mbx, .sem, .ing, .tab, .asa, .cmt, .replQ, .bpm, .adm, .ddc, .qsc, .crd, .gates, .fab, .egr, .prt, .lin, .pmn, .tim, .mil, .arrivals, .out] ⊆ pts)
    : Kept pts s0 (thermalTrip point value s) := by
  unfold thermalTrip
  repeat' first
    | with_reducible assumption | intro _ | (guard_target =~ Kept _ _ _; extract_lets +lift)
    | with_reducible refine State.sampleTemp_kept ?_ (inAll (by decide) hp)
    | with_reducible refine State.stageLog_kept ?_ (inAll (by decide) hp)
    | with_reducible refine State.tripCut_kept ?_ (inAll (by decide) hp)
    | with_reducible refine State.tripIsolate_kept ?_ (inAll (by decide) hp)
    | with_reducible apply Kept.ite | (with_reducible refine Kept.fst (by assumption) ?_) | split

theorem heartbeatStrobe_kept {pts : List Part} {s0 : State} {s : State} (hk : Kept pts s0 s) (hp : [.gen] ⊆ pts)
    : Kept pts s0 (heartbeatStrobe s) := by
  unfold heartbeatStrobe
  repeat' first
    | with_reducible assumption | intro _ | (guard_target =~ Kept _ _ _; extract_lets +lift)
    | with_reducible apply Kept.ite | (with_reducible refine Kept.fst (by assumption) ?_)
    | (simp -zeta only [keptMk]; (with_reducible refine KeptMk.upd ?_ rfl ?_); rotate_left;
        · intro p; cases p <;> first | exact .inl (hp (by decide)) | (right; dsimp only [Part.same]))

theorem watchdogStrobesMissed_kept {pts : List Part} {s0 : State} {s : State} (hk : Kept pts s0 s) (hp : [.gen] ⊆ pts)
    : Kept pts s0 (watchdogStrobesMissed s) := by
  unfold watchdogStrobesMissed
  repeat' first
    | with_reducible assumption | intro _
    | with_reducible refine State.releaseAlive_kept ?_ (inAll (by decide) hp)

theorem matePresentChange_kept {pts : List Part} {s0 : State} {s : State} (hk : Kept pts s0 s)
    (hp : [.regs, .gen, .pf0, .pf1, .rng, .sem, .mil, .out] ⊆ pts) : Kept pts s0 (matePresentChange s) := by
  unfold matePresentChange
  repeat' first
    | with_reducible assumption | intro _ | (guard_target =~ Kept _ _ _; extract_lets +lift)
    | with_reducible refine State.raise_kept ?_ (inAll (by decide) hp)
    | with_reducible refine State.autoRelease_kept ?_ (inAll (by decide) hp)
    | with_reducible apply Kept.ite | (with_reducible refine Kept.fst (by assumption) ?_)
    | (simp -zeta only [keptMk]; (with_reducible refine KeptMk.upd ?_ rfl ?_); rotate_left;
        · intro p; cases p <;> first | exact .inl (hp (by decide)) | (right; dsimp only [Part.same]))

theorem aliveInChange_kept {pts : List Part} {s0 : State} {s : State} (hk : Kept pts s0 s)
    (hp : [.freeCtr, .regs, .gen, .pf0, .pf1, .rng, .sem, .fab, .prt, .tim, .mil, .out] ⊆ pts)
    : Kept pts s0 (aliveInChange s) := by
  unfold aliveInChange
  repeat' first
    | with_reducible assumption | intro _ | (guard_target =~ Kept _ _ _; extract_lets +lift)
    | with_reducible refine State.protJudge_kept ?_ (inAll (by decide) hp)
    | with_reducible refine State.raise_kept ?_ (inAll (by decide) hp) | with_reducible apply Kept.ite
    | (with_reducible refine Kept.fst (by assumption) ?_)
    | (simp -zeta only [keptMk]; (with_reducible refine KeptMk.upd ?_ rfl ?_); rotate_left;
        · intro p; cases p <;> first | exact .inl (hp (by decide)) | (right; dsimp only [Part.same]))

theorem State.datapathOn_kept {pts : List Part} {s0 : State} {s : State} (hk : Kept pts s0 s)
    (hp : [.regs, .gen, .pf0, .pf1, .pce, .rng, .tab, .fab, .lin, .pmn, .tim, .mil, .out] ⊆ pts)
    : Kept pts s0 (s.datapathOn) := by
  unfold State.datapathOn
  repeat' first
    | with_reducible assumption | intro _ | (guard_target =~ Kept _ _ _; extract_lets +lift)
    | with_reducible refine State.markPower_kept ?_ (inAll (by decide) hp)
    | with_reducible refine State.leaveReset_kept ?_ (inAll (by decide) hp)
    | with_reducible apply Kept.ite | (with_reducible apply Kept.foldl; rotate_left; intro _ _ _)

theorem imageVerify_kept {pts : List Part} {s0 : State} {goodA : Bool} {goodB : Bool} {s : State} (hk : Kept pts s0 s)
    (hp : [.freeCtr, .regs, .gen, .pf0, .pf1, .pce, .rng, .sem, .tab, .fab, .prt, .lin, .pmn, .tim, .mil, .out] ⊆ pts)
    : Kept pts s0 (imageVerify goodA goodB s) := by
  unfold imageVerify
  repeat' first
    | with_reducible assumption | intro _ | (guard_target =~ Kept _ _ _; extract_lets +lift)
    | with_reducible refine State.mill_kept ?_ (inAll (by decide) hp)
    | with_reducible refine State.stageLog_kept ?_ (inAll (by decide) hp)
    | with_reducible refine State.set_kept ?_ (inAll (by decide) hp)
    | with_reducible refine State.domainsSettled_kept ?_ (inAll (by decide) hp)
    | with_reducible refine State.enterPhase_kept ?_ (inAll (by decide) hp)
    | with_reducible refine State.datapathOn_kept ?_ (inAll (by decide) hp)
    | with_reducible apply Kept.ite | (with_reducible refine Kept.fst (by assumption) ?_)
    | (simp -zeta only [keptMk]; (with_reducible refine KeptMk.upd ?_ rfl ?_); rotate_left;
        · intro p; cases p <;> first | exact .inl (hp (by decide)) | (right; dsimp only [Part.same]))
    | split | dsimp +zetaDelta only

theorem initComplete_kept {pts : List Part} {s0 : State} {fails : BitVec 144} {s : State} (hk : Kept pts s0 s)
    (hp : [.regs, .gen, .pf0, .pf1, .rng, .bpm, .ddc, .qsc, .prt, .mil, .out] ⊆ pts)
    : Kept pts s0 (initComplete fails s) := by
  unfold initComplete
  repeat' first
    | with_reducible assumption | intro _ | (guard_target =~ Kept _ _ _; extract_lets +lift)
    | with_reducible refine State.leaveSelfRefresh_kept ?_ (inAll (by decide) hp)
    | with_reducible refine State.partitionDram_kept ?_ (inAll (by decide) hp)
    | with_reducible refine State.enterPhase_kept ?_ (inAll (by decide) hp)
    | with_reducible apply Kept.ite | (with_reducible refine Kept.fst (by assumption) ?_)
    | (simp -zeta only [keptMk]; (with_reducible refine KeptMk.upd ?_ rfl ?_); rotate_left;
        · intro p; cases p <;> first | exact .inl (hp (by decide)) | (right; dsimp only [Part.same]))

theorem State.enterRun_kept {pts : List Part} {s0 : State} {s : State} (hk : Kept pts s0 s)
    (hp : [.freeCtr, .regs, .gen, .pf0, .pf1, .rng, .sem, .fab, .prt, .tim, .mil, .out] ⊆ pts)
    : Kept pts s0 (s.enterRun) := by
  unfold State.enterRun
  repeat' first
    | with_reducible assumption | intro _ | (guard_target =~ Kept _ _ _; extract_lets +lift)
    | with_reducible refine State.domainsSettled_kept ?_ (inAll (by decide) hp)
    | with_reducible refine State.enterPhase_kept ?_ (inAll (by decide) hp)
    | with_reducible apply Kept.ite | (with_reducible refine Kept.fst (by assumption) ?_)
    | (simp -zeta only [keptMk]; (with_reducible refine KeptMk.upd ?_ rfl ?_); rotate_left;
        · intro p; cases p <;> first | exact .inl (hp (by decide)) | (right; dsimp only [Part.same]))
    | split | dsimp +zetaDelta only

theorem selftestPass_kept {pts : List Part} {s0 : State} {s : State} (hk : Kept pts s0 s)
    (hp : [.freeCtr, .regs, .gen, .pf0, .pf1, .rng, .sem, .fab, .prt, .tim, .mil, .out] ⊆ pts)
    : Kept pts s0 (selftestPass s) := by
  unfold selftestPass
  repeat' first
    | with_reducible assumption | intro _ | (guard_target =~ Kept _ _ _; extract_lets +lift)
    | with_reducible refine State.enterRun_kept ?_ (inAll (by decide) hp) | with_reducible apply Kept.ite
    | (with_reducible refine Kept.fst (by assumption) ?_)
    | (simp -zeta only [keptMk]; (with_reducible refine KeptMk.upd ?_ rfl ?_); rotate_left;
        · intro p; cases p <;> first | exact .inl (hp (by decide)) | (right; dsimp only [Part.same]))

theorem selftestFail_kept {pts : List Part} {s0 : State} {slices : BitVec 16} {qx : Bool} {s : State}
    (hk : Kept pts s0 s) (hp : [.freeCtr, .regs, .gen, .pf0, .pf1, .rng, .sem, .fab, .prt, .tim, .mil, .out] ⊆ pts)
    : Kept pts s0 (selftestFail slices qx s) := by
  unfold selftestFail
  repeat' first
    | with_reducible assumption | intro _ | (guard_target =~ Kept _ _ _; extract_lets +lift)
    | with_reducible refine State.protJudge_kept ?_ (inAll (by decide) hp)
    | with_reducible refine State.enterIsolate_kept ?_ (inAll (by decide) hp)
    | with_reducible apply Kept.ite | (with_reducible refine Kept.fst (by assumption) ?_)
    | (simp -zeta only [keptMk]; (with_reducible refine KeptMk.upd ?_ rfl ?_); rotate_left;
        · intro p; cases p <;> first | exact .inl (hp (by decide)) | (right; dsimp only [Part.same]))

theorem State.phaseReject_kept {pts : List Part} {s0 : State} {s : State} (hk : Kept pts s0 s)
    (hp : [.regs, .pf0, .pf1, .rng, .mil, .out] ⊆ pts) : Kept pts s0 (s.phaseReject) := by
  unfold State.phaseReject
  repeat' first
    | with_reducible assumption | intro _
    | with_reducible refine State.raise_kept ?_ (inAll (by decide) hp)

theorem State.dropAll_kept {pts : List Part} {s0 : State} {s : State} (hk : Kept pts s0 s)
    (hp : [.regs, .couch, .pf0, .pf1, .rng, .hostQ, .ing, .replQ, .bpm, .adm, .qsc, .fab, .egr, .lin, .mil, .arrivals, .out] ⊆ pts)
    : Kept pts s0 (s.dropAll) := by
  unfold State.dropAll
  repeat' first
    | with_reducible assumption | intro _ | (guard_target =~ Kept _ _ _; extract_lets +lift)
    | with_reducible refine State.dropHead_kept ?_ (inAll (by decide) hp)
    | with_reducible refine State.countDrop_kept ?_ (inAll (by decide) hp)
    | with_reducible refine State.decCell_kept ?_ (inAll (by decide) hp)
    | with_reducible refine State.dropCells_kept ?_ (inAll (by decide) hp)
    | with_reducible refine State.usedDown_kept ?_ (inAll (by decide) hp)
    | with_reducible refine State.freeHost_kept ?_ (inAll (by decide) hp) | with_reducible apply Kept.ite
    | (with_reducible apply Kept.foldl; rotate_left; intro _ _ _)
    | (with_reducible refine Kept.fst (by assumption) ?_)
    | (simp -zeta only [keptMk]; (with_reducible refine KeptMk.upd ?_ rfl ?_); rotate_left;
        · intro p; cases p <;> first | exact .inl (hp (by decide)) | (right; dsimp only [Part.same]))
    | split

theorem State.parkDomain_kept {pts : List Part} {s0 : State} {s : State} {d : Nat} (hk : Kept pts s0 s)
    (hp : [.regs, .gen, .pf0, .pf1, .rng, .fab, .lin, .pmn, .mil, .out] ⊆ pts) : Kept pts s0 (s.parkDomain d) := by
  unfold State.parkDomain
  repeat' first
    | with_reducible assumption | intro _ | (guard_target =~ Kept _ _ _; extract_lets +lift)
    | with_reducible refine State.watchSf_kept ?_ (inAll (by decide) hp) ?_
    | with_reducible refine State.linkReset_kept ?_ (inAll (by decide) hp)
    | with_reducible refine State.markPower_kept ?_ (inAll (by decide) hp) | with_reducible apply Kept.ite
    | (with_reducible apply Kept.foldl; rotate_left; intro _ _ _)
    | (with_reducible refine Kept.fst (by assumption) ?_)
    | (simp -zeta only [keptMk]; (with_reducible refine KeptMk.upd ?_ rfl ?_); rotate_left;
        · intro p; cases p <;> first | exact .inl (hp (by decide)) | (right; dsimp only [Part.same]))

theorem State.park_kept {pts : List Part} {s0 : State} {s : State} (hk : Kept pts s0 s)
    (hp : [.freeCtr, .regs, .gen, .couch, .pf0, .pf1, .rng, .hostQ, .sem, .ing, .replQ, .bpm, .adm, .qsc, .fab, .egr, .prt, .lin, .pmn, .tim, .mil, .arrivals, .out] ⊆ pts)
    : Kept pts s0 (s.park) := by
  unfold State.park
  repeat' first
    | with_reducible assumption | intro _ | (guard_target =~ Kept _ _ _; extract_lets +lift)
    | with_reducible refine State.enterPhase_kept ?_ (inAll (by decide) hp)
    | with_reducible refine State.dropAll_kept ?_ (inAll (by decide) hp)
    | with_reducible refine State.domainsSettled_kept ?_ (inAll (by decide) hp)
    | with_reducible refine State.parkDomain_kept ?_ (inAll (by decide) hp)
    | with_reducible apply Kept.ite | (with_reducible apply Kept.foldl; rotate_left; intro _ _ _)
    | (with_reducible refine Kept.fst (by assumption) ?_)
    | (simp -zeta only [keptMk]; (with_reducible refine KeptMk.upd ?_ rfl ?_); rotate_left;
        · intro p; cases p <;> first | exact .inl (hp (by decide)) | (right; dsimp only [Part.same]))
    | split | dsimp +zetaDelta only

theorem State.phaseReq_kept {pts : List Part} {s0 : State} {s : State} {req : Req} {ok : Bool} {f : State → State}
    (hk : Kept pts s0 s) (hp : [.regs, .pf0, .pf1, .rng, .mil, .out] ⊆ pts)
    (hf : ∀ s, Kept pts s0 s → Kept pts s0 (f s)) : Kept pts s0 (s.phaseReq req ok f) := by
  unfold State.phaseReq
  repeat' first
    | with_reducible assumption | intro _ | with_reducible apply hf | (guard_target =~ Kept _ _ _; extract_lets +lift)
    | with_reducible refine State.phaseReject_kept ?_ (inAll (by decide) hp)
    | with_reducible apply Kept.ite

theorem phaseReqPark_kept {pts : List Part} {s0 : State} {req : Req} {s : State} (hk : Kept pts s0 s)
    (hp : [.freeCtr, .regs, .gen, .couch, .pf0, .pf1, .rng, .hostQ, .sem, .ing, .replQ, .bpm, .adm, .qsc, .fab, .egr, .prt, .lin, .pmn, .tim, .mil, .arrivals, .out] ⊆ pts)
    : Kept pts s0 (phaseReqPark req s) := by
  unfold phaseReqPark
  repeat' first
    | with_reducible assumption | intro _ | (guard_target =~ Kept _ _ _; extract_lets +lift)
    | with_reducible refine State.phaseReq_kept ?_ (inAll (by decide) hp) ?_
    | with_reducible refine State.park_kept ?_ (inAll (by decide) hp)

theorem State.unpark_kept {pts : List Part} {s0 : State} {s : State} (hk : Kept pts s0 s)
    (hp : [.freeCtr, .regs, .gen, .pf0, .pf1, .pce, .rng, .sem, .tab, .fab, .prt, .lin, .pmn, .tim, .mil, .out] ⊆ pts)
    : Kept pts s0 (s.unpark) := by
  unfold State.unpark
  repeat' first
    | with_reducible assumption | intro _ | (guard_target =~ Kept _ _ _; extract_lets +lift)
    | with_reducible refine State.watchSf_kept ?_ (inAll (by decide) hp) ?_
    | with_reducible refine State.leftReset_kept ?_ (inAll (by decide) hp)
    | with_reducible refine State.markPower_kept ?_ (inAll (by decide) hp)
    | with_reducible refine State.domainsSettled_kept ?_ (inAll (by decide) hp)
    | with_reducible refine State.enterPhase_kept ?_ (inAll (by decide) hp)
    | with_reducible apply Kept.ite | (with_reducible apply Kept.foldl; rotate_left; intro _ _ _)
    | (with_reducible refine Kept.fst (by assumption) ?_)
    | (simp -zeta only [keptMk]; (with_reducible refine KeptMk.upd ?_ rfl ?_); rotate_left;
        · intro p; cases p <;> first | exact .inl (hp (by decide)) | (right; dsimp only [Part.same]))
    | split | dsimp +zetaDelta only

theorem State.unisolate_kept {pts : List Part} {s0 : State} {s : State} (hk : Kept pts s0 s)
    (hp : [.freeCtr, .regs, .shadow, .acc, .gen, .couch, .pf0, .pf1, .pce, .rng, .hostQ, .mbx, .sem, .ing, .tab, .asa, .cmt, .replQ, .bpm, .adm, .ddc, .qsc, .crd, .gates, .fab, .egr, .prt, .lin, .pmn, .tim, .mil, .arrivals, .out] ⊆ pts)
    : Kept pts s0 (s.unisolate) := by
  unfold State.unisolate
  repeat' first
    | with_reducible assumption | intro _ | (guard_target =~ Kept _ _ _; extract_lets +lift)
    | with_reducible refine State.enterReset_kept ?_ (inAll (by decide) hp)
    | with_reducible refine State.domainsSettled_kept ?_ (inAll (by decide) hp)
    | with_reducible refine State.enterPhase_kept ?_ (inAll (by decide) hp)
    | with_reducible refine State.datapathOn_kept ?_ (inAll (by decide) hp)
    | with_reducible apply Kept.ite | (with_reducible apply Kept.foldl; rotate_left; intro _ _ _)
    | (with_reducible refine Kept.fst (by assumption) ?_)
    | (simp -zeta only [keptMk]; (with_reducible refine KeptMk.upd ?_ rfl ?_); rotate_left;
        · intro p; cases p <;> first | exact .inl (hp (by decide)) | (right; dsimp only [Part.same]))
    | split | dsimp +zetaDelta only

theorem phaseReqRun_kept {pts : List Part} {s0 : State} {req : Req} {s : State} (hk : Kept pts s0 s)
    (hp : [.freeCtr, .regs, .shadow, .acc, .gen, .couch, .pf0, .pf1, .pce, .rng, .hostQ, .mbx, .sem, .ing, .tab, .asa, .cmt, .replQ, .bpm, .adm, .ddc, .qsc, .crd, .gates, .fab, .egr, .prt, .lin, .pmn, .tim, .mil, .arrivals, .out] ⊆ pts)
    : Kept pts s0 (phaseReqRun req s) := by
  unfold phaseReqRun
  repeat' first
    | with_reducible assumption | intro _ | (guard_target =~ Kept _ _ _; extract_lets +lift)
    | with_reducible refine State.phaseReq_kept ?_ (inAll (by decide) hp) ?_
    | with_reducible refine State.unisolate_kept ?_ (inAll (by decide) hp)
    | with_reducible refine State.unpark_kept ?_ (inAll (by decide) hp) | with_reducible apply Kept.ite

theorem phaseReqIsolate_kept {pts : List Part} {s0 : State} {req : Req} {s : State} (hk : Kept pts s0 s)
    (hp : [.freeCtr, .regs, .gen, .pf0, .pf1, .rng, .sem, .fab, .prt, .tim, .mil, .out] ⊆ pts)
    : Kept pts s0 (phaseReqIsolate req s) := by
  unfold phaseReqIsolate
  repeat' first
    | with_reducible assumption | intro _ | (guard_target =~ Kept _ _ _; extract_lets +lift)
    | with_reducible refine State.phaseReq_kept ?_ (inAll (by decide) hp) ?_
    | with_reducible refine State.protJudge_kept ?_ (inAll (by decide) hp)
    | with_reducible refine State.enterIsolate_kept ?_ (inAll (by decide) hp)

theorem warmQx_kept {pts : List Part} {s0 : State} {req : Req} {key : BitVec 16} {s : State} (hk : Kept pts s0 s)
    (hp : [.freeCtr, .regs, .shadow, .acc, .gen, .couch, .pf0, .pf1, .rng, .hostQ, .sem, .replQ, .bpm, .adm, .qsc, .crd, .gates, .fab, .prt, .lin, .tim, .mil, .out] ⊆ pts)
    : Kept pts s0 (warmQx req key s) := by
  unfold warmQx
  repeat' first
    | with_reducible assumption | intro _ | (guard_target =~ Kept _ _ _; extract_lets +lift)
    | with_reducible refine State.violation_kept ?_ (inAll (by decide) hp)
    | with_reducible refine State.phaseReject_kept ?_ (inAll (by decide) hp)
    | with_reducible refine State.enterPhase_kept ?_ (inAll (by decide) hp)
    | with_reducible refine State.logReset_kept ?_ (inAll (by decide) hp)
    | with_reducible refine State.warmRegs_kept ?_ (inAll (by decide) hp)
    | with_reducible refine State.wipeQc_kept ?_ (inAll (by decide) hp)
    | with_reducible refine State.qcOut_kept ?_ (inAll (by decide) hp)
    | with_reducible refine State.domainsSettled_kept ?_ (inAll (by decide) hp)
    | with_reducible apply Kept.ite | (with_reducible refine Kept.fst (by assumption) ?_)
    | (simp -zeta only [keptMk]; (with_reducible refine KeptMk.upd ?_ rfl ?_); rotate_left;
        · intro p; cases p <;> first | exact .inl (hp (by decide)) | (right; dsimp only [Part.same]))
    | split | dsimp +zetaDelta only

theorem warmQxComplete_kept {pts : List Part} {s0 : State} {fails : BitVec 144} {s : State} (hk : Kept pts s0 s)
    (hp : [.freeCtr, .regs, .gen, .couch, .pf0, .pf1, .rng, .sem, .ddc, .fab, .prt, .tim, .mil, .out] ⊆ pts)
    : Kept pts s0 (warmQxComplete fails s) := by
  unfold warmQxComplete
  repeat' first
    | with_reducible assumption | intro _ | (guard_target =~ Kept _ _ _; extract_lets +lift)
    | with_reducible refine State.leaveSelfRefresh_kept ?_ (inAll (by decide) hp)
    | with_reducible refine State.set_kept ?_ (inAll (by decide) hp)
    | with_reducible refine State.enterRun_kept ?_ (inAll (by decide) hp) | with_reducible apply Kept.ite
    | (with_reducible refine Kept.fst (by assumption) ?_)
    | (simp -zeta only [keptMk]; (with_reducible refine KeptMk.upd ?_ rfl ?_); rotate_left;
        · intro p; cases p <;> first | exact .inl (hp (by decide)) | (right; dsimp only [Part.same]))
    | split | dsimp +zetaDelta only

theorem State.closeEpoch_kept {pts : List Part} {s0 : State} {s : State} {k : Nat} {epoch : Nat}
    {ends : List (Nat × Nat)} {misaligned : Bool} (hk : Kept pts s0 s) (hp : [.regs, .prt, .lin] ⊆ pts)
    : Kept pts s0 (s.closeEpoch k epoch ends misaligned).1 := by
  unfold State.closeEpoch
  repeat' first
    | with_reducible assumption | intro _ | (guard_target =~ Kept _ _ _; extract_lets +lift)
    | with_reducible refine State.setCmp_kept ?_ (inAll (by decide) hp)
    | with_reducible refine State.set_kept ?_ (inAll (by decide) hp) | with_reducible apply Kept.ite
    | (with_reducible refine Kept.fst (by assumption) ?_)
    | (simp -zeta only [keptMk]; (with_reducible refine KeptMk.upd ?_ rfl ?_); rotate_left;
        · intro p; cases p <;> first | exact .inl (hp (by decide)) | (right; dsimp only [Part.same]))

theorem State.sendDigest_kept {pts : List Part} {s0 : State} {s : State} {k : Nat} {d : DigestMsg}
    (hk : Kept pts s0 s) (hp : [.prt, .out] ⊆ pts) : Kept pts s0 (s.sendDigest k d) := by
  unfold State.sendDigest
  repeat' first
    | with_reducible assumption | intro _
    | with_reducible refine State.sendFelt_kept ?_ (inAll (by decide) hp)

theorem State.testFrom_kept {pts : List Part} {s0 : State} {s : State} {k : Nat} {t : Nat} (hk : Kept pts s0 s)
    (hp : [.regs, .prt] ⊆ pts) : Kept pts s0 (s.testFrom k t) := by
  unfold State.testFrom
  repeat' first
    | with_reducible assumption | intro _ | (guard_target =~ Kept _ _ _; extract_lets +lift)
    | with_reducible refine State.set_kept ?_ (inAll (by decide) hp)
    | with_reducible refine State.setCmp_kept ?_ (inAll (by decide) hp)

theorem State.compare_kept {pts : List Part} {s0 : State} {s : State} {k : Nat} (hk : Kept pts s0 s)
    (hp : [.regs, .pf0, .pf1, .rng, .prt, .mil, .out] ⊆ pts) : Kept pts s0 (s.compare k) := by
  unfold State.compare
  repeat' first
    | with_reducible assumption | intro _ | (guard_target =~ Kept _ _ _; extract_lets +lift)
    | with_reducible refine State.setCmp_kept ?_ (inAll (by decide) hp)
    | with_reducible refine State.set_kept ?_ (inAll (by decide) hp)
    | with_reducible refine State.count_kept ?_ (inAll (by decide) hp)
    | with_reducible refine State.raiseAt_kept ?_ (inAll (by decide) hp)
    | with_reducible refine State.sendFelt_kept ?_ (inAll (by decide) hp)
    | with_reducible refine State.testFrom_kept ?_ (inAll (by decide) hp) | with_reducible apply Kept.ite
    | (with_reducible refine Kept.fst (by assumption) ?_) | split

theorem State.alignPort_kept {pts : List Part} {s0 : State} {s : State} {p : Nat} {next : Nat} {fcs : Nat}
    (hk : Kept pts s0 s) (hp : [.prt, .lin] ⊆ pts) : Kept pts s0 (s.alignPort p next fcs).1 := by
  unfold State.alignPort
  repeat' first
    | with_reducible assumption | intro _ | (guard_target =~ Kept _ _ _; extract_lets +lift)
    | with_reducible refine State.setCmp_kept ?_ (inAll (by decide) hp) | with_reducible apply Kept.ite
    | (with_reducible refine Kept.fst (by assumption) ?_)
    | (simp -zeta only [keptMk]; (with_reducible refine KeptMk.upd ?_ rfl ?_); rotate_left;
        · intro p; cases p <;> first | exact .inl (hp (by decide)) | (right; dsimp only [Part.same]))
    | split

theorem boundary_kept {pts : List Part} {s0 : State} {slice : Fin 16} {msg : Option (List Byte)} {s : State}
    (hk : Kept pts s0 s) (hp : [.regs, .pf0, .pf1, .rng, .prt, .lin, .mil, .out] ⊆ pts)
    : Kept pts s0 (boundary slice msg s) := by
  unfold boundary
  repeat' first
    | with_reducible assumption | intro _ | (guard_target =~ Kept _ _ _; extract_lets +lift)
    | with_reducible refine State.sendFelt_kept ?_ (inAll (by decide) hp)
    | with_reducible refine State.closeEpoch_kept ?_ (inAll (by decide) hp)
    | with_reducible refine State.compare_kept ?_ (inAll (by decide) hp)
    | with_reducible refine State.sendDigest_kept ?_ (inAll (by decide) hp)
    | with_reducible refine State.takeFelt_kept ?_ (inAll (by decide) hp) ?_
    | with_reducible refine State.alignPort_kept ?_ (inAll (by decide) hp) | with_reducible apply Kept.ite
    | (with_reducible apply Kept.foldl_fst; rotate_left; intro _ _ _)
    | (with_reducible refine Kept.fst (by assumption) ?_) | split

theorem digest_kept {pts : List Part} {s0 : State} {lane : Fin 4} {msg : List Byte} {s : State} (hk : Kept pts s0 s)
    (hp : [.regs, .pf0, .pf1, .rng, .prt, .mil, .out] ⊆ pts) : Kept pts s0 (digest lane msg s) := by
  unfold digest
  repeat' first
    | with_reducible assumption | intro _ | (guard_target =~ Kept _ _ _; extract_lets +lift)
    | with_reducible refine State.takeFelt_kept ?_ (inAll (by decide) hp) ?_
    | with_reducible refine State.compare_kept ?_ (inAll (by decide) hp)
    | with_reducible refine State.setCmp_kept ?_ (inAll (by decide) hp)

theorem State.takeTest_kept {pts : List Part} {s0 : State} {s : State} {lane : Nat} {msg : List Byte} {op : Nat}
    {f : Nat → Bool → Nat → State → State} (hk : Kept pts s0 s) (hp : [.regs] ⊆ pts)
    (hf : ∀ x y z s, Kept pts s0 s → Kept pts s0 (f x y z s)) : Kept pts s0 (s.takeTest lane msg op f) := by
  unfold State.takeTest
  repeat' first
    | with_reducible assumption | intro _ | with_reducible apply hf | (guard_target =~ Kept _ _ _; extract_lets +lift)
    | with_reducible refine State.takeFelt_kept ?_ (inAll (by decide) hp) ?_
    | with_reducible apply Kept.ite

theorem testRequest_kept {pts : List Part} {s0 : State} {lane : Fin 4} {msg : List Byte} {s : State}
    (hk : Kept pts s0 s) (hp : [.regs, .prt] ⊆ pts) : Kept pts s0 (testRequest lane msg s) := by
  unfold testRequest
  repeat' first
    | with_reducible assumption | intro _ | (guard_target =~ Kept _ _ _; extract_lets +lift)
    | with_reducible refine State.takeTest_kept ?_ (inAll (by decide) hp) ?_
    | with_reducible refine State.testFrom_kept ?_ (inAll (by decide) hp)

theorem State.testEnd_kept {pts : List Part} {s0 : State} {s : State} {k : Nat} {last : Nat} (hk : Kept pts s0 s)
    (hp : [.regs, .prt] ⊆ pts) : Kept pts s0 (s.testEnd k last) := by
  unfold State.testEnd
  repeat' first
    | with_reducible assumption | intro _ | (guard_target =~ Kept _ _ _; extract_lets +lift)
    | with_reducible refine State.setCmp_kept ?_ (inAll (by decide) hp)
    | with_reducible refine State.set_kept ?_ (inAll (by decide) hp)

theorem State.diverged_kept {pts : List Part} {s0 : State} {s : State} {k : Nat} (hk : Kept pts s0 s)
    (hp : [.regs, .pf0, .pf1, .rng, .mil, .out] ⊆ pts) : Kept pts s0 (s.diverged k) := by
  unfold State.diverged
  repeat' first
    | with_reducible assumption | intro _ | (guard_target =~ Kept _ _ _; extract_lets +lift)
    | with_reducible refine State.raiseAt_kept ?_ (inAll (by decide) hp)
    | with_reducible refine State.count_kept ?_ (inAll (by decide) hp)

theorem State.handOver_kept {pts : List Part} {s0 : State} {s : State} (hk : Kept pts s0 s)
    (hp : [.freeCtr, .regs, .gen, .pf0, .pf1, .rng, .sem, .fab, .prt, .tim, .mil, .out] ⊆ pts)
    : Kept pts s0 (s.handOver) := by
  unfold State.handOver
  repeat' first
    | with_reducible assumption | intro _ | (guard_target =~ Kept _ _ _; extract_lets +lift)
    | with_reducible refine State.startSwitch_kept ?_ (inAll (by decide) hp)
    | with_reducible refine State.protJudge_kept ?_ (inAll (by decide) hp) | with_reducible apply Kept.ite
    | (with_reducible apply Kept.foldl; rotate_left; intro _ _ _)
    | (with_reducible refine Kept.fst (by assumption) ?_)
    | (simp -zeta only [keptMk]; (with_reducible refine KeptMk.upd ?_ rfl ?_); rotate_left;
        · intro p; cases p <;> first | exact .inl (hp (by decide)) | (right; dsimp only [Part.same]))
    | split | dsimp +zetaDelta only

theorem State.verdict_kept {pts : List Part} {s0 : State} {s : State} {k : Nat} {mine : Bool} {mate : Bool}
    (hk : Kept pts s0 s) (hp : [.freeCtr, .regs, .gen, .pf0, .pf1, .rng, .sem, .fab, .prt, .tim, .mil, .out] ⊆ pts)
    : Kept pts s0 (s.verdict k mine mate) := by
  unfold State.verdict
  repeat' first
    | with_reducible assumption | intro _ | (guard_target =~ Kept _ _ _; extract_lets +lift)
    | with_reducible refine State.diverged_kept ?_ (inAll (by decide) hp)
    | with_reducible refine State.testEnd_kept ?_ (inAll (by decide) hp)
    | with_reducible refine State.handOver_kept ?_ (inAll (by decide) hp)
    | with_reducible refine State.raiseAt_kept ?_ (inAll (by decide) hp)
    | with_reducible refine State.enterIsolate_kept ?_ (inAll (by decide) hp)
    | with_reducible apply Kept.ite | (with_reducible refine Kept.fst (by assumption) ?_) | split

theorem sliceSelftest_kept {pts : List Part} {s0 : State} {slice : Fin 16} {pass : Bool} {s : State}
    (hk : Kept pts s0 s) (hp : [.freeCtr, .regs, .gen, .pf0, .pf1, .rng, .sem, .fab, .prt, .tim, .mil, .out] ⊆ pts)
    : Kept pts s0 (sliceSelftest slice pass s) := by
  unfold sliceSelftest
  repeat' first
    | with_reducible assumption | intro _ | (guard_target =~ Kept _ _ _; extract_lets +lift)
    | with_reducible refine State.healthTo_kept ?_ (inAll (by decide) hp)
    | with_reducible refine State.sendFelt_kept ?_ (inAll (by decide) hp)
    | with_reducible refine State.verdict_kept ?_ (inAll (by decide) hp)
    | with_reducible refine State.setCmp_kept ?_ (inAll (by decide) hp) | with_reducible apply Kept.ite
    | (with_reducible refine Kept.fst (by assumption) ?_) | split

theorem testResult_kept {pts : List Part} {s0 : State} {lane : Fin 4} {msg : List Byte} {s : State}
    (hk : Kept pts s0 s) (hp : [.freeCtr, .regs, .gen, .pf0, .pf1, .rng, .sem, .fab, .prt, .tim, .mil, .out] ⊆ pts)
    : Kept pts s0 (testResult lane msg s) := by
  unfold testResult
  repeat' first
    | with_reducible assumption | intro _ | (guard_target =~ Kept _ _ _; extract_lets +lift)
    | with_reducible refine State.takeTest_kept ?_ (inAll (by decide) hp) ?_
    | with_reducible refine State.verdict_kept ?_ (inAll (by decide) hp)
    | with_reducible refine State.setCmp_kept ?_ (inAll (by decide) hp) | with_reducible apply Kept.ite
    | (with_reducible refine Kept.fst (by assumption) ?_) | split

theorem testResultTimeout_kept {pts : List Part} {s0 : State} {slice : Fin 16} {s : State} (hk : Kept pts s0 s)
    (hp : [.regs, .pf0, .pf1, .rng, .prt, .mil, .out] ⊆ pts) : Kept pts s0 (testResultTimeout slice s) := by
  unfold testResultTimeout
  repeat' first
    | with_reducible assumption | intro _ | (guard_target =~ Kept _ _ _; extract_lets +lift)
    | with_reducible refine State.diverged_kept ?_ (inAll (by decide) hp)
    | with_reducible refine State.testEnd_kept ?_ (inAll (by decide) hp) | with_reducible apply Kept.ite
    | (with_reducible refine Kept.fst (by assumption) ?_) | split

theorem State.millRead_kept {pts : List Part} {s0 : State} {s : State} {r : Reg} {ix : Ix} (hk : Kept pts s0 s)
    (hp : [.regs, .pf0, .pf1, .rng, .mil, .out] ⊆ pts) : Kept pts s0 (s.millRead r ix).1 := by
  unfold State.millRead
  repeat' first
    | with_reducible assumption | intro _ | (guard_target =~ Kept _ _ _; extract_lets +lift)
    | with_reducible refine State.offline_kept ?_ (inAll (by decide) hp) | with_reducible apply Kept.ite
    | (with_reducible refine Kept.fst (by assumption) ?_) | split

theorem health_kept {pts : List Part} {s0 : State} {src : MillSrc} {s : State} (hk : Kept pts s0 s)
    (hp : [.regs, .pf0, .pf1, .rng, .mbx, .mil, .out] ⊆ pts) : Kept pts s0 (health src s) := by
  unfold health
  repeat' first
    | with_reducible assumption | intro _ | (guard_target =~ Kept _ _ _; extract_lets +lift)
    | with_reducible refine State.runCmd_kept ?_ (inAll (by decide) hp) ?_
    | with_reducible refine State.millRead_kept ?_ (inAll (by decide) hp)

theorem selftest_kept {pts : List Part} {s0 : State} {src : MillSrc} {failed : BitVec 16} {s : State}
    (hk : Kept pts s0 s) (hp : [.regs, .pf0, .pf1, .rng, .mbx, .mil, .out] ⊆ pts)
    : Kept pts s0 (selftest src failed s) := by
  unfold selftest
  repeat' first
    | with_reducible assumption | intro _ | (guard_target =~ Kept _ _ _; extract_lets +lift)
    | with_reducible refine State.runCmd_kept ?_ (inAll (by decide) hp) ?_
    | with_reducible refine State.healthTo_kept ?_ (inAll (by decide) hp) | with_reducible apply Kept.ite
    | (with_reducible apply Kept.foldl; rotate_left; intro _ _ _)
    | (with_reducible refine Kept.fst (by assumption) ?_) | split

theorem phase_kept {pts : List Part} {s0 : State} {src : MillSrc} {s : State} (hk : Kept pts s0 s)
    (hp : [.freeCtr, .regs, .shadow, .acc, .gen, .couch, .pf0, .pf1, .pce, .rng, .hostQ, .mbx, .sem, .ing, .tab, .asa, .cmt, .replQ, .bpm, .adm, .ddc, .qsc, .crd, .gates, .fab, .egr, .prt, .lin, .pmn, .tim, .mil, .arrivals, .out] ⊆ pts)
    : Kept pts s0 (phase src s) := by
  unfold phase
  repeat' first
    | with_reducible assumption | intro _ | (guard_target =~ Kept _ _ _; extract_lets +lift)
    | with_reducible refine State.runCmd_kept ?_ (inAll (by decide) hp) ?_
    | with_reducible refine phaseReqPark_kept ?_ (inAll (by decide) hp)
    | with_reducible refine phaseReqRun_kept ?_ (inAll (by decide) hp)
    | with_reducible refine phaseReqIsolate_kept ?_ (inAll (by decide) hp) | with_reducible apply Kept.ite
    | (with_reducible refine Kept.fst (by assumption) ?_) | split | dsimp +zetaDelta only

theorem domain_kept {pts : List Part} {s0 : State} {src : MillSrc} {s : State} (hk : Kept pts s0 s)
    (hp : [.freeCtr, .regs, .shadow, .acc, .gen, .couch, .pf0, .pf1, .pce, .rng, .hostQ, .mbx, .sem, .ing, .tab, .asa, .cmt, .replQ, .bpm, .adm, .ddc, .qsc, .crd, .gates, .fab, .egr, .prt, .lin, .pmn, .tim, .mil, .arrivals, .out] ⊆ pts)
    : Kept pts s0 (domain src s) := by
  unfold domain
  repeat' first
    | with_reducible assumption | intro _ | (guard_target =~ Kept _ _ _; extract_lets +lift)
    | with_reducible refine State.runCmd_kept ?_ (inAll (by decide) hp) ?_
    | with_reducible refine State.holdWrite_kept ?_ (inAll (by decide) hp)
    | with_reducible refine State.mill_kept ?_ (inAll (by decide) hp)
    | with_reducible refine millAnswer_kept ?_ (inAll (by decide) hp) | with_reducible apply Kept.ite
    | (with_reducible refine Kept.fst (by assumption) ?_) | split

theorem reset_kept {pts : List Part} {s0 : State} {src : MillSrc} {s : State} (hk : Kept pts s0 s)
    (hp : [.freeCtr, .regs, .shadow, .acc, .gen, .couch, .pf0, .pf1, .pce, .rng, .hostQ, .mbx, .sem, .ing, .tab, .asa, .cmt, .replQ, .bpm, .adm, .ddc, .qsc, .crd, .gates, .fab, .egr, .prt, .lin, .pmn, .tim, .mil, .arrivals, .out] ⊆ pts)
    : Kept pts s0 (reset src s) := by
  unfold reset
  repeat' first
    | with_reducible assumption | intro _ | (guard_target =~ Kept _ _ _; extract_lets +lift)
    | with_reducible refine State.runCmd_kept ?_ (inAll (by decide) hp) ?_
    | with_reducible refine State.mill_kept ?_ (inAll (by decide) hp)
    | with_reducible refine warmQx_kept ?_ (inAll (by decide) hp)
    | with_reducible refine Laws.cold_kept ?_ (inAll (by decide) hp)
    | with_reducible refine millAnswer_kept ?_ (inAll (by decide) hp) | with_reducible apply Kept.ite
    | (with_reducible refine Kept.fst (by assumption) ?_) | split

theorem spareStart_kept {pts : List Part} {s0 : State} {src : MillSrc} {s : State} (hk : Kept pts s0 s)
    (hp : [.regs, .acc, .pf0, .pf1, .rng, .mbx, .ddc, .mil, .out] ⊆ pts) : Kept pts s0 (spareStart src s) := by
  unfold spareStart
  repeat' first
    | with_reducible assumption | intro _ | (guard_target =~ Kept _ _ _; extract_lets +lift)
    | with_reducible refine State.runCmd_kept ?_ (inAll (by decide) hp) ?_
    | with_reducible refine State.spareStart_kept ?_ (inAll (by decide) hp)
    | with_reducible refine State.flushRw_kept ?_ (inAll (by decide) hp) | with_reducible apply Kept.ite
    | (with_reducible refine Kept.fst (by assumption) ?_) | split

theorem spareAuto_kept {pts : List Part} {s0 : State} {src : MillSrc} {s : State} (hk : Kept pts s0 s)
    (hp : [.mbx, .mil] ⊆ pts) : Kept pts s0 (spareAuto src s) := by
  unfold spareAuto
  repeat' first
    | with_reducible assumption | intro _ | (guard_target =~ Kept _ _ _; extract_lets +lift)
    | with_reducible refine State.runCmd_kept ?_ (inAll (by decide) hp) ?_
    | with_reducible refine State.mill_kept ?_ (inAll (by decide) hp) | with_reducible apply Kept.ite
    | (with_reducible refine Kept.fst (by assumption) ?_) | split

theorem partitionRead_kept {pts : List Part} {s0 : State} {src : MillSrc} {s : State} (hk : Kept pts s0 s)
    (hp : [.mbx] ⊆ pts) : Kept pts s0 (partitionRead src s) := by
  unfold partitionRead
  repeat' first
    | with_reducible assumption | intro _ | (guard_target =~ Kept _ _ _; extract_lets +lift)
    | with_reducible refine State.runCmd_kept ?_ (inAll (by decide) hp) ?_ | with_reducible apply Kept.ite
    | (with_reducible refine Kept.fst (by assumption) ?_) | split

theorem partitionWrite_kept {pts : List Part} {s0 : State} {src : MillSrc} {s : State} (hk : Kept pts s0 s)
    (hp : [.mbx, .mil] ⊆ pts) : Kept pts s0 (partitionWrite src s) := by
  unfold partitionWrite
  repeat' first
    | with_reducible assumption | intro _ | (guard_target =~ Kept _ _ _; extract_lets +lift)
    | with_reducible refine State.runCmd_kept ?_ (inAll (by decide) hp) ?_
    | with_reducible refine State.mill_kept ?_ (inAll (by decide) hp) | with_reducible apply Kept.ite
    | (with_reducible refine Kept.fst (by assumption) ?_) | split

theorem fabMacroRun_kept {pts : List Part} {s0 : State} {req : Req} {n : Fin 5} {v : W64} {s : State}
    (hk : Kept pts s0 s)
    (hp : [.freeCtr, .regs, .shadow, .acc, .gen, .pf0, .pf1, .rng, .sem, .fab, .prt, .pmn, .tim, .mil, .out] ⊆ pts)
    : Kept pts s0 (fabMacroRun req n v s) := by
  unfold fabMacroRun
  repeat' first
    | with_reducible assumption | intro _ | (guard_target =~ Kept _ _ _; extract_lets +lift)
    | with_reducible refine State.ownWrite_kept ?_ (inAll (by decide) hp)
    | with_reducible refine State.violation_kept ?_ (inAll (by decide) hp)
    | with_reducible refine State.set_kept ?_ (inAll (by decide) hp)
    | with_reducible refine State.watchSf_kept ?_ (inAll (by decide) hp) ?_
    | with_reducible refine State.linkReset_kept ?_ (inAll (by decide) hp)
    | with_reducible refine State.protJudge_kept ?_ (inAll (by decide) hp)
    | with_reducible refine State.settleFab_kept ?_ (inAll (by decide) hp)
    | with_reducible refine State.newMarkers_kept ?_ (inAll (by decide) hp)
    | with_reducible apply Kept.ite | (with_reducible apply Kept.foldl; rotate_left; intro _ _ _)

theorem State.setAlign_kept {pts : List Part} {s0 : State} {s : State} {lane : Lane} {a : AlignSt}
    (hk : Kept pts s0 s) (hp : [.fab, .prt] ⊆ pts) : Kept pts s0 (s.setAlign lane a) := by
  unfold State.setAlign
  repeat' first
    | with_reducible assumption | intro _ | (guard_target =~ Kept _ _ _; extract_lets +lift)
    | with_reducible refine State.modLink_kept ?_ (inAll (by decide) hp) | with_reducible apply Kept.ite
    | (with_reducible refine Kept.fst (by assumption) ?_)
    | (simp -zeta only [keptMk]; (with_reducible refine KeptMk.upd ?_ rfl ?_); rotate_left;
        · intro p; cases p <;> first | exact .inl (hp (by decide)) | (right; dsimp only [Part.same]))
    | split

theorem State.candOverflow_kept {pts : List Part} {s0 : State} {s : State} {a2 : Lane} (hk : Kept pts s0 s)
    (hp : [.regs] ⊆ pts) : Kept pts s0 (s.candOverflow a2) := by
  unfold State.candOverflow
  repeat' first
    | with_reducible assumption | intro _
    | with_reducible refine State.count_kept ?_ (inAll (by decide) hp) | with_reducible apply Kept.ite
    | (with_reducible refine Kept.fst (by assumption) ?_) | split

theorem State.searchMark_kept {pts : List Part} {s0 : State} {s : State} {lane : Lane} {pos : Nat} {k : MarkerKind}
    (hk : Kept pts s0 s) (hp : [.regs, .fab, .prt] ⊆ pts) : Kept pts s0 (s.searchMark lane pos k) := by
  unfold State.searchMark
  repeat' first
    | with_reducible assumption | intro _ | (guard_target =~ Kept _ _ _; extract_lets +lift)
    | with_reducible refine State.setAlign_kept ?_ (inAll (by decide) hp)
    | with_reducible refine State.candOverflow_kept ?_ (inAll (by decide) hp)
    | with_reducible apply Kept.ite | (with_reducible refine Kept.fst (by assumption) ?_) | split

theorem State.laneLost_kept {pts : List Part} {s0 : State} {s : State} {a2 : Lane} (hk : Kept pts s0 s)
    (hp : [.freeCtr, .regs, .gen, .pf0, .pf1, .rng, .sem, .fab, .prt, .pmn, .tim, .mil, .out] ⊆ pts)
    : Kept pts s0 (s.laneLost a2) := by
  unfold State.laneLost
  repeat' first
    | with_reducible assumption | intro _ | (guard_target =~ Kept _ _ _; extract_lets +lift)
    | with_reducible refine State.defectTo_kept ?_ (inAll (by decide) hp) ?_
    | with_reducible refine State.linkUnlock_kept ?_ (inAll (by decide) hp)
    | with_reducible refine State.protJudge_kept ?_ (inAll (by decide) hp)
    | with_reducible refine State.newFeltMarkers_kept ?_ (inAll (by decide) hp)
    | with_reducible refine State.setAlign_kept ?_ (inAll (by decide) hp) | with_reducible apply Kept.ite
    | (with_reducible refine Kept.fst (by assumption) ?_) | split

theorem State.markFields_kept {pts : List Part} {s0 : State} {s : State} {l : Nat} {m : List Byte}
    (hk : Kept pts s0 s) (hp : [.freeCtr, .regs, .gen, .pf0, .pf1, .rng, .sem, .fab, .prt, .tim, .mil, .out] ⊆ pts)
    : Kept pts s0 (s.markFields l m) := by
  unfold State.markFields
  repeat' first
    | with_reducible assumption | intro _ | (guard_target =~ Kept _ _ _; extract_lets +lift)
    | with_reducible refine State.set_kept ?_ (inAll (by decide) hp)
    | with_reducible refine State.modLink_kept ?_ (inAll (by decide) hp)
    | with_reducible refine State.protJudge_kept ?_ (inAll (by decide) hp)
    | with_reducible refine State.settleFab_kept ?_ (inAll (by decide) hp)
    | with_reducible refine State.raiseAt_kept ?_ (inAll (by decide) hp) | with_reducible apply Kept.ite

theorem State.lockedMark_kept {pts : List Part} {s0 : State} {s : State} {lane : Lane} {m : List Byte}
    {k : MarkerKind} (hk : Kept pts s0 s)
    (hp : [.freeCtr, .regs, .gen, .pf0, .pf1, .rng, .sem, .fab, .prt, .pmn, .tim, .mil, .out] ⊆ pts)
    : Kept pts s0 (s.lockedMark lane m k) := by
  unfold State.lockedMark
  repeat' first
    | with_reducible assumption | intro _ | (guard_target =~ Kept _ _ _; extract_lets +lift)
    | with_reducible refine State.modLink_kept ?_ (inAll (by decide) hp)
    | with_reducible refine State.laneLost_kept ?_ (inAll (by decide) hp)
    | with_reducible refine State.setAlign_kept ?_ (inAll (by decide) hp)
    | with_reducible refine State.protJudge_kept ?_ (inAll (by decide) hp)
    | with_reducible refine State.settleFab_kept ?_ (inAll (by decide) hp)
    | with_reducible refine State.markFields_kept ?_ (inAll (by decide) hp)
    | with_reducible apply Kept.ite | (with_reducible refine Kept.fst (by assumption) ?_) | split
    | dsimp +zetaDelta only

theorem markerReceive_kept {pts : List Part} {s0 : State} {lane : Lane} {pos : Fin 174080} {marker : List Byte}
    {s : State} (hk : Kept pts s0 s)
    (hp : [.freeCtr, .regs, .gen, .pf0, .pf1, .rng, .sem, .fab, .prt, .pmn, .tim, .mil, .out] ⊆ pts)
    : Kept pts s0 (markerReceive lane pos marker s) := by
  unfold markerReceive
  repeat' first
    | with_reducible assumption | intro _ | (guard_target =~ Kept _ _ _; extract_lets +lift)
    | with_reducible refine State.lockedMark_kept ?_ (inAll (by decide) hp)
    | with_reducible refine State.searchMark_kept ?_ (inAll (by decide) hp)
    | with_reducible apply Kept.ite | (with_reducible refine Kept.fst (by assumption) ?_) | split

theorem searchWindowEnd_kept {pts : List Part} {s0 : State} {lane : Lane} {s : State} (hk : Kept pts s0 s)
    (hp : [.freeCtr, .regs, .gen, .pf0, .pf1, .rng, .sem, .fab, .prt, .pmn, .tim, .mil, .out] ⊆ pts)
    : Kept pts s0 (searchWindowEnd lane s) := by
  unfold searchWindowEnd
  repeat' first
    | with_reducible assumption | intro _ | (guard_target =~ Kept _ _ _; extract_lets +lift)
    | with_reducible refine State.setAlign_kept ?_ (inAll (by decide) hp)
    | with_reducible refine State.defectTo_kept ?_ (inAll (by decide) hp) ?_
    | with_reducible refine State.newMarkers_kept ?_ (inAll (by decide) hp)
    | with_reducible refine State.raiseAt_kept ?_ (inAll (by decide) hp)
    | with_reducible refine State.protJudge_kept ?_ (inAll (by decide) hp)
    | with_reducible refine State.newFeltMarkers_kept ?_ (inAll (by decide) hp)
    | with_reducible refine State.count_kept ?_ (inAll (by decide) hp) | with_reducible apply Kept.ite
    | (with_reducible refine Kept.fst (by assumption) ?_) | split

theorem sprayRejoin_kept {pts : List Part} {s0 : State} {l : Fin 320} {s : State} (hk : Kept pts s0 s)
    (hp : [.freeCtr, .regs, .gen, .pf0, .pf1, .rng, .sem, .fab, .prt, .tim, .mil, .out] ⊆ pts)
    : Kept pts s0 (sprayRejoin l s) := by
  unfold sprayRejoin
  repeat' first
    | with_reducible assumption | intro _ | (guard_target =~ Kept _ _ _; extract_lets +lift)
    | with_reducible refine State.protJudge_kept ?_ (inAll (by decide) hp)
    | with_reducible refine State.settleFab_kept ?_ (inAll (by decide) hp)
    | with_reducible refine State.modLink_kept ?_ (inAll (by decide) hp) | with_reducible apply Kept.ite

theorem State.delinLost_kept {pts : List Part} {s0 : State} {s : State} {l : Nat} (hk : Kept pts s0 s)
    (hp : [.regs, .fab] ⊆ pts) : Kept pts s0 (s.delinLost l) := by
  unfold State.delinLost
  repeat' first
    | with_reducible assumption | intro _ | (guard_target =~ Kept _ _ _; extract_lets +lift)
    | with_reducible refine State.modLink_kept ?_ (inAll (by decide) hp)
    | with_reducible refine State.count_kept ?_ (inAll (by decide) hp)

theorem State.misaddr_kept {pts : List Part} {s0 : State} {s : State} {src : Nat} (hk : Kept pts s0 s)
    (hp : [.regs, .pf0, .pf1, .rng, .mil, .out] ⊆ pts) : Kept pts s0 (s.misaddr src) := by
  unfold State.misaddr
  repeat' first
    | with_reducible assumption | intro _ | (guard_target =~ Kept _ _ _; extract_lets +lift)
    | with_reducible refine State.raiseAt_kept ?_ (inAll (by decide) hp)
    | with_reducible refine State.count_kept ?_ (inAll (by decide) hp)

theorem State.putMsgs_kept {pts : List Part} {s0 : State} {s : State} {src : Nat} {payload : List Byte}
    (hk : Kept pts s0 s) (hp : [.fab] ⊆ pts) : Kept pts s0 (s.putMsgs src payload) := by
  unfold State.putMsgs
  repeat' first
    | with_reducible assumption | intro _ | (guard_target =~ Kept _ _ _; extract_lets +lift)
    | with_reducible refine State.putRx_kept ?_ (inAll (by decide) hp) | with_reducible apply Kept.ite
    | (with_reducible apply Kept.foldl; rotate_left; intro _ _ _)
    | (with_reducible refine Kept.fst (by assumption) ?_) | split

theorem State.acceptCell_kept {pts : List Part} {s0 : State} {s : State} {l : Nat} {type : Nat} {dest : Nat}
    {pair : Bool} {src : Nat} {body : RxCell} {payload : List Byte} (hk : Kept pts s0 s)
    (hp : [.regs, .pf0, .pf1, .rng, .fab, .mil, .out] ⊆ pts)
    : Kept pts s0 (s.acceptCell l type dest pair src body payload) := by
  unfold State.acceptCell
  repeat' first
    | with_reducible assumption | intro _ | (guard_target =~ Kept _ _ _; extract_lets +lift)
    | with_reducible refine State.putRx_kept ?_ (inAll (by decide) hp)
    | with_reducible refine State.putMsgs_kept ?_ (inAll (by decide) hp)
    | with_reducible refine State.misaddr_kept ?_ (inAll (by decide) hp) | with_reducible apply Kept.ite

theorem State.nativeCell_kept {pts : List Part} {s0 : State} {s : State} {l : Nat} {c : List Byte}
    (hk : Kept pts s0 s) (hp : [.regs, .pf0, .pf1, .rng, .fab, .mil, .out] ⊆ pts)
    : Kept pts s0 (s.nativeCell l c) := by
  unfold State.nativeCell
  repeat' first
    | with_reducible assumption | intro _ | (guard_target =~ Kept _ _ _; extract_lets +lift)
    | with_reducible refine State.delinLost_kept ?_ (inAll (by decide) hp)
    | with_reducible refine State.count_kept ?_ (inAll (by decide) hp)
    | with_reducible refine State.acceptCell_kept ?_ (inAll (by decide) hp)
    | with_reducible apply Kept.ite

theorem State.legacyCell_kept {pts : List Part} {s0 : State} {s : State} {l : Nat} {c : List Byte}
    (hk : Kept pts s0 s) (hp : [.regs, .pf0, .pf1, .rng, .fab, .mil, .out] ⊆ pts)
    : Kept pts s0 (s.legacyCell l c) := by
  unfold State.legacyCell
  repeat' first
    | with_reducible assumption | intro _ | (guard_target =~ Kept _ _ _; extract_lets +lift)
    | with_reducible refine State.delinLost_kept ?_ (inAll (by decide) hp)
    | with_reducible refine State.count_kept ?_ (inAll (by decide) hp)
    | with_reducible refine State.acceptCell_kept ?_ (inAll (by decide) hp)
    | with_reducible apply Kept.ite

theorem cellReceive_kept {pts : List Part} {s0 : State} {l : Fin 320} {cell : List Byte} {s : State}
    (hk : Kept pts s0 s) (hp : [.regs, .pf0, .pf1, .rng, .fab, .mil, .out] ⊆ pts)
    : Kept pts s0 (cellReceive l cell s) := by
  unfold cellReceive
  repeat' first
    | with_reducible assumption | intro _ | (guard_target =~ Kept _ _ _; extract_lets +lift)
    | with_reducible refine State.legacyCell_kept ?_ (inAll (by decide) hp)
    | with_reducible refine State.nativeCell_kept ?_ (inAll (by decide) hp)
    | with_reducible apply Kept.ite

theorem advert_kept {pts : List Part} {s0 : State} {s : State} (hk : Kept pts s0 s) (hp : [.fab] ⊆ pts)
    : Kept pts s0 (advert s) := by
  unfold advert
  repeat' first
    | with_reducible assumption | intro _ | (guard_target =~ Kept _ _ _; extract_lets +lift)
    | with_reducible refine State.modLink_kept ?_ (inAll (by decide) hp) | with_reducible apply Kept.ite
    | (with_reducible apply Kept.foldl; rotate_left; intro _ _ _)

theorem reach_kept {pts : List Part} {s0 : State} {s : State} (hk : Kept pts s0 s)
    (hp : [.freeCtr, .regs, .gen, .pf0, .pf1, .rng, .sem, .fab, .prt, .tim, .mil, .out] ⊆ pts)
    : Kept pts s0 (reach s) := by
  unfold reach
  repeat' first
    | with_reducible assumption | intro _ | (guard_target =~ Kept _ _ _; extract_lets +lift)
    | with_reducible refine State.protJudge_kept ?_ (inAll (by decide) hp)
    | with_reducible refine State.settleFab_kept ?_ (inAll (by decide) hp)
    | with_reducible refine State.modLink_kept ?_ (inAll (by decide) hp)
    | with_reducible refine State.takeRx_kept ?_ (inAll (by decide) hp) (by assumption)
    | with_reducible apply Kept.ite | (with_reducible refine Kept.fst (by assumption) ?_) | split
    | dsimp +zetaDelta only

theorem reachTimeout_kept {pts : List Part} {s0 : State} {l : Fin 320} {block : Fin 8} {s : State}
    (hk : Kept pts s0 s) (hp : [.freeCtr, .regs, .gen, .pf0, .pf1, .rng, .sem, .fab, .prt, .tim, .mil, .out] ⊆ pts)
    : Kept pts s0 (reachTimeout l block s) := by
  unfold reachTimeout
  repeat' first
    | with_reducible assumption | intro _ | (guard_target =~ Kept _ _ _; extract_lets +lift)
    | with_reducible refine State.protJudge_kept ?_ (inAll (by decide) hp)
    | with_reducible refine State.settleFab_kept ?_ (inAll (by decide) hp)
    | with_reducible refine State.modLink_kept ?_ (inAll (by decide) hp)

theorem unreachHoldExpiry_kept {pts : List Part} {s0 : State} {d : Fin 2048} {pair : Bool} {s : State}
    (hk : Kept pts s0 s) (hp : [.regs, .pf0, .pf1, .rng, .bpm, .adm, .qsc, .fab, .lin, .mil, .out] ⊆ pts)
    : Kept pts s0 (unreachHoldExpiry d pair s) := by
  unfold unreachHoldExpiry
  repeat' first
    | with_reducible assumption | intro _ | (guard_target =~ Kept _ _ _; extract_lets +lift)
    | with_reducible refine State.dropHead_kept ?_ (inAll (by decide) hp) | with_reducible apply Kept.ite
    | (with_reducible apply Kept.foldl; rotate_left; intro _ _ _)
    | (with_reducible refine Kept.fst (by assumption) ?_)
    | (simp -zeta only [keptMk]; (with_reducible refine KeptMk.upd ?_ rfl ?_); rotate_left;
        · intro p; cases p <;> first | exact .inl (hp (by decide)) | (right; dsimp only [Part.same]))
    | split | dsimp +zetaDelta only

theorem State.departed_kept {pts : List Part} {s0 : State} {s : State} {m : CtlMsg} (hk : Kept pts s0 s)
    (hp : [.tim] ⊆ pts) : Kept pts s0 (s.departed m) := by
  unfold State.departed
  repeat' first
    | with_reducible assumption | intro _ | (guard_target =~ Kept _ _ _; extract_lets +lift)
    | with_reducible apply Kept.ite | (with_reducible refine Kept.fst (by assumption) ?_)
    | (simp -zeta only [keptMk]; (with_reducible refine KeptMk.tim ?_ ⟨rfl, rfl, rfl⟩ ?_); rotate_left; · exact hp (by decide))
    | split

theorem cellTransmit_kept {pts : List Part} {s0 : State} {l : Fin 320} {s : State} (hk : Kept pts s0 s)
    (hp : [.fab, .tim, .out] ⊆ pts) : Kept pts s0 (cellTransmit l s) := by
  unfold cellTransmit
  repeat' first
    | with_reducible assumption | intro _ | (guard_target =~ Kept _ _ _; extract_lets +lift)
    | with_reducible refine State.emit_kept ?_ (inAll (by decide) hp)
    | with_reducible refine State.setLink_kept ?_ (inAll (by decide) hp)
    | with_reducible refine State.departed_kept ?_ (inAll (by decide) hp) | with_reducible apply Kept.ite
    | (with_reducible apply Kept.foldl; rotate_left; intro _ _ _)
    | (with_reducible refine Kept.fst (by assumption) ?_) | split | dsimp +zetaDelta only

theorem seqRestart_kept {pts : List Part} {s0 : State} {d : Fin 2048} {pair : Bool} {s : State} (hk : Kept pts s0 s)
    (hp : [.fab] ⊆ pts) : Kept pts s0 (seqRestart d pair s) := by
  unfold seqRestart
  repeat' first
    | with_reducible assumption | intro _ | (guard_target =~ Kept _ _ _; extract_lets +lift)
    | with_reducible apply Kept.ite | (with_reducible refine Kept.fst (by assumption) ?_)
    | (simp -zeta only [keptMk]; (with_reducible refine KeptMk.upd ?_ rfl ?_); rotate_left;
        · intro p; cases p <;> first | exact .inl (hp (by decide)) | (right; dsimp only [Part.same]))

theorem heartbeatSend_kept {pts : List Part} {s0 : State} {s : State} (hk : Kept pts s0 s) (hp : [.fab] ⊆ pts)
    : Kept pts s0 (heartbeatSend s) := by
  unfold heartbeatSend
  repeat' first
    | with_reducible assumption | intro _ | (guard_target =~ Kept _ _ _; extract_lets +lift)
    | with_reducible refine State.sendCtl_kept ?_ (inAll (by decide) hp) | with_reducible apply Kept.ite
    | (with_reducible apply Kept.foldl; rotate_left; intro _ _ _)
    | (with_reducible refine Kept.fst (by assumption) ?_)
    | (simp -zeta only [keptMk]; (with_reducible refine KeptMk.upd ?_ rfl ?_); rotate_left;
        · intro p; cases p <;> first | exact .inl (hp (by decide)) | (right; dsimp only [Part.same]))

theorem State.mateBeat_kept {pts : List Part} {s0 : State} {s : State} {active : Nat} (hk : Kept pts s0 s)
    (hp : [.prt] ⊆ pts) : Kept pts s0 (s.mateBeat active) := by
  unfold State.mateBeat
  repeat' first
    | with_reducible assumption | intro _ | (guard_target =~ Kept _ _ _; extract_lets +lift)
    | with_reducible apply Kept.ite | (with_reducible refine Kept.fst (by assumption) ?_)
    | (simp -zeta only [keptMk]; (with_reducible refine KeptMk.upd ?_ rfl ?_); rotate_left;
        · intro p; cases p <;> first | exact .inl (hp (by decide)) | (right; dsimp only [Part.same]))

theorem heartbeat_kept {pts : List Part} {s0 : State} {s : State} (hk : Kept pts s0 s)
    (hp : [.freeCtr, .regs, .gen, .pf0, .pf1, .rng, .sem, .fab, .prt, .tim, .mil, .out] ⊆ pts)
    : Kept pts s0 (heartbeat s) := by
  unfold heartbeat
  repeat' first
    | with_reducible assumption | intro _ | (guard_target =~ Kept _ _ _; extract_lets +lift)
    | with_reducible refine State.raiseAt_kept ?_ (inAll (by decide) hp)
    | with_reducible refine State.mateBeat_kept ?_ (inAll (by decide) hp)
    | with_reducible refine State.protJudge_kept ?_ (inAll (by decide) hp)
    | with_reducible refine State.settleReach_kept ?_ (inAll (by decide) hp)
    | with_reducible refine State.takeRx_kept ?_ (inAll (by decide) hp) (by assumption)
    | with_reducible apply Kept.ite | (with_reducible refine Kept.fst (by assumption) ?_)
    | (simp -zeta only [keptMk]; (with_reducible refine KeptMk.upd ?_ rfl ?_); rotate_left;
        · intro p; cases p <;> first | exact .inl (hp (by decide)) | (right; dsimp only [Part.same]))
    | split

theorem heartbeatLost_kept {pts : List Part} {s0 : State} {src : Fin 2048} {s : State} (hk : Kept pts s0 s)
    (hp : [.freeCtr, .regs, .gen, .pf0, .pf1, .rng, .sem, .fab, .prt, .tim, .mil, .out] ⊆ pts)
    : Kept pts s0 (heartbeatLost src s) := by
  unfold heartbeatLost
  repeat' first
    | with_reducible assumption | intro _ | (guard_target =~ Kept _ _ _; extract_lets +lift)
    | with_reducible refine State.raiseAt_kept ?_ (inAll (by decide) hp)
    | with_reducible refine State.protJudge_kept ?_ (inAll (by decide) hp)
    | with_reducible refine State.settleReach_kept ?_ (inAll (by decide) hp)
    | with_reducible apply Kept.ite | (with_reducible refine Kept.fst (by assumption) ?_)
    | (simp -zeta only [keptMk]; (with_reducible refine KeptMk.upd ?_ rfl ?_); rotate_left;
        · intro p; cases p <;> first | exact .inl (hp (by decide)) | (right; dsimp only [Part.same]))
    | split | dsimp +zetaDelta only

theorem State.fabLoss_kept {pts : List Part} {s0 : State} {s : State} (hk : Kept pts s0 s)
    (hp : [.regs, .pf0, .pf1, .rng, .mil, .out] ⊆ pts) : Kept pts s0 (s.fabLoss) := by
  unfold State.fabLoss
  repeat' first
    | with_reducible assumption | intro _ | (guard_target =~ Kept _ _ _; extract_lets +lift)
    | with_reducible refine State.raise_kept ?_ (inAll (by decide) hp)
    | with_reducible refine State.count_kept ?_ (inAll (by decide) hp)

theorem State.toPlayout_kept {pts : List Part} {s0 : State} {s : State} {k : Nat} {c : SlotCell} (hk : Kept pts s0 s)
    (hp : [.regs, .pf0, .pf1, .rng, .lin, .mil, .out] ⊆ pts) : Kept pts s0 (s.toPlayout k c) := by
  unfold State.toPlayout
  repeat' first
    | with_reducible assumption | intro _ | (guard_target =~ Kept _ _ _; extract_lets +lift)
    | with_reducible refine State.fabLoss_kept ?_ (inAll (by decide) hp) | with_reducible apply Kept.ite
    | (with_reducible refine Kept.fst (by assumption) ?_)
    | (simp -zeta only [keptMk]; (with_reducible refine KeptMk.upd ?_ rfl ?_); rotate_left;
        · intro p; cases p <;> first | exact .inl (hp (by decide)) | (right; dsimp only [Part.same]))

theorem slotCell_kept {pts : List Part} {s0 : State} {s : State} (hk : Kept pts s0 s)
    (hp : [.regs, .pf0, .pf1, .rng, .fab, .lin, .mil, .out] ⊆ pts) : Kept pts s0 (slotCell s) := by
  unfold slotCell
  repeat' first
    | with_reducible assumption | intro _ | (guard_target =~ Kept _ _ _; extract_lets +lift)
    | with_reducible refine State.fabLoss_kept ?_ (inAll (by decide) hp)
    | with_reducible refine State.toPlayout_kept ?_ (inAll (by decide) hp)
    | with_reducible refine State.takeRx_kept ?_ (inAll (by decide) hp) (by assumption)
    | with_reducible apply Kept.ite | (with_reducible refine Kept.fst (by assumption) ?_) | split

theorem playoutTurn_kept {pts : List Part} {s0 : State} {src : Fin 2048} {ckt : Fin 4096} {member : Fin 256}
    {s : State} (hk : Kept pts s0 s) (hp : [.regs, .pf0, .pf1, .rng, .lin, .mil, .out] ⊆ pts)
    : Kept pts s0 (playoutTurn src ckt member s) := by
  unfold playoutTurn
  repeat' first
    | with_reducible assumption | intro _ | (guard_target =~ Kept _ _ _; extract_lets +lift)
    | with_reducible refine State.emit_kept ?_ (inAll (by decide) hp)
    | with_reducible refine State.fabLoss_kept ?_ (inAll (by decide) hp) | with_reducible apply Kept.ite
    | (with_reducible refine Kept.fst (by assumption) ?_)
    | (simp -zeta only [keptMk]; (with_reducible refine KeptMk.upd ?_ rfl ?_); rotate_left;
        · intro p; cases p <;> first | exact .inl (hp (by decide)) | (right; dsimp only [Part.same]))
    | split | dsimp +zetaDelta only

theorem State.setCtx_kept {pts : List Part} {s0 : State} {s : State} {src : Nat} {x : ReorderSt} (hk : Kept pts s0 s)
    (hp : [.fab] ⊆ pts) : Kept pts s0 (s.setCtx src x) := by
  unfold State.setCtx
  repeat' first
    | with_reducible assumption | intro _ | (guard_target =~ Kept _ _ _; extract_lets +lift)
    | with_reducible apply Kept.ite | (with_reducible refine Kept.fst (by assumption) ?_)
    | (simp -zeta only [keptMk]; (with_reducible refine KeptMk.upd ?_ rfl ?_); rotate_left;
        · intro p; cases p <;> first | exact .inl (hp (by decide)) | (right; dsimp only [Part.same]))

theorem State.deliver_kept {pts : List Part} {s0 : State} {s : State} {c : DataCell} (hk : Kept pts s0 s)
    (hp : [.regs, .pf0, .pf1, .rng, .bpm, .adm, .fab, .mil, .out] ⊆ pts) : Kept pts s0 (s.deliver c) := by
  unfold State.deliver
  repeat' first
    | with_reducible assumption | intro _ | (guard_target =~ Kept _ _ _; extract_lets +lift)
    | with_reducible refine State.setCtx_kept ?_ (inAll (by decide) hp)
    | with_reducible refine State.reassembled_kept ?_ (inAll (by decide) hp)
    | with_reducible apply Kept.ite | (with_reducible apply Kept.foldl; rotate_left; intro _ _ _)

theorem State.drain_kept {pts : List Part} {s0 : State} {s : State} {src : Nat} {a3 : Nat} (hk : Kept pts s0 s)
    (hp : [.regs, .pf0, .pf1, .rng, .bpm, .adm, .fab, .mil, .out] ⊆ pts) : Kept pts s0 (s.drain src a3) := by
  induction a3 generalizing s <;> (
    unfold State.drain
    repeat' first
      | with_reducible assumption | intro _ | with_reducible apply_assumption
      | (guard_target =~ Kept _ _ _; extract_lets +lift)
      | with_reducible refine State.deliver_kept ?_ (inAll (by decide) hp)
      | with_reducible refine State.setCtx_kept ?_ (inAll (by decide) hp) | with_reducible apply Kept.ite
      | (with_reducible apply Kept.foldl; rotate_left; intro _ _ _)
      | (with_reducible apply Kept.foldl_fst; rotate_left; intro _ _ _)
      | (with_reducible refine Kept.fst (by assumption) ?_)
      | (simp -zeta only [keptMk]; (with_reducible refine KeptMk.upd ?_ rfl ?_); rotate_left;
          · intro p; cases p <;> first | exact .inl (hp (by decide)) | (right; dsimp only [Part.same]))
      | split | dsimp +zetaDelta only)

theorem State.packetLost_kept {pts : List Part} {s0 : State} {s : State} {len : Nat} (hk : Kept pts s0 s)
    (hp : [.regs] ⊆ pts) : Kept pts s0 (s.packetLost len) := by
  unfold State.packetLost
  repeat' first
    | with_reducible assumption | intro _
    | with_reducible refine State.countDrop_kept ?_ (inAll (by decide) hp)

theorem State.streamsLost_kept {pts : List Part} {s0 : State} {s : State} {src : Nat} {skip : Bool}
    (hk : Kept pts s0 s) (hp : [.regs, .fab] ⊆ pts) : Kept pts s0 (s.streamsLost src skip) := by
  unfold State.streamsLost
  repeat' first
    | with_reducible assumption | intro _ | (guard_target =~ Kept _ _ _; extract_lets +lift)
    | with_reducible refine State.packetLost_kept ?_ (inAll (by decide) hp)
    | with_reducible refine State.setCtx_kept ?_ (inAll (by decide) hp) | with_reducible apply Kept.ite
    | (with_reducible apply Kept.foldl; rotate_left; intro _ _ _)
    | (with_reducible refine Kept.fst (by assumption) ?_) | split

theorem State.gapLost_kept {pts : List Part} {s0 : State} {s : State} {src : Nat} (hk : Kept pts s0 s)
    (hp : [.regs, .pf0, .pf1, .rng, .bpm, .adm, .fab, .mil, .out] ⊆ pts) : Kept pts s0 (s.gapLost src) := by
  unfold State.gapLost
  repeat' first
    | with_reducible assumption | intro _ | (guard_target =~ Kept _ _ _; extract_lets +lift)
    | with_reducible refine State.count_kept ?_ (inAll (by decide) hp)
    | with_reducible refine State.streamsLost_kept ?_ (inAll (by decide) hp)
    | with_reducible refine State.setCtx_kept ?_ (inAll (by decide) hp)
    | with_reducible refine State.drain_kept ?_ (inAll (by decide) hp)
    | with_reducible refine State.raiseAt_kept ?_ (inAll (by decide) hp) | with_reducible apply Kept.ite
    | (with_reducible refine Kept.fst (by assumption) ?_) | split

theorem State.gapsLost_kept {pts : List Part} {s0 : State} {s : State} {src : Nat} {all : Bool} {a4 : Nat}
    (hk : Kept pts s0 s) (hp : [.regs, .pf0, .pf1, .rng, .bpm, .adm, .fab, .mil, .out] ⊆ pts)
    : Kept pts s0 (s.gapsLost src all a4) := by
  induction a4 generalizing s <;> (
    unfold State.gapsLost
    repeat' first
      | with_reducible assumption | intro _ | with_reducible apply_assumption
      | (guard_target =~ Kept _ _ _; extract_lets +lift)
      | with_reducible refine State.gapLost_kept ?_ (inAll (by decide) hp) | with_reducible apply Kept.ite
      | (with_reducible apply Kept.foldl; rotate_left; intro _ _ _)
      | (with_reducible apply Kept.foldl_fst; rotate_left; intro _ _ _)
      | (with_reducible refine Kept.fst (by assumption) ?_)
      | (simp -zeta only [keptMk]; (with_reducible refine KeptMk.upd ?_ rfl ?_); rotate_left;
          · intro p; cases p <;> first | exact .inl (hp (by decide)) | (right; dsimp only [Part.same]))
      | split | dsimp +zetaDelta only)

theorem State.newEpoch_kept {pts : List Part} {s0 : State} {s : State} {src : Nat} {epoch : Nat} (hk : Kept pts s0 s)
    (hp : [.regs, .fab] ⊆ pts) : Kept pts s0 (s.newEpoch src epoch) := by
  unfold State.newEpoch
  repeat' first
    | with_reducible assumption | intro _ | (guard_target =~ Kept _ _ _; extract_lets +lift)
    | with_reducible refine State.count_kept ?_ (inAll (by decide) hp)
    | with_reducible refine State.packetLost_kept ?_ (inAll (by decide) hp)
    | with_reducible refine State.setCtx_kept ?_ (inAll (by decide) hp)
    | with_reducible refine State.streamsLost_kept ?_ (inAll (by decide) hp)
    | with_reducible apply Kept.ite | (with_reducible apply Kept.foldl; rotate_left; intro _ _ _)

theorem State.enterCell_kept {pts : List Part} {s0 : State} {s : State} {c : DataCell} (hk : Kept pts s0 s)
    (hp : [.regs, .pf0, .pf1, .rng, .bpm, .adm, .fab, .mil, .out] ⊆ pts) : Kept pts s0 (s.enterCell c) := by
  unfold State.enterCell
  repeat' first
    | with_reducible assumption | intro _ | (guard_target =~ Kept _ _ _; extract_lets +lift)
    | with_reducible refine State.setCtx_kept ?_ (inAll (by decide) hp)
    | with_reducible refine State.streamsLost_kept ?_ (inAll (by decide) hp)
    | with_reducible refine State.newEpoch_kept ?_ (inAll (by decide) hp)
    | with_reducible refine State.count_kept ?_ (inAll (by decide) hp)
    | with_reducible refine State.drain_kept ?_ (inAll (by decide) hp)
    | with_reducible refine State.deliver_kept ?_ (inAll (by decide) hp) | with_reducible apply Kept.ite
    | (with_reducible refine Kept.fst (by assumption) ?_) | split

theorem dataCell_kept {pts : List Part} {s0 : State} {s : State} (hk : Kept pts s0 s)
    (hp : [.regs, .pf0, .pf1, .rng, .bpm, .adm, .fab, .mil, .out] ⊆ pts) : Kept pts s0 (dataCell s) := by
  unfold dataCell
  repeat' first
    | with_reducible assumption | intro _ | (guard_target =~ Kept _ _ _; extract_lets +lift)
    | with_reducible refine State.enterCell_kept ?_ (inAll (by decide) hp)
    | with_reducible refine State.takeRx_kept ?_ (inAll (by decide) hp) (by assumption)
    | with_reducible apply Kept.ite | (with_reducible refine Kept.fst (by assumption) ?_) | split

theorem reorderTimeout_kept {pts : List Part} {s0 : State} {src : Fin 2048} {s : State} (hk : Kept pts s0 s)
    (hp : [.regs, .pf0, .pf1, .rng, .bpm, .adm, .fab, .mil, .out] ⊆ pts) : Kept pts s0 (reorderTimeout src s) := by
  unfold reorderTimeout
  repeat' first
    | with_reducible assumption | intro _ | (guard_target =~ Kept _ _ _; extract_lets +lift)
    | with_reducible refine State.gapsLost_kept ?_ (inAll (by decide) hp)
    | with_reducible refine State.gapLost_kept ?_ (inAll (by decide) hp)

theorem reorderIdle_kept {pts : List Part} {s0 : State} {src : Fin 2048} {s : State} (hk : Kept pts s0 s)
    (hp : [.regs, .pf0, .pf1, .rng, .bpm, .adm, .fab, .mil, .out] ⊆ pts) : Kept pts s0 (reorderIdle src s) := by
  unfold reorderIdle
  repeat' first
    | with_reducible assumption | intro _ | (guard_target =~ Kept _ _ _; extract_lets +lift)
    | with_reducible refine State.gapsLost_kept ?_ (inAll (by decide) hp)
    | with_reducible refine State.setCtx_kept ?_ (inAll (by decide) hp)

theorem State.readChain_kept {pts : List Part} {s0 : State} {tag : Nat} {a2 : Nat} {a3 : Nat} {s : State}
    (hk : Kept pts s0 s) (hp : [.regs, .pf0, .pf1, .rng, .mil, .out] ⊆ pts)
    : Kept pts s0 (State.readChain tag a2 a3 s).1 := by
  induction a2 generalizing s a3 with
  | zero => exact hk
  | succ n ih =>
    unfold State.readChain
    repeat' split
    any_goals exact hk
    · change Kept pts s0 (s.logBad tRewrite a3 false)
      exact State.logBad_kept hk (inAll (by decide) hp)
    all_goals exact Kept.fst (by assumption) (ih hk)

theorem State.egrLookup_kept {pts : List Part} {s0 : State} {s : State} {r : LkReq} {tag : Nat}
    {upset : List TableWord} {paths : List (List (BitVec 24))} (hk : Kept pts s0 s)
    (hp : [.freeCtr, .regs, .pf0, .pf1, .rng, .tab, .asa, .cmt, .mil, .out] ⊆ pts)
    : Kept pts s0 (s.egrLookup r tag upset paths).1 := by
  unfold State.egrLookup
  repeat' first
    | with_reducible assumption | intro _ | (guard_target =~ Kept _ _ _; extract_lets +lift)
    | with_reducible refine State.emUpsets_kept ?_ (inAll (by decide) hp)
    | with_reducible refine State.routeFind_kept ?_ (inAll (by decide) hp)
    | with_reducible refine State.asaLookup_kept ?_ (inAll (by decide) hp) | with_reducible apply Kept.ite
    | (with_reducible refine Kept.fst (by assumption) ?_) | split

theorem State.egrLookups_kept {pts : List Part} {s0 : State} {s : State} {tag : Nat} {upset : List TableWord}
    {paths : List (List (BitVec 24))} {a5 : List LkReq} (hk : Kept pts s0 s)
    (hp : [.freeCtr, .regs, .pf0, .pf1, .rng, .tab, .asa, .cmt, .mil, .out] ⊆ pts)
    : Kept pts s0 (s.egrLookups tag upset paths a5).1 := by
  induction a5 generalizing s <;> (
    unfold State.egrLookups
    repeat' first
      | with_reducible assumption | intro _ | with_reducible apply_assumption
      | (guard_target =~ Kept _ _ _; extract_lets +lift)
      | with_reducible refine State.egrLookup_kept ?_ (inAll (by decide) hp)
      | with_reducible apply Kept.ite | (with_reducible apply Kept.foldl; rotate_left; intro _ _ _)
      | (with_reducible apply Kept.foldl_fst; rotate_left; intro _ _ _)
      | (with_reducible refine Kept.fst (by assumption) ?_)
      | (simp -zeta only [keptMk]; (with_reducible refine KeptMk.upd ?_ rfl ?_); rotate_left;
          · intro p; cases p <;> first | exact .inl (hp (by decide)) | (right; dsimp only [Part.same]))
      | split | dsimp +zetaDelta only)

theorem State.sendBack_kept {pts : List Part} {s0 : State} {s : State} {slice : Nat} {o : PipeOut}
    (hk : Kept pts s0 s) (hp : [.regs, .couch] ⊆ pts) : Kept pts s0 (s.sendBack slice o) := by
  unfold State.sendBack
  repeat' first
    | with_reducible assumption | intro _
    | with_reducible refine State.couchSend_kept ?_ (inAll (by decide) hp)

theorem State.backHost_kept {pts : List Part} {s0 : State} {s : State} {slice : Nat} {ring : Nat} {cause : Nat}
    {p : EgrPkt} {bytes : List Byte} (hk : Kept pts s0 s) (hp : [.regs, .couch] ⊆ pts)
    : Kept pts s0 (s.backHost slice ring cause p bytes) := by
  unfold State.backHost
  repeat' first
    | with_reducible assumption | intro _ | (guard_target =~ Kept _ _ _; extract_lets +lift)
    | with_reducible refine State.sendBack_kept ?_ (inAll (by decide) hp)

theorem State.egrDropped_kept {pts : List Part} {s0 : State} {s : State} {cause : Nat} {bytes : List Byte}
    (hk : Kept pts s0 s) (hp : [.regs] ⊆ pts) : Kept pts s0 (s.egrDropped cause bytes) := by
  unfold State.egrDropped
  repeat' first
    | with_reducible assumption | intro _
    | with_reducible refine State.countDrop_kept ?_ (inAll (by decide) hp)

theorem State.egrPunt_kept {pts : List Part} {s0 : State} {s : State} {act : Bool} {slice : Nat} {cause : Nat}
    {p : EgrPkt} {bytes : List Byte} (hk : Kept pts s0 s) (hp : [.regs, .couch] ⊆ pts)
    : Kept pts s0 (s.egrPunt act slice cause p bytes) := by
  unfold State.egrPunt
  repeat' first
    | with_reducible assumption | intro _ | (guard_target =~ Kept _ _ _; extract_lets +lift)
    | with_reducible refine State.backHost_kept ?_ (inAll (by decide) hp)
    | with_reducible refine State.egrDropped_kept ?_ (inAll (by decide) hp)
    | with_reducible apply Kept.ite

theorem State.egrMirror_kept {pts : List Part} {s0 : State} {s : State} {slice : Nat} {acts : List (Nat × Nat)}
    {p : EgrPkt} {bytes : List Byte} {ream : Nat} (hk : Kept pts s0 s) (hp : [.regs, .couch] ⊆ pts)
    : Kept pts s0 (s.egrMirror slice acts p bytes ream) := by
  unfold State.egrMirror
  repeat' first
    | with_reducible assumption | intro _ | (guard_target =~ Kept _ _ _; extract_lets +lift)
    | with_reducible refine State.sendBack_kept ?_ (inAll (by decide) hp) | with_reducible apply Kept.ite

theorem State.egrSample_kept {pts : List Part} {s0 : State} {s : State} {slice : Nat} {p : EgrPkt} {bytes : List Byte}
    (hk : Kept pts s0 s) (hp : [.freeCtr, .regs, .couch, .egr] ⊆ pts) : Kept pts s0 (s.egrSample slice p bytes) := by
  unfold State.egrSample
  repeat' first
    | with_reducible assumption | intro _ | (guard_target =~ Kept _ _ _; extract_lets +lift)
    | with_reducible refine State.used_kept ?_ (inAll (by decide) hp)
    | with_reducible refine State.backHost_kept ?_ (inAll (by decide) hp) | with_reducible apply Kept.ite
    | (with_reducible refine Kept.fst (by assumption) ?_)
    | (simp -zeta only [keptMk]; (with_reducible refine KeptMk.upd ?_ rfl ?_); rotate_left;
        · intro p; cases p <;> first | exact .inl (hp (by decide)) | (right; dsimp only [Part.same]))
    | split | dsimp +zetaDelta only

theorem State.ptpCapture_kept {pts : List Part} {s0 : State} {s : State} {port : Nat} {o : Nat} {b : List Byte}
    (hk : Kept pts s0 s) (hp : [.pf0, .pf1, .rng, .out] ⊆ pts) : Kept pts s0 (s.ptpCapture port o b) := by
  unfold State.ptpCapture
  repeat' first
    | with_reducible assumption | intro _ | (guard_target =~ Kept _ _ _; extract_lets +lift)
    | with_reducible refine State.exportRec_kept ?_ (inAll (by decide) hp) | with_reducible apply Kept.ite

theorem State.ptpMark_kept {pts : List Part} {s0 : State} {s : State} {p : EgrPkt} {b : List Byte}
    (hk : Kept pts s0 s) (hp : [.regs, .pf0, .pf1, .rng, .mil, .out] ⊆ pts) : Kept pts s0 (s.ptpMark p b).1 := by
  unfold State.ptpMark
  repeat' first
    | with_reducible assumption | intro _ | (guard_target =~ Kept _ _ _; extract_lets +lift)
    | with_reducible refine State.raise_kept ?_ (inAll (by decide) hp)
    | with_reducible refine State.count_kept ?_ (inAll (by decide) hp)
    | with_reducible refine State.ptpCapture_kept ?_ (inAll (by decide) hp)
    | with_reducible apply Kept.ite | (with_reducible refine Kept.fst (by assumption) ?_) | split

theorem State.egrOut_kept {pts : List Part} {s0 : State} {s : State} {slice : Nat} {p : EgrPkt} {b : List Byte}
    (hk : Kept pts s0 s) (hp : [.regs, .pf0, .pf1, .rng, .mil, .arrivals, .out] ⊆ pts)
    : Kept pts s0 (s.egrOut slice p b) := by
  unfold State.egrOut
  repeat' first
    | with_reducible assumption | intro _ | (guard_target =~ Kept _ _ _; extract_lets +lift)
    | with_reducible refine State.ptpMark_kept ?_ (inAll (by decide) hp)
    | with_reducible refine State.emit_kept ?_ (inAll (by decide) hp)
    | with_reducible refine State.arrive_kept ?_ (inAll (by decide) hp) | with_reducible apply Kept.ite

theorem State.egrLeave_kept {pts : List Part} {s0 : State} {s : State} {a2 : List Nat} {a3 : List EgrSlot}
    (hk : Kept pts s0 s) (hp : [.regs, .pf0, .pf1, .rng, .mil, .arrivals, .out] ⊆ pts)
    : Kept pts s0 (s.egrLeave a2 a3).1 := by
  induction a3 generalizing s a2 with
  | nil => exact hk
  | cons e t ih =>
    unfold State.egrLeave
    split
    · exact ih hk
    · split
      · exact ih hk
      · refine ih ?_
        split
        · exact State.egrOut_kept hk (inAll (by decide) hp)
        · exact hk

theorem State.settleEgress_kept {pts : List Part} {s0 : State} {s : State} (hk : Kept pts s0 s)
    (hp : [.regs, .pf0, .pf1, .rng, .egr, .mil, .arrivals, .out] ⊆ pts) : Kept pts s0 (s.settleEgress) := by
  unfold State.settleEgress
  repeat' first
    | with_reducible assumption | intro _ | (guard_target =~ Kept _ _ _; extract_lets +lift)
    | with_reducible refine State.egrLeave_kept ?_ (inAll (by decide) hp) | with_reducible apply Kept.ite
    | (with_reducible refine Kept.fst (by assumption) ?_)
    | (simp -zeta only [keptMk]; (with_reducible refine KeptMk.upd ?_ rfl ?_); rotate_left;
        · intro p; cases p <;> first | exact .inl (hp (by decide)) | (right; dsimp only [Part.same]))
    | split | dsimp +zetaDelta only

theorem State.egrFinish_kept {pts : List Part} {s0 : State} {s : State} {slice : Nat} {ream : Nat}
    {upset : List TableWord} {paths : List (List (BitVec 24))} {p : EgrPkt} {mv : List Byte} {b : List Byte}
    (hk : Kept pts s0 s) (hp : [.freeCtr, .regs, .couch, .pf0, .pf1, .rng, .tab, .asa, .cmt, .egr, .mil, .out] ⊆ pts)
    : Kept pts s0 (s.egrFinish slice ream upset paths p mv b).1 := by
  unfold State.egrFinish
  repeat' first
    | with_reducible assumption | intro _ | (guard_target =~ Kept _ _ _; extract_lets +lift)
    | with_reducible refine State.readProf_kept ?_ (inAll (by decide) hp)
    | with_reducible refine State.egrLookups_kept ?_ (inAll (by decide) hp)
    | with_reducible refine State.countOnDie_kept ?_ (inAll (by decide) hp)
    | with_reducible refine State.backHost_kept ?_ (inAll (by decide) hp)
    | with_reducible refine State.egrDropped_kept ?_ (inAll (by decide) hp)
    | with_reducible refine State.egrSample_kept ?_ (inAll (by decide) hp)
    | with_reducible refine State.egrMirror_kept ?_ (inAll (by decide) hp) | with_reducible apply Kept.ite
    | (with_reducible apply Kept.foldl; rotate_left; intro _ _ _)
    | (with_reducible refine Kept.fst (by assumption) ?_) | split | dsimp +zetaDelta only

theorem State.egrRun_kept {pts : List Part} {s0 : State} {s : State} {slice : Nat} {pipe : Nat}
    {upset : List TableWord} {paths : List (List (BitVec 24))} {older : Bool} {p : EgrPkt} (hk : Kept pts s0 s)
    (hp : [.freeCtr, .regs, .couch, .pf0, .pf1, .rng, .ing, .tab, .asa, .cmt, .egr, .mil, .out] ⊆ pts)
    : Kept pts s0 (s.egrRun slice pipe upset paths older p).1 := by
  unfold State.egrRun
  repeat' first
    | with_reducible assumption | intro _ | (guard_target =~ Kept _ _ _; extract_lets +lift)
    | with_reducible refine State.upsets_kept ?_ (inAll (by decide) hp)
    | with_reducible refine State.readChain_kept ?_ (inAll (by decide) hp)
    | with_reducible refine State.egrDropped_kept ?_ (inAll (by decide) hp)
    | with_reducible refine State.used_kept ?_ (inAll (by decide) hp)
    | with_reducible refine State.egrPunt_kept ?_ (inAll (by decide) hp)
    | with_reducible refine State.egrFinish_kept ?_ (inAll (by decide) hp) | with_reducible apply Kept.ite
    | (with_reducible refine Kept.fst (by assumption) ?_)
    | (simp -zeta only [keptMk]; (with_reducible refine KeptMk.upd ?_ rfl ?_); rotate_left;
        · intro p; cases p <;> first | exact .inl (hp (by decide)) | (right; dsimp only [Part.same]))
    | split | dsimp +zetaDelta only

theorem egressProcess_kept {pts : List Part} {s0 : State} {pipe : Fin 64} {upset : List TableWord}
    {paths : List (List (BitVec 24))} {older : Bool} {stall : BitVec 32} {s : State} (hk : Kept pts s0 s)
    (hp : [.freeCtr, .regs, .couch, .pf0, .pf1, .rng, .ing, .tab, .asa, .cmt, .bpm, .adm, .qsc, .egr, .prt, .lin, .mil, .arrivals, .out] ⊆ pts)
    : Kept pts s0 (egressProcess pipe upset paths older stall s) := by
  unfold egressProcess
  repeat' first
    | with_reducible assumption | intro _ | (guard_target =~ Kept _ _ _; extract_lets +lift)
    | with_reducible refine State.egrRun_kept ?_ (inAll (by decide) hp)
    | with_reducible refine State.stalls_kept ?_ (inAll (by decide) hp)
    | with_reducible refine State.settleEgress_kept ?_ (inAll (by decide) hp)
    | with_reducible refine State.drainSettle_kept ?_ (inAll (by decide) hp)
    | with_reducible apply Kept.ite | (with_reducible refine Kept.fst (by assumption) ?_)
    | (simp -zeta only [keptMk]; (with_reducible refine KeptMk.upd ?_ rfl ?_); rotate_left;
        · intro p; cases p <;> first | exact .inl (hp (by decide)) | (right; dsimp only [Part.same]))
    | split | dsimp +zetaDelta only

end Sys2Proof.Laws
end

