-- ==== Sys2Proof/Laws/State.lean ====
section
/-!
SUPPORT. Laws/State.lean: what the operations over State read and change, one lemma for each part and each operation, and
how a register or a field reads after a write.
-/
namespace Sys2Proof.Laws

open Sys2Proof.Machine

/-! ## State.wr -/

@[simp] theorem wr_pending (s : State) (r : Reg) (ix : Ix) (v : W64) : (s.wr r ix v).pending = s.pending := rfl
@[simp] theorem wr_now (s : State) (r : Reg) (ix : Ix) (v : W64) : (s.wr r ix v).now = s.now := rfl
@[simp] theorem wr_freeCtr (s : State) (r : Reg) (ix : Ix) (v : W64) : (s.wr r ix v).freeCtr = s.freeCtr := rfl
@[simp] theorem wr_shadow (s : State) (r : Reg) (ix : Ix) (v : W64) : (s.wr r ix v).shadow = s.shadow := rfl
@[simp] theorem wr_acc (s : State) (r : Reg) (ix : Ix) (v : W64) : (s.wr r ix v).acc = s.acc := rfl
@[simp] theorem wr_gen (s : State) (r : Reg) (ix : Ix) (v : W64) : (s.wr r ix v).gen = s.gen := rfl
@[simp] theorem wr_couch (s : State) (r : Reg) (ix : Ix) (v : W64) : (s.wr r ix v).couch = s.couch := rfl
@[simp] theorem wr_pf0 (s : State) (r : Reg) (ix : Ix) (v : W64) : (s.wr r ix v).pf0 = s.pf0 := rfl
@[simp] theorem wr_pf1 (s : State) (r : Reg) (ix : Ix) (v : W64) : (s.wr r ix v).pf1 = s.pf1 := rfl
@[simp] theorem wr_pce (s : State) (r : Reg) (ix : Ix) (v : W64) : (s.wr r ix v).pce = s.pce := rfl
@[simp] theorem wr_rng (s : State) (r : Reg) (ix : Ix) (v : W64) : (s.wr r ix v).rng = s.rng := rfl
@[simp] theorem wr_hostQ (s : State) (r : Reg) (ix : Ix) (v : W64) : (s.wr r ix v).hostQ = s.hostQ := rfl
@[simp] theorem wr_mbx (s : State) (r : Reg) (ix : Ix) (v : W64) : (s.wr r ix v).mbx = s.mbx := rfl
@[simp] theorem wr_sem (s : State) (r : Reg) (ix : Ix) (v : W64) : (s.wr r ix v).sem = s.sem := rfl
@[simp] theorem wr_ing (s : State) (r : Reg) (ix : Ix) (v : W64) : (s.wr r ix v).ing = s.ing := rfl
@[simp] theorem wr_tab (s : State) (r : Reg) (ix : Ix) (v : W64) : (s.wr r ix v).tab = s.tab := rfl
@[simp] theorem wr_asa (s : State) (r : Reg) (ix : Ix) (v : W64) : (s.wr r ix v).asa = s.asa := rfl
@[simp] theorem wr_cmt (s : State) (r : Reg) (ix : Ix) (v : W64) : (s.wr r ix v).cmt = s.cmt := rfl
@[simp] theorem wr_replQ (s : State) (r : Reg) (ix : Ix) (v : W64) : (s.wr r ix v).replQ = s.replQ := rfl
@[simp] theorem wr_bpm (s : State) (r : Reg) (ix : Ix) (v : W64) : (s.wr r ix v).bpm = s.bpm := rfl
@[simp] theorem wr_adm (s : State) (r : Reg) (ix : Ix) (v : W64) : (s.wr r ix v).adm = s.adm := rfl
@[simp] theorem wr_ddc (s : State) (r : Reg) (ix : Ix) (v : W64) : (s.wr r ix v).ddc = s.ddc := rfl
@[simp] theorem wr_qsc (s : State) (r : Reg) (ix : Ix) (v : W64) : (s.wr r ix v).qsc = s.qsc := rfl
@[simp] theorem wr_crd (s : State) (r : Reg) (ix : Ix) (v : W64) : (s.wr r ix v).crd = s.crd := rfl
@[simp] theorem wr_gates (s : State) (r : Reg) (ix : Ix) (v : W64) : (s.wr r ix v).gates = s.gates := rfl
@[simp] theorem wr_fab (s : State) (r : Reg) (ix : Ix) (v : W64) : (s.wr r ix v).fab = s.fab := rfl
@[simp] theorem wr_egr (s : State) (r : Reg) (ix : Ix) (v : W64) : (s.wr r ix v).egr = s.egr := rfl
@[simp] theorem wr_prt (s : State) (r : Reg) (ix : Ix) (v : W64) : (s.wr r ix v).prt = s.prt := rfl
@[simp] theorem wr_lin (s : State) (r : Reg) (ix : Ix) (v : W64) : (s.wr r ix v).lin = s.lin := rfl
@[simp] theorem wr_pmn (s : State) (r : Reg) (ix : Ix) (v : W64) : (s.wr r ix v).pmn = s.pmn := rfl
@[simp] theorem wr_tim (s : State) (r : Reg) (ix : Ix) (v : W64) : (s.wr r ix v).tim = s.tim := rfl
@[simp] theorem wr_mil (s : State) (r : Reg) (ix : Ix) (v : W64) : (s.wr r ix v).mil = s.mil := rfl
@[simp] theorem wr_arrivals (s : State) (r : Reg) (ix : Ix) (v : W64) : (s.wr r ix v).arrivals = s.arrivals := rfl
@[simp] theorem wr_out (s : State) (r : Reg) (ix : Ix) (v : W64) : (s.wr r ix v).out = s.out := rfl

/-! ## State.set -/

@[simp] theorem set_pending (s : State) (f : Field) (ix : Ix) (x : Nat) : (s.set f ix x).pending = s.pending := rfl
@[simp] theorem set_now (s : State) (f : Field) (ix : Ix) (x : Nat) : (s.set f ix x).now = s.now := rfl
@[simp] theorem set_freeCtr (s : State) (f : Field) (ix : Ix) (x : Nat) : (s.set f ix x).freeCtr = s.freeCtr := rfl
@[simp] theorem set_shadow (s : State) (f : Field) (ix : Ix) (x : Nat) : (s.set f ix x).shadow = s.shadow := rfl
@[simp] theorem set_acc (s : State) (f : Field) (ix : Ix) (x : Nat) : (s.set f ix x).acc = s.acc := rfl
@[simp] theorem set_gen (s : State) (f : Field) (ix : Ix) (x : Nat) : (s.set f ix x).gen = s.gen := rfl
@[simp] theorem set_couch (s : State) (f : Field) (ix : Ix) (x : Nat) : (s.set f ix x).couch = s.couch := rfl
@[simp] theorem set_pf0 (s : State) (f : Field) (ix : Ix) (x : Nat) : (s.set f ix x).pf0 = s.pf0 := rfl
@[simp] theorem set_pf1 (s : State) (f : Field) (ix : Ix) (x : Nat) : (s.set f ix x).pf1 = s.pf1 := rfl
@[simp] theorem set_pce (s : State) (f : Field) (ix : Ix) (x : Nat) : (s.set f ix x).pce = s.pce := rfl
@[simp] theorem set_rng (s : State) (f : Field) (ix : Ix) (x : Nat) : (s.set f ix x).rng = s.rng := rfl
@[simp] theorem set_hostQ (s : State) (f : Field) (ix : Ix) (x : Nat) : (s.set f ix x).hostQ = s.hostQ := rfl
@[simp] theorem set_mbx (s : State) (f : Field) (ix : Ix) (x : Nat) : (s.set f ix x).mbx = s.mbx := rfl
@[simp] theorem set_sem (s : State) (f : Field) (ix : Ix) (x : Nat) : (s.set f ix x).sem = s.sem := rfl
@[simp] theorem set_ing (s : State) (f : Field) (ix : Ix) (x : Nat) : (s.set f ix x).ing = s.ing := rfl
@[simp] theorem set_tab (s : State) (f : Field) (ix : Ix) (x : Nat) : (s.set f ix x).tab = s.tab := rfl
@[simp] theorem set_asa (s : State) (f : Field) (ix : Ix) (x : Nat) : (s.set f ix x).asa = s.asa := rfl
@[simp] theorem set_cmt (s : State) (f : Field) (ix : Ix) (x : Nat) : (s.set f ix x).cmt = s.cmt := rfl
@[simp] theorem set_replQ (s : State) (f : Field) (ix : Ix) (x : Nat) : (s.set f ix x).replQ = s.replQ := rfl
@[simp] theorem set_bpm (s : State) (f : Field) (ix : Ix) (x : Nat) : (s.set f ix x).bpm = s.bpm := rfl
@[simp] theorem set_adm (s : State) (f : Field) (ix : Ix) (x : Nat) : (s.set f ix x).adm = s.adm := rfl
@[simp] theorem set_ddc (s : State) (f : Field) (ix : Ix) (x : Nat) : (s.set f ix x).ddc = s.ddc := rfl
@[simp] theorem set_qsc (s : State) (f : Field) (ix : Ix) (x : Nat) : (s.set f ix x).qsc = s.qsc := rfl
@[simp] theorem set_crd (s : State) (f : Field) (ix : Ix) (x : Nat) : (s.set f ix x).crd = s.crd := rfl
@[simp] theorem set_gates (s : State) (f : Field) (ix : Ix) (x : Nat) : (s.set f ix x).gates = s.gates := rfl
@[simp] theorem set_fab (s : State) (f : Field) (ix : Ix) (x : Nat) : (s.set f ix x).fab = s.fab := rfl
@[simp] theorem set_egr (s : State) (f : Field) (ix : Ix) (x : Nat) : (s.set f ix x).egr = s.egr := rfl
@[simp] theorem set_prt (s : State) (f : Field) (ix : Ix) (x : Nat) : (s.set f ix x).prt = s.prt := rfl
@[simp] theorem set_lin (s : State) (f : Field) (ix : Ix) (x : Nat) : (s.set f ix x).lin = s.lin := rfl
@[simp] theorem set_pmn (s : State) (f : Field) (ix : Ix) (x : Nat) : (s.set f ix x).pmn = s.pmn := rfl
@[simp] theorem set_tim (s : State) (f : Field) (ix : Ix) (x : Nat) : (s.set f ix x).tim = s.tim := rfl
@[simp] theorem set_mil (s : State) (f : Field) (ix : Ix) (x : Nat) : (s.set f ix x).mil = s.mil := rfl
@[simp] theorem set_arrivals (s : State) (f : Field) (ix : Ix) (x : Nat) : (s.set f ix x).arrivals = s.arrivals := rfl
@[simp] theorem set_out (s : State) (f : Field) (ix : Ix) (x : Nat) : (s.set f ix x).out = s.out := rfl

/-! ## State.count -/

@[simp] theorem count_pending (s : State) (f : Field) (ix : Ix) (n : Nat) : (s.count f ix n).pending = s.pending := rfl
@[simp] theorem count_now (s : State) (f : Field) (ix : Ix) (n : Nat) : (s.count f ix n).now = s.now := rfl
@[simp] theorem count_freeCtr (s : State) (f : Field) (ix : Ix) (n : Nat) : (s.count f ix n).freeCtr = s.freeCtr := rfl
@[simp] theorem count_shadow (s : State) (f : Field) (ix : Ix) (n : Nat) : (s.count f ix n).shadow = s.shadow := rfl
@[simp] theorem count_acc (s : State) (f : Field) (ix : Ix) (n : Nat) : (s.count f ix n).acc = s.acc := rfl
@[simp] theorem count_gen (s : State) (f : Field) (ix : Ix) (n : Nat) : (s.count f ix n).gen = s.gen := rfl
@[simp] theorem count_couch (s : State) (f : Field) (ix : Ix) (n : Nat) : (s.count f ix n).couch = s.couch := rfl
@[simp] theorem count_pf0 (s : State) (f : Field) (ix : Ix) (n : Nat) : (s.count f ix n).pf0 = s.pf0 := rfl
@[simp] theorem count_pf1 (s : State) (f : Field) (ix : Ix) (n : Nat) : (s.count f ix n).pf1 = s.pf1 := rfl
@[simp] theorem count_pce (s : State) (f : Field) (ix : Ix) (n : Nat) : (s.count f ix n).pce = s.pce := rfl
@[simp] theorem count_rng (s : State) (f : Field) (ix : Ix) (n : Nat) : (s.count f ix n).rng = s.rng := rfl
@[simp] theorem count_hostQ (s : State) (f : Field) (ix : Ix) (n : Nat) : (s.count f ix n).hostQ = s.hostQ := rfl
@[simp] theorem count_mbx (s : State) (f : Field) (ix : Ix) (n : Nat) : (s.count f ix n).mbx = s.mbx := rfl
@[simp] theorem count_sem (s : State) (f : Field) (ix : Ix) (n : Nat) : (s.count f ix n).sem = s.sem := rfl
@[simp] theorem count_ing (s : State) (f : Field) (ix : Ix) (n : Nat) : (s.count f ix n).ing = s.ing := rfl
@[simp] theorem count_tab (s : State) (f : Field) (ix : Ix) (n : Nat) : (s.count f ix n).tab = s.tab := rfl
@[simp] theorem count_asa (s : State) (f : Field) (ix : Ix) (n : Nat) : (s.count f ix n).asa = s.asa := rfl
@[simp] theorem count_cmt (s : State) (f : Field) (ix : Ix) (n : Nat) : (s.count f ix n).cmt = s.cmt := rfl
@[simp] theorem count_replQ (s : State) (f : Field) (ix : Ix) (n : Nat) : (s.count f ix n).replQ = s.replQ := rfl
@[simp] theorem count_bpm (s : State) (f : Field) (ix : Ix) (n : Nat) : (s.count f ix n).bpm = s.bpm := rfl
@[simp] theorem count_adm (s : State) (f : Field) (ix : Ix) (n : Nat) : (s.count f ix n).adm = s.adm := rfl
@[simp] theorem count_ddc (s : State) (f : Field) (ix : Ix) (n : Nat) : (s.count f ix n).ddc = s.ddc := rfl
@[simp] theorem count_qsc (s : State) (f : Field) (ix : Ix) (n : Nat) : (s.count f ix n).qsc = s.qsc := rfl
@[simp] theorem count_crd (s : State) (f : Field) (ix : Ix) (n : Nat) : (s.count f ix n).crd = s.crd := rfl
@[simp] theorem count_gates (s : State) (f : Field) (ix : Ix) (n : Nat) : (s.count f ix n).gates = s.gates := rfl
@[simp] theorem count_fab (s : State) (f : Field) (ix : Ix) (n : Nat) : (s.count f ix n).fab = s.fab := rfl
@[simp] theorem count_egr (s : State) (f : Field) (ix : Ix) (n : Nat) : (s.count f ix n).egr = s.egr := rfl
@[simp] theorem count_prt (s : State) (f : Field) (ix : Ix) (n : Nat) : (s.count f ix n).prt = s.prt := rfl
@[simp] theorem count_lin (s : State) (f : Field) (ix : Ix) (n : Nat) : (s.count f ix n).lin = s.lin := rfl
@[simp] theorem count_pmn (s : State) (f : Field) (ix : Ix) (n : Nat) : (s.count f ix n).pmn = s.pmn := rfl
@[simp] theorem count_tim (s : State) (f : Field) (ix : Ix) (n : Nat) : (s.count f ix n).tim = s.tim := rfl
@[simp] theorem count_mil (s : State) (f : Field) (ix : Ix) (n : Nat) : (s.count f ix n).mil = s.mil := rfl
@[simp] theorem count_arrivals (s : State) (f : Field) (ix : Ix) (n : Nat) : (s.count f ix n).arrivals = s.arrivals := rfl
@[simp] theorem count_out (s : State) (f : Field) (ix : Ix) (n : Nat) : (s.count f ix n).out = s.out := rfl

/-! ## State.emit -/

@[simp] theorem emit_pending (s : State) (o : Out) : (s.emit o).pending = s.pending := rfl
@[simp] theorem emit_now (s : State) (o : Out) : (s.emit o).now = s.now := rfl
@[simp] theorem emit_freeCtr (s : State) (o : Out) : (s.emit o).freeCtr = s.freeCtr := rfl
@[simp] theorem emit_regs (s : State) (o : Out) : (s.emit o).regs = s.regs := rfl
@[simp] theorem emit_shadow (s : State) (o : Out) : (s.emit o).shadow = s.shadow := rfl
@[simp] theorem emit_acc (s : State) (o : Out) : (s.emit o).acc = s.acc := rfl
@[simp] theorem emit_gen (s : State) (o : Out) : (s.emit o).gen = s.gen := rfl
@[simp] theorem emit_couch (s : State) (o : Out) : (s.emit o).couch = s.couch := rfl
@[simp] theorem emit_pf0 (s : State) (o : Out) : (s.emit o).pf0 = s.pf0 := rfl
@[simp] theorem emit_pf1 (s : State) (o : Out) : (s.emit o).pf1 = s.pf1 := rfl
@[simp] theorem emit_pce (s : State) (o : Out) : (s.emit o).pce = s.pce := rfl
@[simp] theorem emit_rng (s : State) (o : Out) : (s.emit o).rng = s.rng := rfl
@[simp] theorem emit_hostQ (s : State) (o : Out) : (s.emit o).hostQ = s.hostQ := rfl
@[simp] theorem emit_mbx (s : State) (o : Out) : (s.emit o).mbx = s.mbx := rfl
@[simp] theorem emit_sem (s : State) (o : Out) : (s.emit o).sem = s.sem := rfl
@[simp] theorem emit_ing (s : State) (o : Out) : (s.emit o).ing = s.ing := rfl
@[simp] theorem emit_tab (s : State) (o : Out) : (s.emit o).tab = s.tab := rfl
@[simp] theorem emit_asa (s : State) (o : Out) : (s.emit o).asa = s.asa := rfl
@[simp] theorem emit_cmt (s : State) (o : Out) : (s.emit o).cmt = s.cmt := rfl
@[simp] theorem emit_replQ (s : State) (o : Out) : (s.emit o).replQ = s.replQ := rfl
@[simp] theorem emit_bpm (s : State) (o : Out) : (s.emit o).bpm = s.bpm := rfl
@[simp] theorem emit_adm (s : State) (o : Out) : (s.emit o).adm = s.adm := rfl
@[simp] theorem emit_ddc (s : State) (o : Out) : (s.emit o).ddc = s.ddc := rfl
@[simp] theorem emit_qsc (s : State) (o : Out) : (s.emit o).qsc = s.qsc := rfl
@[simp] theorem emit_crd (s : State) (o : Out) : (s.emit o).crd = s.crd := rfl
@[simp] theorem emit_gates (s : State) (o : Out) : (s.emit o).gates = s.gates := rfl
@[simp] theorem emit_fab (s : State) (o : Out) : (s.emit o).fab = s.fab := rfl
@[simp] theorem emit_egr (s : State) (o : Out) : (s.emit o).egr = s.egr := rfl
@[simp] theorem emit_prt (s : State) (o : Out) : (s.emit o).prt = s.prt := rfl
@[simp] theorem emit_lin (s : State) (o : Out) : (s.emit o).lin = s.lin := rfl
@[simp] theorem emit_pmn (s : State) (o : Out) : (s.emit o).pmn = s.pmn := rfl
@[simp] theorem emit_tim (s : State) (o : Out) : (s.emit o).tim = s.tim := rfl
@[simp] theorem emit_mil (s : State) (o : Out) : (s.emit o).mil = s.mil := rfl
@[simp] theorem emit_arrivals (s : State) (o : Out) : (s.emit o).arrivals = s.arrivals := rfl

/-! ## State.used -/

@[simp] theorem used_pending (s : State) : (s.used).pending = s.pending := rfl
@[simp] theorem used_now (s : State) : (s.used).now = s.now := rfl
@[simp] theorem used_regs (s : State) : (s.used).regs = s.regs := rfl
@[simp] theorem used_shadow (s : State) : (s.used).shadow = s.shadow := rfl
@[simp] theorem used_acc (s : State) : (s.used).acc = s.acc := rfl
@[simp] theorem used_gen (s : State) : (s.used).gen = s.gen := rfl
@[simp] theorem used_couch (s : State) : (s.used).couch = s.couch := rfl
@[simp] theorem used_pf0 (s : State) : (s.used).pf0 = s.pf0 := rfl
@[simp] theorem used_pf1 (s : State) : (s.used).pf1 = s.pf1 := rfl
@[simp] theorem used_pce (s : State) : (s.used).pce = s.pce := rfl
@[simp] theorem used_rng (s : State) : (s.used).rng = s.rng := rfl
@[simp] theorem used_hostQ (s : State) : (s.used).hostQ = s.hostQ := rfl
@[simp] theorem used_mbx (s : State) : (s.used).mbx = s.mbx := rfl
@[simp] theorem used_sem (s : State) : (s.used).sem = s.sem := rfl
@[simp] theorem used_ing (s : State) : (s.used).ing = s.ing := rfl
@[simp] theorem used_tab (s : State) : (s.used).tab = s.tab := rfl
@[simp] theorem used_asa (s : State) : (s.used).asa = s.asa := rfl
@[simp] theorem used_cmt (s : State) : (s.used).cmt = s.cmt := rfl
@[simp] theorem used_replQ (s : State) : (s.used).replQ = s.replQ := rfl
@[simp] theorem used_bpm (s : State) : (s.used).bpm = s.bpm := rfl
@[simp] theorem used_adm (s : State) : (s.used).adm = s.adm := rfl
@[simp] theorem used_ddc (s : State) : (s.used).ddc = s.ddc := rfl
@[simp] theorem used_qsc (s : State) : (s.used).qsc = s.qsc := rfl
@[simp] theorem used_crd (s : State) : (s.used).crd = s.crd := rfl
@[simp] theorem used_gates (s : State) : (s.used).gates = s.gates := rfl
@[simp] theorem used_fab (s : State) : (s.used).fab = s.fab := rfl
@[simp] theorem used_egr (s : State) : (s.used).egr = s.egr := rfl
@[simp] theorem used_prt (s : State) : (s.used).prt = s.prt := rfl
@[simp] theorem used_lin (s : State) : (s.used).lin = s.lin := rfl
@[simp] theorem used_pmn (s : State) : (s.used).pmn = s.pmn := rfl
@[simp] theorem used_tim (s : State) : (s.used).tim = s.tim := rfl
@[simp] theorem used_mil (s : State) : (s.used).mil = s.mil := rfl
@[simp] theorem used_arrivals (s : State) : (s.used).arrivals = s.arrivals := rfl
@[simp] theorem used_out (s : State) : (s.used).out = s.out := rfl

/-! ## State.setRing -/

@[simp] theorem setRing_pending (s : State) (r : Nat) (x : Ring) : (s.setRing r x).pending = s.pending := rfl
@[simp] theorem setRing_now (s : State) (r : Nat) (x : Ring) : (s.setRing r x).now = s.now := rfl
@[simp] theorem setRing_freeCtr (s : State) (r : Nat) (x : Ring) : (s.setRing r x).freeCtr = s.freeCtr := rfl
@[simp] theorem setRing_regs (s : State) (r : Nat) (x : Ring) : (s.setRing r x).regs = s.regs := rfl
@[simp] theorem setRing_shadow (s : State) (r : Nat) (x : Ring) : (s.setRing r x).shadow = s.shadow := rfl
@[simp] theorem setRing_acc (s : State) (r : Nat) (x : Ring) : (s.setRing r x).acc = s.acc := rfl
@[simp] theorem setRing_gen (s : State) (r : Nat) (x : Ring) : (s.setRing r x).gen = s.gen := rfl
@[simp] theorem setRing_couch (s : State) (r : Nat) (x : Ring) : (s.setRing r x).couch = s.couch := rfl
@[simp] theorem setRing_pf0 (s : State) (r : Nat) (x : Ring) : (s.setRing r x).pf0 = s.pf0 := rfl
@[simp] theorem setRing_pf1 (s : State) (r : Nat) (x : Ring) : (s.setRing r x).pf1 = s.pf1 := rfl
@[simp] theorem setRing_pce (s : State) (r : Nat) (x : Ring) : (s.setRing r x).pce = s.pce := rfl
@[simp] theorem setRing_hostQ (s : State) (r : Nat) (x : Ring) : (s.setRing r x).hostQ = s.hostQ := rfl
@[simp] theorem setRing_mbx (s : State) (r : Nat) (x : Ring) : (s.setRing r x).mbx = s.mbx := rfl
@[simp] theorem setRing_sem (s : State) (r : Nat) (x : Ring) : (s.setRing r x).sem = s.sem := rfl
@[simp] theorem setRing_ing (s : State) (r : Nat) (x : Ring) : (s.setRing r x).ing = s.ing := rfl
@[simp] theorem setRing_tab (s : State) (r : Nat) (x : Ring) : (s.setRing r x).tab = s.tab := rfl
@[simp] theorem setRing_asa (s : State) (r : Nat) (x : Ring) : (s.setRing r x).asa = s.asa := rfl
@[simp] theorem setRing_cmt (s : State) (r : Nat) (x : Ring) : (s.setRing r x).cmt = s.cmt := rfl
@[simp] theorem setRing_replQ (s : State) (r : Nat) (x : Ring) : (s.setRing r x).replQ = s.replQ := rfl
@[simp] theorem setRing_bpm (s : State) (r : Nat) (x : Ring) : (s.setRing r x).bpm = s.bpm := rfl
@[simp] theorem setRing_adm (s : State) (r : Nat) (x : Ring) : (s.setRing r x).adm = s.adm := rfl
@[simp] theorem setRing_ddc (s : State) (r : Nat) (x : Ring) : (s.setRing r x).ddc = s.ddc := rfl
@[simp] theorem setRing_qsc (s : State) (r : Nat) (x : Ring) : (s.setRing r x).qsc = s.qsc := rfl
@[simp] theorem setRing_crd (s : State) (r : Nat) (x : Ring) : (s.setRing r x).crd = s.crd := rfl
@[simp] theorem setRing_gates (s : State) (r : Nat) (x : Ring) : (s.setRing r x).gates = s.gates := rfl
@[simp] theorem setRing_fab (s : State) (r : Nat) (x : Ring) : (s.setRing r x).fab = s.fab := rfl
@[simp] theorem setRing_egr (s : State) (r : Nat) (x : Ring) : (s.setRing r x).egr = s.egr := rfl
@[simp] theorem setRing_prt (s : State) (r : Nat) (x : Ring) : (s.setRing r x).prt = s.prt := rfl
@[simp] theorem setRing_lin (s : State) (r : Nat) (x : Ring) : (s.setRing r x).lin = s.lin := rfl
@[simp] theorem setRing_pmn (s : State) (r : Nat) (x : Ring) : (s.setRing r x).pmn = s.pmn := rfl
@[simp] theorem setRing_tim (s : State) (r : Nat) (x : Ring) : (s.setRing r x).tim = s.tim := rfl
@[simp] theorem setRing_mil (s : State) (r : Nat) (x : Ring) : (s.setRing r x).mil = s.mil := rfl
@[simp] theorem setRing_arrivals (s : State) (r : Nat) (x : Ring) : (s.setRing r x).arrivals = s.arrivals := rfl
@[simp] theorem setRing_out (s : State) (r : Nat) (x : Ring) : (s.setRing r x).out = s.out := rfl

/-! ## What was sent, and what is read -/

@[simp] theorem emit_out (s : State) (o : Out) : (s.emit o).out = o :: s.out := rfl
@[simp] theorem used_freeCtr (s : State) : s.used.freeCtr = s.freeCtr + 1 := rfl
@[simp] theorem emit_rd (s : State) (o : Out) (r : Reg) (ix : Ix) : (s.emit o).rd r ix = s.rd r ix := rfl
@[simp] theorem used_rd (s : State) (r : Reg) (ix : Ix) : s.used.rd r ix = s.rd r ix := rfl
@[simp] theorem setRing_rd (s : State) (n : Nat) (x : Ring) (r : Reg) (ix : Ix) : (s.setRing n x).rd r ix = s.rd r ix := rfl

theorem rd_of_regs {s t : State} (h : t.regs = s.regs) (r : Reg) (ix : Ix) : t.rd r ix = s.rd r ix := by
  simp [State.rd, h]

theorem fld_of_regs {s t : State} (h : t.regs = s.regs) (f : Field) (ix : Ix) : t.fld f ix = s.fld f ix := by
  simp [State.fld, rd_of_regs h]

/-! ## Tables -/

@[simp] theorem find_put_same {α : Type} (k : Nat) (v : α) (t : List (Nat × α)) : tblFind k (tblPut k v t) = some v := by
  induction t with
  | nil => simp [tblPut, tblFind]
  | cons e t ih =>
    obtain ⟨k', v'⟩ := e
    simp only [tblPut]
    split
    · simp [tblFind]
    · split
      · simp [tblFind]
      · rename_i h1 h2; simp only [tblFind, ih, ite_eq_right_iff]; exact fun h => absurd h.symm h2

theorem find_put_other {α : Type} {k k' : Nat} (h : k' ≠ k) (v : α) (t : List (Nat × α)) :
    tblFind k' (tblPut k v t) = tblFind k' t := by
  induction t with
  | nil => simp [tblPut, tblFind, h.symm]
  | cons e t ih =>
    obtain ⟨k2, v2⟩ := e
    simp only [tblPut]
    split
    · simp [tblFind, h.symm]
    · split
      · rename_i h2; subst h2; simp [tblFind, h.symm]
      · simp [tblFind, ih]

@[simp] theorem find_del_same {α : Type} (k : Nat) (t : List (Nat × α)) : tblFind k (tblDel k t) = none := by
  induction t with
  | nil => rfl
  | cons e t ih =>
    obtain ⟨k', v'⟩ := e
    by_cases h : k' = k <;> simp_all [tblDel, tblFind]

theorem find_del_other {α : Type} {k k' : Nat} (h : k' ≠ k) (t : List (Nat × α)) :
    tblFind k' (tblDel k t) = tblFind k' t := by
  induction t with
  | nil => rfl
  | cons e t ih =>
    obtain ⟨k2, v2⟩ := e
    by_cases h2 : k2 = k
    · subst h2; simp_all [tblDel, tblFind, h.symm]
    · simp_all [tblDel, tblFind]

@[simp] theorem get_put_same {α : Type} (d : α) (k : Nat) (v : α) (t : List (Nat × α)) : tblGet d (tblPut k v t) k = v := by
  simp [tblGet]

theorem get_put_other {α : Type} {k k' : Nat} (h : k' ≠ k) (d v : α) (t : List (Nat × α)) :
    tblGet d (tblPut k v t) k' = tblGet d t k' := by simp [tblGet, find_put_other h]

@[simp] theorem get_mod_same {α : Type} (d : α) (k : Nat) (f : α → α) (t : List (Nat × α)) :
    tblGet d (tblMod d k f t) k = f (tblGet d t k) := by simp [tblMod]

theorem get_mod_other {α : Type} {k k' : Nat} (h : k' ≠ k) (d : α) (f : α → α) (t : List (Nat × α)) :
    tblGet d (tblMod d k f t) k' = tblGet d t k' := by simp [tblMod, get_put_other h]

/-! ## Registers and fields -/

/-- A register reads as what was last written to it. -/
@[simp] theorem rd_wr_same (s : State) (r : Reg) (ix : Ix) (v : W64) : (s.wr r ix v).rd r ix = v := by
  simp only [State.rd, State.wr, putReg]
  split
  · rename_i h; simp [h]
  · simp

/-- A write leaves the registers at other addresses. -/
theorem rd_wr_other {r r' : Reg} {ix ix' : Ix} (h : regAddr r' ix' ≠ regAddr r ix) (s : State) (v : W64) :
    (s.wr r ix v).rd r' ix' = s.rd r' ix' := by
  simp only [State.rd, State.wr, putReg]
  split
  · rw [find_del_other h]
  · rw [find_put_other h]

theorem rd_set_other {f : Field} {r' : Reg} {ix ix' : Ix} (h : regAddr r' ix' ≠ regAddr f.reg ix) (s : State) (x : Nat) :
    (s.set f ix x).rd r' ix' = s.rd r' ix' := rd_wr_other h s _

theorem rd_count_other {f : Field} {r' : Reg} {ix ix' : Ix} (h : regAddr r' ix' ≠ regAddr f.reg ix) (s : State) (n : Nat) :
    (s.count f ix n).rd r' ix' = s.rd r' ix' := rd_wr_other h s _

theorem fld_set_other {f g : Field} {ix ix' : Ix} (h : regAddr g.reg ix' ≠ regAddr f.reg ix) (s : State) (x : Nat) :
    (s.set f ix x).fld g ix' = s.fld g ix' := by simp [State.fld, rd_set_other h]

/-- Taking bits [lsb+w-1 : lsb] out of a number splits it in three. -/
theorem bits_split (n lsb w : Nat) :
    n = n / 2 ^ (lsb + w) * 2 ^ (lsb + w) + bitsOf n lsb w * 2 ^ lsb + n % 2 ^ lsb := by
  have h1 := Nat.div_add_mod n (2 ^ lsb)
  have h2 := Nat.div_add_mod (n / 2 ^ lsb) (2 ^ w)
  rw [Nat.div_div_eq_div_mul, ← Nat.pow_add] at h2
  simp only [bitsOf, Nat.shiftRight_eq_div_pow]
  generalize n / 2 ^ lsb % 2 ^ w = b at *
  generalize n % 2 ^ lsb = c at *
  generalize n / 2 ^ (lsb + w) = a at *
  rw [Nat.pow_add, ← h1, ← h2]; grind

theorem withBits_eq (n lsb w x : Nat) :
    withBits n lsb w x = n / 2 ^ (lsb + w) * 2 ^ (lsb + w) + x % 2 ^ w * 2 ^ lsb + n % 2 ^ lsb := by
  have h := bits_split n lsb w
  unfold withBits
  omega

/-- The field put into a word is there. -/
theorem bitsOf_withBits (n lsb w x : Nat) : bitsOf (withBits n lsb w x) lsb w = x % 2 ^ w := by
  rw [withBits_eq]
  have hl : n % 2 ^ lsb < 2 ^ lsb := Nat.mod_lt _ (Nat.two_pow_pos _)
  have hx : x % 2 ^ w < 2 ^ w := Nat.mod_lt _ (Nat.two_pow_pos _)
  simp only [bitsOf, Nat.shiftRight_eq_div_pow]
  generalize n % 2 ^ lsb = c at *
  generalize x % 2 ^ w = b at *
  generalize n / 2 ^ (lsb + w) = a
  rw [Nat.pow_add, show a * (2 ^ lsb * 2 ^ w) + b * 2 ^ lsb + c = c + 2 ^ lsb * (a * 2 ^ w + b) by grind,
    Nat.add_mul_div_left _ _ (Nat.two_pow_pos _), Nat.div_eq_of_lt hl, Nat.zero_add, Nat.add_comm, Nat.add_mul_mod_self_right,
    Nat.mod_eq_of_lt hx]

theorem withBits_lt {n lsb w x m : Nat} (h : lsb + w ≤ m) (hn : n < 2 ^ m) : withBits n lsb w x < 2 ^ m := by
  rw [withBits_eq]
  have hl : n % 2 ^ lsb < 2 ^ lsb := Nat.mod_lt _ (Nat.two_pow_pos _)
  have hx : x % 2 ^ w < 2 ^ w := Nat.mod_lt _ (Nat.two_pow_pos _)
  have hm : 2 ^ m = 2 ^ (m - (lsb + w)) * 2 ^ (lsb + w) := by rw [← Nat.pow_add]; congr 1; omega
  have ha : n / 2 ^ (lsb + w) < 2 ^ (m - (lsb + w)) := by
    rw [Nat.div_lt_iff_lt_mul (Nat.two_pow_pos _), ← hm]; exact hn
  have hb : x % 2 ^ w * 2 ^ lsb + n % 2 ^ lsb < 2 ^ (lsb + w) := by
    have : (x % 2 ^ w + 1) * 2 ^ lsb ≤ 2 ^ w * 2 ^ lsb := Nat.mul_le_mul_right _ hx
    rw [Nat.pow_add, Nat.mul_comm (2 ^ lsb)]; grind
  have : (n / 2 ^ (lsb + w) + 1) * 2 ^ (lsb + w) ≤ 2 ^ (m - (lsb + w)) * 2 ^ (lsb + w) := Nat.mul_le_mul_right _ ha
  rw [hm]; grind

/-- A field reads as the low bits of what was put into it. -/
theorem get_put {f : Field} (hf : f.lsb + f.width ≤ 64) (v : W64) (x : Nat) : f.get (f.put v x) = x % 2 ^ f.width := by
  simp only [Field.get, Field.put, BitVec.toNat_ofNat]
  rw [Nat.mod_eq_of_lt (withBits_lt hf v.isLt), bitsOf_withBits]

/-- A field of a register reads as the low bits of what it was set to. -/
theorem fld_set_same {f : Field} (hf : f.lsb + f.width ≤ 64) (s : State) (ix : Ix) (x : Nat) :
    (s.set f ix x).fld f ix = x % 2 ^ f.width := by
  simp [State.fld, State.set, get_put hf]

end Sys2Proof.Laws
end

