-- ==== Sys2Proof/Laws/Raise.lean ====
section
/-!
SUPPORT. Laws/Raise.lean: what setting a cause bit does (spec/20_register_map.md R600, R601): the bit is set where its
domain is up, no register changes but the cause's own and RNG_INT_STATUS, and no part outside `causeParts` changes.
-/
namespace Sys2Proof.Laws

open Sys2Proof.Machine Fld

/-- The parts that setting a cause may change. -/
def causeParts : List Part := [.regs, .pf0, .pf1, .rng, .mil, .out]

theorem raiseN_same (n : Nat) (s : State) (f : Field) (inst bit a b : Nat) (p : Part) (h : p ∉ causeParts) :
    p.same s (State.raiseN n s f inst bit a b) :=
  (State.raiseN_kept (pts := causeParts) (Kept.refl _ s) (List.Subset.refl _)).same p h

theorem raiseAt_same (s : State) (f : Field) (inst bit a b : Nat) (p : Part) (h : p ∉ causeParts) :
    p.same s (s.raiseAt f inst bit a b) := raiseN_same 3 s f inst bit a b p h

theorem raise_same (s : State) (f : Field) (p : Part) (h : p ∉ causeParts) : p.same s (s.raise f) :=
  raiseAt_same s f 0 0 0 0 p h

theorem stageLog_regs (s : State) (k a b c : Nat) : (s.stageLog k a b c).regs = s.regs :=
  (State.stageLog_kept (pts := [.mil, .out]) (Kept.refl _ s) (List.Subset.refl _)).same .regs (by decide)

theorem settleIrq_regs (s : State) (b : Block) (w : Bool) : (s.settleIrq b w).regs = s.regs :=
  (State.settleIrq_kept (pts := [.pf0, .pf1, .out]) (Kept.refl _ s) (List.Subset.refl _)).same .regs (by decide)

theorem putRec_regs (s : State) (r : Nat) (bs : List Byte) : (s.putRec r bs).1.regs = s.regs :=
  (State.putRec_kept (pts := [.pf0, .pf1, .rng, .out]) (Kept.refl _ s) (by decide)).same .regs (by decide)

/-- Setting a cause changes no register but the cause's own and, where its record is lost, RNG_INT_STATUS. -/
theorem raiseN_rd_other (n : Nat) {s : State} {f : Field} {inst bit a b : Nat} {r : Reg} {ix : Ix}
    (h1 : regAddr r ix ≠ regAddr f.reg (ixN inst)) (h2 : regAddr r ix ≠ regAddr .rngIntStatus ix0) :
    (State.raiseN n s f inst bit a b).rd r ix = s.rd r ix := by
  induction n generalizing s f inst bit a b with
  | zero => rfl
  | succ n ih =>
    unfold State.raiseN
    extract_lets blk old was s1 s3
    split
    · rfl
    · have e1 : s1.rd r ix = s.rd r ix := rd_wr_other h1 _ _
      have e3 : s3.rd r ix = s.rd r ix := by
        simp only [s3]
        split
        · rw [rd_of_regs (stageLog_regs ..), e1]
        · rename_i er _
          generalize eventWord f inst bit (s1.ring er).seq.toNat = w
          generalize h : s1.stageLog 1 w a b = s2
          have e2 : s2.rd r ix = s.rd r ix := by rw [← h, rd_of_regs (stageLog_regs ..), e1]
          have hp := putRec_regs s2 er (s2.eventBytes w a b)
          split <;> rename_i e <;> rw [e] at hp
          · rw [setRing_rd, rd_of_regs hp, e2]
          · rw [rd_of_regs hp, e2]
          · exact (ih (f := RNG_INT_STATUS_EVT_LOST) (inst := 0) h2).trans (by rw [rd_of_regs hp, e2])
      rw [rd_of_regs (settleIrq_regs ..), e3]

theorem bitAt_iff (n i : Nat) : bitAt n i = n.testBit i := by
  simp [bitAt, Nat.testBit, Nat.shiftRight_eq_div_pow]

theorem bit_or_left {v w : W64} {i : Nat} (h : bitAt v.toNat i = true) : bitAt (v ||| w).toNat i = true := by
  simp [bitAt_iff] at *; simp [h]

theorem bit_or_right {v : W64} {i : Nat} (hi : i < 64) : bitAt (v ||| BitVec.ofNat 64 (2 ^ i)).toNat i = true := by
  simp [bitAt_iff, Nat.mod_eq_of_lt (Nat.pow_lt_pow_right (by decide : 1 < 2) hi), Nat.testBit_two_pow_self]

/-- A cause that is set stays set while another is set. -/
theorem raiseN_bit_stays (n : Nat) {s : State} {f : Field} {inst bit a b : Nat} {r : Reg} {ix : Ix} {i : Nat}
    (h1 : (r = f.reg ∧ ix = ixN inst) ∨ regAddr r ix ≠ regAddr f.reg (ixN inst))
    (h2 : (r = .rngIntStatus ∧ ix = ix0) ∨ regAddr r ix ≠ regAddr .rngIntStatus ix0)
    (h : bitAt (s.rd r ix).toNat i = true) : bitAt ((State.raiseN n s f inst bit a b).rd r ix).toNat i = true := by
  induction n generalizing s f inst bit a b with
  | zero => exact h
  | succ n ih =>
    unfold State.raiseN
    extract_lets blk old was s1 s3
    split
    · exact h
    · have e1 : bitAt (s1.rd r ix).toNat i = true := by
        rcases h1 with ⟨rfl, rfl⟩ | h1
        · simp only [s1, rd_wr_same]; exact bit_or_left h
        · simp only [s1, rd_wr_other h1]; exact h
      have e3 : bitAt (s3.rd r ix).toNat i = true := by
        simp only [s3]
        split
        · rw [rd_of_regs (stageLog_regs ..)]; exact e1
        · rename_i er _
          generalize eventWord f inst bit (s1.ring er).seq.toNat = w
          generalize h : s1.stageLog 1 w a b = s2
          have e2 : bitAt (s2.rd r ix).toNat i = true := by rw [← h, rd_of_regs (stageLog_regs ..)]; exact e1
          have hp := putRec_regs s2 er (s2.eventBytes w a b)
          split <;> rename_i e <;> rw [e] at hp
          · rw [setRing_rd, rd_of_regs hp]; exact e2
          · rw [rd_of_regs hp]; exact e2
          · exact ih h2 (by rw [rd_of_regs hp]; exact e2)
      rw [rd_of_regs (settleIrq_regs ..)]; exact e3

/-- A cause becomes set where its domain is up. -/
theorem raiseAt_bit {s : State} {f : Field} {inst bit a b : Nat} (hu : s.domUp (regDomain f.reg inst) = true)
    (hb : f.lsb + bit < 64)
    (h2 : (f.reg = .rngIntStatus ∧ ixN inst = ix0) ∨ regAddr f.reg (ixN inst) ≠ regAddr .rngIntStatus ix0) :
    bitAt ((s.raiseAt f inst bit a b).rd f.reg (ixN inst)).toNat (f.lsb + bit) = true := by
  unfold State.raiseAt State.raiseN
  extract_lets blk old was s1 s3
  split
  · rename_i h; simpa [hu] using h
  · have e1 : bitAt (s1.rd f.reg (ixN inst)).toNat (f.lsb + bit) = true := by
      simp only [s1, rd_wr_same]; exact bit_or_right hb
    have e3 : bitAt (s3.rd f.reg (ixN inst)).toNat (f.lsb + bit) = true := by
      simp only [s3]
      split
      · rw [rd_of_regs (stageLog_regs ..)]; exact e1
      · rename_i er _
        generalize eventWord f inst bit (s1.ring er).seq.toNat = w
        generalize h : s1.stageLog 1 w a b = s2
        have e2 : bitAt (s2.rd f.reg (ixN inst)).toNat (f.lsb + bit) = true := by
          rw [← h, rd_of_regs (stageLog_regs ..)]; exact e1
        have hp := putRec_regs s2 er (s2.eventBytes w a b)
        split <;> rename_i e <;> rw [e] at hp
        · rw [setRing_rd, rd_of_regs hp]; exact e2
        · rw [rd_of_regs hp]; exact e2
        · exact raiseN_bit_stays 2 h2 h2 (by rw [rd_of_regs hp]; exact e2)
    rw [rd_of_regs (settleIrq_regs ..)]; exact e3

theorem flag_of_bit {s : State} {f : Field} {ix : Ix} (hw : f.width = 1) (h : bitAt (s.rd f.reg ix).toNat f.lsb = true) :
    s.flag f ix = true := by
  simp only [State.flag, State.fld, Field.get, bitsOf, hw]
  simp only [bitAt, beq_iff_eq] at h
  simp [h]

/-- A one-bit cause of the only instance reads 1 once set. -/
theorem raise_flag {s : State} {f : Field} (hu : s.domUp (regDomain f.reg 0) = true) (hw : f.width = 1) (hb : f.lsb < 64)
    (h2 : f.reg = .rngIntStatus ∨ regAddr f.reg ix0 ≠ regAddr .rngIntStatus ix0) : (s.raise f).flag f ix0 = true :=
  flag_of_bit hw (raiseAt_bit (bit := 0) hu (by simpa using hb) (by
    rcases h2 with h | h
    · exact .inl ⟨h, rfl⟩
    · exact .inr h))

end Sys2Proof.Laws
end

