-- ==== Sys2Proof/Laws/Judge.lean ====
section
/-!
SUPPORT. Laws/Judge.lean: what judging protection keeps: unless a handover of a module that is to be isolated is under
way, `protJudge` changes nothing of the phase, the domains and the contacts (spec/18_protection.md R556), and no register
but those of protection, the USED counts of port groups, and the causes of lost locks and lost records.
-/
namespace Sys2Proof.Laws

open Sys2Proof.Machine Fld

/-- The addresses of the registers that judging protection may change. -/
def judged (a : Nat) : Bool :=
  (0x500000 ≤ a && a < 0x600000) || (0xD000000 ≤ a && a < 0xE000000) || a == regAddr .semIntStatus ix0 ||
    a == regAddr .rngIntStatus ix0

/-- The module part stays, and whether the module is to be isolated, and every register that is not `judged`. -/
structure Stays (s t : State) : Prop where
  gen : t.gen = s.gen
  leaving : t.prt.leaving = s.prt.leaving
  rd : ∀ r ix, judged (regAddr r ix) = false → t.rd r ix = s.rd r ix

theorem Stays.refl (s : State) : Stays s s := ⟨rfl, rfl, fun _ _ _ => rfl⟩

/-- A change that leaves the registers alone. -/
theorem Stays.of_regs {s t : State} (hg : t.gen = s.gen) (hl : t.prt.leaving = s.prt.leaving) (hr : t.regs = s.regs) :
    Stays s t := ⟨hg, hl, fun r ix _ => rd_of_regs hr r ix⟩

theorem ne_of_judged {a b : Nat} (ha : judged a = false) (hb : judged b = true) : a ≠ b := by
  rintro rfl; simp [ha] at hb

theorem Stays.trans {s t u : State} (a : Stays s t) (b : Stays t u) : Stays s u :=
  ⟨b.1.trans a.1, b.2.trans a.2, fun r ix h => (b.3 r ix h).trans (a.3 r ix h)⟩

theorem Stays.of_frame {ps : List Part} {s t : State} (h : Frame ps s t) (hg : .gen ∉ ps) (hp : .prt ∉ ps)
    (hr : .regs ∉ ps) : Stays s t := by
  have h1 := h .gen hg
  have h2 := h .prt hp
  exact .of_regs h1 (congrArg PrtSt.leaving h2) (h .regs hr)

theorem Stays.foldl {s : State} {α : Type} {f : State → α → State} {l : List α}
    (hf : ∀ s x, Stays s (f s x)) : Stays s (l.foldl f s) := by
  induction l generalizing s with
  | nil => exact .refl s
  | cons x l ih => exact (hf s x).trans ih

theorem Stays.foldl_mem {s : State} {α : Type} {f : State → α → State} {l : List α}
    (hf : ∀ s, ∀ x ∈ l, Stays s (f s x)) : Stays s (l.foldl f s) := by
  induction l generalizing s with
  | nil => exact .refl s
  | cons x l ih =>
    exact (hf s x (List.mem_cons_self ..)).trans (ih fun s y hy => hf s y (List.mem_cons_of_mem _ hy))

theorem Stays.foldl_range {s : State} {f : State → Nat → State} {n : Nat} (hf : ∀ s, ∀ k, k < n → Stays s (f s k)) :
    Stays s ((List.range n).foldl f s) := .foldl_mem fun s k hk => hf s k (List.mem_range.1 hk)

theorem Stays.ite {s a b : State} {c : Prop} [Decidable c] (ha : Stays s a) (hb : Stays s b) :
    Stays s (if c then a else b) := by split <;> assumption

theorem raiseAt_stays (s : State) {f : Field} {i : Nat} (b x y : Nat) (hj : judged (regAddr f.reg (ixN i)) = true := by decide) :
    Stays s (s.raiseAt f i b x y) :=
  ⟨raiseAt_same s f i b x y .gen (by decide),
    congrArg PrtSt.leaving (raiseAt_same s f i b x y .prt (by decide)),
    fun _ _ h => raiseN_rd_other 3 (ne_of_judged h hj) (ne_of_judged h (by decide))⟩

theorem raise_stays (s : State) {f : Field} (hj : judged (regAddr f.reg ix0) = true := by decide) : Stays s (s.raise f) :=
  raiseAt_stays s 0 0 0 hj

theorem setGroup_stays (s : State) (g : Nat) (x : GroupSt) : Stays s (s.setGroup g x) := ⟨rfl, rfl, fun _ _ _ => rfl⟩

theorem modGroup_stays (s : State) (g : Nat) (f : GroupSt → GroupSt) : Stays s (s.modGroup g f) := setGroup_stays ..

theorem set_stays (s : State) {f : Field} {ix : Ix} (x : Nat) (hj : judged (regAddr f.reg ix) = true) :
    Stays s (s.set f ix x) := ⟨rfl, rfl, fun _ _ h => rd_set_other (ne_of_judged h hj) _ _⟩

theorem judged_status {g : Nat} (hg : g < 32) : judged (regAddr .prtGroupStatus (ixI g)) = true := by
  have : regAddr .prtGroupStatus (ixI g) = 0x500200 + 8 * g := by simp [regAddr, ixI]; rfl
  simp [judged, this]; omega

theorem judged_cfg {g : Nat} (hg : g < 32) : judged (regAddr .prtGroupCfg (ixI g)) = true := by
  have : regAddr .prtGroupCfg (ixI g) = 0x500100 + 8 * g := by simp [regAddr, ixI]; rfl
  simp [judged, this]; omega

theorem judged_used {g k : Nat} (hg : g < 32) (hk : k < 8) : judged (regAddr .crdClass (ixIJ g k)) = true := by
  have : regAddr .crdClass (ixIJ g k) = 0xD000800 + 64 * g + 8 * k := by simp [regAddr, ixIJ]; rfl
  simp [judged, this]; omega

theorem freshUsed_stays (s : State) (g : Nat) (hg : g < 32) : Stays s (s.freshUsed g) :=
  Stays.foldl_range fun s _ hk => set_stays s 0 (judged_used hg hk)

theorem takeRole_stays (s : State) (g : Nat) (a : Bool) (hg : g < 32) : Stays s (s.takeRole g a) := by
  unfold State.takeRole
  have hj : judged (regAddr PRT_GROUP_STATUS_SWITCHES.reg (ixI g)) = true := judged_status hg
  refine Stays.ite (modGroup_stays ..) (Stays.ite ?_ ((modGroup_stays ..).trans (set_stays _ _ hj)))
  exact ((modGroup_stays ..).trans (set_stays _ _ hj)).trans
    (Stays.foldl_range fun _ _ hk => Stays.ite (freshUsed_stays _ _ hk) (.refl _))

theorem autoRelease_stays (s : State) (m : Req) : Stays s (s.autoRelease m) := by
  unfold State.autoRelease
  exact Stays.ite (Stays.trans (t := { s with sem := s.sem.filter (fun e => e.2 != masterId m) }) ⟨rfl, rfl, fun _ _ _ => rfl⟩ (raise_stays _)) (.refl s)

theorem setCmp_stays (s : State) (k : Nat) (x : CmpSt) : Stays s (s.setCmp k x) := ⟨rfl, rfl, fun _ _ _ => rfl⟩

theorem sendLane_stays (s : State) (t : Nat) (b : List Byte) (l : Nat) : Stays s (s.sendLane t b l) := by
  unfold State.sendLane; exact Stays.ite (.refl s) ⟨rfl, rfl, fun _ _ _ => rfl⟩

theorem startSwitch_stays (s : State) (g c : Nat) : Stays s (s.startSwitch g c) := by
  unfold State.startSwitch State.sendRole State.sendAll
  refine Stays.trans ?_ (Stays.foldl fun _ _ => sendLane_stays ..)
  exact ⟨rfl, rfl, fun _ _ _ => rfl⟩

theorem switched_stays (s : State) (g : Nat) (hg : g < 32) : Stays s (s.switched g) := by
  unfold State.switched
  have hj : judged (regAddr PRT_GROUP_CFG_CMD.reg (ixI g)) = true := judged_cfg hg
  exact (modGroup_stays ..).trans ((Stays.ite (set_stays _ _ hj) (.refl _)).trans (raiseAt_stays _ _ _ _))

theorem initRole_stays (s : State) (g : Nat) (hg : g < 32) : Stays s (s.initRole g) :=
  (modGroup_stays ..).trans (takeRole_stays _ _ _ hg)

theorem claim_stays (s : State) : Stays s s.claim := by
  unfold State.claim
  extract_lets mine got s1
  have h : Stays s s1 := Stays.foldl_mem fun s g hm => by
    have hg : g < 32 := List.mem_range.1 (List.mem_filter.1 hm).1
    exact (Stays.ite (switched_stays _ _ hg) (.refl _)).trans ((modGroup_stays ..).trans (takeRole_stays _ _ _ hg))
  clear_value got
  cases got with
  | nil => exact h
  | cons g _ => exact h.trans (raiseAt_stays _ _ _ _)

theorem feltLost_stays (s : State) : Stays s s.feltLost := by
  unfold State.feltLost
  refine Stays.trans (Stays.trans ?_ (autoRelease_stays ..)) (raise_stays _)
  refine Stays.trans ?_ (Stays.foldl fun _ _ => setCmp_stays ..)
  exact ⟨rfl, rfl, fun _ _ _ => rfl⟩

theorem signs_stays (s : State) : Stays s s.signs := by
  unfold State.signs
  exact Stays.trans (Stays.ite (feltLost_stays s) (.refl s)) ⟨rfl, rfl, fun _ _ _ => rfl⟩

theorem pairSettle_stays (s : State) : Stays s s.pairSettle := by
  unfold State.pairSettle
  refine Stays.ite (.refl s) (Stays.ite (Stays.trans ?_ (claim_stays _)) ?_)
  all_goals
    refine Stays.trans ?_ (raise_stays _)
    refine Stays.trans ?_ (Stays.foldl fun _ _ => modGroup_stays ..)
    exact ⟨rfl, rfl, fun _ _ _ => rfl⟩

theorem judgeGroup_stays (s : State) (g : Nat) (w : Bool) : Stays s (s.judgeGroup g w) := by
  unfold State.judgeGroup
  refine Stays.ite (.refl s) ?_
  extract_lets x s1 x1
  have h : Stays s s1 := setGroup_stays ..
  split
  refine Stays.ite h (Stays.ite (h.trans (setGroup_stays ..)) (Stays.ite h (Stays.ite (h.trans (startSwitch_stays ..))
    (Stays.ite h ((h.trans (setGroup_stays ..)).trans (raiseAt_stays _ _ _ _))))))

/-- Unless the module is to be isolated, judging protection keeps the phase, the domains and the contacts. -/
theorem protJudge_stays (s : State) (h : s.prt.leaving = none) : Stays s s.protJudge := by
  unfold State.protJudge
  refine Stays.ite (.refl s) ?_
  extract_lets s1 s2 s3
  have h1 : Stays s s1 := (signs_stays s).trans (pairSettle_stays _)
  have h2 : Stays s s2 := Stays.ite (h1.trans (Stays.foldl_range fun s g hg => Stays.ite (initRole_stays _ _ hg) (.refl _))) h1
  have h3 : Stays s s3 := h2.trans (Stays.foldl fun s g => judgeGroup_stays ..)
  unfold State.leaveSettle
  rw [h3.leaving, h]
  exact h3

theorem settleFab_gen (s : State) : s.settleFab.gen = s.gen ∧ s.settleFab.prt = s.prt :=
  have h := (State.settleFab_kept (pts := [.freeCtr, .regs, .pf0, .pf1, .rng, .fab, .tim, .mil, .out]) (Kept.refl _ s)
    (List.Subset.refl _)).same
  ⟨h .gen (by decide), h .prt (by decide)⟩

theorem domainsSettled_gen (s : State) (h : s.prt.leaving = none) :
    s.domainsSettled.gen = s.gen ∧ s.domainsSettled.prt.leaving = none := by
  obtain ⟨h1, h2⟩ := settleFab_gen s
  have h3 : s.settleFab.prt.leaving = none := by rw [h2]; exact h
  have := protJudge_stays _ h3
  exact ⟨this.gen.trans h1, this.leaving.trans h3⟩

end Sys2Proof.Laws
end

