-- ==== Sys2Proof/Laws/KeptAccess.lean ====
section
/-!
SUPPORT. Laws/KeptAccess.lean: what the operations of register effects and accesses, the host views and the tick keep (Laws/Kept.lean),
one lemma for each.
-/
namespace Sys2Proof.Laws

open Sys2Proof.Machine

theorem State.synceSettle_kept {pts : List Part} {s0 : State} {s : State} {i : Nat} (hk : Kept pts s0 s)
    (hp : [.regs, .pf0, .pf1, .rng, .mil, .out] ⊆ pts) : Kept pts s0 (s.synceSettle i) := by
  unfold State.synceSettle
  repeat' first
    | with_reducible assumption | intro _ | (guard_target =~ Kept _ _ _; extract_lets +lift)
    | with_reducible refine State.set_kept ?_ (inAll (by decide) hp)
    | with_reducible refine State.raise_kept ?_ (inAll (by decide) hp) | with_reducible apply Kept.ite

theorem State.lanesSwitched_kept {pts : List Part} {s0 : State} {s : State} {old : Nat} (hk : Kept pts s0 s)
    (hp : [.freeCtr, .regs, .gen, .pf0, .pf1, .rng, .sem, .fab, .prt, .tim, .mil, .out] ⊆ pts)
    : Kept pts s0 (s.lanesSwitched old) := by
  unfold State.lanesSwitched
  repeat' first
    | with_reducible assumption | intro _ | (guard_target =~ Kept _ _ _; extract_lets +lift)
    | with_reducible refine State.protJudge_kept ?_ (inAll (by decide) hp)
    | with_reducible refine State.newFeltMarkers_kept ?_ (inAll (by decide) hp)
    | with_reducible apply Kept.ite | (with_reducible apply Kept.foldl; rotate_left; intro _ _ _)
    | (with_reducible refine Kept.fst (by assumption) ?_)
    | (simp -zeta only [keptMk]; (with_reducible refine KeptMk.upd ?_ rfl ?_); rotate_left;
        · intro p; cases p <;> first | exact .inl (hp (by decide)) | (right; dsimp only [Part.same]))
    | split | dsimp +zetaDelta only

theorem State.rwEffect_kept {pts : List Part} {s0 : State} {s : State} {p : RwPend} (hk : Kept pts s0 s)
    (hp : [.freeCtr, .regs, .gen, .pf0, .pf1, .rng, .sem, .fab, .prt, .pmn, .tim, .mil, .out] ⊆ pts)
    : Kept pts s0 (s.rwEffect p) := by
  unfold State.rwEffect
  repeat' first
    | with_reducible assumption | intro _ | (guard_target =~ Kept _ _ _; extract_lets +lift)
    | with_reducible refine State.takeRw_kept ?_ (inAll (by decide) hp)
    | with_reducible refine State.protJudge_kept ?_ (inAll (by decide) hp)
    | with_reducible refine State.settleFab_kept ?_ (inAll (by decide) hp)
    | with_reducible refine State.newMarkers_kept ?_ (inAll (by decide) hp)
    | with_reducible refine State.watchSf_kept ?_ (inAll (by decide) hp) ?_
    | with_reducible refine State.linkReset_kept ?_ (inAll (by decide) hp)
    | with_reducible refine State.freshUsed_kept ?_ (inAll (by decide) hp)
    | with_reducible refine State.lanesSwitched_kept ?_ (inAll (by decide) hp)
    | with_reducible refine State.synceSettle_kept ?_ (inAll (by decide) hp)
    | with_reducible refine State.gateSettle_kept ?_ (inAll (by decide) hp)
    | with_reducible apply Kept.ite | (with_reducible refine Kept.fst (by assumption) ?_) | split

theorem State.flushHooked_kept {pts : List Part} {s0 : State} {s : State} {b : Block} {inst : Nat}
    (hk : Kept pts s0 s)
    (hp : [.freeCtr, .regs, .acc, .gen, .pf0, .pf1, .rng, .sem, .fab, .prt, .pmn, .tim, .mil, .out] ⊆ pts)
    : Kept pts s0 (s.flushHooked b inst) := by
  unfold State.flushHooked
  repeat' first
    | with_reducible assumption | intro _ | (guard_target =~ Kept _ _ _; extract_lets +lift)
    | with_reducible refine State.rwEffect_kept ?_ (inAll (by decide) hp) | with_reducible apply Kept.ite
    | (with_reducible apply Kept.foldl; rotate_left; intro _ _ _)
    | (with_reducible refine Kept.fst (by assumption) ?_)
    | (simp -zeta only [keptMk]; (with_reducible refine KeptMk.upd ?_ rfl ?_); rotate_left;
        · intro p; cases p <;> first | exact .inl (hp (by decide)) | (right; dsimp only [Part.same]))

theorem rwFieldEffect_kept {pts : List Part} {s0 : State} {off : BitVec 28} {s : State} (hk : Kept pts s0 s)
    (hp : [.freeCtr, .regs, .acc, .gen, .pf0, .pf1, .rng, .sem, .fab, .prt, .pmn, .tim, .mil, .out] ⊆ pts)
    : Kept pts s0 (rwFieldEffect off s) := by
  unfold rwFieldEffect
  repeat' first
    | with_reducible assumption | intro _ | (guard_target =~ Kept _ _ _; extract_lets +lift)
    | with_reducible refine State.rwEffect_kept ?_ (inAll (by decide) hp) | with_reducible apply Kept.ite
    | (with_reducible refine Kept.fst (by assumption) ?_)
    | (simp -zeta only [keptMk]; (with_reducible refine KeptMk.upd ?_ rfl ?_); rotate_left;
        · intro p; cases p <;> first | exact .inl (hp (by decide)) | (right; dsimp only [Part.same]))
    | split

theorem State.applyGoTo_kept {pts : List Part} {s0 : State} {s : State} {req : Req} {b : Block} {inst : Nat}
    (hk : Kept pts s0 s) (hp : [.acc] ⊆ pts) : Kept pts s0 (s.applyGoTo req b inst) := by
  unfold State.applyGoTo
  repeat' first
    | with_reducible assumption | intro _ | (guard_target =~ Kept _ _ _; extract_lets +lift)
    | with_reducible refine State.setApply_kept ?_ (inAll (by decide) hp) | with_reducible apply Kept.ite

theorem State.takeStaged_kept {pts : List Part} {s0 : State} {s : State} {c : RegCell} (hk : Kept pts s0 s)
    (hp : [.regs] ⊆ pts) : Kept pts s0 (s.takeStaged c) := by
  unfold State.takeStaged
  repeat' first
    | with_reducible assumption | intro _ | with_reducible refine State.wr_kept ?_ (inAll (by decide) hp)
    | with_reducible apply Kept.ite | (with_reducible refine Kept.fst (by assumption) ?_) | split

theorem State.freeStaged_kept {pts : List Part} {s0 : State} {s : State} {cs : List RegCell} (hk : Kept pts s0 s)
    (hp : [.freeCtr] ⊆ pts) : Kept pts s0 (s.freeStaged cs).1 := by
  unfold State.freeStaged
  repeat' first
    | with_reducible assumption | intro _ | (guard_target =~ Kept _ _ _; extract_lets +lift)
    | with_reducible refine State.used_kept ?_ (inAll (by decide) hp) | with_reducible apply Kept.ite
    | (with_reducible apply Kept.foldl_fst; rotate_left; intro _ _ _)

theorem State.applied_kept {pts : List Part} {s0 : State} {s : State} {old : State} {b : Block} {cs : List RegCell}
    (hk : Kept pts s0 s)
    (hp : [.freeCtr, .regs, .gen, .pf0, .pf1, .rng, .sem, .qsc, .fab, .prt, .lin, .tim, .mil, .out] ⊆ pts)
    : Kept pts s0 (s.applied old b cs) := by
  unfold State.applied
  repeat' first
    | with_reducible assumption | intro _ | (guard_target =~ Kept _ _ _; extract_lets +lift)
    | with_reducible refine State.servoTo_kept ?_ (inAll (by decide) hp)
    | with_reducible refine State.masterSettle_kept ?_ (inAll (by decide) hp)
    | with_reducible refine State.poolWatch_kept ?_ (inAll (by decide) hp)
    | with_reducible refine State.xonWatch_kept ?_ (inAll (by decide) hp)
    | with_reducible refine State.newRates_kept ?_ (inAll (by decide) hp)
    | with_reducible refine State.protJudge_kept ?_ (inAll (by decide) hp)
    | with_reducible refine State.freshUsed_kept ?_ (inAll (by decide) hp) | with_reducible apply Kept.ite
    | (with_reducible apply Kept.foldl; rotate_left; intro _ _ _)
    | (with_reducible refine Kept.fst (by assumption) ?_)
    | (simp -zeta only [keptMk]; (with_reducible refine KeptMk.tim ?_ ⟨rfl, rfl, rfl⟩ ?_); rotate_left; · exact hp (by decide))
    | split

theorem stagedApply_kept {pts : List Part} {s0 : State} {b : Block} {inst : Fin 16} {s : State} (hk : Kept pts s0 s)
    (hp : [.freeCtr, .regs, .shadow, .acc, .gen, .pf0, .pf1, .rng, .sem, .qsc, .crd, .fab, .prt, .lin, .tim, .mil, .out] ⊆ pts)
    : Kept pts s0 (stagedApply b inst s) := by
  unfold stagedApply
  extract_lets k a cs
  split
  · exact hk
  · rename_i req _
    split
    · exact hk
    · split
      rename_i s1 vals e
      have h1 : Kept pts s0 s1 := Kept.fst e (by
        split
        · exact State.freeStaged_kept hk (inAll (by decide) hp)
        · exact hk)
      extract_lets old new new2
      have h2 : Kept pts s0 old := by
        simp only [old]; split
        · exact Kept.foldl h1 fun s x h => State.settleBucket_kept h (inAll (by decide) hp)
        · exact State.crdSettle_kept h1 (inAll (by decide) hp)
        · exact h1
      have h3 : Kept pts s0 new := Kept.foldl h2 fun s x h => State.takeStaged_kept h (inAll (by decide) hp)
      have h4 : Kept pts s0 new2 :=
        h3.trans ⟨fun p hq => by cases p <;> first | rfl | exact absurd (hp (by decide)) hq, rfl, rfl, id, fun h => rises_foldl_del _ _ _ h, id, id, List.suffix_refl _, Nat.le_refl _⟩
      split
      · exact State.applied_kept (State.setApply_kept h4 (inAll (by decide) hp)) (inAll (by decide) hp)
      · exact State.violation_kept (State.setApply_kept h1 (inAll (by decide) hp)) (inAll (by decide) hp)

theorem State.intClear_kept {pts : List Part} {s0 : State} {s : State} {b : Block} {inst : Nat} {v : W64}
    {newCauses : W64} (hk : Kept pts s0 s) (hp : [.regs, .pf0, .pf1, .rng, .tab, .mil, .out] ⊆ pts)
    : Kept pts s0 (s.intClear b inst v newCauses) := by
  unfold State.intClear
  repeat' first
    | with_reducible assumption | intro _ | (guard_target =~ Kept _ _ _; extract_lets +lift)
    | with_reducible refine State.wr_kept ?_ (inAll (by decide) hp)
    | with_reducible refine State.raiseAt_kept ?_ (inAll (by decide) hp)
    | with_reducible refine State.sendVector_kept ?_ (inAll (by decide) hp)
    | with_reducible refine State.settleIntx_kept ?_ (inAll (by decide) hp)
    | with_reducible apply Kept.ite | (with_reducible apply Kept.foldl; rotate_left; intro _ _ _)
    | (with_reducible refine Kept.fst (by assumption) ?_)
    | (simp -zeta only [keptMk]; (with_reducible refine KeptMk.upd ?_ rfl ?_); rotate_left;
        · intro p; cases p <;> first | exact .inl (hp (by decide)) | (right; dsimp only [Part.same]))
    | split | dsimp +zetaDelta only

theorem State.turnedAway_kept {pts : List Part} {s0 : State} {s : State} {f : Fn} {off : Nat} {write : Bool}
    (hk : Kept pts s0 s) (hp : [.freeCtr, .regs, .pf0, .pf1, .rng, .mil, .out] ⊆ pts)
    : Kept pts s0 (s.turnedAway f off write) := by
  unfold State.turnedAway
  repeat' first
    | with_reducible assumption | intro _ | (guard_target =~ Kept _ _ _; extract_lets +lift)
    | with_reducible refine State.unsupported_kept ?_ (inAll (by decide) hp)
    | with_reducible refine State.used_kept ?_ (inAll (by decide) hp) | with_reducible apply Kept.ite

theorem State.refuse_kept {pts : List Part} {s0 : State} {s : State} {req : Req} {off : Nat} {write : Bool}
    (hk : Kept pts s0 s) (hp : [.freeCtr, .regs, .pf0, .pf1, .rng, .mil, .out] ⊆ pts)
    : Kept pts s0 (s.refuse req off write) := by
  unfold State.refuse
  repeat' first
    | with_reducible assumption | intro _ | (guard_target =~ Kept _ _ _; extract_lets +lift)
    | with_reducible refine State.turnedAway_kept ?_ (inAll (by decide) hp)
    | with_reducible apply Kept.ite

theorem State.release_kept {pts : List Part} {s0 : State} {s : State} {req : Req} (hk : Kept pts s0 s)
    (hp : [.acc] ⊆ pts) : Kept pts s0 (s.release req) := by
  unfold State.release
  repeat' first
    | with_reducible assumption | intro _ | (guard_target =~ Kept _ _ _; extract_lets +lift)
    | with_reducible apply Kept.ite | (with_reducible refine Kept.fst (by assumption) ?_)
    | (simp -zeta only [keptMk]; (with_reducible refine KeptMk.upd ?_ rfl ?_); rotate_left;
        · intro p; cases p <;> first | exact .inl (hp (by decide)) | (right; dsimp only [Part.same]))

theorem State.dropLow_kept {pts : List Part} {s0 : State} {s : State} {req : Req} {off : Nat} (hk : Kept pts s0 s)
    (hp : [.acc] ⊆ pts) : Kept pts s0 (s.dropLow req off) := by
  unfold State.dropLow
  repeat' first
    | with_reducible assumption | intro _ | (guard_target =~ Kept _ _ _; extract_lets +lift)
    | with_reducible apply Kept.ite | (with_reducible refine Kept.fst (by assumption) ?_)
    | (simp -zeta only [keptMk]; (with_reducible refine KeptMk.upd ?_ rfl ?_); rotate_left;
        · intro p; cases p <;> first | exact .inl (hp (by decide)) | (right; dsimp only [Part.same]))

theorem State.unreachable_kept {pts : List Part} {s0 : State} {s : State} {req : Req} {off : Nat} {dom : Nat}
    {write : Bool} (hk : Kept pts s0 s) (hp : [.regs, .pf0, .pf1, .rng, .mil, .out] ⊆ pts)
    : Kept pts s0 (s.unreachable req off dom write) := by
  unfold State.unreachable
  repeat' first
    | with_reducible assumption | intro _
    | with_reducible refine State.offline_kept ?_ (inAll (by decide) hp)

theorem withFin_kept {pts : List Part} {s0 : State} {n : Nat} {i : Nat} {s : State} {f : Fin n → State → State}
    (hk : Kept pts s0 s) (hf : ∀ k s, Kept pts s0 s → Kept pts s0 (f k s)) : Kept pts s0 (withFin n i s f) := by
  unfold withFin
  repeat' first
    | with_reducible assumption | intro _
    | (with_reducible first | apply hf | apply Kept.ite)
    | (with_reducible refine Kept.fst (by assumption) ?_) | split

theorem State.writeFields_kept {pts : List Part} {s0 : State} {s : State} {req : Req} {off : Nat} {r : Reg} {ix : Ix}
    {v : W64} {skip : W64} (hk : Kept pts s0 s) (hp : [.regs, .shadow, .acc, .pf0, .pf1, .rng, .mil, .out] ⊆ pts)
    : Kept pts s0 (s.writeFields req off r ix v skip) := by
  unfold State.writeFields
  repeat' first
    | with_reducible assumption | intro _ | (guard_target =~ Kept _ _ _; extract_lets +lift)
    | with_reducible refine State.writeRws_kept ?_ (inAll (by decide) hp)
    | with_reducible refine State.writeRwx_kept ?_ (inAll (by decide) hp) | with_reducible apply Kept.ite
    | (with_reducible refine Kept.fst (by assumption) ?_)
    | (simp -zeta only [keptMk]; (with_reducible refine KeptMk.upd ?_ rfl ?_); rotate_left;
        · intro p; cases p <;> first | exact .inl (hp (by decide)) | (right; dsimp only [Part.same]))

theorem State.writePlain_kept {pts : List Part} {s0 : State} {s : State} {req : Req} {off : Nat} {r : Reg} {ix : Ix}
    {v : W64} (hk : Kept pts s0 s)
    (hp : [.freeCtr, .regs, .shadow, .acc, .gen, .pf0, .pf1, .rng, .sem, .fab, .prt, .tim, .mil, .out] ⊆ pts)
    : Kept pts s0 (s.writePlain req off r ix v) := by
  unfold State.writePlain
  repeat' first
    | with_reducible assumption | intro _ | (guard_target =~ Kept _ _ _; extract_lets +lift)
    | with_reducible refine State.violation_kept ?_ (inAll (by decide) hp)
    | with_reducible refine State.writeFields_kept ?_ (inAll (by decide) hp)
    | with_reducible refine State.count_kept ?_ (inAll (by decide) hp)
    | with_reducible refine State.protJudge_kept ?_ (inAll (by decide) hp)
    | with_reducible refine State.settleFab_kept ?_ (inAll (by decide) hp) | with_reducible apply Kept.ite
    | (with_reducible refine Kept.fst (by assumption) ?_) | split

theorem State.healthClear_kept {pts : List Part} {s0 : State} {s : State} {v : W64} (hk : Kept pts s0 s)
    (hp : [.regs, .pf0, .pf1, .rng, .mil, .out] ⊆ pts) : Kept pts s0 (s.healthClear v) := by
  unfold State.healthClear
  repeat' first
    | with_reducible assumption | intro _ | (guard_target =~ Kept _ _ _; extract_lets +lift)
    | with_reducible refine State.healthTo_kept ?_ (inAll (by decide) hp) | with_reducible apply Kept.ite
    | (with_reducible apply Kept.foldl; rotate_left; intro _ _ _)

theorem State.writeGen_kept {pts : List Part} {s0 : State} {s : State} {req : Req} {off : Nat} {r : Reg} {ix : Ix}
    {v : W64} (hk : Kept pts s0 s)
    (hp : [.freeCtr, .regs, .shadow, .acc, .gen, .couch, .pf0, .pf1, .pce, .rng, .hostQ, .mbx, .sem, .ing, .tab, .asa, .cmt, .replQ, .bpm, .adm, .ddc, .qsc, .crd, .gates, .fab, .egr, .prt, .lin, .pmn, .tim, .mil, .arrivals, .out] ⊆ pts)
    : Kept pts s0 (s.writeGen req off r ix v) := by
  unfold State.writeGen
  repeat' first
    | with_reducible assumption | intro _ | (guard_target =~ Kept _ _ _; extract_lets +lift)
    | with_reducible refine phaseReqPark_kept ?_ (inAll (by decide) hp)
    | with_reducible refine phaseReqRun_kept ?_ (inAll (by decide) hp)
    | with_reducible refine phaseReqIsolate_kept ?_ (inAll (by decide) hp)
    | with_reducible refine domainHold_kept ?_ (inAll (by decide) hp)
    | with_reducible refine State.violation_kept ?_ (inAll (by decide) hp)
    | with_reducible refine Laws.cold_kept ?_ (inAll (by decide) hp)
    | with_reducible refine warmQx_kept ?_ (inAll (by decide) hp)
    | with_reducible refine State.wr_kept ?_ (inAll (by decide) hp)
    | with_reducible refine State.writePlain_kept ?_ (inAll (by decide) hp)
    | with_reducible apply Kept.ite | (with_reducible refine Kept.fst (by assumption) ?_) | split

theorem State.writeHost_kept {pts : List Part} {s0 : State} {s : State} {req : Req} {off : Nat} {r : Reg} {ix : Ix}
    {v : W64} (hk : Kept pts s0 s)
    (hp : [.freeCtr, .regs, .shadow, .acc, .gen, .pf0, .pf1, .pce, .rng, .mbx, .sem, .cmt, .fab, .prt, .tim, .mil, .out] ⊆ pts)
    : Kept pts s0 (s.writeHost req off r ix v) := by
  unfold State.writeHost
  repeat' first
    | with_reducible assumption | intro _ | (guard_target =~ Kept _ _ _; extract_lets +lift)
    | with_reducible refine State.writeWin_kept ?_ (inAll (by decide) hp)
    | with_reducible refine withFin_kept ?_ ?_
    | with_reducible refine ringEnable_kept ?_ (inAll (by decide) hp)
    | with_reducible refine ringDisable_kept ?_ (inAll (by decide) hp)
    | with_reducible refine mbxH2mPost_kept ?_ (inAll (by decide) hp)
    | with_reducible refine State.clearH2mStat_kept ?_ (inAll (by decide) hp)
    | with_reducible refine mbxM2hTake_kept ?_ (inAll (by decide) hp)
    | with_reducible refine mbxModeWrite_kept ?_ (inAll (by decide) hp)
    | with_reducible refine rel_kept ?_ (inAll (by decide) hp)
    | with_reducible refine force_kept ?_ (inAll (by decide) hp)
    | with_reducible refine State.writePlain_kept ?_ (inAll (by decide) hp)
    | with_reducible apply Kept.ite | (with_reducible refine Kept.fst (by assumption) ?_) | split

theorem State.writeFx_kept {pts : List Part} {s0 : State} {s : State} {req : Req} {off : Nat} {r : Reg} {ix : Ix}
    {v : W64} (hk : Kept pts s0 s)
    (hp : [.freeCtr, .regs, .shadow, .acc, .gen, .pf0, .pf1, .rng, .sem, .tab, .asa, .cmt, .fab, .prt, .lin, .pmn, .tim, .mil, .out] ⊆ pts)
    : Kept pts s0 (s.writeFx req off r ix v) := by
  unfold State.writeFx
  repeat' first
    | with_reducible assumption | intro _ | (guard_target =~ Kept _ _ _; extract_lets +lift)
    | with_reducible refine withFin_kept ?_ ?_
    | with_reducible refine sliceRun_kept ?_ (inAll (by decide) hp)
    | with_reducible refine sliceStop_kept ?_ (inAll (by decide) hp)
    | with_reducible refine portEnable_kept ?_ (inAll (by decide) hp)
    | with_reducible refine calReq_kept ?_ (inAll (by decide) hp)
    | with_reducible refine flxGroupEnable_kept ?_ (inAll (by decide) hp)
    | with_reducible refine flxClientEnable_kept ?_ (inAll (by decide) hp)
    | with_reducible refine flxCktEnable_kept ?_ (inAll (by decide) hp)
    | with_reducible refine State.xcCtrl_kept ?_ (inAll (by decide) hp)
    | with_reducible refine flushStart_kept ?_ (inAll (by decide) hp)
    | with_reducible refine State.writePlain_kept ?_ (inAll (by decide) hp)
    | with_reducible refine poisonClr_kept ?_ (inAll (by decide) hp)
    | with_reducible refine asaBankRun_kept ?_ (inAll (by decide) hp)
    | with_reducible refine asaBankStop_kept ?_ (inAll (by decide) hp)
    | with_reducible refine start_kept ?_ (inAll (by decide) hp)
    | with_reducible refine next_kept ?_ (inAll (by decide) hp)
    | with_reducible refine srchEnd_kept ?_ (inAll (by decide) hp)
    | with_reducible refine tableRead_kept ?_ (inAll (by decide) hp) | with_reducible apply Kept.ite
    | (with_reducible refine Kept.fst (by assumption) ?_) | split

theorem State.writeQx_kept {pts : List Part} {s0 : State} {s : State} {req : Req} {off : Nat} {r : Reg} {ix : Ix}
    {v : W64} (hk : Kept pts s0 s)
    (hp : [.freeCtr, .regs, .shadow, .acc, .gen, .pf0, .pf1, .rng, .sem, .bpm, .ddc, .qsc, .crd, .gates, .fab, .prt, .pmn, .tim, .mil, .out] ⊆ pts)
    : Kept pts s0 (s.writeQx req off r ix v) := by
  unfold State.writeQx
  repeat' first
    | with_reducible assumption | intro _ | (guard_target =~ Kept _ _ _; extract_lets +lift)
    | with_reducible refine timAdjLoad_kept ?_ (inAll (by decide) hp)
    | with_reducible refine timAdjStep_kept ?_ (inAll (by decide) hp)
    | with_reducible refine timAdjSlew_kept ?_ (inAll (by decide) hp)
    | with_reducible refine withFin_kept ?_ ?_
    | with_reducible refine protGroupEnable_kept ?_ (inAll (by decide) hp)
    | with_reducible refine recoveryDone_kept ?_ (inAll (by decide) hp)
    | with_reducible refine State.healthClear_kept ?_ (inAll (by decide) hp)
    | with_reducible refine ddcRun_kept ?_ (inAll (by decide) hp)
    | with_reducible refine cntClr_kept ?_ (inAll (by decide) hp)
    | with_reducible refine spareGo_kept ?_ (inAll (by decide) hp)
    | with_reducible refine State.violation_kept ?_ (inAll (by decide) hp)
    | with_reducible refine State.flushRw_kept ?_ (inAll (by decide) hp)
    | with_reducible refine qscRun_kept ?_ (inAll (by decide) hp)
    | with_reducible refine queueFlushStart_kept ?_ (inAll (by decide) hp)
    | with_reducible refine State.writePlain_kept ?_ (inAll (by decide) hp)
    | with_reducible refine crdResEnable_kept ?_ (inAll (by decide) hp)
    | with_reducible refine Laws.change_kept ?_ (inAll (by decide) hp)
    | with_reducible refine fabMacroRun_kept ?_ (inAll (by decide) hp) | with_reducible apply Kept.ite
    | (with_reducible refine Kept.fst (by assumption) ?_) | split

theorem State.writeReg_kept {pts : List Part} {s0 : State} {s : State} {req : Req} {off : Nat} {r : Reg} {ix : Ix}
    {v : W64} (hk : Kept pts s0 s)
    (hp : [.freeCtr, .regs, .shadow, .acc, .gen, .couch, .pf0, .pf1, .pce, .rng, .hostQ, .mbx, .sem, .ing, .tab, .asa, .cmt, .replQ, .bpm, .adm, .ddc, .qsc, .crd, .gates, .fab, .egr, .prt, .lin, .pmn, .tim, .mil, .arrivals, .out] ⊆ pts)
    : Kept pts s0 (s.writeReg req off r ix v) := by
  unfold State.writeReg
  repeat' first
    | with_reducible assumption | intro _ | (guard_target =~ Kept _ _ _; extract_lets +lift)
    | with_reducible refine State.flushHooked_kept ?_ (inAll (by decide) hp)
    | with_reducible refine State.intClear_kept ?_ (inAll (by decide) hp)
    | with_reducible refine State.applyGoTo_kept ?_ (inAll (by decide) hp)
    | with_reducible refine State.writeGen_kept ?_ (inAll (by decide) hp)
    | with_reducible refine State.writeHost_kept ?_ (inAll (by decide) hp)
    | with_reducible refine State.writeFx_kept ?_ (inAll (by decide) hp)
    | with_reducible refine State.writeQx_kept ?_ (inAll (by decide) hp) | with_reducible apply Kept.ite
    | (with_reducible refine Kept.fst (by assumption) ?_) | split | dsimp +zetaDelta only

theorem State.writeAt_kept {pts : List Part} {s0 : State} {s : State} {req : Req} {off : Nat} {v : W64}
    (hk : Kept pts s0 s)
    (hp : [.freeCtr, .regs, .shadow, .acc, .gen, .couch, .pf0, .pf1, .pce, .rng, .hostQ, .mbx, .sem, .ing, .tab, .asa, .cmt, .replQ, .bpm, .adm, .ddc, .qsc, .crd, .gates, .fab, .egr, .prt, .lin, .pmn, .tim, .mil, .arrivals, .out] ⊆ pts)
    : Kept pts s0 (s.writeAt req off v) := by
  unfold State.writeAt
  repeat' first
    | with_reducible assumption | intro _ | (guard_target =~ Kept _ _ _; extract_lets +lift)
    | with_reducible refine State.unreachable_kept ?_ (inAll (by decide) hp)
    | with_reducible refine State.writeReg_kept ?_ (inAll (by decide) hp) | with_reducible apply Kept.ite
    | (with_reducible refine Kept.fst (by assumption) ?_) | split

theorem State.writePosted_kept {pts : List Part} {s0 : State} {s : State} {p : Posted} (hk : Kept pts s0 s)
    (hp : [.freeCtr, .regs, .shadow, .acc, .gen, .couch, .pf0, .pf1, .pce, .rng, .hostQ, .mbx, .sem, .ing, .tab, .asa, .cmt, .replQ, .bpm, .adm, .ddc, .qsc, .crd, .gates, .fab, .egr, .prt, .lin, .pmn, .tim, .mil, .arrivals, .out] ⊆ pts)
    : Kept pts s0 (s.writePosted p) := by
  unfold State.writePosted
  repeat' first
    | with_reducible assumption | intro _
    | with_reducible refine State.writeAt_kept ?_ (inAll (by decide) hp)

theorem State.deliver16_kept {pts : List Part} {s0 : State} {s : State} {ps : List Posted} (hk : Kept pts s0 s)
    (hp : [.freeCtr, .regs, .shadow, .acc, .gen, .couch, .pf0, .pf1, .pce, .rng, .hostQ, .mbx, .sem, .ing, .tab, .asa, .cmt, .replQ, .bpm, .adm, .ddc, .qsc, .crd, .gates, .fab, .egr, .prt, .lin, .pmn, .tim, .mil, .arrivals, .out] ⊆ pts)
    : Kept pts s0 (s.deliver16 ps) := by
  unfold State.deliver16
  repeat' first
    | with_reducible assumption | intro _ | (guard_target =~ Kept _ _ _; extract_lets +lift)
    | with_reducible refine State.writePosted_kept ?_ (inAll (by decide) hp)
    | with_reducible apply Kept.ite | (with_reducible apply Kept.foldl; rotate_left; intro _ _ _)

theorem State.deliverAll_kept {pts : List Part} {s0 : State} {s : State} {req : Req} (hk : Kept pts s0 s)
    (hp : [.freeCtr, .regs, .shadow, .acc, .gen, .couch, .pf0, .pf1, .pce, .rng, .hostQ, .mbx, .sem, .ing, .tab, .asa, .cmt, .replQ, .bpm, .adm, .ddc, .qsc, .crd, .gates, .fab, .egr, .prt, .lin, .pmn, .tim, .mil, .arrivals, .out] ⊆ pts)
    : Kept pts s0 (s.deliverAll req) := by
  unfold State.deliverAll
  repeat' first
    | with_reducible assumption | intro _ | (guard_target =~ Kept _ _ _; extract_lets +lift)
    | with_reducible refine State.crossWrites_kept ?_ (inAll (by decide) hp)
    | with_reducible refine State.admitHeld_kept ?_ (inAll (by decide) hp)
    | with_reducible refine State.deliver16_kept ?_ (inAll (by decide) hp) | with_reducible apply Kept.ite
    | (with_reducible refine Kept.fst (by assumption) ?_)
    | (simp -zeta only [keptMk]; (with_reducible refine KeptMk.upd ?_ rfl ?_); rotate_left;
        · intro p; cases p <;> first | exact .inl (hp (by decide)) | (right; dsimp only [Part.same]))

theorem State.deliverOne_kept {pts : List Part} {s0 : State} {s : State} {f : Posted → Bool} (hk : Kept pts s0 s)
    (hp : [.freeCtr, .regs, .shadow, .acc, .gen, .couch, .pf0, .pf1, .pce, .rng, .hostQ, .mbx, .sem, .ing, .tab, .asa, .cmt, .replQ, .bpm, .adm, .ddc, .qsc, .crd, .gates, .fab, .egr, .prt, .lin, .pmn, .tim, .mil, .arrivals, .out] ⊆ pts)
    : Kept pts s0 (s.deliverOne f) := by
  unfold State.deliverOne
  repeat' first
    | with_reducible assumption | intro _ | (guard_target =~ Kept _ _ _; extract_lets +lift)
    | with_reducible refine State.admitHeld_kept ?_ (inAll (by decide) hp)
    | with_reducible refine State.writePosted_kept ?_ (inAll (by decide) hp)
    | with_reducible apply Kept.ite | (with_reducible refine Kept.fst (by assumption) ?_)
    | (simp -zeta only [keptMk]; (with_reducible refine KeptMk.upd ?_ rfl ?_); rotate_left;
        · intro p; cases p <;> first | exact .inl (hp (by decide)) | (right; dsimp only [Part.same]))
    | split

theorem State.issueWrite_kept {pts : List Part} {s0 : State} {s : State} {req : Req} {off : Nat} {v : W64} {hi : Bool}
    (hk : Kept pts s0 s)
    (hp : [.freeCtr, .regs, .shadow, .acc, .gen, .couch, .pf0, .pf1, .pce, .rng, .hostQ, .mbx, .sem, .ing, .tab, .asa, .cmt, .replQ, .bpm, .adm, .ddc, .qsc, .crd, .gates, .fab, .egr, .prt, .lin, .pmn, .tim, .mil, .arrivals, .out] ⊆ pts)
    : Kept pts s0 (s.issueWrite req off v hi) := by
  unfold State.issueWrite
  repeat' first
    | with_reducible assumption | intro _ | (guard_target =~ Kept _ _ _; extract_lets +lift)
    | with_reducible refine State.postWrite_kept ?_ (inAll (by decide) hp)
    | with_reducible refine State.writeAt_kept ?_ (inAll (by decide) hp) | with_reducible apply Kept.ite

theorem State.write64_kept {pts : List Part} {s0 : State} {s : State} {req : Req} {off : Nat} {v : W64}
    (hk : Kept pts s0 s)
    (hp : [.freeCtr, .regs, .shadow, .acc, .gen, .couch, .pf0, .pf1, .pce, .rng, .hostQ, .mbx, .sem, .ing, .tab, .asa, .cmt, .replQ, .bpm, .adm, .ddc, .qsc, .crd, .gates, .fab, .egr, .prt, .lin, .pmn, .tim, .mil, .arrivals, .out] ⊆ pts)
    : Kept pts s0 (s.write64 req off v) := by
  unfold State.write64
  repeat' first
    | with_reducible assumption | intro _ | (guard_target =~ Kept _ _ _; extract_lets +lift)
    | with_reducible refine State.issueWrite_kept ?_ (inAll (by decide) hp)
    | with_reducible refine State.dropLow_kept ?_ (inAll (by decide) hp)
    | with_reducible refine State.release_kept ?_ (inAll (by decide) hp)

theorem State.writeLow_kept {pts : List Part} {s0 : State} {s : State} {req : Req} {off : Nat} {v : W32}
    (hk : Kept pts s0 s) (hp : [.acc] ⊆ pts) : Kept pts s0 (s.writeLow req off v) := by
  unfold State.writeLow
  repeat' first
    | with_reducible assumption | intro _ | (guard_target =~ Kept _ _ _; extract_lets +lift)
    | with_reducible refine State.dropLow_kept ?_ (inAll (by decide) hp)
    | with_reducible refine State.release_kept ?_ (inAll (by decide) hp) | with_reducible apply Kept.ite
    | (with_reducible refine Kept.fst (by assumption) ?_)
    | (simp -zeta only [keptMk]; (with_reducible refine KeptMk.upd ?_ rfl ?_); rotate_left;
        · intro p; cases p <;> first | exact .inl (hp (by decide)) | (right; dsimp only [Part.same]))

theorem State.writeHigh_kept {pts : List Part} {s0 : State} {s : State} {req : Req} {off : Nat} {v : W32}
    (hk : Kept pts s0 s)
    (hp : [.freeCtr, .regs, .shadow, .acc, .gen, .couch, .pf0, .pf1, .pce, .rng, .hostQ, .mbx, .sem, .ing, .tab, .asa, .cmt, .replQ, .bpm, .adm, .ddc, .qsc, .crd, .gates, .fab, .egr, .prt, .lin, .pmn, .tim, .mil, .arrivals, .out] ⊆ pts)
    : Kept pts s0 (s.writeHigh req off v) := by
  unfold State.writeHigh
  repeat' first
    | with_reducible assumption | intro _ | (guard_target =~ Kept _ _ _; extract_lets +lift)
    | with_reducible refine State.dropLow_kept ?_ (inAll (by decide) hp)
    | with_reducible refine State.release_kept ?_ (inAll (by decide) hp)
    | with_reducible refine State.issueWrite_kept ?_ (inAll (by decide) hp)
    | with_reducible apply Kept.ite | (with_reducible refine Kept.fst (by assumption) ?_) | split
    | dsimp +zetaDelta only

theorem State.clearRc_kept {pts : List Part} {s0 : State} {s : State} {r : Reg} {ix : Ix} {low : Bool}
    (hk : Kept pts s0 s) (hp : [.regs] ⊆ pts) : Kept pts s0 (s.clearRc r ix low) := by
  unfold State.clearRc
  repeat' first
    | with_reducible assumption | intro _ | (guard_target =~ Kept _ _ _; extract_lets +lift)
    | with_reducible refine State.wr_kept ?_ (inAll (by decide) hp) | with_reducible apply Kept.ite

theorem State.readReg_kept {pts : List Part} {s0 : State} {s : State} {req : Req} {r : Reg} {ix : Ix} {low : Bool}
    (hk : Kept pts s0 s) (hp : [.freeCtr, .regs, .acc, .sem] ⊆ pts) : Kept pts s0 (s.readReg req r ix low).1 := by
  unfold State.readReg
  repeat' first
    | with_reducible assumption | intro _ | (guard_target =~ Kept _ _ _; extract_lets +lift)
    | with_reducible refine State.release_kept ?_ (inAll (by decide) hp)
    | with_reducible refine State.readLock_kept ?_ (inAll (by decide) hp)
    | with_reducible refine State.captureNs_kept ?_ (inAll (by decide) hp)
    | with_reducible refine State.clearRc_kept ?_ (inAll (by decide) hp)
    | with_reducible refine State.used_kept ?_ (inAll (by decide) hp) | with_reducible apply Kept.ite
    | (with_reducible refine Kept.fst (by assumption) ?_) | split

theorem State.readOff_kept {pts : List Part} {s0 : State} {s : State} {req : Req} {off : Nat} {low : Bool}
    (hk : Kept pts s0 s)
    (hp : [.freeCtr, .regs, .shadow, .acc, .gen, .couch, .pf0, .pf1, .pce, .rng, .hostQ, .mbx, .sem, .ing, .tab, .asa, .cmt, .replQ, .bpm, .adm, .ddc, .qsc, .crd, .gates, .fab, .egr, .prt, .lin, .pmn, .tim, .mil, .arrivals, .out] ⊆ pts)
    : Kept pts s0 (s.readOff req off low).1 := by
  unfold State.readOff
  repeat' first
    | with_reducible assumption | intro _ | (guard_target =~ Kept _ _ _; extract_lets +lift)
    | with_reducible refine State.deliverAll_kept ?_ (inAll (by decide) hp)
    | with_reducible refine State.release_kept ?_ (inAll (by decide) hp)
    | with_reducible refine State.unreachable_kept ?_ (inAll (by decide) hp)
    | with_reducible refine State.readReg_kept ?_ (inAll (by decide) hp) | with_reducible apply Kept.ite
    | (with_reducible refine Kept.fst (by assumption) ?_) | split

theorem State.readLow_kept {pts : List Part} {s0 : State} {s : State} {req : Req} {off : Nat} (hk : Kept pts s0 s)
    (hp : [.freeCtr, .regs, .shadow, .acc, .gen, .couch, .pf0, .pf1, .pce, .rng, .hostQ, .mbx, .sem, .ing, .tab, .asa, .cmt, .replQ, .bpm, .adm, .ddc, .qsc, .crd, .gates, .fab, .egr, .prt, .lin, .pmn, .tim, .mil, .arrivals, .out] ⊆ pts)
    : Kept pts s0 (s.readLow req off).1 := by
  unfold State.readLow
  repeat' first
    | with_reducible assumption | intro _ | (guard_target =~ Kept _ _ _; extract_lets +lift)
    | with_reducible refine State.readOff_kept ?_ (inAll (by decide) hp) | with_reducible apply Kept.ite
    | (with_reducible refine Kept.fst (by assumption) ?_)
    | (simp -zeta only [keptMk]; (with_reducible refine KeptMk.upd ?_ rfl ?_); rotate_left;
        · intro p; cases p <;> first | exact .inl (hp (by decide)) | (right; dsimp only [Part.same]))
    | split | dsimp +zetaDelta only

theorem State.readHigh_kept {pts : List Part} {s0 : State} {s : State} {req : Req} {off : Nat} (hk : Kept pts s0 s)
    (hp : [.freeCtr, .regs, .shadow, .acc, .gen, .couch, .pf0, .pf1, .pce, .rng, .hostQ, .mbx, .sem, .ing, .tab, .asa, .cmt, .replQ, .bpm, .adm, .ddc, .qsc, .crd, .gates, .fab, .egr, .prt, .lin, .pmn, .tim, .mil, .arrivals, .out] ⊆ pts)
    : Kept pts s0 (s.readHigh req off).1 := by
  unfold State.readHigh
  repeat' first
    | with_reducible assumption | intro _ | (guard_target =~ Kept _ _ _; extract_lets +lift)
    | with_reducible refine State.readOff_kept ?_ (inAll (by decide) hp) | with_reducible apply Kept.ite
    | (with_reducible refine Kept.fst (by assumption) ?_)
    | (simp -zeta only [keptMk]; (with_reducible refine KeptMk.upd ?_ rfl ?_); rotate_left;
        · intro p; cases p <;> first | exact .inl (hp (by decide)) | (right; dsimp only [Part.same]))
    | split

theorem State.answerRead_kept {pts : List Part} {s0 : State} {s : State} {req : Req} {off : Nat} {part : RegPart}
    (hk : Kept pts s0 s)
    (hp : [.freeCtr, .regs, .shadow, .acc, .gen, .couch, .pf0, .pf1, .pce, .rng, .hostQ, .mbx, .sem, .ing, .tab, .asa, .cmt, .replQ, .bpm, .adm, .ddc, .qsc, .crd, .gates, .fab, .egr, .prt, .lin, .pmn, .tim, .mil, .arrivals, .out] ⊆ pts)
    : Kept pts s0 (s.answerRead req off part) := by
  unfold State.answerRead
  repeat' first
    | with_reducible assumption | intro _ | (guard_target =~ Kept _ _ _; extract_lets +lift)
    | with_reducible refine State.readOff_kept ?_ (inAll (by decide) hp)
    | with_reducible refine State.emit_kept ?_ (inAll (by decide) hp)
    | with_reducible refine State.readLow_kept ?_ (inAll (by decide) hp)
    | with_reducible refine State.readHigh_kept ?_ (inAll (by decide) hp) | with_reducible apply Kept.ite
    | (with_reducible refine Kept.fst (by assumption) ?_) | split

theorem State.readPart_kept {pts : List Part} {s0 : State} {s : State} {req : Req} {off : Nat} {part : RegPart}
    (hk : Kept pts s0 s)
    (hp : [.freeCtr, .regs, .shadow, .acc, .gen, .couch, .pf0, .pf1, .pce, .rng, .hostQ, .mbx, .sem, .ing, .tab, .asa, .cmt, .replQ, .bpm, .adm, .ddc, .qsc, .crd, .gates, .fab, .egr, .prt, .lin, .pmn, .tim, .mil, .arrivals, .out] ⊆ pts)
    : Kept pts s0 (s.readPart req off part) := by
  unfold State.readPart
  repeat' first
    | with_reducible assumption | intro _ | (guard_target =~ Kept _ _ _; extract_lets +lift)
    | with_reducible refine State.answerRead_kept ?_ (inAll (by decide) hp)
    | with_reducible apply Kept.ite | (with_reducible refine Kept.fst (by assumption) ?_)
    | (simp -zeta only [keptMk]; (with_reducible refine KeptMk.upd ?_ rfl ?_); rotate_left;
        · intro p; cases p <;> first | exact .inl (hp (by decide)) | (right; dsimp only [Part.same]))

theorem State.heard_kept {pts : List Part} {s0 : State} {s : State} {req : Req} {r : Reg} {ix : Ix}
    (hk : Kept pts s0 s)
    (hp : [.freeCtr, .regs, .shadow, .acc, .gen, .couch, .pf0, .pf1, .pce, .rng, .hostQ, .mbx, .sem, .ing, .tab, .asa, .cmt, .replQ, .bpm, .adm, .ddc, .qsc, .crd, .gates, .fab, .egr, .prt, .lin, .pmn, .tim, .mil, .arrivals, .out] ⊆ pts)
    : Kept pts s0 (s.heard req r ix) := by
  unfold State.heard
  repeat' first
    | with_reducible assumption | intro _ | (guard_target =~ Kept _ _ _; extract_lets +lift)
    | with_reducible refine State.dropLow_kept ?_ (inAll (by decide) hp)
    | with_reducible refine State.release_kept ?_ (inAll (by decide) hp)
    | with_reducible refine State.deliverAll_kept ?_ (inAll (by decide) hp)
    | with_reducible apply Kept.ite

theorem State.arrived_kept {pts : List Part} {s0 : State} {s : State} {req : Req} {r : Reg} {ix : Ix}
    (hk : Kept pts s0 s)
    (hp : [.freeCtr, .regs, .shadow, .acc, .gen, .couch, .pf0, .pf1, .pce, .rng, .hostQ, .mbx, .sem, .ing, .tab, .asa, .cmt, .replQ, .bpm, .adm, .ddc, .qsc, .crd, .gates, .fab, .egr, .prt, .lin, .pmn, .tim, .mil, .arrivals, .out] ⊆ pts)
    : Kept pts s0 (s.arrived req r ix) := by
  unfold State.arrived
  repeat' first
    | with_reducible assumption | intro _ | (guard_target =~ Kept _ _ _; extract_lets +lift)
    | with_reducible refine State.flushHooked_kept ?_ (inAll (by decide) hp)
    | with_reducible refine State.heard_kept ?_ (inAll (by decide) hp)

theorem State.own_kept {pts : List Part} {s0 : State} {s : State} {req : Req} {r : Reg} {ix : Ix} {f : State → State}
    (hk : Kept pts s0 s)
    (hp : [.freeCtr, .regs, .shadow, .acc, .gen, .couch, .pf0, .pf1, .pce, .rng, .hostQ, .mbx, .sem, .ing, .tab, .asa, .cmt, .replQ, .bpm, .adm, .ddc, .qsc, .crd, .gates, .fab, .egr, .prt, .lin, .pmn, .tim, .mil, .arrivals, .out] ⊆ pts)
    (hf : ∀ s, Kept pts s0 s → Kept pts s0 (f s)) : Kept pts s0 (s.own req r ix f) := by
  unfold State.own
  repeat' first
    | with_reducible assumption | intro _ | with_reducible apply hf | (guard_target =~ Kept _ _ _; extract_lets +lift)
    | with_reducible refine State.refuse_kept ?_ (inAll (by decide) hp)
    | with_reducible refine State.arrived_kept ?_ (inAll (by decide) hp)
    | with_reducible refine State.unreachable_kept ?_ (inAll (by decide) hp)
    | with_reducible refine State.heard_kept ?_ (inAll (by decide) hp) | with_reducible apply Kept.ite

theorem State.ownFx_kept {pts : List Part} {s0 : State} {s : State} {req : Req} {r : Reg} {ix : Ix} {v : W64}
    {f : State → State} (hk : Kept pts s0 s)
    (hp : [.freeCtr, .regs, .shadow, .acc, .gen, .couch, .pf0, .pf1, .pce, .rng, .hostQ, .mbx, .sem, .ing, .tab, .asa, .cmt, .replQ, .bpm, .adm, .ddc, .qsc, .crd, .gates, .fab, .egr, .prt, .lin, .pmn, .tim, .mil, .arrivals, .out] ⊆ pts)
    (hf : ∀ s, Kept pts s0 s → Kept pts s0 (f s)) : Kept pts s0 (s.ownFx req r ix v f) := by
  unfold State.ownFx
  repeat' first
    | with_reducible assumption | intro _ | with_reducible apply hf | (guard_target =~ Kept _ _ _; extract_lets +lift)
    | with_reducible refine State.write64_kept ?_ (inAll (by decide) hp)
    | with_reducible refine State.own_kept ?_ (inAll (by decide) hp) ?_ | with_reducible apply Kept.ite

theorem registerWrite_kept {pts : List Part} {s0 : State} {req : Req} {off : BitVec 28} {v : W64} {s : State}
    (hk : Kept pts s0 s)
    (hp : [.freeCtr, .regs, .shadow, .acc, .gen, .couch, .pf0, .pf1, .pce, .rng, .hostQ, .mbx, .sem, .ing, .tab, .asa, .cmt, .replQ, .bpm, .adm, .ddc, .qsc, .crd, .gates, .fab, .egr, .prt, .lin, .pmn, .tim, .mil, .arrivals, .out] ⊆ pts)
    : Kept pts s0 (registerWrite req off v s) := by
  unfold registerWrite
  repeat' first
    | with_reducible assumption | intro _ | (guard_target =~ Kept _ _ _; extract_lets +lift)
    | with_reducible refine State.write64_kept ?_ (inAll (by decide) hp)
    | with_reducible refine State.refuse_kept ?_ (inAll (by decide) hp) | with_reducible apply Kept.ite

theorem lowHalfWrite_kept {pts : List Part} {s0 : State} {req : Req} {off : BitVec 28} {v : W32} {s : State}
    (hk : Kept pts s0 s) (hp : [.freeCtr, .regs, .acc, .pf0, .pf1, .rng, .mil, .out] ⊆ pts)
    : Kept pts s0 (lowHalfWrite req off v s) := by
  unfold lowHalfWrite
  repeat' first
    | with_reducible assumption | intro _ | (guard_target =~ Kept _ _ _; extract_lets +lift)
    | with_reducible refine State.writeLow_kept ?_ (inAll (by decide) hp)
    | with_reducible refine State.refuse_kept ?_ (inAll (by decide) hp) | with_reducible apply Kept.ite

theorem highHalfWrite_kept {pts : List Part} {s0 : State} {req : Req} {off : BitVec 28} {v : W32} {s : State}
    (hk : Kept pts s0 s)
    (hp : [.freeCtr, .regs, .shadow, .acc, .gen, .couch, .pf0, .pf1, .pce, .rng, .hostQ, .mbx, .sem, .ing, .tab, .asa, .cmt, .replQ, .bpm, .adm, .ddc, .qsc, .crd, .gates, .fab, .egr, .prt, .lin, .pmn, .tim, .mil, .arrivals, .out] ⊆ pts)
    : Kept pts s0 (highHalfWrite req off v s) := by
  unfold highHalfWrite
  repeat' first
    | with_reducible assumption | intro _ | (guard_target =~ Kept _ _ _; extract_lets +lift)
    | with_reducible refine State.writeHigh_kept ?_ (inAll (by decide) hp)
    | with_reducible refine State.refuse_kept ?_ (inAll (by decide) hp) | with_reducible apply Kept.ite

theorem rcRegisterRead_kept {pts : List Part} {s0 : State} {req : Req} {off : BitVec 28} {part : RdPart} {s : State}
    (hk : Kept pts s0 s)
    (hp : [.freeCtr, .regs, .shadow, .acc, .gen, .couch, .pf0, .pf1, .pce, .rng, .hostQ, .mbx, .sem, .ing, .tab, .asa, .cmt, .replQ, .bpm, .adm, .ddc, .qsc, .crd, .gates, .fab, .egr, .prt, .lin, .pmn, .tim, .mil, .arrivals, .out] ⊆ pts)
    : Kept pts s0 (rcRegisterRead req off part s) := by
  unfold rcRegisterRead
  repeat' first
    | with_reducible assumption | intro _ | (guard_target =~ Kept _ _ _; extract_lets +lift)
    | with_reducible refine State.readPart_kept ?_ (inAll (by decide) hp)
    | with_reducible refine State.refuse_kept ?_ (inAll (by decide) hp) | with_reducible apply Kept.ite

theorem lowHalfRead_kept {pts : List Part} {s0 : State} {req : Req} {off : BitVec 28} {s : State} (hk : Kept pts s0 s)
    (hp : [.freeCtr, .regs, .shadow, .acc, .gen, .couch, .pf0, .pf1, .pce, .rng, .hostQ, .mbx, .sem, .ing, .tab, .asa, .cmt, .replQ, .bpm, .adm, .ddc, .qsc, .crd, .gates, .fab, .egr, .prt, .lin, .pmn, .tim, .mil, .arrivals, .out] ⊆ pts)
    : Kept pts s0 (lowHalfRead req off s) := by
  unfold lowHalfRead
  repeat' first
    | with_reducible assumption | intro _ | (guard_target =~ Kept _ _ _; extract_lets +lift)
    | with_reducible refine State.readPart_kept ?_ (inAll (by decide) hp)
    | with_reducible refine State.refuse_kept ?_ (inAll (by decide) hp) | with_reducible apply Kept.ite

theorem fxWriteDelivery_kept {pts : List Part} {s0 : State} {req : Req} {s : State} (hk : Kept pts s0 s)
    (hp : [.freeCtr, .regs, .shadow, .acc, .gen, .couch, .pf0, .pf1, .pce, .rng, .hostQ, .mbx, .sem, .ing, .tab, .asa, .cmt, .replQ, .bpm, .adm, .ddc, .qsc, .crd, .gates, .fab, .egr, .prt, .lin, .pmn, .tim, .mil, .arrivals, .out] ⊆ pts)
    : Kept pts s0 (fxWriteDelivery req s) := by
  unfold fxWriteDelivery
  repeat' first
    | with_reducible assumption | intro _ | (guard_target =~ Kept _ _ _; extract_lets +lift)
    | with_reducible refine State.crossWrites_kept ?_ (inAll (by decide) hp)
    | with_reducible refine State.deliverOne_kept ?_ (inAll (by decide) hp)
    | with_reducible apply Kept.ite

theorem applyGo_kept {pts : List Part} {s0 : State} {req : Req} {b : Block} {inst : Fin 16} {s : State}
    (hk : Kept pts s0 s)
    (hp : [.freeCtr, .regs, .shadow, .acc, .gen, .couch, .pf0, .pf1, .pce, .rng, .hostQ, .mbx, .sem, .ing, .tab, .asa, .cmt, .replQ, .bpm, .adm, .ddc, .qsc, .crd, .gates, .fab, .egr, .prt, .lin, .pmn, .tim, .mil, .arrivals, .out] ⊆ pts)
    : Kept pts s0 (applyGo req b inst s) := by
  unfold applyGo
  repeat' first
    | with_reducible assumption | intro _ | (guard_target =~ Kept _ _ _; extract_lets +lift)
    | with_reducible refine State.ownFx_kept ?_ (inAll (by decide) hp) ?_
    | with_reducible refine State.applyGoTo_kept ?_ (inAll (by decide) hp) | with_reducible apply Kept.ite
    | (with_reducible refine Kept.fst (by assumption) ?_) | split

theorem intStatusClear_kept {pts : List Part} {s0 : State} {req : Req} {b : Block} {inst : Fin 16} {v : W64}
    {newCauses : W64} {s : State} (hk : Kept pts s0 s)
    (hp : [.freeCtr, .regs, .shadow, .acc, .gen, .couch, .pf0, .pf1, .pce, .rng, .hostQ, .mbx, .sem, .ing, .tab, .asa, .cmt, .replQ, .bpm, .adm, .ddc, .qsc, .crd, .gates, .fab, .egr, .prt, .lin, .pmn, .tim, .mil, .arrivals, .out] ⊆ pts)
    : Kept pts s0 (intStatusClear req b inst v newCauses s) := by
  unfold intStatusClear
  repeat' first
    | with_reducible assumption | intro _ | (guard_target =~ Kept _ _ _; extract_lets +lift)
    | with_reducible refine State.write64_kept ?_ (inAll (by decide) hp)
    | with_reducible refine State.intClear_kept ?_ (inAll (by decide) hp)
    | with_reducible refine State.own_kept ?_ (inAll (by decide) hp) ?_ | with_reducible apply Kept.ite
    | (with_reducible refine Kept.fst (by assumption) ?_) | split

theorem State.mapRequest_kept {pts : List Part} {s0 : State} {s : State} {t : Tlp} (hk : Kept pts s0 s)
    (hp : [.freeCtr, .regs, .shadow, .acc, .gen, .couch, .pf0, .pf1, .pce, .rng, .hostQ, .mbx, .sem, .ing, .tab, .asa, .cmt, .replQ, .bpm, .adm, .ddc, .qsc, .crd, .gates, .fab, .egr, .prt, .lin, .pmn, .tim, .mil, .arrivals, .out] ⊆ pts)
    : Kept pts s0 (s.mapRequest t) := by
  unfold State.mapRequest
  repeat' first
    | with_reducible assumption | intro _ | (guard_target =~ Kept _ _ _; extract_lets +lift)
    | with_reducible refine State.readOff_kept ?_ (inAll (by decide) hp)
    | with_reducible refine State.emit_kept ?_ (inAll (by decide) hp)
    | with_reducible refine State.write64_kept ?_ (inAll (by decide) hp)
    | with_reducible refine State.readLow_kept ?_ (inAll (by decide) hp)
    | with_reducible refine State.writeLow_kept ?_ (inAll (by decide) hp)
    | with_reducible refine State.readHigh_kept ?_ (inAll (by decide) hp)
    | with_reducible refine State.writeHigh_kept ?_ (inAll (by decide) hp) | with_reducible apply Kept.ite
    | (with_reducible refine Kept.fst (by assumption) ?_)
    | (simp -zeta only [keptMk]; (with_reducible refine KeptMk.upd ?_ rfl ?_); rotate_left;
        · intro p; cases p <;> first | exact .inl (hp (by decide)) | (right; dsimp only [Part.same]))

theorem State.tableRequest_kept {pts : List Part} {s0 : State} {s : State} {t : Tlp} {o : Nat} (hk : Kept pts s0 s)
    (hp : [.acc, .pf0, .pf1, .out] ⊆ pts) : Kept pts s0 (s.tableRequest t o) := by
  unfold State.tableRequest
  repeat' first
    | with_reducible assumption | intro _ | (guard_target =~ Kept _ _ _; extract_lets +lift)
    | with_reducible refine State.release_kept ?_ (inAll (by decide) hp)
    | with_reducible refine State.emit_kept ?_ (inAll (by decide) hp)
    | with_reducible refine State.setFn_kept ?_ (inAll (by decide) hp)
    | with_reducible refine State.sendPending_kept ?_ (inAll (by decide) hp)
    | with_reducible apply Kept.ite

theorem State.pbaRead_kept {pts : List Part} {s0 : State} {s : State} {t : Tlp} {o : Nat} (hk : Kept pts s0 s)
    (hp : [.acc, .out] ⊆ pts) : Kept pts s0 (s.pbaRead t o) := by
  unfold State.pbaRead
  repeat' first
    | with_reducible assumption | intro _ | (guard_target =~ Kept _ _ _; extract_lets +lift)
    | with_reducible refine State.release_kept ?_ (inAll (by decide) hp)
    | with_reducible refine State.emit_kept ?_ (inAll (by decide) hp)

theorem State.slotRead_kept {pts : List Part} {s0 : State} {s : State} {r : Nat} {w : Nat} {low : Bool}
    (hk : Kept pts s0 s) (hp : [.acc, .rng] ⊆ pts) : Kept pts s0 (s.slotRead r w low).1 := by
  unfold State.slotRead
  repeat' first
    | with_reducible assumption | intro _ | (guard_target =~ Kept _ _ _; extract_lets +lift)
    | with_reducible refine State.release_kept ?_ (inAll (by decide) hp)
    | with_reducible refine State.setRing_kept ?_ (inAll (by decide) hp) | with_reducible apply Kept.ite

theorem State.slotWrite_kept {pts : List Part} {s0 : State} {s : State} {r : Nat} {w : Nat} {v : W64}
    (hk : Kept pts s0 s) (hp : [.regs, .pf0, .pf1, .pce, .rng, .cmt, .mil, .out] ⊆ pts)
    : Kept pts s0 (s.slotWrite r w v) := by
  unfold State.slotWrite
  repeat' first
    | with_reducible assumption | intro _ | (guard_target =~ Kept _ _ _; extract_lets +lift)
    | with_reducible refine State.doorbell_kept ?_ (inAll (by decide) hp)
    | with_reducible refine State.armRing_kept ?_ (inAll (by decide) hp) | with_reducible apply Kept.ite

theorem State.slotRequest_kept {pts : List Part} {s0 : State} {s : State} {t : Tlp} (hk : Kept pts s0 s)
    (hp : [.regs, .acc, .pf0, .pf1, .pce, .rng, .cmt, .mil, .out] ⊆ pts) : Kept pts s0 (s.slotRequest t) := by
  unfold State.slotRequest
  repeat' first
    | with_reducible assumption | intro _ | (guard_target =~ Kept _ _ _; extract_lets +lift)
    | with_reducible refine State.slotRead_kept ?_ (inAll (by decide) hp)
    | with_reducible refine State.emit_kept ?_ (inAll (by decide) hp)
    | with_reducible refine State.release_kept ?_ (inAll (by decide) hp)
    | with_reducible refine State.slotWrite_kept ?_ (inAll (by decide) hp)
    | with_reducible refine State.dropLow_kept ?_ (inAll (by decide) hp)
    | with_reducible refine State.writeLow_kept ?_ (inAll (by decide) hp) | with_reducible apply Kept.ite
    | (with_reducible refine Kept.fst (by assumption) ?_)
    | (simp -zeta only [keptMk]; (with_reducible refine KeptMk.upd ?_ rfl ?_); rotate_left;
        · intro p; cases p <;> first | exact .inl (hp (by decide)) | (right; dsimp only [Part.same]))
    | split

theorem State.counterRequest_kept {pts : List Part} {s0 : State} {s : State} {t : Tlp} {k : Nat} {o : Nat}
    (hk : Kept pts s0 s) (hp : [.regs, .acc, .pf0, .pf1, .rng, .mil, .out] ⊆ pts)
    : Kept pts s0 (s.counterRequest t k o) := by
  unfold State.counterRequest
  repeat' first
    | with_reducible assumption | intro _ | (guard_target =~ Kept _ _ _; extract_lets +lift)
    | with_reducible refine State.unsupported_kept ?_ (inAll (by decide) hp)
    | with_reducible refine State.release_kept ?_ (inAll (by decide) hp)
    | with_reducible refine State.unreachable_kept ?_ (inAll (by decide) hp)
    | with_reducible refine State.emit_kept ?_ (inAll (by decide) hp) | with_reducible apply Kept.ite
    | (with_reducible refine Kept.fst (by assumption) ?_)
    | (simp -zeta only [keptMk]; (with_reducible refine KeptMk.upd ?_ rfl ?_); rotate_left;
        · intro p; cases p <;> first | exact .inl (hp (by decide)) | (right; dsimp only [Part.same]))

theorem State.takeMark_kept {pts : List Part} {s0 : State} {s : State} {off : Nat} (hk : Kept pts s0 s)
    (hp : [.qsc] ⊆ pts) : Kept pts s0 (s.takeMark off).1 := by
  unfold State.takeMark
  repeat' first
    | with_reducible assumption | intro _ | (guard_target =~ Kept _ _ _; extract_lets +lift)
    | with_reducible refine State.setQueue_kept ?_ (inAll (by decide) hp) | with_reducible apply Kept.ite
    | (with_reducible refine Kept.fst (by assumption) ?_)
    | (simp -zeta only [keptMk]; (with_reducible refine KeptMk.upd ?_ rfl ?_); rotate_left;
        · intro p; cases p <;> first | exact .inl (hp (by decide)) | (right; dsimp only [Part.same]))
    | split | dsimp +zetaDelta only

theorem State.markRead_kept {pts : List Part} {s0 : State} {s : State} {off : Nat} (hk : Kept pts s0 s)
    (hp : [.regs, .acc, .pf0, .pf1, .rng, .qsc, .mil, .out] ⊆ pts) : Kept pts s0 (s.markRead off) := by
  unfold State.markRead
  repeat' first
    | with_reducible assumption | intro _ | (guard_target =~ Kept _ _ _; extract_lets +lift)
    | with_reducible refine State.release_kept ?_ (inAll (by decide) hp)
    | with_reducible refine State.takeMark_kept ?_ (inAll (by decide) hp)
    | with_reducible refine State.emit_kept ?_ (inAll (by decide) hp)
    | with_reducible refine State.unreachable_kept ?_ (inAll (by decide) hp)
    | with_reducible apply Kept.ite

theorem State.timeRead_kept {pts : List Part} {s0 : State} {s : State} {off : Nat} (hk : Kept pts s0 s)
    (hp : [.regs, .acc, .pf0, .pf1, .rng, .mil, .out] ⊆ pts) : Kept pts s0 (s.timeRead off) := by
  unfold State.timeRead
  repeat' first
    | with_reducible assumption | intro _ | (guard_target =~ Kept _ _ _; extract_lets +lift)
    | with_reducible refine State.release_kept ?_ (inAll (by decide) hp)
    | with_reducible refine State.emit_kept ?_ (inAll (by decide) hp)
    | with_reducible refine State.unreachable_kept ?_ (inAll (by decide) hp)
    | with_reducible refine State.captureNs_kept ?_ (inAll (by decide) hp) | with_reducible apply Kept.ite
    | (with_reducible refine Kept.fst (by assumption) ?_) | split

theorem State.wordRegion_kept {pts : List Part} {s0 : State} {s : State} {t : Tlp} {read : State → State}
    (hk : Kept pts s0 s) (hp : [.regs, .pf0, .pf1, .rng, .mil, .out] ⊆ pts)
    (hf : ∀ s, Kept pts s0 s → Kept pts s0 (read s)) : Kept pts s0 (s.wordRegion t read) := by
  unfold State.wordRegion
  repeat' first
    | with_reducible assumption | intro _ | with_reducible apply hf | (guard_target =~ Kept _ _ _; extract_lets +lift)
    | with_reducible refine State.unsupported_kept ?_ (inAll (by decide) hp)
    | with_reducible apply Kept.ite

theorem State.pf0Request_kept {pts : List Part} {s0 : State} {s : State} {t : Tlp} (hk : Kept pts s0 s)
    (hp : [.freeCtr, .regs, .shadow, .acc, .gen, .couch, .pf0, .pf1, .pce, .rng, .hostQ, .mbx, .sem, .ing, .tab, .asa, .cmt, .replQ, .bpm, .adm, .ddc, .qsc, .crd, .gates, .fab, .egr, .prt, .lin, .pmn, .tim, .mil, .arrivals, .out] ⊆ pts)
    : Kept pts s0 (s.pf0Request t) := by
  unfold State.pf0Request
  repeat' first
    | with_reducible assumption | intro _ | (guard_target =~ Kept _ _ _; extract_lets +lift)
    | with_reducible refine State.unsupported_kept ?_ (inAll (by decide) hp)
    | with_reducible refine State.tableRequest_kept ?_ (inAll (by decide) hp)
    | with_reducible refine State.pbaRead_kept ?_ (inAll (by decide) hp)
    | with_reducible refine State.release_kept ?_ (inAll (by decide) hp)
    | with_reducible refine State.mapRequest_kept ?_ (inAll (by decide) hp)
    | with_reducible apply Kept.ite

theorem State.pf1Request_kept {pts : List Part} {s0 : State} {s : State} {t : Tlp} (hk : Kept pts s0 s)
    (hp : [.regs, .acc, .pf0, .pf1, .pce, .rng, .cmt, .qsc, .mil, .out] ⊆ pts) : Kept pts s0 (s.pf1Request t) := by
  unfold State.pf1Request
  repeat' first
    | with_reducible assumption | intro _ | (guard_target =~ Kept _ _ _; extract_lets +lift)
    | with_reducible refine State.slotRequest_kept ?_ (inAll (by decide) hp)
    | with_reducible refine State.unsupported_kept ?_ (inAll (by decide) hp)
    | with_reducible refine State.tableRequest_kept ?_ (inAll (by decide) hp)
    | with_reducible refine State.pbaRead_kept ?_ (inAll (by decide) hp)
    | with_reducible refine State.counterRequest_kept ?_ (inAll (by decide) hp)
    | with_reducible refine State.wordRegion_kept ?_ (inAll (by decide) hp) ?_
    | with_reducible refine State.markRead_kept ?_ (inAll (by decide) hp)
    | with_reducible refine State.timeRead_kept ?_ (inAll (by decide) hp) | with_reducible apply Kept.ite

theorem State.windowRead_kept {pts : List Part} {s0 : State} {s : State} {t : Tlp} {a : Nat} (hk : Kept pts s0 s)
    (hp : [.regs, .pf0, .pf1, .rng, .mil, .out] ⊆ pts) : Kept pts s0 (s.windowRead t a) := by
  unfold State.windowRead
  repeat' first
    | with_reducible assumption | intro _ | (guard_target =~ Kept _ _ _; extract_lets +lift)
    | with_reducible refine State.emit_kept ?_ (inAll (by decide) hp)
    | with_reducible refine State.count_kept ?_ (inAll (by decide) hp)
    | with_reducible refine State.ueMet_kept ?_ (inAll (by decide) hp) | with_reducible apply Kept.ite
    | (with_reducible apply Kept.foldl; rotate_left; intro _ _ _)
    | (with_reducible refine Kept.fst (by assumption) ?_) | split

theorem State.windowWrite_kept {pts : List Part} {s0 : State} {s : State} {t : Tlp} {a : Nat} (hk : Kept pts s0 s)
    (hp : [.ddc] ⊆ pts) : Kept pts s0 (s.windowWrite t a) := by
  unfold State.windowWrite
  refine Kept.foldl ?_ fun s x h => State.healed_kept h (inAll (by decide) hp)
  exact hk.trans ⟨fun p hq => by cases p <;> first | rfl | exact absurd (hp (by decide)) hq, rfl, rfl, id, id, id,
    fun h => winWrite_wf _ _ _ _ _ h, List.suffix_refl _, Nat.le_refl _⟩

theorem State.windowRequest_kept {pts : List Part} {s0 : State} {s : State} {t : Tlp} (hk : Kept pts s0 s)
    (hp : [.regs, .acc, .pf0, .pf1, .rng, .ddc, .mil, .out] ⊆ pts) : Kept pts s0 (s.windowRequest t) := by
  unfold State.windowRequest
  repeat' first
    | with_reducible assumption | intro _ | (guard_target =~ Kept _ _ _; extract_lets +lift)
    | with_reducible refine State.release_kept ?_ (inAll (by decide) hp)
    | with_reducible refine State.unsupported_kept ?_ (inAll (by decide) hp)
    | with_reducible refine State.windowRead_kept ?_ (inAll (by decide) hp)
    | with_reducible refine State.aer_kept ?_ (inAll (by decide) hp)
    | with_reducible refine State.count_kept ?_ (inAll (by decide) hp)
    | with_reducible refine State.windowWrite_kept ?_ (inAll (by decide) hp)
    | with_reducible apply Kept.ite

theorem State.tlp_kept {pts : List Part} {s0 : State} {s : State} {t : Tlp} {serve : State → State}
    (hk : Kept pts s0 s) (hp : [.regs, .pf0, .pf1, .rng, .mil, .out] ⊆ pts)
    (hf : ∀ s, Kept pts s0 s → Kept pts s0 (serve s)) : Kept pts s0 (s.tlp t serve) := by
  unfold State.tlp
  repeat' first
    | with_reducible assumption | intro _ | with_reducible apply hf | (guard_target =~ Kept _ _ _; extract_lets +lift)
    | with_reducible refine State.aer_kept ?_ (inAll (by decide) hp)
    | with_reducible refine State.raise_kept ?_ (inAll (by decide) hp)
    | with_reducible refine State.unsupported_kept ?_ (inAll (by decide) hp)
    | with_reducible apply Kept.ite

theorem pcieMemRequest_kept {pts : List Part} {s0 : State} {t : Tlp} {s : State} (hk : Kept pts s0 s)
    (hp : [.freeCtr, .regs, .shadow, .acc, .gen, .couch, .pf0, .pf1, .pce, .rng, .hostQ, .mbx, .sem, .ing, .tab, .asa, .cmt, .replQ, .bpm, .adm, .ddc, .qsc, .crd, .gates, .fab, .egr, .prt, .lin, .pmn, .tim, .mil, .arrivals, .out] ⊆ pts)
    : Kept pts s0 (pcieMemRequest t s) := by
  unfold pcieMemRequest
  repeat' first
    | with_reducible assumption | intro _ | (guard_target =~ Kept _ _ _; extract_lets +lift)
    | with_reducible refine State.tlp_kept ?_ (inAll (by decide) hp) ?_
    | with_reducible refine State.pf0Request_kept ?_ (inAll (by decide) hp)
    | with_reducible refine State.windowRequest_kept ?_ (inAll (by decide) hp)
    | with_reducible refine State.pf1Request_kept ?_ (inAll (by decide) hp)
    | with_reducible refine State.unsupported_kept ?_ (inAll (by decide) hp)
    | with_reducible apply Kept.ite | (with_reducible refine Kept.fst (by assumption) ?_) | split

theorem peerWindowAccess_kept {pts : List Part} {s0 : State} {t : Tlp} {s : State} (hk : Kept pts s0 s)
    (hp : [.regs, .acc, .pf0, .pf1, .rng, .ddc, .mil, .out] ⊆ pts) : Kept pts s0 (peerWindowAccess t s) := by
  unfold peerWindowAccess
  repeat' first
    | with_reducible assumption | intro _ | (guard_target =~ Kept _ _ _; extract_lets +lift)
    | with_reducible refine State.tlp_kept ?_ (inAll (by decide) hp) ?_
    | with_reducible refine State.windowRequest_kept ?_ (inAll (by decide) hp)
    | with_reducible apply Kept.ite

theorem pceWinWrite_kept {pts : List Part} {s0 : State} {req : Req} {n : Fin 16} {v : W64} {s : State}
    (hk : Kept pts s0 s)
    (hp : [.freeCtr, .regs, .shadow, .acc, .gen, .couch, .pf0, .pf1, .pce, .rng, .hostQ, .mbx, .sem, .ing, .tab, .asa, .cmt, .replQ, .bpm, .adm, .ddc, .qsc, .crd, .gates, .fab, .egr, .prt, .lin, .pmn, .tim, .mil, .arrivals, .out] ⊆ pts)
    : Kept pts s0 (pceWinWrite req n v s) := by
  unfold pceWinWrite
  repeat' first
    | with_reducible assumption | intro _ | (guard_target =~ Kept _ _ _; extract_lets +lift)
    | with_reducible refine State.own_kept ?_ (inAll (by decide) hp) ?_
    | with_reducible refine State.writeWin_kept ?_ (inAll (by decide) hp)

theorem State.slotAccess_kept {pts : List Part} {s0 : State} {s : State} {r : Nat} {w : Nat} {f : State → State}
    (hk : Kept pts s0 s) (hp : [.freeCtr, .regs, .acc, .pf0, .pf1, .rng, .mil, .out] ⊆ pts)
    (hf : ∀ s, Kept pts s0 s → Kept pts s0 (f s)) : Kept pts s0 (s.slotAccess r w f) := by
  unfold State.slotAccess
  repeat' first
    | with_reducible assumption | intro _ | with_reducible apply hf | (guard_target =~ Kept _ _ _; extract_lets +lift)
    | with_reducible refine State.dropLow_kept ?_ (inAll (by decide) hp)
    | with_reducible refine State.release_kept ?_ (inAll (by decide) hp)
    | with_reducible refine State.turnedAway_kept ?_ (inAll (by decide) hp)
    | with_reducible apply Kept.ite

theorem State.serveWait_kept {pts : List Part} {s0 : State} {s : State} {w : WaitAcc} (hk : Kept pts s0 s)
    (hp : [.freeCtr, .regs, .shadow, .acc, .gen, .couch, .pf0, .pf1, .pce, .rng, .hostQ, .mbx, .sem, .ing, .tab, .asa, .cmt, .replQ, .bpm, .adm, .ddc, .qsc, .crd, .gates, .fab, .egr, .prt, .lin, .pmn, .tim, .mil, .arrivals, .out] ⊆ pts)
    : Kept pts s0 (s.serveWait w) := by
  unfold State.serveWait
  repeat' first
    | with_reducible assumption | intro _
    | with_reducible refine State.answerRead_kept ?_ (inAll (by decide) hp)
    | with_reducible refine pcieMemRequest_kept ?_ (inAll (by decide) hp) | with_reducible apply Kept.ite
    | (with_reducible refine Kept.fst (by assumption) ?_) | split

theorem State.couchSettled_kept {pts : List Part} {s0 : State} {s : State} (hk : Kept pts s0 s)
    (hp : [.freeCtr, .regs, .shadow, .acc, .gen, .couch, .pf0, .pf1, .pce, .rng, .hostQ, .mbx, .sem, .ing, .tab, .asa, .cmt, .replQ, .bpm, .adm, .ddc, .qsc, .crd, .gates, .fab, .egr, .prt, .lin, .pmn, .tim, .mil, .arrivals, .out] ⊆ pts)
    : Kept pts s0 (s.couchSettled) := by
  unfold State.couchSettled
  repeat' first
    | with_reducible assumption | intro _ | (guard_target =~ Kept _ _ _; extract_lets +lift)
    | with_reducible refine State.serveWait_kept ?_ (inAll (by decide) hp)
    | with_reducible refine State.deliver16_kept ?_ (inAll (by decide) hp) | with_reducible apply Kept.ite
    | (with_reducible apply Kept.foldl; rotate_left; intro _ _ _)
    | (with_reducible refine Kept.fst (by assumption) ?_)
    | (simp -zeta only [keptMk]; (with_reducible refine KeptMk.upd ?_ rfl ?_); rotate_left;
        · intro p; cases p <;> first | exact .inl (hp (by decide)) | (right; dsimp only [Part.same]))

theorem State.lockReaders_kept {pts : List Part} {s0 : State} {s : State} {n : Fin 64} {readers : List Req}
    (hk : Kept pts s0 s) (hp : [.freeCtr, .regs, .acc, .pf0, .pf1, .rng, .mil, .out] ⊆ pts)
    : Kept pts s0 (s.lockReaders n readers) := by
  unfold State.lockReaders
  repeat' first
    | with_reducible assumption | intro _ | (guard_target =~ Kept _ _ _; extract_lets +lift)
    | with_reducible refine State.refuse_kept ?_ (inAll (by decide) hp)
    | with_reducible refine State.release_kept ?_ (inAll (by decide) hp) | with_reducible apply Kept.ite
    | (with_reducible apply Kept.foldl; rotate_left; intro _ _ _)

theorem hwmWindowRead_kept {pts : List Part} {s0 : State} {fn : Fn} {off : BitVec 24} {s : State} (hk : Kept pts s0 s)
    (hp : [.freeCtr, .regs, .acc, .pf0, .pf1, .rng, .qsc, .mil, .out] ⊆ pts)
    : Kept pts s0 (hwmWindowRead fn off s) := by
  unfold hwmWindowRead
  repeat' first
    | with_reducible assumption | intro _ | (guard_target =~ Kept _ _ _; extract_lets +lift)
    | with_reducible refine State.markRead_kept ?_ (inAll (by decide) hp)
    | with_reducible refine State.turnedAway_kept ?_ (inAll (by decide) hp)
    | with_reducible apply Kept.ite

theorem timeCaptureRead_kept {pts : List Part} {s0 : State} {req : Req} {s : State} (hk : Kept pts s0 s)
    (hp : [.freeCtr, .regs, .shadow, .acc, .gen, .couch, .pf0, .pf1, .pce, .rng, .hostQ, .mbx, .sem, .ing, .tab, .asa, .cmt, .replQ, .bpm, .adm, .ddc, .qsc, .crd, .gates, .fab, .egr, .prt, .lin, .pmn, .tim, .mil, .arrivals, .out] ⊆ pts)
    : Kept pts s0 (timeCaptureRead req s) := by
  unfold timeCaptureRead
  repeat' first
    | with_reducible assumption | intro _ | (guard_target =~ Kept _ _ _; extract_lets +lift)
    | with_reducible refine State.timeRead_kept ?_ (inAll (by decide) hp)
    | with_reducible refine State.turnedAway_kept ?_ (inAll (by decide) hp)
    | with_reducible refine rcRegisterRead_kept ?_ (inAll (by decide) hp) | with_reducible apply Kept.ite
    | (with_reducible refine Kept.fst (by assumption) ?_) | split

theorem State.clocked_kept {pts : List Part} {s0 : State} {s : State} {f : State → State} (hk : Kept pts s0 s)
    (hf : ∀ s, Kept pts s0 s → Kept pts s0 (f s)) : Kept pts s0 (s.clocked f) := by
  unfold State.clocked
  repeat' first
    | with_reducible assumption | intro _
    | (with_reducible first | apply hf | apply Kept.ite)

theorem State.inService_kept {pts : List Part} {s0 : State} {s : State} {f : State → State} (hk : Kept pts s0 s)
    (hf : ∀ s, Kept pts s0 s → Kept pts s0 (f s)) : Kept pts s0 (s.inService f) := by
  unfold State.inService
  repeat' first
    | with_reducible assumption | intro _ | with_reducible apply hf | (guard_target =~ Kept _ _ _; extract_lets +lift)
    | with_reducible refine State.clocked_kept ?_ ?_ | with_reducible apply Kept.ite

theorem State.freeBlocks_kept {pts : List Part} {s0 : State} {s : State} (hk : Kept pts s0 s) (hp : [.freeCtr] ⊆ pts)
    : Kept pts s0 (s.freeBlocks).1 := by
  exact hk.trans ⟨fun p hq => by cases p <;> first | rfl | exact absurd (hp (by decide)) hq, rfl, rfl, id, id, id, id, List.suffix_refl _, Nat.le_add_right _ _⟩

theorem State.sendSlotCell_kept {pts : List Part} {s0 : State} {s : State} {g : Nat} {c : Nat} {m : Nat}
    (hk : Kept pts s0 s) (hp : [.freeCtr, .regs, .fab] ⊆ pts) : Kept pts s0 (s.sendSlotCell g c m) := by
  unfold State.sendSlotCell
  repeat' first
    | with_reducible assumption | intro _ | (guard_target =~ Kept _ _ _; extract_lets +lift)
    | with_reducible refine State.freeBlocks_kept ?_ (inAll (by decide) hp)
    | with_reducible refine State.putRx_kept ?_ (inAll (by decide) hp)
    | with_reducible refine State.count_kept ?_ (inAll (by decide) hp)
    | with_reducible refine State.putCell_kept ?_ (inAll (by decide) hp) | with_reducible apply Kept.ite
    | (with_reducible refine Kept.fst (by assumption) ?_)
    | (simp -zeta only [keptMk]; (with_reducible refine KeptMk.upd ?_ rfl ?_); rotate_left;
        · intro p; cases p <;> first | exact .inl (hp (by decide)) | (right; dsimp only [Part.same]))
    | split

theorem State.slotCells_kept {pts : List Part} {s0 : State} {s : State} (hk : Kept pts s0 s)
    (hp : [.freeCtr, .regs, .fab] ⊆ pts) : Kept pts s0 (s.slotCells) := by
  unfold State.slotCells
  repeat' first
    | with_reducible assumption | intro _ | (guard_target =~ Kept _ _ _; extract_lets +lift)
    | with_reducible refine State.sendSlotCell_kept ?_ (inAll (by decide) hp)
    | with_reducible apply Kept.ite | (with_reducible apply Kept.foldl; rotate_left; intro _ _ _)

theorem State.drainAll_kept {pts : List Part} {s0 : State} {s : State} (hk : Kept pts s0 s)
    (hp : [.regs, .pf0, .pf1, .rng, .bpm, .adm, .qsc, .prt, .lin, .mil, .out] ⊆ pts) : Kept pts s0 (s.drainAll) := by
  unfold State.drainAll
  repeat' first
    | with_reducible assumption | intro _ | (guard_target =~ Kept _ _ _; extract_lets +lift)
    | with_reducible refine State.drainSettle_kept ?_ (inAll (by decide) hp)
    | with_reducible apply Kept.ite | (with_reducible apply Kept.foldl; rotate_left; intro _ _ _)

theorem State.fabPathTick_kept {pts : List Part} {s0 : State} {s : State} (hk : Kept pts s0 s)
    (hp : [.freeCtr, .regs, .gen, .pf0, .pf1, .rng, .sem, .fab, .prt, .tim, .mil, .out] ⊆ pts)
    : Kept pts s0 (s.fabPathTick) := by
  unfold State.fabPathTick
  repeat' first
    | with_reducible assumption | intro _ | (guard_target =~ Kept _ _ _; extract_lets +lift)
    | with_reducible refine State.protJudge_kept ?_ (inAll (by decide) hp) | with_reducible apply Kept.ite
    | (with_reducible refine Kept.fst (by assumption) ?_) | split

theorem State.sampleTick_kept {pts : List Part} {s0 : State} {s : State} (hk : Kept pts s0 s) (hp : [.gen] ⊆ pts)
    : Kept pts s0 (s.sampleTick) := by
  unfold State.sampleTick
  repeat' first
    | with_reducible assumption | intro _ | (guard_target =~ Kept _ _ _; extract_lets +lift)
    | with_reducible apply Kept.ite | (with_reducible refine Kept.fst (by assumption) ?_)
    | (simp -zeta only [keptMk]; (with_reducible refine KeptMk.upd ?_ rfl ?_); rotate_left;
        · intro p; cases p <;> first | exact .inl (hp (by decide)) | (right; dsimp only [Part.same]))

end Sys2Proof.Laws
end

