-- ==== Sys2Proof/Laws/KeptExec.lean ====
section
/-!
SUPPORT. Laws/KeptExec.lean: what the operations of the meaning of every command keep (Laws/Kept.lean),
one lemma for each.
-/
namespace Sys2Proof.Laws

open Sys2Proof.Machine

theorem execRegisterWrite_kept {pts : List Part} {s0 : State} {req : Req} {off : BitVec 28} {v : W64} {s : State}
    (hk : Kept pts s0 s)
    (hp : [.freeCtr, .regs, .shadow, .acc, .gen, .couch, .pf0, .pf1, .pce, .rng, .hostQ, .mbx, .sem, .ing, .tab, .asa, .cmt, .replQ, .bpm, .adm, .ddc, .qsc, .crd, .gates, .fab, .egr, .prt, .lin, .pmn, .tim, .mil, .arrivals, .out] ⊆ pts) {res}
    (e : execRegisterWrite req off v s = .next res) : Kept pts s0 res := by
  unfold execRegisterWrite at e; cases e
  repeat' first
    | with_reducible assumption | intro _
    | with_reducible refine registerWrite_kept ?_ (inAll (by decide) hp)

theorem execRcRegisterRead_kept {pts : List Part} {s0 : State} {req : Req} {off : BitVec 28} {part : RdPart}
    {s : State} (hk : Kept pts s0 s)
    (hp : [.freeCtr, .regs, .shadow, .acc, .gen, .couch, .pf0, .pf1, .pce, .rng, .hostQ, .mbx, .sem, .ing, .tab, .asa, .cmt, .replQ, .bpm, .adm, .ddc, .qsc, .crd, .gates, .fab, .egr, .prt, .lin, .pmn, .tim, .mil, .arrivals, .out] ⊆ pts) {res}
    (e : execRcRegisterRead req off part s = .next res) : Kept pts s0 res := by
  unfold execRcRegisterRead at e; cases e
  repeat' first
    | with_reducible assumption | intro _
    | with_reducible refine rcRegisterRead_kept ?_ (inAll (by decide) hp)

theorem execLowHalfWrite_kept {pts : List Part} {s0 : State} {req : Req} {off : BitVec 28} {v : W32} {s : State}
    (hk : Kept pts s0 s) (hp : [.freeCtr, .regs, .acc, .pf0, .pf1, .rng, .mil, .out] ⊆ pts) {res}
    (e : execLowHalfWrite req off v s = .next res) : Kept pts s0 res := by
  unfold execLowHalfWrite at e; cases e
  repeat' first
    | with_reducible assumption | intro _
    | with_reducible refine lowHalfWrite_kept ?_ (inAll (by decide) hp)

theorem execHighHalfWrite_kept {pts : List Part} {s0 : State} {req : Req} {off : BitVec 28} {v : W32} {s : State}
    (hk : Kept pts s0 s)
    (hp : [.freeCtr, .regs, .shadow, .acc, .gen, .couch, .pf0, .pf1, .pce, .rng, .hostQ, .mbx, .sem, .ing, .tab, .asa, .cmt, .replQ, .bpm, .adm, .ddc, .qsc, .crd, .gates, .fab, .egr, .prt, .lin, .pmn, .tim, .mil, .arrivals, .out] ⊆ pts) {res}
    (e : execHighHalfWrite req off v s = .next res) : Kept pts s0 res := by
  unfold execHighHalfWrite at e; cases e
  repeat' first
    | with_reducible assumption | intro _
    | with_reducible refine highHalfWrite_kept ?_ (inAll (by decide) hp)

theorem execLowHalfRead_kept {pts : List Part} {s0 : State} {req : Req} {off : BitVec 28} {s : State}
    (hk : Kept pts s0 s)
    (hp : [.freeCtr, .regs, .shadow, .acc, .gen, .couch, .pf0, .pf1, .pce, .rng, .hostQ, .mbx, .sem, .ing, .tab, .asa, .cmt, .replQ, .bpm, .adm, .ddc, .qsc, .crd, .gates, .fab, .egr, .prt, .lin, .pmn, .tim, .mil, .arrivals, .out] ⊆ pts) {res}
    (e : execLowHalfRead req off s = .next res) : Kept pts s0 res := by
  unfold execLowHalfRead at e; cases e
  repeat' first
    | with_reducible assumption | intro _
    | with_reducible refine lowHalfRead_kept ?_ (inAll (by decide) hp)

theorem execFxWriteDelivery_kept {pts : List Part} {s0 : State} {req : Req} {s : State} (hk : Kept pts s0 s)
    (hp : [.freeCtr, .regs, .shadow, .acc, .gen, .couch, .pf0, .pf1, .pce, .rng, .hostQ, .mbx, .sem, .ing, .tab, .asa, .cmt, .replQ, .bpm, .adm, .ddc, .qsc, .crd, .gates, .fab, .egr, .prt, .lin, .pmn, .tim, .mil, .arrivals, .out] ⊆ pts) {res}
    (e : execFxWriteDelivery req s = .next res) : Kept pts s0 res := by
  unfold execFxWriteDelivery at e; cases e
  repeat' first
    | with_reducible assumption | intro _
    | with_reducible refine fxWriteDelivery_kept ?_ (inAll (by decide) hp)

theorem execRwFieldEffect_kept {pts : List Part} {s0 : State} {off : BitVec 28} {s : State} (hk : Kept pts s0 s)
    (hp : [.freeCtr, .regs, .acc, .gen, .pf0, .pf1, .rng, .sem, .fab, .prt, .pmn, .tim, .mil, .out] ⊆ pts) {res}
    (e : execRwFieldEffect off s = .next res) : Kept pts s0 res := by
  unfold execRwFieldEffect at e; cases e
  repeat' first
    | with_reducible assumption | intro _
    | with_reducible refine rwFieldEffect_kept ?_ (inAll (by decide) hp)

theorem execApplyGo_kept {pts : List Part} {s0 : State} {req : Req} {b : Block} {inst : Fin 16} {s : State}
    (hk : Kept pts s0 s)
    (hp : [.freeCtr, .regs, .shadow, .acc, .gen, .couch, .pf0, .pf1, .pce, .rng, .hostQ, .mbx, .sem, .ing, .tab, .asa, .cmt, .replQ, .bpm, .adm, .ddc, .qsc, .crd, .gates, .fab, .egr, .prt, .lin, .pmn, .tim, .mil, .arrivals, .out] ⊆ pts) {res}
    (e : execApplyGo req b inst s = .next res) : Kept pts s0 res := by
  unfold execApplyGo at e; cases e
  repeat' first
    | with_reducible assumption | intro _ | with_reducible refine applyGo_kept ?_ (inAll (by decide) hp)

theorem execStagedApply_kept {pts : List Part} {s0 : State} {b : Block} {inst : Fin 16} {s : State}
    (hk : Kept pts s0 s)
    (hp : [.freeCtr, .regs, .shadow, .acc, .gen, .pf0, .pf1, .rng, .sem, .qsc, .crd, .fab, .prt, .lin, .tim, .mil, .out] ⊆ pts) {res}
    (e : execStagedApply b inst s = .next res) : Kept pts s0 res := by
  unfold execStagedApply at e; cases e
  repeat' first
    | with_reducible assumption | intro _
    | with_reducible refine stagedApply_kept ?_ (inAll (by decide) hp)

theorem execIntStatusClear_kept {pts : List Part} {s0 : State} {req : Req} {b : Block} {inst : Fin 16} {v : W64}
    {newCauses : W64} {s : State} (hk : Kept pts s0 s)
    (hp : [.freeCtr, .regs, .shadow, .acc, .gen, .couch, .pf0, .pf1, .pce, .rng, .hostQ, .mbx, .sem, .ing, .tab, .asa, .cmt, .replQ, .bpm, .adm, .ddc, .qsc, .crd, .gates, .fab, .egr, .prt, .lin, .pmn, .tim, .mil, .arrivals, .out] ⊆ pts) {res}
    (e : execIntStatusClear req b inst v newCauses s = .next res) : Kept pts s0 res := by
  unfold execIntStatusClear at e; cases e
  repeat' first
    | with_reducible assumption | intro _
    | with_reducible refine intStatusClear_kept ?_ (inAll (by decide) hp)

theorem execMsixUnmask_kept {pts : List Part} {s0 : State} {fn : Fn} {vec : Option (Fin 2048)} {s : State}
    (hk : Kept pts s0 s) (hp : [.pf0, .pf1, .out] ⊆ pts) {res} (e : execMsixUnmask fn vec s = .next res)
    : Kept pts s0 res := by
  unfold execMsixUnmask at e; cases e
  repeat' first
    | with_reducible assumption | intro _
    | with_reducible refine msixUnmask_kept ?_ (inAll (by decide) hp)

theorem execPacketDispatch_kept {pts : List Part} {s0 : State} {slice : Fin 16} {idle : Fin 64} {older : Bool}
    {s : State} (hk : Kept pts s0 s) (hp : [.regs, .couch, .ing, .arrivals] ⊆ pts) {res}
    (e : execPacketDispatch slice idle older s = .next res) : Kept pts s0 res := by
  unfold execPacketDispatch at e; cases e
  repeat' first
    | with_reducible assumption | intro _ | (guard_target =~ Kept _ _ _; extract_lets +lift)
    | with_reducible refine State.inService_kept ?_ ?_
    | with_reducible refine packetDispatch_kept ?_ (inAll (by decide) hp)

theorem execCouchUnitReceive_kept {pts : List Part} {s0 : State} {d : CouchDir} {crcGood : Bool} {s : State}
    (hk : Kept pts s0 s)
    (hp : [.regs, .acc, .couch, .pf0, .pf1, .rng, .hostQ, .bpm, .adm, .qsc, .egr, .prt, .lin, .mil, .out] ⊆ pts) {res}
    (e : execCouchUnitReceive d crcGood s = .next res) : Kept pts s0 res := by
  unfold execCouchUnitReceive at e; cases e
  repeat' first
    | with_reducible assumption | intro _ | (guard_target =~ Kept _ _ _; extract_lets +lift)
    | with_reducible refine State.drainAll_kept ?_ (inAll (by decide) hp)
    | with_reducible refine couchUnitReceive_kept ?_ (inAll (by decide) hp)

theorem execCouchRetrain_kept {pts : List Part} {s0 : State} {s : State} (hk : Kept pts s0 s)
    (hp : [.regs, .couch, .pf0, .pf1, .rng, .mil, .out] ⊆ pts) {res} (e : execCouchRetrain s = .next res)
    : Kept pts s0 res := by
  unfold execCouchRetrain at e; cases e
  repeat' first
    | with_reducible assumption | intro _
    | with_reducible refine couchRetrain_kept ?_ (inAll (by decide) hp)

theorem execCouchRetrainDone_kept {pts : List Part} {s0 : State} {s : State} (hk : Kept pts s0 s)
    (hp : [.freeCtr, .regs, .shadow, .acc, .gen, .couch, .pf0, .pf1, .pce, .rng, .hostQ, .mbx, .sem, .ing, .tab, .asa, .cmt, .replQ, .bpm, .adm, .ddc, .qsc, .crd, .gates, .fab, .egr, .prt, .lin, .pmn, .tim, .mil, .arrivals, .out] ⊆ pts) {res}
    (e : execCouchRetrainDone s = .next res) : Kept pts s0 res := by
  unfold execCouchRetrainDone at e; cases e
  repeat' first
    | with_reducible assumption | intro _ | (guard_target =~ Kept _ _ _; extract_lets +lift)
    | with_reducible refine State.couchSettled_kept ?_ (inAll (by decide) hp)
    | with_reducible refine couchRetrainDone_kept ?_ (inAll (by decide) hp)

theorem execCouchDown_kept {pts : List Part} {s0 : State} {s : State} (hk : Kept pts s0 s)
    (hp : [.freeCtr, .regs, .shadow, .acc, .gen, .couch, .pf0, .pf1, .pce, .rng, .hostQ, .mbx, .sem, .ing, .tab, .asa, .cmt, .replQ, .bpm, .adm, .ddc, .qsc, .crd, .gates, .fab, .egr, .prt, .lin, .pmn, .tim, .mil, .arrivals, .out] ⊆ pts) {res}
    (e : execCouchDown s = .next res) : Kept pts s0 res := by
  unfold execCouchDown at e; cases e
  repeat' first
    | with_reducible assumption | intro _ | (guard_target =~ Kept _ _ _; extract_lets +lift)
    | with_reducible refine State.couchSettled_kept ?_ (inAll (by decide) hp)
    | with_reducible refine couchDown_kept ?_ (inAll (by decide) hp)

theorem execPowerGood_kept {pts : List Part} {s0 : State} {slotId : BitVec 6} {s : State} (hk : Kept pts s0 s)
    (hp : [.freeCtr, .regs, .shadow, .acc, .gen, .couch, .pf0, .pf1, .pce, .rng, .hostQ, .mbx, .sem, .ing, .tab, .asa, .cmt, .replQ, .bpm, .adm, .ddc, .qsc, .crd, .gates, .fab, .egr, .prt, .lin, .pmn, .tim, .mil, .arrivals, .out] ⊆ pts) {res}
    (e : execPowerGood slotId s = .next res) : Kept pts s0 res := by
  unfold execPowerGood at e; cases e
  repeat' first
    | with_reducible assumption | intro _ | with_reducible refine powerGood_kept ?_ (inAll (by decide) hp)

theorem execPowerFail_kept {pts : List Part} {s0 : State} {overvoltage : Bool} {s : State} (hk : Kept pts s0 s)
    (hp : [.freeCtr, .regs, .shadow, .acc, .gen, .couch, .pf0, .pf1, .pce, .rng, .hostQ, .mbx, .sem, .ing, .tab, .asa, .cmt, .replQ, .bpm, .adm, .ddc, .qsc, .crd, .gates, .fab, .egr, .prt, .lin, .pmn, .tim, .mil, .arrivals, .out] ⊆ pts) {res}
    (e : execPowerFail overvoltage s = .next res) : Kept pts s0 res := by
  unfold execPowerFail at e; cases e
  repeat' first
    | with_reducible assumption | intro _ | with_reducible refine powerFail_kept ?_ (inAll (by decide) hp)

theorem execLastGaspEntry_kept {pts : List Part} {s0 : State} {vin : BitVec 16} {s : State} (hk : Kept pts s0 s)
    (hp : [.mil, .out] ⊆ pts) {res} (e : execLastGaspEntry vin s = .next res) : Kept pts s0 res := by
  unfold execLastGaspEntry at e; cases e
  repeat' first
    | with_reducible assumption | intro _
    | with_reducible refine lastGaspEntry_kept ?_ (inAll (by decide) hp)

theorem execRailsOff_kept {pts : List Part} {s0 : State} {s : State} (hk : Kept pts s0 s)
    (hp : [.regs, .shadow, .acc, .gen, .couch, .pf0, .pf1, .pce, .rng, .hostQ, .mbx, .sem, .ing, .tab, .asa, .cmt, .replQ, .bpm, .adm, .ddc, .qsc, .crd, .gates, .fab, .egr, .prt, .lin, .pmn, .tim, .mil, .arrivals, .out] ⊆ pts) {res}
    (e : execRailsOff s = .next res) : Kept pts s0 res := by
  unfold execRailsOff at e; cases e
  repeat' first
    | with_reducible assumption | intro _ | with_reducible refine railsOff_kept ?_ (inAll (by decide) hp)

theorem execThermalTrip_kept {pts : List Part} {s0 : State} {point : Fin 128} {value : Int} {s : State}
    (hk : Kept pts s0 s)
    (hp : [.freeCtr, .regs, .shadow, .acc, .gen, .couch, .pf0, .pf1, .pce, .rng, .hostQ, .mbx, .sem, .ing, .tab, .asa, .cmt, .replQ, .bpm, .adm, .ddc, .qsc, .crd, .gates, .fab, .egr, .prt, .lin, .pmn, .tim, .mil, .arrivals, .out] ⊆ pts) {res}
    (e : execThermalTrip point value s = .next res) : Kept pts s0 res := by
  unfold execThermalTrip at e; cases e
  repeat' first
    | with_reducible assumption | intro _
    | with_reducible refine thermalTrip_kept ?_ (inAll (by decide) hp)

theorem execHeartbeatStrobe_kept {pts : List Part} {s0 : State} {s : State} (hk : Kept pts s0 s)
    (hp : [.gen] ⊆ pts) {res} (e : execHeartbeatStrobe s = .next res) : Kept pts s0 res := by
  unfold execHeartbeatStrobe at e; cases e
  repeat' first
    | with_reducible assumption | intro _
    | with_reducible refine heartbeatStrobe_kept ?_ (inAll (by decide) hp)

theorem execWatchdogStrobesMissed_kept {pts : List Part} {s0 : State} {s : State} (hk : Kept pts s0 s)
    (hp : [.gen] ⊆ pts) {res} (e : execWatchdogStrobesMissed s = .next res) : Kept pts s0 res := by
  unfold execWatchdogStrobesMissed at e; cases e
  repeat' first
    | with_reducible assumption | intro _
    | with_reducible refine watchdogStrobesMissed_kept ?_ (inAll (by decide) hp)

theorem execMatePresentChange_kept {pts : List Part} {s0 : State} {s : State} (hk : Kept pts s0 s)
    (hp : [.regs, .gen, .pf0, .pf1, .rng, .sem, .mil, .out] ⊆ pts) {res} (e : execMatePresentChange s = .next res)
    : Kept pts s0 res := by
  unfold execMatePresentChange at e; cases e
  repeat' first
    | with_reducible assumption | intro _
    | with_reducible refine matePresentChange_kept ?_ (inAll (by decide) hp)

theorem execAliveInChange_kept {pts : List Part} {s0 : State} {s : State} (hk : Kept pts s0 s)
    (hp : [.freeCtr, .regs, .gen, .pf0, .pf1, .rng, .sem, .fab, .prt, .tim, .mil, .out] ⊆ pts) {res}
    (e : execAliveInChange s = .next res) : Kept pts s0 res := by
  unfold execAliveInChange at e; cases e
  repeat' first
    | with_reducible assumption | intro _
    | with_reducible refine aliveInChange_kept ?_ (inAll (by decide) hp)

theorem execRegulatorsSequenced_kept {pts : List Part} {s0 : State} {s : State} (hk : Kept pts s0 s)
    (hp : [.regs, .shadow, .acc, .gen, .couch, .pf0, .pf1, .pce, .rng, .hostQ, .mbx, .sem, .ing, .tab, .asa, .cmt, .replQ, .bpm, .adm, .ddc, .qsc, .crd, .gates, .fab, .egr, .prt, .lin, .pmn, .tim, .mil, .arrivals, .out] ⊆ pts) {res}
    (e : execRegulatorsSequenced s = .next res) : Kept pts s0 res := by
  unfold execRegulatorsSequenced at e; cases e
  repeat' first
    | with_reducible assumption | intro _
    | with_reducible refine regulatorsSequenced_kept ?_ (inAll (by decide) hp)

theorem execImageVerify_kept {pts : List Part} {s0 : State} {goodA : Bool} {goodB : Bool} {s : State}
    (hk : Kept pts s0 s)
    (hp : [.freeCtr, .regs, .gen, .pf0, .pf1, .pce, .rng, .sem, .tab, .fab, .prt, .lin, .pmn, .tim, .mil, .out] ⊆ pts) {res}
    (e : execImageVerify goodA goodB s = .next res) : Kept pts s0 res := by
  unfold execImageVerify at e; cases e
  repeat' first
    | with_reducible assumption | intro _
    | with_reducible refine imageVerify_kept ?_ (inAll (by decide) hp)

theorem execInitComplete_kept {pts : List Part} {s0 : State} {fails : BitVec 144} {s : State} (hk : Kept pts s0 s)
    (hp : [.regs, .gen, .pf0, .pf1, .rng, .bpm, .ddc, .qsc, .prt, .mil, .out] ⊆ pts) {res}
    (e : execInitComplete fails s = .next res) : Kept pts s0 res := by
  unfold execInitComplete at e; cases e
  repeat' first
    | with_reducible assumption | intro _
    | with_reducible refine initComplete_kept ?_ (inAll (by decide) hp)

theorem execSelftestPass_kept {pts : List Part} {s0 : State} {s : State} (hk : Kept pts s0 s)
    (hp : [.freeCtr, .regs, .gen, .pf0, .pf1, .rng, .sem, .fab, .prt, .tim, .mil, .out] ⊆ pts) {res}
    (e : execSelftestPass s = .next res) : Kept pts s0 res := by
  unfold execSelftestPass at e; cases e
  repeat' first
    | with_reducible assumption | intro _
    | with_reducible refine selftestPass_kept ?_ (inAll (by decide) hp)

theorem execSelftestFail_kept {pts : List Part} {s0 : State} {slices : BitVec 16} {qx : Bool} {s : State}
    (hk : Kept pts s0 s)
    (hp : [.freeCtr, .regs, .gen, .pf0, .pf1, .rng, .sem, .fab, .prt, .tim, .mil, .out] ⊆ pts) {res}
    (e : execSelftestFail slices qx s = .next res) : Kept pts s0 res := by
  unfold execSelftestFail at e; cases e
  repeat' first
    | with_reducible assumption | intro _
    | with_reducible refine selftestFail_kept ?_ (inAll (by decide) hp)

theorem execPhaseReqPark_kept {pts : List Part} {s0 : State} {req : Req} {s : State} (hk : Kept pts s0 s)
    (hp : [.freeCtr, .regs, .shadow, .acc, .gen, .couch, .pf0, .pf1, .pce, .rng, .hostQ, .mbx, .sem, .ing, .tab, .asa, .cmt, .replQ, .bpm, .adm, .ddc, .qsc, .crd, .gates, .fab, .egr, .prt, .lin, .pmn, .tim, .mil, .arrivals, .out] ⊆ pts) {res}
    (e : execPhaseReqPark req s = .next res) : Kept pts s0 res := by
  unfold execPhaseReqPark at e; cases e
  repeat' first
    | with_reducible assumption | intro _ | (guard_target =~ Kept _ _ _; extract_lets +lift)
    | with_reducible refine State.own_kept ?_ (inAll (by decide) hp) ?_
    | with_reducible refine phaseReqPark_kept ?_ (inAll (by decide) hp)

theorem execPhaseReqRun_kept {pts : List Part} {s0 : State} {req : Req} {s : State} (hk : Kept pts s0 s)
    (hp : [.freeCtr, .regs, .shadow, .acc, .gen, .couch, .pf0, .pf1, .pce, .rng, .hostQ, .mbx, .sem, .ing, .tab, .asa, .cmt, .replQ, .bpm, .adm, .ddc, .qsc, .crd, .gates, .fab, .egr, .prt, .lin, .pmn, .tim, .mil, .arrivals, .out] ⊆ pts) {res}
    (e : execPhaseReqRun req s = .next res) : Kept pts s0 res := by
  unfold execPhaseReqRun at e; cases e
  repeat' first
    | with_reducible assumption | intro _ | (guard_target =~ Kept _ _ _; extract_lets +lift)
    | with_reducible refine State.own_kept ?_ (inAll (by decide) hp) ?_
    | with_reducible refine phaseReqRun_kept ?_ (inAll (by decide) hp)

theorem execPhaseReqIsolate_kept {pts : List Part} {s0 : State} {req : Req} {s : State} (hk : Kept pts s0 s)
    (hp : [.freeCtr, .regs, .shadow, .acc, .gen, .couch, .pf0, .pf1, .pce, .rng, .hostQ, .mbx, .sem, .ing, .tab, .asa, .cmt, .replQ, .bpm, .adm, .ddc, .qsc, .crd, .gates, .fab, .egr, .prt, .lin, .pmn, .tim, .mil, .arrivals, .out] ⊆ pts) {res}
    (e : execPhaseReqIsolate req s = .next res) : Kept pts s0 res := by
  unfold execPhaseReqIsolate at e; cases e
  repeat' first
    | with_reducible assumption | intro _ | (guard_target =~ Kept _ _ _; extract_lets +lift)
    | with_reducible refine State.own_kept ?_ (inAll (by decide) hp) ?_
    | with_reducible refine phaseReqIsolate_kept ?_ (inAll (by decide) hp)

theorem execModReset_kept {pts : List Part} {s0 : State} {s : State} (hk : Kept pts s0 s)
    (hp : [.regs, .shadow, .acc, .gen, .couch, .pf0, .pf1, .pce, .rng, .hostQ, .mbx, .sem, .ing, .tab, .asa, .cmt, .replQ, .bpm, .adm, .ddc, .qsc, .crd, .gates, .fab, .egr, .prt, .lin, .pmn, .tim, .mil, .arrivals, .out] ⊆ pts) {res}
    (e : execModReset s = .next res) : Kept pts s0 res := by
  unfold execModReset at e; cases e
  repeat' first
    | with_reducible assumption | intro _ | with_reducible refine modReset_kept ?_ (inAll (by decide) hp)

theorem execCold_kept {pts : List Part} {s0 : State} {req : Req} {key : BitVec 16} {s : State} (hk : Kept pts s0 s)
    (hp : [.freeCtr, .regs, .shadow, .acc, .gen, .couch, .pf0, .pf1, .pce, .rng, .hostQ, .mbx, .sem, .ing, .tab, .asa, .cmt, .replQ, .bpm, .adm, .ddc, .qsc, .crd, .gates, .fab, .egr, .prt, .lin, .pmn, .tim, .mil, .arrivals, .out] ⊆ pts) {res}
    (e : execCold req key s = .next res) : Kept pts s0 res := by
  unfold execCold at e; cases e
  repeat' first
    | with_reducible assumption | intro _ | (guard_target =~ Kept _ _ _; extract_lets +lift)
    | with_reducible refine State.own_kept ?_ (inAll (by decide) hp) ?_
    | with_reducible refine Laws.cold_kept ?_ (inAll (by decide) hp)

theorem execWarmQx_kept {pts : List Part} {s0 : State} {req : Req} {key : BitVec 16} {s : State} (hk : Kept pts s0 s)
    (hp : [.freeCtr, .regs, .shadow, .acc, .gen, .couch, .pf0, .pf1, .pce, .rng, .hostQ, .mbx, .sem, .ing, .tab, .asa, .cmt, .replQ, .bpm, .adm, .ddc, .qsc, .crd, .gates, .fab, .egr, .prt, .lin, .pmn, .tim, .mil, .arrivals, .out] ⊆ pts) {res}
    (e : execWarmQx req key s = .next res) : Kept pts s0 res := by
  unfold execWarmQx at e; cases e
  repeat' first
    | with_reducible assumption | intro _ | (guard_target =~ Kept _ _ _; extract_lets +lift)
    | with_reducible refine State.own_kept ?_ (inAll (by decide) hp) ?_
    | with_reducible refine warmQx_kept ?_ (inAll (by decide) hp)

theorem execWarmQxComplete_kept {pts : List Part} {s0 : State} {fails : BitVec 144} {s : State} (hk : Kept pts s0 s)
    (hp : [.freeCtr, .regs, .shadow, .acc, .gen, .couch, .pf0, .pf1, .pce, .rng, .hostQ, .mbx, .sem, .ing, .tab, .asa, .cmt, .replQ, .bpm, .adm, .ddc, .qsc, .crd, .gates, .fab, .egr, .prt, .lin, .pmn, .tim, .mil, .arrivals, .out] ⊆ pts) {res}
    (e : execWarmQxComplete fails s = .next res) : Kept pts s0 res := by
  unfold execWarmQxComplete at e; cases e
  repeat' first
    | with_reducible assumption | intro _ | (guard_target =~ Kept _ _ _; extract_lets +lift)
    | with_reducible refine State.couchSettled_kept ?_ (inAll (by decide) hp)
    | with_reducible refine warmQxComplete_kept ?_ (inAll (by decide) hp)

theorem execDomainHold_kept {pts : List Part} {s0 : State} {req : Req} {hold : BitVec 29} {s : State}
    (hk : Kept pts s0 s)
    (hp : [.freeCtr, .regs, .shadow, .acc, .gen, .couch, .pf0, .pf1, .pce, .rng, .hostQ, .mbx, .sem, .ing, .tab, .asa, .cmt, .replQ, .bpm, .adm, .ddc, .qsc, .crd, .gates, .fab, .egr, .prt, .lin, .pmn, .tim, .mil, .arrivals, .out] ⊆ pts) {res}
    (e : execDomainHold req hold s = .next res) : Kept pts s0 res := by
  unfold execDomainHold at e; cases e
  repeat' first
    | with_reducible assumption | intro _ | (guard_target =~ Kept _ _ _; extract_lets +lift)
    | with_reducible refine State.own_kept ?_ (inAll (by decide) hp) ?_
    | with_reducible refine domainHold_kept ?_ (inAll (by decide) hp)

theorem execDomainRelease_kept {pts : List Part} {s0 : State} {req : Req} {hold : BitVec 29} {s : State}
    (hk : Kept pts s0 s)
    (hp : [.freeCtr, .regs, .shadow, .acc, .gen, .couch, .pf0, .pf1, .pce, .rng, .hostQ, .mbx, .sem, .ing, .tab, .asa, .cmt, .replQ, .bpm, .adm, .ddc, .qsc, .crd, .gates, .fab, .egr, .prt, .lin, .pmn, .tim, .mil, .arrivals, .out] ⊆ pts) {res}
    (e : execDomainRelease req hold s = .next res) : Kept pts s0 res := by
  unfold execDomainRelease at e; cases e
  repeat' first
    | with_reducible assumption | intro _ | (guard_target =~ Kept _ _ _; extract_lets +lift)
    | with_reducible refine State.own_kept ?_ (inAll (by decide) hp) ?_
    | with_reducible refine domainRelease_kept ?_ (inAll (by decide) hp)

theorem execDomainReady_kept {pts : List Part} {s0 : State} {d : Fin 29} {s : State} (hk : Kept pts s0 s)
    (hp : [.freeCtr, .regs, .shadow, .acc, .gen, .couch, .pf0, .pf1, .pce, .rng, .hostQ, .mbx, .sem, .ing, .tab, .asa, .cmt, .replQ, .bpm, .adm, .ddc, .qsc, .crd, .gates, .fab, .egr, .prt, .lin, .pmn, .tim, .mil, .arrivals, .out] ⊆ pts) {res}
    (e : execDomainReady d s = .next res) : Kept pts s0 res := by
  unfold execDomainReady at e; cases e
  repeat' first
    | with_reducible assumption | intro _ | (guard_target =~ Kept _ _ _; extract_lets +lift)
    | with_reducible refine State.couchSettled_kept ?_ (inAll (by decide) hp)
    | with_reducible refine domainReady_kept ?_ (inAll (by decide) hp)

theorem execPerstAssert_kept {pts : List Part} {s0 : State} {s : State} (hk : Kept pts s0 s)
    (hp : [.regs, .acc, .gen, .pf0, .pf1, .pce, .rng, .mbx, .sem, .cmt, .mil, .out] ⊆ pts) {res}
    (e : execPerstAssert s = .next res) : Kept pts s0 res := by
  unfold execPerstAssert at e; cases e
  repeat' first
    | with_reducible assumption | intro _
    | with_reducible refine perstAssert_kept ?_ (inAll (by decide) hp)

theorem execHotReset_kept {pts : List Part} {s0 : State} {rate : BitVec 4} {width : BitVec 4} {flit : Bool}
    {s : State} (hk : Kept pts s0 s)
    (hp : [.freeCtr, .regs, .acc, .gen, .pf0, .pf1, .pce, .rng, .mbx, .sem, .cmt, .mil, .out] ⊆ pts) {res}
    (e : execHotReset rate width flit s = .next res) : Kept pts s0 res := by
  unfold execHotReset at e; cases e
  repeat' first
    | with_reducible assumption | intro _ | with_reducible refine hotReset_kept ?_ (inAll (by decide) hp)

theorem execDlDown_kept {pts : List Part} {s0 : State} {s : State} (hk : Kept pts s0 s)
    (hp : [.regs, .acc, .gen, .pf0, .pf1, .pce, .rng, .mbx, .sem, .cmt, .mil, .out] ⊆ pts) {res}
    (e : execDlDown s = .next res) : Kept pts s0 res := by
  unfold execDlDown at e; cases e
  repeat' first
    | with_reducible assumption | intro _ | with_reducible refine dlDown_kept ?_ (inAll (by decide) hp)

theorem execFlr_kept {pts : List Part} {s0 : State} {fn : Fn} {s : State} (hk : Kept pts s0 s)
    (hp : [.regs, .acc, .pf0, .pf1, .pce, .rng, .mbx, .sem, .cmt, .mil, .out] ⊆ pts) {res}
    (e : execFlr fn s = .next res) : Kept pts s0 res := by
  unfold execFlr at e; cases e
  repeat' first
    | with_reducible assumption | intro _ | with_reducible refine flr_kept ?_ (inAll (by decide) hp)

theorem execFlrComplete_kept {pts : List Part} {s0 : State} {fn : Fn} {s : State} (hk : Kept pts s0 s)
    (hp : [.pf0, .pf1] ⊆ pts) {res} (e : execFlrComplete fn s = .next res) : Kept pts s0 res := by
  unfold execFlrComplete at e; cases e
  repeat' first
    | with_reducible assumption | intro _
    | with_reducible refine flrComplete_kept ?_ (inAll (by decide) hp)

theorem execD3hotEntry_kept {pts : List Part} {s0 : State} {fn : Fn} {s : State} (hk : Kept pts s0 s)
    (hp : [.regs, .pf0, .pf1, .pce, .rng, .mbx, .cmt, .mil, .out] ⊆ pts) {res} (e : execD3hotEntry fn s = .next res)
    : Kept pts s0 res := by
  unfold execD3hotEntry at e; cases e
  repeat' first
    | with_reducible assumption | intro _
    | with_reducible refine d3hotEntry_kept ?_ (inAll (by decide) hp)

theorem execD0Transition_kept {pts : List Part} {s0 : State} {fn : Fn} {s : State} (hk : Kept pts s0 s)
    (hp : [.regs, .acc, .pf0, .pf1, .pce, .rng, .mbx, .sem, .cmt, .mil, .out] ⊆ pts) {res}
    (e : execD0Transition fn s = .next res) : Kept pts s0 res := by
  unfold execD0Transition at e; cases e
  repeat' first
    | with_reducible assumption | intro _
    | with_reducible refine d0Transition_kept ?_ (inAll (by decide) hp)

theorem execBmeClear_kept {pts : List Part} {s0 : State} {fn : Fn} {s : State} (hk : Kept pts s0 s)
    (hp : [.regs, .pf0, .pf1, .pce, .rng, .mbx, .cmt, .mil, .out] ⊆ pts) {res} (e : execBmeClear fn s = .next res)
    : Kept pts s0 res := by
  unfold execBmeClear at e; cases e
  repeat' first
    | with_reducible assumption | intro _ | with_reducible refine bmeClear_kept ?_ (inAll (by decide) hp)

theorem execPcieLaneFail_kept {pts : List Part} {s0 : State} {working : BitVec 8} {s : State} (hk : Kept pts s0 s)
    (hp : [.regs, .pf0, .pf1, .pce, .rng, .mil, .out] ⊆ pts) {res} (e : execPcieLaneFail working s = .next res)
    : Kept pts s0 res := by
  unfold execPcieLaneFail at e; cases e
  repeat' first
    | with_reducible assumption | intro _
    | with_reducible refine pcieLaneFail_kept ?_ (inAll (by decide) hp)

theorem execPcieMemRequest_kept {pts : List Part} {s0 : State} {t : Tlp} {s : State} (hk : Kept pts s0 s)
    (hp : [.freeCtr, .regs, .shadow, .acc, .gen, .couch, .pf0, .pf1, .pce, .rng, .hostQ, .mbx, .sem, .ing, .tab, .asa, .cmt, .replQ, .bpm, .adm, .ddc, .qsc, .crd, .gates, .fab, .egr, .prt, .lin, .pmn, .tim, .mil, .arrivals, .out] ⊆ pts) {res}
    (e : execPcieMemRequest t s = .next res) : Kept pts s0 res := by
  unfold execPcieMemRequest at e; cases e
  repeat' first
    | with_reducible assumption | intro _
    | with_reducible refine pcieMemRequest_kept ?_ (inAll (by decide) hp)

theorem execPeerWindowAccess_kept {pts : List Part} {s0 : State} {t : Tlp} {s : State} (hk : Kept pts s0 s)
    (hp : [.regs, .acc, .pf0, .pf1, .rng, .ddc, .mil, .out] ⊆ pts) {res} (e : execPeerWindowAccess t s = .next res)
    : Kept pts s0 res := by
  unfold execPeerWindowAccess at e; cases e
  repeat' first
    | with_reducible assumption | intro _
    | with_reducible refine peerWindowAccess_kept ?_ (inAll (by decide) hp)

theorem execPceWinWrite_kept {pts : List Part} {s0 : State} {req : Req} {n : Fin 16} {v : W64} {s : State}
    (hk : Kept pts s0 s)
    (hp : [.freeCtr, .regs, .shadow, .acc, .gen, .couch, .pf0, .pf1, .pce, .rng, .hostQ, .mbx, .sem, .ing, .tab, .asa, .cmt, .replQ, .bpm, .adm, .ddc, .qsc, .crd, .gates, .fab, .egr, .prt, .lin, .pmn, .tim, .mil, .arrivals, .out] ⊆ pts) {res}
    (e : execPceWinWrite req n v s = .next res) : Kept pts s0 res := by
  unfold execPceWinWrite at e; cases e
  repeat' first
    | with_reducible assumption | intro _
    | with_reducible refine pceWinWrite_kept ?_ (inAll (by decide) hp)

theorem execPcieCompletion_kept {pts : List Part} {s0 : State} {tag : Fin 512} {status : CplStatus} {s : State}
    (hk : Kept pts s0 s) (hp : [.regs, .pf0, .pf1, .pce, .rng, .cmt, .mil, .out] ⊆ pts) {res}
    (e : execPcieCompletion tag status s = .next res) : Kept pts s0 res := by
  unfold execPcieCompletion at e; cases e
  repeat' first
    | with_reducible assumption | intro _
    | with_reducible refine pcieCompletion_kept ?_ (inAll (by decide) hp)

theorem execCompletionTimeout_kept {pts : List Part} {s0 : State} {tag : Fin 512} {s : State} (hk : Kept pts s0 s)
    (hp : [.regs, .pf0, .pf1, .pce, .rng, .cmt, .mil, .out] ⊆ pts) {res} (e : execCompletionTimeout tag s = .next res)
    : Kept pts s0 res := by
  unfold execCompletionTimeout at e; cases e
  repeat' first
    | with_reducible assumption | intro _
    | with_reducible refine completionTimeout_kept ?_ (inAll (by decide) hp)

theorem execPcieTagGrant_kept {pts : List Part} {s0 : State} {fn : Fn} {s : State} (hk : Kept pts s0 s)
    (hp : [.pce, .rng, .out] ⊆ pts) {res} (e : execPcieTagGrant fn s = .next res) : Kept pts s0 res := by
  unfold execPcieTagGrant at e; cases e
  repeat' first
    | with_reducible assumption | intro _
    | with_reducible refine pcieTagGrant_kept ?_ (inAll (by decide) hp)

theorem execHwmWindowRead_kept {pts : List Part} {s0 : State} {fn : Fn} {off : BitVec 24} {s : State}
    (hk : Kept pts s0 s) (hp : [.freeCtr, .regs, .acc, .pf0, .pf1, .rng, .qsc, .mil, .out] ⊆ pts) {res}
    (e : execHwmWindowRead fn off s = .next res) : Kept pts s0 res := by
  unfold execHwmWindowRead at e; cases e
  repeat' first
    | with_reducible assumption | intro _
    | with_reducible refine hwmWindowRead_kept ?_ (inAll (by decide) hp)

theorem execPerstDeassert_kept {pts : List Part} {s0 : State} {rate : BitVec 4} {width : BitVec 4} {flit : Bool}
    {s : State} (hk : Kept pts s0 s) (hp : [.freeCtr, .regs, .gen, .pf0, .pf1, .pce, .rng, .mil, .out] ⊆ pts) {res}
    (e : execPerstDeassert rate width flit s = .next res) : Kept pts s0 res := by
  unfold execPerstDeassert at e; cases e
  repeat' first
    | with_reducible assumption | intro _
    | with_reducible refine perstDeassert_kept ?_ (inAll (by decide) hp)

theorem execModResetRelease_kept {pts : List Part} {s0 : State} {s : State} (hk : Kept pts s0 s)
    (hp : [.regs, .shadow, .acc, .gen, .couch, .pf0, .pf1, .pce, .rng, .hostQ, .mbx, .sem, .ing, .tab, .asa, .cmt, .replQ, .bpm, .adm, .ddc, .qsc, .crd, .gates, .fab, .egr, .prt, .lin, .pmn, .tim, .mil, .arrivals, .out] ⊆ pts) {res}
    (e : execModResetRelease s = .next res) : Kept pts s0 res := by
  unfold execModResetRelease at e; cases e
  repeat' first
    | with_reducible assumption | intro _
    | with_reducible refine modResetRelease_kept ?_ (inAll (by decide) hp)

theorem execBusMasterEnableSet_kept {pts : List Part} {s0 : State} {fn : Fn} {s : State} (hk : Kept pts s0 s)
    (hp : [.pf0, .pf1] ⊆ pts) {res} (e : execBusMasterEnableSet fn s = .next res) : Kept pts s0 res := by
  unfold execBusMasterEnableSet at e; cases e
  repeat' first
    | with_reducible assumption | intro _
    | with_reducible refine busMasterEnableSet_kept ?_ (inAll (by decide) hp)

theorem execMsixEnable_kept {pts : List Part} {s0 : State} {fn : Fn} {intDisable : Bool} {s : State}
    (hk : Kept pts s0 s) (hp : [.pf0, .pf1, .out] ⊆ pts) {res} (e : execMsixEnable fn intDisable s = .next res)
    : Kept pts s0 res := by
  unfold execMsixEnable at e; cases e
  repeat' first
    | with_reducible assumption | intro _
    | with_reducible refine msixEnable_kept ?_ (inAll (by decide) hp)

theorem execRingDoorbell_kept {pts : List Part} {s0 : State} {r : Fin 16384} {hostIdx : W32} {s : State}
    (hk : Kept pts s0 s) (hp : [.freeCtr, .regs, .acc, .pf0, .pf1, .pce, .rng, .cmt, .mil, .out] ⊆ pts) {res}
    (e : execRingDoorbell r hostIdx s = .next res) : Kept pts s0 res := by
  unfold execRingDoorbell at e; cases e
  repeat' first
    | with_reducible assumption | intro _ | (guard_target =~ Kept _ _ _; extract_lets +lift)
    | with_reducible refine State.slotAccess_kept ?_ (inAll (by decide) hp) ?_
    | with_reducible refine ringDoorbell_kept ?_ (inAll (by decide) hp)

theorem execRingEnable_kept {pts : List Part} {s0 : State} {req : Req} {r : Fin 16384} {cfg : W64} {s : State}
    (hk : Kept pts s0 s)
    (hp : [.freeCtr, .regs, .shadow, .acc, .gen, .couch, .pf0, .pf1, .pce, .rng, .hostQ, .mbx, .sem, .ing, .tab, .asa, .cmt, .replQ, .bpm, .adm, .ddc, .qsc, .crd, .gates, .fab, .egr, .prt, .lin, .pmn, .tim, .mil, .arrivals, .out] ⊆ pts) {res}
    (e : execRingEnable req r cfg s = .next res) : Kept pts s0 res := by
  unfold execRingEnable at e; cases e
  repeat' first
    | with_reducible assumption | intro _ | (guard_target =~ Kept _ _ _; extract_lets +lift)
    | with_reducible refine State.own_kept ?_ (inAll (by decide) hp) ?_
    | with_reducible refine ringEnable_kept ?_ (inAll (by decide) hp)

theorem execRingDisable_kept {pts : List Part} {s0 : State} {req : Req} {r : Fin 16384} {cfg : W64} {s : State}
    (hk : Kept pts s0 s)
    (hp : [.freeCtr, .regs, .shadow, .acc, .gen, .couch, .pf0, .pf1, .pce, .rng, .hostQ, .mbx, .sem, .ing, .tab, .asa, .cmt, .replQ, .bpm, .adm, .ddc, .qsc, .crd, .gates, .fab, .egr, .prt, .lin, .pmn, .tim, .mil, .arrivals, .out] ⊆ pts) {res}
    (e : execRingDisable req r cfg s = .next res) : Kept pts s0 res := by
  unfold execRingDisable at e; cases e
  repeat' first
    | with_reducible assumption | intro _ | (guard_target =~ Kept _ _ _; extract_lets +lift)
    | with_reducible refine State.own_kept ?_ (inAll (by decide) hp) ?_
    | with_reducible refine ringDisable_kept ?_ (inAll (by decide) hp)

theorem execRingDrained_kept {pts : List Part} {s0 : State} {r : Fin 16384} {s : State} (hk : Kept pts s0 s)
    (hp : [.rng] ⊆ pts) {res} (e : execRingDrained r s = .next res) : Kept pts s0 res := by
  unfold execRingDrained at e; cases e
  repeat' first
    | with_reducible assumption | intro _
    | with_reducible refine ringDrained_kept ?_ (inAll (by decide) hp)

theorem execRingArm_kept {pts : List Part} {s0 : State} {r : Fin 16384} {s : State} (hk : Kept pts s0 s)
    (hp : [.freeCtr, .regs, .acc, .pf0, .pf1, .rng, .mil, .out] ⊆ pts) {res} (e : execRingArm r s = .next res)
    : Kept pts s0 res := by
  unfold execRingArm at e; cases e
  repeat' first
    | with_reducible assumption | intro _ | (guard_target =~ Kept _ _ _; extract_lets +lift)
    | with_reducible refine State.slotAccess_kept ?_ (inAll (by decide) hp) ?_
    | with_reducible refine ringArm_kept ?_ (inAll (by decide) hp)

theorem execRingCoalTimer_kept {pts : List Part} {s0 : State} {r : Fin 16384} {s : State} (hk : Kept pts s0 s)
    (hp : [.pf0, .pf1, .rng, .out] ⊆ pts) {res} (e : execRingCoalTimer r s = .next res) : Kept pts s0 res := by
  unfold execRingCoalTimer at e; cases e
  repeat' first
    | with_reducible assumption | intro _
    | with_reducible refine ringCoalTimer_kept ?_ (inAll (by decide) hp)

theorem execDmaSlotAvailable_kept {pts : List Part} {s0 : State} {e : Fin 4} {s : State} (hk : Kept pts s0 s)
    (hp : [.regs, .pf0, .pf1, .pce, .rng, .mil, .out] ⊆ pts) {res} (e : execDmaSlotAvailable e s = .next res)
    : Kept pts s0 res := by
  unfold execDmaSlotAvailable at e; cases e
  repeat' first
    | with_reducible assumption | intro _
    | with_reducible refine dmaSlotAvailable_kept ?_ (inAll (by decide) hp)

theorem execTxDescriptor_kept {pts : List Part} {s0 : State} {r : Fin 16384} {chain : List TxDesc} {data : List Byte}
    {s : State} (hk : Kept pts s0 s) (hp : [.regs, .pf0, .pf1, .pce, .rng, .bpm, .mil, .arrivals, .out] ⊆ pts) {res}
    (e : execTxDescriptor r chain data s = .next res) : Kept pts s0 res := by
  unfold execTxDescriptor at e; cases e
  repeat' first
    | with_reducible assumption | intro _
    | with_reducible refine txDescriptor_kept ?_ (inAll (by decide) hp)

theorem execRxPacketDeliver_kept {pts : List Part} {s0 : State} {r : Fin 16384} {bufs : List (W64 × BitVec 16)}
    {ue : Bool} {s : State} (hk : Kept pts s0 s)
    (hp : [.regs, .pf0, .pf1, .rng, .hostQ, .bpm, .mil, .out] ⊆ pts) {res}
    (e : execRxPacketDeliver r bufs ue s = .next res) : Kept pts s0 res := by
  unfold execRxPacketDeliver at e; cases e
  repeat' first
    | with_reducible assumption | intro _
    | with_reducible refine rxPacketDeliver_kept ?_ (inAll (by decide) hp)

theorem execMbxH2mPost_kept {pts : List Part} {s0 : State} {i : Fin 8} {v : W64} {s : State} (hk : Kept pts s0 s)
    (hp : [.freeCtr, .regs, .shadow, .acc, .gen, .couch, .pf0, .pf1, .pce, .rng, .hostQ, .mbx, .sem, .ing, .tab, .asa, .cmt, .replQ, .bpm, .adm, .ddc, .qsc, .crd, .gates, .fab, .egr, .prt, .lin, .pmn, .tim, .mil, .arrivals, .out] ⊆ pts) {res}
    (e : execMbxH2mPost i v s = .next res) : Kept pts s0 res := by
  unfold execMbxH2mPost at e; cases e
  repeat' first
    | with_reducible assumption | intro _ | (guard_target =~ Kept _ _ _; extract_lets +lift)
    | with_reducible refine State.own_kept ?_ (inAll (by decide) hp) ?_
    | with_reducible refine mbxH2mPost_kept ?_ (inAll (by decide) hp)

theorem execMillTakeNotice_kept {pts : List Part} {s0 : State} {i : Fin 8} {readOk : Bool} {block : List Byte}
    {s : State} (hk : Kept pts s0 s) (hp : [.regs, .pf0, .pf1, .pce, .rng, .mbx, .mil, .out] ⊆ pts) {res}
    (e : execMillTakeNotice i readOk block s = .next res) : Kept pts s0 res := by
  unfold execMillTakeNotice at e; cases e
  repeat' first
    | with_reducible assumption | intro _
    | with_reducible refine millTakeNotice_kept ?_ (inAll (by decide) hp)

theorem execMillAnswer_kept {pts : List Part} {s0 : State} {src : MillSrc} {s : State} (hk : Kept pts s0 s)
    (hp : [.regs, .pf0, .pf1, .rng, .mbx, .mil, .out] ⊆ pts) {res} (e : execMillAnswer src s = .next res)
    : Kept pts s0 res := by
  unfold execMillAnswer at e; cases e
  repeat' first
    | with_reducible assumption | intro _
    | with_reducible refine millAnswer_kept ?_ (inAll (by decide) hp)

theorem execMbxM2hTake_kept {pts : List Part} {s0 : State} {i : Fin 8} {v : W64} {s : State} (hk : Kept pts s0 s)
    (hp : [.freeCtr, .regs, .shadow, .acc, .gen, .couch, .pf0, .pf1, .pce, .rng, .hostQ, .mbx, .sem, .ing, .tab, .asa, .cmt, .replQ, .bpm, .adm, .ddc, .qsc, .crd, .gates, .fab, .egr, .prt, .lin, .pmn, .tim, .mil, .arrivals, .out] ⊆ pts) {res}
    (e : execMbxM2hTake i v s = .next res) : Kept pts s0 res := by
  unfold execMbxM2hTake at e; cases e
  repeat' first
    | with_reducible assumption | intro _ | (guard_target =~ Kept _ _ _; extract_lets +lift)
    | with_reducible refine State.own_kept ?_ (inAll (by decide) hp) ?_
    | with_reducible refine mbxM2hTake_kept ?_ (inAll (by decide) hp)

theorem execMbxTimeout_kept {pts : List Part} {s0 : State} {i : Fin 8} {h2m : Bool} {s : State} (hk : Kept pts s0 s)
    (hp : [.regs, .pf0, .pf1, .rng, .mbx, .mil, .out] ⊆ pts) {res} (e : execMbxTimeout i h2m s = .next res)
    : Kept pts s0 res := by
  unfold execMbxTimeout at e; cases e
  repeat' first
    | with_reducible assumption | intro _
    | with_reducible refine mbxTimeout_kept ?_ (inAll (by decide) hp)

theorem execMbxModeWrite_kept {pts : List Part} {s0 : State} {req : Req} {i : Fin 8} {v : W64} {s : State}
    (hk : Kept pts s0 s)
    (hp : [.freeCtr, .regs, .shadow, .acc, .gen, .couch, .pf0, .pf1, .pce, .rng, .hostQ, .mbx, .sem, .ing, .tab, .asa, .cmt, .replQ, .bpm, .adm, .ddc, .qsc, .crd, .gates, .fab, .egr, .prt, .lin, .pmn, .tim, .mil, .arrivals, .out] ⊆ pts) {res}
    (e : execMbxModeWrite req i v s = .next res) : Kept pts s0 res := by
  unfold execMbxModeWrite at e; cases e
  repeat' first
    | with_reducible assumption | intro _ | (guard_target =~ Kept _ _ _; extract_lets +lift)
    | with_reducible refine State.own_kept ?_ (inAll (by decide) hp) ?_
    | with_reducible refine mbxModeWrite_kept ?_ (inAll (by decide) hp)

theorem execSemLockRead_kept {pts : List Part} {s0 : State} {n : Fin 64} {readers : List Req} {part : RdPart}
    {s : State} (hk : Kept pts s0 s) (hp : [.freeCtr, .regs, .acc, .pf0, .pf1, .rng, .sem, .mil, .out] ⊆ pts) {res}
    (e : execSemLockRead n readers part s = .next res) : Kept pts s0 res := by
  unfold execSemLockRead at e; cases e
  repeat' first
    | with_reducible assumption | intro _ | (guard_target =~ Kept _ _ _; extract_lets +lift)
    | with_reducible refine semLockRead_kept ?_ (inAll (by decide) hp)
    | with_reducible refine State.lockReaders_kept ?_ (inAll (by decide) hp)

theorem execRel_kept {pts : List Part} {s0 : State} {m : Req} {n : Fin 64} {s : State} (hk : Kept pts s0 s)
    (hp : [.freeCtr, .regs, .shadow, .acc, .gen, .couch, .pf0, .pf1, .pce, .rng, .hostQ, .mbx, .sem, .ing, .tab, .asa, .cmt, .replQ, .bpm, .adm, .ddc, .qsc, .crd, .gates, .fab, .egr, .prt, .lin, .pmn, .tim, .mil, .arrivals, .out] ⊆ pts) {res}
    (e : execRel m n s = .next res) : Kept pts s0 res := by
  unfold execRel at e; cases e
  repeat' first
    | with_reducible assumption | intro _ | (guard_target =~ Kept _ _ _; extract_lets +lift)
    | with_reducible refine rel_kept ?_ (inAll (by decide) hp)
    | with_reducible refine State.own_kept ?_ (inAll (by decide) hp) ?_ | with_reducible apply Kept.ite

theorem execForce_kept {pts : List Part} {s0 : State} {m : Req} {n : Fin 64} {s : State} (hk : Kept pts s0 s)
    (hp : [.freeCtr, .regs, .shadow, .acc, .gen, .couch, .pf0, .pf1, .pce, .rng, .hostQ, .mbx, .sem, .ing, .tab, .asa, .cmt, .replQ, .bpm, .adm, .ddc, .qsc, .crd, .gates, .fab, .egr, .prt, .lin, .pmn, .tim, .mil, .arrivals, .out] ⊆ pts) {res}
    (e : execForce m n s = .next res) : Kept pts s0 res := by
  unfold execForce at e; cases e
  repeat' first
    | with_reducible assumption | intro _ | (guard_target =~ Kept _ _ _; extract_lets +lift)
    | with_reducible refine force_kept ?_ (inAll (by decide) hp)
    | with_reducible refine State.own_kept ?_ (inAll (by decide) hp) ?_ | with_reducible apply Kept.ite

theorem execSliceRun_kept {pts : List Part} {s0 : State} {req : Req} {slice : Fin 16} {v : W64} {s : State}
    (hk : Kept pts s0 s)
    (hp : [.freeCtr, .regs, .shadow, .acc, .gen, .couch, .pf0, .pf1, .pce, .rng, .hostQ, .mbx, .sem, .ing, .tab, .asa, .cmt, .replQ, .bpm, .adm, .ddc, .qsc, .crd, .gates, .fab, .egr, .prt, .lin, .pmn, .tim, .mil, .arrivals, .out] ⊆ pts) {res}
    (e : execSliceRun req slice v s = .next res) : Kept pts s0 res := by
  unfold execSliceRun at e; cases e
  repeat' first
    | with_reducible assumption | intro _ | (guard_target =~ Kept _ _ _; extract_lets +lift)
    | with_reducible refine State.ownFx_kept ?_ (inAll (by decide) hp) ?_
    | with_reducible refine sliceRun_kept ?_ (inAll (by decide) hp)

theorem execSliceStop_kept {pts : List Part} {s0 : State} {req : Req} {slice : Fin 16} {v : W64} {s : State}
    (hk : Kept pts s0 s)
    (hp : [.freeCtr, .regs, .shadow, .acc, .gen, .couch, .pf0, .pf1, .pce, .rng, .hostQ, .mbx, .sem, .ing, .tab, .asa, .cmt, .replQ, .bpm, .adm, .ddc, .qsc, .crd, .gates, .fab, .egr, .prt, .lin, .pmn, .tim, .mil, .arrivals, .out] ⊆ pts) {res}
    (e : execSliceStop req slice v s = .next res) : Kept pts s0 res := by
  unfold execSliceStop at e; cases e
  repeat' first
    | with_reducible assumption | intro _ | (guard_target =~ Kept _ _ _; extract_lets +lift)
    | with_reducible refine State.ownFx_kept ?_ (inAll (by decide) hp) ?_
    | with_reducible refine sliceStop_kept ?_ (inAll (by decide) hp)

theorem execPortEnable_kept {pts : List Part} {s0 : State} {req : Req} {port : Fin 256} {v : W64} {s : State}
    (hk : Kept pts s0 s)
    (hp : [.freeCtr, .regs, .shadow, .acc, .gen, .couch, .pf0, .pf1, .pce, .rng, .hostQ, .mbx, .sem, .ing, .tab, .asa, .cmt, .replQ, .bpm, .adm, .ddc, .qsc, .crd, .gates, .fab, .egr, .prt, .lin, .pmn, .tim, .mil, .arrivals, .out] ⊆ pts) {res}
    (e : execPortEnable req port v s = .next res) : Kept pts s0 res := by
  unfold execPortEnable at e; cases e
  repeat' first
    | with_reducible assumption | intro _ | (guard_target =~ Kept _ _ _; extract_lets +lift)
    | with_reducible refine State.ownFx_kept ?_ (inAll (by decide) hp) ?_
    | with_reducible refine portEnable_kept ?_ (inAll (by decide) hp)

theorem execPortLinkUp_kept {pts : List Part} {s0 : State} {port : Fin 256} {s : State} (hk : Kept pts s0 s)
    (hp : [.regs, .pf0, .pf1, .rng, .lin, .mil, .out] ⊆ pts) {res} (e : execPortLinkUp port s = .next res)
    : Kept pts s0 res := by
  unfold execPortLinkUp at e; cases e
  repeat' first
    | with_reducible assumption | intro _
    | with_reducible refine portLinkUp_kept ?_ (inAll (by decide) hp)

theorem execFrameReceive_kept {pts : List Part} {s0 : State} {port : Fin 256} {frame : List Byte} {fcs : BitVec 32}
    {s : State} (hk : Kept pts s0 s) (hp : [.regs, .lin, .arrivals] ⊆ pts) {res}
    (e : execFrameReceive port frame fcs s = .next res) : Kept pts s0 res := by
  unfold execFrameReceive at e; cases e
  repeat' first
    | with_reducible assumption | intro _
    | with_reducible refine frameReceive_kept ?_ (inAll (by decide) hp)

theorem execPfcReceive_kept {pts : List Part} {s0 : State} {port : Fin 256} {en : BitVec 8}
    {quanta : List (BitVec 16)} {s : State} (hk : Kept pts s0 s) (hp : [.regs] ⊆ pts) {res}
    (e : execPfcReceive port en quanta s = .next res) : Kept pts s0 res := by
  unfold execPfcReceive at e; cases e
  repeat' first
    | with_reducible assumption | intro _
    | with_reducible refine pfcReceive_kept ?_ (inAll (by decide) hp)

theorem execPfcPauseExpiry_kept {pts : List Part} {s0 : State} {port : Fin 256} {cls : Fin 8} {s : State}
    (hk : Kept pts s0 s) (hp : [.regs] ⊆ pts) {res} (e : execPfcPauseExpiry port cls s = .next res)
    : Kept pts s0 res := by
  unfold execPfcPauseExpiry at e; cases e
  repeat' first
    | with_reducible assumption | intro _
    | with_reducible refine pfcPauseExpiry_kept ?_ (inAll (by decide) hp)

theorem execPfcXoffRepeat_kept {pts : List Part} {s0 : State} {port : Fin 256} {cls : Fin 8} {s : State}
    (hk : Kept pts s0 s) (hp : [.regs, .out] ⊆ pts) {res} (e : execPfcXoffRepeat port cls s = .next res)
    : Kept pts s0 res := by
  unfold execPfcXoffRepeat at e; cases e
  repeat' first
    | with_reducible assumption | intro _
    | with_reducible refine pfcXoffRepeat_kept ?_ (inAll (by decide) hp)

theorem execFlxGroupEnable_kept {pts : List Part} {s0 : State} {req : Req} {n : Fin 32} {v : W64} {s : State}
    (hk : Kept pts s0 s)
    (hp : [.freeCtr, .regs, .shadow, .acc, .gen, .couch, .pf0, .pf1, .pce, .rng, .hostQ, .mbx, .sem, .ing, .tab, .asa, .cmt, .replQ, .bpm, .adm, .ddc, .qsc, .crd, .gates, .fab, .egr, .prt, .lin, .pmn, .tim, .mil, .arrivals, .out] ⊆ pts) {res}
    (e : execFlxGroupEnable req n v s = .next res) : Kept pts s0 res := by
  unfold execFlxGroupEnable at e; cases e
  repeat' first
    | with_reducible assumption | intro _ | (guard_target =~ Kept _ _ _; extract_lets +lift)
    | with_reducible refine State.ownFx_kept ?_ (inAll (by decide) hp) ?_
    | with_reducible refine flxGroupEnable_kept ?_ (inAll (by decide) hp)

theorem execCalReq_kept {pts : List Part} {s0 : State} {req : Req} {n : Fin 32} {v : W64} {s : State}
    (hk : Kept pts s0 s)
    (hp : [.freeCtr, .regs, .shadow, .acc, .gen, .couch, .pf0, .pf1, .pce, .rng, .hostQ, .mbx, .sem, .ing, .tab, .asa, .cmt, .replQ, .bpm, .adm, .ddc, .qsc, .crd, .gates, .fab, .egr, .prt, .lin, .pmn, .tim, .mil, .arrivals, .out] ⊆ pts) {res}
    (e : execCalReq req n v s = .next res) : Kept pts s0 res := by
  unfold execCalReq at e; cases e
  repeat' first
    | with_reducible assumption | intro _ | (guard_target =~ Kept _ _ _; extract_lets +lift)
    | with_reducible refine State.ownFx_kept ?_ (inAll (by decide) hp) ?_
    | with_reducible refine calReq_kept ?_ (inAll (by decide) hp)

theorem execCalendarSwitch_kept {pts : List Part} {s0 : State} {n : Fin 32} {s : State} (hk : Kept pts s0 s)
    (hp : [.regs, .pf0, .pf1, .rng, .lin, .mil, .out] ⊆ pts) {res} (e : execCalendarSwitch n s = .next res)
    : Kept pts s0 res := by
  unfold execCalendarSwitch at e; cases e
  repeat' first
    | with_reducible assumption | intro _ | (guard_target =~ Kept _ _ _; extract_lets +lift)
    | with_reducible refine State.clocked_kept ?_ ?_
    | with_reducible refine calendarSwitch_kept ?_ (inAll (by decide) hp)

theorem execCalFail_kept {pts : List Part} {s0 : State} {n : Fin 32} {s : State} (hk : Kept pts s0 s)
    (hp : [.regs, .pf0, .pf1, .rng, .lin, .mil, .out] ⊆ pts) {res} (e : execCalFail n s = .next res)
    : Kept pts s0 res := by
  unfold execCalFail at e; cases e
  repeat' first
    | with_reducible assumption | intro _ | (guard_target =~ Kept _ _ _; extract_lets +lift)
    | with_reducible refine State.clocked_kept ?_ ?_
    | with_reducible refine calFail_kept ?_ (inAll (by decide) hp)

theorem execFlxClientEnable_kept {pts : List Part} {s0 : State} {req : Req} {c : Fin 512} {v : W64} {s : State}
    (hk : Kept pts s0 s)
    (hp : [.freeCtr, .regs, .shadow, .acc, .gen, .couch, .pf0, .pf1, .pce, .rng, .hostQ, .mbx, .sem, .ing, .tab, .asa, .cmt, .replQ, .bpm, .adm, .ddc, .qsc, .crd, .gates, .fab, .egr, .prt, .lin, .pmn, .tim, .mil, .arrivals, .out] ⊆ pts) {res}
    (e : execFlxClientEnable req c v s = .next res) : Kept pts s0 res := by
  unfold execFlxClientEnable at e; cases e
  repeat' first
    | with_reducible assumption | intro _ | (guard_target =~ Kept _ _ _; extract_lets +lift)
    | with_reducible refine State.ownFx_kept ?_ (inAll (by decide) hp) ?_
    | with_reducible refine flxClientEnable_kept ?_ (inAll (by decide) hp)

theorem execFlxCktEnable_kept {pts : List Part} {s0 : State} {req : Req} {c : Fin 4096} {v : W64} {s : State}
    (hk : Kept pts s0 s)
    (hp : [.freeCtr, .regs, .shadow, .acc, .gen, .couch, .pf0, .pf1, .pce, .rng, .hostQ, .mbx, .sem, .ing, .tab, .asa, .cmt, .replQ, .bpm, .adm, .ddc, .qsc, .crd, .gates, .fab, .egr, .prt, .lin, .pmn, .tim, .mil, .arrivals, .out] ⊆ pts) {res}
    (e : execFlxCktEnable req c v s = .next res) : Kept pts s0 res := by
  unfold execFlxCktEnable at e; cases e
  repeat' first
    | with_reducible assumption | intro _ | (guard_target =~ Kept _ _ _; extract_lets +lift)
    | with_reducible refine State.ownFx_kept ?_ (inAll (by decide) hp) ?_
    | with_reducible refine flxCktEnable_kept ?_ (inAll (by decide) hp)

theorem execCopy_kept {pts : List Part} {s0 : State} {req : Req} {v : W64} {s : State} (hk : Kept pts s0 s)
    (hp : [.freeCtr, .regs, .shadow, .acc, .gen, .couch, .pf0, .pf1, .pce, .rng, .hostQ, .mbx, .sem, .ing, .tab, .asa, .cmt, .replQ, .bpm, .adm, .ddc, .qsc, .crd, .gates, .fab, .egr, .prt, .lin, .pmn, .tim, .mil, .arrivals, .out] ⊆ pts) {res}
    (e : execCopy req v s = .next res) : Kept pts s0 res := by
  unfold execCopy at e; cases e
  repeat' first
    | with_reducible assumption | intro _ | (guard_target =~ Kept _ _ _; extract_lets +lift)
    | with_reducible refine State.ownFx_kept ?_ (inAll (by decide) hp) ?_
    | with_reducible refine copy_kept ?_ (inAll (by decide) hp)

theorem execCopyDone_kept {pts : List Part} {s0 : State} {s : State} (hk : Kept pts s0 s) (hp : [.regs] ⊆ pts) {res}
    (e : execCopyDone s = .next res) : Kept pts s0 res := by
  unfold execCopyDone at e; cases e
  repeat' first
    | with_reducible assumption | intro _ | (guard_target =~ Kept _ _ _; extract_lets +lift)
    | with_reducible refine State.clocked_kept ?_ ?_
    | with_reducible refine copyDone_kept ?_ (inAll (by decide) hp)

theorem execArm_kept {pts : List Part} {s0 : State} {req : Req} {v : W64} {s : State} (hk : Kept pts s0 s)
    (hp : [.freeCtr, .regs, .shadow, .acc, .gen, .couch, .pf0, .pf1, .pce, .rng, .hostQ, .mbx, .sem, .ing, .tab, .asa, .cmt, .replQ, .bpm, .adm, .ddc, .qsc, .crd, .gates, .fab, .egr, .prt, .lin, .pmn, .tim, .mil, .arrivals, .out] ⊆ pts) {res}
    (e : execArm req v s = .next res) : Kept pts s0 res := by
  unfold execArm at e; cases e
  repeat' first
    | with_reducible assumption | intro _ | (guard_target =~ Kept _ _ _; extract_lets +lift)
    | with_reducible refine State.ownFx_kept ?_ (inAll (by decide) hp) ?_
    | with_reducible refine arm_kept ?_ (inAll (by decide) hp)

theorem execDisarm_kept {pts : List Part} {s0 : State} {req : Req} {v : W64} {s : State} (hk : Kept pts s0 s)
    (hp : [.freeCtr, .regs, .shadow, .acc, .gen, .couch, .pf0, .pf1, .pce, .rng, .hostQ, .mbx, .sem, .ing, .tab, .asa, .cmt, .replQ, .bpm, .adm, .ddc, .qsc, .crd, .gates, .fab, .egr, .prt, .lin, .pmn, .tim, .mil, .arrivals, .out] ⊆ pts) {res}
    (e : execDisarm req v s = .next res) : Kept pts s0 res := by
  unfold execDisarm at e; cases e
  repeat' first
    | with_reducible assumption | intro _ | (guard_target =~ Kept _ _ _; extract_lets +lift)
    | with_reducible refine State.ownFx_kept ?_ (inAll (by decide) hp) ?_
    | with_reducible refine disarm_kept ?_ (inAll (by decide) hp)

theorem execXcPageSwitch_kept {pts : List Part} {s0 : State} {joined : List (Fin 32)} {s : State} (hk : Kept pts s0 s)
    (hp : [.regs, .pf0, .pf1, .rng, .lin, .mil, .out] ⊆ pts) {res} (e : execXcPageSwitch joined s = .next res)
    : Kept pts s0 res := by
  unfold execXcPageSwitch at e; cases e
  repeat' first
    | with_reducible assumption | intro _ | (guard_target =~ Kept _ _ _; extract_lets +lift)
    | with_reducible refine State.clocked_kept ?_ ?_
    | with_reducible refine xcPageSwitch_kept ?_ (inAll (by decide) hp)

theorem execLosDeclare_kept {pts : List Part} {s0 : State} {u : SigUnit} {s : State} (hk : Kept pts s0 s)
    (hp : [.freeCtr, .regs, .gen, .pf0, .pf1, .rng, .sem, .fab, .prt, .lin, .pmn, .tim, .mil, .out] ⊆ pts) {res}
    (e : execLosDeclare u s = .next res) : Kept pts s0 res := by
  unfold execLosDeclare at e; cases e
  repeat' first
    | with_reducible assumption | intro _
    | with_reducible refine losDeclare_kept ?_ (inAll (by decide) hp)

theorem execLoaDeclare_kept {pts : List Part} {s0 : State} {u : SigUnit} {s : State} (hk : Kept pts s0 s)
    (hp : [.freeCtr, .regs, .gen, .pf0, .pf1, .rng, .sem, .fab, .prt, .lin, .pmn, .tim, .mil, .out] ⊆ pts) {res}
    (e : execLoaDeclare u s = .next res) : Kept pts s0 res := by
  unfold execLoaDeclare at e; cases e
  repeat' first
    | with_reducible assumption | intro _
    | with_reducible refine loaDeclare_kept ?_ (inAll (by decide) hp)

theorem execGroupFail_kept {pts : List Part} {s0 : State} {n : Fin 32} {s : State} (hk : Kept pts s0 s)
    (hp : [.freeCtr, .regs, .gen, .pf0, .pf1, .rng, .sem, .fab, .prt, .pmn, .tim, .mil, .out] ⊆ pts) {res}
    (e : execGroupFail n s = .next res) : Kept pts s0 res := by
  unfold execGroupFail at e; cases e
  repeat' first
    | with_reducible assumption | intro _ | with_reducible refine groupFail_kept ?_ (inAll (by decide) hp)

theorem execClientFail_kept {pts : List Part} {s0 : State} {c : Fin 512} {s : State} (hk : Kept pts s0 s)
    (hp : [.freeCtr, .regs, .gen, .pf0, .pf1, .rng, .sem, .fab, .prt, .pmn, .tim, .mil, .out] ⊆ pts) {res}
    (e : execClientFail c s = .next res) : Kept pts s0 res := by
  unfold execClientFail at e; cases e
  repeat' first
    | with_reducible assumption | intro _
    | with_reducible refine clientFail_kept ?_ (inAll (by decide) hp)

theorem execDefectClear_kept {pts : List Part} {s0 : State} {d : Defect} {s : State} (hk : Kept pts s0 s)
    (hp : [.freeCtr, .regs, .gen, .pf0, .pf1, .rng, .sem, .fab, .prt, .pmn, .tim, .mil, .out] ⊆ pts) {res}
    (e : execDefectClear d s = .next res) : Kept pts s0 res := by
  unfold execDefectClear at e; cases e
  repeat' first
    | with_reducible assumption | intro _
    | with_reducible refine defectClear_kept ?_ (inAll (by decide) hp)

theorem execSdPeriodEnd_kept {pts : List Part} {s0 : State} {u : SigUnit} {symbols : BitVec 48}
    {corrected : BitVec 48} {uncorrectable : BitVec 48} {s : State} (hk : Kept pts s0 s)
    (hp : [.freeCtr, .regs, .gen, .pf0, .pf1, .rng, .sem, .fab, .prt, .pmn, .tim, .mil, .out] ⊆ pts) {res}
    (e : execSdPeriodEnd u symbols corrected uncorrectable s = .next res) : Kept pts s0 res := by
  unfold execSdPeriodEnd at e; cases e
  repeat' first
    | with_reducible assumption | intro _
    | with_reducible refine sdPeriodEnd_kept ?_ (inAll (by decide) hp)

theorem execHoldOffExpiry_kept {pts : List Part} {s0 : State} {ent : Fin 1120} {sd : Bool} {s : State}
    (hk : Kept pts s0 s)
    (hp : [.freeCtr, .regs, .gen, .pf0, .pf1, .rng, .sem, .fab, .prt, .pmn, .tim, .mil, .out] ⊆ pts) {res}
    (e : execHoldOffExpiry ent sd s = .next res) : Kept pts s0 res := by
  unfold execHoldOffExpiry at e; cases e
  repeat' first
    | with_reducible assumption | intro _
    | with_reducible refine holdOffExpiry_kept ?_ (inAll (by decide) hp)

theorem execPmSecondEnd_kept {pts : List Part} {s0 : State} {counts : List SecondBlocks} {s : State}
    (hk : Kept pts s0 s) (hp : [.regs, .pf0, .pf1, .rng, .pmn, .mil, .out] ⊆ pts) {res}
    (e : execPmSecondEnd counts s = .next res) : Kept pts s0 res := by
  unfold execPmSecondEnd at e; cases e
  repeat' first
    | with_reducible assumption | intro _
    | with_reducible refine pmSecondEnd_kept ?_ (inAll (by decide) hp)

theorem execPmSecondCommit_kept {pts : List Part} {s0 : State} {s : State} (hk : Kept pts s0 s)
    (hp : [.regs, .pf0, .pf1, .rng, .pmn, .mil, .out] ⊆ pts) {res} (e : execPmSecondCommit s = .next res)
    : Kept pts s0 res := by
  unfold execPmSecondCommit at e; cases e
  repeat' first
    | with_reducible assumption | intro _
    | with_reducible refine pmSecondCommit_kept ?_ (inAll (by decide) hp)

theorem execRemoteFault_kept {pts : List Part} {s0 : State} {port : Fin 256} {started : Bool} {s : State}
    (hk : Kept pts s0 s) (hp : [.regs, .pf0, .pf1, .rng, .mil, .out] ⊆ pts) {res}
    (e : execRemoteFault port started s = .next res) : Kept pts s0 res := by
  unfold execRemoteFault at e; cases e
  repeat' first
    | with_reducible assumption | intro _
    | with_reducible refine remoteFault_kept ?_ (inAll (by decide) hp)

theorem execParseStart_kept {pts : List Part} {s0 : State} {pipe : Fin 64} {bad : Bool} {s : State}
    (hk : Kept pts s0 s) (hp : [.regs, .couch, .pf0, .pf1, .rng, .ing, .tab, .cmt, .prt, .mil, .out] ⊆ pts) {res}
    (e : execParseStart pipe bad s = .next res) : Kept pts s0 res := by
  unfold execParseStart at e; cases e
  repeat' first
    | with_reducible assumption | intro _ | (guard_target =~ Kept _ _ _; extract_lets +lift)
    | with_reducible refine State.inService_kept ?_ ?_
    | with_reducible refine parseStart_kept ?_ (inAll (by decide) hp)

theorem execNop_kept {pts : List Part} {s0 : State} {e : Fin 8192} {bad : Bool} {s : State} (hk : Kept pts s0 s)
    (hp : [.regs, .couch, .pf0, .pf1, .rng, .ing, .tab, .cmt, .prt, .mil, .out] ⊆ pts) {res}
    (e : execNop e bad s = .next res) : Kept pts s0 res := by
  unfold execNop at e; cases e
  repeat' first
    | with_reducible assumption | intro _ | (guard_target =~ Kept _ _ _; extract_lets +lift)
    | with_reducible refine State.inService_kept ?_ ?_
    | with_reducible refine nop_kept ?_ (inAll (by decide) hp)

theorem execLdw_kept {pts : List Part} {s0 : State} {e : Fin 8192} {bad : Bool} {s : State} (hk : Kept pts s0 s)
    (hp : [.regs, .couch, .pf0, .pf1, .rng, .ing, .tab, .cmt, .prt, .mil, .out] ⊆ pts) {res}
    (e : execLdw e bad s = .next res) : Kept pts s0 res := by
  unfold execLdw at e; cases e
  repeat' first
    | with_reducible assumption | intro _ | (guard_target =~ Kept _ _ _; extract_lets +lift)
    | with_reducible refine State.inService_kept ?_ ?_
    | with_reducible refine ldw_kept ?_ (inAll (by decide) hp)

theorem execAlu_kept {pts : List Part} {s0 : State} {e : Fin 8192} {bad : Bool} {s : State} (hk : Kept pts s0 s)
    (hp : [.regs, .couch, .pf0, .pf1, .rng, .ing, .tab, .cmt, .prt, .mil, .out] ⊆ pts) {res}
    (e : execAlu e bad s = .next res) : Kept pts s0 res := by
  unfold execAlu at e; cases e
  repeat' first
    | with_reducible assumption | intro _ | (guard_target =~ Kept _ _ _; extract_lets +lift)
    | with_reducible refine State.inService_kept ?_ ?_
    | with_reducible refine alu_kept ?_ (inAll (by decide) hp)

theorem execAdv_kept {pts : List Part} {s0 : State} {e : Fin 8192} {bad : Bool} {s : State} (hk : Kept pts s0 s)
    (hp : [.regs, .couch, .pf0, .pf1, .rng, .ing, .tab, .cmt, .prt, .mil, .out] ⊆ pts) {res}
    (e : execAdv e bad s = .next res) : Kept pts s0 res := by
  unfold execAdv at e; cases e
  repeat' first
    | with_reducible assumption | intro _ | (guard_target =~ Kept _ _ _; extract_lets +lift)
    | with_reducible refine State.inService_kept ?_ ?_
    | with_reducible refine adv_kept ?_ (inAll (by decide) hp)

theorem execHdr_kept {pts : List Part} {s0 : State} {e : Fin 8192} {bad : Bool} {s : State} (hk : Kept pts s0 s)
    (hp : [.regs, .couch, .pf0, .pf1, .rng, .ing, .tab, .cmt, .prt, .mil, .out] ⊆ pts) {res}
    (e : execHdr e bad s = .next res) : Kept pts s0 res := by
  unfold execHdr at e; cases e
  repeat' first
    | with_reducible assumption | intro _ | (guard_target =~ Kept _ _ _; extract_lets +lift)
    | with_reducible refine State.inService_kept ?_ ?_
    | with_reducible refine hdr_kept ?_ (inAll (by decide) hp)

theorem execKey_kept {pts : List Part} {s0 : State} {e : Fin 8192} {bad : Bool} {s : State} (hk : Kept pts s0 s)
    (hp : [.regs, .couch, .pf0, .pf1, .rng, .ing, .tab, .cmt, .prt, .mil, .out] ⊆ pts) {res}
    (e : execKey e bad s = .next res) : Kept pts s0 res := by
  unfold execKey at e; cases e
  repeat' first
    | with_reducible assumption | intro _ | (guard_target =~ Kept _ _ _; extract_lets +lift)
    | with_reducible refine State.inService_kept ?_ ?_
    | with_reducible refine key_kept ?_ (inAll (by decide) hp)

theorem execKeyr_kept {pts : List Part} {s0 : State} {e : Fin 8192} {bad : Bool} {s : State} (hk : Kept pts s0 s)
    (hp : [.regs, .couch, .pf0, .pf1, .rng, .ing, .tab, .cmt, .prt, .mil, .out] ⊆ pts) {res}
    (e : execKeyr e bad s = .next res) : Kept pts s0 res := by
  unfold execKeyr at e; cases e
  repeat' first
    | with_reducible assumption | intro _ | (guard_target =~ Kept _ _ _; extract_lets +lift)
    | with_reducible refine State.inService_kept ?_ ?_
    | with_reducible refine keyr_kept ?_ (inAll (by decide) hp)

theorem execBr_kept {pts : List Part} {s0 : State} {e : Fin 8192} {bad : Bool} {s : State} (hk : Kept pts s0 s)
    (hp : [.regs, .couch, .pf0, .pf1, .rng, .ing, .tab, .cmt, .prt, .mil, .out] ⊆ pts) {res}
    (e : execBr e bad s = .next res) : Kept pts s0 res := by
  unfold execBr at e; cases e
  repeat' first
    | with_reducible assumption | intro _ | (guard_target =~ Kept _ _ _; extract_lets +lift)
    | with_reducible refine State.inService_kept ?_ ?_
    | with_reducible refine br_kept ?_ (inAll (by decide) hp)

theorem execJmp_kept {pts : List Part} {s0 : State} {e : Fin 8192} {bad : Bool} {s : State} (hk : Kept pts s0 s)
    (hp : [.regs, .couch, .pf0, .pf1, .rng, .ing, .tab, .cmt, .prt, .mil, .out] ⊆ pts) {res}
    (e : execJmp e bad s = .next res) : Kept pts s0 res := by
  unfold execJmp at e; cases e
  repeat' first
    | with_reducible assumption | intro _ | (guard_target =~ Kept _ _ _; extract_lets +lift)
    | with_reducible refine State.inService_kept ?_ ?_
    | with_reducible refine jmp_kept ?_ (inAll (by decide) hp)

theorem execChk_kept {pts : List Part} {s0 : State} {e : Fin 8192} {bad : Bool} {s : State} (hk : Kept pts s0 s)
    (hp : [.regs, .couch, .pf0, .pf1, .rng, .ing, .tab, .cmt, .prt, .mil, .out] ⊆ pts) {res}
    (e : execChk e bad s = .next res) : Kept pts s0 res := by
  unfold execChk at e; cases e
  repeat' first
    | with_reducible assumption | intro _ | (guard_target =~ Kept _ _ _; extract_lets +lift)
    | with_reducible refine State.inService_kept ?_ ?_
    | with_reducible refine chk_kept ?_ (inAll (by decide) hp)

theorem execTrim_kept {pts : List Part} {s0 : State} {e : Fin 8192} {bad : Bool} {s : State} (hk : Kept pts s0 s)
    (hp : [.regs, .couch, .pf0, .pf1, .rng, .ing, .tab, .cmt, .prt, .mil, .out] ⊆ pts) {res}
    (e : execTrim e bad s = .next res) : Kept pts s0 res := by
  unfold execTrim at e; cases e
  repeat' first
    | with_reducible assumption | intro _ | (guard_target =~ Kept _ _ _; extract_lets +lift)
    | with_reducible refine State.inService_kept ?_ ?_
    | with_reducible refine trim_kept ?_ (inAll (by decide) hp)

theorem execMovs_kept {pts : List Part} {s0 : State} {e : Fin 8192} {bad : Bool} {s : State} (hk : Kept pts s0 s)
    (hp : [.regs, .couch, .pf0, .pf1, .rng, .ing, .tab, .cmt, .prt, .mil, .out] ⊆ pts) {res}
    (e : execMovs e bad s = .next res) : Kept pts s0 res := by
  unfold execMovs at e; cases e
  repeat' first
    | with_reducible assumption | intro _ | (guard_target =~ Kept _ _ _; extract_lets +lift)
    | with_reducible refine State.inService_kept ?_ ?_
    | with_reducible refine movs_kept ?_ (inAll (by decide) hp)

theorem execFlag_kept {pts : List Part} {s0 : State} {e : Fin 8192} {bad : Bool} {s : State} (hk : Kept pts s0 s)
    (hp : [.regs, .couch, .pf0, .pf1, .rng, .ing, .tab, .cmt, .prt, .mil, .out] ⊆ pts) {res}
    (e : execFlag e bad s = .next res) : Kept pts s0 res := by
  unfold execFlag at e; cases e
  repeat' first
    | with_reducible assumption | intro _ | (guard_target =~ Kept _ _ _; extract_lets +lift)
    | with_reducible refine State.inService_kept ?_ ?_
    | with_reducible refine flag_kept ?_ (inAll (by decide) hp)

theorem execBrw_kept {pts : List Part} {s0 : State} {e : Fin 8192} {bad : Bool} {s : State} (hk : Kept pts s0 s)
    (hp : [.regs, .couch, .pf0, .pf1, .rng, .ing, .tab, .cmt, .prt, .mil, .out] ⊆ pts) {res}
    (e : execBrw e bad s = .next res) : Kept pts s0 res := by
  unfold execBrw at e; cases e
  repeat' first
    | with_reducible assumption | intro _ | (guard_target =~ Kept _ _ _; extract_lets +lift)
    | with_reducible refine State.inService_kept ?_ ?_
    | with_reducible refine brw_kept ?_ (inAll (by decide) hp)

theorem execDec_kept {pts : List Part} {s0 : State} {e : Fin 8192} {bad : Bool} {s : State} (hk : Kept pts s0 s)
    (hp : [.regs, .couch, .pf0, .pf1, .rng, .ing, .tab, .cmt, .prt, .mil, .out] ⊆ pts) {res}
    (e : execDec e bad s = .next res) : Kept pts s0 res := by
  unfold execDec at e; cases e
  repeat' first
    | with_reducible assumption | intro _ | (guard_target =~ Kept _ _ _; extract_lets +lift)
    | with_reducible refine State.inService_kept ?_ ?_
    | with_reducible refine dec_kept ?_ (inAll (by decide) hp)

theorem execDone_kept {pts : List Part} {s0 : State} {e : Fin 8192} {bad : Bool} {s : State} (hk : Kept pts s0 s)
    (hp : [.regs, .couch, .pf0, .pf1, .rng, .ing, .tab, .cmt, .prt, .mil, .out] ⊆ pts) {res}
    (e : execDone e bad s = .next res) : Kept pts s0 res := by
  unfold execDone at e; cases e
  repeat' first
    | with_reducible assumption | intro _ | (guard_target =~ Kept _ _ _; extract_lets +lift)
    | with_reducible refine State.inService_kept ?_ ?_
    | with_reducible refine done_kept ?_ (inAll (by decide) hp)

theorem execParseStepLimit_kept {pts : List Part} {s0 : State} {e : Fin 8192} {s : State} (hk : Kept pts s0 s)
    (hp : [.regs, .couch, .pf0, .pf1, .rng, .ing, .prt, .mil, .out] ⊆ pts) {res}
    (e : execParseStepLimit e s = .next res) : Kept pts s0 res := by
  unfold execParseStepLimit at e; cases e
  repeat' first
    | with_reducible assumption | intro _ | (guard_target =~ Kept _ _ _; extract_lets +lift)
    | with_reducible refine State.inService_kept ?_ ?_
    | with_reducible refine parseStepLimit_kept ?_ (inAll (by decide) hp)

theorem execParseResultDelivery_kept {pts : List Part} {s0 : State} {pipe : Fin 64} {s : State} (hk : Kept pts s0 s)
    (hp : [.ing] ⊆ pts) {res} (e : execParseResultDelivery pipe s = .next res) : Kept pts s0 res := by
  unfold execParseResultDelivery at e; cases e
  repeat' first
    | with_reducible assumption | intro _ | (guard_target =~ Kept _ _ _; extract_lets +lift)
    | with_reducible refine State.inService_kept ?_ ?_
    | with_reducible refine parseResultDelivery_kept ?_ (inAll (by decide) hp)

theorem execKeyBuild_kept {pts : List Part} {s0 : State} {pipe : Fin 64} {upset : List TableWord} {s : State}
    (hk : Kept pts s0 s) (hp : [.regs, .pf0, .pf1, .rng, .ing, .tab, .cmt, .mil, .out] ⊆ pts) {res}
    (e : execKeyBuild pipe upset s = .next res) : Kept pts s0 res := by
  unfold execKeyBuild at e; cases e
  repeat' first
    | with_reducible assumption | intro _ | (guard_target =~ Kept _ _ _; extract_lets +lift)
    | with_reducible refine State.inService_kept ?_ ?_
    | with_reducible refine keyBuild_kept ?_ (inAll (by decide) hp)

theorem execExactMatchLookup_kept {pts : List Part} {s0 : State} {pipe : Fin 64} {d : Fin 6} {upset : List TableWord}
    {stall : BitVec 32} {s : State} (hk : Kept pts s0 s)
    (hp : [.freeCtr, .regs, .pf0, .pf1, .rng, .ing, .tab, .cmt, .mil, .out] ⊆ pts) {res}
    (e : execExactMatchLookup pipe d upset stall s = .next res) : Kept pts s0 res := by
  unfold execExactMatchLookup at e; cases e
  repeat' first
    | with_reducible assumption | intro _ | (guard_target =~ Kept _ _ _; extract_lets +lift)
    | with_reducible refine State.inService_kept ?_ ?_
    | with_reducible refine exactMatchLookup_kept ?_ (inAll (by decide) hp)

theorem execRouteLookup_kept {pts : List Part} {s0 : State} {pipe : Fin 64} {d : Fin 6} {path : List (BitVec 24)}
    {upset : List TableWord} {stall : BitVec 32} {s : State} (hk : Kept pts s0 s)
    (hp : [.regs, .pf0, .pf1, .rng, .ing, .tab, .cmt, .mil, .out] ⊆ pts) {res}
    (e : execRouteLookup pipe d path upset stall s = .next res) : Kept pts s0 res := by
  unfold execRouteLookup at e; cases e
  repeat' first
    | with_reducible assumption | intro _ | (guard_target =~ Kept _ _ _; extract_lets +lift)
    | with_reducible refine State.inService_kept ?_ ?_
    | with_reducible refine routeLookup_kept ?_ (inAll (by decide) hp)

theorem execAsaSearch_kept {pts : List Part} {s0 : State} {pipe : Fin 64} {d : Fin 6} {upset : List TableWord}
    {s : State} (hk : Kept pts s0 s) (hp : [.regs, .pf0, .pf1, .rng, .ing, .tab, .asa, .cmt, .mil, .out] ⊆ pts) {res}
    (e : execAsaSearch pipe d upset s = .next res) : Kept pts s0 res := by
  unfold execAsaSearch at e; cases e
  repeat' first
    | with_reducible assumption | intro _ | (guard_target =~ Kept _ _ _; extract_lets +lift)
    | with_reducible refine State.inService_kept ?_ ?_
    | with_reducible refine asaSearch_kept ?_ (inAll (by decide) hp)

theorem execForwardingDecision_kept {pts : List Part} {s0 : State} {pipe : Fin 64} {upset : List TableWord}
    {stall : BitVec 32} {s : State} (hk : Kept pts s0 s)
    (hp : [.freeCtr, .regs, .couch, .pf0, .pf1, .rng, .ing, .tab, .cmt, .prt, .mil, .out] ⊆ pts) {res}
    (e : execForwardingDecision pipe upset stall s = .next res) : Kept pts s0 res := by
  unfold execForwardingDecision at e; cases e
  repeat' first
    | with_reducible assumption | intro _ | (guard_target =~ Kept _ _ _; extract_lets +lift)
    | with_reducible refine State.inService_kept ?_ ?_
    | with_reducible refine forwardingDecision_kept ?_ (inAll (by decide) hp)

theorem execLearnInsert_kept {pts : List Part} {s0 : State} {s : State} (hk : Kept pts s0 s)
    (hp : [.regs, .couch, .pf0, .pf1, .rng, .tab, .mil, .out] ⊆ pts) {res} (e : execLearnInsert s = .next res)
    : Kept pts s0 res := by
  unfold execLearnInsert at e; cases e
  repeat' first
    | with_reducible assumption | intro _ | (guard_target =~ Kept _ _ _; extract_lets +lift)
    | with_reducible refine State.clocked_kept ?_ ?_
    | with_reducible refine learnInsert_kept ?_ (inAll (by decide) hp)

theorem execAgeVisit_kept {pts : List Part} {s0 : State} {slot : BitVec 24} {met : Bool} {s : State}
    (hk : Kept pts s0 s) (hp : [.couch, .tab] ⊆ pts) {res} (e : execAgeVisit slot met s = .next res)
    : Kept pts s0 res := by
  unfold execAgeVisit at e; cases e
  repeat' first
    | with_reducible assumption | intro _ | (guard_target =~ Kept _ _ _; extract_lets +lift)
    | with_reducible refine State.clocked_kept ?_ ?_
    | with_reducible refine ageVisit_kept ?_ (inAll (by decide) hp)

theorem execFlushStart_kept {pts : List Part} {s0 : State} {req : Req} {v : W64} {s : State} (hk : Kept pts s0 s)
    (hp : [.freeCtr, .regs, .shadow, .acc, .gen, .couch, .pf0, .pf1, .pce, .rng, .hostQ, .mbx, .sem, .ing, .tab, .asa, .cmt, .replQ, .bpm, .adm, .ddc, .qsc, .crd, .gates, .fab, .egr, .prt, .lin, .pmn, .tim, .mil, .arrivals, .out] ⊆ pts) {res}
    (e : execFlushStart req v s = .next res) : Kept pts s0 res := by
  unfold execFlushStart at e; cases e
  repeat' first
    | with_reducible assumption | intro _ | (guard_target =~ Kept _ _ _; extract_lets +lift)
    | with_reducible refine State.ownFx_kept ?_ (inAll (by decide) hp) ?_
    | with_reducible refine flushStart_kept ?_ (inAll (by decide) hp)

theorem execFlushComplete_kept {pts : List Part} {s0 : State} {late : List (BitVec 24)} {s : State}
    (hk : Kept pts s0 s) (hp : [.regs, .couch, .pf0, .pf1, .rng, .tab, .mil, .out] ⊆ pts) {res}
    (e : execFlushComplete late s = .next res) : Kept pts s0 res := by
  unfold execFlushComplete at e; cases e
  repeat' first
    | with_reducible assumption | intro _ | (guard_target =~ Kept _ _ _; extract_lets +lift)
    | with_reducible refine State.clocked_kept ?_ ?_
    | with_reducible refine flushComplete_kept ?_ (inAll (by decide) hp)

theorem execReplicatorExpand_kept {pts : List Part} {s0 : State} {upset : List TableWord} {stall : BitVec 32}
    {s : State} (hk : Kept pts s0 s)
    (hp : [.regs, .pf0, .pf1, .rng, .tab, .cmt, .replQ, .bpm, .qsc, .lin, .mil, .out] ⊆ pts) {res}
    (e : execReplicatorExpand upset stall s = .next res) : Kept pts s0 res := by
  unfold execReplicatorExpand at e; cases e
  repeat' first
    | with_reducible assumption | intro _ | (guard_target =~ Kept _ _ _; extract_lets +lift)
    | with_reducible refine State.inService_kept ?_ ?_
    | with_reducible refine replicatorExpand_kept ?_ (inAll (by decide) hp)

theorem execDandyScanCheck_kept {pts : List Part} {s0 : State} {w : TableWord} {found : WordFault} {s : State}
    (hk : Kept pts s0 s) (hp : [.freeCtr, .regs, .pf0, .pf1, .rng, .tab, .asa, .cmt, .mil, .out] ⊆ pts) {res}
    (e : execDandyScanCheck w found s = .next res) : Kept pts s0 res := by
  unfold execDandyScanCheck at e; cases e
  repeat' first
    | with_reducible assumption | intro _ | (guard_target =~ Kept _ _ _; extract_lets +lift)
    | with_reducible refine State.clocked_kept ?_ ?_
    | with_reducible refine dandyScanCheck_kept ?_ (inAll (by decide) hp)

theorem execTrieRebuild_kept {pts : List Part} {s0 : State} {node : BitVec 24} {s : State} (hk : Kept pts s0 s)
    (hp : [.regs, .pf0, .pf1, .rng, .tab, .mil, .out] ⊆ pts) {res} (e : execTrieRebuild node s = .next res)
    : Kept pts s0 res := by
  unfold execTrieRebuild at e; cases e
  repeat' first
    | with_reducible assumption | intro _ | (guard_target =~ Kept _ _ _; extract_lets +lift)
    | with_reducible refine State.clocked_kept ?_ ?_
    | with_reducible refine trieRebuild_kept ?_ (inAll (by decide) hp)

theorem execDigestRecompute_kept {pts : List Part} {s0 : State} {i : Fin 6434} {s : State} (hk : Kept pts s0 s)
    (hp : [.tab] ⊆ pts) {res} (e : execDigestRecompute i s = .next res) : Kept pts s0 res := by
  unfold execDigestRecompute at e; cases e
  repeat' first
    | with_reducible assumption | intro _ | (guard_target =~ Kept _ _ _; extract_lets +lift)
    | with_reducible refine State.clocked_kept ?_ ?_
    | with_reducible refine digestRecompute_kept ?_ (inAll (by decide) hp)

theorem execPoisonClr_kept {pts : List Part} {s0 : State} {req : Req} {v : W64} {s : State} (hk : Kept pts s0 s)
    (hp : [.freeCtr, .regs, .shadow, .acc, .gen, .couch, .pf0, .pf1, .pce, .rng, .hostQ, .mbx, .sem, .ing, .tab, .asa, .cmt, .replQ, .bpm, .adm, .ddc, .qsc, .crd, .gates, .fab, .egr, .prt, .lin, .pmn, .tim, .mil, .arrivals, .out] ⊆ pts) {res}
    (e : execPoisonClr req v s = .next res) : Kept pts s0 res := by
  unfold execPoisonClr at e; cases e
  repeat' first
    | with_reducible assumption | intro _ | (guard_target =~ Kept _ _ _; extract_lets +lift)
    | with_reducible refine State.ownFx_kept ?_ (inAll (by decide) hp) ?_
    | with_reducible refine poisonClr_kept ?_ (inAll (by decide) hp)

theorem execAsaBankRun_kept {pts : List Part} {s0 : State} {req : Req} {k : Fin 128} {v : W64} {s : State}
    (hk : Kept pts s0 s)
    (hp : [.freeCtr, .regs, .shadow, .acc, .gen, .couch, .pf0, .pf1, .pce, .rng, .hostQ, .mbx, .sem, .ing, .tab, .asa, .cmt, .replQ, .bpm, .adm, .ddc, .qsc, .crd, .gates, .fab, .egr, .prt, .lin, .pmn, .tim, .mil, .arrivals, .out] ⊆ pts) {res}
    (e : execAsaBankRun req k v s = .next res) : Kept pts s0 res := by
  unfold execAsaBankRun at e; cases e
  repeat' first
    | with_reducible assumption | intro _ | (guard_target =~ Kept _ _ _; extract_lets +lift)
    | with_reducible refine State.ownFx_kept ?_ (inAll (by decide) hp) ?_
    | with_reducible refine asaBankRun_kept ?_ (inAll (by decide) hp)

theorem execAsaBankStop_kept {pts : List Part} {s0 : State} {req : Req} {k : Fin 128} {v : W64} {s : State}
    (hk : Kept pts s0 s)
    (hp : [.freeCtr, .regs, .shadow, .acc, .gen, .couch, .pf0, .pf1, .pce, .rng, .hostQ, .mbx, .sem, .ing, .tab, .asa, .cmt, .replQ, .bpm, .adm, .ddc, .qsc, .crd, .gates, .fab, .egr, .prt, .lin, .pmn, .tim, .mil, .arrivals, .out] ⊆ pts) {res}
    (e : execAsaBankStop req k v s = .next res) : Kept pts s0 res := by
  unfold execAsaBankStop at e; cases e
  repeat' first
    | with_reducible assumption | intro _ | (guard_target =~ Kept _ _ _; extract_lets +lift)
    | with_reducible refine State.ownFx_kept ?_ (inAll (by decide) hp) ?_
    | with_reducible refine asaBankStop_kept ?_ (inAll (by decide) hp)

theorem execStart_kept {pts : List Part} {s0 : State} {req : Req} {c : Fin 4} {v : W64} {s : State}
    (hk : Kept pts s0 s)
    (hp : [.freeCtr, .regs, .shadow, .acc, .gen, .couch, .pf0, .pf1, .pce, .rng, .hostQ, .mbx, .sem, .ing, .tab, .asa, .cmt, .replQ, .bpm, .adm, .ddc, .qsc, .crd, .gates, .fab, .egr, .prt, .lin, .pmn, .tim, .mil, .arrivals, .out] ⊆ pts) {res}
    (e : execStart req c v s = .next res) : Kept pts s0 res := by
  unfold execStart at e; cases e
  repeat' first
    | with_reducible assumption | intro _ | (guard_target =~ Kept _ _ _; extract_lets +lift)
    | with_reducible refine State.ownFx_kept ?_ (inAll (by decide) hp) ?_
    | with_reducible refine start_kept ?_ (inAll (by decide) hp)

theorem execNext_kept {pts : List Part} {s0 : State} {req : Req} {c : Fin 4} {v : W64} {s : State}
    (hk : Kept pts s0 s)
    (hp : [.freeCtr, .regs, .shadow, .acc, .gen, .couch, .pf0, .pf1, .pce, .rng, .hostQ, .mbx, .sem, .ing, .tab, .asa, .cmt, .replQ, .bpm, .adm, .ddc, .qsc, .crd, .gates, .fab, .egr, .prt, .lin, .pmn, .tim, .mil, .arrivals, .out] ⊆ pts) {res}
    (e : execNext req c v s = .next res) : Kept pts s0 res := by
  unfold execNext at e; cases e
  repeat' first
    | with_reducible assumption | intro _ | (guard_target =~ Kept _ _ _; extract_lets +lift)
    | with_reducible refine State.ownFx_kept ?_ (inAll (by decide) hp) ?_
    | with_reducible refine next_kept ?_ (inAll (by decide) hp)

theorem execSrchEnd_kept {pts : List Part} {s0 : State} {req : Req} {c : Fin 4} {v : W64} {s : State}
    (hk : Kept pts s0 s)
    (hp : [.freeCtr, .regs, .shadow, .acc, .gen, .couch, .pf0, .pf1, .pce, .rng, .hostQ, .mbx, .sem, .ing, .tab, .asa, .cmt, .replQ, .bpm, .adm, .ddc, .qsc, .crd, .gates, .fab, .egr, .prt, .lin, .pmn, .tim, .mil, .arrivals, .out] ⊆ pts) {res}
    (e : execSrchEnd req c v s = .next res) : Kept pts s0 res := by
  unfold execSrchEnd at e; cases e
  repeat' first
    | with_reducible assumption | intro _ | (guard_target =~ Kept _ _ _; extract_lets +lift)
    | with_reducible refine State.ownFx_kept ?_ (inAll (by decide) hp) ?_
    | with_reducible refine srchEnd_kept ?_ (inAll (by decide) hp)

theorem execAsaSearchStep_kept {pts : List Part} {s0 : State} {c : Fin 4} {upset : List TableWord} {s : State}
    (hk : Kept pts s0 s) (hp : [.regs, .pf0, .pf1, .rng, .tab, .asa, .cmt, .mil, .out] ⊆ pts) {res}
    (e : execAsaSearchStep c upset s = .next res) : Kept pts s0 res := by
  unfold execAsaSearchStep at e; cases e
  repeat' first
    | with_reducible assumption | intro _ | (guard_target =~ Kept _ _ _; extract_lets +lift)
    | with_reducible refine State.clocked_kept ?_ ?_
    | with_reducible refine asaSearchStep_kept ?_ (inAll (by decide) hp)

theorem execAsaPinExpiry_kept {pts : List Part} {s0 : State} {c : Fin 4} {s : State} (hk : Kept pts s0 s)
    (hp : [.regs, .pf0, .pf1, .rng, .asa, .mil, .out] ⊆ pts) {res} (e : execAsaPinExpiry c s = .next res)
    : Kept pts s0 res := by
  unfold execAsaPinExpiry at e; cases e
  repeat' first
    | with_reducible assumption | intro _ | (guard_target =~ Kept _ _ _; extract_lets +lift)
    | with_reducible refine State.clocked_kept ?_ ?_
    | with_reducible refine asaPinExpiry_kept ?_ (inAll (by decide) hp)

theorem execAsaOriginalFree_kept {pts : List Part} {s0 : State} {u : BitVec 20} {s : State} (hk : Kept pts s0 s)
    (hp : [.asa, .cmt] ⊆ pts) {res} (e : execAsaOriginalFree u s = .next res) : Kept pts s0 res := by
  unfold execAsaOriginalFree at e; cases e
  repeat' first
    | with_reducible assumption | intro _ | (guard_target =~ Kept _ _ _; extract_lets +lift)
    | with_reducible refine State.clocked_kept ?_ ?_
    | with_reducible refine asaOriginalFree_kept ?_ (inAll (by decide) hp)

theorem execWrite_kept {pts : List Part} {s0 : State} {r : Fin 1024} {op : BitVec 8} {d : ChgDesc} {s : State}
    (hk : Kept pts s0 s) (hp : [.pf0, .pf1, .pce, .rng, .cmt, .out] ⊆ pts) {res} (e : execWrite r op d s = .next res)
    : Kept pts s0 res := by
  unfold execWrite at e; cases e
  repeat' first
    | with_reducible assumption | intro _ | (guard_target =~ Kept _ _ _; extract_lets +lift)
    | with_reducible refine State.clocked_kept ?_ ?_
    | with_reducible refine write_kept ?_ (inAll (by decide) hp)

theorem execRetire_kept {pts : List Part} {s0 : State} {r : Fin 1024} {d : ChgDesc} {s : State} (hk : Kept pts s0 s)
    (hp : [.pf0, .pf1, .pce, .rng, .cmt, .out] ⊆ pts) {res} (e : execRetire r d s = .next res) : Kept pts s0 res := by
  unfold execRetire at e; cases e
  repeat' first
    | with_reducible assumption | intro _ | (guard_target =~ Kept _ _ _; extract_lets +lift)
    | with_reducible refine State.clocked_kept ?_ ?_
    | with_reducible refine retire_kept ?_ (inAll (by decide) hp)

theorem execEmAdd_kept {pts : List Part} {s0 : State} {r : Fin 1024} {d : ChgDesc} {s : State} (hk : Kept pts s0 s)
    (hp : [.pf0, .pf1, .pce, .rng, .cmt, .out] ⊆ pts) {res} (e : execEmAdd r d s = .next res) : Kept pts s0 res := by
  unfold execEmAdd at e; cases e
  repeat' first
    | with_reducible assumption | intro _ | (guard_target =~ Kept _ _ _; extract_lets +lift)
    | with_reducible refine State.clocked_kept ?_ ?_
    | with_reducible refine emAdd_kept ?_ (inAll (by decide) hp)

theorem execEmDel_kept {pts : List Part} {s0 : State} {r : Fin 1024} {d : ChgDesc} {s : State} (hk : Kept pts s0 s)
    (hp : [.pf0, .pf1, .pce, .rng, .cmt, .out] ⊆ pts) {res} (e : execEmDel r d s = .next res) : Kept pts s0 res := by
  unfold execEmDel at e; cases e
  repeat' first
    | with_reducible assumption | intro _ | (guard_target =~ Kept _ _ _; extract_lets +lift)
    | with_reducible refine State.clocked_kept ?_ ?_
    | with_reducible refine emDel_kept ?_ (inAll (by decide) hp)

theorem execMove_kept {pts : List Part} {s0 : State} {r : Fin 1024} {d : ChgDesc} {s : State} (hk : Kept pts s0 s)
    (hp : [.pf0, .pf1, .pce, .rng, .cmt, .out] ⊆ pts) {res} (e : execMove r d s = .next res) : Kept pts s0 res := by
  unfold execMove at e; cases e
  repeat' first
    | with_reducible assumption | intro _ | (guard_target =~ Kept _ _ _; extract_lets +lift)
    | with_reducible refine State.clocked_kept ?_ ?_
    | with_reducible refine move_kept ?_ (inAll (by decide) hp)

theorem execCommit_kept {pts : List Part} {s0 : State} {r : Fin 1024} {number : BitVec 32} {numberEn : Bool}
    {resume : Bool} {s : State} (hk : Kept pts s0 s)
    (hp : [.freeCtr, .regs, .pf0, .pf1, .pce, .rng, .cmt, .mil, .out] ⊆ pts) {res}
    (e : execCommit r number numberEn resume s = .next res) : Kept pts s0 res := by
  unfold execCommit at e; cases e
  repeat' first
    | with_reducible assumption | intro _ | (guard_target =~ Kept _ _ _; extract_lets +lift)
    | with_reducible refine State.clocked_kept ?_ ?_
    | with_reducible refine commit_kept ?_ (inAll (by decide) hp)

theorem execReamAbandon_kept {pts : List Part} {s0 : State} {s : State} (hk : Kept pts s0 s)
    (hp : [.regs, .pf0, .pf1, .rng, .cmt, .mil, .out] ⊆ pts) {res} (e : execReamAbandon s = .next res)
    : Kept pts s0 res := by
  unfold execReamAbandon at e; cases e
  repeat' first
    | with_reducible assumption | intro _ | (guard_target =~ Kept _ _ _; extract_lets +lift)
    | with_reducible refine State.clocked_kept ?_ ?_
    | with_reducible refine reamAbandon_kept ?_ (inAll (by decide) hp)

theorem execCommitInstant_kept {pts : List Part} {s0 : State} {s : State} (hk : Kept pts s0 s)
    (hp : [.regs, .pf0, .pf1, .pce, .rng, .tab, .asa, .cmt, .out] ⊆ pts) {res} (e : execCommitInstant s = .next res)
    : Kept pts s0 res := by
  unfold execCommitInstant at e; cases e
  repeat' first
    | with_reducible assumption | intro _ | (guard_target =~ Kept _ _ _; extract_lets +lift)
    | with_reducible refine State.clocked_kept ?_ ?_
    | with_reducible refine commitInstant_kept ?_ (inAll (by decide) hp)

theorem execDrainWait_kept {pts : List Part} {s0 : State} {s : State} (hk : Kept pts s0 s)
    (hp : [.regs, .pf0, .pf1, .rng, .cmt, .mil, .out] ⊆ pts) {res} (e : execDrainWait s = .next res)
    : Kept pts s0 res := by
  unfold execDrainWait at e; cases e
  repeat' first
    | with_reducible assumption | intro _ | (guard_target =~ Kept _ _ _; extract_lets +lift)
    | with_reducible refine State.clocked_kept ?_ ?_
    | with_reducible refine drainWait_kept ?_ (inAll (by decide) hp)

theorem execReamDrained_kept {pts : List Part} {s0 : State} {s : State} (hk : Kept pts s0 s) (hp : [.cmt] ⊆ pts) {res}
    (e : execReamDrained s = .next res) : Kept pts s0 res := by
  unfold execReamDrained at e; cases e
  repeat' first
    | with_reducible assumption | intro _ | (guard_target =~ Kept _ _ _; extract_lets +lift)
    | with_reducible refine State.clocked_kept ?_ ?_
    | with_reducible refine reamDrained_kept ?_ (inAll (by decide) hp)

theorem execSettlement_kept {pts : List Part} {s0 : State} {s : State} (hk : Kept pts s0 s)
    (hp : [.tab, .asa, .cmt] ⊆ pts) {res} (e : execSettlement s = .next res) : Kept pts s0 res := by
  unfold execSettlement at e; cases e
  repeat' first
    | with_reducible assumption | intro _ | (guard_target =~ Kept _ _ _; extract_lets +lift)
    | with_reducible refine State.clocked_kept ?_ ?_
    | with_reducible refine settlement_kept ?_ (inAll (by decide) hp)

theorem execTableRead_kept {pts : List Part} {s0 : State} {req : Req} {v : W64} {s : State} (hk : Kept pts s0 s)
    (hp : [.freeCtr, .regs, .shadow, .acc, .gen, .couch, .pf0, .pf1, .pce, .rng, .hostQ, .mbx, .sem, .ing, .tab, .asa, .cmt, .replQ, .bpm, .adm, .ddc, .qsc, .crd, .gates, .fab, .egr, .prt, .lin, .pmn, .tim, .mil, .arrivals, .out] ⊆ pts) {res}
    (e : execTableRead req v s = .next res) : Kept pts s0 res := by
  unfold execTableRead at e; cases e
  repeat' first
    | with_reducible assumption | intro _ | (guard_target =~ Kept _ _ _; extract_lets +lift)
    | with_reducible refine State.ownFx_kept ?_ (inAll (by decide) hp) ?_
    | with_reducible refine tableRead_kept ?_ (inAll (by decide) hp)

theorem execTableReadDone_kept {pts : List Part} {s0 : State} {s : State} (hk : Kept pts s0 s)
    (hp : [.freeCtr, .regs, .cmt] ⊆ pts) {res} (e : execTableReadDone s = .next res) : Kept pts s0 res := by
  unfold execTableReadDone at e; cases e
  repeat' first
    | with_reducible assumption | intro _ | (guard_target =~ Kept _ _ _; extract_lets +lift)
    | with_reducible refine State.clocked_kept ?_ ?_
    | with_reducible refine tableReadDone_kept ?_ (inAll (by decide) hp)

theorem execAlloc_kept {pts : List Part} {s0 : State} {r : Fin 32} {h : BitVec 32} {s : State} (hk : Kept pts s0 s)
    (hp : [.regs, .pf0, .pf1, .rng, .bpm, .mil, .out] ⊆ pts) {res} (e : execAlloc r h s = .next res)
    : Kept pts s0 res := by
  unfold execAlloc at e; cases e
  repeat' first
    | with_reducible assumption | intro _ | (guard_target =~ Kept _ _ _; extract_lets +lift)
    | with_reducible refine State.clocked_kept ?_ ?_
    | with_reducible refine alloc_kept ?_ (inAll (by decide) hp)

theorem execBufUse_kept {pts : List Part} {s0 : State} {r : Fin 32} {h : BitVec 32} {s : State} (hk : Kept pts s0 s)
    (hp : [.bpm] ⊆ pts) {res} (e : execBufUse r h s = .next res) : Kept pts s0 res := by
  unfold execBufUse at e; cases e
  repeat' first
    | with_reducible assumption | intro _ | (guard_target =~ Kept _ _ _; extract_lets +lift)
    | with_reducible refine State.clocked_kept ?_ ?_
    | with_reducible refine bufUse_kept ?_ (inAll (by decide) hp)

theorem execBufRef_kept {pts : List Part} {s0 : State} {r : Fin 32} {h : BitVec 32} {n : BitVec 8} {holder : Fin 32}
    {s : State} (hk : Kept pts s0 s) (hp : [.regs, .pf0, .pf1, .rng, .bpm, .mil, .out] ⊆ pts) {res}
    (e : execBufRef r h n holder s = .next res) : Kept pts s0 res := by
  unfold execBufRef at e; cases e
  repeat' first
    | with_reducible assumption | intro _ | (guard_target =~ Kept _ _ _; extract_lets +lift)
    | with_reducible refine State.clocked_kept ?_ ?_
    | with_reducible refine bufRef_kept ?_ (inAll (by decide) hp)

theorem execBufDec_kept {pts : List Part} {s0 : State} {r : Fin 32} {h : BitVec 32} {s : State} (hk : Kept pts s0 s)
    (hp : [.regs, .pf0, .pf1, .rng, .bpm, .lin, .mil, .out] ⊆ pts) {res} (e : execBufDec r h s = .next res)
    : Kept pts s0 res := by
  unfold execBufDec at e; cases e
  repeat' first
    | with_reducible assumption | intro _ | (guard_target =~ Kept _ _ _; extract_lets +lift)
    | with_reducible refine State.clocked_kept ?_ ?_
    | with_reducible refine bufDec_kept ?_ (inAll (by decide) hp)

theorem execBufReturn_kept {pts : List Part} {s0 : State} {r : Fin 32} {h : BitVec 32} {s : State}
    (hk : Kept pts s0 s) (hp : [.regs, .pf0, .pf1, .rng, .bpm, .mil, .out] ⊆ pts) {res}
    (e : execBufReturn r h s = .next res) : Kept pts s0 res := by
  unfold execBufReturn at e; cases e
  repeat' first
    | with_reducible assumption | intro _ | (guard_target =~ Kept _ _ _; extract_lets +lift)
    | with_reducible refine State.clocked_kept ?_ ?_
    | with_reducible refine bufReturn_kept ?_ (inAll (by decide) hp)

theorem execCacheIdleReturn_kept {pts : List Part} {s0 : State} {h : BitVec 32} {s : State} (hk : Kept pts s0 s)
    (hp : [.bpm] ⊆ pts) {res} (e : execCacheIdleReturn h s = .next res) : Kept pts s0 res := by
  unfold execCacheIdleReturn at e; cases e
  repeat' first
    | with_reducible assumption | intro _ | (guard_target =~ Kept _ _ _; extract_lets +lift)
    | with_reducible refine State.clocked_kept ?_ ?_
    | with_reducible refine cacheIdleReturn_kept ?_ (inAll (by decide) hp)

theorem execRefill_kept {pts : List Part} {s0 : State} {r : Fin 32} {s : State} (hk : Kept pts s0 s)
    (hp : [.regs, .pf0, .pf1, .rng, .bpm, .mil, .out] ⊆ pts) {res} (e : execRefill r s = .next res)
    : Kept pts s0 res := by
  unfold execRefill at e; cases e
  repeat' first
    | with_reducible assumption | intro _ | (guard_target =~ Kept _ _ _; extract_lets +lift)
    | with_reducible refine State.inService_kept ?_ ?_
    | with_reducible refine refill_kept ?_ (inAll (by decide) hp)

theorem execRefillRetryExpiry_kept {pts : List Part} {s0 : State} {r : Fin 32} {s : State} (hk : Kept pts s0 s)
    (hp : [.bpm] ⊆ pts) {res} (e : execRefillRetryExpiry r s = .next res) : Kept pts s0 res := by
  unfold execRefillRetryExpiry at e; cases e
  repeat' first
    | with_reducible assumption | intro _ | (guard_target =~ Kept _ _ _; extract_lets +lift)
    | with_reducible refine State.inService_kept ?_ ?_
    | with_reducible refine refillRetryExpiry_kept ?_ (inAll (by decide) hp)

theorem execAdmission_kept {pts : List Part} {s0 : State} {s : State} (hk : Kept pts s0 s)
    (hp : [.regs, .pf0, .pf1, .rng, .replQ, .bpm, .adm, .ddc, .qsc, .lin, .mil, .out] ⊆ pts) {res}
    (e : execAdmission s = .next res) : Kept pts s0 res := by
  unfold execAdmission at e; cases e
  repeat' first
    | with_reducible assumption | intro _ | (guard_target =~ Kept _ _ _; extract_lets +lift)
    | with_reducible refine State.inService_kept ?_ ?_
    | with_reducible refine admission_kept ?_ (inAll (by decide) hp)

theorem execDeepEvict_kept {pts : List Part} {s0 : State} {own : Option (Fin 8)} {ue : Option (BitVec 32)} {s : State}
    (hk : Kept pts s0 s) (hp : [.regs, .pf0, .pf1, .rng, .bpm, .adm, .qsc, .fab, .lin, .mil, .out] ⊆ pts) {res}
    (e : execDeepEvict own ue s = .next res) : Kept pts s0 res := by
  unfold execDeepEvict at e; cases e
  repeat' first
    | with_reducible assumption | intro _ | (guard_target =~ Kept _ _ _; extract_lets +lift)
    | with_reducible refine State.inService_kept ?_ ?_
    | with_reducible refine deepEvict_kept ?_ (inAll (by decide) hp)

theorem execPartialPageTimer_kept {pts : List Part} {s0 : State} {q : BitVec 20} {ue : Option (BitVec 32)} {s : State}
    (hk : Kept pts s0 s) (hp : [.regs, .pf0, .pf1, .rng, .bpm, .adm, .qsc, .fab, .lin, .mil, .out] ⊆ pts) {res}
    (e : execPartialPageTimer q ue s = .next res) : Kept pts s0 res := by
  unfold execPartialPageTimer at e; cases e
  repeat' first
    | with_reducible assumption | intro _ | (guard_target =~ Kept _ _ _; extract_lets +lift)
    | with_reducible refine State.inService_kept ?_ ?_
    | with_reducible refine partialPageTimer_kept ?_ (inAll (by decide) hp)

theorem execDeepPageWritten_kept {pts : List Part} {s0 : State} {page : BitVec 32} {s : State} (hk : Kept pts s0 s)
    (hp : [.regs, .pf0, .pf1, .rng, .bpm, .adm, .ddc, .qsc, .lin, .mil, .out] ⊆ pts) {res}
    (e : execDeepPageWritten page s = .next res) : Kept pts s0 res := by
  unfold execDeepPageWritten at e; cases e
  repeat' first
    | with_reducible assumption | intro _ | (guard_target =~ Kept _ _ _; extract_lets +lift)
    | with_reducible refine State.clocked_kept ?_ ?_
    | with_reducible refine deepPageWritten_kept ?_ (inAll (by decide) hp)

theorem execDeepRefill_kept {pts : List Part} {s0 : State} {q : BitVec 20} {s : State} (hk : Kept pts s0 s)
    (hp : [.regs, .pf0, .pf1, .rng, .bpm, .adm, .qsc, .fab, .lin, .mil, .out] ⊆ pts) {res}
    (e : execDeepRefill q s = .next res) : Kept pts s0 res := by
  unfold execDeepRefill at e; cases e
  repeat' first
    | with_reducible assumption | intro _ | (guard_target =~ Kept _ _ _; extract_lets +lift)
    | with_reducible refine State.inService_kept ?_ ?_
    | with_reducible refine deepRefill_kept ?_ (inAll (by decide) hp)

theorem execDramRead_kept {pts : List Part} {s0 : State} {part : Fin 4} {off : BitVec 35} {err : DramErr} {s : State}
    (hk : Kept pts s0 s) (hp : [.regs, .pf0, .pf1, .rng, .ddc, .qsc, .mil, .out] ⊆ pts) {res}
    (e : execDramRead part off err s = .next res) : Kept pts s0 res := by
  unfold execDramRead at e; cases e
  repeat' first
    | with_reducible assumption | intro _ | with_reducible refine dramRead_kept ?_ (inAll (by decide) hp)

theorem execSetRetrain_kept {pts : List Part} {s0 : State} {fails : BitVec 9} {s : State} (hk : Kept pts s0 s)
    (hp : [.regs, .pf0, .pf1, .rng, .ddc, .mil, .out] ⊆ pts) {res} (e : execSetRetrain fails s = .next res)
    : Kept pts s0 res := by
  unfold execSetRetrain at e; cases e
  repeat' first
    | with_reducible assumption | intro _
    | with_reducible refine setRetrain_kept ?_ (inAll (by decide) hp)

theorem execDdcRun_kept {pts : List Part} {s0 : State} {req : Req} {v : W64} {s : State} (hk : Kept pts s0 s)
    (hp : [.freeCtr, .regs, .shadow, .acc, .gen, .couch, .pf0, .pf1, .pce, .rng, .hostQ, .mbx, .sem, .ing, .tab, .asa, .cmt, .replQ, .bpm, .adm, .ddc, .qsc, .crd, .gates, .fab, .egr, .prt, .lin, .pmn, .tim, .mil, .arrivals, .out] ⊆ pts) {res}
    (e : execDdcRun req v s = .next res) : Kept pts s0 res := by
  unfold execDdcRun at e; cases e
  repeat' first
    | with_reducible assumption | intro _ | (guard_target =~ Kept _ _ _; extract_lets +lift)
    | with_reducible refine State.own_kept ?_ (inAll (by decide) hp) ?_
    | with_reducible refine ddcRun_kept ?_ (inAll (by decide) hp)

theorem execSpareGo_kept {pts : List Part} {s0 : State} {req : Req} {n : Fin 9} {v : W64} {s : State}
    (hk : Kept pts s0 s)
    (hp : [.freeCtr, .regs, .shadow, .acc, .gen, .couch, .pf0, .pf1, .pce, .rng, .hostQ, .mbx, .sem, .ing, .tab, .asa, .cmt, .replQ, .bpm, .adm, .ddc, .qsc, .crd, .gates, .fab, .egr, .prt, .lin, .pmn, .tim, .mil, .arrivals, .out] ⊆ pts) {res}
    (e : execSpareGo req n v s = .next res) : Kept pts s0 res := by
  unfold execSpareGo at e; cases e
  repeat' first
    | with_reducible assumption | intro _ | (guard_target =~ Kept _ _ _; extract_lets +lift)
    | with_reducible refine State.own_kept ?_ (inAll (by decide) hp) ?_
    | with_reducible refine spareGo_kept ?_ (inAll (by decide) hp)

theorem execSpareCopyDone_kept {pts : List Part} {s0 : State} {n : Fin 9} {bad : Bool} {s : State}
    (hk : Kept pts s0 s) (hp : [.regs, .pf0, .pf1, .rng, .ddc, .mil, .out] ⊆ pts) {res}
    (e : execSpareCopyDone n bad s = .next res) : Kept pts s0 res := by
  unfold execSpareCopyDone at e; cases e
  repeat' first
    | with_reducible assumption | intro _
    | with_reducible refine spareCopyDone_kept ?_ (inAll (by decide) hp)

theorem execSpareTest_kept {pts : List Part} {s0 : State} {n : Fin 9} {ue : Bool} {corr : BitVec 32} {s : State}
    (hk : Kept pts s0 s) (hp : [.regs, .pf0, .pf1, .rng, .ddc, .mil, .out] ⊆ pts) {res}
    (e : execSpareTest n ue corr s = .next res) : Kept pts s0 res := by
  unfold execSpareTest at e; cases e
  repeat' first
    | with_reducible assumption | intro _ | with_reducible refine spareTest_kept ?_ (inAll (by decide) hp)

theorem execCntClr_kept {pts : List Part} {s0 : State} {req : Req} {v : W64} {s : State} (hk : Kept pts s0 s)
    (hp : [.freeCtr, .regs, .shadow, .acc, .gen, .couch, .pf0, .pf1, .pce, .rng, .hostQ, .mbx, .sem, .ing, .tab, .asa, .cmt, .replQ, .bpm, .adm, .ddc, .qsc, .crd, .gates, .fab, .egr, .prt, .lin, .pmn, .tim, .mil, .arrivals, .out] ⊆ pts) {res}
    (e : execCntClr req v s = .next res) : Kept pts s0 res := by
  unfold execCntClr at e; cases e
  repeat' first
    | with_reducible assumption | intro _ | (guard_target =~ Kept _ _ _; extract_lets +lift)
    | with_reducible refine State.own_kept ?_ (inAll (by decide) hp) ?_
    | with_reducible refine cntClr_kept ?_ (inAll (by decide) hp)

theorem execQscRun_kept {pts : List Part} {s0 : State} {req : Req} {v : W64} {s : State} (hk : Kept pts s0 s)
    (hp : [.freeCtr, .regs, .shadow, .acc, .gen, .couch, .pf0, .pf1, .pce, .rng, .hostQ, .mbx, .sem, .ing, .tab, .asa, .cmt, .replQ, .bpm, .adm, .ddc, .qsc, .crd, .gates, .fab, .egr, .prt, .lin, .pmn, .tim, .mil, .arrivals, .out] ⊆ pts) {res}
    (e : execQscRun req v s = .next res) : Kept pts s0 res := by
  unfold execQscRun at e; cases e
  repeat' first
    | with_reducible assumption | intro _ | (guard_target =~ Kept _ _ _; extract_lets +lift)
    | with_reducible refine State.own_kept ?_ (inAll (by decide) hp) ?_
    | with_reducible refine qscRun_kept ?_ (inAll (by decide) hp)

theorem execQueueFlushStart_kept {pts : List Part} {s0 : State} {req : Req} {v : W64} {s : State} (hk : Kept pts s0 s)
    (hp : [.freeCtr, .regs, .shadow, .acc, .gen, .couch, .pf0, .pf1, .pce, .rng, .hostQ, .mbx, .sem, .ing, .tab, .asa, .cmt, .replQ, .bpm, .adm, .ddc, .qsc, .crd, .gates, .fab, .egr, .prt, .lin, .pmn, .tim, .mil, .arrivals, .out] ⊆ pts) {res}
    (e : execQueueFlushStart req v s = .next res) : Kept pts s0 res := by
  unfold execQueueFlushStart at e; cases e
  repeat' first
    | with_reducible assumption | intro _ | (guard_target =~ Kept _ _ _; extract_lets +lift)
    | with_reducible refine State.own_kept ?_ (inAll (by decide) hp) ?_
    | with_reducible refine queueFlushStart_kept ?_ (inAll (by decide) hp)

theorem execQueueFlushDone_kept {pts : List Part} {s0 : State} {s : State} (hk : Kept pts s0 s)
    (hp : [.regs, .pf0, .pf1, .rng, .bpm, .adm, .qsc, .fab, .lin, .mil, .out] ⊆ pts) {res}
    (e : execQueueFlushDone s = .next res) : Kept pts s0 res := by
  unfold execQueueFlushDone at e; cases e
  repeat' first
    | with_reducible assumption | intro _ | (guard_target =~ Kept _ _ _; extract_lets +lift)
    | with_reducible refine State.clocked_kept ?_ ?_
    | with_reducible refine queueFlushDone_kept ?_ (inAll (by decide) hp)

theorem execCreditRequest_kept {pts : List Part} {s0 : State} {q : BitVec 20} {s : State} (hk : Kept pts s0 s)
    (hp : [.qsc, .fab] ⊆ pts) {res} (e : execCreditRequest q s = .next res) : Kept pts s0 res := by
  unfold execCreditRequest at e; cases e
  repeat' first
    | with_reducible assumption | intro _ | (guard_target =~ Kept _ _ _; extract_lets +lift)
    | with_reducible refine State.inService_kept ?_ ?_
    | with_reducible refine creditRequest_kept ?_ (inAll (by decide) hp)

theorem execRequestArrival_kept {pts : List Part} {s0 : State} {s : State} (hk : Kept pts s0 s)
    (hp : [.regs, .pf0, .pf1, .rng, .crd, .fab, .mil, .out] ⊆ pts) {res} (e : execRequestArrival s = .next res)
    : Kept pts s0 res := by
  unfold execRequestArrival at e; cases e
  repeat' first
    | with_reducible assumption | intro _ | (guard_target =~ Kept _ _ _; extract_lets +lift)
    | with_reducible refine State.inService_kept ?_ ?_
    | with_reducible refine requestArrival_kept ?_ (inAll (by decide) hp)

theorem execCreditSlot_kept {pts : List Part} {s0 : State} {s : State} (hk : Kept pts s0 s)
    (hp : [.regs, .crd, .fab] ⊆ pts) {res} (e : execCreditSlot s = .next res) : Kept pts s0 res := by
  unfold execCreditSlot at e; cases e
  repeat' first
    | with_reducible assumption | intro _ | (guard_target =~ Kept _ _ _; extract_lets +lift)
    | with_reducible refine State.inService_kept ?_ ?_
    | with_reducible refine creditSlot_kept ?_ (inAll (by decide) hp)

theorem execGrant_kept {pts : List Part} {s0 : State} {s : State} (hk : Kept pts s0 s) (hp : [.qsc, .fab] ⊆ pts) {res}
    (e : execGrant s = .next res) : Kept pts s0 res := by
  unfold execGrant at e; cases e
  repeat' first
    | with_reducible assumption | intro _ | (guard_target =~ Kept _ _ _; extract_lets +lift)
    | with_reducible refine State.inService_kept ?_ ?_
    | with_reducible refine grant_kept ?_ (inAll (by decide) hp)

theorem execDefer_kept {pts : List Part} {s0 : State} {s : State} (hk : Kept pts s0 s) (hp : [.qsc, .fab] ⊆ pts) {res}
    (e : execDefer s = .next res) : Kept pts s0 res := by
  unfold execDefer at e; cases e
  repeat' first
    | with_reducible assumption | intro _ | (guard_target =~ Kept _ _ _; extract_lets +lift)
    | with_reducible refine State.inService_kept ?_ ?_
    | with_reducible refine defer_kept ?_ (inAll (by decide) hp)

theorem execDeferBackoffExpiry_kept {pts : List Part} {s0 : State} {q : BitVec 20} {s : State} (hk : Kept pts s0 s)
    (hp : [.qsc] ⊆ pts) {res} (e : execDeferBackoffExpiry q s = .next res) : Kept pts s0 res := by
  unfold execDeferBackoffExpiry at e; cases e
  repeat' first
    | with_reducible assumption | intro _ | (guard_target =~ Kept _ _ _; extract_lets +lift)
    | with_reducible refine State.inService_kept ?_ ?_
    | with_reducible refine deferBackoffExpiry_kept ?_ (inAll (by decide) hp)

theorem execReqTimeout_kept {pts : List Part} {s0 : State} {q : BitVec 20} {s : State} (hk : Kept pts s0 s)
    (hp : [.regs, .pf0, .pf1, .rng, .qsc, .mil, .out] ⊆ pts) {res} (e : execReqTimeout q s = .next res)
    : Kept pts s0 res := by
  unfold execReqTimeout at e; cases e
  repeat' first
    | with_reducible assumption | intro _ | (guard_target =~ Kept _ _ _; extract_lets +lift)
    | with_reducible refine State.inService_kept ?_ ?_
    | with_reducible refine reqTimeout_kept ?_ (inAll (by decide) hp)

theorem execVoqDequeue_kept {pts : List Part} {s0 : State} {ue : Bool} {s : State} (hk : Kept pts s0 s)
    (hp : [.regs, .pf0, .pf1, .rng, .bpm, .adm, .qsc, .fab, .lin, .mil, .out] ⊆ pts) {res}
    (e : execVoqDequeue ue s = .next res) : Kept pts s0 res := by
  unfold execVoqDequeue at e; cases e
  repeat' first
    | with_reducible assumption | intro _ | (guard_target =~ Kept _ _ _; extract_lets +lift)
    | with_reducible refine State.inService_kept ?_ ?_
    | with_reducible refine voqDequeue_kept ?_ (inAll (by decide) hp)

theorem execCreditReturnReceive_kept {pts : List Part} {s0 : State} {s : State} (hk : Kept pts s0 s)
    (hp : [.regs, .fab] ⊆ pts) {res} (e : execCreditReturnReceive s = .next res) : Kept pts s0 res := by
  unfold execCreditReturnReceive at e; cases e
  repeat' first
    | with_reducible assumption | intro _ | (guard_target =~ Kept _ _ _; extract_lets +lift)
    | with_reducible refine State.inService_kept ?_ ?_
    | with_reducible refine creditReturnReceive_kept ?_ (inAll (by decide) hp)

theorem execIdleClr_kept {pts : List Part} {s0 : State} {g : Fin 32} {k : Fin 8} {s : State} (hk : Kept pts s0 s)
    (hp : [.regs] ⊆ pts) {res} (e : execIdleClr g k s = .next res) : Kept pts s0 res := by
  unfold execIdleClr at e; cases e
  repeat' first
    | with_reducible assumption | intro _ | (guard_target =~ Kept _ _ _; extract_lets +lift)
    | with_reducible refine State.inService_kept ?_ ?_
    | with_reducible refine idleClr_kept ?_ (inAll (by decide) hp)

theorem execCrdResEnable_kept {pts : List Part} {s0 : State} {req : Req} {r : Fin 4096} {v : W64} {s : State}
    (hk : Kept pts s0 s)
    (hp : [.freeCtr, .regs, .shadow, .acc, .gen, .couch, .pf0, .pf1, .pce, .rng, .hostQ, .mbx, .sem, .ing, .tab, .asa, .cmt, .replQ, .bpm, .adm, .ddc, .qsc, .crd, .gates, .fab, .egr, .prt, .lin, .pmn, .tim, .mil, .arrivals, .out] ⊆ pts) {res}
    (e : execCrdResEnable req r v s = .next res) : Kept pts s0 res := by
  unfold execCrdResEnable at e; cases e
  repeat' first
    | with_reducible assumption | intro _ | (guard_target =~ Kept _ _ _; extract_lets +lift)
    | with_reducible refine State.own_kept ?_ (inAll (by decide) hp) ?_
    | with_reducible refine crdResEnable_kept ?_ (inAll (by decide) hp)

theorem execEgressEnqueue_kept {pts : List Part} {s0 : State} {s : State} (hk : Kept pts s0 s)
    (hp : [.regs, .pf0, .pf1, .rng, .bpm, .adm, .qsc, .lin, .mil, .out] ⊆ pts) {res}
    (e : execEgressEnqueue s = .next res) : Kept pts s0 res := by
  unfold execEgressEnqueue at e; cases e
  repeat' first
    | with_reducible assumption | intro _ | (guard_target =~ Kept _ _ _; extract_lets +lift)
    | with_reducible refine State.inService_kept ?_ ?_
    | with_reducible refine egressEnqueue_kept ?_ (inAll (by decide) hp)

theorem execSchedulerSelection_kept {pts : List Part} {s0 : State} {port : Fin 288} {ue : Bool} {s : State}
    (hk : Kept pts s0 s)
    (hp : [.regs, .couch, .pf0, .pf1, .rng, .bpm, .adm, .qsc, .fab, .prt, .lin, .mil, .out] ⊆ pts) {res}
    (e : execSchedulerSelection port ue s = .next res) : Kept pts s0 res := by
  unfold execSchedulerSelection at e; cases e
  repeat' first
    | with_reducible assumption | intro _ | (guard_target =~ Kept _ _ _; extract_lets +lift)
    | with_reducible refine State.inService_kept ?_ ?_
    | with_reducible refine State.drainAll_kept ?_ (inAll (by decide) hp)
    | with_reducible refine schedulerSelection_kept ?_ (inAll (by decide) hp)

theorem execGateEvent_kept {pts : List Part} {s0 : State} {port : Fin 288} {s : State} (hk : Kept pts s0 s)
    (hp : [.regs] ⊆ pts) {res} (e : execGateEvent port s = .next res) : Kept pts s0 res := by
  unfold execGateEvent at e; cases e
  repeat' first
    | with_reducible assumption | intro _ | (guard_target =~ Kept _ _ _; extract_lets +lift)
    | with_reducible refine State.inService_kept ?_ ?_
    | with_reducible refine gateEvent_kept ?_ (inAll (by decide) hp)

theorem execChange_kept {pts : List Part} {s0 : State} {req : Req} {port : Fin 288} {v : W64} {s : State}
    (hk : Kept pts s0 s)
    (hp : [.freeCtr, .regs, .shadow, .acc, .gen, .couch, .pf0, .pf1, .pce, .rng, .hostQ, .mbx, .sem, .ing, .tab, .asa, .cmt, .replQ, .bpm, .adm, .ddc, .qsc, .crd, .gates, .fab, .egr, .prt, .lin, .pmn, .tim, .mil, .arrivals, .out] ⊆ pts) {res}
    (e : execChange req port v s = .next res) : Kept pts s0 res := by
  unfold execChange at e; cases e
  repeat' first
    | with_reducible assumption | intro _ | (guard_target =~ Kept _ _ _; extract_lets +lift)
    | with_reducible refine State.own_kept ?_ (inAll (by decide) hp) ?_
    | with_reducible refine Laws.change_kept ?_ (inAll (by decide) hp)

theorem execGateListSwitch_kept {pts : List Part} {s0 : State} {port : Fin 288} {s : State} (hk : Kept pts s0 s)
    (hp : [.regs, .pf0, .pf1, .rng, .bpm, .adm, .qsc, .gates, .fab, .lin, .mil, .out] ⊆ pts) {res}
    (e : execGateListSwitch port s = .next res) : Kept pts s0 res := by
  unfold execGateListSwitch at e; cases e
  repeat' first
    | with_reducible assumption | intro _ | (guard_target =~ Kept _ _ _; extract_lets +lift)
    | with_reducible refine State.inService_kept ?_ ?_
    | with_reducible refine gateListSwitch_kept ?_ (inAll (by decide) hp)

theorem execFabMacroRun_kept {pts : List Part} {s0 : State} {req : Req} {n : Fin 5} {v : W64} {s : State}
    (hk : Kept pts s0 s)
    (hp : [.freeCtr, .regs, .shadow, .acc, .gen, .couch, .pf0, .pf1, .pce, .rng, .hostQ, .mbx, .sem, .ing, .tab, .asa, .cmt, .replQ, .bpm, .adm, .ddc, .qsc, .crd, .gates, .fab, .egr, .prt, .lin, .pmn, .tim, .mil, .arrivals, .out] ⊆ pts) {res}
    (e : execFabMacroRun req n v s = .next res) : Kept pts s0 res := by
  unfold execFabMacroRun at e; cases e
  repeat' first
    | with_reducible assumption | intro _ | (guard_target =~ Kept _ _ _; extract_lets +lift)
    | with_reducible refine State.own_kept ?_ (inAll (by decide) hp) ?_
    | with_reducible refine fabMacroRun_kept ?_ (inAll (by decide) hp)

theorem execMarkerReceive_kept {pts : List Part} {s0 : State} {lane : Lane} {pos : Fin 174080} {marker : List Byte}
    {s : State} (hk : Kept pts s0 s)
    (hp : [.freeCtr, .regs, .gen, .pf0, .pf1, .rng, .sem, .fab, .prt, .pmn, .tim, .mil, .out] ⊆ pts) {res}
    (e : execMarkerReceive lane pos marker s = .next res) : Kept pts s0 res := by
  unfold execMarkerReceive at e; cases e
  repeat' first
    | with_reducible assumption | intro _
    | with_reducible refine markerReceive_kept ?_ (inAll (by decide) hp)

theorem execSearchWindowEnd_kept {pts : List Part} {s0 : State} {lane : Lane} {s : State} (hk : Kept pts s0 s)
    (hp : [.freeCtr, .regs, .gen, .pf0, .pf1, .rng, .sem, .fab, .prt, .pmn, .tim, .mil, .out] ⊆ pts) {res}
    (e : execSearchWindowEnd lane s = .next res) : Kept pts s0 res := by
  unfold execSearchWindowEnd at e; cases e
  repeat' first
    | with_reducible assumption | intro _
    | with_reducible refine searchWindowEnd_kept ?_ (inAll (by decide) hp)

theorem execCellReceive_kept {pts : List Part} {s0 : State} {l : Fin 320} {cell : List Byte} {s : State}
    (hk : Kept pts s0 s) (hp : [.regs, .pf0, .pf1, .rng, .fab, .mil, .out] ⊆ pts) {res}
    (e : execCellReceive l cell s = .next res) : Kept pts s0 res := by
  unfold execCellReceive at e; cases e
  repeat' first
    | with_reducible assumption | intro _
    | with_reducible refine cellReceive_kept ?_ (inAll (by decide) hp)

theorem execAdvert_kept {pts : List Part} {s0 : State} {s : State} (hk : Kept pts s0 s) (hp : [.fab] ⊆ pts) {res}
    (e : execAdvert s = .next res) : Kept pts s0 res := by
  unfold execAdvert at e; cases e
  repeat' first
    | with_reducible assumption | intro _ | with_reducible refine advert_kept ?_ (inAll (by decide) hp)

theorem execReach_kept {pts : List Part} {s0 : State} {s : State} (hk : Kept pts s0 s)
    (hp : [.freeCtr, .regs, .gen, .pf0, .pf1, .rng, .sem, .fab, .prt, .tim, .mil, .out] ⊆ pts) {res}
    (e : execReach s = .next res) : Kept pts s0 res := by
  unfold execReach at e; cases e
  repeat' first
    | with_reducible assumption | intro _ | with_reducible refine reach_kept ?_ (inAll (by decide) hp)

theorem execReachTimeout_kept {pts : List Part} {s0 : State} {l : Fin 320} {block : Fin 8} {s : State}
    (hk : Kept pts s0 s)
    (hp : [.freeCtr, .regs, .gen, .pf0, .pf1, .rng, .sem, .fab, .prt, .tim, .mil, .out] ⊆ pts) {res}
    (e : execReachTimeout l block s = .next res) : Kept pts s0 res := by
  unfold execReachTimeout at e; cases e
  repeat' first
    | with_reducible assumption | intro _
    | with_reducible refine reachTimeout_kept ?_ (inAll (by decide) hp)

theorem execSprayRejoin_kept {pts : List Part} {s0 : State} {l : Fin 320} {s : State} (hk : Kept pts s0 s)
    (hp : [.freeCtr, .regs, .gen, .pf0, .pf1, .rng, .sem, .fab, .prt, .tim, .mil, .out] ⊆ pts) {res}
    (e : execSprayRejoin l s = .next res) : Kept pts s0 res := by
  unfold execSprayRejoin at e; cases e
  repeat' first
    | with_reducible assumption | intro _
    | with_reducible refine sprayRejoin_kept ?_ (inAll (by decide) hp)

theorem execCellTransmit_kept {pts : List Part} {s0 : State} {l : Fin 320} {s : State} (hk : Kept pts s0 s)
    (hp : [.fab, .tim, .out] ⊆ pts) {res} (e : execCellTransmit l s = .next res) : Kept pts s0 res := by
  unfold execCellTransmit at e; cases e
  repeat' first
    | with_reducible assumption | intro _ | (guard_target =~ Kept _ _ _; extract_lets +lift)
    | with_reducible refine State.inService_kept ?_ ?_
    | with_reducible refine cellTransmit_kept ?_ (inAll (by decide) hp)

theorem execUnreachHoldExpiry_kept {pts : List Part} {s0 : State} {d : Fin 2048} {pair : Bool} {s : State}
    (hk : Kept pts s0 s) (hp : [.regs, .pf0, .pf1, .rng, .bpm, .adm, .qsc, .fab, .lin, .mil, .out] ⊆ pts) {res}
    (e : execUnreachHoldExpiry d pair s = .next res) : Kept pts s0 res := by
  unfold execUnreachHoldExpiry at e; cases e
  repeat' first
    | with_reducible assumption | intro _
    | with_reducible refine unreachHoldExpiry_kept ?_ (inAll (by decide) hp)

theorem execDataCell_kept {pts : List Part} {s0 : State} {s : State} (hk : Kept pts s0 s)
    (hp : [.regs, .pf0, .pf1, .rng, .bpm, .adm, .fab, .mil, .out] ⊆ pts) {res} (e : execDataCell s = .next res)
    : Kept pts s0 res := by
  unfold execDataCell at e; cases e
  repeat' first
    | with_reducible assumption | intro _ | (guard_target =~ Kept _ _ _; extract_lets +lift)
    | with_reducible refine State.inService_kept ?_ ?_
    | with_reducible refine dataCell_kept ?_ (inAll (by decide) hp)

theorem execReorderTimeout_kept {pts : List Part} {s0 : State} {src : Fin 2048} {s : State} (hk : Kept pts s0 s)
    (hp : [.regs, .pf0, .pf1, .rng, .bpm, .adm, .fab, .mil, .out] ⊆ pts) {res}
    (e : execReorderTimeout src s = .next res) : Kept pts s0 res := by
  unfold execReorderTimeout at e; cases e
  repeat' first
    | with_reducible assumption | intro _ | (guard_target =~ Kept _ _ _; extract_lets +lift)
    | with_reducible refine State.clocked_kept ?_ ?_
    | with_reducible refine reorderTimeout_kept ?_ (inAll (by decide) hp)

theorem execReorderIdle_kept {pts : List Part} {s0 : State} {src : Fin 2048} {s : State} (hk : Kept pts s0 s)
    (hp : [.regs, .pf0, .pf1, .rng, .bpm, .adm, .fab, .mil, .out] ⊆ pts) {res} (e : execReorderIdle src s = .next res)
    : Kept pts s0 res := by
  unfold execReorderIdle at e; cases e
  repeat' first
    | with_reducible assumption | intro _ | (guard_target =~ Kept _ _ _; extract_lets +lift)
    | with_reducible refine State.clocked_kept ?_ ?_
    | with_reducible refine reorderIdle_kept ?_ (inAll (by decide) hp)

theorem execSeqRestart_kept {pts : List Part} {s0 : State} {d : Fin 2048} {pair : Bool} {s : State}
    (hk : Kept pts s0 s) (hp : [.fab] ⊆ pts) {res} (e : execSeqRestart d pair s = .next res) : Kept pts s0 res := by
  unfold execSeqRestart at e; cases e
  repeat' first
    | with_reducible assumption | intro _ | (guard_target =~ Kept _ _ _; extract_lets +lift)
    | with_reducible refine State.clocked_kept ?_ ?_
    | with_reducible refine seqRestart_kept ?_ (inAll (by decide) hp)

theorem execHeartbeatSend_kept {pts : List Part} {s0 : State} {s : State} (hk : Kept pts s0 s)
    (hp : [.fab] ⊆ pts) {res} (e : execHeartbeatSend s = .next res) : Kept pts s0 res := by
  unfold execHeartbeatSend at e; cases e
  repeat' first
    | with_reducible assumption | intro _
    | with_reducible refine heartbeatSend_kept ?_ (inAll (by decide) hp)

theorem execHeartbeat_kept {pts : List Part} {s0 : State} {s : State} (hk : Kept pts s0 s)
    (hp : [.freeCtr, .regs, .gen, .pf0, .pf1, .rng, .sem, .fab, .prt, .tim, .mil, .out] ⊆ pts) {res}
    (e : execHeartbeat s = .next res) : Kept pts s0 res := by
  unfold execHeartbeat at e; cases e
  repeat' first
    | with_reducible assumption | intro _ | with_reducible refine heartbeat_kept ?_ (inAll (by decide) hp)

theorem execHeartbeatLost_kept {pts : List Part} {s0 : State} {src : Fin 2048} {s : State} (hk : Kept pts s0 s)
    (hp : [.freeCtr, .regs, .gen, .pf0, .pf1, .rng, .sem, .fab, .prt, .tim, .mil, .out] ⊆ pts) {res}
    (e : execHeartbeatLost src s = .next res) : Kept pts s0 res := by
  unfold execHeartbeatLost at e; cases e
  repeat' first
    | with_reducible assumption | intro _
    | with_reducible refine heartbeatLost_kept ?_ (inAll (by decide) hp)

theorem execSlotCell_kept {pts : List Part} {s0 : State} {s : State} (hk : Kept pts s0 s)
    (hp : [.regs, .pf0, .pf1, .rng, .fab, .lin, .mil, .out] ⊆ pts) {res} (e : execSlotCell s = .next res)
    : Kept pts s0 res := by
  unfold execSlotCell at e; cases e
  repeat' first
    | with_reducible assumption | intro _ | (guard_target =~ Kept _ _ _; extract_lets +lift)
    | with_reducible refine State.inService_kept ?_ ?_
    | with_reducible refine slotCell_kept ?_ (inAll (by decide) hp)

theorem execPlayoutTurn_kept {pts : List Part} {s0 : State} {src : Fin 2048} {ckt : Fin 4096} {member : Fin 256}
    {s : State} (hk : Kept pts s0 s) (hp : [.regs, .pf0, .pf1, .rng, .lin, .mil, .out] ⊆ pts) {res}
    (e : execPlayoutTurn src ckt member s = .next res) : Kept pts s0 res := by
  unfold execPlayoutTurn at e; cases e
  repeat' first
    | with_reducible assumption | intro _ | (guard_target =~ Kept _ _ _; extract_lets +lift)
    | with_reducible refine State.inService_kept ?_ ?_
    | with_reducible refine playoutTurn_kept ?_ (inAll (by decide) hp)

theorem execEgressProcess_kept {pts : List Part} {s0 : State} {pipe : Fin 64} {upset : List TableWord}
    {paths : List (List (BitVec 24))} {older : Bool} {stall : BitVec 32} {s : State} (hk : Kept pts s0 s)
    (hp : [.freeCtr, .regs, .couch, .pf0, .pf1, .rng, .ing, .tab, .asa, .cmt, .bpm, .adm, .qsc, .egr, .prt, .lin, .mil, .arrivals, .out] ⊆ pts) {res}
    (e : execEgressProcess pipe upset paths older stall s = .next res) : Kept pts s0 res := by
  unfold execEgressProcess at e; cases e
  repeat' first
    | with_reducible assumption | intro _ | (guard_target =~ Kept _ _ _; extract_lets +lift)
    | with_reducible refine State.inService_kept ?_ ?_
    | with_reducible refine State.drainAll_kept ?_ (inAll (by decide) hp)
    | with_reducible refine egressProcess_kept ?_ (inAll (by decide) hp)

theorem execPpsEdge_kept {pts : List Part} {s0 : State} {sub : Fin 64} {s : State} (hk : Kept pts s0 s)
    (hp : [.freeCtr, .regs, .pf0, .pf1, .rng, .tim, .mil, .out] ⊆ pts) {res} (e : execPpsEdge sub s = .next res)
    : Kept pts s0 res := by
  unfold execPpsEdge at e; cases e
  repeat' first
    | with_reducible assumption | intro _ | with_reducible refine ppsEdge_kept ?_ (inAll (by decide) hp)

theorem execTodMessage_kept {pts : List Part} {s0 : State} {msg : List Byte} {inWindow : Bool} {s : State}
    (hk : Kept pts s0 s) (hp : [.regs, .pf0, .pf1, .rng, .tim, .mil, .out] ⊆ pts) {res}
    (e : execTodMessage msg inWindow s = .next res) : Kept pts s0 res := by
  unfold execTodMessage at e; cases e
  repeat' first
    | with_reducible assumption | intro _
    | with_reducible refine todMessage_kept ?_ (inAll (by decide) hp)

theorem execPpsLoss_kept {pts : List Part} {s0 : State} {s : State} (hk : Kept pts s0 s)
    (hp : [.freeCtr, .regs, .pf0, .pf1, .rng, .tim, .mil, .out] ⊆ pts) {res} (e : execPpsLoss s = .next res)
    : Kept pts s0 res := by
  unfold execPpsLoss at e; cases e
  repeat' first
    | with_reducible assumption | intro _ | with_reducible refine ppsLoss_kept ?_ (inAll (by decide) hp)

theorem execPpsOut_kept {pts : List Part} {s0 : State} {s : State} (hk : Kept pts s0 s) (hp : [.out] ⊆ pts) {res}
    (e : execPpsOut s = .next res) : Kept pts s0 res := by
  unfold execPpsOut at e; cases e
  repeat' first
    | with_reducible assumption | intro _ | with_reducible refine ppsOut_kept ?_ (inAll (by decide) hp)

theorem execTodSend_kept {pts : List Part} {s0 : State} {s : State} (hk : Kept pts s0 s) (hp : [.out] ⊆ pts) {res}
    (e : execTodSend s = .next res) : Kept pts s0 res := by
  unfold execTodSend at e; cases e
  repeat' first
    | with_reducible assumption | intro _ | with_reducible refine todSend_kept ?_ (inAll (by decide) hp)

theorem execServoMeasurement_kept {pts : List Part} {s0 : State} {s : State} (hk : Kept pts s0 s)
    (hp : [.freeCtr, .regs, .pf0, .pf1, .rng, .gates, .pmn, .tim, .mil, .out] ⊆ pts) {res}
    (e : execServoMeasurement s = .next res) : Kept pts s0 res := by
  unfold execServoMeasurement at e; cases e
  repeat' first
    | with_reducible assumption | intro _
    | with_reducible refine servoMeasurement_kept ?_ (inAll (by decide) hp)

theorem execTimeDreqSend_kept {pts : List Part} {s0 : State} {s : State} (hk : Kept pts s0 s)
    (hp : [.fab, .tim] ⊆ pts) {res} (e : execTimeDreqSend s = .next res) : Kept pts s0 res := by
  unfold execTimeDreqSend at e; cases e
  repeat' first
    | with_reducible assumption | intro _
    | with_reducible refine timeDreqSend_kept ?_ (inAll (by decide) hp)

theorem execTimeDreq_kept {pts : List Part} {s0 : State} {s : State} (hk : Kept pts s0 s)
    (hp : [.regs, .fab] ⊆ pts) {res} (e : execTimeDreq s = .next res) : Kept pts s0 res := by
  unfold execTimeDreq at e; cases e
  repeat' first
    | with_reducible assumption | intro _ | with_reducible refine timeDreq_kept ?_ (inAll (by decide) hp)

theorem execTimeDresp_kept {pts : List Part} {s0 : State} {s : State} (hk : Kept pts s0 s)
    (hp : [.fab, .tim] ⊆ pts) {res} (e : execTimeDresp s = .next res) : Kept pts s0 res := by
  unfold execTimeDresp at e; cases e
  repeat' first
    | with_reducible assumption | intro _ | with_reducible refine timeDresp_kept ?_ (inAll (by decide) hp)

theorem execTimeSync_kept {pts : List Part} {s0 : State} {s : State} (hk : Kept pts s0 s)
    (hp : [.freeCtr, .regs, .pf0, .pf1, .rng, .fab, .tim, .mil, .out] ⊆ pts) {res} (e : execTimeSync s = .next res)
    : Kept pts s0 res := by
  unfold execTimeSync at e; cases e
  repeat' first
    | with_reducible assumption | intro _ | with_reducible refine timeSync_kept ?_ (inAll (by decide) hp)

theorem execTimeExchangeTimeout_kept {pts : List Part} {s0 : State} {s : State} (hk : Kept pts s0 s)
    (hp : [.freeCtr, .regs, .pf0, .pf1, .rng, .tim, .mil, .out] ⊆ pts) {res}
    (e : execTimeExchangeTimeout s = .next res) : Kept pts s0 res := by
  unfold execTimeExchangeTimeout at e; cases e
  repeat' first
    | with_reducible assumption | intro _
    | with_reducible refine timeExchangeTimeout_kept ?_ (inAll (by decide) hp)

theorem execTimAdjSlew_kept {pts : List Part} {s0 : State} {req : Req} {v : W64} {s : State} (hk : Kept pts s0 s)
    (hp : [.freeCtr, .regs, .shadow, .acc, .gen, .couch, .pf0, .pf1, .pce, .rng, .hostQ, .mbx, .sem, .ing, .tab, .asa, .cmt, .replQ, .bpm, .adm, .ddc, .qsc, .crd, .gates, .fab, .egr, .prt, .lin, .pmn, .tim, .mil, .arrivals, .out] ⊆ pts) {res}
    (e : execTimAdjSlew req v s = .next res) : Kept pts s0 res := by
  unfold execTimAdjSlew at e; cases e
  repeat' first
    | with_reducible assumption | intro _ | (guard_target =~ Kept _ _ _; extract_lets +lift)
    | with_reducible refine State.own_kept ?_ (inAll (by decide) hp) ?_
    | with_reducible refine timAdjSlew_kept ?_ (inAll (by decide) hp)

theorem execTimAdjStep_kept {pts : List Part} {s0 : State} {req : Req} {v : W64} {s : State} (hk : Kept pts s0 s)
    (hp : [.freeCtr, .regs, .shadow, .acc, .gen, .couch, .pf0, .pf1, .pce, .rng, .hostQ, .mbx, .sem, .ing, .tab, .asa, .cmt, .replQ, .bpm, .adm, .ddc, .qsc, .crd, .gates, .fab, .egr, .prt, .lin, .pmn, .tim, .mil, .arrivals, .out] ⊆ pts) {res}
    (e : execTimAdjStep req v s = .next res) : Kept pts s0 res := by
  unfold execTimAdjStep at e; cases e
  repeat' first
    | with_reducible assumption | intro _ | (guard_target =~ Kept _ _ _; extract_lets +lift)
    | with_reducible refine State.own_kept ?_ (inAll (by decide) hp) ?_
    | with_reducible refine timAdjStep_kept ?_ (inAll (by decide) hp)

theorem execTimAdjLoad_kept {pts : List Part} {s0 : State} {req : Req} {v : W64} {s : State} (hk : Kept pts s0 s)
    (hp : [.freeCtr, .regs, .shadow, .acc, .gen, .couch, .pf0, .pf1, .pce, .rng, .hostQ, .mbx, .sem, .ing, .tab, .asa, .cmt, .replQ, .bpm, .adm, .ddc, .qsc, .crd, .gates, .fab, .egr, .prt, .lin, .pmn, .tim, .mil, .arrivals, .out] ⊆ pts) {res}
    (e : execTimAdjLoad req v s = .next res) : Kept pts s0 res := by
  unfold execTimAdjLoad at e; cases e
  repeat' first
    | with_reducible assumption | intro _ | (guard_target =~ Kept _ _ _; extract_lets +lift)
    | with_reducible refine State.own_kept ?_ (inAll (by decide) hp) ?_
    | with_reducible refine timAdjLoad_kept ?_ (inAll (by decide) hp)

theorem execTimeCaptureRead_kept {pts : List Part} {s0 : State} {req : Req} {s : State} (hk : Kept pts s0 s)
    (hp : [.freeCtr, .regs, .shadow, .acc, .gen, .couch, .pf0, .pf1, .pce, .rng, .hostQ, .mbx, .sem, .ing, .tab, .asa, .cmt, .replQ, .bpm, .adm, .ddc, .qsc, .crd, .gates, .fab, .egr, .prt, .lin, .pmn, .tim, .mil, .arrivals, .out] ⊆ pts) {res}
    (e : execTimeCaptureRead req s = .next res) : Kept pts s0 res := by
  unfold execTimeCaptureRead at e; cases e
  repeat' first
    | with_reducible assumption | intro _
    | with_reducible refine timeCaptureRead_kept ?_ (inAll (by decide) hp)

theorem execRef10mChange_kept {pts : List Part} {s0 : State} {s : State} (hk : Kept pts s0 s)
    (hp : [.tim] ⊆ pts) {res} (e : execRef10mChange s = .next res) : Kept pts s0 res := by
  unfold execRef10mChange at e; cases e
  repeat' first
    | with_reducible assumption | intro _
    | with_reducible refine ref10mChange_kept ?_ (inAll (by decide) hp)

theorem execFeltHeartbeatSend_kept {pts : List Part} {s0 : State} {s : State} (hk : Kept pts s0 s)
    (hp : [.prt, .out] ⊆ pts) {res} (e : execFeltHeartbeatSend s = .next res) : Kept pts s0 res := by
  unfold execFeltHeartbeatSend at e; cases e
  repeat' first
    | with_reducible assumption | intro _
    | with_reducible refine feltHeartbeatSend_kept ?_ (inAll (by decide) hp)

theorem execFeltHeartbeat_kept {pts : List Part} {s0 : State} {lane : Fin 4} {msg : List Byte} {s : State}
    (hk : Kept pts s0 s)
    (hp : [.freeCtr, .regs, .gen, .pf0, .pf1, .rng, .sem, .fab, .prt, .tim, .mil, .out] ⊆ pts) {res}
    (e : execFeltHeartbeat lane msg s = .next res) : Kept pts s0 res := by
  unfold execFeltHeartbeat at e; cases e
  repeat' first
    | with_reducible assumption | intro _
    | with_reducible refine feltHeartbeat_kept ?_ (inAll (by decide) hp)

theorem execFeltPathLost_kept {pts : List Part} {s0 : State} {s : State} (hk : Kept pts s0 s)
    (hp : [.freeCtr, .regs, .gen, .pf0, .pf1, .rng, .sem, .fab, .prt, .tim, .mil, .out] ⊆ pts) {res}
    (e : execFeltPathLost s = .next res) : Kept pts s0 res := by
  unfold execFeltPathLost at e; cases e
  repeat' first
    | with_reducible assumption | intro _
    | with_reducible refine feltPathLost_kept ?_ (inAll (by decide) hp)

theorem execFastHeartbeatSend_kept {pts : List Part} {s0 : State} {s : State} (hk : Kept pts s0 s)
    (hp : [.fab] ⊆ pts) {res} (e : execFastHeartbeatSend s = .next res) : Kept pts s0 res := by
  unfold execFastHeartbeatSend at e; cases e
  repeat' first
    | with_reducible assumption | intro _
    | with_reducible refine fastHeartbeatSend_kept ?_ (inAll (by decide) hp)

theorem execAliveFault_kept {pts : List Part} {s0 : State} {s : State} (hk : Kept pts s0 s)
    (hp : [.freeCtr, .regs, .gen, .pf0, .pf1, .rng, .sem, .fab, .prt, .tim, .mil, .out] ⊆ pts) {res}
    (e : execAliveFault s = .next res) : Kept pts s0 res := by
  unfold execAliveFault at e; cases e
  repeat' first
    | with_reducible assumption | intro _
    | with_reducible refine aliveFault_kept ?_ (inAll (by decide) hp)

theorem execGroupRoleInit_kept {pts : List Part} {s0 : State} {s : State} (hk : Kept pts s0 s)
    (hp : [.freeCtr, .regs, .gen, .pf0, .pf1, .rng, .sem, .fab, .prt, .tim, .mil, .out] ⊆ pts) {res}
    (e : execGroupRoleInit s = .next res) : Kept pts s0 res := by
  unfold execGroupRoleInit at e; cases e
  repeat' first
    | with_reducible assumption | intro _
    | with_reducible refine groupRoleInit_kept ?_ (inAll (by decide) hp)

theorem execProtGroupEnable_kept {pts : List Part} {s0 : State} {req : Req} {g : Fin 32} {v : W64} {s : State}
    (hk : Kept pts s0 s)
    (hp : [.freeCtr, .regs, .shadow, .acc, .gen, .couch, .pf0, .pf1, .pce, .rng, .hostQ, .mbx, .sem, .ing, .tab, .asa, .cmt, .replQ, .bpm, .adm, .ddc, .qsc, .crd, .gates, .fab, .egr, .prt, .lin, .pmn, .tim, .mil, .arrivals, .out] ⊆ pts) {res}
    (e : execProtGroupEnable req g v s = .next res) : Kept pts s0 res := by
  unfold execProtGroupEnable at e; cases e
  repeat' first
    | with_reducible assumption | intro _ | (guard_target =~ Kept _ _ _; extract_lets +lift)
    | with_reducible refine State.own_kept ?_ (inAll (by decide) hp) ?_
    | with_reducible refine protGroupEnable_kept ?_ (inAll (by decide) hp)

theorem execRoleRelease_kept {pts : List Part} {s0 : State} {lane : Fin 4} {msg : List Byte} {s : State}
    (hk : Kept pts s0 s) (hp : [.regs, .prt, .out] ⊆ pts) {res} (e : execRoleRelease lane msg s = .next res)
    : Kept pts s0 res := by
  unfold execRoleRelease at e; cases e
  repeat' first
    | with_reducible assumption | intro _
    | with_reducible refine roleRelease_kept ?_ (inAll (by decide) hp)

theorem execRoleAck_kept {pts : List Part} {s0 : State} {lane : Fin 4} {msg : List Byte} {s : State}
    (hk : Kept pts s0 s) (hp : [.regs, .prt] ⊆ pts) {res} (e : execRoleAck lane msg s = .next res)
    : Kept pts s0 res := by
  unfold execRoleAck at e; cases e
  repeat' first
    | with_reducible assumption | intro _ | with_reducible refine roleAck_kept ?_ (inAll (by decide) hp)

theorem execRoleDrained_kept {pts : List Part} {s0 : State} {lane : Fin 4} {msg : List Byte} {s : State}
    (hk : Kept pts s0 s)
    (hp : [.freeCtr, .regs, .gen, .pf0, .pf1, .rng, .sem, .fab, .prt, .tim, .mil, .out] ⊆ pts) {res}
    (e : execRoleDrained lane msg s = .next res) : Kept pts s0 res := by
  unfold execRoleDrained at e; cases e
  repeat' first
    | with_reducible assumption | intro _
    | with_reducible refine roleDrained_kept ?_ (inAll (by decide) hp)

theorem execRoleAbort_kept {pts : List Part} {s0 : State} {lane : Fin 4} {msg : List Byte} {s : State}
    (hk : Kept pts s0 s)
    (hp : [.freeCtr, .regs, .gen, .pf0, .pf1, .rng, .sem, .fab, .prt, .tim, .mil, .out] ⊆ pts) {res}
    (e : execRoleAbort lane msg s = .next res) : Kept pts s0 res := by
  unfold execRoleAbort at e; cases e
  repeat' first
    | with_reducible assumption | intro _ | with_reducible refine roleAbort_kept ?_ (inAll (by decide) hp)

theorem execSwitchAckTimeout_kept {pts : List Part} {s0 : State} {g : Fin 32} {s : State} (hk : Kept pts s0 s)
    (hp : [.freeCtr, .regs, .gen, .pf0, .pf1, .rng, .sem, .fab, .prt, .tim, .mil, .out] ⊆ pts) {res}
    (e : execSwitchAckTimeout g s = .next res) : Kept pts s0 res := by
  unfold execSwitchAckTimeout at e; cases e
  repeat' first
    | with_reducible assumption | intro _
    | with_reducible refine switchAckTimeout_kept ?_ (inAll (by decide) hp)

theorem execSwitchInstant_kept {pts : List Part} {s0 : State} {g : Fin 32} {s : State} (hk : Kept pts s0 s)
    (hp : [.freeCtr, .regs, .gen, .pf0, .pf1, .rng, .sem, .bpm, .adm, .qsc, .fab, .prt, .lin, .tim, .mil, .out] ⊆ pts) {res}
    (e : execSwitchInstant g s = .next res) : Kept pts s0 res := by
  unfold execSwitchInstant at e; cases e
  repeat' first
    | with_reducible assumption | intro _
    | with_reducible refine switchInstant_kept ?_ (inAll (by decide) hp)

theorem execDrainMaxExpiry_kept {pts : List Part} {s0 : State} {g : Fin 32} {s : State} (hk : Kept pts s0 s)
    (hp : [.freeCtr, .regs, .gen, .pf0, .pf1, .rng, .sem, .bpm, .adm, .qsc, .fab, .prt, .lin, .tim, .mil, .out] ⊆ pts) {res}
    (e : execDrainMaxExpiry g s = .next res) : Kept pts s0 res := by
  unfold execDrainMaxExpiry at e; cases e
  repeat' first
    | with_reducible assumption | intro _
    | with_reducible refine drainMaxExpiry_kept ?_ (inAll (by decide) hp)

theorem execIngressGapExpiry_kept {pts : List Part} {s0 : State} {g : Fin 32} {s : State} (hk : Kept pts s0 s)
    (hp : [.prt] ⊆ pts) {res} (e : execIngressGapExpiry g s = .next res) : Kept pts s0 res := by
  unfold execIngressGapExpiry at e; cases e
  repeat' first
    | with_reducible assumption | intro _
    | with_reducible refine ingressGapExpiry_kept ?_ (inAll (by decide) hp)

theorem execWtrExpiry_kept {pts : List Part} {s0 : State} {g : Fin 32} {s : State} (hk : Kept pts s0 s)
    (hp : [.regs, .pf0, .pf1, .rng, .prt, .mil, .out] ⊆ pts) {res} (e : execWtrExpiry g s = .next res)
    : Kept pts s0 res := by
  unfold execWtrExpiry at e; cases e
  repeat' first
    | with_reducible assumption | intro _ | with_reducible refine wtrExpiry_kept ?_ (inAll (by decide) hp)

theorem execBoundary_kept {pts : List Part} {s0 : State} {slice : Fin 16} {msg : Option (List Byte)} {s : State}
    (hk : Kept pts s0 s) (hp : [.regs, .pf0, .pf1, .rng, .prt, .lin, .mil, .out] ⊆ pts) {res}
    (e : execBoundary slice msg s = .next res) : Kept pts s0 res := by
  unfold execBoundary at e; cases e
  repeat' first
    | with_reducible assumption | intro _ | with_reducible refine boundary_kept ?_ (inAll (by decide) hp)

theorem execDigest_kept {pts : List Part} {s0 : State} {lane : Fin 4} {msg : List Byte} {s : State}
    (hk : Kept pts s0 s) (hp : [.regs, .pf0, .pf1, .rng, .prt, .mil, .out] ⊆ pts) {res}
    (e : execDigest lane msg s = .next res) : Kept pts s0 res := by
  unfold execDigest at e; cases e
  repeat' first
    | with_reducible assumption | intro _ | with_reducible refine digest_kept ?_ (inAll (by decide) hp)

theorem execTestRequest_kept {pts : List Part} {s0 : State} {lane : Fin 4} {msg : List Byte} {s : State}
    (hk : Kept pts s0 s) (hp : [.regs, .prt] ⊆ pts) {res} (e : execTestRequest lane msg s = .next res)
    : Kept pts s0 res := by
  unfold execTestRequest at e; cases e
  repeat' first
    | with_reducible assumption | intro _
    | with_reducible refine testRequest_kept ?_ (inAll (by decide) hp)

theorem execSliceSelftest_kept {pts : List Part} {s0 : State} {slice : Fin 16} {pass : Bool} {s : State}
    (hk : Kept pts s0 s)
    (hp : [.freeCtr, .regs, .gen, .pf0, .pf1, .rng, .sem, .fab, .prt, .tim, .mil, .out] ⊆ pts) {res}
    (e : execSliceSelftest slice pass s = .next res) : Kept pts s0 res := by
  unfold execSliceSelftest at e; cases e
  repeat' first
    | with_reducible assumption | intro _
    | with_reducible refine sliceSelftest_kept ?_ (inAll (by decide) hp)

theorem execTestResult_kept {pts : List Part} {s0 : State} {lane : Fin 4} {msg : List Byte} {s : State}
    (hk : Kept pts s0 s)
    (hp : [.freeCtr, .regs, .gen, .pf0, .pf1, .rng, .sem, .fab, .prt, .tim, .mil, .out] ⊆ pts) {res}
    (e : execTestResult lane msg s = .next res) : Kept pts s0 res := by
  unfold execTestResult at e; cases e
  repeat' first
    | with_reducible assumption | intro _
    | with_reducible refine testResult_kept ?_ (inAll (by decide) hp)

theorem execTestResultTimeout_kept {pts : List Part} {s0 : State} {slice : Fin 16} {s : State} (hk : Kept pts s0 s)
    (hp : [.regs, .pf0, .pf1, .rng, .prt, .mil, .out] ⊆ pts) {res} (e : execTestResultTimeout slice s = .next res)
    : Kept pts s0 res := by
  unfold execTestResultTimeout at e; cases e
  repeat' first
    | with_reducible assumption | intro _
    | with_reducible refine testResultTimeout_kept ?_ (inAll (by decide) hp)

theorem execFeltHealth_kept {pts : List Part} {s0 : State} {lane : Fin 4} {msg : List Byte} {s : State}
    (hk : Kept pts s0 s) (hp : [.regs, .pf0, .pf1, .rng, .mil, .out] ⊆ pts) {res}
    (e : execFeltHealth lane msg s = .next res) : Kept pts s0 res := by
  unfold execFeltHealth at e; cases e
  repeat' first
    | with_reducible assumption | intro _
    | with_reducible refine feltHealth_kept ?_ (inAll (by decide) hp)

theorem execHealthSend_kept {pts : List Part} {s0 : State} {s : State} (hk : Kept pts s0 s)
    (hp : [.prt, .out] ⊆ pts) {res} (e : execHealthSend s = .next res) : Kept pts s0 res := by
  unfold execHealthSend at e; cases e
  repeat' first
    | with_reducible assumption | intro _
    | with_reducible refine healthSend_kept ?_ (inAll (by decide) hp)

theorem execFeltLockRead_kept {pts : List Part} {s0 : State} {lane : Fin 4} {msg : List Byte} {s : State}
    (hk : Kept pts s0 s) (hp : [.regs, .sem, .prt, .out] ⊆ pts) {res} (e : execFeltLockRead lane msg s = .next res)
    : Kept pts s0 res := by
  unfold execFeltLockRead at e; cases e
  repeat' first
    | with_reducible assumption | intro _
    | with_reducible refine feltLockRead_kept ?_ (inAll (by decide) hp)

theorem execFeltLockRelease_kept {pts : List Part} {s0 : State} {lane : Fin 4} {msg : List Byte} {s : State}
    (hk : Kept pts s0 s) (hp : [.regs, .sem] ⊆ pts) {res} (e : execFeltLockRelease lane msg s = .next res)
    : Kept pts s0 res := by
  unfold execFeltLockRelease at e; cases e
  repeat' first
    | with_reducible assumption | intro _
    | with_reducible refine feltLockRelease_kept ?_ (inAll (by decide) hp)

theorem execFeltLockResult_kept {pts : List Part} {s0 : State} {lane : Fin 4} {msg : List Byte} {s : State}
    (hk : Kept pts s0 s) (hp : [.regs, .out] ⊆ pts) {res} (e : execFeltLockResult lane msg s = .next res)
    : Kept pts s0 res := by
  unfold execFeltLockResult at e; cases e
  repeat' first
    | with_reducible assumption | intro _
    | with_reducible refine feltLockResult_kept ?_ (inAll (by decide) hp)

theorem execBackgroundTest_kept {pts : List Part} {s0 : State} {sched : Bool} {buf : Bool} {spare : Bool} {asa : Bool}
    {s : State} (hk : Kept pts s0 s) (hp : [.regs, .pf0, .pf1, .rng, .mil, .out] ⊆ pts) {res}
    (e : execBackgroundTest sched buf spare asa s = .next res) : Kept pts s0 res := by
  unfold execBackgroundTest at e; cases e
  repeat' first
    | with_reducible assumption | intro _
    | with_reducible refine backgroundTest_kept ?_ (inAll (by decide) hp)

theorem execRecoveryDone_kept {pts : List Part} {s0 : State} {req : Req} {v : W64} {s : State} (hk : Kept pts s0 s)
    (hp : [.freeCtr, .regs, .shadow, .acc, .gen, .couch, .pf0, .pf1, .pce, .rng, .hostQ, .mbx, .sem, .ing, .tab, .asa, .cmt, .replQ, .bpm, .adm, .ddc, .qsc, .crd, .gates, .fab, .egr, .prt, .lin, .pmn, .tim, .mil, .arrivals, .out] ⊆ pts) {res}
    (e : execRecoveryDone req v s = .next res) : Kept pts s0 res := by
  unfold execRecoveryDone at e; cases e
  repeat' first
    | with_reducible assumption | intro _ | (guard_target =~ Kept _ _ _; extract_lets +lift)
    | with_reducible refine State.own_kept ?_ (inAll (by decide) hp) ?_
    | with_reducible refine recoveryDone_kept ?_ (inAll (by decide) hp)

theorem execLockstepMismatch_kept {pts : List Part} {s0 : State} {pc0 : W64} {pc1 : W64} {s : State}
    (hk : Kept pts s0 s) (hp : [.regs, .shadow, .acc, .gen, .pf0, .pf1, .rng, .mbx, .sem, .mil, .out] ⊆ pts) {res}
    (e : execLockstepMismatch pc0 pc1 s = .next res) : Kept pts s0 res := by
  unfold execLockstepMismatch at e; cases e
  repeat' first
    | with_reducible assumption | intro _
    | with_reducible refine lockstepMismatch_kept ?_ (inAll (by decide) hp)

theorem execSramUncorrectable_kept {pts : List Part} {s0 : State} {addr : W64} {s : State} (hk : Kept pts s0 s)
    (hp : [.regs, .shadow, .acc, .gen, .pf0, .pf1, .rng, .mbx, .sem, .mil, .out] ⊆ pts) {res}
    (e : execSramUncorrectable addr s = .next res) : Kept pts s0 res := by
  unfold execSramUncorrectable at e; cases e
  repeat' first
    | with_reducible assumption | intro _
    | with_reducible refine sramUncorrectable_kept ?_ (inAll (by decide) hp)

theorem execMillWatchdog_kept {pts : List Part} {s0 : State} {pc0 : W64} {pc1 : W64} {s : State} (hk : Kept pts s0 s)
    (hp : [.regs, .shadow, .acc, .gen, .pf0, .pf1, .rng, .mbx, .sem, .mil, .out] ⊆ pts) {res}
    (e : execMillWatchdog pc0 pc1 s = .next res) : Kept pts s0 res := by
  unfold execMillWatchdog at e; cases e
  repeat' first
    | with_reducible assumption | intro _
    | with_reducible refine millWatchdog_kept ?_ (inAll (by decide) hp)

theorem execMillRestartDone_kept {pts : List Part} {s0 : State} {s : State} (hk : Kept pts s0 s)
    (hp : [.regs, .gen, .pf0, .pf1, .rng, .mil, .out] ⊆ pts) {res} (e : execMillRestartDone s = .next res)
    : Kept pts s0 res := by
  unfold execMillRestartDone at e; cases e
  repeat' first
    | with_reducible assumption | intro _
    | with_reducible refine millRestartDone_kept ?_ (inAll (by decide) hp)

theorem execSensorSample_kept {pts : List Part} {s0 : State} {readings : List Reading} {s : State}
    (hk : Kept pts s0 s) (hp : [.regs, .pf0, .pf1, .rng, .mil, .out] ⊆ pts) {res}
    (e : execSensorSample readings s = .next res) : Kept pts s0 res := by
  unfold execSensorSample at e; cases e
  repeat' first
    | with_reducible assumption | intro _
    | with_reducible refine sensorSample_kept ?_ (inAll (by decide) hp)

theorem execLogFlashWrite_kept {pts : List Part} {s0 : State} {s : State} (hk : Kept pts s0 s)
    (hp : [.regs, .pf0, .pf1, .rng, .mil, .out] ⊆ pts) {res} (e : execLogFlashWrite s = .next res)
    : Kept pts s0 res := by
  unfold execLogFlashWrite at e; cases e
  repeat' first
    | with_reducible assumption | intro _
    | with_reducible refine logFlashWrite_kept ?_ (inAll (by decide) hp)

theorem execIdentity_kept {pts : List Part} {s0 : State} {src : MillSrc} {s : State} (hk : Kept pts s0 s)
    (hp : [.mbx] ⊆ pts) {res} (e : execIdentity src s = .next res) : Kept pts s0 res := by
  unfold execIdentity at e; cases e
  repeat' first
    | with_reducible assumption | intro _ | with_reducible refine identity_kept ?_ (inAll (by decide) hp)

theorem execSensors_kept {pts : List Part} {s0 : State} {src : MillSrc} {s : State} (hk : Kept pts s0 s)
    (hp : [.mbx] ⊆ pts) {res} (e : execSensors src s = .next res) : Kept pts s0 res := by
  unfold execSensors at e; cases e
  repeat' first
    | with_reducible assumption | intro _ | with_reducible refine sensors_kept ?_ (inAll (by decide) hp)

theorem execAlertRead_kept {pts : List Part} {s0 : State} {src : MillSrc} {s : State} (hk : Kept pts s0 s)
    (hp : [.mbx] ⊆ pts) {res} (e : execAlertRead src s = .next res) : Kept pts s0 res := by
  unfold execAlertRead at e; cases e
  repeat' first
    | with_reducible assumption | intro _ | with_reducible refine alertRead_kept ?_ (inAll (by decide) hp)

theorem execAlertWrite_kept {pts : List Part} {s0 : State} {src : MillSrc} {s : State} (hk : Kept pts s0 s)
    (hp : [.mbx, .mil, .out] ⊆ pts) {res} (e : execAlertWrite src s = .next res) : Kept pts s0 res := by
  unfold execAlertWrite at e; cases e
  repeat' first
    | with_reducible assumption | intro _
    | with_reducible refine alertWrite_kept ?_ (inAll (by decide) hp)

theorem execAlertAck_kept {pts : List Part} {s0 : State} {src : MillSrc} {s : State} (hk : Kept pts s0 s)
    (hp : [.mbx, .mil, .out] ⊆ pts) {res} (e : execAlertAck src s = .next res) : Kept pts s0 res := by
  unfold execAlertAck at e; cases e
  repeat' first
    | with_reducible assumption | intro _ | with_reducible refine alertAck_kept ?_ (inAll (by decide) hp)

theorem execSmbusAra_kept {pts : List Part} {s0 : State} {s : State} (hk : Kept pts s0 s)
    (hp : [.mil, .out] ⊆ pts) {res} (e : execSmbusAra s = .next res) : Kept pts s0 res := by
  unfold execSmbusAra at e; cases e
  repeat' first
    | with_reducible assumption | intro _ | with_reducible refine smbusAra_kept ?_ (inAll (by decide) hp)

theorem execLogRead_kept {pts : List Part} {s0 : State} {src : MillSrc} {s : State} (hk : Kept pts s0 s)
    (hp : [.mbx] ⊆ pts) {res} (e : execLogRead src s = .next res) : Kept pts s0 res := by
  unfold execLogRead at e; cases e
  repeat' first
    | with_reducible assumption | intro _ | with_reducible refine logRead_kept ?_ (inAll (by decide) hp)

theorem execHealth_kept {pts : List Part} {s0 : State} {src : MillSrc} {s : State} (hk : Kept pts s0 s)
    (hp : [.regs, .pf0, .pf1, .rng, .mbx, .mil, .out] ⊆ pts) {res} (e : execHealth src s = .next res)
    : Kept pts s0 res := by
  unfold execHealth at e; cases e
  repeat' first
    | with_reducible assumption | intro _ | with_reducible refine health_kept ?_ (inAll (by decide) hp)

theorem execSelftest_kept {pts : List Part} {s0 : State} {src : MillSrc} {failed : BitVec 16} {s : State}
    (hk : Kept pts s0 s) (hp : [.regs, .pf0, .pf1, .rng, .mbx, .mil, .out] ⊆ pts) {res}
    (e : execSelftest src failed s = .next res) : Kept pts s0 res := by
  unfold execSelftest at e; cases e
  repeat' first
    | with_reducible assumption | intro _ | with_reducible refine selftest_kept ?_ (inAll (by decide) hp)

theorem execPhase_kept {pts : List Part} {s0 : State} {src : MillSrc} {s : State} (hk : Kept pts s0 s)
    (hp : [.freeCtr, .regs, .shadow, .acc, .gen, .couch, .pf0, .pf1, .pce, .rng, .hostQ, .mbx, .sem, .ing, .tab, .asa, .cmt, .replQ, .bpm, .adm, .ddc, .qsc, .crd, .gates, .fab, .egr, .prt, .lin, .pmn, .tim, .mil, .arrivals, .out] ⊆ pts) {res}
    (e : execPhase src s = .next res) : Kept pts s0 res := by
  unfold execPhase at e; cases e
  repeat' first
    | with_reducible assumption | intro _ | with_reducible refine phase_kept ?_ (inAll (by decide) hp)

theorem execDomain_kept {pts : List Part} {s0 : State} {src : MillSrc} {s : State} (hk : Kept pts s0 s)
    (hp : [.freeCtr, .regs, .shadow, .acc, .gen, .couch, .pf0, .pf1, .pce, .rng, .hostQ, .mbx, .sem, .ing, .tab, .asa, .cmt, .replQ, .bpm, .adm, .ddc, .qsc, .crd, .gates, .fab, .egr, .prt, .lin, .pmn, .tim, .mil, .arrivals, .out] ⊆ pts) {res}
    (e : execDomain src s = .next res) : Kept pts s0 res := by
  unfold execDomain at e; cases e
  repeat' first
    | with_reducible assumption | intro _ | with_reducible refine domain_kept ?_ (inAll (by decide) hp)

theorem execReset_kept {pts : List Part} {s0 : State} {src : MillSrc} {s : State} (hk : Kept pts s0 s)
    (hp : [.freeCtr, .regs, .shadow, .acc, .gen, .couch, .pf0, .pf1, .pce, .rng, .hostQ, .mbx, .sem, .ing, .tab, .asa, .cmt, .replQ, .bpm, .adm, .ddc, .qsc, .crd, .gates, .fab, .egr, .prt, .lin, .pmn, .tim, .mil, .arrivals, .out] ⊆ pts) {res}
    (e : execReset src s = .next res) : Kept pts s0 res := by
  unfold execReset at e; cases e
  repeat' first
    | with_reducible assumption | intro _
    | with_reducible refine Laws.reset_kept ?_ (inAll (by decide) hp)

theorem execSpareStart_kept {pts : List Part} {s0 : State} {src : MillSrc} {s : State} (hk : Kept pts s0 s)
    (hp : [.regs, .acc, .pf0, .pf1, .rng, .mbx, .ddc, .mil, .out] ⊆ pts) {res} (e : execSpareStart src s = .next res)
    : Kept pts s0 res := by
  unfold execSpareStart at e; cases e
  repeat' first
    | with_reducible assumption | intro _
    | with_reducible refine Laws.spareStart_kept ?_ (inAll (by decide) hp)

theorem execSpareAuto_kept {pts : List Part} {s0 : State} {src : MillSrc} {s : State} (hk : Kept pts s0 s)
    (hp : [.mbx, .mil] ⊆ pts) {res} (e : execSpareAuto src s = .next res) : Kept pts s0 res := by
  unfold execSpareAuto at e; cases e
  repeat' first
    | with_reducible assumption | intro _ | with_reducible refine spareAuto_kept ?_ (inAll (by decide) hp)

theorem execPartitionRead_kept {pts : List Part} {s0 : State} {src : MillSrc} {s : State} (hk : Kept pts s0 s)
    (hp : [.mbx] ⊆ pts) {res} (e : execPartitionRead src s = .next res) : Kept pts s0 res := by
  unfold execPartitionRead at e; cases e
  repeat' first
    | with_reducible assumption | intro _
    | with_reducible refine partitionRead_kept ?_ (inAll (by decide) hp)

theorem execPartitionWrite_kept {pts : List Part} {s0 : State} {src : MillSrc} {s : State} (hk : Kept pts s0 s)
    (hp : [.mbx, .mil] ⊆ pts) {res} (e : execPartitionWrite src s = .next res) : Kept pts s0 res := by
  unfold execPartitionWrite at e; cases e
  repeat' first
    | with_reducible assumption | intro _
    | with_reducible refine partitionWrite_kept ?_ (inAll (by decide) hp)

theorem execTagRead_kept {pts : List Part} {s0 : State} {src : MillSrc} {s : State} (hk : Kept pts s0 s)
    (hp : [.mbx] ⊆ pts) {res} (e : execTagRead src s = .next res) : Kept pts s0 res := by
  unfold execTagRead at e; cases e
  repeat' first
    | with_reducible assumption | intro _ | with_reducible refine tagRead_kept ?_ (inAll (by decide) hp)

theorem execTagWrite_kept {pts : List Part} {s0 : State} {src : MillSrc} {s : State} (hk : Kept pts s0 s)
    (hp : [.regs, .pf0, .pf1, .rng, .mbx, .mil, .out] ⊆ pts) {res} (e : execTagWrite src s = .next res)
    : Kept pts s0 res := by
  unfold execTagWrite at e; cases e
  repeat' first
    | with_reducible assumption | intro _ | with_reducible refine tagWrite_kept ?_ (inAll (by decide) hp)

theorem execTagWpRead_kept {pts : List Part} {s0 : State} {src : MillSrc} {s : State} (hk : Kept pts s0 s)
    (hp : [.mbx] ⊆ pts) {res} (e : execTagWpRead src s = .next res) : Kept pts s0 res := by
  unfold execTagWpRead at e; cases e
  repeat' first
    | with_reducible assumption | intro _ | with_reducible refine tagWpRead_kept ?_ (inAll (by decide) hp)

theorem execTagWpSet_kept {pts : List Part} {s0 : State} {src : MillSrc} {s : State} (hk : Kept pts s0 s)
    (hp : [.mbx, .mil] ⊆ pts) {res} (e : execTagWpSet src s = .next res) : Kept pts s0 res := by
  unfold execTagWpSet at e; cases e
  repeat' first
    | with_reducible assumption | intro _ | with_reducible refine tagWpSet_kept ?_ (inAll (by decide) hp)

theorem execTagWpClear_kept {pts : List Part} {s0 : State} {src : MillSrc} {s : State} (hk : Kept pts s0 s)
    (hp : [.mbx, .mil] ⊆ pts) {res} (e : execTagWpClear src s = .next res) : Kept pts s0 res := by
  unfold execTagWpClear at e; cases e
  repeat' first
    | with_reducible assumption | intro _
    | with_reducible refine tagWpClear_kept ?_ (inAll (by decide) hp)

theorem execGetFile_kept {pts : List Part} {s0 : State} {src : MillSrc} {file : Option (List Byte)} {s : State}
    (hk : Kept pts s0 s) (hp : [.mbx] ⊆ pts) {res} (e : execGetFile src file s = .next res) : Kept pts s0 res := by
  unfold execGetFile at e; cases e
  repeat' first
    | with_reducible assumption | intro _ | with_reducible refine getFile_kept ?_ (inAll (by decide) hp)

theorem execFwBegin_kept {pts : List Part} {s0 : State} {src : MillSrc} {s : State} (hk : Kept pts s0 s)
    (hp : [.mbx, .mil] ⊆ pts) {res} (e : execFwBegin src s = .next res) : Kept pts s0 res := by
  unfold execFwBegin at e; cases e
  repeat' first
    | with_reducible assumption | intro _ | with_reducible refine fwBegin_kept ?_ (inAll (by decide) hp)

theorem execFwData_kept {pts : List Part} {s0 : State} {src : MillSrc} {s : State} (hk : Kept pts s0 s)
    (hp : [.mbx, .mil] ⊆ pts) {res} (e : execFwData src s = .next res) : Kept pts s0 res := by
  unfold execFwData at e; cases e
  repeat' first
    | with_reducible assumption | intro _ | with_reducible refine fwData_kept ?_ (inAll (by decide) hp)

theorem execFwVerify_kept {pts : List Part} {s0 : State} {src : MillSrc} {signatureOk : Bool} {hashOk : Bool}
    {s : State} (hk : Kept pts s0 s) (hp : [.mbx, .mil, .out] ⊆ pts) {res}
    (e : execFwVerify src signatureOk hashOk s = .next res) : Kept pts s0 res := by
  unfold execFwVerify at e; cases e
  repeat' first
    | with_reducible assumption | intro _ | with_reducible refine fwVerify_kept ?_ (inAll (by decide) hp)

theorem execFwActivate_kept {pts : List Part} {s0 : State} {src : MillSrc} {s : State} (hk : Kept pts s0 s)
    (hp : [.regs, .shadow, .acc, .gen, .pf0, .pf1, .rng, .mbx, .sem, .mil, .out] ⊆ pts) {res}
    (e : execFwActivate src s = .next res) : Kept pts s0 res := by
  unfold execFwActivate at e; cases e
  repeat' first
    | with_reducible assumption | intro _
    | with_reducible refine fwActivate_kept ?_ (inAll (by decide) hp)

theorem execFwCommit_kept {pts : List Part} {s0 : State} {src : MillSrc} {s : State} (hk : Kept pts s0 s)
    (hp : [.mbx, .mil, .out] ⊆ pts) {res} (e : execFwCommit src s = .next res) : Kept pts s0 res := by
  unfold execFwCommit at e; cases e
  repeat' first
    | with_reducible assumption | intro _ | with_reducible refine fwCommit_kept ?_ (inAll (by decide) hp)

theorem execDebugUnlock_kept {pts : List Part} {s0 : State} {src : MillSrc} {s : State} (hk : Kept pts s0 s)
    (hp : [.mbx, .mil] ⊆ pts) {res} (e : execDebugUnlock src s = .next res) : Kept pts s0 res := by
  unfold execDebugUnlock at e; cases e
  repeat' first
    | with_reducible assumption | intro _
    | with_reducible refine debugUnlock_kept ?_ (inAll (by decide) hp)

theorem execDebugLock_kept {pts : List Part} {s0 : State} {src : MillSrc} {s : State} (hk : Kept pts s0 s)
    (hp : [.regs, .pf0, .pf1, .rng, .mbx, .sem, .mil, .out] ⊆ pts) {res} (e : execDebugLock src s = .next res)
    : Kept pts s0 res := by
  unfold execDebugLock at e; cases e
  repeat' first
    | with_reducible assumption | intro _ | with_reducible refine debugLock_kept ?_ (inAll (by decide) hp)

theorem execDebugExpiry_kept {pts : List Part} {s0 : State} {s : State} (hk : Kept pts s0 s)
    (hp : [.regs, .pf0, .pf1, .rng, .sem, .mil, .out] ⊆ pts) {res} (e : execDebugExpiry s = .next res)
    : Kept pts s0 res := by
  unfold execDebugExpiry at e; cases e
  repeat' first
    | with_reducible assumption | intro _
    | with_reducible refine debugExpiry_kept ?_ (inAll (by decide) hp)

theorem execMillNotice_kept {pts : List Part} {s0 : State} {s : State} (hk : Kept pts s0 s)
    (hp : [.freeCtr, .regs, .pf0, .pf1, .rng, .mbx, .mil, .out] ⊆ pts) {res} (e : execMillNotice s = .next res)
    : Kept pts s0 res := by
  unfold execMillNotice at e; cases e
  repeat' first
    | with_reducible assumption | intro _
    | with_reducible refine millNotice_kept ?_ (inAll (by decide) hp)

theorem execSmbBlockWrite_kept {pts : List Part} {s0 : State} {off : BitVec 16} {data : List Byte} {pecOk : Bool}
    {s : State} (hk : Kept pts s0 s) (hp : [.regs, .mil] ⊆ pts) {res}
    (e : execSmbBlockWrite off data pecOk s = .next res) : Kept pts s0 res := by
  unfold execSmbBlockWrite at e; cases e
  repeat' first
    | with_reducible assumption | intro _
    | with_reducible refine smbBlockWrite_kept ?_ (inAll (by decide) hp)

theorem execExecute_kept {pts : List Part} {s0 : State} {b : Bool} {pecOk : Bool} {s : State} (hk : Kept pts s0 s)
    (hp : [.regs, .mbx, .mil] ⊆ pts) {res} (e : execExecute b pecOk s = .next res) : Kept pts s0 res := by
  unfold execExecute at e; cases e
  repeat' first
    | with_reducible assumption | intro _ | with_reducible refine execute_kept ?_ (inAll (by decide) hp)

theorem execSmbStateRead_kept {pts : List Part} {s0 : State} {s : State} (hk : Kept pts s0 s)
    (hp : [.out] ⊆ pts) {res} (e : execSmbStateRead s = .next res) : Kept pts s0 res := by
  unfold execSmbStateRead at e; cases e
  repeat' first
    | with_reducible assumption | intro _
    | with_reducible refine smbStateRead_kept ?_ (inAll (by decide) hp)

theorem execSmbReadSetup_kept {pts : List Part} {s0 : State} {off : BitVec 16} {count : BitVec 16} {pecOk : Bool}
    {s : State} (hk : Kept pts s0 s) (hp : [.regs, .mil] ⊆ pts) {res}
    (e : execSmbReadSetup off count pecOk s = .next res) : Kept pts s0 res := by
  unfold execSmbReadSetup at e; cases e
  repeat' first
    | with_reducible assumption | intro _
    | with_reducible refine smbReadSetup_kept ?_ (inAll (by decide) hp)

theorem execSmbBlockRead_kept {pts : List Part} {s0 : State} {s : State} (hk : Kept pts s0 s)
    (hp : [.mil, .out] ⊆ pts) {res} (e : execSmbBlockRead s = .next res) : Kept pts s0 res := by
  unfold execSmbBlockRead at e; cases e
  repeat' first
    | with_reducible assumption | intro _
    | with_reducible refine smbBlockRead_kept ?_ (inAll (by decide) hp)

theorem execSmbClkLowTimeout_kept {pts : List Part} {s0 : State} {s : State} (hk : Kept pts s0 s)
    (hp : [.out] ⊆ pts) {res} (e : execSmbClkLowTimeout s = .next res) : Kept pts s0 res := by
  unfold execSmbClkLowTimeout at e; cases e
  repeat' first
    | with_reducible assumption | intro _
    | with_reducible refine smbClkLowTimeout_kept ?_ (inAll (by decide) hp)

end Sys2Proof.Laws
end

