-- ==== Sys2Proof/Laws/Writes.lean ====
section
/-!
SUPPORT. Laws/Writes.lean: what a command that is a register write does, by whether it arrives.
-/
namespace Sys2Proof.Laws

open Sys2Proof.Machine

/-- A requester whose write arrives reaches the map. -/
theorem mayAccess_of_arrives {s : State} {q : Req} {r : Reg} {ix : Ix} (h : s.arrives q r ix = true) :
    s.mayAccess q = true := by
  simp only [State.arrives, Bool.and_eq_true] at h; exact h.1.1

/-- A write that arrives does what its row says, in the state in which it is judged. -/
theorem own_arrives {s : State} {q : Req} {r : Reg} {ix : Ix} {f : State → State} (h : s.arrives q r ix = true) :
    s.own q r ix f = f (s.arrived q r ix) := by
  have hm := mayAccess_of_arrives h
  simp [State.own, h, hm]

/-- The same for a write of a value to an FX register. -/
theorem ownFx_arrives {s : State} {q : Req} {r : Reg} {ix : Ix} {v : W64} {f : State → State}
    (h : s.arrives q r ix = true) : s.ownFx q r ix v f = f (s.arrived q r ix) := by
  have hw : s.fxWaits (regAddr r ix) = false := by
    simp only [State.arrives, Bool.and_eq_true, Bool.not_eq_true'] at h; exact h.1.2
  simp [State.ownFx, hw, own_arrives h]

/-- A requester that does not reach the map writes nothing; a function that does not answer refuses the write. -/
theorem own_mayNot {s : State} {q : Req} {r : Reg} {ix : Ix} {f : State → State} (h : s.mayAccess q = false) :
    s.own q r ix f = s.refuse q (regAddr r ix) true := by simp [State.own, h]

/-- A write of a block that cannot be reached is discarded and recorded (spec/01_architecture.md R42). -/
theorem own_unreachable {s : State} {q : Req} {r : Reg} {ix : Ix} {f : State → State} (hm : s.mayAccess q = true)
    (h : s.arrives q r ix = false) :
    s.own q r ix f = (s.heard q r ix).unreachable q (regAddr r ix) (regDomain r ix.inst) true := by
  simp [State.own, h, hm]

end Sys2Proof.Laws
end

