-- ==== Sys2Proof/Tests/Slice0.lean ====
section
/-!
SUPPORT. Tests/Slice0.lean: the writer's own tests. First, for each obligation of Certificates/Slice0/Obligations.lean
that has hypotheses, a theorem test_<obligation>_met shows operands and a small state that meet them together, clause
by clause, at a boundary value where the clause has one. Then ill-formed commands that the check of WellFormed.lean
refuses, and single steps whose results are worked out from the rules of spec/ that they name.
-/
namespace Sys2Proof.Tests

set_option Elab.async false
open Sys2Proof Sys2Proof.Machine Fld

/-- The state that a command answers. -/
def run (c : Instr) (s : State) : State := match exec c s with | .next t => t | _ => s

/-- What the module's pins, power, phases and resets hold, changed. -/
def gen (f : GenSt → GenSt) (s : State) : State := { s with gen := f s.gen }

/-- Every domain runs, in a phase; the host's link and the couch link are up. -/
def up (p : Phase) : State :=
  { gen (fun x => { x with
      phase := p, powered := 0x1FFFFFFF, inReset := 0, ready := 0x1FFFFFFF, perst := false, lineTx := true, fabTx := true,
      feltTx := true }) State.reset with
    couch := { CouchSt.init with st := .up } }

/-- The same in RUN. -/
def live : State := up .run

/-! # Access to the registers -/

/-- An offset as a command gives it. -/
def off (r : Reg) (ix : Ix) : BitVec 28 := BitVec.ofNat 28 (regAddr r ix)

/-- What stands between a requester and the registers, changed. -/
def accs (f : AccSt → AccSt) (s : State) : State := { s with acc := f s.acc }

/-- A staged value of a port's rewrite register, with GO written. -/
def staged : State :=
  accs (fun a => { a with applies := [⟨.prs, 15, some .pf0, [.pf0]⟩] })
    { live with shadow := [(regAddr .prsMalAct (ixNI 15 63), 2)] }

/-- The hypotheses of IdleStepIsOneTick can be met. -/
theorem test_IdleStepIsOneTick_met :
    ∃ (s : State),
        s.pending = [] :=
  ⟨State.reset, by decide +kernel⟩

/-- The hypotheses of StepKeepsTimeCounterInRange can be met. -/
theorem test_StepKeepsTimeCounterInRange_met :
    ∃ (s t : State),
        TimeInv s ∧ step s = .next t :=
  ⟨State.reset, _, ⟨by decide +kernel, by decide +kernel, by decide +kernel⟩, rfl⟩

/-- The hypotheses of StepKeepsRegisterFilesCanonical can be met. -/
theorem test_StepKeepsRegisterFilesCanonical_met :
    ∃ (s t : State),
        RegsInv s ∧ step s = .next t :=
  ⟨State.reset, _, ⟨by decide +kernel, by decide +kernel⟩, rfl⟩

/-- The hypotheses of StepKeepsWindowMemoryCanonical can be met. -/
theorem test_StepKeepsWindowMemoryCanonical_met :
    ∃ (s t : State),
        WinInv s ∧ step s = .next t :=
  ⟨State.reset, _, by unfold WinInv; decide +kernel, rfl⟩

/-- The hypotheses of RegisterWritesWaitArePostedOrRecorded can be met, clause by clause. -/
theorem test_RegisterWritesWaitArePostedOrRecorded_met :
    (∃ (c : Instr) (s : State) (q : Req) (r : Reg) (ix : Ix),
        writes c = some (q, r, ix) ∧ s.mayAccess q = false) ∧
    (∃ (c : Instr) (s : State) (q : Req) (r : Reg) (ix : Ix),
        writes c = some (q, r, ix) ∧ s.mayAccess q = true ∧ s.arrives q r ix = false) ∧
    (∃ (b : Block) (st en : Reg) (inst : Fin 16) (req : Req) (off : BitVec 28) (s : State),
        intRegs b = some (st, en) ∧ inst.val < (blockInfo b).count ∧ isFx (blockDomain b inst) = false ∧ off.toNat =
          regAddr en (ixN inst) ∧ s.arrives req en (ixN inst) = true) ∧
    (∃ (req : Req) (off : BitVec 28) (d : Nat) (s : State),
        s.mayAccess req = true ∧ offDomain off.toNat = some d ∧ isFx d = true ∧ s.reachable d = true) ∧
    (∃ (req : Req) (off : BitVec 28) (s : State),
        s.mayAccess req = true ∧ offDomain off.toNat = none) :=
  ⟨⟨.cold .pf1 0, live, _, _, _, rfl, by decide +kernel⟩,
    ⟨.asaBankRun .pf0 127 0, State.reset, _, _, _, rfl, by decide +kernel⟩,
    ⟨.fab, .fabIntStatus, .fabIntEnable, 4, .pf0, off .fabIntEnable (ixN 4), live, by decide +kernel⟩,
    ⟨.mill, off .lkpIntEnable ix0, 9, live, by decide +kernel⟩,
    ⟨.pf0, 0xFFFFFF8, live, by decide +kernel⟩⟩

/-- The hypotheses of RegisterHalvesAreHeldAndCommitted can be met, clause by clause. -/
theorem test_RegisterHalvesAreHeldAndCommitted_met :
    (∃ (req : Req) (s : State),
        s.mayAccess req = true) ∧
    (∃ (req : Req) (off : BitVec 28) (l : W32) (s : State),
        s.mayAccess req = true ∧ s.acc.lows.find? (fun h => h.req == req && h.off == off.toNat) = some ⟨req,
          off.toNat, l⟩) :=
  ⟨⟨.mill, live, by decide +kernel⟩,
    ⟨.pf0, off .genIntEnable ix0, 7, accs (fun a => { a with lows := [⟨.pf0, (off .genIntEnable ix0).toNat, 7⟩] })
      live, by decide +kernel⟩⟩

/-- The hypotheses of WrittenFieldsArriveAndTakeEffect can be met, clause by clause. -/
theorem test_WrittenFieldsArriveAndTakeEffect_met :
    (∃ (off : BitVec 28) (p : RwPend) (rest : List RwPend) (r : Reg) (ix : Ix) (s : State),
        takeFirst (fun (p : RwPend) => p.off == off.toNat) s.acc.rwPend = some (p, rest) ∧ findStored p.addr = some
          ⟨r, ix⟩ ∧ r ≠ .fabLinkCfg ∧ r ≠ .fabCmnHbSet ∧ r ≠ .crdPgCfg ∧ r ≠ .prtCtrl ∧ r ≠ .timSynce ∧ r ≠ .tgtCtrl)
          ∧
    (∃ (b : Block) (st en : Reg) (inst : Fin 16) (s : State),
        intRegs b = some (st, en) ∧ inst.val < (blockInfo b).count ∧ isFx (blockDomain b inst) = true ∧ s.reachable
          (blockDomain b inst) = true ∧ s.acc.rwPend = [] ∧ s.acc.held = []) :=
  ⟨⟨off .genIntEnable ix0, ⟨regAddr .genIntEnable ix0, regAddr .genIntEnable ix0, classMask .genIntEnable .rw, 5⟩,
    [], .genIntEnable, ix0, accs (fun a =>
    { a with rwPend := [⟨regAddr .genIntEnable ix0, regAddr .genIntEnable ix0, classMask .genIntEnable .rw, 5⟩] })
    live, by decide +kernel⟩,
    ⟨.lin, .linIntStatus, .linIntEnable, 15, accs (fun a =>
      { a with posted := [⟨.pf0, regAddr .linIntEnable (ixN 15), 5, false⟩] }) live, by decide +kernel⟩⟩

/-- The hypotheses of ReadsAnswerAndCapture can be met, clause by clause. -/
theorem test_ReadsAnswerAndCapture_met :
    (∃ (req : Req) (off : BitVec 28) (r : Reg) (ix : Ix) (d : Nat) (s : State),
        s.mayAccess req = true ∧ fxOff off.toNat = false ∧ offDomain off.toNat = some d ∧ s.reachable d = true ∧
          findReg off.toNat = some ⟨r, ix⟩ ∧ r ≠ .semLock ∧ r ≠ .timNowSec ∧ r ≠ .timNowNs) ∧
    (∃ (req : Req) (off : BitVec 28) (r : Reg) (ix : Ix) (d : Nat) (s : State),
        s.mayAccess req = true ∧ fxOff off.toNat = false ∧ offDomain off.toNat = some d ∧ s.reachable d = true ∧
          findReg off.toNat = some ⟨r, ix⟩ ∧ r ≠ .semLock ∧ r ≠ .timNowSec ∧ r ≠ .timNowNs) ∧
    (∃ (req : Req) (off : BitVec 28) (h : Half) (s : State),
        s.acc.highs.find? (fun h => h.req == req && h.off == off.toNat) = some h ∧ s.mayAccess req = true) :=
  ⟨⟨.pf0, off .pceTagCtrl ix0, .pceTagCtrl, ix0, 26, live, by decide +kernel⟩,
    ⟨.pf0, off .pceTagCtrl ix0, .pceTagCtrl, ix0, 26, live, by decide +kernel⟩,
    ⟨.pf0, off .pceTagCtrl ix0, ⟨.pf0, (off .pceTagCtrl ix0).toNat, 7⟩, accs (fun a =>
      { a with highs := [⟨.pf0, (off .pceTagCtrl ix0).toNat, 7⟩] }) live, rfl, by decide +kernel⟩⟩

/-- The hypotheses of StagedFieldsWaitAndTakeEffect can be met, clause by clause. -/
theorem test_StagedFieldsWaitAndTakeEffect_met :
    (∃ (req : Req) (b : Block) (inst : Fin 16) (r : Reg) (s : State),
        writes (.applyGo req b inst) = some (req, r, ixN inst.val) ∧ s.arrives req r (ixN inst.val) = true) ∧
    (∃ (b : Block) (inst : Fin 16) (req : Req) (c : RegCell) (r : Reg) (ix : Ix) (s : State),
        b ∈ [Block.pmn, .prs, .lkp, .asa, .egr, .qsc, .tgt, .fabCmn] ∧ (s.applySt b inst).go = some req ∧ (s.applySt
          b inst).stagers.any (· != req) = false ∧ s.domUp (blockDomain b inst) = true ∧ s.stagedCells b inst = [c] ∧
          findStored c.1 = some ⟨r, ix⟩) :=
  ⟨⟨.pf0, .prs, 15, .prsApply, live, by decide +kernel⟩,
    ⟨.prs, 15, .pf0, (regAddr .prsMalAct (ixNI 15 63), 2), .prsMalAct, ixNI 15 63, staged, by decide +kernel⟩⟩

/-- The hypotheses of IntStatusWriteClearsCauses can be met. -/
theorem test_IntStatusWriteClearsCauses_met :
    ∃ (req : Req) (b : Block) (st en : Reg) (inst : Fin 16) (s : State),
        intRegs b = some (st, en) ∧ inst.val < (blockInfo b).count ∧ s.arrives req st (ixN inst.val) = true :=
  ⟨.pf0, .fab, .fabIntStatus, .fabIntEnable, 4, live, by decide +kernel⟩

/-! # Power, phases and resets -/

/-- What the Mill holds, changed. -/
def mill (f : MilSt → MilSt) (s : State) : State := { s with mil := f s.mil }

/-- The felt path, the groups and the rest of protection, changed. -/
def prot (f : PrtSt → PrtSt) (s : State) : State := { s with prt := f s.prt }

/-- A module in BOOT that runs from its boot ROM, with one valid image. -/
def booting : State :=
  mill (fun m => { m with bootRom := true, flash := { m.flash with slotA := { m.flash.slotA with valid := true } } })
    State.reset

/-- The module in the middle of a warm QX restart. -/
def warm : State := run (.warmQx .pf0 0x5A3C) live

/-- The hypotheses of PowerAndHeatMoveTheModule can be met, clause by clause. -/
theorem test_PowerAndHeatMoveTheModule_met :
    (∃ (s : State),
        s.gen.power = .absent) ∧
    (∃ (s : State),
        s.gen.power = .sequencing ∧ s.gen.phase = .off) ∧
    (∃ (s : State),
        (s.gen.power = .up ∨ s.gen.power = .sequencing)) ∧
    (∃ (s : State),
        s.gen.power = .failing ∧ s.domUp domML = true) ∧
    (∃ (s : State),
        s.gen.power = .failing) ∧
    (∃ (point : Fin 128) (value limit : Int) (s : State),
        tripLimit point.val = some limit ∧ limit ≤ value ∧ s.gen.power = .up ∧ s.gen.tripped = false ∧ (s.gen.phase =
          .isolate ∨ s.gen.phase.mayIsolate = true)) :=
  ⟨⟨gen (fun x => { x with power := .absent }) State.reset, by decide +kernel⟩,
    ⟨gen (fun x => { x with power := .sequencing, phase := .off }) State.reset, by decide +kernel⟩,
    ⟨live, by decide +kernel⟩,
    ⟨gen (fun x => { x with power := .failing }) State.reset, by decide +kernel⟩,
    ⟨gen (fun x => { x with power := .failing }) State.reset, by decide +kernel⟩,
    ⟨126, 1840, 1840, live, by decide +kernel⟩⟩

/-- The hypotheses of ContactsAndBootSequence can be met, clause by clause. -/
theorem test_ContactsAndBootSequence_met :
    (∃ (n : Nat) (s : State),
        s.gen.hbOn = true ∧ s.domUp domQC = true ∧ n = (if 80000 ≤ s.now - s.gen.hbLast then 1 else s.gen.hbCount +
          1)) ∧
    (∃ (s : State),
        s.domUp domHP = true ∧ s.gen.matePresent = true) ∧
    (∃ (s : State),
        s.prt.leaving = none) ∧
    (∃ (goodA goodB : Bool) (s : State),
        s.gen.phase = .boot ∧ s.gen.bootFail = false ∧ s.mil.bootRom = true ∧ s.domUp domML = true ∧ s.prt.leaving =
          none ∧ (s.mil.flash.slotA.valid && goodA || s.mil.flash.slotB.valid && goodB) = true) ∧
    (∃ (goodA goodB : Bool) (s : State),
        s.gen.phase = .boot ∧ s.gen.bootFail = false ∧ s.mil.bootRom = true ∧ s.domUp domML = true ∧
          (s.mil.flash.slotA.valid && goodA || s.mil.flash.slotB.valid && goodB) = false) ∧
    (∃ (s : State),
        s.gen.phase = .init ∧ s.gen.warmBusy = false ∧ s.datapathReady = true ∧ (s.gen.retain = true ∨ s.flag
          DDC_CTRL_RUN ix0 = true)) ∧
    (∃ (s : State),
        s.gen.phase = .test ∧ s.prt.leaving = none) ∧
    (∃ (slices : BitVec 16) (qx : Bool) (s : State),
        s.gen.phase = .test ∧ s.prt.leaving = none ∧ s.prt.recovering = false ∧ (slices ≠ 0 ∨ qx = true)) :=
  ⟨⟨8, gen (fun x => { x with hbOn := true, hbCount := 7 }) live, by decide +kernel⟩,
    ⟨gen (fun x => { x with matePresent := true }) live, by decide +kernel⟩,
    ⟨live, by decide +kernel⟩,
    ⟨true, false, booting, by decide +kernel⟩,
    ⟨false, true, booting, by decide +kernel⟩,
    ⟨gen (fun x => { x with retain := true }) (up .init), by decide +kernel⟩,
    ⟨up .test, by decide +kernel⟩,
    ⟨0x8000, false, up .test, by decide +kernel⟩⟩

/-- The hypotheses of PhaseRequestsAreHeard can be met, clause by clause. -/
theorem test_PhaseRequestsAreHeard_met :
    (∃ (req : Req) (s u : State),
        u = s.arrived req .genPhaseCtrl ix0 ∧ s.arrives req .genPhaseCtrl ix0 = true ∧ u.mayReset req = true ∧
          u.gen.reqBusy = false ∧ u.gen.warmBusy = false ∧ u.gen.phase = .run) ∧
    (∃ (req : Req) (s u : State),
        u = s.arrived req .genPhaseCtrl ix0 ∧ s.arrives req .genPhaseCtrl ix0 = true ∧ u.mayReset req = true ∧
          u.gen.reqBusy = false ∧ u.gen.warmBusy = false ∧ u.gen.phase = .park ∧ u.prt.leaving = none) ∧
    (∃ (req : Req) (s u : State),
        u = s.arrived req .genPhaseCtrl ix0 ∧ s.arrives req .genPhaseCtrl ix0 = true ∧ u.mayReset req = true ∧
          u.gen.reqBusy = false ∧ u.gen.warmBusy = false ∧ u.gen.phase.mayIsolate = true ∧ u.prt.recovering = false ∧
          u.prt.leaving = none) ∧
    (∃ (req : Req) (c : Instr) (s u : State),
        u = s.arrived req .genPhaseCtrl ix0 ∧ c ∈ [.phaseReqPark req, .phaseReqRun req, .phaseReqIsolate req] ∧
          s.arrives req .genPhaseCtrl ix0 = true ∧ u.mayReset req = true ∧ u.gen.phase = .boot ∧ u.domUp domHP = true) :=
  ⟨⟨.pf0, live, _, rfl, by decide +kernel⟩,
    ⟨.pf0, up .park, _, rfl, by decide +kernel⟩,
    ⟨.pf0, live, _, rfl, by decide +kernel⟩,
    ⟨.pf0, .phaseReqIsolate .pf0, State.reset, _, rfl, by decide +kernel⟩⟩

/-- The hypotheses of ResetsAndDomains can be met, clause by clause. -/
theorem test_ResetsAndDomains_met :
    (∃ (s : State),
        s.gen.power = .up ∧ s.gen.modResetLow = false) ∧
    (∃ (s : State),
        s.gen.modResetLow = true ∧ s.gen.power = .up) ∧
    (∃ (req : Req) (s u : State),
        u = s.arrived req .genResetCtrl ix0 ∧ s.arrives req .genResetCtrl ix0 = true ∧ u.mayReset req = true ∧
          u.gen.power = .up) ∧
    (∃ (req : Req) (key : BitVec 16) (c : Instr) (s u : State),
        u = s.arrived req .genResetCtrl ix0 ∧ c ∈ [.cold req key, .warmQx req key] ∧ key ≠ 0x5A3C ∧ s.arrives req
          .genResetCtrl ix0 = true ∧ u.mayReset req = true ∧ u.domUp domHP = true ∧ u.gen.power = .up) ∧
    (∃ (req : Req) (hold : BitVec 29) (c : Instr) (s u : State),
        u = s.arrived req .genDomainReset ix0 ∧ c ∈ [.domainHold req hold, .domainRelease req hold] ∧ s.arrives req
          .genDomainReset ix0 = true ∧ u.mayReset req = true ∧ u.gen.phase ≠ .run ∧ u.gen.phase ≠ .isolate ∧ u.domUp
          domHP = true) ∧
    (∃ (req : Req) (s u : State),
        u = s.arrived req .genDomainReset ix0 ∧ s.arrives req .genDomainReset ix0 = true ∧ u.mayReset req = true ∧
          u.gen.phase = .run ∧ u.fld GEN_DOMAIN_RESET_HOLD ix0 = 0 ∧ u.gen.inReset.getLsbD 9 = false ∧ u.prt.leaving
          = none) ∧
    (∃ (req : Req) (s u : State),
        u = s.arrived req .genDomainReset ix0 ∧ s.arrives req .genDomainReset ix0 = true ∧ u.mayReset req = true ∧
          u.gen.phase = .run ∧ u.fld GEN_DOMAIN_RESET_HOLD ix0 = 0x200 ∧ u.gen.tripped = false ∧ u.prt.leaving =
          none) ∧
    (∃ (d : Fin 29) (s : State),
        s.domUp d.val = true ∧ s.gen.ready.getLsbD d.val = false ∧ d.val ≠ domML ∧ s.prt.leaving = none ∧ s.acc.waits
          = [] ∧ s.couch.st ≠ .down) :=
  ⟨⟨live, by decide +kernel⟩,
    ⟨gen (fun x => { x with modResetLow := true }) live, by decide +kernel⟩,
    ⟨.pf0, live, _, rfl, by decide +kernel⟩,
    ⟨.pf0, 0x5A3D, .warmQx .pf0 0x5A3D, live, _, rfl, by decide +kernel⟩,
    ⟨.pf0, 0x200, .domainHold .pf0 0x200, State.reset, _, rfl, by decide +kernel⟩,
    ⟨.pf0, live, _, rfl, by decide +kernel⟩,
    ⟨.pf0, live.set GEN_DOMAIN_RESET_HOLD ix0 0x200, _, rfl, by decide +kernel⟩,
    ⟨28, gen (fun x => { x with ready := 0 }) live, by decide +kernel⟩⟩

/-- The hypotheses of WarmQxRestart can be met, clause by clause. -/
theorem test_WarmQxRestart_met :
    (∃ (req : Req) (s u : State),
        u = s.arrived req .genResetCtrl ix0 ∧ s.arrives req .genResetCtrl ix0 = true ∧ u.mayReset req = true ∧
          u.gen.phase = .run ∧ u.gen.warmBusy = false ∧ u.gen.reqBusy = false) ∧
    (∃ (s : State),
        s.gen.warmBusy = true ∧ s.prt.leaving = none ∧ s.domUp domQC = true ∧ s.domUp domQB = true ∧ s.acc.waits =
          []) ∧
    (∃ (req : Req) (s u : State),
        u = s.arrived req .genResetCtrl ix0 ∧ s.arrives req .genResetCtrl ix0 = true ∧ u.mayReset req = true ∧
          u.gen.phase ≠ .run ∧ u.domUp domHP = true) ∧
    (∃ (req : Req) (s u : State),
        u = s.arrived req .genResetCtrl ix0 ∧ s.arrives req .genResetCtrl ix0 = true ∧ u.mayReset req = true ∧
          u.gen.warmBusy = true ∧ u.gen.power = .up) ∧
    (∃ (s : State),
        s.gen.power = .up ∧ s.gen.modResetLow = false ∧ s.gen.warmBusy = true) ∧
    (∃ (s : State),
        (s.gen.power = .up ∨ s.gen.power = .sequencing) ∧ s.gen.warmBusy = true) :=
  ⟨⟨.pf0, live, _, rfl, by decide +kernel⟩,
    ⟨warm, by decide +kernel⟩,
    ⟨.pf0, up .test, _, rfl, by decide +kernel⟩,
    ⟨.pf0, warm, _, rfl, by decide +kernel⟩,
    ⟨warm, by decide +kernel⟩,
    ⟨warm, by decide +kernel⟩⟩

/-! # The host interface -/

/-- An 8-byte request of PF0 BAR0. -/
def tlp (k : TlpKind) (off : Nat) (d : List Byte) : Tlp :=
  { fn := .pf0, bar2 := false, kind := k, off := off, len := 8, disabled := [], reqId := 0, poisoned := false,
    parityErr := false, badPrefix := false, data := d }

/-- A function of the endpoint, changed. -/
def fnOf (f : Fn) (h : FnSt → FnSt) (s : State) : State := s.setFn f (h (s.fn f))

/-- Both functions may master and have vectors pending; a ring runs; reads of the host are under way and wait. -/
def hosted : State :=
  let s := fnOf .pf1 (fun x => { x with bme := true, msixEn := true, pend := [5, 7] })
    (fnOf .pf0 (fun x => { x with bme := true, msixEn := true, pend := [0] }) live)
  { s.setRing 8192 { s.ring 8192 with state := .run } with
    pce := { s.pce with
      tags := [⟨0, .pf1, .ring 8192, false⟩, ⟨1, .pf0, .ring 6, true⟩], waits := [⟨.pf1, .ring 8192⟩], width := 8, rate := 5 } }

/-- A cause of vector 0 of PF0 is present and its message waits. -/
def caused : State := (hosted.wr .genIntEnable ix0 allOnes).raise GEN_INT_STATUS_COUCH_DOWN

/-- Window 15 is open to writes, over the partition's last 16 MiB. -/
def windowed : State :=
  ((((((live.set DDC_CTRL_RUN ix0 1).set DDC_PART_WIN_GIB ix0 4).set PCE_WIN_OPEN (ixI 15) 1).set PCE_WIN_WRITE_EN (ixI 15)
    1).set PCE_WIN_SIZE (ixI 15) 16).set PCE_WIN_BASE (ixI 15) 4080)

/-- The couch link, changed. -/
def couch (f : CouchSt → CouchSt) (s : State) : State := { s with couch := f s.couch }

/-- A packet on its way to the queues. -/
def forwarded : XPkt :=
  { src := 3, bytes := List.replicate 100 0, ts := none, cls := 2, tos := 0, policer := none, mirror := 0,
    dest := .voq 4 1 70 0, ream := 0 }

/-- A frame that has arrived at port 3. -/
def arrival : Arrival := { port := 3, bytes := (List.range 100).map (BitVec.ofNat 8), ts := none, direct := none, fseq := 0 }

/-- The hypotheses of FunctionsAndTheirInterrupts can be met, clause by clause. -/
theorem test_FunctionsAndTheirInterrupts_met :
    (∃ (f : Fn) (v : Fin 2048) (s : State),
        (s.fn f).msixEn = true ∧ (s.fn f).msixMask = false ∧ s.canMaster f = true ∧ v.val ∈ (s.fn f).pend ∧
          s.vectorCause f v = true) ∧
    (∃ (f : Fn) (s : State),
        (s.fn f).d3 = true) :=
  ⟨⟨.pf0, 0, caused, by decide +kernel⟩,
    ⟨.pf1, fnOf .pf1 (fun x => { x with d3 := true }) live, by decide +kernel⟩⟩

/-- The hypotheses of HostFacingResets can be met, clause by clause. -/
theorem test_HostFacingResets_met :
    (∃ (s : State),
        s.gen.perst = false ∧ s.domUp domHP = true) ∧
    (∃ (s : State),
        s.domUp domHP = true) ∧
    (∃ (s : State),
        s.pce.width ≠ 0) :=
  ⟨⟨live, by decide +kernel⟩,
    ⟨live, by decide +kernel⟩,
    ⟨hosted, by decide +kernel⟩⟩

/-- The hypotheses of HostRequestsReachRegistersAndMarks can be met, clause by clause. -/
theorem test_HostRequestsReachRegistersAndMarks_met :
    (∃ (t : Tlp) (off : BitVec 28) (s : State),
        s.domUp domHP = true ∧ s.gen.perst = false ∧ t.parityErr = false ∧ t.badPrefix = false ∧ t.fn = .pf0 ∧
          s.pf0.d3 = false ∧ s.pf0.flr = false ∧ t.bar2 = false ∧ t.kind = .write ∧ t.len = 8 ∧ t.disabled = [] ∧
          t.off = off.toNat ∧ off.toNat % 8 = 0 ∧ 0x200000 ≤ off.toNat ∧ off.toNat < 0x0E000000) ∧
    (∃ (t : Tlp) (off : BitVec 28) (s : State),
        s.domUp domHP = true ∧ s.gen.perst = false ∧ t.parityErr = false ∧ t.badPrefix = false ∧ t.fn = .pf0 ∧
          s.pf0.d3 = false ∧ s.pf0.flr = false ∧ t.bar2 = false ∧ t.kind = .write ∧ t.len = 8 ∧ t.disabled = [] ∧
          t.off = off.toNat ∧ off.toNat % 8 = 0 ∧ 0x200000 ≤ off.toNat ∧ off.toNat < 0x0E000000) ∧
    (∃ (t : Tlp) (off : BitVec 28) (r : Reg) (ix : Ix) (d : Nat) (s : State),
        s.domUp domHP = true ∧ s.gen.perst = false ∧ t.parityErr = false ∧ t.badPrefix = false ∧ t.fn = .pf0 ∧
          s.pf0.d3 = false ∧ s.pf0.flr = false ∧ t.bar2 = false ∧ t.kind = .read ∧ t.len = 8 ∧ t.disabled = [] ∧
          t.off = off.toNat ∧ off.toNat % 8 = 0 ∧ 0x200000 ≤ off.toNat ∧ off.toNat < 0x0E000000 ∧ fxOff off.toNat =
          false ∧ offDomain off.toNat = some d ∧ s.reachable d = true ∧ findReg off.toNat = some ⟨r, ix⟩ ∧ r ≠
          .semLock ∧ r ≠ .timNowSec ∧ r ≠ .timNowNs) ∧
    (∃ (t : Tlp) (s : State),
        s.domUp domHP = true ∧ s.gen.perst = false ∧ t.parityErr = false ∧ (s.fn t.fn).d3 = true ∧ t.kind = .read) ∧
    (∃ (off : BitVec 24) (s : State),
        markOff off.toNat = true ∧ off.toNat % 8 = 0 ∧ s.fnAnswers .pf1 = true ∧ s.reachable domQC = true) :=
  ⟨⟨tlp .write 0x200000 (zeros 8), 0x200000, live, by decide +kernel⟩,
    ⟨tlp .write 0xDFFFFF8 (zeros 8), 0xDFFFFF8, live, by decide +kernel⟩,
    ⟨tlp .read (regAddr .rngCfg (ixI 16383)) [], off .rngCfg (ixI 16383), .rngCfg, ixI 16383, 26, live,
      by decide +kernel⟩,
    ⟨tlp .read 0x300000 [], fnOf .pf0 (fun x => { x with d3 := true }) live, by decide +kernel⟩,
    ⟨0xA00030, live, by decide +kernel⟩⟩

/-- The hypotheses of WindowWriteThenReadReturnsData can be met. -/
theorem test_WindowWriteThenReadReturnsData_met :
    ∃ (w r : Tlp) (s : State),
        r = { w with kind := .read, data := [] } ∧ s.domUp domHP = true ∧ s.gen.perst = false ∧ s.pf0.d3 = false ∧
          s.pf0.flr = false ∧ s.windowsDown = false ∧ w.fn = .pf0 ∧ w.bar2 = true ∧ w.kind = .write ∧ w.parityErr =
          false ∧ w.badPrefix = false ∧ w.poisoned = false ∧ w.disabled = [] ∧ w.data.length = w.len ∧ w.off / 2 ^ 32
          < 16 ∧ PCE_WIN_OPEN.get (s.rd .pceWin (ixI (w.off / 2 ^ 32))) = 1 ∧ PCE_WIN_WRITE_EN.get (s.rd .pceWin (ixI
          (w.off / 2 ^ 32))) ≠ 0 ∧ w.off % 2 ^ 32 < PCE_WIN_SIZE.get (s.rd .pceWin (ixI (w.off / 2 ^ 32))) * 2 ^ 20 ∧
          PCE_WIN_BASE.get (s.rd .pceWin (ixI (w.off / 2 ^ 32))) * 2 ^ 20 + w.off % 2 ^ 32 + w.len ≤ s.partGib 2 * 2
          ^ 30 ∧ s.ddc.bad = [] :=
  ⟨⟨.pf0, true, .write, 15 * 2 ^ 32 + 0xFFFFF8, 8, [], 0, false, false, false, zeros 8⟩, _, windowed, rfl,
    by decide +kernel⟩

/-- The hypotheses of WindowsAreJudgedAndReadsEnd can be met, clause by clause. -/
theorem test_WindowsAreJudgedAndReadsEnd_met :
    (∃ (req : Req) (n : Fin 16) (v : W64) (s u : State),
        u = s.arrived req .pceWin (ixI n.val) ∧ s.arrives req .pceWin (ixI n.val) = true ∧ PCE_WIN_SIZE.get (v &&&
          classMask .pceWin .rw) ≠ 0 ∧ PCE_WIN_BASE.get (v &&& classMask .pceWin .rw) + PCE_WIN_SIZE.get (v &&&
          classMask .pceWin .rw) ≤ u.partGib 2 * 1024) ∧
    (∃ (req : Req) (n : Fin 16) (v : W64) (s u : State),
        u = s.arrived req .pceWin (ixI n.val) ∧ s.arrives req .pceWin (ixI n.val) = true ∧ PCE_WIN_OPEN.get (v &&&
          classMask .pceWin .rw) = 1 ∧ u.partGib 2 * 1024 < PCE_WIN_BASE.get (v &&& classMask .pceWin .rw) +
          PCE_WIN_SIZE.get (v &&& classMask .pceWin .rw) ∧ u.domUp domHP = true) ∧
    (∃ (tag : Fin 512) (u : TagUse) (rest : List TagUse) (r : Nat) (s : State),
        takeFirst (fun t : TagUse => t.tag = tag.val) s.pce.tags = some (u, rest) ∧ u.use = .ring r ∧ u.dead = false)
          ∧
    (∃ (tag : Fin 512) (u : TagUse) (rest : List TagUse) (s : State),
        takeFirst (fun t : TagUse => t.tag = tag.val) s.pce.tags = some (u, rest) ∧ u.dead = true) ∧
    (∃ (tag : Fin 512) (u : TagUse) (rest : List TagUse) (r : Nat) (s : State),
        takeFirst (fun t : TagUse => t.tag = tag.val) s.pce.tags = some (u, rest) ∧ u.use = .ring r ∧ u.dead = false
          ∧ isTx r = true ∧ (s.ring r).state = .run) ∧
    (∃ (f : Fn) (w : TagWait) (rest : List TagWait) (s : State),
        takeFirst (fun w : TagWait => w.fn == f) s.pce.waits = some (w, rest) ∧ s.tagOk f = true ∧ s.canMaster f =
          true) :=
  ⟨⟨.pf0, 15, windowed.rd .pceWin (ixI 15), windowed, _, rfl, by decide +kernel⟩,
    ⟨.pf0, 15, PCE_WIN_BASE.put (windowed.rd .pceWin (ixI 15)) 4081, windowed, _, rfl, by decide +kernel⟩,
    ⟨0, ⟨0, .pf1, .ring 8192, false⟩, [⟨1, .pf0, .ring 6, true⟩], 8192, hosted, by decide +kernel⟩,
    ⟨1, ⟨1, .pf0, .ring 6, true⟩, [⟨0, .pf1, .ring 8192, false⟩], hosted, by decide +kernel⟩,
    ⟨0, ⟨0, .pf1, .ring 8192, false⟩, [⟨1, .pf0, .ring 6, true⟩], 8192, hosted, by decide +kernel⟩,
    ⟨.pf1, ⟨.pf1, .ring 8192⟩, [], hosted, by decide +kernel⟩⟩

/-- The hypotheses of CouchLinkAndDispatch can be met, clause by clause. -/
theorem test_CouchLinkAndDispatch_met :
    (∃ (k : Nat) (p : XPkt) (us : List CouchUnit) (s : State),
        s.couch.fxToQx = .pipe k (.fwd p) :: us ∧ s.couch.st = .up ∧ s.couch.replaysF ≤ 8) ∧
    (∃ (d : CouchDir) (u : CouchUnit) (us : List CouchUnit) (s : State),
        s.couch.units d = u :: us ∧ s.couch.st = .up ∧ s.couch.replays d ≤ 8) ∧
    (∃ (s : State),
        s.couch.st = .up ∧ 8 < s.couch.replaysF ∧ s.domUp domHP = true) ∧
    (∃ (s : State),
        s.couch.st = .retrain ∧ s.acc.waits = []) ∧
    (∃ (s : State),
        s.couch.st = .retrain ∧ s.couch.failed = 2 ∧ s.gen.phase.mayIsolate = true ∧ s.prt.recovering = false ∧
          s.prt.leaving = none ∧ s.acc.waits = [] ∧ (∀ p ∈ s.couch.qxToFx.filterMap CouchUnit.posted ++ s.acc.held,
          fxOff p.off = true)) ∧
    (∃ (slice : Fin 16) (idle : Fin 64) (slot : Nat) (a : Arrival) (rest : List (Nat × Arrival)) (s : State),
        slot = (tblGet 0 s.ing.slots slice.val + idle.val) % 64 ∧ (takeFirst (fun e => e.1 == slice.val && ((256 ≤
          e.2.port) == (slot == 63))) s.arrivals = some ((slice.val, a), rest) ∨ takeFirst (fun e => e.1 == slice.val
          && ((256 ≤ e.2.port) == (slot == 63))) s.arrivals = none ∧ takeFirst (fun e => e.1 == slice.val) s.arrivals
          = some ((slice.val, a), rest)) ∧ s.gen.phase ≠ .isolate ∧ s.gen.phase ≠ .park ∧ s.pipesUp = true ∧ a.direct
          = none) :=
  ⟨⟨1, forwarded, [], couch (fun c => { c with fxToQx := [.pipe 1 (.fwd forwarded)] }) live, by decide +kernel⟩,
    ⟨.fxToQx, .pipe 1 (.fwd forwarded), [], couch (fun c =>
      { c with fxToQx := [.pipe 1 (.fwd forwarded)], replaysF := 8 }) live, by decide +kernel⟩,
    ⟨couch (fun c => { c with replaysF := 9 }) live, by decide +kernel⟩,
    ⟨couch (fun c => { c with st := .retrain }) live, by decide +kernel⟩,
    ⟨couch (fun c => { c with st := .retrain, failed := 2 }) live, by decide +kernel⟩,
    ⟨15, 63, 63, { arrival with port := 287 }, [], { live with arrivals := [(15, { arrival with port := 287 })] },
      by decide +kernel⟩⟩

/-! # Rings, mailboxes and locks -/

/-- A ring, changed. -/
def ringOf (r : Nat) (f : Ring → Ring) (s : State) : State := s.setRing r (f (s.ring r))

/-- A ring in RUN, with one descriptor posted. -/
def ringing (r : Nat) : State := ringOf r (fun x => { x with state := .run, hostIdx := 1 }) hosted

/-- An event ring in RUN, with a record that waits for a slot. -/
def held : State :=
  { ringOf 13400 (fun x => { x with state := .run }) hosted with
    rng := { (ringOf 13400 (fun x => { x with state := .run }) hosted).rng with fifos := [⟨13400, zeros 32⟩] } }

/-- A TX descriptor of a whole packet. -/
def txDesc : TxDesc :=
  { bufAddr := 0, len := 100, sop := true, eop := true, mode := false, cls := 0, destPort := 0, cookie := 0 }

/-- A packet that waits for RX ring 9. -/
def toHost : HostPkt := { ring := 9, bytes := [1, 2, 3], srcPort := 0, cause := 0, tsNs := 0, tsSec := 0 }

/-- A notice of a 16-byte command block. -/
def notice : Notice := ⟨0x1000, 16, 3, 4⟩

/-- A mailbox pair, changed. -/
def mailbox (i : Nat) (f : MbxPair → MbxPair) (s : State) : State := s.setPair i (f (s.pair i))

/-- The Mill answers. -/
def served : State := mill (fun m => { m with ready := true, bootRom := false }) hosted

/-- The hypotheses of DoorbellsMoveOrHaltTheirRing can be met, clause by clause. -/
theorem test_DoorbellsMoveOrHaltTheirRing_met :
    (∃ (r : Fin 16384) (h : W32) (s : State),
        s.fnAnswers .pf1 = true ∧ (s.ring r.val).state = .run ∧ isEvent r.val = false ∧ isExport r.val = false ∧ (h -
          (s.ring r.val).modIdx).toNat ≤ s.ringSize r.val) ∧
    (∃ (r : Fin 16384) (h : W32) (s : State),
        s.fnAnswers .pf1 = true ∧ (s.ring r.val).state = .run ∧ isEvent r.val || isExport r.val ∧ ((s.ring
          r.val).modIdx - h).toNat ≤ s.ringSize r.val) ∧
    (∃ (r : Fin 16384) (h : W32) (s : State),
        s.fnAnswers .pf1 = true ∧ (s.ring r.val).state = .run ∧ s.ringSize r.val < (if isEvent r.val || isExport
          r.val then (s.ring r.val).modIdx - h else h - (s.ring r.val).modIdx).toNat) ∧
    (∃ (r : Fin 16384) (h : W32) (s : State),
        s.fnAnswers .pf1 = true ∧ (s.ring r.val).state = .run ∧ s.ringSize r.val < (if isEvent r.val || isExport
          r.val then (s.ring r.val).modIdx - h else h - (s.ring r.val).modIdx).toNat) ∧
    (∃ (r : Fin 16384) (s : State),
        s.fnAnswers .pf1 = true ∧ (s.ring r.val).state ≠ .run) :=
  ⟨⟨8192, 64, ringing 8192, by decide +kernel⟩,
    ⟨13400, 0xFFFFFFC0, ringing 13400, by decide +kernel⟩,
    ⟨8192, 65, ringing 8192, by decide +kernel⟩,
    ⟨13400, 0xFFFFFFBF, ringing 13400, by decide +kernel⟩,
    ⟨16383, live, by decide +kernel⟩⟩

/-- The hypotheses of RingsRunStopAndSignal can be met, clause by clause. -/
theorem test_RingsRunStopAndSignal_met :
    (∃ (req : Req) (r : Fin 16384) (cfg w : W64) (s u : State),
        u = s.arrived req .rngCfg (ixI r.val) ∧ w = blend (u.rd .rngCfg (ixI r.val)) cfg (classMask .rngCfg .rw |||
          classMask .rngCfg .rwx) ∧ s.arrives req .rngCfg (ixI r.val) = true ∧ (u.ring r.val).state = .disabled ∧
          RNG_CFG_SIZE.get w ≤ 0xA ∧ ((u.wr .rngCfg (ixI r.val) w).slotSums (r.val % 4)).1 + RNG_CFG_GUAR.get w ≤
          2048) ∧
    (∃ (req : Req) (r : Fin 16384) (s u : State),
        u = s.arrived req .rngCfg (ixI r.val) ∧ s.arrives req .rngCfg (ixI r.val) = true ∧ (u.ring r.val).state =
          .run ∧ isCommit r.val = false) ∧
    (∃ (r : Fin 16384) (s : State),
        (s.ring r.val).inflight = 0 ∧ (s.ring r.val).state = .stopping) ∧
    (∃ (r : Fin 16384) (s : State),
        s.fnAnswers .pf1 = true ∧ (s.ring r.val).gathered < s.coalCount r.val) ∧
    (∃ (r : Fin 16384) (s : State),
        s.flag RNG_CFG_IRQ_EN (ixI r.val) = true ∧ (s.ring r.val).armed = true ∧ s.fld RNG_CFG_COAL_TIME (ixI r.val)
          ≠ 0 ∧ (s.ring r.val).gathered ≠ 0) ∧
    (∃ (e : Fin 4) (h : HeldRec) (rest : List HeldRec) (s : State),
        takeFirst (fun h : HeldRec => h.ring % 4 = e.val) s.rng.fifos = some (h, rest) ∧ (s.ring h.ring).state = .run
          ∧ s.recFull h.ring = false ∧ s.slotOk h.ring = true ∧ s.canMaster .pf1 = true) :=
  ⟨⟨.pf0, 8192, 0x123, _, live, _, rfl, rfl, by decide +kernel⟩,
    ⟨.pf0, 8192, ringing 8192, _, rfl, by decide +kernel⟩,
    ⟨8192, ringOf 8192 (fun x => { x with state := .stopping }) live, by decide +kernel⟩,
    ⟨8192, live, by decide +kernel⟩,
    ⟨8192, ((ringOf 8192 (fun x => { x with gathered := 2, armed := true }) live).set RNG_CFG_IRQ_EN (ixI 8192)
      1).set RNG_CFG_COAL_TIME (ixI 8192) 1, by decide +kernel⟩,
    ⟨0, ⟨13400, zeros 32⟩, [], held, by decide +kernel⟩⟩

/-- The hypotheses of PacketsCrossTheRings can be met, clause by clause. -/
theorem test_PacketsCrossTheRings_met :
    (∃ (r : Fin 16384) (chain : List TxDesc) (data : List Byte) (d : TxDesc) (s : State),
        isTx r.val = true ∧ (s.ring r.val).state = .run ∧ chain.head? = some d ∧ chain.length ≤ s.covered r.val ∧
          s.canMaster .pf1 = true ∧ (chain.length ≤ (s.ring r.val).slots ∨ s.slotsOk r.val (chain.length - (s.ring
          r.val).slots) = true) ∧ txStatus chain data = 0 ∧ s.domUp domQC = true ∧ (s.hostDma data.length).2 =
          .covered) ∧
    (∃ (r : Fin 16384) (chain : List TxDesc) (data : List Byte) (s : State),
        isTx r.val = true ∧ (s.ring r.val).state = .run ∧ chain ≠ [] ∧ chain.length ≤ s.covered r.val ∧ s.canMaster
          .pf1 = true ∧ (chain.length ≤ (s.ring r.val).slots ∨ s.slotsOk r.val (chain.length - (s.ring r.val).slots)
          = true) ∧ txStatus chain data ≠ 0) ∧
    (∃ (r : Fin 16384) (bufs : List (W64 × BitVec 16)) (p : HostPkt) (rest : List HostPkt) (pieces : List ((W64 ×
      BitVec 16) × List Byte)) (s : State),
        takeFirst (fun p : HostPkt => p.ring = r.val) s.hostQ = some (p, rest) ∧ (s.ring r.val).state = .run ∧ isRx
          r.val = true ∧ rxPieces p.bytes (bufs.take (s.covered r.val)) = some pieces ∧ s.slotsOk r.val pieces.length
          = true ∧ s.canMaster .pf1 = true) ∧
    (∃ (r : Fin 16384) (bufs : List (W64 × BitVec 16)) (p : HostPkt) (rest : List HostPkt) (pieces : List ((W64 ×
      BitVec 16) × List Byte)) (s : State),
        takeFirst (fun p : HostPkt => p.ring = r.val) s.hostQ = some (p, rest) ∧ (s.ring r.val).state = .run ∧ isRx
          r.val = true ∧ rxPieces p.bytes (bufs.take (s.covered r.val)) = some pieces ∧ s.slotsOk r.val pieces.length
          = true ∧ s.canMaster .pf1 = true) ∧
    (∃ (r : Fin 16384) (p : HostPkt) (rest : List HostPkt) (s : State),
        takeFirst (fun p : HostPkt => p.ring = r.val) s.hostQ = some (p, rest) ∧ (s.ring r.val).state ≠ .run ∧ isRx
          r.val = true) :=
  ⟨⟨8192, [txDesc], zeros 100, txDesc, ringing 8192, by decide +kernel⟩,
    ⟨8192, [txDesc], [], ringing 8192, by decide +kernel⟩,
    ⟨9, [(0x1000, 64)], toHost, [], [((0x1000, 64), [1, 2, 3])], { ringing 9 with hostQ := [toHost] },
      by decide +kernel⟩,
    ⟨9, [(0x1000, 64)], toHost, [], [((0x1000, 64), [1, 2, 3])], { ringing 9 with hostQ := [toHost] },
      by decide +kernel⟩,
    ⟨9, toHost, [], { live with hostQ := [toHost] }, by decide +kernel⟩⟩

/-- The hypotheses of MailboxesCarryCommands can be met, clause by clause. -/
theorem test_MailboxesCarryCommands_met :
    (∃ (i : Fin 8) (s u : State),
        u = s.arrived .pf0 .mbxH2mPost (ixI i.val) ∧ s.arrives .pf0 .mbxH2mPost (ixI i.val) = true ∧ u.domUp domHP =
          true ∧ (u.pair i.val).h2m.isSome = true) ∧
    (∃ (i : Fin 8) (v : W64) (s u : State),
        u = s.arrived .pf0 .mbxM2hTake (ixI i.val) ∧ s.arrives .pf0 .mbxM2hTake (ixI i.val) = true ∧
          MBX_M2H_TAKE_TAKE.get v = 1 ∧ (u.pair i.val).m2h.isSome = true ∧ (u.pair i.val).frAck = true) ∧
    (∃ (i : Fin 8) (s : State),
        s.gen.phase ≠ .run ∧ (s.pair i.val).h2m.isSome = true) ∧
    (∃ (i : Fin 8) (s : State),
        s.gen.phase ≠ .run ∧ (s.pair i.val).m2h.isSome = true) ∧
    (∃ (req : Req) (i : Fin 8) (s u : State),
        u = s.arrived req .mbxMode (ixI i.val) ∧ s.arrives req .mbxMode (ixI i.val) = true ∧ (u.pair i.val).h2m =
          none ∧ (u.pair i.val).m2h = none) ∧
    (∃ (i : Fin 8) (n : Notice) (block : List Byte) (s : State),
        (s.pair i.val).h2m = some n ∧ s.millServes = true ∧ s.canMaster .pf0 = true ∧ (s.pair i.val).frAck = false ∧
          s.tagOk .pf0 = true ∧ s.serviceOk (.mbx i) = true ∧ n.ptr.toNat % 8 = 0 ∧ 16 ≤ blockLength block ∧
          blockLength block % 8 = 0 ∧ blockLength block = n.len.toNat ∧ blockLength block ≤ 65528 ∧ blockOpcode block
          ∈ millOpcodes) ∧
    (∃ (i : Fin 8) (x : MillSlot) (rest : List MillSlot) (s : State),
        takeFirst (fun x : MillSlot => x.src == .mbx i && (x.done || x.abandoned)) s.mbx.slots = some (x, rest) ∧
          x.abandoned = false ∧ s.millServes = true ∧ s.canMaster .pf0 = true ∧ (s.pair i.val).frAck = false ∧
          (s.pair i.val).m2h = none) :=
  ⟨⟨7, mailbox 7 (fun p => { p with h2m := some notice }) live, _, rfl, by decide +kernel⟩,
    ⟨7, (1 : W64) <<< MBX_M2H_TAKE_TAKE.lsb, mailbox 7 (fun p => { p with m2h := some notice, frAck := true }) live,
      _, rfl, by decide +kernel⟩,
    ⟨7, mailbox 7 (fun p => { p with h2m := some notice }) (up .park), by decide +kernel⟩,
    ⟨7, mailbox 7 (fun p => { p with m2h := some notice }) (up .park), by decide +kernel⟩,
    ⟨.pf0, 7, live, _, rfl, by decide +kernel⟩,
    ⟨7, notice, leBytes 2 0x10 ++ leBytes 2 0 ++ leBytes 2 16 ++ leBytes 10 0, mailbox 7 (fun p =>
      { p with h2m := some notice }) served, by decide +kernel⟩,
    ⟨7, answered (.mbx 7) notice [] 3, [],
      { served with mbx := { served.mbx with slots := [answered (.mbx 7) notice [] 3] } }, by decide +kernel⟩⟩

/-- The hypotheses of LocksAreReadInTurnAndReleased can be met, clause by clause. -/
theorem test_LocksAreReadInTurnAndReleased_met :
    (∃ (n : Fin 64) (m : Req) (s : State),
        s.lockMaster m = true ∧ s.domUp domHP = true ∧ s.lockOwner n.val = 0) ∧
    (∃ (n : Fin 64) (m : Req) (s : State),
        s.lockMaster m = true ∧ s.domUp domHP = true ∧ s.lockOwner n.val = 0) ∧
    (∃ (n : Fin 64) (m : Req) (s : State),
        s.lockMaster m = true ∧ s.domUp domHP = true ∧ s.lockOwner n.val ≠ 0) ∧
    (∃ (m : Req) (s : State),
        s.lockMaster m = true ∧ s.domUp domHP = true) ∧
    (∃ (n : Fin 64) (readers rest : List Req) (m : Req) (s : State),
        s.domUp domHP = true ∧ s.lockOwner n.val = 0 ∧ (∀ x ∈ readers, s.lockMaster x = true) ∧ [Req.mill, .pf0,
          .mate, .dbg].filter (readers.contains ·) = m :: rest) ∧
    (∃ (m : Req) (n : Fin 64) (s u : State),
        u = s.arrived m .semRelease (ixI n.val) ∧ m ≠ .mate ∧ s.arrives m .semRelease (ixI n.val) = true ∧
          u.lockMaster m = true ∧ u.domUp domHP = true ∧ u.lockOwner n.val = masterId m) ∧
    (∃ (n : Fin 64) (s : State),
        s.domUp domHP = true ∧ s.prt.felt = true ∧ s.lockOwner n.val ≠ masterId .mate) ∧
    (∃ (n : Fin 64) (s u : State),
        u = s.arrived .mill .semRelease (ixI n.val) ∧ s.arrives .mill .semRelease (ixI n.val) = true ∧ u.domUp domHP
          = true) ∧
    (∃ (s : State),
        s.domUp domHP = true) :=
  ⟨⟨63, .pf0, live, by decide +kernel⟩,
    ⟨63, .dbg, mill (fun m => { m with debug := true }) live, by decide +kernel⟩,
    ⟨63, .mate, prot (fun p => { p with felt := true }) { live with sem := [(63, 3)] }, by decide +kernel⟩,
    ⟨.mill, live, by decide +kernel⟩,
    ⟨63, [.dbg, .mate, .pf0], [.mate, .dbg], .pf0, prot (fun p => { p with felt := true }) (mill (fun m =>
      { m with debug := true }) live), by decide +kernel⟩,
    ⟨.pf0, 63, { live with sem := [(63, 2)] }, _, rfl, by decide +kernel⟩,
    ⟨63, prot (fun p => { p with felt := true }) { live with sem := [(63, 2)] }, by decide +kernel⟩,
    ⟨63, { live with sem := [(63, 2)] }, _, rfl, by decide +kernel⟩,
    ⟨live, by decide +kernel⟩⟩

/-! # Ports and FlexE -/

/-- A value with a field at x. -/
def vOf (f : Field) (x : Nat) : W64 := BitVec.ofNat 64 (x <<< f.lsb)

/-- Slice 15 runs, and its first port is enabled and up. -/
def sliced : State :=
  ((((live.set LIN_SLICE_CTRL_RUN (ixN 15) 1).set LIN_SLICE_CTRL_MAP (ixN 15) 3).set LIN_PORT_CFG_ENABLE (portIx 240)
    1).set LIN_PORT_CFG_MAX_FRAME (portIx 240) 1518).set LIN_PORT_STATUS_LINK_UP (portIx 240) 1

/-- A frame of 64 bytes with its FCS, and its FCS. -/
def frame : List Byte := List.replicate 60 5
def fcs : BitVec 32 := BitVec.ofNat 32 (crc32 frame)

/-- FlexE group 31 runs and asks for a calendar switch. -/
def grouped : State :=
  { live.set FLX_GROUP_CFG_EN (ixI 31) 1 with lin := { live.lin with calReq := [31] } }

/-- The cross-connect is armed. -/
def armed : State := live.set FLX_XC_STATUS_ARMED ix0 1

/-- The hypotheses of PortsRunAndReceive can be met, clause by clause. -/
theorem test_PortsRunAndReceive_met :
    (∃ (req : Req) (k : Fin 16) (v : W64) (s u : State),
        u = (s.arrived req .linSliceCtrl (ixN k.val)).flushRw .lin k.val ∧ s.arrives req .linSliceCtrl (ixN k.val) =
          true ∧ u.sliceRuns k.val = false ∧ LIN_SLICE_CTRL_MAP.get v < 0xC ∧ u.prt.leaving = none) ∧
    (∃ (req : Req) (k : Fin 16) (s u : State),
        u = (s.arrived req .linSliceCtrl (ixN k.val)).flushRw .lin k.val ∧ s.arrives req .linSliceCtrl (ixN k.val) =
          true ∧ u.sliceRuns k.val = true ∧ u.prt.leaving = none) ∧
    (∃ (req : Req) (p : Fin 256) (s u : State),
        u = (s.arrived req .linPortCfg (portIx p.val)).flushRw .lin (p.val / 16) ∧ s.arrives req .linPortCfg (portIx
          p.val) = true) ∧
    (∃ (p : Fin 256) (s : State),
        s.isPort p.val = true ∧ s.domUp (portDomain p.val) = true ∧ s.sliceRuns (p.val / 16) = true) ∧
    (∃ (p : Fin 256) (s : State),
        s.isPort p.val = true ∧ s.domUp (portDomain p.val) = true ∧ s.sliceRuns (p.val / 16) = true) ∧
    (∃ (p : Fin 256) (frame : List Byte) (fcs : BitVec 32) (m : Mac) (s : State),
        s.macOf p.val = some m ∧ s.domUp (portDomain p.val) = true ∧ 64 ≤ frame.length + 4 ∧ frame.length + 4 ≤
          s.macMax p.val m ∧ crc32 frame = fcs.toNat ∧ s.macOn p.val m = true ∧ macControl frame = none ∧ s.pipesUp =
          true) ∧
    (∃ (p : Fin 256) (frame : List Byte) (m : Mac) (s : State),
        s.macOf p.val = some m ∧ s.domUp (portDomain p.val) = true ∧ frame.length + 4 < 64) ∧
    (∃ (p : Fin 256) (frame : List Byte) (fcs : BitVec 32) (m : Mac) (s : State),
        s.macOf p.val = some m ∧ s.domUp (portDomain p.val) = true ∧ 64 ≤ frame.length + 4 ∧ frame.length + 4 ≤
          s.macMax p.val m ∧ crc32 frame ≠ fcs.toNat) ∧
    (∃ (p : Fin 256) (s : State),
        s.macOf p.val = some .ether ∧ s.domUp (portDomain p.val) = true ∧ s.macOn p.val .ether = true) ∧
    (∃ (p : Fin 256) (cls : Fin 8) (s : State),
        8 * p.val + cls.val ∈ s.lin.xoff ∧ s.portTx p.val = true ∧ s.macOf p.val = some .ether) :=
  ⟨⟨.pf0, 15, vOf LIN_SLICE_CTRL_MAP 11, live, _, rfl, by decide +kernel⟩,
    ⟨.pf0, 15, sliced, _, rfl, by decide +kernel⟩,
    ⟨.pf0, 255, live, _, rfl, by decide +kernel⟩,
    ⟨240, sliced, by decide +kernel⟩,
    ⟨240, sliced, by decide +kernel⟩,
    ⟨240, frame, fcs, .ether, sliced, by decide +kernel⟩,
    ⟨240, frame.take 59, .ether, sliced, by decide +kernel⟩,
    ⟨240, frame, fcs + 1, .ether, sliced, by decide +kernel⟩,
    ⟨240, sliced, by decide +kernel⟩,
    ⟨240, 7, { sliced with lin := { sliced.lin with xoff := [1927] } }, by decide +kernel⟩⟩

/-- The hypotheses of FlexeAndCrossConnect can be met, clause by clause. -/
theorem test_FlexeAndCrossConnect_met :
    (∃ (req : Req) (n : Fin 32) (s u : State),
        u = (s.arrived req .flxGroupCfg (ixI n.val)).flushRw .flx 0 ∧ s.arrives req .flxGroupCfg (ixI n.val) = true ∧
          u.prt.leaving = none) ∧
    (∃ (req : Req) (n : Fin 32) (v : W64) (s u : State),
        u = (s.arrived req .flxGroupCfg (ixI n.val)).flushRw .flx 0 ∧ s.arrives req .flxGroupCfg (ixI n.val) = true ∧
          u.prt.leaving = none ∧ FLX_GROUP_CFG_EN.get v = 1) ∧
    (∃ (n : Fin 32) (s : State),
        n.val ∈ s.lin.calReq ∧ s.domUp domFC = true ∧ s.gen.phase ≠ .park ∧ s.xcWaitsFor n.val = false) ∧
    (∃ (n : Fin 32) (s : State),
        n.val ∈ s.lin.calReq ∧ s.domUp domFC = true ∧ s.gen.phase ≠ .park) ∧
    (∃ (req : Req) (c : Fin 512) (v : W64) (s u : State),
        u = (s.arrived req .flxClient (ixI c.val)).flushRw .flx 0 ∧ s.arrives req .flxClient (ixI c.val) = true ∧
          u.flag FLX_CLIENT_EN (ixI c.val) = false ∧ FLX_CLIENT_EN.get v = 1 ∧ (u.ownWrite req .flxClient (ixI c.val)
          v FLX_CLIENT_EN.mask).clientOk c.val = true) ∧
    (∃ (req : Req) (c : Fin 512) (v : W64) (s : State),
        s.arrives req .flxClient (ixI c.val) = true ∧ FLX_CLIENT_EN.get v = 0) ∧
    (∃ (req : Req) (c : Fin 4096) (s : State),
        s.arrives req .flxCkt (ixI c.val) = true) ∧
    (∃ (req : Req) (s u : State),
        u = (s.arrived req .flxXcCtrl ix0).flushRw .flx 0 ∧ s.arrives req .flxXcCtrl ix0 = true ∧ u.flag
          FLX_XC_STATUS_ARMED ix0 = false) ∧
    (∃ (s : State),
        RegsInv s ∧ s.flag FLX_XC_STATUS_COPY_BUSY ix0 = true ∧ s.gen.phase ≠ .park) ∧
    (∃ (req : Req) (s u : State),
        u = (s.arrived req .flxXcCtrl ix0).flushRw .flx 0 ∧ s.arrives req .flxXcCtrl ix0 = true ∧ u.flag
          FLX_XC_STATUS_ARMED ix0 = false) ∧
    (∃ (req : Req) (s u : State),
        u = (s.arrived req .flxXcCtrl ix0).flushRw .flx 0 ∧ s.arrives req .flxXcCtrl ix0 = true ∧ u.flag
          FLX_XC_STATUS_ARMED ix0 = true) ∧
    (∃ (s : State),
        RegsInv s ∧ s.flag FLX_XC_STATUS_ARMED ix0 = true ∧ s.domUp domFC = true ∧ s.gen.phase ≠ .park ∧ s.fld
          FLX_XC_CTRL_MODE ix0 = 0 ∧ s.domUp domTM = true ∧ s.xcTimeReached = true) :=
  ⟨⟨.pf0, 31, live, _, rfl, by decide +kernel⟩,
    ⟨.pf0, 31, vOf FLX_GROUP_CFG_EN 1, live, _, rfl, by decide +kernel⟩,
    ⟨31, grouped, by decide +kernel⟩,
    ⟨31, grouped, by decide +kernel⟩,
    ⟨.pf0, 511, vOf FLX_CLIENT_EN 1 ||| vOf FLX_CLIENT_TERM 1 ||| vOf FLX_CLIENT_GROUP 31, live, _, rfl,
      by decide +kernel⟩,
    ⟨.pf0, 511, 0, live, by decide +kernel⟩,
    ⟨.pf0, 4095, live, by decide +kernel⟩,
    ⟨.pf0, live, _, rfl, by decide +kernel⟩,
    ⟨live.set FLX_XC_STATUS_COPY_BUSY ix0 1, ⟨by decide +kernel, by decide +kernel⟩, by decide +kernel⟩,
    ⟨.pf0, live, _, rfl, by decide +kernel⟩,
    ⟨.pf0, armed, _, rfl, by decide +kernel⟩,
    ⟨armed, ⟨by decide +kernel, by decide +kernel⟩, by decide +kernel⟩⟩

/-- The hypotheses of SignalsAreMonitored can be met, clause by clause. -/
theorem test_SignalsAreMonitored_met :
    (∃ (u : SigUnit) (s : State),
        s.notMon (unitEnt u) = false) ∧
    (∃ (u : SigUnit) (s : State),
        s.notMon (unitEnt u) = false) ∧
    (∃ (n : Fin 32) (s : State),
        s.notMon (entGroup n.val) = false) ∧
    (∃ (c : Fin 512) (s : State),
        s.notMon (entClient c.val) = false) ∧
    (∃ (u : SigUnit) (uncorrectable : BitVec 48) (s : State),
        s.notMon (unitEnt u) = false ∧ s.sf (unitEnt u) = false ∧ (s.ent (unitEnt u)).sd = false ∧ uncorrectable ≠ 0
          ∧ max 1 (s.fld PMN_ENT_CFG_SD_PERIODS (ixI (unitEnt u))) ≤ (s.ent (unitEnt u)).sdBad + 1) ∧
    (∃ (s : State),
        s.domUp domFC = true ∧ s.domUp domTM = true ∧ s.pmn.sec ≠ s.tim.sec) ∧
    (∃ (p : PmSecond) (rest : List PmSecond) (s : State),
        s.pmn.pend = p :: rest ∧ 10 ≤ rest.length ∧ s.domUp domFC = true ∧ (p.sec + 1) % 900 ≠ 0 ∧ s.dayOf (p.sec +
          1) = s.dayOf p.sec) :=
  ⟨⟨.line 240, sliced, by decide +kernel⟩,
    ⟨.fabric 319, live, by decide +kernel⟩,
    ⟨31, grouped, by decide +kernel⟩,
    ⟨511, grouped.set FLX_CLIENT_GROUP (ixI 511) 31, by decide +kernel⟩,
    ⟨.line 240, 1, sliced.setEnt (unitEnt (.line 240)) { sliced.ent (unitEnt (.line 240)) with sdBad := 20 },
      by decide +kernel⟩,
    ⟨{ live with tim := { live.tim with sec := 5 } }, by decide +kernel⟩,
    ⟨⟨100, false, []⟩, List.replicate 10 ⟨101, false, []⟩,
      { live with pmn := { live.pmn with pend := ⟨100, false, []⟩ :: List.replicate 10 ⟨101, false, []⟩ } },
      by decide +kernel⟩⟩

/-! # The parser -/

/-- A packet of `arrival` in pipeline 1 of slice 0, before its parse. -/
def packet : Pkt :=
  { arr := arrival, slice := 0, pipe := 1, ream := 0, stage := .dispatched,
    eng := { EngSt.init with fend := 100, cur := 14, g := [1, 2, 3, 4, 5, 6, 7, 8] }, fin := none, mv := [], prof := 0,
    profB := 0, phaseB := false, bad := false, open_ := [], ans := [], outs := [] }

/-- One version of a word of a versioned table. -/
def putVer (k img len : Nat) (s : State) : State :=
  { s with tab := s.tab.putVers k [(⟨0, 0, img, len, false⟩ : Ver)] }

/-- One packet is in the pipelines. -/
def holding (p : Pkt) (s : State) : State := { s with ing := { s.ing with pkts := [p] } }

/-- The packet in engine 128, at instruction 5. -/
def parsing : Pkt := { packet with stage := .parsing 128, eng := { packet.eng with pc := 5, steps := 3 } }

/-- Engine 128 stands at an instruction word. -/
def at5 (w : Nat) : State := holding parsing (putVer (tkey tStore 6) 0 8 (putVer (tkey tStore 5) w 8 live))

/-- A parse program that starts at instruction 5 for port 3. -/
def started : State :=
  holding packet (putVer (tkey tStore 5) 0 8 (putVer (tkey tEntry (entryOf 3)) (5 + 77 <<< 16 + 1 <<< 32) 8 live))

/-- The hypotheses of ParseInstructionsComputeAndCollect can be met, clause by clause. -/
theorem test_ParseInstructionsComputeAndCollect_met :
    (∃ (e : Fin 8192) (p : Pkt) (w : Nat) (s : State),
        ParsesAt e.val p w s ∧ bitsOf w 60 4 = 0x0) ∧
    (∃ (e : Fin 8192) (p : Pkt) (w : Nat) (s : State),
        ParsesAt e.val p w s ∧ bitsOf w 60 4 = 0x2) ∧
    (∃ (e : Fin 8192) (p : Pkt) (w i n : Nat) (s : State),
        ParsesAt e.val p w s ∧ i = p.eng.cur + bitsOf w 40 8 ∧ n = (if bitAt w 48 then 1 else 2) ∧ bitsOf w 60 4 =
          0x1 ∧ i + n ≤ p.eng.fend ∧ i + n ≤ 256) ∧
    (∃ (e : Fin 8192) (p : Pkt) (w : Nat) (s : State),
        ParsesAt e.val p w s ∧ bitsOf w 60 4 = 0xB ∧ bitsOf w 48 3 = 0) ∧
    (∃ (e : Fin 8192) (p : Pkt) (w : Nat) (s : State),
        ParsesAt e.val p w s ∧ bitsOf w 60 4 = 0xC) ∧
    (∃ (e : Fin 8192) (p : Pkt) (w c : Nat) (s : State),
        ParsesAt e.val p w s ∧ bitsOf w 60 4 = 0x3 ∧ (c : Int) = (p.eng.cur : Int) + (BitVec.ofNat 16 (bitsOf w 16
          16)).toInt + ((if bitAt w 47 then (p.eng.reg (bitsOf w 54 3)).toNat * 2 ^ bitsOf w 44 2 else 0 : Nat) :
          Int)) ∧
    (∃ (e : Fin 8192) (p : Pkt) (w : Nat) (s : State),
        ParsesAt e.val p w s ∧ bitsOf w 60 4 = 0x4 ∧ p.eng.cur < 256 ∧ p.eng.hi.length < 32) ∧
    (∃ (e : Fin 8192) (p : Pkt) (w i n k : Nat) (s : State),
        ParsesAt e.val p w s ∧ i = p.eng.cur + bitsOf w 40 8 ∧ n = (if bitsOf w 36 4 = 0 then 16 else bitsOf w 36 4)
          ∧ k = bitsOf w 8 7 ∧ bitsOf w 60 4 = 0x5 ∧ i + n ≤ p.eng.fend ∧ i + n ≤ 256 ∧ k + n ≤ 128) ∧
    (∃ (e : Fin 8192) (p : Pkt) (w k : Nat) (s : State),
        ParsesAt e.val p w s ∧ k = bitsOf w 8 7 ∧ bitsOf w 60 4 = 0x6 ∧ bitAt w 46 = false ∧ k + 2 ≤ 128) ∧
    (∃ (e : Fin 8192) (p : Pkt) (w f : Nat) (s : State),
        ParsesAt e.val p w s ∧ bitsOf w 60 4 = 0xA ∧ (f : Int) = (p.eng.cur : Int) + ((p.eng.reg (bitsOf w 54
          3)).toNat : Int) + (BitVec.ofNat 16 (bitsOf w 16 16)).toInt ∧ p.eng.cur ≤ f ∧ f < p.eng.fend) :=
  ⟨⟨128, parsing, 0 <<< 60, at5 (0 <<< 60), ⟨by decide +kernel, by decide +kernel, by decide +kernel,
    by decide +kernel, by decide +kernel, 0, ⟨0, 0, 0 <<< 60, 8, false⟩, by decide +kernel⟩, by decide +kernel⟩,
    ⟨128, parsing, 2 <<< 60 + 1 <<< 57 + 2 <<< 54 + 3 <<< 51, at5 (2 <<< 60 + 1 <<< 57 + 2 <<< 54 + 3 <<< 51),
      ⟨by decide +kernel, by decide +kernel, by decide +kernel, by decide +kernel, by decide +kernel, 0, ⟨0, 0, 2 <<<
      60 + 1 <<< 57 + 2 <<< 54 + 3 <<< 51, 8, false⟩, by decide +kernel⟩, by decide +kernel⟩,
    ⟨128, parsing, 1 <<< 60 + 7 <<< 57 + 84 <<< 40, _, _, at5 (1 <<< 60 + 7 <<< 57 + 84 <<< 40), ⟨by decide +kernel,
      by decide +kernel, by decide +kernel, by decide +kernel, by decide +kernel, 0, ⟨0, 0, 1 <<< 60 + 7 <<< 57 + 84
      <<< 40, 8, false⟩, by decide +kernel⟩, rfl, rfl, by decide +kernel⟩,
    ⟨128, parsing, 0xB <<< 60, at5 (0xB <<< 60), ⟨by decide +kernel, by decide +kernel, by decide +kernel,
      by decide +kernel, by decide +kernel, 0, ⟨0, 0, 0xB <<< 60, 8, false⟩, by decide +kernel⟩, by decide +kernel⟩,
    ⟨128, parsing, 0xC <<< 60 + 0xFF00 <<< 32, at5 (0xC <<< 60 + 0xFF00 <<< 32), ⟨by decide +kernel,
      by decide +kernel, by decide +kernel, by decide +kernel, by decide +kernel, 0, ⟨0, 0, 0xC <<< 60 + 0xFF00 <<<
      32, 8, false⟩, by decide +kernel⟩, by decide +kernel⟩,
    ⟨128, parsing, 3 <<< 60 + 1 <<< 47 + 3 <<< 54 + 2 <<< 44 + 0xFFFE <<< 16, 28, at5 (3 <<< 60 + 1 <<< 47 + 3 <<< 54
      + 2 <<< 44 + 0xFFFE <<< 16), ⟨by decide +kernel, by decide +kernel, by decide +kernel, by decide +kernel,
      by decide +kernel, 0, ⟨0, 0, 3 <<< 60 + 1 <<< 47 + 3 <<< 54 + 2 <<< 44 + 0xFFFE <<< 16, 8, false⟩,
      by decide +kernel⟩, by decide +kernel⟩,
    ⟨128, parsing, 4 <<< 60 + 9 <<< 32 + 20 <<< 16, at5 (4 <<< 60 + 9 <<< 32 + 20 <<< 16), ⟨by decide +kernel,
      by decide +kernel, by decide +kernel, by decide +kernel, by decide +kernel, 0, ⟨0, 0, 4 <<< 60 + 9 <<< 32 + 20
      <<< 16, 8, false⟩, by decide +kernel⟩, by decide +kernel⟩,
    ⟨128, parsing, 5 <<< 60 + 70 <<< 40 + 0 <<< 36 + 112 <<< 8, _, _, _, at5 (5 <<< 60 + 70 <<< 40 + 0 <<< 36 + 112
      <<< 8), ⟨by decide +kernel, by decide +kernel, by decide +kernel, by decide +kernel, by decide +kernel, 0, ⟨0,
      0, 5 <<< 60 + 70 <<< 40 + 0 <<< 36 + 112 <<< 8, 8, false⟩, by decide +kernel⟩, rfl, rfl, rfl,
      by decide +kernel⟩,
    ⟨128, parsing, 6 <<< 60 + 2 <<< 54 + 126 <<< 8, _, at5 (6 <<< 60 + 2 <<< 54 + 126 <<< 8), ⟨by decide +kernel,
      by decide +kernel, by decide +kernel, by decide +kernel, by decide +kernel, 0, ⟨0, 0, 6 <<< 60 + 2 <<< 54 + 126
      <<< 8, 8, false⟩, by decide +kernel⟩, rfl, by decide +kernel⟩,
    ⟨128, parsing, 0xA <<< 60 + 2 <<< 54 + 40 <<< 16, 57, at5 (0xA <<< 60 + 2 <<< 54 + 40 <<< 16),
      ⟨by decide +kernel, by decide +kernel, by decide +kernel, by decide +kernel, by decide +kernel, 0, ⟨0, 0, 0xA
      <<< 60 + 2 <<< 54 + 40 <<< 16, 8, false⟩, by decide +kernel⟩, by decide +kernel⟩⟩

/-- The hypotheses of ParsesStartBranchAndEnd can be met, clause by clause. -/
theorem test_ParsesStartBranchAndEnd_met :
    (∃ (pipe : Fin 64) (p : Pkt) (e n : Nat) (v w : Ver) (s : State),
        s.gen.phase ≠ .isolate ∧ s.gen.phase ≠ .park ∧ s.ing.pkts.find? (fun p => p.stage == .dispatched && 4 *
          p.slice + p.pipe == pipe.val) = some p ∧ s.nextFree pipe.val = some e ∧ s.verIdx (tkey tEntry (32 * p.slice
          + entryOf p.arr.port)) (p.ream % 16) = some (n, v) ∧ v.bad = false ∧ bitAt v.img 32 = true ∧ s.verAt (tkey
          tStore (8192 * p.slice + bitsOf v.img 0 13)) (p.ream % 16) = some w) ∧
    (∃ (e : Fin 8192) (p : Pkt) (s : State),
        s.gen.phase ≠ .isolate ∧ s.gen.phase ≠ .park ∧ s.ing.pkts.find? (inEngine e.val) = some p ∧ p.eng.steps = 96)
          ∧
    (∃ (pipe : Fin 64) (p : Pkt) (k : Nat) (s : State),
        s.gen.phase ≠ .isolate ∧ s.gen.phase ≠ .park ∧ s.ing.pkts.find? (fun p => 4 * p.slice + p.pipe == pipe.val &&
          (match p.stage with | .dispatched | .parsing _ | .ended _ => true | _ => false)) = some p ∧ p.stage =
          .ended k) ∧
    (∃ (e : Fin 8192) (p : Pkt) (w : Nat) (s : State),
        ParsesAt e.val p w s ∧ bitsOf w 60 4 = 0x7) ∧
    (∃ (e : Fin 8192) (p : Pkt) (w : Nat) (s : State),
        ParsesAt e.val p w s ∧ bitsOf w 60 4 = 0x8) ∧
    (∃ (e : Fin 8192) (p : Pkt) (w i n : Nat) (s : State),
        ParsesAt e.val p w s ∧ i = p.eng.cur + bitsOf w 48 8 ∧ n = (if bitAt w 56 then 1 else 2) ∧ bitsOf w 60 4 =
          0xD ∧ i + n ≤ p.eng.fend ∧ i + n ≤ 256) ∧
    (∃ (e : Fin 8192) (p : Pkt) (w : Nat) (s : State),
        ParsesAt e.val p w s ∧ bitsOf w 60 4 = 0xE) ∧
    (∃ (e : Fin 8192) (p : Pkt) (w : Nat) (s : State),
        ParsesAt e.val p w s ∧ bitsOf w 60 4 = 0x9 ∧ condHolds (bitsOf w 48 3) (p.eng.reg (bitsOf w 54 3)) (if bitAt
          w 47 then BitVec.ofNat 16 (bitsOf w 16 16) else p.eng.reg (bitsOf w 51 3)) = false) ∧
    (∃ (e : Fin 8192) (p : Pkt) (w c : Nat) (s : State),
        ParsesAt e.val p w s ∧ c = bitsOf w 32 8 ∧ bitsOf w 60 4 = 0xF ∧ bitsOf w 46 2 = 0 ∧ c < 0xFE) ∧
    (∃ (e : Fin 8192) (p : Pkt) (w : Nat) (s : State),
        ParsesAt e.val p w s ∧ bitsOf w 60 4 = 0xF ∧ bitsOf w 46 2 = 0 ∧ 0xFE ≤ bitsOf w 32 8) ∧
    (∃ (e : Fin 8192) (p : Pkt) (w c : Nat) (x : Instr) (s : State),
        ParsesAt e.val p w s ∧ c = (if bitsOf w 0 6 = 0 then 0x3F else bitsOf w 0 6) ∧ s.fld PRS_MAL_ACT_ACTION (ixNI
          p.slice c) = 2 ∧ (x = .chk e false ∧ bitsOf w 60 4 = 0x9 ∧ condHolds (bitsOf w 48 3) (p.eng.reg (bitsOf w
          54 3)) (if bitAt w 47 then BitVec.ofNat 16 (bitsOf w 16 16) else p.eng.reg (bitsOf w 51 3)) = true ∨ x =
          .trim e false ∧ bitsOf w 60 4 = 0xA ∧ ((p.eng.reg (bitsOf w 54 3)).toNat + (BitVec.ofNat 16 (bitsOf w 16
          16)).toInt < 0 ∨ (p.eng.fend : Int) < (p.eng.cur : Int) + ((p.eng.reg (bitsOf w 54 3)).toNat : Int) +
          (BitVec.ofNat 16 (bitsOf w 16 16)).toInt) ∨ x = .done e false ∧ bitsOf w 60 4 = 0xF ∧ bitsOf w 46 2 = 2)) ∧
    (∃ (e : Fin 8192) (p : Pkt) (w c : Nat) (x : Instr) (s : State),
        ParsesAt e.val p w s ∧ c = (if bitsOf w 0 6 = 0 then 0x3F else bitsOf w 0 6) ∧ s.fld PRS_MAL_ACT_ACTION (ixNI
          p.slice c) = 2 ∧ (x = .chk e false ∧ bitsOf w 60 4 = 0x9 ∧ condHolds (bitsOf w 48 3) (p.eng.reg (bitsOf w
          54 3)) (if bitAt w 47 then BitVec.ofNat 16 (bitsOf w 16 16) else p.eng.reg (bitsOf w 51 3)) = true ∨ x =
          .trim e false ∧ bitsOf w 60 4 = 0xA ∧ ((p.eng.reg (bitsOf w 54 3)).toNat + (BitVec.ofNat 16 (bitsOf w 16
          16)).toInt < 0 ∨ (p.eng.fend : Int) < (p.eng.cur : Int) + ((p.eng.reg (bitsOf w 54 3)).toNat : Int) +
          (BitVec.ofNat 16 (bitsOf w 16 16)).toInt) ∨ x = .done e false ∧ bitsOf w 60 4 = 0xF ∧ bitsOf w 46 2 = 2)) ∧
    (∃ (e : Fin 8192) (p : Pkt) (w c : Nat) (x : Instr) (s : State),
        ParsesAt e.val p w s ∧ c = (if bitsOf w 0 6 = 0 then 0x3F else bitsOf w 0 6) ∧ s.fld PRS_MAL_ACT_ACTION (ixNI
          p.slice c) = 2 ∧ (x = .chk e false ∧ bitsOf w 60 4 = 0x9 ∧ condHolds (bitsOf w 48 3) (p.eng.reg (bitsOf w
          54 3)) (if bitAt w 47 then BitVec.ofNat 16 (bitsOf w 16 16) else p.eng.reg (bitsOf w 51 3)) = true ∨ x =
          .trim e false ∧ bitsOf w 60 4 = 0xA ∧ ((p.eng.reg (bitsOf w 54 3)).toNat + (BitVec.ofNat 16 (bitsOf w 16
          16)).toInt < 0 ∨ (p.eng.fend : Int) < (p.eng.cur : Int) + ((p.eng.reg (bitsOf w 54 3)).toNat : Int) +
          (BitVec.ofNat 16 (bitsOf w 16 16)).toInt) ∨ x = .done e false ∧ bitsOf w 60 4 = 0xF ∧ bitsOf w 46 2 = 2)) :=
  ⟨⟨1, packet, 128, 0, ⟨0, 0, 5 + 77 <<< 16 + 1 <<< 32, 8, false⟩, ⟨0, 0, 0, 8, false⟩, started, by decide +kernel⟩,
    ⟨128, { parsing with eng := { packet.eng with steps := 96 } }, holding
      { parsing with eng := { packet.eng with steps := 96 } } live, by decide +kernel⟩,
    ⟨1, { packet with stage := .ended 128 }, 128, holding { packet with stage := .ended 128 } live,
      by decide +kernel⟩,
    ⟨128, parsing, 7 <<< 60 + 2 <<< 48 + 2 <<< 54 + 3 <<< 51 + 99, at5 (7 <<< 60 + 2 <<< 48 + 2 <<< 54 + 3 <<< 51 +
      99), ⟨by decide +kernel, by decide +kernel, by decide +kernel, by decide +kernel, by decide +kernel, 0, ⟨0, 0,
      7 <<< 60 + 2 <<< 48 + 2 <<< 54 + 3 <<< 51 + 99, 8, false⟩, by decide +kernel⟩, by decide +kernel⟩,
    ⟨128, parsing, 8 <<< 60 + 1 <<< 47 + 99, at5 (8 <<< 60 + 1 <<< 47 + 99), ⟨by decide +kernel, by decide +kernel,
      by decide +kernel, by decide +kernel, by decide +kernel, 0, ⟨0, 0, 8 <<< 60 + 1 <<< 47 + 99, 8, false⟩,
      by decide +kernel⟩, by decide +kernel⟩,
    ⟨128, parsing, 0xD <<< 60 + 1 <<< 56 + 85 <<< 48 + 99, _, _, at5 (0xD <<< 60 + 1 <<< 56 + 85 <<< 48 + 99),
      ⟨by decide +kernel, by decide +kernel, by decide +kernel, by decide +kernel, by decide +kernel, 0, ⟨0, 0, 0xD
      <<< 60 + 1 <<< 56 + 85 <<< 48 + 99, 8, false⟩, by decide +kernel⟩, rfl, rfl, by decide +kernel⟩,
    ⟨128, parsing, 0xE <<< 60 + 1 <<< 57 + 99, at5 (0xE <<< 60 + 1 <<< 57 + 99), ⟨by decide +kernel,
      by decide +kernel, by decide +kernel, by decide +kernel, by decide +kernel, 0, ⟨0, 0, 0xE <<< 60 + 1 <<< 57 +
      99, 8, false⟩, by decide +kernel⟩, by decide +kernel⟩,
    ⟨128, parsing, 9 <<< 60 + 2 <<< 54 + 3 <<< 51, at5 (9 <<< 60 + 2 <<< 54 + 3 <<< 51), ⟨by decide +kernel,
      by decide +kernel, by decide +kernel, by decide +kernel, by decide +kernel, 0, ⟨0, 0, 9 <<< 60 + 2 <<< 54 + 3
      <<< 51, 8, false⟩, by decide +kernel⟩, by decide +kernel⟩,
    ⟨128, parsing, 0xF <<< 60 + 0xFD <<< 32, _, at5 (0xF <<< 60 + 0xFD <<< 32), ⟨by decide +kernel,
      by decide +kernel, by decide +kernel, by decide +kernel, by decide +kernel, 0, ⟨0, 0, 0xF <<< 60 + 0xFD <<< 32,
      8, false⟩, by decide +kernel⟩, rfl, by decide +kernel⟩,
    ⟨128, parsing, 0xF <<< 60 + 0xFE <<< 32, at5 (0xF <<< 60 + 0xFE <<< 32), ⟨by decide +kernel, by decide +kernel,
      by decide +kernel, by decide +kernel, by decide +kernel, 0, ⟨0, 0, 0xF <<< 60 + 0xFE <<< 32, 8, false⟩,
      by decide +kernel⟩, by decide +kernel⟩,
    ⟨128, parsing, 9 <<< 60 + 1 <<< 48 + 2 <<< 54 + 3 <<< 51, _, .chk 128 false, (at5 (9 <<< 60 + 1 <<< 48 + 2 <<< 54
      + 3 <<< 51)).set PRS_MAL_ACT_ACTION (ixNI 0 0x3F) 2, ⟨by decide +kernel, by decide +kernel, by decide +kernel,
      by decide +kernel, by decide +kernel, 0, ⟨0, 0, 9 <<< 60 + 1 <<< 48 + 2 <<< 54 + 3 <<< 51, 8, false⟩,
      by decide +kernel⟩, rfl, by decide +kernel⟩,
    ⟨128, parsing, 0xA <<< 60 + 2 <<< 54 + 0xFF00 <<< 16 + 1, _, .trim 128 false, (at5 (0xA <<< 60 + 2 <<< 54 +
      0xFF00 <<< 16 + 1)).set PRS_MAL_ACT_ACTION (ixNI 0 1) 2, ⟨by decide +kernel, by decide +kernel,
      by decide +kernel, by decide +kernel, by decide +kernel, 0, ⟨0, 0, 0xA <<< 60 + 2 <<< 54 + 0xFF00 <<< 16 + 1,
      8, false⟩, by decide +kernel⟩, rfl, by decide +kernel⟩,
    ⟨128, parsing, 0xF <<< 60 + 2 <<< 46 + 0x3F, _, .done 128 false, (at5 (0xF <<< 60 + 2 <<< 46 + 0x3F)).set
      PRS_MAL_ACT_ACTION (ixNI 0 0x3F) 2, ⟨by decide +kernel, by decide +kernel, by decide +kernel,
      by decide +kernel, by decide +kernel, 0, ⟨0, 0, 0xF <<< 60 + 2 <<< 46 + 0x3F, 8, false⟩, by decide +kernel⟩,
      rfl, by decide +kernel⟩⟩

/-! # Lookups and the associative search -/

/-- The packet once its parse has ended, and with one lookup open. -/
def parsed : Pkt := { packet with stage := .parsed, fin := some (.normal 9), eng := { packet.eng with steps := 4 } }
def looking (r : LkReq) : Pkt := { packet with stage := .lookups, open_ := [r] }

/-- The packet with every lookup answered. -/
def decided (bad : Bool) : Pkt :=
  { packet with stage := .lookups, phaseB := true, bad := bad, ans := [⟨0, true, .hit (2047 * 512 + 287) 0 false⟩] }

/-- Lookup requests to exact match, routes and associative search. -/
def emReq : LkReq := ⟨5, 1, 2, true, [1, 2, 3, 4, 5, 6, 7, 8]⟩
def routeReq : LkReq := ⟨5, 2, 0, true, [0, 0, 10, 1, 1, 1]⟩
def asaReq : LkReq := ⟨5, 3, 0, true, [0, 0, 10, 1, 1, 1]⟩

/-- A profile for the packet's parse. -/
def profiled : State :=
  putVer (tkey tProfile 33) (1 <<< 384) 64 (putVer (tkey tProfSel 9) (256 + 33) 8 (holding parsed live))

/-- Exact-match slots. -/
def slots (es : List (Nat × EmSlot)) (s : State) : State := { s with tab := { s.tab with em := es } }

/-- A learn request waits. -/
def learning : State := { live.set LKP_LEARN_CTRL_LIMIT ix0 1000 with tab := { live.tab with fifo := [⟨77, 3⟩] } }

/-- A packet for a multicast group at the replicator, and the group's record. -/
def copied : ReplPkt := { pkt := { forwarded with dest := .group 7 false }, cells := [], holder := 17 }
def copying (img : Nat) : State := putVer (tkey tMcast 7) img 8 { live with replQ := [copied] }

/-- Table words, changed. -/
def tables (f : TablesSt → TablesSt) (s : State) : State := { s with tab := f s.tab }

/-- Associative search, changed. -/
def assoc (f : AsaSt → AsaSt) (s : State) : State := { s with asa := f s.asa }

/-- An entry at an index. -/
def entry (i pr : Nat) : AsaEnt := { asaOfImage i 0 0 with valid := true, prio := pr, act0 := 11, act1 := 12, idx := i, loc := i }

/-- Bank 3 runs in group 5, with entries or none; search 3 has begun there. -/
def banked (es : List AsaEnt) : State :=
  assoc (fun a => { a with ents := es })
    (((live.set ASA_BANK_CFG_RUN (ixI 3) 1).set ASA_BANK_CFG_GROUP (ixI 3) 5).set ASA_BANK_CFG_WIDTH (ixI 3) 0)
def searching (es : List AsaEnt) : State := run (.start .pf0 3 (vOf ASA_SRCH_CMD_GROUP 5)) (banked es)

/-- A search that stands at a match, with the original of a relocated entry still there. -/
def matched : State := run (.asaSearchStep 3 []) (searching [{ entry (3 * 8192 + 5) 9 with reloc := true }])

/-- The hypotheses of LookupsAreAnswered can be met, clause by clause. -/
theorem test_LookupsAreAnswered_met :
    (∃ (pipe : Fin 64) (p : Pkt) (sel img : Nat) (s : State),
        s.gen.phase ≠ .isolate ∧ s.gen.phase ≠ .park ∧ s.ing.pkts.find? (fun p => ofPipe pipe.val p && p.stage ==
          .parsed) = some p ∧ s.readAt tProfSel (256 * s.fld LKP_PORT_PSET (ixI p.arr.port) + bitsOf p.status 0 8)
          (p.ream % 16) = (sel, false) ∧ bitAt sel 8 = true ∧ s.readAt tProfile (bitsOf sel 0 8) (p.ream % 16) =
          (img, false) ∧ bitAt (profCtl img) 0 = true) ∧
    (∃ (pipe : Fin 64) (d : Fin 6) (p : Pkt) (r : LkReq) (i k key res data b b' : Nat) (l h : Bool) (s : State),
        s.gen.phase ≠ .isolate ∧ s.gen.phase ≠ .park ∧ s.ing.pkts.find? (awaits pipe.val d.val 1) = some p ∧
          p.open_.find? (fun r => r.d == d.val) = some r ∧ s.mayLearn p r = false ∧ s.emFind r.param (beNat r.key)
          (p.ream % 16) = some (i, .entry k key res data l h b b')) ∧
    (∃ (pipe : Fin 64) (d : Fin 6) (p : Pkt) (r : LkReq) (s : State),
        s.gen.phase ≠ .isolate ∧ s.gen.phase ≠ .park ∧ s.ing.pkts.find? (awaits pipe.val d.val 1) = some p ∧
          p.open_.find? (fun r => r.d == d.val) = some r ∧ s.mayLearn p r = false ∧ s.emFind r.param (beNat r.key)
          (p.ream % 16) = none ∧ s.poisoned r.param (beNat r.key) = false) ∧
    (∃ (pipe : Fin 64) (d : Fin 6) (p : Pkt) (r : LkReq) (x : RouteHit) (s : State),
        s.gen.phase ≠ .isolate ∧ s.gen.phase ≠ .park ∧ s.ing.pkts.find? (awaits pipe.val d.val 2) = some p ∧
          p.open_.find? (fun r => r.d == d.val) = some r ∧ s.bestRoute (r.param == 1) (beNat (bytesAt r.key 0 2))
          (beNat (r.key.drop 2)) (p.ream % 16) = some x ∧ x.bad = false) ∧
    (∃ (pipe : Fin 64) (d : Fin 6) (p : Pkt) (r : LkReq) (s : State),
        s.gen.phase ≠ .isolate ∧ s.gen.phase ≠ .park ∧ s.ing.pkts.find? (awaits pipe.val d.val 3) = some p ∧
          p.open_.find? (fun r => r.d == d.val) = some r) :=
  ⟨⟨1, parsed, 256 + 33, 1 <<< 384, profiled, by decide +kernel⟩,
    ⟨1, 5, looking emReq, emReq, 9, 2, beNat emReq.key, 0x123, 7, 0, 0, false, false, slots [(9, .entry 2 (beNat
      emReq.key) 0x123 7 false false 0 0)] (holding (looking emReq) live), by decide +kernel⟩,
    ⟨1, 5, looking emReq, emReq, holding (looking emReq) live, by decide +kernel⟩,
    ⟨1, 5, looking routeReq, routeReq, ⟨8, 4, 0x77, false⟩, putVer (tkey tRoute 4) (1 <<< 124 + 8 <<< 88 + 0x77 <<<
      64 + 0x0A000000) 16 (holding (looking routeReq) live), by decide +kernel⟩,
    ⟨1, 5, looking asaReq, asaReq, holding (looking asaReq) live, by decide +kernel⟩⟩

/-- The hypotheses of PacketsAreForwardedAndReplicated can be met, clause by clause. -/
theorem test_PacketsAreForwardedAndReplicated_met :
    (∃ (pipe : Fin 64) (p : Pkt) (i : Nat) (l : Bool) (s : State),
        s.gen.phase ≠ .isolate ∧ s.gen.phase ≠ .park ∧ s.ing.pkts.find? (fun p => ofPipe pipe.val p && p.stage ==
          .lookups && p.phaseB && p.open_.isEmpty) = some p ∧ p.bad = false ∧ asaActs (sortAns p.ans) = [] ∧ (sortAns
          p.ans).findSome? LkAns.offer = some (i, l) ∧ (∀ a ∈ sortAns p.ans, a.res ≠ .groupError) ∧ i < 2 ^ 21 ∧ i %
          512 < 288) ∧
    (∃ (pipe : Fin 64) (p : Pkt) (s : State),
        s.gen.phase ≠ .isolate ∧ s.gen.phase ≠ .park ∧ s.domUp domQC = true ∧ s.ing.pkts.find? (fun p => ofPipe
          pipe.val p && p.stage == .lookups && p.phaseB && p.open_.isEmpty) = some p ∧ p.bad = true ∧ asaActs
          (sortAns p.ans) = []) ∧
    (∃ (r : ReplPkt) (rest : List ReplPkt) (g img : Nat) (f : Bool) (s : State),
        s.gen.phase ≠ .isolate ∧ s.gen.phase ≠ .park ∧ s.replQ = r :: rest ∧ s.reachable domFL = true ∧ s.couch.st =
          .up ∧ r.pkt.dest = .group g f ∧ s.readAt tMcast g (r.pkt.ream % 16) = (img, false) ∧ bitAt img 36 = true ∧
          bitsOf img 0 18 + (bitsOf img 18 18 + 1) ≤ 262144 ∧ bitsOf img 18 18 + 1 ≤ 254) ∧
    (∃ (r : ReplPkt) (rest : List ReplPkt) (g img : Nat) (f : Bool) (s : State),
        s.gen.phase ≠ .isolate ∧ s.gen.phase ≠ .park ∧ s.replQ = r :: rest ∧ s.reachable domFL = true ∧ s.couch.st =
          .up ∧ r.pkt.dest = .group g f ∧ s.readAt tMcast g (r.pkt.ream % 16) = (img, false) ∧ bitAt img 36 = false ∧
          s.domUp domQC = true) :=
  ⟨⟨1, decided false, 2047 * 512 + 287, false, holding (decided false) live, by decide +kernel⟩,
    ⟨1, decided true, holding (decided true) live, by decide +kernel⟩,
    ⟨copied, [], 7, 1 <<< 36 + 253 <<< 18, false, copying (1 <<< 36 + 253 <<< 18), by decide +kernel⟩,
    ⟨copied, [], 7, 0, false, copying 0, by decide +kernel⟩⟩

/-- The hypotheses of TablesLearnAndMend can be met, clause by clause. -/
theorem test_TablesLearnAndMend_met :
    (∃ (q : LearnReq) (rest : List LearnReq) (i : Nat) (s : State),
        s.tab.fifo = q :: rest ∧ s.gen.phase ≠ .park ∧ s.learns = true ∧ s.emFind 1 q.key s.newTag = none ∧
          s.placeLearn q.key = some (i, []) ∧ s.learnedCount < min 4194304 (s.fld LKP_LEARN_CTRL_LIMIT ix0) ∧
          (poolSlots ≤ i ∨ (s.liveHeld tEm 0).1 + 1 ≤ poolSlots - s.headroom tEm)) ∧
    (∃ (slot : BitVec 24) (k q r d b b' : Nat) (h : Bool) (s : State),
        tblFind slot.toNat s.tab.em = some (.entry k q r d true h b b') ∧ s.fld LKP_LEARN_CTRL_AGE_PERIOD ix0 ≠ 0 ∧
          s.gen.phase ≠ .park ∧ s.learns = true) ∧
    (∃ (req : Req) (s u : State),
        u = (s.arrived req .lkpFlush ix0).flushRw .lkp 0 ∧ s.arrives req .lkpFlush ix0 = true ∧ u.tab.flush = none ∧
          u.learns = true) ∧
    (∃ (f : FlushSt) (s : State),
        s.tab.flush = some f ∧ s.learns = true ∧ s.gen.phase ≠ .park) ∧
    (∃ (s : State),
        s.gen.phase ≠ .park) ∧
    (∃ (i : BitVec 32) (n : Nat) (s : State),
        i.toNat < 1048576 ∧ n < (s.tab.at_ (tkey tNextHop i.toNat)).length ∧ s.gen.phase ≠ .park) ∧
    (∃ (n : BitVec 24) (s : State),
        n.toNat ∈ s.tab.badTrie ∧ s.domUp domFL = true ∧ s.gen.phase ≠ .park) ∧
    (∃ (s : State),
        s.gen.phase ≠ .park) ∧
    (∃ (req : Req) (v : W64) (s u : State),
        u = (s.arrived req .lkpPoisonClr ix0).flushRw .lkp 0 ∧ s.arrives req .lkpPoisonClr ix0 = true ∧ tblFind
          (LKP_POISON_CLR_BLOCK.get v) u.tab.stale = none ∧ u.digest (LKP_POISON_CLR_BLOCK.get v) = u.rd
          .lkpPoisonExp ix0) :=
  ⟨⟨⟨77, 3⟩, [], 5817456, learning, by decide +kernel⟩,
    ⟨0xFFFFFF, 2, 5, 3, 0, 0, 0, true, slots [(0xFFFFFF, .entry 2 5 3 0 true true 0 0)] (live.set
      LKP_LEARN_CTRL_AGE_PERIOD ix0 5), by decide +kernel⟩,
    ⟨.pf0, live, _, rfl, by decide +kernel⟩,
    ⟨⟨none, none, false, []⟩, tables (fun t => { t with flush := some ⟨none, none, false, []⟩ }) live,
      by decide +kernel⟩,
    ⟨live, by decide +kernel⟩,
    ⟨0xFFFFF, 0, putVer (tkey tNextHop 0xFFFFF) 1 16 live, by decide +kernel⟩,
    ⟨0xFFFFFF, tables (fun t => { t with badTrie := [0xFFFFFF] }) live, by decide +kernel⟩,
    ⟨live, by decide +kernel⟩,
    ⟨.pf0, vOf LKP_POISON_CLR_BLOCK 4, slots [(9, .poison 4)] live, _, rfl, by decide +kernel⟩⟩

/-- The hypotheses of AsaRunsAndSearches can be met, clause by clause. -/
theorem test_AsaRunsAndSearches_met :
    (∃ (req : Req) (k : Fin 128) (v : W64) (s u : State),
        u = (s.arrived req .asaBankCfg (ixI k.val)).flushRw .asa 0 ∧ s.arrives req .asaBankCfg (ixI k.val) = true ∧
          u.bankRuns k.val = false ∧ ASA_BANK_CFG_WIDTH.get v = u.fld ASA_BANK_CFG_WIDTH (ixI k.val) ∧ (∀ j ∈
          u.groupBanks (ASA_BANK_CFG_GROUP.get v), u.fld ASA_BANK_CFG_WIDTH (ixI j) = ASA_BANK_CFG_WIDTH.get v)) ∧
    (∃ (req : Req) (k : Fin 128) (s u : State),
        u = (s.arrived req .asaBankCfg (ixI k.val)).flushRw .asa 0 ∧ s.arrives req .asaBankCfg (ixI k.val) = true ∧
          u.bankRuns k.val = true ∧ u.bankEntries k.val = 0 ∧ u.bankHeld k.val = 0) ∧
    (∃ (req : Req) (c : Fin 4) (s u : State),
        u = (s.arrived req .asaSrchCmd (ixI c.val)).flushRw .asa 0 ∧ s.arrives req .asaSrchCmd (ixI c.val) = true ∧
          u.srchState c.val ≠ srchBusy) ∧
    (∃ (req : Req) (c : Fin 4) (s u : State),
        u = (s.arrived req .asaSrchCmd (ixI c.val)).flushRw .asa 0 ∧ s.arrives req .asaSrchCmd (ixI c.val) = true ∧
          u.srchState c.val = srchActive) ∧
    (∃ (req : Req) (c : Fin 4) (s u : State),
        u = (s.arrived req .asaSrchCmd (ixI c.val)).flushRw .asa 0 ∧ s.arrives req .asaSrchCmd (ixI c.val) = true ∧
          u.srchState c.val ≠ srchBusy) ∧
    (∃ (c : Fin 4) (pin : Nat) (x : AsaEnt) (rest : List AsaEnt) (s : State),
        (s.actx c.val).pin = some pin ∧ s.srchState c.val = srchBusy ∧ (s.srchSet c.val pin).filter (s.afterToken
          c.val) = x :: rest ∧ (∀ y ∈ s.wordsRead x, y.bad = false) ∧ s.gen.phase ≠ .park) ∧
    (∃ (c : Fin 4) (pin : Nat) (s : State),
        (s.actx c.val).pin = some pin ∧ s.srchState c.val = srchBusy ∧ (s.srchSet c.val pin).filter (s.afterToken
          c.val) = [] ∧ s.gen.phase ≠ .park) ∧
    (∃ (c : Fin 4) (s : State),
        (s.actx c.val).pin.isSome = true ∧ s.pinWanted c.val = true ∧ s.domUp domFL = true ∧ s.gen.phase ≠ .park) ∧
    (∃ (u : BitVec 20) (e : AsaEnt) (s : State),
        s.asa.ents.find? (fun e => e.loc == u.toNat && e.reloc) = some e ∧ s.drainedBefore e.retired = true ∧ (∀ c <
          4, s.srchState c ≠ srchBusy ∧ s.srchState c ≠ srchActive) ∧ s.gen.phase ≠ .park) :=
  ⟨⟨.pf0, 127, vOf ASA_BANK_CFG_GROUP 5 ||| vOf ASA_BANK_CFG_WIDTH 1, live, _, rfl, by decide +kernel⟩,
    ⟨.pf0, 3, banked [], _, rfl, by decide +kernel⟩,
    ⟨.pf0, 3, banked [], _, rfl, by decide +kernel⟩,
    ⟨.pf0, 3, matched, _, rfl, by decide +kernel⟩,
    ⟨.pf0, 3, matched, _, rfl, by decide +kernel⟩,
    ⟨3, 0, entry (3 * 8192 + 5) 9, [], searching [entry (3 * 8192 + 5) 9], by decide +kernel⟩,
    ⟨3, 0, searching [], by decide +kernel⟩,
    ⟨3, matched, by decide +kernel⟩,
    ⟨3 * 8192 + 5, { entry (3 * 8192 + 5) 9 with reloc := true }, banked
      [{ entry (3 * 8192 + 5) 9 with reloc := true }], by decide +kernel⟩⟩

/-! # Reams -/

/-- Commit ring 2 runs, with nine descriptors posted. -/
def committing : State := ringOf 12290 (fun x => { x with state := .run, hostIdx := 9 }) hosted

/-- A change descriptor for a table's index. -/
def change (t i len : Nat) : ChgDesc :=
  { data := 0, table := BitVec.ofNat 8 t, inline := false, allSlices := false, index := BitVec.ofNat 32 i,
    len := BitVec.ofNat 16 len, index2 := 0, image := List.replicate len 0x25 }

/-- The commit unit, changed. -/
def commit (f : CmtSt → CmtSt) (s : State) : State := { s with cmt := f s.cmt }

/-- A COMMIT that waits. -/
def wait : CommitWait := ⟨12290, 1, false, false, 0, false, none⟩

/-- The hypotheses of ChangesAreStagedOrFailTheReam can be met, clause by clause. -/
theorem test_ChangesAreStagedOrFailTheReam_met :
    (∃ (r : Fin 1024) (d : ChgDesc) (es : List Edit) (n : Nat) (s : State),
        s.judgeWrite d = .ok (es, n) ∧ s.takes (commitRing r) = true ∧ s.gen.phase ≠ .park ∧ (∀ x ∈ s.cmt.rest,
          x.ring ≠ commitRing r) ∧ s.cmt.fail = none ∧ s.cmt.changes + n ≤ 65536) ∧
    (∃ (r : Fin 1024) (d : ChgDesc) (es : List Edit) (n : Nat) (s : State),
        s.judgeRetire d = .ok (es, n) ∧ s.takes (commitRing r) = true ∧ s.gen.phase ≠ .park ∧ (∀ x ∈ s.cmt.rest,
          x.ring ≠ commitRing r) ∧ s.cmt.fail = none ∧ s.cmt.changes + n ≤ 65536) ∧
    (∃ (r : Fin 1024) (op : BitVec 8) (s : State),
        s.takes (commitRing r) = true ∧ (∀ x ∈ s.cmt.rest, x.ring ≠ commitRing r) ∧ s.cmt.fail = none ∧ s.gen.phase ≠
          .park ∧ (op = 0 ∨ 6 ≤ op.toNat) ∧ op ≠ 0xF) ∧
    (∃ (r : Fin 1024) (d : ChgDesc) (s : State),
        s.takes (commitRing r) = true ∧ (∀ x ∈ s.cmt.rest, x.ring ≠ commitRing r) ∧ s.cmt.fail = none ∧ s.gen.phase ≠
          .park ∧ d.table = 0x30) :=
  ⟨⟨2, change 5 7 16, [.put 21474836487 49374304219900875090764158725393818917 16 false], 1, committing, rfl,
    by decide +kernel⟩,
    ⟨2, change 5 7 16, [.retire 21474836487], 1, committing, rfl, by decide +kernel⟩,
    ⟨2, 0xFF, committing, by decide +kernel⟩,
    ⟨2, change 0x30 0 0, committing, by decide +kernel⟩⟩

/-- The hypotheses of ReamsCommitDrainAndSettle can be met, clause by clause. -/
theorem test_ReamsCommitDrainAndSettle_met :
    (∃ (r : Fin 1024) (number : BitVec 32) (numberEn : Bool) (n : Nat) (s : State),
        s.takes (commitRing r) = true ∧ (∀ x ∈ s.cmt.rest, x.ring ≠ commitRing r) ∧ s.cmt.fail = none ∧ s.gen.phase ≠
          .park ∧ s.commitNumber number.toNat numberEn = some n) ∧
    (∃ (w : CommitWait) (s : State),
        s.cmt.wait = some w ∧ s.commitClear w.number = true ∧ s.domUp domFC = true ∧ s.domUp domFL = true ∧
          s.gen.phase ≠ .park) ∧
    (∃ (r : Nat) (s : State),
        s.cmt.ring = some r ∧ s.cmt.wait = none ∧ s.covered r = 0 ∧ s.domUp domFC = true ∧ s.gen.phase ≠ .park) ∧
    (∃ (w : CommitWait) (s : State),
        s.cmt.wait = some w ∧ w.warned = false ∧ w.ended = none ∧ s.domUp domFC = true ∧ s.gen.phase ≠ .park) ∧
    (∃ (r r' : Nat) (rest : List Nat) (s : State),
        s.cmt.undrained = r :: r' :: rest ∧ s.reamInUse r = false ∧ s.gen.phase ≠ .park) ∧
    (∃ (r : Nat) (rest : List Nat) (s : State),
        s.cmt.unsettled = r :: rest ∧ (s.cmt.undrained.head? = some r ∨ r ∉ s.cmt.undrained) ∧ s.domUp domFC = true ∧
          s.domUp domFL = true ∧ s.gen.phase ≠ .park) ∧
    (∃ (req : Req) (s u : State),
        u = s.arrived req .cmtRdCmd ix0 ∧ s.arrives req .cmtRdCmd ix0 = true ∧ u.cmt.rd = none) ∧
    (∃ (x : Option Nat) (tb i : Nat) (raw : Bool) (s : State),
        x = s.readTable tb i raw (s.free.toNat % 2) ∧ s.cmt.rd = some (tb, i, raw) ∧ s.gen.phase ≠ .park) :=
  ⟨⟨2, 0, false, 1, committing, by decide +kernel⟩,
    ⟨wait, commit (fun c => { c with wait := some wait }) live, by decide +kernel⟩,
    ⟨12290, commit (fun c => { c with ring := some 12290 }) live, by decide +kernel⟩,
    ⟨wait, commit (fun c => { c with wait := some wait }) live, by decide +kernel⟩,
    ⟨0, 1, [], commit (fun c => { c with newest := 1, undrained := [0, 1] }) live, by decide +kernel⟩,
    ⟨1, [], commit (fun c => { c with newest := 1, undrained := [1], unsettled := [1] }) live, by decide +kernel⟩,
    ⟨.pf0, live, _, rfl, by decide +kernel⟩,
    ⟨_, 5, 7, true, commit (fun c => { c with rd := some (5, 7, true) }) (live.set CMT_RD_CMD_BUSY ix0 1), rfl,
      by decide +kernel⟩⟩

/-! # Buffers, memory and scheduling -/

/-- Buffers for the requesters of these tests; QSC runs, with one block of VOQs. -/
def buffered : State :=
  ((((live.set BPM_REQ_CFG_GUAR (ixI 3) 1000).set BPM_REQ_CFG_GUAR (ixI 16) 1000).set BPM_REQ_CFG_GUAR (ixI 20)
    1000).set QSC_CTRL_VOQ_BLOCKS ix0 1).set QSC_CTRL_RUN ix0 1

/-- Buffer 5, busy with one reference of requester 3. -/
def busy : Buf := { cachedBuf 3 with busy := true, count := 1, holders := holderBit 3, chain := 1 }

/-- An admission profile with room. -/
def roomy (f : Nat) (s : State) : State :=
  (((s.set ADM_PROF1_MAX_BYTES (ixI f) 100000).set ADM_PROF0_MIN_CELLS (ixI f) 1000).set ADM_PROF2_DEEP_MAX (ixI f)
    100).set ADM_PROF2_DEEP_ALPHA (ixI f) 5

/-- A packet at admission. -/
def admitted (x : XPkt) (s : State) : State := { s with adm := { s.adm with waiting := [x] } }

/-- A packet in a queue. -/
def queued (n : Nat) (cells : List CellAt) : QPkt := ⟨List.replicate n 7, cells, 0, 0, 2, 0, 0, none, 0, none⟩

/-- A queue, of these packets. -/
def queueOf (q : Nat) (ps : List QPkt) (f : Queue → Queue) (s : State) : State :=
  s.setQueue q (f { Queue.init with pkts := ps })

/-- DRAM runs, with 1 GiB of counters and room for deep pages. -/
def dram : State :=
  ((((((buffered.set DDC_CTRL_RUN ix0 1).set DDC_CTRL_SPARE_EN ix0 1).set DDC_PART_CNT_GIB ix0 1).set DDC_PART_WIN_GIB ix0
    3).set DDC_PART_DEEP_GIB ix0 900).set ADM_PROF0_HEAD_CELLS (ixI 2) 16).set ADM_DEEP_BW_GUAR (ixI 2) 10

/-- Cells of a packet on the die. -/
def onDie (n b : Nat) : List CellAt := (List.range n).map fun i => .die (b + i) 3

/-- VOQ 258 in deep mode, with cells on the die; its first page being written; part of it in deep memory. -/
def deep (cells : List CellAt) : State :=
  queueOf 258 [queued 5000 cells] (fun q => { q with deepMode := true }) (roomy 2 dram)
def paged (written : Bool) (cells : List CellAt) : State :=
  (queueOf 258 [queued 5000 cells] (fun q => { q with deepMode := true, pages := [⟨pageBase, written, 0, 16⟩] })
    (roomy 2 dram)).setBuf pageBase { cachedBuf 20 with busy := true, count := 1, holders := holderBit 20 }

/-- A packet that arrives at egress queue 2 of port 40, and the state it arrives in. -/
def egressed : EgrArr := ⟨List.replicate 90 3, [77], false, 0, 2, 40, 5, none⟩
def egressing : State :=
  let s := (roomy 0 (roomy 7 (roomy 2 buffered))).set QSC_EQ_MAP_BASE (ixI 40) 70000
  { s.setBuf 77 { cachedBuf 16 with busy := true, count := 1, holders := holderBit 16 } with
    adm := { s.adm with egress := [egressed] } }

/-- A node of the scheduler, enabled, with a parent. -/
def nodeOf (level i parent : Nat) (s : State) : State :=
  s.wr .qscNodeStore (ixIJ level i) (BitVec.ofNat 64 (QSC_NODE_EN.mask.toNat + parent <<< 16))

/-- Port 257 has one queue with packets, and a path of nodes to it. -/
def selecting : State :=
  nodeOf 0 257 0 (nodeOf 1 4 257 (nodeOf 2 5 4 (nodeOf 3 7 5 (nodeOf 4 2 7
    (queueOf 65538 [queued 100 [], queued 200 []] id buffered)))))

/-- VOQ 258 with a packet and outstanding requests; and with a message that waits from the fabric. -/
def credited (f : Queue → Queue) : State := queueOf 258 [queued 100 []] f buffered
def fabricRx (c : RxCell) (s : State) : State := { s with fab := { s.fab with rx := [c] } }

/-- The gates of port 40 follow two entries; a change of the list is pending. -/
def gated : State :=
  ((((buffered.setGate 40 { base := 0, cycle := 1000, entries := 2, switchAt := none, resume := none }).set TGT_OPER_GATES
    (ixIJ 40 0) 0xF).set TGT_OPER_INTERVAL (ixIJ 40 0) 400).set TGT_OPER_GATES (ixIJ 40 1) 0xF0).set TGT_OPER_INTERVAL
    (ixIJ 40 1) 600
def switching : State :=
  { buffered.setGate 40 { base := 0, cycle := 1000, entries := 2, switchAt := some 0, resume := none } with
    tim := live.tim }

/-- A packet metered by policer 7, whose buckets are given. -/
def metered (c d : Int) : State :=
  admitted { forwarded with policer := some 7 }
    ((buffered.wr .shpPolStore (ixIJ 5 7) (vOf SHP_POL_CFG_MODE 2)).setBucket 5 7 ⟨c, d, 0⟩)

/-- A packet at admission with room for it; the same once it is taken; and once it is judged. -/
def arrivedPkt : State := admitted forwarded (roomy 2 buffered)
def takenPkt : State := { arrivedPkt with adm := { arrivedPkt.adm with waiting := [] } }
def judgedPkt : State :=
  (takenPkt.judge (takenPkt.voqOf 4 1 forwarded.cls) (cellsOf forwarded.bytes.length) forwarded.bytes.length
    (some (requesterOf forwarded.src)) (takenPkt.lossOf forwarded.src forwarded.cls)).1

/-- The state in which VOQ 258 has a write slot of its class; and one for a partial page. -/
def slotted : State := (State.slotComes (deep (onDie 60 0)) (some 2)).getD live
def slottedPart : State := (State.slotFor (deep (onDie 20 0)) 2).getD live

/-- What an option holds. -/
theorem some_getD {α : Type} {x : Option α} {d : α} (h : x.isSome = true) : x = some (x.getD d) := by
  cases x with
  | none => cases h
  | some a => rfl

/-- A pair is its first part and its second. -/
theorem pair_of {α β : Type} {p : α × β} {b : β} (h : p.2 = b) : p = (p.1, b) := by rw [← h]

/-- The hypotheses of BuffersAndAdmission can be met, clause by clause. -/
theorem test_BuffersAndAdmission_met :
    (∃ (r : Fin 32) (h : BitVec 32) (s : State),
        s.handleOk h.toNat = true ∧ isPage h.toNat = false ∧ s.buf h.toNat = none ∧ r.val < 22 ∧ s.domUp domQC = true
          ∧ s.cellsOk r.val 1 = true ∧ s.bpmCached r.val < 128 ∧ s.gen.phase ≠ .park) ∧
    (∃ (r : Fin 32) (h : BitVec 32) (b : Buf) (s : State),
        s.buf h.toNat = some b ∧ b.busy = false ∧ b.owner = r.val ∧ s.gen.phase ≠ .park) ∧
    (∃ (r : Fin 32) (h : BitVec 32) (n : BitVec 8) (b : Buf) (s : State),
        rises s.bpm.bufs = true ∧ s.buf h.toNat = some b ∧ b.heldBy r.val = true ∧ b.count + n.toNat ≤ 255 ∧
          s.decsNow = [] ∧ s.gen.phase ≠ .park) ∧
    (∃ (r : Fin 32) (h : BitVec 32) (n : BitVec 8) (k : Nat) (b : Buf) (s : State),
        s.decsNow = [(h.toNat, k, b)] ∧ s.buf h.toNat = none ∧ b.heldBy r.val = true ∧ b.count + n.toNat ≤ 255 ∧ k <
          b.count + n.toNat ∧ s.gen.phase ≠ .park) ∧
    (∃ (r : Fin 32) (h : BitVec 32) (b : Buf) (s : State),
        (∀ k ∈ s.chainOf b, ∀ c, s.buf k = some c → c.heldBy r.val = true) ∧ rises s.bpm.bufs = true ∧ s.buf h.toNat
          = some b ∧ b.heldBy r.val = true ∧ s.gen.phase ≠ .park) ∧
    (∃ (r : Fin 32) (h : BitVec 32) (b : Buf) (s : State),
        s.buf h.toNat = some b ∧ b.busy = false ∧ b.owner = r.val ∧ s.gen.phase ≠ .park) ∧
    (∃ (h : BitVec 32) (b : Buf) (s : State),
        s.buf h.toNat = some b ∧ b.busy = false ∧ s.gen.phase ≠ .park) ∧
    (∃ (r : Fin 32) (s u : State),
        u = { s with bpm := { s.bpm with last := r.val } } ∧ r.val < 22 ∧ s.domUp domQC = true ∧ s.bpmCached r.val <
          64 ∧ s.gen.phase ≠ .isolate ∧ s.gen.phase ≠ .park) ∧
    (∃ (r : Fin 32) (s : State),
        (r.val = 17 ∨ r.val = 19 ∨ r.val = 20) ∧ r.val ∉ s.bpm.spent ∧ s.gen.phase ≠ .isolate ∧ s.gen.phase ≠ .park) ∧
    (∃ (x : XPkt) (rest : List XPkt) (m pg port rw : Nat) (s u w : State),
        u = { s with adm := { s.adm with waiting := rest } } ∧ u.judge (u.voqOf m pg x.cls) (cellsOf x.bytes.length)
          x.bytes.length (some (requesterOf x.src)) (u.lossOf x.src x.cls) = (w, .enter) ∧ s.adm.waiting = x :: rest
          ∧ s.gen.phase ≠ .isolate ∧ s.gen.phase ≠ .park ∧ x.dest = .voq m pg port rw ∧ x.policer = none ∧ x.mirror =
          0 ∧ u.ingressRole x.src = .pass ∧ u.flag QSC_CTRL_RUN ix0 = true ∧ u.voqOf m pg x.cls < u.voqEnd ∧ u.addrOf
          m ∉ u.fab.dropping ∧ u.qsc.flush.any (fun f => f.1 == u.voqOf m pg x.cls) = false) ∧
    (∃ (k : Fin 8) (ue : Option (BitVec 32)) (q h : Nat) (s u : State),
        s.slotComes (some k.val) = some u ∧ u.pageFor q = some h ∧ s.gen.phase ≠ .isolate ∧ s.gen.phase ≠ .park ∧
          s.domUp domQC = true ∧ oldestOf (u.evictors (· == k.val)) = some q ∧ u.readsBad q 16 ue = false) ∧
    (∃ (k : Fin 8) (b : BitVec 32) (q : Nat) (s u : State),
        s.slotComes (some k.val) = some u ∧ s.gen.phase ≠ .isolate ∧ s.gen.phase ≠ .park ∧ s.domUp domQC = true ∧
          oldestOf (u.evictors (· == k.val)) = some q ∧ u.readsBad q 16 (some b) = true) ∧
    (∃ (q : BitVec 20) (ue : Option (BitVec 32)) (h : Nat) (s u : State),
        s.slotFor (q.toNat % 8) = some u ∧ u.pageFor q.toNat = some h ∧ s.gen.phase ≠ .isolate ∧ s.gen.phase ≠ .park
          ∧ s.domUp domQC = true ∧ s.evictable q.toNat ≠ 0 ∧ s.evictable q.toNat < 16 ∧ u.readsBad q.toNat
          (s.evictable q.toNat) ue = false) ∧
    (∃ (h : BitVec 32) (q : Nat) (s : State),
        s.queueOfPage h.toNat = some q ∧ (∀ g ∈ (s.queue q).pages, ¬(g.h = h.toNat ∧ g.written = true)) ∧ s.dramUp =
          true ∧ s.gen.phase ≠ .park) ∧
    (∃ (q : BitVec 20) (h n : Nat) (p : DeepPage) (s w u : State),
        w = s.refillWatch q.toNat ∧ w.coverRetry 20 (((w.queue q.toNat).cells.filter (· == .deep p.h)).length) = (u,
          .covered) ∧ s.gen.phase ≠ .isolate ∧ s.gen.phase ≠ .park ∧ s.domUp domQC = true ∧ w.adm.reads.head? = some
          q.toNat ∧ (w.queue q.toNat).nextPage = some (h, n) ∧ w.mover.rd < moverSlots ∧ (w.queue
          q.toNat).pages.find? (fun g => g.h == h) = some p ∧ p.lost = 0 ∧ w.dramUp = true ∧ w.badIn 3 (8 * (p.h -
          pageBase)) ((p.size + 1) / 2) = []) :=
  ⟨⟨3, 5, buffered, by decide +kernel⟩,
    ⟨3, 5, cachedBuf 3, buffered.setBuf 5 (cachedBuf 3), by decide +kernel⟩,
    ⟨3, 5, 254, busy, buffered.setBuf 5 busy, by decide +kernel⟩,
    ⟨3, 5, 200, 1, busy,
      { buffered with bpm := { buffered.bpm with cycle := buffered.bpmCycle, decs := [(5, 1, busy)] } },
      by decide +kernel⟩,
    ⟨3, 5, busy, buffered.setBuf 5 busy, fun k hk c hc => by revert c; revert k; decide +kernel, by decide +kernel⟩,
    ⟨3, 5, cachedBuf 3, buffered.setBuf 5 (cachedBuf 3), by decide +kernel⟩,
    ⟨5, cachedBuf 3, buffered.setBuf 5 (cachedBuf 3), by decide +kernel⟩,
    ⟨0, buffered, _, rfl, by decide +kernel⟩,
    ⟨20, live, by decide +kernel⟩,
    ⟨forwarded, [], 4, 1, 70, 0, arrivedPkt, takenPkt, judgedPkt, rfl,
      by unfold judgedPkt; exact pair_of (by decide +kernel), by decide +kernel⟩,
    ⟨2, none, 258, pageBase, deep (onDie 60 0), slotted, by unfold slotted; exact some_getD (by decide +kernel),
      by unfold State.pageFor State.freePage State.handleOk State.deepTotal State.partGib State.usableGib; cases Config.is2T <;> decide +kernel, by decide +kernel⟩,
    ⟨2, 30, 258, deep (onDie 60 0), slotted, by unfold slotted; exact some_getD (by decide +kernel),
      by decide +kernel⟩,
    ⟨258, none, pageBase, deep (onDie 20 0), slottedPart, by unfold slottedPart; exact some_getD (by decide +kernel),
      by unfold State.pageFor State.freePage State.handleOk State.deepTotal State.partGib State.usableGib; cases Config.is2T <;> decide +kernel, by decide +kernel⟩,
    ⟨BitVec.ofNat 32 pageBase, 258, paged false (onDie 20 0), by decide +kernel⟩,
    ⟨258, pageBase, 3, ⟨pageBase, true, 0, 16⟩, paged true (onDie 3 0 ++ List.replicate 16 (.deep pageBase) ++ onDie
      4 100), _, _, rfl, Prod.ext rfl (by decide +kernel), by decide +kernel⟩⟩

/-- The hypotheses of ClustersRunReadAndSpare can be met, clause by clause. -/
theorem test_ClustersRunReadAndSpare_met :
    (∃ (req : Req) (v : W64) (s u : State),
        u = (s.arrived req .ddcCtrl ix0).ownWrite req .ddcCtrl ix0 v DDC_CTRL_RUN.mask ∧ u.partGib 0 + u.partGib 1 +
          u.partGib 2 + 16 ≤ u.usableGib ∧ s.arrives req .ddcCtrl ix0 = true ∧ (s.arrived req .ddcCtrl ix0).domUp
          (domDC 0) = true ∧ DDC_CTRL_RUN.get v = 1 ∧ u.flag DDC_CTRL_RUN ix0 = false ∧ u.partGib 0 ≤ 16) ∧
    (∃ (s : State),
        s.flag DDC_CTRL_RUN ix0 = true ∧ s.gen.selfRefresh = false ∧ s.ddc.set < 16) ∧
    (∃ (part : Fin 4) (off : BitVec 35) (j : Fin 9) (set stripe k c : Nat) (s : State),
        s.dramUp = true ∧ off.toNat < s.partGib part.val * 2 ^ 24 ∧ s.stripeAt part.val off.toNat = (set, stripe) ∧ k
          = burstCluster stripe j.val ∧ c = s.channelOf k set) ∧
    (∃ (off : BitVec 35) (s : State),
        s.dramUp = true ∧ off.toNat < s.partGib 0 * 2 ^ 24) ∧
    (∃ (req : Req) (v : W64) (s u : State),
        u = (s.arrived req .ddcCntClr ix0).ownWrite req .ddcCntClr ix0 v 0 ∧ s.arrives req .ddcCntClr ix0 = true ∧
          u.dramUp = true ∧ DDC_CNT_CLR_PAIR.get v < u.pairTotal) ∧
    (∃ (n : Fin 9) (v : W64) (s u : State),
        u = (s.arrived .mill .ddcSpare (ixN n.val)).flushRw .ddc n.val ∧ s.arrives .mill .ddcSpare (ixN n.val) = true
          ∧ (s.arrived .mill .ddcSpare (ixN n.val)).domUp (domDC n.val) = true ∧ (u.spare n.val).copying = none ∧
          DDC_SPARE_SRC.get v ≠ 15 ∧ u.spareOk n.val = true) ∧
    (∃ (n : Fin 9) (c : Nat) (s : State),
        (s.spare n.val).copying = some c ∧ s.clusterUp n.val = true) ∧
    (∃ (n : Fin 9) (corr : BitVec 32) (s u : State),
        u = (if corr = 0 then s else s.corrected n.val 15 corr.toNat) ∧ s.clusterUp n.val = true ∧ s.flag
          DDC_CTRL_SPARE_EN ix0 = true ∧ (s.spare n.val).copying = none ∧ ((s.spare n.val).mapped = none ∨
          s.gen.phase = .init)) :=
  ⟨⟨.pf0, vOf DDC_CTRL_RUN 1, dram.set DDC_CTRL_RUN ix0 0, _, rfl,
    by unfold State.usableGib; cases Config.is2T <;> decide +kernel, by decide +kernel⟩,
    ⟨dram, by decide +kernel⟩,
    ⟨0, 0xFFFFFF, 8, 3, 139815, 0, 3, dram, by decide +kernel⟩,
    ⟨0xFFFFFF, dram, by decide +kernel⟩,
    ⟨.pf0, vOf DDC_CNT_CLR_PAIR 67108863, dram, _, rfl, by decide +kernel⟩,
    ⟨8, vOf DDC_SPARE_SRC 14, mill (fun m => { m with ready := true }) (dram.setSpare 8
      { dram.spare 8 with tested := true }), _, rfl, by decide +kernel⟩,
    ⟨8, 14, dram.setSpare 8 { dram.spare 8 with copying := some 14 }, by decide +kernel⟩,
    ⟨8, 0, dram, _, rfl, by decide +kernel⟩⟩

/-- The hypotheses of QueuesGatesAndSelection can be met, clause by clause. -/
theorem test_QueuesGatesAndSelection_met :
    (∃ (req : Req) (v : W64) (s : State),
        s.arrives req .qscCtrl ix0 = true ∧ (s.arrived req .qscCtrl ix0).domUp domQC = true ∧ 1 ≤
          QSC_CTRL_VOQ_BLOCKS.get v ∧ QSC_CTRL_VOQ_BLOCKS.get v ≤ 8) ∧
    (∃ (req : Req) (v : W64) (s u : State),
        u = (s.arrived req .qscFlush ix0).ownWrite req .qscFlush ix0 v 0 ∧ s.arrives req .qscFlush ix0 = true ∧
          (s.arrived req .qscFlush ix0).domUp domQC = true ∧ u.qsc.flush = none) ∧
    (∃ (q n : Nat) (s : State),
        s.qsc.flush = some (q, n) ∧ s.domUp domQC = true ∧ s.gen.phase ≠ .park) ∧
    (∃ (q : Nat) (p : QPkt) (rest : List QPkt) (s : State),
        s.gen.phase ≠ .isolate ∧ s.gen.phase ≠ .park ∧ s.domUp domQC = true ∧ s.flag QSC_CTRL_RUN ix0 = true ∧
          s.qsc.elig.find? s.servable = some q ∧ (s.queue q).pkts = p :: rest) ∧
    (∃ (a : EgrArr) (rest : List EgrArr) (q : Nat) (s u : State),
        u = { s with adm := { s.adm with egress := rest } } ∧ s.gen.phase ≠ .isolate ∧ s.gen.phase ≠ .park ∧
          s.adm.egress = a :: rest ∧ u.egressRole a.dport a.pair = .pass ∧ u.egressQueue a.dport a.rewrite a.cls =
          some q ∧ u.flag QSC_CTRL_RUN ix0 = true ∧ u.qsc.flush.any (fun f => f.1 == q) = false ∧ (u.queue q).bytes +
          a.bytes.length ≤ u.fld ADM_PROF1_MAX_BYTES (ixI (u.profOf q)) ∧ u.queueOk q (cellsOf a.bytes.length) =
          true) ∧
    (∃ (port : Fin 288) (q : Nat) (x : QPkt) (rest : List QPkt) (s u : State),
        u = (s.gateSettle port.val).dropOversizes port.val ∧ s.gen.phase ≠ .isolate ∧ s.gen.phase ≠ .park ∧ s.domUp
          domQC = true ∧ s.flag QSC_CTRL_RUN ix0 = true ∧ s.couch.st = .up ∧ s.domUp domFC = true ∧ s.mayPick
          port.val = true ∧ (∀ e ∈ s.prt.groups, e.2.draining = false) ∧ (u.queuesOf port.val).filter (u.queueReady
          port.val) = [q] ∧ (u.queue q).pkts = x :: rest) ∧
    (∃ (port : Fin 288) (x : GateSeg) (n : Nat) (rest : List (GateSeg × Nat)) (s : State),
        s.gateAhead port.val = (x, n) :: rest ∧ s.domUp domQC = true ∧ s.gen.phase ≠ .isolate ∧ s.gen.phase ≠ .park ∧
          s.gatesHeld port.val = false) ∧
    (∃ (req : Req) (port : Fin 288) (v : W64) (s u : State),
        u = ((s.arrived req .tgtCtrl (ixI port.val)).flushRw .tgt 0).ownWrite req .tgtCtrl (ixI port.val) v 0 ∧
          s.arrives req .tgtCtrl (ixI port.val) = true ∧ (s.arrived req .tgtCtrl (ixI port.val)).domUp domQC = true ∧
          (((s.arrived req .tgtCtrl (ixI port.val)).flushRw .tgt 0).gate port.val).switchAt = none ∧ 0 < u.fld
          TGT_CTRL_ADMIN_CYCLE (ixI port.val) ∧ u.fld TGT_CTRL_ADMIN_CYCLE (ixI port.val) ≤ 1000000000) ∧
    (∃ (port : Fin 288) (at_ : Nat) (s : State),
        (s.gate port.val).switchAt = some at_ ∧ s.domUp domQC = true ∧ s.gen.phase ≠ .isolate ∧ s.gen.phase ≠ .park ∧
          s.domUp domTM = true ∧ at_ * 65536 ≤ s.gateTime port.val) :=
  ⟨⟨.pf0, vOf QSC_CTRL_VOQ_BLOCKS 8, live, by decide +kernel⟩,
    ⟨.pf0, vOf QSC_FLUSH_QUEUE 258, credited id, _, rfl, by decide +kernel⟩,
    ⟨258, 2, { buffered with qsc := { buffered.qsc with flush := some (258, 2) } }, by decide +kernel⟩,
    ⟨2, queued 100 [], [],
      { queueOf 2 [queued 100 []] (fun q => { q with balance := 100 }) buffered with qsc := { (queueOf 2 [queued 100 []] (fun q => { q with balance := 100 }) buffered).qsc with elig := [2] } }, by decide +kernel⟩,
    ⟨egressed, [], 70002, egressing, _, rfl, by decide +kernel⟩,
    ⟨257, 65538, queued 100 [], [queued 200 []], selecting, _, rfl, by decide +kernel⟩,
    ⟨40, _, _, _, gated, rfl, by decide +kernel⟩,
    ⟨.pf0, 287, vOf TGT_CTRL_ADMIN_CYCLE 1000000000 ||| vOf TGT_CTRL_CHANGE 1, live, _, rfl, by decide +kernel⟩,
    ⟨40, 0, switching, by decide +kernel⟩⟩

/-- The hypotheses of CreditIsAskedAndGranted can be met, clause by clause. -/
theorem test_CreditIsAskedAndGranted_met :
    (∃ (q : BitVec 20) (s : State),
        s.gen.phase ≠ .isolate ∧ s.gen.phase ≠ .park ∧ s.domUp domQC = true ∧ s.asks q.toNat = true) ∧
    (∃ (src pg cls addr at_ : Nat) (pair : Bool) (s u : State),
        Oldest (.msg src (.request pg cls addr pair) at_) s u ∧ s.gen.phase ≠ .isolate ∧ s.gen.phase ≠ .park) ∧
    (∃ (s : State),
        s.gen.phase ≠ .isolate ∧ s.gen.phase ≠ .park ∧ s.domUp domQC = true) ∧
    (∃ (src pg cls addr bytes at_ q : Nat) (pair : Bool) (s u : State),
        Oldest (.msg src (.grant pg cls addr pair bytes) at_) s u ∧ q = answeredVoq pg cls addr pair ∧ u.answers src
          pg cls addr pair = true ∧ (s.queue q).pkts ≠ [] ∧ s.gen.phase ≠ .isolate ∧ s.gen.phase ≠ .park) ∧
    (∃ (src pg cls addr reason at_ q : Nat) (pair : Bool) (s u : State),
        Oldest (.msg src (.defer pg cls addr pair reason) at_) s u ∧ q = answeredVoq pg cls addr pair ∧ u.answers src
          pg cls addr pair = true ∧ s.gen.phase ≠ .isolate ∧ s.gen.phase ≠ .park) ∧
    (∃ (q : BitVec 20) (s : State),
        (s.queue q.toNat).backoff = true ∧ s.gen.phase ≠ .isolate ∧ s.gen.phase ≠ .park) ∧
    (∃ (q : BitVec 20) (s : State),
        (s.queue q.toNat).out ≠ 0 ∧ s.domUp domQC = true ∧ s.gen.phase ≠ .isolate ∧ s.gen.phase ≠ .park) ∧
    (∃ (src pg cls bytes at_ : Nat) (s u : State),
        Oldest (.msg src (.creditReturn pg cls bytes) at_) s u ∧ s.gen.phase ≠ .isolate ∧ s.gen.phase ≠ .park) ∧
    (∃ (s : State),
        s.gen.phase ≠ .isolate ∧ s.gen.phase ≠ .park) ∧
    (∃ (req : Req) (r : Fin 4096) (v : W64) (s u : State),
        u = ((s.arrived req .crdRes (ixI r.val)).ownWrite req .crdRes (ixI r.val) v CRD_RES_EN.mask).crdSettle ∧
          s.arrives req .crdRes (ixI r.val) = true ∧ (s.arrived req .crdRes (ixI r.val)).domUp domQC = true ∧
          CRD_RES_EN.get v = 1 ∧ (u.set CRD_RES_EN (ixI r.val) 1).resRate ≤ u.fld CRD_FAB_FAB_RATE ix0) :=
  ⟨⟨258, credited id, by decide +kernel⟩,
    ⟨7, 3, 2, 1, 0, false, fabricRx (.msg 7 (.request 3 2 1 false) 0) live, _, ⟨[], [], rfl, fun _ h => (nomatch h),
      rfl⟩, by decide +kernel⟩,
    ⟨buffered, by decide +kernel⟩,
    ⟨1, 0, 2, 1, 777, 0, _, false, fabricRx (.msg 1 (.grant 0 2 1 false 777) 0) (credited fun q =>
      { q with out := 2 }), _, ⟨[], [], rfl, fun _ h => (nomatch h), rfl⟩, rfl, by decide +kernel⟩,
    ⟨1, 0, 2, 1, 1, 0, _, false, fabricRx (.msg 1 (.defer 0 2 1 false 1) 0) (credited fun q => { q with out := 2 }),
      _, ⟨[], [], rfl, fun _ h => (nomatch h), rfl⟩, rfl, by decide +kernel⟩,
    ⟨258, credited fun q => { q with backoff := true }, by decide +kernel⟩,
    ⟨258, credited fun q => { q with out := 2 }, by decide +kernel⟩,
    ⟨7, 3, 2, 100, 0, fabricRx (.msg 7 (.creditReturn 3 2 100) 0) live, _, ⟨[], [], rfl, fun _ h => (nomatch h),
      rfl⟩, by decide +kernel⟩,
    ⟨live, by decide +kernel⟩,
    ⟨.pf0, 4095, vOf CRD_RES_EN 1, live.set CRD_FAB_FAB_RATE ix0 100000, _, rfl, by decide +kernel⟩⟩

/-- The hypotheses of PolicersMeterPackets can be met, clause by clause. -/
theorem test_PolicersMeterPackets_met :
    (∃ (x : XPkt) (rest : List XPkt) (n m pg port rw : Nat) (cfg : W64) (b : Bucket) (len : Int) (s : State),
        cfg = s.rd .shpPolStore (ixIJ 5 n) ∧ b = s.bucket 5 n ∧ len = ((x.bytes.length * byteUnits : Nat) : Int) ∧
          s.adm.waiting = x :: rest ∧ s.gen.phase ≠ .isolate ∧ s.gen.phase ≠ .park ∧ s.domUp domQC = true ∧ x.policer
          = some n ∧ x.dest = .voq m pg port rw ∧ x.mirror = 0 ∧ SHP_POL_CFG_MODE.get cfg = 2 ∧ SHP_POL_CFG_AWARE.get
          cfg = 0 ∧ SHP_POL_CFG_CNT_EN.get cfg = 0) ∧
    (∃ (x : XPkt) (rest : List XPkt) (n m pg port rw : Nat) (cfg : W64) (b : Bucket) (len : Int) (s : State),
        cfg = s.rd .shpPolStore (ixIJ 5 n) ∧ b = s.bucket 5 n ∧ len = ((x.bytes.length * byteUnits : Nat) : Int) ∧
          s.adm.waiting = x :: rest ∧ s.gen.phase ≠ .isolate ∧ s.gen.phase ≠ .park ∧ s.domUp domQC = true ∧ x.policer
          = some n ∧ x.dest = .voq m pg port rw ∧ x.mirror = 0 ∧ SHP_POL_CFG_MODE.get cfg = 2 ∧ SHP_POL_CFG_AWARE.get
          cfg = 0 ∧ SHP_POL_CFG_CNT_EN.get cfg = 0 ∧ 0 ≤ b.cir ∧ b.cir < len ∧ b.pir < len ∧ SHP_POL_CFG_RED_ACT.get
          cfg = 0 ∧ s.ingressRole x.src = .pass) :=
  ⟨⟨{ forwarded with policer := some 7 }, [], 7, 4, 1, 70, 0, _, _, _, metered 1000000000 1000000000, rfl, rfl, rfl,
    by decide +kernel⟩,
    ⟨{ forwarded with policer := some 7 }, [], 7, 4, 1, 70, 0, _, _, _, metered 5 7, rfl, rfl, rfl,
      by decide +kernel⟩⟩

/-! # The fabric, egress and time -/

/-- Macro 1 runs with link 70 enabled; with no register table; and with the link's state given. -/
def macro1 : State := (live.set FAB_MACRO_CTRL_RUN (ixN 1) 1).set FAB_LINK_CFG_EN (linkIx 70) 1
def linked (f : LinkSt → LinkSt) (s : State) : State :=
  { s with fab := { s.fab with links := [(70, f LinkSt.init)] } }
def alignedAt (pos : Nat) : AlignSt := { AlignSt.init with locked := some pos }
def locked70 : State := linked (fun x => { x with align := alignedAt 99, rejoined := true }) macro1

/-- A write of 0 to the enable of link 70, under way. -/
def closing70 : RwPend :=
  ⟨(off .fabLinkCfg (linkIx 70)).toNat, regAddr .fabLinkCfg (linkIx 70), FAB_LINK_CFG_EN.mask, 0⟩

/-- A good marker of link 70. -/
def marker : List Byte :=
  beBytes 8 (lanePattern (.fab 70)) ++ beBytes 6 0x12345678 ++ beBytes 1 (crc8 (beBytes 6 0x12345678))

/-- A control cell of two messages to this module. -/
def control : List Byte := macro1.ctlCell false macro1.ownId [.request 3 2 1 false, .heartbeat 3 4 5]

/-- What a REACH cell carries. -/
def reachMap : List Byte := beBytes 1 2 ++ beBytes 1 3 ++ [0, 0] ++ List.replicate 32 0x55

/-- Link 70 is in the spray set of every destination of block b. -/
def sprayed (b : Nat) : State :=
  linked (fun x => { x with align := alignedAt 99, rejoined := true, sprayed := true, maps := [(b, 2 ^ 256 - 1)] }) macro1

/-- Module 780 is monitored, and its heartbeat may be up. -/
def beating (upOnes : List Nat) : State :=
  let s := (sprayed 3).set FABCMN_HB_SET_MODULES (ixI 12) (2 ^ 12)
  { s with fab := { s.fab with monitored := [780], hbUp := upOnes } }

/-- A data cell of module 5 with a sequence number, and a state whose reorder context of module 5 is given. -/
def dataCell5 (q : Nat) : DataCell :=
  { src := 5, pair := false, pg := 1, cls := 2, epoch := 7, seq := q, legacy := false, ptr := 0x1FF,
    payload := List.replicate 64 1 }
def context (held : List (DataCell × Nat)) (s : State) : State :=
  s.setCtx 5 { ReorderSt.init with epoch := some 7, held := held }

/-- A member played from the fabric to slot 1280, and its playout buffer. -/
def playing : State :=
  let s := (live.set LIN_SLICE_CTRL_RUN (ixN 2) 1).set LIN_SLICE_CTRL_MAP (ixN 2) 3
  let s := ((s.set FLX_GROUP_CFG_EN (ixI 3) 1).set FLX_GROUP_PHY_VALID (ixIJ 3 0) 1).set FLX_GROUP_PHY_PORT (ixIJ 3 0) 32
  let s := (s.set FLX_CAL_USED (ixIJ 0 1280) 1).set FLX_CAL_CLIENT (ixIJ 0 1280) 9
  let s := ((s.set FLX_CLIENT_EN (ixI 9) 1).set FLX_CLIENT_GROUP (ixI 9) 3).set FLX_CLIENT_TERM (ixI 9) 1
  let s := (s.set FLX_XC_ACT0_TX_SRC (ixI 1280) 2).set FLX_XC_ACT0_SRC_MOD (ixI 1280) 7
  (s.set FLX_XC_ACT0_SRC_CKT (ixI 1280) 11).set FLX_XC_ACT0_SRC_MEMBER (ixI 1280) 2
def reservedMember : State :=
  (((playing.set CRD_RES_EN (ixI 4) 1).set CRD_RES_SRC_MOD (ixI 4) 7).set CRD_RES_SRC_CKT (ixI 4) 11).set
    CRD_RES_MEMBERS_M1 (ixI 4) 5
def filledPlayout : Playout := ⟨true, 40, [⟨40, false, [1, 2]⟩]⟩
def playoutHeld : State :=
  { playing with lin := { playing.lin with playout := [(memberKey 7 11 2, filledPlayout)] } }

/-- A packet that leaves by port 240 with one empty rewrite entry; and the states its processing goes through. -/
def outPacket : EgrPkt := ⟨List.replicate 80 9, 240, 2, 5, none⟩
def outSlot : EgrSlot := ⟨15, 3, outPacket, none⟩
def outgoing : State :=
  let s := putVer (tkey tRewrite 5) (2 ^ 124) 16 (sliced.set EGR_PORT_MTU (ixI 240) 9000)
  { s with egr := { s.egr with waiting := [outSlot] } }
def outStalled : State := outgoing.stalls 5
def outReam : Nat := outStalled.stampFor (64 + 4 * 15 + 3) false
def outStamped : State :=
  let st := tblPut (64 + 4 * 15 + 3) outReam outStalled.ing.stamped
  State.upsets { outStalled with ing := { outStalled.ing with stamped := st } } []
def outRead : State := (outStamped.readChain (outReam % 16) 29 (outPacket.rewrite % 2 ^ 21)).1
def outProfiled : State :=
  (outRead.used.readProf (outRead.fld EGR_PORT_PROFILE (ixI 240)) (outReam % 16)).1

/-- The time unit follows a source; a time-of-day message; an exchange of module time in progress. -/
def timed (src : Nat) (f : TimSt → TimSt) : State :=
  let s := live.set TIM_CTRL_SRC ix0 src
  { s with tim := f s.tim }
def todMsg : TodMsg := { sec := 1000, utcOffset := 37, clockClass := 6, traceable := true }

/-- The hypotheses of LinksAlignAndReceive can be met, clause by clause. -/
theorem test_LinksAlignAndReceive_met :
    (∃ (req : Req) (n : Fin 5) (v : W64) (s u : State),
        u = (s.arrived req .fabMacroCtrl (ixN n.val)).ownWrite req .fabMacroCtrl (ixN n.val) v
          FAB_MACRO_CTRL_RUN.mask ∧ s.arrives req .fabMacroCtrl (ixN n.val) = true ∧ (s.arrived req .fabMacroCtrl
          (ixN n.val)).domUp (domFB n.val) = true ∧ u.prt.leaving = none ∧ u.macroRuns n.val =
          (FAB_MACRO_CTRL_RUN.get v == 0) ∧ (FAB_MACRO_CTRL_RUN.get v = 1 → u.flag FAB_MACRO_CTRL_LEGACY (ixN n.val)
          = true → u.ownId < 1024)) ∧
    (∃ (req : Req) (n : Fin 5) (v : W64) (s u : State),
        u = (s.arrived req .fabMacroCtrl (ixN n.val)).ownWrite req .fabMacroCtrl (ixN n.val) v
          FAB_MACRO_CTRL_RUN.mask ∧ s.arrives req .fabMacroCtrl (ixN n.val) = true ∧ (s.arrived req .fabMacroCtrl
          (ixN n.val)).domUp (domFB n.val) = true ∧ u.prt.leaving = none ∧ u.macroRuns n.val =
          (FAB_MACRO_CTRL_RUN.get v == 0) ∧ (FAB_MACRO_CTRL_RUN.get v = 1 → u.flag FAB_MACRO_CTRL_LEGACY (ixN n.val)
          = true → u.ownId < 1024)) ∧
    (∃ (lane : Lane) (pos : Fin 174080) (m : List Byte) (s : State),
        s.laneOn lane = true ∧ (s.align lane).locked = none ∧ markerKind lane m = .good ∧ (∀ c ∈ (s.align
          lane).cands, c.pos ≠ pos.val) ∧ (s.align lane).cands.length < 32) ∧
    (∃ (lane : Lane) (pos : Fin 174080) (m : List Byte) (s : State),
        s.laneOn lane = true ∧ (s.align lane).locked = some pos.val ∧ markerKind lane m ≠ .errored ∧ s.prt.leaving =
          none) ∧
    (∃ (lane : Lane) (c : Cand) (s : State),
        s.laneOn lane = true ∧ (s.align lane).locked = none ∧ (s.align lane).cands.filter (fun c => c.seen && 4 ≤
          c.count) = [c] ∧ s.prt.leaving = none) ∧
    (∃ (l : Fin 320) (c : List Byte) (len src : Nat) (s : State),
        s.linkRuns l.val = true ∧ (s.link l.val).align.locked.isSome = true ∧ (s.link l.val).skip = false ∧ s.legacy
          l.val = false ∧ s.domUp domQC = true ∧ crc16 (bytesAt c 0 14) = beNat (bytesAt c 14 2) ∧ beNat (bytesAt c 0
          1) = 2 * 16 + len ∧ len ≤ 12 ∧ beNat (bytesAt c 1 2) / 32 = s.ownId ∧ src = beNat (bytesAt c 3 2) / 32) ∧
    (∃ (l : Fin 320) (c : List Byte) (s : State),
        s.linkRuns l.val = true ∧ (s.link l.val).align.locked.isSome = true ∧ (s.link l.val).skip = false ∧ s.legacy
          l.val = false ∧ crc16 (bytesAt c 0 14) ≠ beNat (bytesAt c 14 2)) :=
  ⟨⟨.pf0, 1, vOf FAB_MACRO_CTRL_RUN 1, live, _, rfl, by decide +kernel⟩,
    ⟨.pf0, 1, 0, locked70, _, rfl, by decide +kernel⟩,
    ⟨.fab 70, 99, marker, macro1, by decide +kernel⟩,
    ⟨.fab 70, 99, marker, locked70, by decide +kernel⟩,
    ⟨.fab 70, ⟨99, 4, true⟩, linked (fun x => { x with align := { AlignSt.init with cands := [⟨99, 4, true⟩] } })
      macro1, by decide +kernel⟩,
    ⟨70, control, beNat (bytesAt control 0 1) - 32, macro1.ownId, locked70, by decide +kernel⟩,
    ⟨70, control.set 3 9, locked70, by decide +kernel⟩⟩

/-- The hypotheses of StoppedMacrosAreSilent can be met, clause by clause. -/
theorem test_StoppedMacrosAreSilent_met :
    (∃ (l : Fin 320) (s : State),
        s.flag FAB_MACRO_CTRL_RUN (ixN (l.val / 64)) = false) ∧
    (∃ (req : Req) (n : Fin 5) (v : W64) (s u : State),
        u = s.arrived req .fabMacroCtrl (ixN n.val) ∧ s.arrives req .fabMacroCtrl (ixN n.val) = true ∧ u.flag
          FAB_MACRO_CTRL_RUN (ixN n.val) = false ∧ u.domUp (domFB n.val) = true ∧ FAB_MACRO_CTRL_RUN.get v = 0) ∧
    (∃ (req : Req) (off : BitVec 28) (l : Fin 320) (s u : State),
        u = s.arrived req .fabLinkCfg (linkIx l.val) ∧ off.toNat = regAddr .fabLinkCfg (linkIx l.val) ∧ s.arrives req
          .fabLinkCfg (linkIx l.val) = true ∧ u.flag FAB_MACRO_CTRL_RUN (ixN (l.val / 64)) = false) ∧
    (∃ (l : Fin 320) (s : State),
        s.flag FAB_LINK_CFG_EN (linkIx l.val) = false) ∧
    (∃ (off : BitVec 28) (p : RwPend) (rest : List RwPend) (l : Fin 320) (s : State),
        rises s.fab.links = true ∧ takeFirst (fun (p : RwPend) => p.off == off.toNat) s.acc.rwPend = some (p, rest) ∧
          findStored p.addr = some ⟨.fabLinkCfg, linkIx l.val⟩ ∧ s.flag FAB_LINK_CFG_EN (linkIx l.val) = true ∧
          FAB_LINK_CFG_EN.get (blend (s.rd .fabLinkCfg (linkIx l.val)) p.val p.mask) = 0 ∧ s.prt.leaving = none) :=
  ⟨⟨70, live, by decide +kernel⟩,
    ⟨.pf0, 1, vOf FAB_MACRO_CTRL_LEGACY 1, live, _, rfl, by decide +kernel⟩,
    ⟨.pf0, off .fabLinkCfg (linkIx 70), 70, live, _, rfl, by decide +kernel⟩,
    ⟨70, live, by decide +kernel⟩,
    ⟨off .fabLinkCfg (linkIx 70), closing70, [], 70, accs (fun a => { a with rwPend := [closing70] }) locked70,
      by decide +kernel⟩⟩

/-- The hypotheses of LinksReachAndTransmit can be met, clause by clause. -/
theorem test_LinksReachAndTransmit_met :
    (∃ (l : Nat) (s : State),
        rises s.fab.links = true ∧ s.domUp domQC = true ∧ s.linkTx l = true ∧ (s.link l).align.locked.isSome = true) ∧
    (∃ (l : Nat) (p : List Byte) (s u : State),
        Oldest (.link l p) s u ∧ beNat (bytesAt p 0 1) = 2 ∧ (s.legacy l = true → beNat (bytesAt p 1 1) % 8 < 4) ∧
          s.prt.leaving = none) ∧
    (∃ (s : State),
        s.prt.leaving = none) ∧
    (∃ (l : Fin 320) (s : State),
        (s.link l.val).align.locked.isSome = true ∧ s.prt.leaving = none) ∧
    (∃ (l : Fin 320) (s : State),
        s.linkTx l.val = true) ∧
    (∃ (d : Fin 2048) (pair : Bool) (s : State),
        s.canReach (addrNamed d.val pair) = false ∧ addrNamed d.val pair ∉ s.fab.dropping ∧ s.domUp domQC = true ∧
          s.gen.phase = .run) ∧
    (∃ (d l : Nat) (s : State),
        s.gen.phase = .run ∧ s.domUp domQC = true ∧ s.fab.monitored = [d] ∧ s.leastBusy (s.sprayFor (2 * d)) = some
          l) ∧
    (∃ (src a b act at_ : Nat) (s u : State),
        Oldest (.msg src (.heartbeat a b act) at_) s u ∧ s.monitors src = true ∧ s.domUp domQC = true ∧ s.prt.leaving
          = none) ∧
    (∃ (src : Fin 2048) (s : State),
        src.val ∈ s.fab.hbUp ∧ s.domUp domQC = true ∧ s.prt.leaving = none) :=
  ⟨⟨70, locked70, by decide +kernel⟩,
    ⟨70, reachMap, fabricRx (.link 70 reachMap) locked70, _, ⟨[], [], rfl, fun _ h => (nomatch h), rfl⟩,
      by decide +kernel⟩,
    ⟨locked70, by decide +kernel⟩,
    ⟨70, linked (fun x => { x with align := alignedAt 99 }) macro1, by decide +kernel⟩,
    ⟨70, locked70, by decide +kernel⟩,
    ⟨9, false, locked70, by decide +kernel⟩,
    ⟨780, 70, beating [], by decide +kernel⟩,
    ⟨780, 3, 4, 5, 9, fabricRx (.msg 780 (.heartbeat 3 4 5) 9) (beating []), _, ⟨[], [], rfl, fun _ h => (nomatch h),
      rfl⟩, by decide +kernel⟩,
    ⟨780, beating [780], by decide +kernel⟩⟩

/-- The hypotheses of CellsArePutInOrder can be met, clause by clause. -/
theorem test_CellsArePutInOrder_met :
    (∃ (c : DataCell) (s u : State),
        Oldest (.data c) s u ∧ s.gen.phase ≠ .isolate ∧ s.gen.phase ≠ .park ∧ s.domUp domQC = true ∧ (s.ctx
          c.src).idle = false ∧ (c.legacy = true ∨ (s.ctx c.src).epoch = some c.epoch) ∧ (s.ctx c.src).held = []) ∧
    (∃ (c : DataCell) (s u : State),
        Oldest (.data c) s u ∧ s.gen.phase ≠ .isolate ∧ s.gen.phase ≠ .park ∧ s.domUp domQC = true ∧ (s.ctx
          c.src).idle = false ∧ (c.legacy = true ∨ (s.ctx c.src).epoch = some c.epoch) ∧ (s.ctx c.src).held = [] ∧
          ahead (s.ctx c.src).next c = 4) ∧
    (∃ (src : Fin 2048) (c : DataCell) (at_ : Nat) (s : State),
        (s.ctx src.val).held = [(c, at_)] ∧ c.src = src.val ∧ s.gen.phase ≠ .park) ∧
    (∃ (s : State),
        s.gen.phase ≠ .park) ∧
    (∃ (s : State),
        s.gen.phase ≠ .park) ∧
    (∃ (src ckt member mseq : Nat) (lf : Bool) (blocks : List Byte) (s u : State),
        Oldest (.slot src ckt member mseq lf blocks) s u ∧ s.gen.phase ≠ .isolate ∧ s.gen.phase ≠ .park ∧ s.domUp
          domFC = true ∧ s.memberReserved src ckt member = true ∧ memberKey src ckt member ∈ s.fabricMembers ∧
          tblFind (memberKey src ckt member) s.lin.playout = none) ∧
    (∃ (src : Fin 2048) (ckt : Fin 4096) (member : Fin 256) (p : Playout) (c : SlotCell) (rest : List SlotCell) (s :
      State),
        s.gen.phase ≠ .isolate ∧ s.gen.phase ≠ .park ∧ s.domUp domFC = true ∧ memberKey src.val ckt.val member.val ∈
          s.fabricMembers ∧ tblFind (memberKey src.val ckt.val member.val) s.lin.playout = some p ∧ p.filled = true ∧
          takeFirst (fun c => c.mseq == p.next) p.cells = some (c, rest)) :=
  ⟨⟨dataCell5 0, fabricRx (.data (dataCell5 0)) (context [] live), _, ⟨[], [], rfl, fun _ h => (nomatch h), rfl⟩,
    by decide +kernel⟩,
    ⟨dataCell5 4, fabricRx (.data (dataCell5 4)) (context [] live), _, ⟨[], [], rfl, fun _ h => (nomatch h), rfl⟩,
      by decide +kernel⟩,
    ⟨5, dataCell5 4, 66, context [(dataCell5 4, 66)] live, by decide +kernel⟩,
    ⟨context [(dataCell5 4, 66)] live, by decide +kernel⟩,
    ⟨live, by decide +kernel⟩,
    ⟨7, 11, 2, 40, false, [1, 2], fabricRx (.slot 7 11 2 40 false [1, 2]) reservedMember, _, ⟨[], [], rfl, fun _ h =>
      (nomatch h), rfl⟩, by decide +kernel⟩,
    ⟨7, 11, 2, filledPlayout, ⟨40, false, [1, 2]⟩, [], playoutHeld, by decide +kernel⟩⟩

/-- The hypotheses of EgressSendsTheRewrittenFrame can be met. -/
theorem test_EgressSendsTheRewrittenFrame_met :
    ∃ (pipe : Fin 64) (upset : List TableWord) (older bad : Bool) (stall : BitVec 32) (e : EgrSlot) (before after :
      List EgrSlot) (es : List (Nat × Nat)) (b : List Byte) (ream pr : Nat) (s u v w z : State),
        s.egr.waiting = before ++ e :: after ∧ u = s.stalls stall.toNat ∧ ream = u.stampFor (64 + 4 * e.slice +
          e.pipe) older ∧ v =
          ({ u with ing := { u.ing with stamped := tblPut (64 + 4 * e.slice + e.pipe) ream u.ing.stamped } }).upsets
          upset ∧ v.readChain (ream % 16) 29 (e.pkt.rewrite % 2 ^ 21) = (w, .ok es) ∧ w.used.readProf (w.fld
          EGR_PORT_PROFILE (ixI e.pkt.dport)) (ream % 16) = (z, pr, bad) ∧ s.gen.phase ≠ .isolate ∧ s.gen.phase ≠
          .park ∧ s.pipesUp = true ∧ e.out = none ∧ 4 * e.slice + e.pipe = pipe.val ∧ (∀ x ∈ before, EgrSlot.next
          pipe.val x = false ∧ x.pkt.dport ≠ e.pkt.dport) ∧ ((parseChain es).bind fun ch => w.rewrite ch e.pkt.cls
          (egrMv e.pkt.dport (v.fld EGR_PORT_PROFILE (ixI e.pkt.dport)) e.pkt.rewrite e.pkt.cls) (unstated w.free)
          e.pkt.bytes) = some (b, false) ∧ b.length ≤ e.pkt.bytes.length + 192 ∧ b.length + 4 ≤ w.fld EGR_PORT_MTU
          (ixI e.pkt.dport) ∧ bad = false ∧ descReqs (keyVec (z.fld EGR_CTRL_TPID ix0) b) (egrMv e.pkt.dport (v.fld
          EGR_PORT_PROFILE (ixI e.pkt.dport)) e.pkt.rewrite e.pkt.cls) pr [0, 1, 2, 3] 2 = [] ∧ z.fld EGR_PORT_MIRROR
          (ixI e.pkt.dport) = 0 ∧ z.fld EGR_PORT_SAMPLER (ixI e.pkt.dport) = 0 ∧ z.fld EGR_PORT_PTP_MODE (ixI
          e.pkt.dport) = 0 ∧ e.pkt.dport < 256 ∧ z.portTx e.pkt.dport = true :=
  ⟨63, [], false, false, 5, outSlot, [], [], [(5, 2 ^ 124)], outPacket.bytes, outReam, (outRead.used.readProf
    (outRead.fld EGR_PORT_PROFILE (ixI 240)) (outReam % 16)).2.1, outgoing, outStalled, outStamped, outRead,
    outProfiled, rfl, rfl, rfl, rfl, by unfold outRead; exact pair_of rfl,
    by unfold outProfiled; exact pair_of (pair_of (by decide +kernel)), by decide +kernel⟩

/-- The hypotheses of TimeIsServedAndExchanged can be met, clause by clause. -/
theorem test_TimeIsServedAndExchanged_met :
    (∃ (s : State),
        s.domUp domTM = true) ∧
    (∃ (m : TodMsg) (s : State),
        s.domUp domTM = true ∧ s.timSrc = 1 ∧ s.tim.tod = some m) ∧
    (∃ (s : State),
        s.domUp domTM = true ∧ s.timSrc = 1) ∧
    (∃ (s : State),
        s.domUp domTM = true) ∧
    (∃ (s : State),
        s.domUp domTM = true) ∧
    (∃ (off : Int) (rest : List Int) (s : State),
        s.tim.meas = off :: rest ∧ s.domUp domTM = true) ∧
    (∃ (req : Req) (s u : State),
        u = s.arrived req .timAdj ix0 ∧ s.arrives req .timAdj ix0 = true ∧ u.timSrc = 3) ∧
    (∃ (req : Req) (s : State),
        (req = .pf1 → s.fnAnswers .pf1 = true) ∧ (req ≠ .pf1 → s.mayAccess req = true) ∧ s.reachable domTM = true) ∧
    (∃ (s : State),
        s.domUp domTM = true ∧ s.timSrc = 2) ∧
    (∃ (src x at_ t0 l : Nat) (s u : State),
        Oldest (.msg src (.timeDreq x t0) at_) s u ∧ s.domUp domTM = true ∧ s.domUp domQC = true ∧ s.flag
          TIM_CTRL_FAB_MASTER ix0 = true ∧ s.leastBusy (s.sprayFor (2 * src)) = some l) ∧
    (∃ (x t4 at_ : Nat) (e : Exchange) (s u : State),
        Oldest (.msg (s.fld TIM_CTRL_MASTER_ID ix0) (.timeDresp x t4) at_) s u ∧ s.domUp domTM = true ∧ s.timSrc = 2
          ∧ s.tim.exch = some e ∧ e.xseq.toNat = x) ∧
    (∃ (x t1 t2 t3 t4 : Nat) (y : BitVec 8) (off : Int) (s u : State),
        Oldest (.msg (s.fld TIM_CTRL_MASTER_ID ix0) (.timeSync x t1) t2) s u ∧ off = exchangeOffset t1 t2 t3 t4
          (signedOf 16 (s.fld TIM_CAL_ASYM ix0) * 65536) ∧ s.domUp domTM = true ∧ s.timSrc = 2 ∧ s.tim.exch = some
          ⟨y, t3, some t4⟩ ∧ y.toNat = x ∧ (exchangeDelay t1 t2 t3 t4).toNat ≤ leastDelay (exchangeDelay t1 t2 t3
          t4).toNat (s.tim.delays.take 63) + s.fld TIM_CTRL_FILTER_NS ix0 * 65536) ∧
    (∃ (e : Exchange) (s : State),
        s.tim.exch = some e) :=
  ⟨⟨live, by decide +kernel⟩,
    ⟨todMsg, timed 1 fun t => { t with tod := some todMsg }, by decide +kernel⟩,
    ⟨timed 1 id, by decide +kernel⟩,
    ⟨live, by decide +kernel⟩,
    ⟨live, by decide +kernel⟩,
    ⟨20, [3], timed 1 fun t => { t with meas := [20, 3] }, by decide +kernel⟩,
    ⟨.pf0, timed 3 id, _, rfl, by decide +kernel⟩,
    ⟨.mill, live, by decide +kernel⟩,
    ⟨timed 2 id, by decide +kernel⟩,
    ⟨9, 3, 66, 55, 70, fabricRx (.msg 9 (.timeDreq 3 55) 66) ((sprayed 0).set TIM_CTRL_FAB_MASTER ix0 1), _, ⟨[], [],
      rfl, fun _ h => (nomatch h), rfl⟩, by decide +kernel⟩,
    ⟨1, 5000, 66, ⟨1, 0, none⟩, fabricRx (.msg 0 (.timeDresp 1 5000) 66) (timed 2 fun t =>
      { t with exch := some ⟨1, 0, none⟩ }), _, ⟨[], [], rfl, fun _ h => (nomatch h), rfl⟩, by decide +kernel⟩,
    ⟨1, 6000, 9000, 0, 5000, 1, _, fabricRx (.msg 0 (.timeSync 1 6000) 9000) (timed 2 fun t =>
      { t with exch := some ⟨1, 0, some 5000⟩ }), _, ⟨[], [], rfl, fun _ h => (nomatch h), rfl⟩, rfl,
      by decide +kernel⟩,
    ⟨⟨1, 0, none⟩, timed 2 fun t => { t with exch := some ⟨1, 0, none⟩ }, by decide +kernel⟩⟩

/-! # Protection -/

/-- Felt lane 2 is locked; the protection unit's state, changed; a felt message. -/
def felt : State :=
  prot (fun p => { p with lanes := [(2, { AlignSt.init with locked := some 5 })] }) (live.set PRT_CTRL_LANE_EN ix0 15)
def feltMsg (t : Nat) (body : List Byte) : List Byte := feltBytes t 0 body
def beat : List Byte := feltMsg 1 (List.replicate 28 3)
def roleMsg (op : Nat) : List Byte := feltMsg 5 (beBytes 1 4 ++ beBytes 1 op ++ beBytes 2 77 ++ stamp96 123456)
def sliceMsg (t op : Nat) (rest : List Byte) : List Byte := feltMsg t (beBytes 1 3 ++ beBytes 1 op ++ rest)
def lockMsg (op : Nat) : List Byte := feltMsg 7 (beBytes 1 9 ++ beBytes 1 op ++ [0])

/-- The mate is seen on the felt, a pair that is in step. -/
def mated : State :=
  prot (fun p => { p with felt := true, ready := true, pairState := 1, mate := some (mateOfBeat (feltMsg 1 [])) }) felt

/-- Group 4 is enabled, with a role and a switch. -/
def group4 (f : GroupSt → GroupSt) : State :=
  prot (fun p => { p with groups := [(4, f GroupSt.init)] }) (mated.set PRT_GROUP_CFG_EN (ixI 4) 1)
def switch77 : SwitchSt := ⟨77, 123456, true, false, false, 2⟩

/-- The fast heartbeat's path: the felt is down, and link 70 reaches every module. -/
def fastPath : State :=
  let s := felt.set FABCMN_PAIR_MAP_PAIRS (ixI 0) 1
  { s with fab := { s.fab with links := [(70, { LinkSt.init with sprayed := true, maps := [(0, 2 ^ 256 - 1)] })] } }

/-- Slice 3's comparison, on the module that leads or the one that follows. -/
def slice3 (leads : Bool) (f : CmpSt → CmpSt) : State :=
  prot (fun p => { p with slices := [(3, f CmpSt.init)] }) (mated.set FABCMN_PAIR_MAP_PAIRS (ixI 0) (ofBool leads))
def hash0 : RecHash := { port := 0, seq := 0, hash := 7, ream := 0 }

/-- The CRC of a felt message fits its four bytes, and a felt message as it is built is sound. -/
theorem crc32cBit_lt (c : Nat) (b : Bool) (h : c < 2 ^ 32) : crc32cBit c b < 2 ^ 32 := by
  unfold crc32cBit
  split
  · exact Nat.xor_lt_two_pow (by omega) (by omega)
  · omega
theorem foldl_lt {α : Type} (f : Nat → α → Nat) (hf : ∀ c a, c < 2 ^ 32 → f c a < 2 ^ 32) (l : List α) (c : Nat)
    (h : c < 2 ^ 32) : l.foldl f c < 2 ^ 32 := by
  induction l generalizing c with
  | nil => exact h
  | cons a l ih => exact ih _ (hf _ _ h)
theorem crc32c_lt (init : Nat) (bs : List Byte) (h : init < 2 ^ 32) : crc32c init bs < 2 ^ 32 :=
  Nat.xor_lt_two_pow (foldl_lt _ (fun c b hc => foldl_lt _ (fun c i hc => crc32cBit_lt c _ hc) _ _ hc) _ _ h) (by omega)
theorem beNat_beBytes4 (x : Nat) (h : x < 2 ^ 32) : beNat (beBytes 4 x) = x := by
  simp only [beNat, beBytes, leBytes, List.reverse_cons, List.reverse_nil, List.nil_append, List.cons_append,
    List.foldl_cons, List.foldl_nil, BitVec.toNat_ofNat]
  omega
theorem beBytes_length (n x : Nat) : (beBytes n x).length = n := by
  have : ∀ n x, (leBytes n x).length = n := by
    intro n; induction n with
    | zero => intro x; rfl
    | succ n ih => intro x; simp [leBytes, ih]
  simp [beBytes, this]
theorem feltBytes_is (lane : Fin 4) (t : Nat) (body : List Byte) (s : State) (ht : t < 256)
    (h : s.laneLocked lane.val = true) : FeltIs lane (feltBytes t 0 body) t s := by
  have hb : (bytesAt body 0 120).length = 120 := by
    simp only [bytesAt, List.length_append, List.length_replicate, List.length_take]; omega
  generalize hm : beBytes 1 t ++ [0] ++ beBytes 2 0 ++ bytesAt body 0 120 = m
  have hl : m.length = 124 := by simp [← hm, beBytes_length, hb]
  have hx : feltBytes t 0 body = m ++ beBytes 4 (crc32c 0xFFFFFFFF m) := by simp only [feltBytes, hm]
  refine ⟨h, ?_, ?_, ?_⟩
  · simp [hx, beBytes_length, hl]
  · have h1 : (m ++ beBytes 4 (crc32c 0xFFFFFFFF m)).drop 124 = beBytes 4 (crc32c 0xFFFFFFFF m) := by
      rw [← hl, List.drop_left]
    have h2 : (m ++ beBytes 4 (crc32c 0xFFFFFFFF m)).take 124 = m := by rw [← hl, List.take_left]
    rw [hx, bytesAt, h1, h2, List.take_of_length_le (by simp [beBytes_length])]
    simp only [beBytes_length, Nat.sub_self, List.replicate_zero, List.append_nil]
    exact beNat_beBytes4 _ (crc32c_lt _ _ (by omega))
  · rw [hx, ← hm]
    have h1 : beBytes 1 t = [BitVec.ofNat 8 t] := rfl
    rw [h1]
    show 0 * 256 + (BitVec.ofNat 8 t).toNat = t
    rw [BitVec.toNat_ofNat]
    omega

/-- The hypotheses of PairWatchesItsMate can be met, clause by clause. -/
theorem test_PairWatchesItsMate_met :
    (∃ (s : State),
        s.gen.phase = .run ∧ s.domUp domQC = true) ∧
    (∃ (lane : Fin 4) (msg : List Byte) (s : State),
        FeltIs lane msg 1 s ∧ s.prt.leaving = none) ∧
    (∃ (s : State),
        s.prt.felt = true ∧ s.domUp domQC = true ∧ s.prt.leaving = none) ∧
    (∃ (l : Nat) (s : State),
        s.gen.phase = .run ∧ s.prt.felt = false ∧ s.mapped s.ownId = true ∧ s.domUp domQC = true ∧ s.leastBusy
          (s.sprayFor (2 * mateOf s.ownId)) = some l) ∧
    (∃ (s : State),
        s.gen.aliveIn = false ∧ s.prt.aliveFault = false ∧ s.mateSeen = true ∧ s.domUp domQC = true ∧ s.prt.leaving =
          none) ∧
    (∃ (s : State),
        s.gen.phase = .run ∧ s.prt.ready = false ∧ s.domUp domQC = true ∧ s.prt.leaving = none) ∧
    (∃ (l : Nat) (rest : List Nat) (s : State),
        s.gen.phase = .run ∧ s.gen.feltTx = true ∧ s.domUp domQC = true ∧ s.lockedLanes = l :: rest) ∧
    (∃ (lane : Fin 4) (msg : List Byte) (w : W64) (s : State),
        FeltIs lane msg 6 s ∧ w = BitVec.ofNat 64 (feltField msg 8 8) &&& 0x0000FFFF003FFFFF ∧ w ≠ s.rd
          .prtMateHealth ix0) ∧
    (∃ (s : State),
        s.domUp domQC = true ∧ s.prt.groups.any (fun e => e.2.role == some false) = true) ∧
    (∃ (lane : Fin 4) (msg : List Byte) (n : Nat) (s : State),
        FeltIs lane msg 7 s ∧ feltField msg 5 1 = 1 ∧ n = feltField msg 4 1 % 64 ∧ s.domUp domHP = true ∧ s.lockOwner
          n = 0) ∧
    (∃ (lane : Fin 4) (msg : List Byte) (n : Nat) (s : State),
        FeltIs lane msg 7 s ∧ feltField msg 5 1 = 2 ∧ n = feltField msg 4 1 % 64 ∧ s.domUp domHP = true ∧ s.lockOwner
          n = masterId .mate) ∧
    (∃ (lane : Fin 4) (msg : List Byte) (s : State),
        FeltIs lane msg 7 s ∧ feltField msg 5 1 = 3) ∧
    (∃ (req : Req) (v : W64) (m : MateSt) (s u : State),
        u = s.arrived req .prtRecovery ix0 ∧ s.arrives req .prtRecovery ix0 = true ∧ u.domUp domQC = true ∧
          PRT_RECOVERY_DONE.get v = 1 ∧ u.prt.mate = some m ∧ u.prt.pairState = 1 ∧ u.cmt.newest = m.ream ∧ (∀ k, k <
          16 → u.fld PRT_SLICE_STATUS_RUN (ixI k) = 0) ∧ u.fld PRT_HEALTH_SLICE_FAIL ix0 = 0 ∧ u.prt.leaving = none) :=
  ⟨⟨felt, by decide +kernel⟩,
    ⟨2, beat, felt, feltBytes_is _ _ _ _ (by decide +kernel) (by decide +kernel), by decide +kernel⟩,
    ⟨mated, by decide +kernel⟩,
    ⟨70, fastPath, by decide +kernel⟩,
    ⟨{ mated with gen := { mated.gen with aliveIn := false } }, by decide +kernel⟩,
    ⟨felt, by decide +kernel⟩,
    ⟨2, [], felt, by decide +kernel⟩,
    ⟨2, feltMsg 6 (zeros 4 ++ beBytes 8 5), _, felt, feltBytes_is _ _ _ _ (by decide +kernel) (by decide +kernel),
      rfl, by decide +kernel⟩,
    ⟨group4 fun g => { g with role := some false }, by decide +kernel⟩,
    ⟨2, lockMsg 1, 9, felt, feltBytes_is _ _ _ _ (by decide +kernel) (by decide +kernel), by decide +kernel⟩,
    ⟨2, lockMsg 2, 9, { felt with sem := [(9, masterId .mate)] }, feltBytes_is _ _ _ _ (by decide +kernel)
      (by decide +kernel), by decide +kernel⟩,
    ⟨2, lockMsg 3, felt, feltBytes_is _ _ _ _ (by decide +kernel) (by decide +kernel), by decide +kernel⟩,
    ⟨.mill, vOf PRT_RECOVERY_DONE 1, mateOfBeat (feltMsg 1 []), prot (fun p => { p with recovering := true }) mated,
      _, rfl, by decide +kernel⟩⟩

/-- The hypotheses of RolesChangeHands can be met, clause by clause. -/
theorem test_RolesChangeHands_met :
    (∃ (req : Req) (g : Fin 32) (v : W64) (s u : State),
        u = (s.arrived req .prtGroupCfg (ixI g.val)).ownWrite req .prtGroupCfg (ixI g.val) v PRT_GROUP_CFG_EN.mask ∧
          s.arrives req .prtGroupCfg (ixI g.val) = true ∧ (s.arrived req .prtGroupCfg (ixI g.val)).domUp domQC = true
          ∧ u.overlaps g.val = false ∧ u.prt.leaving = none) ∧
    (∃ (req : Req) (g : Fin 32) (v : W64) (s u : State),
        u = (s.arrived req .prtGroupCfg (ixI g.val)).ownWrite req .prtGroupCfg (ixI g.val) v PRT_GROUP_CFG_EN.mask ∧
          s.arrives req .prtGroupCfg (ixI g.val) = true ∧ (s.arrived req .prtGroupCfg (ixI g.val)).domUp domQC = true
          ∧ u.overlaps g.val = false ∧ u.prt.leaving = none) ∧
    (∃ (lane : Fin 4) (msg : List Byte) (g : Nat) (s : State),
        FeltIs lane msg 5 s ∧ feltField msg 5 1 = 1 ∧ g = feltField msg 4 1 % 32 ∧ s.prt.ready = true ∧ s.groupEn g =
          true ∧ (s.group g).switch = none ∧ s.active g = false) ∧
    (∃ (lane : Fin 4) (msg : List Byte) (g : Nat) (w : SwitchSt) (s : State),
        FeltIs lane msg 5 s ∧ feltField msg 5 1 = 2 ∧ g = feltField msg 4 1 % 32 ∧ (s.group g).switch = some w ∧ w.id
          = feltField msg 6 2 ∧ w.giver = true) ∧
    (∃ (lane : Fin 4) (msg : List Byte) (g : Nat) (w : SwitchSt) (s : State),
        FeltIs lane msg 5 s ∧ feltField msg 5 1 = 3 ∧ g = feltField msg 4 1 % 32 ∧ (s.group g).switch = some w ∧ w.id
          = feltField msg 6 2 ∧ w.giver = false ∧ w.done = true ∧ s.prt.leaving = none) ∧
    (∃ (lane : Fin 4) (msg : List Byte) (g : Nat) (w : SwitchSt) (s : State),
        FeltIs lane msg 5 s ∧ feltField msg 5 1 = 4 ∧ g = feltField msg 4 1 % 32 ∧ (s.group g).switch = some w ∧ w.id
          = feltField msg 6 2 ∧ w.giver = true ∧ w.done = false ∧ s.prt.leaving = none) ∧
    (∃ (g : Fin 32) (w : SwitchSt) (s : State),
        (s.group g.val).switch = some w ∧ w.giver = true ∧ w.acked = false ∧ w.done = false ∧ s.domUp domQC = true ∧
          s.prt.leaving = none) ∧
    (∃ (g : Fin 32) (w : SwitchSt) (s : State),
        PairUp s ∧ (s.group g.val).switch = some w ∧ w.done = false ∧ w.acked = true ∧ (s.group g.val).undecided =
          false) ∧
    (∃ (s : State),
        s.prt.leaving = none) ∧
    (∃ (g : Fin 32) (s : State),
        (s.group g.val).wtr.isSome = true ∧ s.domUp domQC = true ∧ s.active g.val = true ∧ (s.group g.val).switch =
          none ∧ (s.group g.val).blocked = none ∧ s.prt.ready = true ∧ s.prt.leaving = none ∧ s.wtrRuns g.val = true
          ∧ s.request g.val true = (1, true) ∧ s.maySwitch = true) :=
  ⟨⟨.pf0, 31, vOf PRT_GROUP_CFG_EN 1, felt, _, rfl, by decide +kernel⟩,
    ⟨.pf0, 4, 0, group4 id, _, rfl, by decide +kernel⟩,
    ⟨2, roleMsg 1, 4, group4 fun g => { g with role := some false }, feltBytes_is _ _ _ _ (by decide +kernel)
      (by decide +kernel), by decide +kernel⟩,
    ⟨2, roleMsg 2, 4, switch77, group4 fun g => { g with switch := some switch77 }, feltBytes_is _ _ _ _
      (by decide +kernel) (by decide +kernel), by decide +kernel⟩,
    ⟨2, roleMsg 3, 4, { switch77 with giver := false, done := true }, group4 fun g =>
      { g with switch := some { switch77 with giver := false, done := true } }, feltBytes_is _ _ _ _
      (by decide +kernel) (by decide +kernel), by decide +kernel⟩,
    ⟨2, roleMsg 4, 4, switch77, group4 fun g => { g with switch := some switch77 }, feltBytes_is _ _ _ _
      (by decide +kernel) (by decide +kernel), by decide +kernel⟩,
    ⟨4, switch77, group4 fun g => { g with switch := some switch77 }, by decide +kernel⟩,
    ⟨4, { switch77 with acked := true }, group4 fun g => { g with switch := some { switch77 with acked := true } },
      ⟨by decide +kernel, by decide +kernel, by decide +kernel⟩, by decide +kernel⟩,
    ⟨group4 fun g => { g with draining := true }, by decide +kernel⟩,
    ⟨4, (((group4 fun g => { g with role := some true, wtr := some 0 }).set PRT_GROUP_CFG_REVERTIVE (ixI 4) 1).set
      PRT_GROUP_CFG_HOME (ixI 4) 1), by decide +kernel⟩⟩

/-- The hypotheses of SlicesAreComparedAndTested can be met, clause by clause. -/
theorem test_SlicesAreComparedAndTested_met :
    (∃ (k : Fin 16) (s : State),
        s.leads = true ∧ s.domUp domQC = true ∧ 4096 ≤ (s.cmp k.val).hist.length) ∧
    (∃ (k : Fin 16) (lane : Fin 4) (msg : List Byte) (s : State),
        FeltIs lane msg 2 s ∧ ((List.range 4).map fun i => (k.val + i) % 4).find? s.laneLocked = some lane.val ∧
          s.leads = false ∧ feltField msg 4 1 = k.val) ∧
    (∃ (lane : Fin 4) (msg : List Byte) (k : Nat) (d : DigestMsg) (s : State),
        FeltIs lane msg 3 s ∧ d = ⟨feltField msg 8 4, feltField msg 5 1 % 8, BitVec.ofNat 64 (feltField msg 12 8),
          feltField msg 20 4, feltField msg 24 4⟩ ∧ k = feltField msg 4 1 % 16) ∧
    (∃ (lane : Fin 4) (msg : List Byte) (k : Nat) (s : State),
        FeltIs lane msg 4 s ∧ feltField msg 5 1 = 1 ∧ k = feltField msg 4 1 % 16) ∧
    (∃ (k : Fin 16) (x : TestSt) (s : State),
        (s.cmp k.val).test = some x ∧ x.mine = none ∧ x.mate = none ∧ s.domUp domQC = true) ∧
    (∃ (lane : Fin 4) (msg : List Byte) (k : Nat) (x : TestSt) (s : State),
        FeltIs lane msg 4 s ∧ feltField msg 5 1 = 2 ∧ k = feltField msg 4 1 % 16 ∧ (s.cmp k).test = some x) ∧
    (∃ (k : Fin 16) (x : TestSt) (s : State),
        (s.cmp k.val).test = some x ∧ x.mine.isSome = true ∧ x.mate = none ∧ s.domUp domQC = true) :=
  ⟨⟨3, slice3 true fun c => { c with hist := List.replicate 4096 hash0 }, by decide +kernel⟩,
    ⟨3, 2, sliceMsg 2 0 (zeros 2 ++ beBytes 4 99), slice3 false id, feltBytes_is _ _ _ _ (by decide +kernel)
      (by decide +kernel), by decide +kernel⟩,
    ⟨2, sliceMsg 3 0 (zeros 2 ++ beBytes 4 5 ++ beBytes 8 66), 3, _, slice3 true id, feltBytes_is _ _ _ _
      (by decide +kernel) (by decide +kernel), rfl, by decide +kernel⟩,
    ⟨2, sliceMsg 4 1 (zeros 2 ++ stamp96 5000), 3, slice3 true id, feltBytes_is _ _ _ _ (by decide +kernel)
      (by decide +kernel), by decide +kernel⟩,
    ⟨3, ⟨5000, none, none⟩, slice3 true fun c => { c with test := some ⟨5000, none, none⟩ }, by decide +kernel⟩,
    ⟨2, sliceMsg 4 2 (beBytes 1 1 ++ zeros 1), 3, ⟨5000, none, none⟩, slice3 true fun c =>
      { c with test := some ⟨5000, none, none⟩ }, feltBytes_is _ _ _ _ (by decide +kernel) (by decide +kernel),
      by decide +kernel⟩,
    ⟨3, ⟨5000, some true, none⟩, slice3 true fun c => { c with test := some ⟨5000, some true, none⟩ },
      by decide +kernel⟩⟩

/-! # The Mill -/

/-- The Mill serves; a command block, and the same of 512 bytes; a command that the Mill holds, unanswered. -/
def serving : State := mill (fun m => { m with ready := true, bootRom := false }) live
def block (op len : Nat) (body : List Byte) : List Byte := leBytes 2 op ++ leBytes 2 0 ++ leBytes 2 len ++ zeros 10 ++ body
def asked (src : MillSrc) (b : List Byte) (s : State) : State :=
  { s with mbx := { s.mbx with slots := [waiting src ⟨0, 0, 0, 0⟩ b] } }
theorem asked_asks (src : MillSrc) (op need : Nat) (b : List Byte) (s : State) (h1 : blockOpcode b = op)
    (h2 : 16 + need ≤ blockLength b) (h3 : s.mil.ready = true) (h4 : isSmbus src = true → smbusMay op = true) :
    Asks src op need b (asked src b s) :=
  ⟨[], _, [], rfl, nofun, rfl, rfl, rfl, rfl, h1, h2, h3, h4⟩

/-- The flash of the Mill that serves, changed; a log entry; cluster 2 has a tested spare channel. -/
def flash (f : FlashSt → FlashSt) : State := mill (fun m => { m with flash := f m.flash }) serving
def logged : LogEntry :=
  { kind := 4, locked := true, holdUp := false, sec := 0, ns := 0, frac := 0, source := 0, arg0 := 1, arg1 := 2, phase := 3 }
def sparing : State :=
  { (serving.set DDC_CTRL_RUN ix0 1).set DDC_CTRL_SPARE_EN ix0 1 with
    ddc := { serving.ddc with spares := [(2, { SpareSt.init with tested := true })] } }

/-- Slot B is being replaced by an image of 8192 bytes, whose header is good. -/
def header : List Byte := leBytes 8 fwMagic ++ leBytes 4 1 ++ leBytes 4 77 ++ [3, 0, 0, 0] ++ leBytes 4 4096
def image : ImageSlot := { valid := true, version := 77, svn := 3, size := 8192, chunks := [(0, header)] }
def replacing : State :=
  mill (fun m => { m with fwSlot := some true, fwSize := 8192, running := false, flash := { m.flash with slotB := image } })
    serving

/-- The hypotheses of MillRestartsWatchesAndLogs can be met, clause by clause. -/
theorem test_MillRestartsWatchesAndLogs_met :
    (∃ (x y : W64) (c : Instr) (s : State),
        c ∈ [.lockstepMismatch x y, .sramUncorrectable x, .millWatchdog x y] ∧ s.domUp domQC = true ∧ s.domUp domML =
          true) ∧
    (∃ (x y : W64) (c : Instr) (s : State),
        c ∈ [.lockstepMismatch x y, .sramUncorrectable x, .millWatchdog x y] ∧ s.domUp domQC = true ∧ s.domUp domML =
          true) ∧
    (∃ (x y : W64) (c : Instr) (s : State),
        c ∈ [.lockstepMismatch x y, .sramUncorrectable x, .millWatchdog x y] ∧ s.domUp domQC = true ∧ s.domUp domML =
          true) ∧
    (∃ (s : State),
        s.mil.ready = false ∧ s.mil.bootRom = false ∧ s.domUp domML = true) ∧
    (∃ (s : State),
        s.mil.ready = true) ∧
    (∃ (e : LogEntry) (rest : List LogEntry) (s : State),
        s.mil.ready = true ∧ s.mil.staged = e :: rest ∧ (s.mil.writtenIn = s.tim.sec → s.mil.writtenSec < 1000) ∧
          s.mil.suppressed = 0 ∧ s.mil.flash.log.length < 262144) ∧
    (∃ (tag i : Nat) (rest : List Nat) (s : State),
        s.mil.notices = tag :: rest ∧ s.noticePair = some i ∧ s.mil.ready = true ∧ s.domUp domHP = true) ∧
    (∃ (s : State),
        s.mil.debug = true) :=
  ⟨⟨1, 2, .lockstepMismatch 1 2, serving, by simp, by decide +kernel⟩,
    ⟨1, 2, .sramUncorrectable 1, serving, by simp, by decide +kernel⟩,
    ⟨1, 2, .millWatchdog 1 2, serving, by simp, by decide +kernel⟩,
    ⟨mill (fun m => { m with ready := false }) serving, by decide +kernel⟩,
    ⟨serving, by decide +kernel⟩,
    ⟨logged, [], mill (fun m => { m with staged := [logged] }) serving, by decide +kernel⟩,
    ⟨3, 2, [1], mill (fun m => { m with notices := [3, 1] }) (serving.set MIL_CTRL_NOTE_MASK ix0 4),
      by decide +kernel⟩,
    ⟨mill (fun m => { m with debug := true }) serving, by decide +kernel⟩⟩

/-- The hypotheses of MillAnswersReadsAndSmbus can be met, clause by clause. -/
theorem test_MillAnswersReadsAndSmbus_met :
    (∃ (src : MillSrc) (b : List Byte) (s : State),
        Asks src 0x0001 0x40 b s) ∧
    (∃ (src : MillSrc) (b : List Byte) (k : SensorKind) (first n : Nat) (s : State),
        Asks src 0x0010 3 b s ∧ (blkField b 0x10 1, k) ∈ [(0, .temperature), (1, .voltage), (2, .current)] ∧ first =
          blkField b 0x11 1 ∧ n = blkField b 0x12 1 ∧ 0 < n ∧ first + n ≤ kindPoints k ∧ 0x18 + 4 * n ≤ blockLength
          b) ∧
    (∃ (src : MillSrc) (b : List Byte) (s : State),
        Asks src 0x0011 4 b s ∧ blkField b 0x12 1 = 0) ∧
    (∃ (src : MillSrc) (b : List Byte) (s : State),
        Asks src 0x0020 0x10 b s) ∧
    (∃ (src : MillSrc) (b : List Byte) (s : State),
        Asks src 0x0030 0x30 b s ∧ s.domUp domQC = true) ∧
    (∃ (src : MillSrc) (b : List Byte) (s : State),
        Asks src 0x0051 0x10 b s ∧ blkField b 0x10 1 = 0) ∧
    (∃ (src : MillSrc) (b : List Byte) (off n : Nat) (s : State),
        Asks src 0x0060 4 b s ∧ off = blkField b 0x10 2 ∧ n = blkField b 0x12 2 ∧ 0 < n ∧ off < 1024 ∧ off + n ≤ 1024
          ∧ 0x10 + n ≤ blockLength b) ∧
    (∃ (src : MillSrc) (b : List Byte) (s : State),
        Asks src 0x0062 1 b s ∧ isSmbus src = false ∧ blkField b 0x10 1 = 0) ∧
    (∃ (src : MillSrc) (b f : List Byte) (s : State),
        Asks src 0x0070 0x0C b s ∧ blkField b 0x14 4 ≤ f.length ∧ 0x18 + blkField b 0x18 4 ≤ blockLength b) ∧
    (∃ (off : BitVec 16) (data : List Byte) (s : State),
        s.smbServes = true ∧ data.length ≤ 253 ∧ (∀ b ∈ smbBufs off.toNat data.length, s.smbState b ≠ 1) ∧ off.toNat
          + data.length ≤ 0x800) ∧
    (∃ (data : List Byte) (s : State),
        s.smbServes = true ∧ data.length ≤ 253) ∧
    (∃ (b : Bool) (block : List Byte) (s : State),
        block = (List.range 1024).map (fun i => tblGet 0 s.mil.smb ((if b then 0x400 else 0) + i)) ∧ s.smbServes =
          true ∧ s.smbState b ≠ 1 ∧ blockLength block ≤ 1024) ∧
    (∃ (s : State),
        s.smbServes = true) ∧
    (∃ (count : BitVec 16) (s : State),
        s.smbServes = true ∧ 1 ≤ count.toNat ∧ count.toNat ≤ 255) ∧
    (∃ (s : State),
        s.smbServes = true) ∧
    (∃ (s : State),
        s.mil.ready = true ∧ s.alertLow = true) :=
  ⟨⟨(.smbus true), block 1 0x200 [], asked (.smbus true) (block 1 0x200 []) serving, asked_asks _ _ _ _ _
    (by decide +kernel) (by decide +kernel) (by decide +kernel) (by decide +kernel)⟩,
    ⟨(.mbx 3), block 16 0x200 [1, 3, 5], .voltage, 3, 5, asked (.mbx 3) (block 16 0x200 [1, 3, 5]) serving,
      asked_asks _ _ _ _ _ (by decide +kernel) (by decide +kernel) (by decide +kernel) (by decide +kernel),
      by decide +kernel⟩,
    ⟨(.mbx 3), block 17 0x200 [], asked (.mbx 3) (block 17 0x200 []) serving, asked_asks _ _ _ _ _
      (by decide +kernel) (by decide +kernel) (by decide +kernel) (by decide +kernel), by decide +kernel⟩,
    ⟨(.mbx 3), block 32 0x200 [], asked (.mbx 3) (block 32 0x200 []) serving, asked_asks _ _ _ _ _
      (by decide +kernel) (by decide +kernel) (by decide +kernel) (by decide +kernel)⟩,
    ⟨(.mbx 3), block 48 0x200 [], asked (.mbx 3) (block 48 0x200 []) serving, asked_asks _ _ _ _ _
      (by decide +kernel) (by decide +kernel) (by decide +kernel) (by decide +kernel), by decide +kernel⟩,
    ⟨(.mbx 3), block 81 0x200 [], asked (.mbx 3) (block 81 0x200 []) serving, asked_asks _ _ _ _ _
      (by decide +kernel) (by decide +kernel) (by decide +kernel) (by decide +kernel), by decide +kernel⟩,
    ⟨(.mbx 3), block 96 0x200 [4, 0, 8, 0], 4, 8, asked (.mbx 3) (block 96 0x200 [4, 0, 8, 0]) serving, asked_asks _
      _ _ _ _ (by decide +kernel) (by decide +kernel) (by decide +kernel) (by decide +kernel), by decide +kernel⟩,
    ⟨(.mbx 3), block 98 0x200 [], asked (.mbx 3) (block 98 0x200 []) serving, asked_asks _ _ _ _ _
      (by decide +kernel) (by decide +kernel) (by decide +kernel) (by decide +kernel), by decide +kernel⟩,
    ⟨(.mbx 3), block 112 0x200 [0, 0, 0, 0, 2, 0, 0, 0, 9, 0, 0, 0], [1, 2, 3, 4, 5], asked (.mbx 3) (block 112 0x200
      [0, 0, 0, 0, 2, 0, 0, 0, 9, 0, 0, 0]) serving, asked_asks _ _ _ _ _ (by decide +kernel) (by decide +kernel)
      (by decide +kernel) (by decide +kernel), by decide +kernel⟩,
    ⟨0x400, block 1 0x50 [], serving, by decide +kernel⟩,
    ⟨[1], serving, by decide +kernel⟩,
    ⟨true, _, mill (fun m => { m with smb := writeSmb m.smb 0x400 (block 1 0x50 []) }) serving, rfl,
      by decide +kernel⟩,
    ⟨serving, by decide +kernel⟩,
    ⟨255, serving, by decide +kernel⟩,
    ⟨serving, by decide +kernel⟩,
    ⟨mill (fun m => { m with pendingAlerts := 8 }) (flash fun x => { x with alertMask := 0xFF }), by decide +kernel⟩⟩

/-- The hypotheses of MillCommandsKeepRecordsAndAct can be met, clause by clause. -/
theorem test_MillCommandsKeepRecordsAndAct_met :
    (∃ (src : MillSrc) (b : List Byte) (s : State),
        Asks src 0x0011 4 b s ∧ blkField b 0x12 1 = 1) ∧
    (∃ (src : MillSrc) (b : List Byte) (s : State),
        Asks src 0x0011 4 b s ∧ blkField b 0x12 1 = 2) ∧
    (∃ (src : MillSrc) (b : List Byte) (n ch : Nat) (s : State),
        Asks src 0x0050 4 b s ∧ blkField b 0x12 1 = 1 ∧ n = blkField b 0x10 1 ∧ ch = blkField b 0x11 1 ∧ n ≤ 8 ∧ ch ≤
          14 ∧ s.domUp (domDC n) = true ∧ s.spareOk n = true ∧ (s.flushRw .ddc n).spareOk n = true ∧ (s.spare
          n).copying = none) ∧
    (∃ (src : MillSrc) (b : List Byte) (s : State),
        Asks src 0x0050 4 b s ∧ blkField b 0x12 1 = 2 ∧ blkField b 0x10 1 ≤ 8 ∧ blkField b 0x13 1 ≤ 1) ∧
    (∃ (src : MillSrc) (b : List Byte) (s : State),
        Asks src 0x0051 0x10 b s ∧ blkField b 0x12 2 + blkField b 0x14 2 + blkField b 0x16 2 + 16 ≤ (if Config.is2T
          then 128 else 64) * (if blkField b 0x11 1 = 1 then 15 else 16) ∧ blkField b 0x10 1 = 1 ∧ blkField b 0x11 1
          ≤ 1 ∧ blkField b 0x12 2 ≤ 16) ∧
    (∃ (src : MillSrc) (b : List Byte) (off n : Nat) (s : State),
        Asks src 0x0061 8 b s ∧ off = blkField b 0x10 2 ∧ n = blkField b 0x12 2 ∧ 0 < n ∧ off < 1024 ∧ off + n ≤ 1024
          ∧ 0x18 + n ≤ blockLength b ∧ (isSmbus src = true → s.mil.flash.tagWp = false) ∧ s.mil.flash.tagWrites <
          100000) ∧
    (∃ (src : MillSrc) (b : List Byte) (s : State),
        Asks src 0x0062 1 b s ∧ blkField b 0x10 1 = 1) ∧
    (∃ (src : MillSrc) (b : List Byte) (s : State),
        Asks src 0x0062 1 b s ∧ blkField b 0x10 1 = 2) ∧
    (∃ (src : MillSrc) (b : List Byte) (s : State),
        Asks src 0x0090 8 b s ∧ blkField b 0x10 1 = 1 ∧ 1 ≤ blkField b 0x14 4 ∧ blkField b 0x14 4 ≤ 86400) ∧
    (∃ (src : MillSrc) (b : List Byte) (s : State),
        Asks src 0x0090 8 b s ∧ blkField b 0x10 1 = 0) ∧
    (∃ (src : MillSrc) (b : List Byte) (s : State),
        Asks src 0x0031 2 b s ∧ s.gen.phase = .run ∧ s.domUp domQC = true ∧ (∀ k, k < 16 → (s.cmp k).test = none)) ∧
    (∃ (src : MillSrc) (b : List Byte) (s : State),
        Asks src 0x0040 1 b s ∧ blkField b 0x10 1 = 1 ∧ s.gen.phase = .run ∧ s.gen.reqBusy = false ∧ s.gen.warmBusy =
          false) ∧
    (∃ (src : MillSrc) (b : List Byte) (s : State),
        Asks src 0x0041 8 b s ∧ blkField b 0x10 4 = 0x200 ∧ blkField b 0x14 4 = 0 ∧ s.gen.phase = .run ∧ s.fld
          GEN_DOMAIN_RESET_HOLD ix0 = 0 ∧ s.gen.inReset.getLsbD 9 = false ∧ s.prt.leaving = none) ∧
    (∃ (src : MillSrc) (b : List Byte) (s : State),
        Asks src 0x0042 1 b s ∧ blkField b 0x10 1 = 1) ∧
    (∃ (src : MillSrc) (b : List Byte) (s : State),
        Asks src 0x0042 1 b s ∧ blkField b 0x10 1 = 2 ∧ s.gen.phase = .run ∧ s.gen.warmBusy = false ∧ s.gen.reqBusy =
          false) :=
  ⟨⟨(.mbx 3), block 17 0x200 [5, 1, 1], asked (.mbx 3) (block 17 0x200 [5, 1, 1]) serving, asked_asks _ _ _ _ _
    (by decide +kernel) (by decide +kernel) (by decide +kernel) (by decide +kernel), by decide +kernel⟩,
    ⟨(.mbx 3), block 17 0x200 [5, 1, 2], asked (.mbx 3) (block 17 0x200 [5, 1, 2]) serving, asked_asks _ _ _ _ _
      (by decide +kernel) (by decide +kernel) (by decide +kernel) (by decide +kernel), by decide +kernel⟩,
    ⟨(.mbx 3), block 80 0x200 [2, 6, 1, 0], 2, 6, asked (.mbx 3) (block 80 0x200 [2, 6, 1, 0]) sparing, asked_asks _
      _ _ _ _ (by decide +kernel) (by decide +kernel) (by decide +kernel) (by decide +kernel), by decide +kernel⟩,
    ⟨(.mbx 3), block 80 0x200 [2, 6, 2, 0], asked (.mbx 3) (block 80 0x200 [2, 6, 2, 0]) serving, asked_asks _ _ _ _
      _ (by decide +kernel) (by decide +kernel) (by decide +kernel) (by decide +kernel), by decide +kernel⟩,
    ⟨(.mbx 3), block 81 0x200 [1, 1, 3, 0, 4, 0, 5, 0], asked (.mbx 3) (block 81 0x200 [1, 1, 3, 0, 4, 0, 5, 0])
      serving, asked_asks _ _ _ _ _ (by decide +kernel) (by decide +kernel) (by decide +kernel) (by decide +kernel),
      by cases Config.is2T <;> decide +kernel, by decide +kernel⟩,
    ⟨(.mbx 3), block 97 0x200 [4, 0, 3, 0, 0, 0, 0, 0, 7, 8, 9], 4, 3, asked (.mbx 3) (block 97 0x200 [4, 0, 3, 0, 0,
      0, 0, 0, 7, 8, 9]) serving, asked_asks _ _ _ _ _ (by decide +kernel) (by decide +kernel) (by decide +kernel)
      (by decide +kernel), by decide +kernel⟩,
    ⟨(.smbus true), block 98 0x200 [1], asked (.smbus true) (block 98 0x200 [1]) serving, asked_asks _ _ _ _ _
      (by decide +kernel) (by decide +kernel) (by decide +kernel) (by decide +kernel), by decide +kernel⟩,
    ⟨(.smbus true), block 98 0x200 [2], asked (.smbus true) (block 98 0x200 [2]) serving, asked_asks _ _ _ _ _
      (by decide +kernel) (by decide +kernel) (by decide +kernel) (by decide +kernel), by decide +kernel⟩,
    ⟨(.mbx 3), block 144 0x200 [1, 0, 0, 0, 9, 1, 0, 0], asked (.mbx 3) (block 144 0x200 [1, 0, 0, 0, 9, 1, 0, 0])
      serving, asked_asks _ _ _ _ _ (by decide +kernel) (by decide +kernel) (by decide +kernel) (by decide +kernel),
      by decide +kernel⟩,
    ⟨(.mbx 3), block 144 0x200 [0], asked (.mbx 3) (block 144 0x200 [0]) serving, asked_asks _ _ _ _ _
      (by decide +kernel) (by decide +kernel) (by decide +kernel) (by decide +kernel), by decide +kernel⟩,
    ⟨(.mbx 3), block 49 0x200 [10, 0], asked (.mbx 3) (block 49 0x200 [10, 0]) serving, asked_asks _ _ _ _ _
      (by decide +kernel) (by decide +kernel) (by decide +kernel) (by decide +kernel), by decide +kernel⟩,
    ⟨(.mbx 3), block 64 0x200 [1], asked (.mbx 3) (block 64 0x200 [1]) serving, asked_asks _ _ _ _ _
      (by decide +kernel) (by decide +kernel) (by decide +kernel) (by decide +kernel), by decide +kernel⟩,
    ⟨(.mbx 3), block 65 0x200 [0, 2, 0, 0, 0, 0, 0, 0], asked (.mbx 3) (block 65 0x200 [0, 2, 0, 0, 0, 0, 0, 0])
      serving, asked_asks _ _ _ _ _ (by decide +kernel) (by decide +kernel) (by decide +kernel) (by decide +kernel),
      by decide +kernel⟩,
    ⟨(.mbx 3), block 66 0x200 [1], asked (.mbx 3) (block 66 0x200 [1]) serving, asked_asks _ _ _ _ _
      (by decide +kernel) (by decide +kernel) (by decide +kernel) (by decide +kernel), by decide +kernel⟩,
    ⟨(.mbx 3), block 66 0x200 [2], asked (.mbx 3) (block 66 0x200 [2]) serving, asked_asks _ _ _ _ _
      (by decide +kernel) (by decide +kernel) (by decide +kernel) (by decide +kernel), by decide +kernel⟩⟩

/-- The hypotheses of FirmwareIsReplaced can be met, clause by clause. -/
theorem test_FirmwareIsReplaced_met :
    (∃ (src : MillSrc) (b : List Byte) (s : State),
        Asks src 0x0080 5 b s ∧ blkField b 0x10 4 ≤ slotBytes ∧ (s.mil.flash.trial = true → s.mil.flash.bootPref =
          !s.mil.running)) ∧
    (∃ (src : MillSrc) (b : List Byte) (slot : Bool) (off n : Nat) (s : State),
        Asks src 0x0081 8 b s ∧ s.mil.fwSlot = some slot ∧ off = blkField b 0x10 4 ∧ n = blkField b 0x14 4 ∧ off % 8
          = 0 ∧ n % 8 = 0 ∧ off + n ≤ s.mil.fwSize ∧ off + n ≤ slotBytes ∧ 0x18 + n ≤ blockLength b) ∧
    (∃ (src : MillSrc) (b : List Byte) (slot sig hash : Bool) (x : ImageSlot) (s : State),
        Asks src 0x0082 5 b s ∧ s.mil.fwSlot = some slot ∧ x = s.mil.flash.slot slot ∧ sig = true ∧ hash = true ∧
          imageField x 0 8 = fwMagic ∧ imageField x 8 4 = 1 ∧ imageField x 0x10 1 < 64 ∧ 4096 + imageField x 0x14 4 =
          s.mil.fwSize ∧ s.mil.flash.rollback ≤ imageField x 0x10 1) ∧
    (∃ (src : MillSrc) (b : List Byte) (s : State),
        Asks src 0x0083 1 b s ∧ s.mil.activating = false ∧ (s.mil.flash.slot (!s.mil.running)).valid = true) ∧
    (∃ (src : MillSrc) (b : List Byte) (s : State),
        Asks src 0x0084 1 b s ∧ s.mil.flash.trial = true ∧ s.mil.flash.bootPref = s.mil.running) :=
  ⟨⟨(.mbx 3), block 128 0x200 [0, 32, 0, 0, 0], asked (.mbx 3) (block 128 0x200 [0, 32, 0, 0, 0]) serving, asked_asks
    _ _ _ _ _ (by decide +kernel) (by decide +kernel) (by decide +kernel) (by decide +kernel), by decide +kernel⟩,
    ⟨(.mbx 3), block 129 0x200 [0, 0, 0, 0, 32, 0, 0, 0], true, 0, 32, asked (.mbx 3) (block 129 0x200 [0, 0, 0, 0,
      32, 0, 0, 0]) replacing, asked_asks _ _ _ _ _ (by decide +kernel) (by decide +kernel) (by decide +kernel)
      (by decide +kernel), by decide +kernel⟩,
    ⟨(.mbx 3), block 130 0x200 [0], true, true, true, image, asked (.mbx 3) (block 130 0x200 [0]) replacing,
      asked_asks _ _ _ _ _ (by decide +kernel) (by decide +kernel) (by decide +kernel) (by decide +kernel),
      by decide +kernel⟩,
    ⟨(.mbx 3), block 131 0x200 [0], asked (.mbx 3) (block 131 0x200 [0]) replacing, asked_asks _ _ _ _ _
      (by decide +kernel) (by decide +kernel) (by decide +kernel) (by decide +kernel), by decide +kernel⟩,
    ⟨(.mbx 3), block 132 0x200 [0], asked (.mbx 3) (block 132 0x200 [0]) (flash fun x =>
      { x with trial := true, bootPref := serving.mil.running }), asked_asks _ _ _ _ _ (by decide +kernel)
      (by decide +kernel) (by decide +kernel) (by decide +kernel), by decide +kernel⟩⟩

/-! ## Ill-formed commands are refused by the check -/

/-- Offsets that are no multiple of 8 (R12). -/
theorem test_wf_refuses_offsets :
    [Instr.registerWrite .pf0 0x204 0, .rcRegisterRead .pf0 0x204 .full, .lowHalfWrite .pf0 0x204 0,
      .highHalfWrite .pf0 0x204 0, .lowHalfRead .pf0 0x204, .rwFieldEffect 0x204].all (fun c => !c.wellFormed) = true := by
  decide

/-- A write without its data, a read with data, no byte at all (R109). -/
theorem test_wf_refuses_tlps :
    [tlp .write 0 [], { tlp .read 0 [] with data := [1] }, { tlp .read 0 [] with len := 0 },
      { tlp .read 0 [] with disabled := [4096] }].all (fun t => !(Instr.pcieMemRequest t).wellFormed) = true := by decide

/-- The peer window is BAR2 of PF0; the HWM window is PF1's. -/
theorem test_wf_refuses_windows :
    (Instr.peerWindowAccess { tlp .read 0 [] with fn := .pf1, bar2 := true }).wellFormed = false ∧
      (Instr.peerWindowAccess { tlp .read 0 [] with fn := .pf0, bar2 := false }).wellFormed = false ∧
      (Instr.hwmWindowRead .pf0 0).wellFormed = false ∧ (Instr.hwmWindowRead .pf1 4).wellFormed = false := by decide

/-- A chain of no descriptor (R147), one reader twice (R170), seven quanta (R182), one entity twice. -/
theorem test_wf_refuses_lists :
    (Instr.txDescriptor 6144 [] []).wellFormed = false ∧
      (Instr.semLockRead 3 [.pf0, .pf0] .full).wellFormed = false ∧
      (Instr.pfcReceive 3 0xFF (List.replicate 7 9)).wellFormed = false ∧
      (Instr.pmSecondEnd [⟨3, 1, 1⟩, ⟨3, 1, 1⟩]).wellFormed = false := by decide

/-- An image that is not as long as LEN says (R333). -/
theorem test_wf_refuses_descriptors :
    let d := { change 1 0 8 with image := [] }
    [Instr.write 0 0 d, .emAdd 0 d, .emDel 0 d].all (fun c => !c.wellFormed) = true := by decide

/-- A marker of 14 bytes and cells that are too short or too long (R457, R463). -/
theorem test_wf_refuses_cells :
    (Instr.markerReceive (.fab 70) 0 (zeros 14)).wellFormed = false ∧
      (Instr.cellReceive 70 (zeros 11)).wellFormed = false ∧ (Instr.cellReceive 70 (zeros 465)).wellFormed = false := by
  decide +kernel

/-- A felt message of 127 bytes (R537). -/
theorem test_wf_refuses_felt :
    let m := zeros 127
    [Instr.feltHeartbeat 0 m, .roleRelease 0 m, .roleAck 0 m, .roleDrained 0 m, .roleAbort 0 m, .digest 0 m,
      .testRequest 0 m, .testResult 0 m, .feltHealth 0 m, .feltLockRead 0 m, .feltLockRelease 0 m,
      .feltLockResult 0 m].all (fun c => !c.wellFormed) = true := by decide +kernel

/-! ## Words, checksums, the queue -/

/-- No row of the table has bits, so no word spells a command. -/
theorem test_no_word_spells_a_command : decodeTableWord 8 0 = none ∧ decodeTableWord 64 0xFFFFFFFFFFFFFFFF = none := by
  decide

/-- The published check values of the CRCs, over the digits 1 to 9 (R261, R285, R463). -/
def digits : List Byte := [0x31, 0x32, 0x33, 0x34, 0x35, 0x36, 0x37, 0x38, 0x39]
theorem test_crc32 : crc32 digits = 0xCBF43926 := by decide +kernel
theorem test_crc32c : crc32c 0xFFFFFFFF digits = 0xE3069283 := by decide +kernel
theorem test_crc64 : crc64 digits = 0x62EC59E3F1A4F00A := by decide +kernel
theorem test_crc16 : crc16 digits = 0x29B1 := by decide +kernel
theorem test_crc8 : crc8 digits = 0xF4 := by decide +kernel

/-- A step takes the command at the front, and the rest waits. -/
theorem test_step_takes_the_front :
    (match step { live with pending := [.ppsOut, .todSend] } with | .next t => t.pending == [.todSend] | _ => false) = true := by
  decide +kernel

/-! ## The module as a whole -/

/-- After MOD_RESET the module is in BOOT, and only the management domains are up (R81, R90). -/
theorem test_mod_reset_boots :
    (run .modResetRelease (run .modReset live)).gen.phase = .boot ∧
      ((List.range 29).filter (run .modResetRelease (run .modReset live)).domUp) = [26, 27, 28] := by decide +kernel

/-- A warm restart with a wrong key is a configuration violation and restarts nothing (R93). -/
theorem test_warm_qx_key :
    (run (.warmQx .pf0 0x5A3D) live).flag GEN_INT_STATUS_CFG_VIOLATION ix0 = true ∧
      (run (.warmQx .pf0 0x5A3D) live).gen.phase = .run := by decide +kernel

/-- In BOOT every phase request is rejected (R85). -/
theorem test_phase_request_rejected :
    [Instr.phaseReqIsolate .pf0, .phaseReqPark .pf0, .phaseReqRun .pf0].all (fun c =>
      (run c State.reset).flag GEN_INT_STATUS_PHASE_REQ_REJ ix0 && (run c State.reset).gen.phase == .boot) = true := by
  decide +kernel

/-! ## Locks, R169 and R170 -/

/-- Of four masters the Mill wins, and each other reads the winner's ID. -/
theorem test_lock_order :
    (run (.semLockRead 3 [.dbg, .mate, .pf0, .mill] .full) live).lockOwner 3 = 1 := by decide +kernel

/-- The owner that reads its own lock sees its own ID; a read of the high half acquires nothing. -/
theorem test_lock_reads :
    (run (.semLockRead 3 [.pf0] .full) (run (.semLockRead 3 [.pf0] .full) live)).out.head? = some (.answer .pf0 2) ∧
      (run (.semLockRead 3 [.pf0] .high) live).lockOwner 3 = 0 := by decide +kernel

/-! ## The parser's opcodes, R230 to R236: each word is written out from the opcode table; byte i of the packet is i,
CUR is 14, FEND is 100 and Gi is i + 1 -/

/-- The engine of the packet after an instruction word. -/
def engAfter (c : Instr) (w : Nat) : EngSt :=
  match (run c (at5 w)).ing.pkts with
  | p :: _ => p.eng
  | [] => EngSt.init

theorem test_nop : (engAfter (.nop 128 false) 0).pc = 6 := by decide +kernel
theorem test_ldw :
    (engAfter (.ldw 128 false) (1 <<< 60 + 1 <<< 57 + 1 <<< 48 + 84 <<< 40 + 4 <<< 36 + 0xFFFF <<< 16)).g[1]? =
      some 6 := by decide +kernel
theorem test_ldw_two_bytes :
    (engAfter (.ldw 128 false) (1 <<< 60 + 1 <<< 57 + 84 <<< 40 + 0xFFF0 <<< 16)).g[1]? = some 0x6260 := by
  decide +kernel
theorem test_alu_sub_wraps :
    (engAfter (.alu 128 false) (2 <<< 60 + 1 <<< 57 + 2 <<< 54 + 3 <<< 51 + 2 <<< 48)).g[1]? = some 0xFFFF := by
  decide +kernel
theorem test_alu_shift_uses_four_bits :
    (engAfter (.alu 128 false) (2 <<< 60 + 1 <<< 57 + 2 <<< 54 + 6 <<< 48 + 1 <<< 47 + 0x11 <<< 16)).g[1]? = some 6 := by
  decide +kernel
theorem test_adv :
    (engAfter (.adv 128 false) (3 <<< 60 + 3 <<< 54 + 1 <<< 47 + 2 <<< 44 + 0xFFFE <<< 16)).cur = 28 := by decide +kernel
theorem test_adv_saturates : (engAfter (.adv 128 false) (3 <<< 60 + 0x7FFF <<< 16)).cur = 4095 := by decide +kernel
theorem test_hdr :
    (engAfter (.hdr 128 false) (4 <<< 60 + 9 <<< 32 + 0x1000 <<< 16)).hi = [⟨9, 14, 4095⟩] := by decide +kernel
theorem test_key_len_0_is_16 :
    (engAfter (.key 128 false) (5 <<< 60 + 70 <<< 40 + 112 <<< 8)).kv[127]? = some 99 := by decide +kernel
theorem test_keyr :
    (engAfter (.keyr 128 false) (6 <<< 60 + 2 <<< 54 + 126 <<< 8)).kv.drop 126 = [0, 3] := by decide +kernel
theorem test_br_taken :
    (engAfter (.br 128 false) (7 <<< 60 + 2 <<< 54 + 3 <<< 51 + 2 <<< 48 + 99)).pc = 99 := by decide +kernel
theorem test_br_not_taken :
    (engAfter (.br 128 false) (7 <<< 60 + 2 <<< 54 + 3 <<< 51 + 3 <<< 48 + 99)).pc = 6 := by decide +kernel
theorem test_jmp_links :
    let e := engAfter (.jmp 128 false) (8 <<< 60 + 2 <<< 57 + 2 <<< 54 + 1 <<< 47 + 1 <<< 46 + 99)
    e.pc = 3 ∧ e.g[2]? = some 6 := by decide +kernel
theorem test_chk_passes :
    (engAfter (.chk 128 false) (9 <<< 60 + 2 <<< 54 + 3 <<< 51 + 5)).pc = 6 := by decide +kernel
theorem test_trim : (engAfter (.trim 128 false) (0xA <<< 60 + 2 <<< 54 + 40 <<< 16)).fend = 57 := by decide +kernel
theorem test_movs : (engAfter (.movs 128 false) (0xB <<< 60 + 3 <<< 48)).g[0]? = some 3 := by decide +kernel
theorem test_flag : (engAfter (.flag 128 false) (0xC <<< 60 + 0xFF00 <<< 32 + 0x00F0 <<< 16)).flags = 0x00F0 := by
  decide +kernel
theorem test_brw :
    (engAfter (.brw 128 false) (0xD <<< 60 + 1 <<< 56 + 85 <<< 48 + 0xF <<< 32 + 3 <<< 16 + 99)).pc = 99 := by
  decide +kernel
theorem test_dec :
    let e := engAfter (.dec 128 false) (0xE <<< 60 + 1 <<< 57 + 99)
    e.pc = 99 ∧ e.g[1]? = some 1 := by decide +kernel

/-! ## Buffers, credit, the fabric, time, the Mill -/

/-- DEC of the last reference frees the buffer; REF above 255 is refused (R360, R361). -/
theorem test_buf_dec_frees : (run (.bufDec 3 5) (buffered.setBuf 5 busy)).buf 5 = none := by decide +kernel
theorem test_buf_ref_refused :
    ((run (.bufRef 3 5 255 3) (buffered.setBuf 5 busy)).buf 5).map (·.count) = some 1 := by decide +kernel

/-- A bad doorbell halts a ring that runs, with BAD_DOORBELL; a stopped ring ignores it (R142). -/
theorem test_bad_doorbell :
    ((run (.ringDoorbell 9 0x7FFFFFFF) (ringing 9)).ring 9).state = .halted ∧
      ((run (.ringDoorbell 9 5) live).ring 9).hostIdx = 0 := by decide +kernel

/-- A DEFER leaves the VOQ with one request fewer; a timeout too (R418). -/
theorem test_req_timeout : ((run (.reqTimeout 258) (credited fun q => { q with out := 2 })).queue 258).out = 1 := by
  decide +kernel

/-- A good marker is a candidate; one with a wrong CHECK is not (R457 to R459). -/
theorem test_marker_candidate :
    ((run (.markerReceive (.fab 70) 99 marker) macro1).link 70).align.cands = [⟨99, 1, true⟩] := by decide +kernel
theorem test_marker_bad_check :
    markerKind (.fab 70) (marker.set 14 ((marker[14]?.getD 0) + 1)) = .errored := by decide +kernel

/-- Five bits of PATTERN in error are too many, four are tolerated (R457). -/
theorem test_marker_tolerance :
    markerKind (.fab 70) (marker.set 0 ((marker[0]?.getD 0) ^^^ 0x0F)) = .tolerated ∧
      markerKind (.fab 70) (marker.set 0 ((marker[0]?.getD 0) ^^^ 0x1F)) = .errored := by decide +kernel

/-- Offset and path delay of an exchange (R523). -/
theorem test_exchange : exchangeOffset 6000 9000 1000 5000 0 = -500 ∧ exchangeDelay 6000 9000 1000 5000 = 3500 := by
  decide

/-- SMBus may set tag write protection and may not clear it (R584, R593). -/
theorem test_tag_protection :
    (run (.tagWpSet (.smbus true)) (asked (.smbus true) (block 0x62 0x200 [1]) serving)).mil.flash.tagWp = true ∧
      (run (.tagWpClear (.smbus true)) (asked (.smbus true) (block 0x62 0x200 [2]) serving)).mbx.slots.map
        (fun x => x.status) = [5] := by decide +kernel

/-- A command that is not of the Mill's list is answered BAD_LENGTH when its block is too short (R161). -/
theorem test_short_block :
    (run (.identity (.mbx 3)) (asked (.mbx 3) (block 1 0x18 []) serving)).mbx.slots.map (fun x => x.status) = [3] := by
  decide +kernel

end Sys2Proof.Tests
end

/-! # The warm QX restart, spec/03_startup_reset.md R91 to R93 -/

section
namespace Sys2Proof.Proofs

open Sys2Proof.Machine Sys2Proof.Machine.Fld Sys2Proof.Laws

/-! ## The parts that logging and setting a cause leave -/

theorem raise_gen (s : State) (f : Field) : (s.raise f).gen = s.gen := raise_same s f .gen (by decide)

theorem raise_prt (s : State) (f : Field) : (s.raise f).prt = s.prt := raise_same s f .prt (by decide)

theorem stageLog_same (s : State) (k a b c : Nat) (p : Part) (h : p ∉ [Part.mil, .out]) : p.same s (s.stageLog k a b c) :=
  (State.stageLog_kept (Kept.refl _ s) (List.Subset.refl _)).same p h

theorem stageLog_gen (s : State) (k a b c : Nat) : (s.stageLog k a b c).gen = s.gen :=
  stageLog_same s k a b c .gen (by decide)

theorem stageLog_prt (s : State) (k a b c : Nat) : (s.stageLog k a b c).prt = s.prt :=
  stageLog_same s k a b c .prt (by decide)

theorem logReset_gen (s : State) (n : Nat) : (s.logReset n).gen = s.gen := stageLog_gen ..

/-! ## Sets of domains -/

/-- Setting or clearing a domain's bit says nothing of the other domains. -/
theorem putDomain_bit (b : BitVec 29) {d : Nat} (hd : d < 29) (on : Bool) (i : Nat) :
    (putDomain b d on).getLsbD i = if i = d then on else b.getLsbD i := by
  by_cases hi : i < 29
  · have hbit : (BitVec.ofNat 29 (2 ^ d)).getLsbD i = decide (i = d) := by
      rw [BitVec.getLsbD_ofNat, Nat.testBit_two_pow]; simp [hi, eq_comm]
    unfold putDomain
    cases on
    · simp only [Bool.false_eq_true, if_false, BitVec.getLsbD_and, BitVec.getLsbD_not, hbit]
      by_cases h : i = d <;> simp [h, hi]
    · simp only [if_true, BitVec.getLsbD_or, hbit]
      by_cases h : i = d <;> simp [h]
  · have hne : i ≠ d := by omega
    rw [if_neg hne, BitVec.getLsbD_of_ge _ _ (by omega), BitVec.getLsbD_of_ge _ _ (by omega)]

/-! ## A change of phase, R82 -/

theorem enterPhase_phase (s : State) (p : Phase) : (s.enterPhase p).gen.phase = p := by
  simp only [State.enterPhase]
  split
  · assumption
  · simp [raise_gen, stageLog_gen]

/-- A change of phase touches neither the domains nor what a restart has under way. -/
theorem enterPhase_keeps (s : State) (p : Phase) : (s.enterPhase p).gen.ready = s.gen.ready ∧
    (s.enterPhase p).gen.warmBusy = s.gen.warmBusy ∧ (s.enterPhase p).gen.selfRefresh = s.gen.selfRefresh := by
  have hroles (s : State) : s.rolesLost.gen = s.gen :=
    (State.rolesLost_kept (pts := [.regs, .prt]) (Kept.refl _ s) (List.Subset.refl _)).same .gen (by decide)
  simp only [State.enterPhase]
  split
  · exact ⟨rfl, rfl, rfl⟩
  · split <;> simp [raise_gen, stageLog_gen, State.leaveRun, hroles, State.releaseAlive]

/-- A module that is not to be isolated is not so after a change of phase (spec/18_protection.md R556). -/
theorem enterPhase_leaving {s : State} (p : Phase) (h : s.prt.leaving = none) : (s.enterPhase p).prt.leaving = none := by
  simp only [State.enterPhase]
  split
  · exact h
  · rw [raise_prt, stageLog_prt]
    split
    · rfl
    · exact h

/-- Entry to RUN ends every restart and keeps the READY domains (R80, R91). -/
theorem enterRun_gen {s : State} (h : s.prt.leaving = none) : s.enterRun.gen.phase = .run ∧
    s.enterRun.gen.warmBusy = false ∧ s.enterRun.gen.ready = s.gen.ready ∧
    s.enterRun.gen.selfRefresh = s.gen.selfRefresh := by
  simp only [State.enterRun]
  generalize hs1 : State.mk .. = s1
  have hleaving : s1.prt.leaving = none := by rw [← hs1]; exact h
  obtain ⟨hready, hwarm, hself⟩ := enterPhase_keeps s1 .run
  rw [(domainsSettled_gen _ (enterPhase_leaving .run hleaving)).1]
  subst hs1
  exact ⟨enterPhase_phase .., hwarm, hready, hself⟩

/-! ## Into the restart, R91, R92 -/

theorem wipeQc_gen (s : State) :
    s.wipeQc.gen = { s.gen with hbOn := false, aliveOut := false, hbCount := 0 } := by
  unfold State.wipeQc
  rw [(autoRelease_stays _ _).gen]
  rfl

theorem autoRelease_same (s : State) (m : Req) (p : Part) (h : p ∉ [Part.regs, .pf0, .pf1, .rng, .sem, .mil, .out]) :
    p.same s (s.autoRelease m) :=
  (State.autoRelease_kept (Kept.refl _ s) (List.Subset.refl _)).same p h

theorem wipeQc_prt (s : State) : s.wipeQc.prt = PrtSt.init := autoRelease_same _ .mate .prt (by decide)

theorem wipeQc_qsc (s : State) : s.wipeQc.qsc = QscSt.init := autoRelease_same _ .mate .qsc (by decide)

theorem domainsSettled_qsc (s : State) : s.domainsSettled.qsc = s.qsc :=
  (State.domainsSettled_kept (Kept.refl _ s) (List.Subset.refl _)).same .qsc (by decide)

/-- A warm QX restart is under way, with DRAM in self-refresh and its contents retained. -/
def begun (s : State) : State :=
  { s with gen := { s.gen with warmBusy := true, selfRefresh := true, retain := true } }

/-- QC is reset with its configuration kept, and released unless HOLD keeps it in reset. -/
def restartQc (s : State) : State :=
  let s := s.wipeQc.warmRegs domQC
  if s.held domQC then s else s.qcOut

/-- QC and QB train. -/
def qcTrains (s : State) : State := { s with gen := { s.gen with ready := s.gen.ready &&& ~~~0x00000C00 } }

theorem restartQc_gen (s : State) :
    ∃ on, (restartQc s).gen = { s.gen with hbOn := on, aliveOut := false, hbCount := 0 } := by
  have hgen : (s.wipeQc.warmRegs domQC).gen = s.wipeQc.gen := rfl
  simp only [restartQc]
  split
  · exact ⟨false, hgen.trans (wipeQc_gen s)⟩
  · exact ⟨s.wipeQc.gen.phase == .run, by simp only [State.qcOut, hgen, wipeQc_gen]⟩

theorem restartQc_prt (s : State) : (restartQc s).prt = PrtSt.init := by
  simp only [restartQc]; split <;> exact wipeQc_prt s

theorem restartQc_qsc (s : State) : (restartQc s).qsc = QscSt.init := by
  simp only [restartQc]; split <;> exact wipeQc_qsc s

/-- What a warm QX restart that is heard does, in its order. -/
theorem warmQx_eq {s : State} {req : Req} (hreq : s.mayReset req = true) (hrun : s.gen.phase = .run)
    (hwarm : s.gen.warmBusy = false) (hbusy : s.gen.reqBusy = false) : warmQx req resetKey s =
      (qcTrains (restartQc (begun ((s.enterPhase .init).logReset 0)))).domainsSettled := by
  have hmay : ¬ (!s.mayReset req) = true := by simp [hreq]
  have hkey : ¬ (resetKey != resetKey) = true := by simp
  have hheard : ¬ (s.gen.phase != .run || s.gen.warmBusy || s.gen.reqBusy) = true := by simp [hrun, hwarm, hbusy]
  exact (if_neg hmay).trans ((if_neg hkey).trans (if_neg hheard))

/-- It takes the module from RUN to INIT, with DRAM in self-refresh, nothing queued and neither QC nor QB READY. -/
theorem warmQx_starts {s : State} {req : Req} (hreq : s.mayReset req = true) (hrun : s.gen.phase = .run)
    (hwarm : s.gen.warmBusy = false) (hbusy : s.gen.reqBusy = false) :
    (warmQx req resetKey s).gen.phase = .init ∧ (warmQx req resetKey s).gen.warmBusy = true ∧
    (warmQx req resetKey s).gen.selfRefresh = true ∧ (warmQx req resetKey s).qsc.qs = [] ∧
    (warmQx req resetKey s).gen.ready.getLsbD 10 = false ∧ (warmQx req resetKey s).gen.ready.getLsbD 11 = false := by
  rw [warmQx_eq hreq hrun hwarm hbusy]
  have hphase : ((s.enterPhase .init).logReset 0).gen.phase = .init := by rw [logReset_gen, enterPhase_phase]
  generalize (s.enterPhase .init).logReset 0 = s1 at *
  obtain ⟨on, hgen⟩ := restartQc_gen (begun s1)
  have hprt := restartQc_prt (begun s1)
  have hqsc := restartQc_qsc (begun s1)
  generalize restartQc (begun s1) = s2 at *
  have hleaving : (qcTrains s2).prt.leaving = none := congrArg PrtSt.leaving hprt
  rw [domainsSettled_qsc, (domainsSettled_gen _ hleaving).1]
  simp [qcTrains, hgen, begun, hphase, hqsc, QscSt.init]

/-- Outside RUN a warm QX restart is ignored and sets PHASE_REQ_REJ (R93). -/
theorem warmQx_rejected {s : State} {req : Req} (hreq : s.mayReset req = true) (hrun : s.gen.phase ≠ .run) :
    warmQx req resetKey s = s.phaseReject := by
  simp [warmQx, hreq, hrun]

/-! ## Out of the restart, R91 -/

/-- Retraining channels tells of those that fail, and changes nothing else of the module. -/
theorem retrainChannels_gen (s : State) (fails : BitVec 144) :
    ((List.range 9).foldl (fun s k => (List.range 16).foldl (fun s c =>
      s.retrainChannel k c (fails.getLsbD (16 * k + c))) s) s).gen = s.gen :=
  ((Kept.refl causeParts s).foldl fun _ _ hk => hk.foldl fun _ _ hk =>
    State.retrainChannel_kept hk (List.Subset.refl _)).same .gen (by decide)

/-- Once channels have left self-refresh none is in it, and nothing else of the module part has changed
(spec/13_memory.md R407). -/
theorem leaveSelfRefresh_gen (s : State) (fails : BitVec 144) :
    (s.leaveSelfRefresh fails).gen = { s.gen with selfRefresh := false } := by
  unfold State.leaveSelfRefresh
  split
  · rename_i h
    have h : s.gen.selfRefresh = false := by simpa using h
    rw [← h]
  · exact retrainChannels_gen _ fails

theorem leaveSelfRefresh_same (s : State) (fails : BitVec 144) (p : Part)
    (h : p ∉ [Part.regs, .gen, .pf0, .pf1, .rng, .ddc, .mil, .out]) : p.same s (s.leaveSelfRefresh fails) :=
  (State.leaveSelfRefresh_kept (Kept.refl _ s) (List.Subset.refl _)).same p h

theorem enterRun_same (s : State) (p : Part)
    (h : p ∉ [Part.freeCtr, .regs, .gen, .pf0, .pf1, .rng, .sem, .fab, .prt, .tim, .mil, .out]) : p.same s s.enterRun :=
  (State.enterRun_kept (Kept.refl _ s) (List.Subset.refl _)).same p h

/-- With the couch link not DOWN and no read waiting for it, nothing follows from its state. -/
theorem couchSettled_gen {s : State} (hst : s.couch.st ≠ .down) (hwaits : s.acc.waits = []) :
    s.couchSettled.gen = s.gen := by
  unfold State.couchSettled
  split
  · rfl
  · simp [hst, hwaits, State.deliver16]

/-- The end of a warm QX restart: RUN, with QC and QB READY and DRAM out of self-refresh; the couch link is not DOWN,
and reads that wait for it go on waiting. -/
theorem warmQxComplete_ends {s : State} (fails : BitVec 144) (hwarm : s.gen.warmBusy = true)
    (hleaving : s.prt.leaving = none) (hqc : s.domUp domQC = true) (hqb : s.domUp domQB = true) :
    (warmQxComplete fails s).gen.phase = .run ∧ (warmQxComplete fails s).gen.warmBusy = false ∧
    (warmQxComplete fails s).gen.ready.getLsbD 10 = true ∧ (warmQxComplete fails s).gen.ready.getLsbD 11 = true ∧
    (warmQxComplete fails s).gen.selfRefresh = false ∧ (warmQxComplete fails s).couch.st ≠ .down ∧
    (warmQxComplete fails s).acc = s.acc := by
  simp only [warmQxComplete, hwarm, Bool.not_true, Bool.false_eq_true, if_false, List.foldl, hqc, hqb, if_true]
  generalize hready : putDomain (putDomain s.gen.ready domQC true) domQB true = ready
  have hbit (i : Nat) : ready.getLsbD i = if i = 11 then true else if i = 10 then true else s.gen.ready.getLsbD i := by
    rw [← hready, putDomain_bit _ (by decide), putDomain_bit _ (by decide)]; rfl
  have hprt : (s.leaveSelfRefresh fails).prt = s.prt := leaveSelfRefresh_same s fails .prt (by decide)
  have hacc : (s.leaveSelfRefresh fails).acc = s.acc := leaveSelfRefresh_same s fails .acc (by decide)
  generalize hs1 : State.mk .. = s1
  have hleaving1 : s1.prt.leaving = none := by rw [← hs1]; exact hprt ▸ hleaving
  obtain ⟨hrun, hidle, hrdy, hself⟩ := enterRun_gen hleaving1
  have hcouch : s1.enterRun.couch = s1.couch := enterRun_same s1 .couch (by decide)
  have hacc1 : s1.enterRun.acc = s1.acc := enterRun_same s1 .acc (by decide)
  subst hs1
  refine ⟨hrun, hidle, ?_, ?_, ?_, ?_, hacc1.trans hacc⟩
  · rw [set_gen, hrdy]; simp [hbit]
  · rw [set_gen, hrdy]; simp [hbit]
  · rw [set_gen, hself]; simp [leaveSelfRefresh_gen]
  · rw [set_couch, hcouch]; dsimp only; split <;> decide

/-! ## A cold reset during one, R85, R93 -/

theorem cold_gen (s : State) : s.cold.gen = { GenSt.init with
    slotId := s.gen.slotId, matePresent := s.gen.matePresent, aliveIn := s.gen.aliveIn, perst := s.gen.perst
    perstReset := s.gen.perstReset, modResetLow := s.gen.modResetLow, goodAt := s.gen.goodAt } := by
  unfold State.cold; split <;> rfl

/-- DRAM contents do not outlast a cold reset. -/
theorem cold_ddc (s : State) : s.cold.ddc = DdcSt.init := by
  unfold State.cold; split <;> rfl

/-- After a cold reset HP, ML and TM are up and no other domain is. -/
theorem cold_domUp (s : State) {d : Nat} (hd : d < 29) : s.cold.domUp d = decide (26 ≤ d) := by
  have h : ∀ d : Fin 29, ((0x1C000000#29).getLsbD d.val && !(0x03FFFFFF#29).getLsbD d.val) = decide (26 ≤ d.val) := by
    decide
  simpa [State.domUp, cold_gen, GenSt.init] using h ⟨d, hd⟩

/-- A cold start is a cold reset, its cause and its log entries. -/
theorem coldStart_same (s : State) (cause : Field) (p : Part) (h : p ∉ causeParts) :
    p.same s.cold (s.coldStart cause) := by
  refine Kept.same (ps := causeParts) ?_ p h
  unfold State.coldStart
  extract_lets old thermal s1 s2
  have h1 : Kept causeParts s.cold s1 :=
    State.set_kept (State.set_kept (Kept.refl _ _) (by decide)) (by decide)
  have h2 : Kept causeParts s.cold s2 := State.logReset_kept h1 (by decide)
  exact Kept.ite h2 (State.raise_kept (State.stageLog_kept h2 (by decide)) (List.Subset.refl _))

theorem cold_takes_effect {s : State} {req : Req} (hreq : s.mayReset req = true) (hpower : s.gen.power = .up) :
    Machine.cold req resetKey s = s.coldStart GEN_RESET_CAUSE_SW_COLD := by
  simp [Machine.cold, hreq, hpower]

/-! ## A power-fail during one, R57, R93 -/

theorem watchSf_gen (s : State) (es : List Nat) (f : State → State) : (s.watchSf es f).gen = (f s).gen := by
  unfold State.watchSf
  exact (State.groupsSd_kept (pts := [.regs, .pf0, .pf1, .rng, .pmn, .mil, .out])
    ((Kept.refl _ (f s)).foldl fun _ _ hk => State.sfSettle_kept hk (List.Subset.refl _))
    (List.Subset.refl _)).same .gen (by decide)

/-- What the reset of a datapath domain other than QC may change. -/
def wipeParts : List Part :=
  [.regs, .shadow, .acc, .couch, .pf0, .pf1, .rng, .ing, .tab, .asa, .cmt, .bpm, .ddc, .qsc, .fab, .egr, .lin, .mil,
   .arrivals, .out]

/-- The reset of a datapath domain clears nothing of the module part, but that of QC releases ALIVE_OUT_N (R85). -/
theorem wipe_gen (s : State) {d : Nat} (hd : d < 26) (hold : Bool) :
    (s.wipe d hold).gen = if d = domQC then { s.gen with hbOn := false, aliveOut := false, hbCount := 0 } else s.gen := by
  split
  · rename_i h; subst h; exact wipeQc_gen s
  · rename_i hqc
    refine Kept.same (ps := wipeParts) ?_ .gen (by decide)
    have hk := Kept.refl wipeParts s
    have hhp : d ≠ domHP := by simp only [domHP]; omega
    simp only [State.wipe, if_neg hqc, if_pos hd]
    exact Kept.ite (State.wipeLd_kept hk (by decide)) <| Kept.ite (State.wipeFc_kept hk (by decide)) <|
      Kept.ite (State.wipeFl_kept hk (by decide)) <| Kept.ite hk <|
      Kept.ite (State.wipeDc_kept hk (by decide)) (State.wipeFb_kept hk (by decide))

/-- A datapath domain enters reset and loses power, as all do at power-fail. -/
def cutOff (s : State) (d : Nat) : State := (s.enterReset d false).markPower d false

theorem cutOff_gen (s : State) {d : Nat} (hd : d < 26) : (cutOff s d).gen.phase = s.gen.phase ∧
    (s.gen.aliveOut = false → (cutOff s d).gen.aliveOut = false) ∧
    (cutOff s d).gen.powered = putDomain s.gen.powered d false := by
  unfold cutOff State.enterReset State.markPower
  simp only [watchSf_gen, State.markReset, wipe_gen s hd]
  split <;> simp

/-- Cutting off domains leaves the phase and a released ALIVE_OUT_N, and each of them without power. -/
theorem cutOff_range (s : State) {n : Nat} (hn : n ≤ 26) :
    ((List.range n).foldl cutOff s).gen.phase = s.gen.phase ∧
    (s.gen.aliveOut = false → ((List.range n).foldl cutOff s).gen.aliveOut = false) ∧
    ∀ d < n, ((List.range n).foldl cutOff s).gen.powered.getLsbD d = false := by
  induction n with
  | zero => simp
  | succ n ih =>
    obtain ⟨ihphase, ihalive, ihoff⟩ := ih (by omega)
    rw [List.range_succ, List.foldl_append, List.foldl_cons, List.foldl_nil]
    generalize (List.range n).foldl cutOff s = t at *
    obtain ⟨hphase, halive, hoff⟩ := cutOff_gen t (d := n) (by omega)
    refine ⟨hphase.trans ihphase, fun h => halive (ihalive h), fun d hd => ?_⟩
    rw [hoff, putDomain_bit _ (by omega)]
    split
    · rfl
    · exact ihoff d (by omega)

/-- With QC down nothing of protection is judged. -/
theorem domainsSettled_gen_of_qcDown {s : State} (h : s.domUp domQC = false) : s.domainsSettled.gen = s.gen := by
  have hgen := (settleFab_gen s).1
  have hqc : s.settleFab.domUp domQC = false := by simpa [State.domUp, hgen] using h
  simp [State.domainsSettled, State.protJudge, hqc, hgen]

theorem datapathOff_gen (s : State) : s.datapathOff.gen.phase = s.gen.phase ∧
    (s.gen.aliveOut = false → s.datapathOff.gen.aliveOut = false) ∧
    ∀ d < 26, s.datapathOff.gen.powered.getLsbD d = false := by
  obtain ⟨hphase, halive, hoff⟩ := cutOff_range s (Nat.le_refl 26)
  have heq : s.datapathOff = ((List.range 26).foldl cutOff s).domainsSettled := rfl
  rw [heq, domainsSettled_gen_of_qcDown (by simp only [State.domUp, hoff domQC (by decide), Bool.false_and])]
  exact ⟨hphase, halive, hoff⟩

theorem releaseAlive_phase (s : State) : s.releaseAlive.gen.phase = s.gen.phase := rfl

theorem releaseAlive_alive (s : State) : s.releaseAlive.gen.aliveOut = false := rfl

/-- Power-fail is declared: no request is under way any more (R93). -/
def declared (overvoltage : Bool) (s : State) : State :=
  { s with gen := { s.gen with power := .failing, reqBusy := false, warmBusy := false, overvolt := overvoltage } }

theorem declared_gen (overvoltage : Bool) (s : State) : (declared overvoltage s).gen.phase = s.gen.phase ∧
    (declared overvoltage s).gen.power = .failing ∧ (declared overvoltage s).gen.warmBusy = false ∧
    (declared overvoltage s).gen.aliveOut = s.gen.aliveOut ∧ ∀ d, (declared overvoltage s).domUp d = s.domUp d :=
  ⟨rfl, rfl, rfl, rfl, fun _ => rfl⟩

/-- A power-fail runs its sequence, whatever was under way (R55, R57). -/
theorem powerFail_eq {s : State} (overvoltage : Bool) (h : s.gen.power = .up ∨ s.gen.power = .sequencing) :
    powerFail overvoltage s = declared overvoltage (s.enterPhase .off).releaseAlive.datapathOff := by
  refine if_neg ?_
  rcases h with h | h <;> simp [h]

theorem powerFail_gen {s : State} (overvoltage : Bool) (h : s.gen.power = .up ∨ s.gen.power = .sequencing) :
    (powerFail overvoltage s).gen.phase = .off ∧ (powerFail overvoltage s).gen.power = .failing ∧
    (powerFail overvoltage s).gen.warmBusy = false ∧ (powerFail overvoltage s).gen.aliveOut = false ∧
    ∀ d < 26, (powerFail overvoltage s).domUp d = false := by
  rw [powerFail_eq overvoltage h]
  have hsilent := releaseAlive_alive (s.enterPhase .off)
  have hoff := (releaseAlive_phase _).trans (enterPhase_phase s .off)
  generalize (s.enterPhase .off).releaseAlive = r at *
  obtain ⟨hphase, halive, hcut⟩ := datapathOff_gen r
  generalize r.datapathOff = t at *
  obtain ⟨hphase', hpower, hwarm, halive', hup⟩ := declared_gen overvoltage t
  refine ⟨by rw [hphase', hphase, hoff], hpower, hwarm, by rw [halive', halive hsilent], fun d hd => ?_⟩
  rw [hup, State.domUp, hcut d hd, Bool.false_and]

/-! ## The statement -/

theorem exec_warmQx {req : Req} {s : State} (key : BitVec 16) (h : s.arrives req .genResetCtrl ix0 = true) :
    exec (.warmQx req key) s = .next (warmQx req key (s.arrived req .genResetCtrl ix0)) :=
  congrArg Host.Outcome.next (own_arrives h)

theorem exec_cold {req : Req} {s : State} (key : BitVec 16) (h : s.arrives req .genResetCtrl ix0 = true) :
    exec (.cold req key) s = .next (Machine.cold req key (s.arrived req .genResetCtrl ix0)) :=
  congrArg Host.Outcome.next (own_arrives h)

/-- Settles O19: each command's effect above, where its write arrives. -/
theorem warmQxRestart : Obligations.WarmQxRestart := by
  unfold Obligations.WarmQxRestart
  refine ⟨?start, ?ends, ?rejected, ?cold, ?modReset, ?powerFail⟩
  case start =>
    rintro req s u harr rfl hreq hrun hwarm hbusy
    exact ⟨_, exec_warmQx _ harr, warmQx_starts hreq hrun hwarm hbusy⟩
  case ends =>
    intro fails s hwarm hleaving hqc hqb hwaits
    obtain ⟨hrun, hidle, hc, hb, hself, hst, hacc⟩ := warmQxComplete_ends fails hwarm hleaving hqc hqb
    refine ⟨_, rfl, ?_⟩
    rw [couchSettled_gen hst (by rw [hacc, hwaits])]
    exact ⟨hrun, hidle, hc, hb, hself⟩
  case rejected =>
    rintro req s u harr rfl hreq hrun hhp
    refine ⟨_, exec_warmQx _ harr, ?_⟩
    rw [← resetKey, warmQx_rejected hreq hrun]
    exact ⟨raise_flag hhp (by decide) (by decide) (.inr (by decide)), raise_same _ _⟩
  case cold =>
    rintro req s u harr rfl hreq - hpower
    refine ⟨_, exec_cold _ harr, ?_⟩
    rw [← resetKey, cold_takes_effect hreq hpower]
    generalize s.arrived req .genResetCtrl ix0 = u
    have hgen : (u.coldStart GEN_RESET_CAUSE_SW_COLD).gen = u.cold.gen := coldStart_same u _ .gen (by decide)
    have hddc : (u.coldStart GEN_RESET_CAUSE_SW_COLD).ddc = u.cold.ddc := coldStart_same u _ .ddc (by decide)
    refine ⟨?_, ?_, ?_, hddc.trans (cold_ddc u), fun d hd => ?_⟩
    · rw [hgen, cold_gen]; rfl
    · rw [hgen, cold_gen]; rfl
    · rw [hgen, cold_gen]; rfl
    · rw [← cold_domUp u hd, State.domUp, State.domUp, hgen]
  case modReset =>
    intro s hpower hlow _
    have heq : modReset s = { s.cold with gen := { s.cold.gen with
        modResetLow := true, inReset := 0x1FFFFFFF, ready := 0, tripped := s.gen.tripped } } := by
      simp [modReset, hpower, hlow]
    refine ⟨_, congrArg Host.Outcome.next heq, ?_, ?_, cold_ddc s, rfl⟩
    · simp [cold_gen, GenSt.init]
    · simp [cold_gen, GenSt.init]
  case powerFail =>
    intro overvoltage s hpower _
    exact ⟨_, rfl, powerFail_gen overvoltage hpower⟩

end Sys2Proof.Proofs
end

/-! # Doorbells, spec/05_rings_mailboxes_locks.md R141, R142 -/

section
namespace Sys2Proof.Proofs

open Sys2Proof.Machine Sys2Proof.Machine.Fld Sys2Proof.Laws

/-! ## What an operation keeps of every ring -/

theorem ring_setRing (s : State) (r : Nat) (x : Ring) (k : Nat) :
    (s.setRing r x).ring k = if k = r then x else s.ring k := by
  split
  · rename_i h; subst h; exact get_put_same ..
  · rename_i h; exact get_put_other h ..

/-- What `φ` reads of a ring is the same of every ring in both states. -/
structure RingsKeep {α : Type} (φ : Ring → α) (s t : State) : Prop where
  same : ∀ k, φ (t.ring k) = φ (s.ring k)

section
variable {α : Type} {φ : Ring → α} {s0 s t u : State}

theorem RingsKeep.refl (φ : Ring → α) (s : State) : RingsKeep φ s s := ⟨fun _ => rfl⟩

theorem RingsKeep.ite {c : Prop} [Decidable c] (h : RingsKeep φ s t) (k : RingsKeep φ s u) :
    RingsKeep φ s (if c then t else u) := by split <;> assumption

/-- An operation that does not touch the rings keeps everything of them. -/
theorem RingsKeep.then_rings (h : RingsKeep φ s0 s) (ht : t.rng.rings = s.rng.rings) : RingsKeep φ s0 t :=
  ⟨fun k => by rw [← h.same k, State.ring, ht, State.ring]⟩

theorem RingsKeep.then_kept {ps : List Part} (h : RingsKeep φ s0 s) (ht : Kept ps s t) (hp : .rng ∉ ps) :
    RingsKeep φ s0 t :=
  h.then_rings (congrArg RingsSt.rings (ht.same .rng hp))

theorem RingsKeep.then_setRing {r : Nat} {x : Ring} (h : RingsKeep φ s0 s) (hx : φ x = φ (s.ring r)) :
    RingsKeep φ s0 (s.setRing r x) := ⟨fun k => by
  rw [← h.same k, ring_setRing]; split
  · rename_i hk; rw [hx, hk]
  · rfl⟩

end

/-! ## What a record and a cause leave of a ring -/

/-- What tells whether a ring runs and what its host has posted; the module's own progress is not in it. -/
def runOf (x : Ring) : RingState × Nat × W32 := (x.state, x.haltCode, x.hostIdx)

section
variable {s0 s : State}

theorem ringRequest_keepsRun (h : RingsKeep runOf s0 s) (r : Nat) : RingsKeep runOf s0 (s.ringRequest r) := by
  unfold State.ringRequest
  refine .then_kept (ps := [.pf0, .pf1, .out]) (.then_setRing h (r := r) ?_) (State.settleIntx_kept
    (State.sendVector_kept (Kept.refl ..) (by decide)) (by decide)) (by decide)
  rfl

theorem ringCompletion_keepsRun (h : RingsKeep runOf s0 s) (r : Nat) : RingsKeep runOf s0 (s.ringCompletion r) := by
  have hx := h.then_setRing (r := r) (x := { s.ring r with gathered := (s.ring r).gathered + 1 }) rfl
  exact .ite (ringRequest_keepsRun hx r) hx

theorem writeRec_keepsRun (h : RingsKeep runOf s0 s) (r : Nat) (bytes : List Byte) :
    RingsKeep runOf s0 (s.writeRec r bytes) := by
  unfold State.writeRec
  extract_lets x i t
  have ht : t.rng = s.rng := (State.dmaWrite_kept (Kept.refl [.out] s) (by decide)).same .rng (by decide)
  have hx : x = t.ring r := by simp [x, State.ring, ht]
  exact ringCompletion_keepsRun ((h.then_rings (congrArg RingsSt.rings ht)).then_setRing (by rw [hx]; rfl)) r

theorem putRec_keepsRun (h : RingsKeep runOf s0 s) (r : Nat) (bytes : List Byte) :
    RingsKeep runOf s0 (s.putRec r bytes).1 := by
  have hdrop : RingsKeep runOf s0 (s.ringDrop r) := h.then_setRing rfl
  unfold State.putRec
  repeat' split
  · exact hdrop
  · exact h
  · exact hdrop
  · exact writeRec_keepsRun h r bytes
  · exact h.then_rings rfl
  · exact hdrop

/-- Setting a cause writes records and may lose them, but starts, halts and posts nothing. -/
theorem raiseN_keepsRun (h : RingsKeep runOf s0 s) (n : Nat) (f : Field) (inst bit a b : Nat) :
    RingsKeep runOf s0 (State.raiseN n s f inst bit a b) := by
  induction n generalizing s f inst bit a b with
  | zero => exact h
  | succ n ih =>
    have hlog {t : State} (ht : RingsKeep runOf s0 t) (k w x y : Nat) : RingsKeep runOf s0 (t.stageLog k w x y) :=
      ht.then_kept (ps := [.mil, .out]) (State.stageLog_kept (Kept.refl ..) (by decide)) (by decide)
    unfold State.raiseN
    extract_lets blk old was s1 s3
    have h1 : RingsKeep runOf s0 s1 := h.then_rings rfl
    have h3 : RingsKeep runOf s0 s3 := by
      simp only [s3]
      split
      · exact hlog h1 ..
      · rename_i er _
        generalize eventWord f inst bit (s1.ring er).seq.toNat = w
        have h2 := putRec_keepsRun (hlog h1 1 w a b) er ((s1.stageLog 1 w a b).eventBytes w a b)
        split <;> rename_i e <;> rw [e] at h2
        · exact h2.then_setRing rfl
        · exact h2
        · exact ih h2 ..
    exact .ite h (h3.then_kept (ps := [.pf0, .pf1, .out]) (State.settleIrq_kept (Kept.refl ..) (by decide)) (by decide))

theorem raiseAt_keepsRun (h : RingsKeep runOf s0 s) (f : Field) (inst bit a b : Nat) :
    RingsKeep runOf s0 (s.raiseAt f inst bit a b) := raiseN_keepsRun h 3 f inst bit a b

/-! ## A ring halts, R146 -/

theorem commitLost_keepsRun (h : RingsKeep runOf s0 s) (r : Nat) : RingsKeep runOf s0 (s.commitLost r) := by
  unfold State.commitLost
  extract_lets c t
  have ht : RingsKeep runOf s0 t := h.then_rings rfl
  refine .ite (raiseAt_keepsRun (ht.then_kept (ps := [.regs, .cmt]) ?_ (by decide)) ..) ht
  exact State.stageEnd_kept (State.reamRefused_kept (Kept.refl ..) (by decide)) (by decide)

/-- A ring halted with a code, with no slot and no request that waits for a tag. -/
def haltedNow (s : State) (r code : Nat) : State :=
  (s.setRing r { s.ring r with state := .halted, haltCode := code, slots := 0 }).dropWaits r

/-- The halt is logged, counted and raised. -/
def haltTold (s : State) (r code : Nat) : State :=
  let s := if s.fld RNG_HALT_LOG_COUNT ix0 = 0 then
    (s.set RNG_HALT_LOG_RING ix0 r).set RNG_HALT_LOG_CODE ix0 code else s
  (s.count RNG_HALT_LOG_COUNT ix0 1).raiseAt RNG_INT_STATUS_RING_HALTED 0 0 r code

/-- A halted ring loses its ream and asks for its vector. -/
def haltSettled (s : State) (r : Nat) : State :=
  let s := if isCommit r then s.commitLost r else s
  if s.flag RNG_CFG_IRQ_EN (ixI r) && (s.ring r).armed then s.ringRequest r else s

theorem haltRing_eq {r code : Nat} (hrun : (s.ring r).state = .run) :
    s.haltRing r code = haltSettled (haltTold (haltedNow s r code) r code) r :=
  if_neg (by simp [hrun])

theorem haltTold_keepsRun (h : RingsKeep runOf s0 s) (r code : Nat) : RingsKeep runOf s0 (haltTold s r code) := by
  unfold haltTold
  extract_lets t
  have ht : RingsKeep runOf s0 t := .ite (h.then_rings rfl) h
  exact raiseAt_keepsRun (ht.then_rings (congrArg _ (count_rng ..))) ..

theorem haltSettled_keepsRun (h : RingsKeep runOf s0 s) (r : Nat) : RingsKeep runOf s0 (haltSettled s r) := by
  unfold haltSettled
  extract_lets t
  have ht : RingsKeep runOf s0 t := .ite (commitLost_keepsRun h r) h
  exact .ite (ringRequest_keepsRun ht r) ht

/-- A ring that ran is left halted with the code, whatever follows from its halt. -/
theorem haltRing_run {r code : Nat} (hrun : (s.ring r).state = .run) :
    runOf ((s.haltRing r code).ring r) = (.halted, code, (s.ring r).hostIdx) := by
  rw [haltRing_eq hrun, (haltSettled_keepsRun (haltTold_keepsRun (RingsKeep.refl ..) r code) r).same r]
  exact congrArg runOf ((ring_setRing ..).trans (if_pos rfl))

end

/-! ## A fetch, R141, R153 -/

/-- What a fetch leaves of a ring: its indices, and that it runs. -/
def indicesOf (x : Ring) : W32 × W32 × RingState := (x.hostIdx, x.modIdx, x.state)

section
variable {s0 s : State}

theorem growSlots_keepsIndices (h : RingsKeep indicesOf s0 s) (r n : Nat) :
    RingsKeep indicesOf s0 (s.growSlots r n) := by
  induction n generalizing s with
  | zero => exact h
  | succ n ih => exact .ite (ih (h.then_setRing rfl)) h

theorem sendRead_keepsIndices (h : RingsKeep indicesOf s0 s) (f : Fn) (u : ReadUse) :
    RingsKeep indicesOf s0 (s.sendRead f u) := by
  cases u with
  | ring r =>
    unfold State.sendRead
    extract_lets tag p t t'
    have ht : RingsKeep indicesOf s0 t := h.then_rings rfl
    exact (ht.then_setRing rfl : RingsKeep indicesOf s0 t').then_rings rfl
  | millBlock _ => exact h.then_rings rfl

theorem startFetch_keepsIndices (h : RingsKeep indicesOf s0 s) (r : Nat) :
    RingsKeep indicesOf s0 (s.startFetch r) := by
  have hgrow := growSlots_keepsIndices h r (min 8 ((s.ring r).hostIdx - (s.ring r).modIdx).toNat)
  exact .ite (.ite hgrow (.ite (sendRead_keepsIndices hgrow ..) (hgrow.then_rings rfl))) h

end

/-- The module fetches no descriptors of a ring that it writes records to. -/
theorem startFetch_of_record {s : State} {r : Nat} (h : isEvent r || isExport r) : s.startFetch r = s := by
  have htx : isTx r = false := by simp [isEvent, isExport, isTx] at *; omega
  have hcommit : isCommit r = false := by simp [isEvent, isExport, isCommit] at *; omega
  simp [State.startFetch, State.fetchDue, htx, hcommit]

/-! ## A doorbell, by whether the ring runs and whether it is valid -/

section
variable {s : State} {r : Nat} {h : W32}

theorem doorbell_valid (hrun : (s.ring r).state = .run) (hv : s.doorbellValid r h = true) :
    s.doorbell r h = (s.setRing r { s.ring r with hostIdx := h }).startFetch r := by
  simp [State.doorbell, hrun, hv]

theorem doorbell_invalid (hrun : (s.ring r).state = .run) (hv : s.doorbellValid r h = false) :
    s.doorbell r h = s.haltRing r haltBadDoorbell := by
  simp [State.doorbell, hrun, hv]

theorem doorbell_ignored (hrun : (s.ring r).state ≠ .run) : s.doorbell r h = s := by
  simp [State.doorbell, hrun]

/-- A doorbell that is taken sets HOST_IDX, and what is fetched then moves no index. -/
theorem doorbell_valid_indices (hrun : (s.ring r).state = .run) (hv : s.doorbellValid r h = true) :
    indicesOf ((s.doorbell r h).ring r) = (h, (s.ring r).modIdx, .run) := by
  rw [doorbell_valid hrun hv, (startFetch_keepsIndices (RingsKeep.refl ..) r).same r, ring_setRing, if_pos rfl, ← hrun]
  rfl

theorem doorbellValid_iff : s.doorbellValid r h = true ↔
    (if isEvent r || isExport r then (s.ring r).modIdx - h else h - (s.ring r).modIdx).toNat ≤ s.ringSize r := by
  unfold State.doorbellValid; split <;> simp

end

/-! ## The statement -/

/-- The state in which a doorbell that PF1 answers is judged: captures and pending low halves are gone. -/
def slotReached (r : Fin 16384) (s : State) : State := (s.release .pf1).dropLow .pf1 (64 * r.val + 8 * 0)

theorem slotReached_kept (r : Fin 16384) (s : State) : Kept [.acc] s (slotReached r s) :=
  State.dropLow_kept (State.release_kept (Kept.refl _ s) (by decide)) (by decide)

theorem slotReached_ring (r : Fin 16384) (s : State) (k : Nat) : (slotReached r s).ring k = s.ring k := rfl

theorem slotReached_valid (r : Fin 16384) (s : State) (k : Nat) (h : W32) :
    (slotReached r s).doorbellValid k h = s.doorbellValid k h := rfl

theorem exec_ringDoorbell {r : Fin 16384} {s : State} (h : W32) (ha : s.fnAnswers .pf1 = true) :
    exec (.ringDoorbell r h) s = .next ((slotReached r s).doorbell r.val h) :=
  congrArg Host.Outcome.next (if_pos ha)

/-- Settles O26: in the state that the doorbell reaches, by its validity and by whether the ring runs. -/
theorem doorbellsMoveOrHaltTheirRing : Obligations.DoorbellsMoveOrHaltTheirRing := by
  unfold Obligations.DoorbellsMoveOrHaltTheirRing
  refine ⟨?posted, ?record, ?invalid, ?ignored⟩
  case posted =>
    intro r h s ha hrun hevent hexport hroom
    rw [← slotReached_ring r s] at hrun
    have hv : (slotReached r s).doorbellValid r.val h = true := by
      rw [slotReached_valid, doorbellValid_iff, hevent, hexport]; exact hroom
    obtain ⟨hhost, hmod, hstate⟩ : _ = h ∧ _ = _ ∧ _ = _ := by
      simpa [indicesOf] using doorbell_valid_indices hrun hv
    refine ⟨_, exec_ringDoorbell h ha, hhost, hstate, hmod, ?_⟩
    rw [doorbell_valid hrun hv]
    exact (State.startFetch_kept (State.setRing_kept ((slotReached_kept r s).mono (by decide)) (by decide))
      (by decide)).same
  case record =>
    intro r h s ha hrun hrecord hroom
    rw [← slotReached_ring r s] at hrun
    have hv : (slotReached r s).doorbellValid r.val h = true := by
      rw [slotReached_valid, doorbellValid_iff, if_pos hrecord]; exact hroom
    obtain ⟨hhost, -, hstate⟩ : _ = h ∧ _ = _ ∧ _ = _ := by
      simpa [indicesOf] using doorbell_valid_indices hrun hv
    refine ⟨_, exec_ringDoorbell h ha, hhost, hstate, ?_⟩
    rw [doorbell_valid hrun hv, startFetch_of_record hrecord]
    exact (State.setRing_kept ((slotReached_kept r s).mono (by decide)) (by decide)).same
  case invalid =>
    intro r h s ha hrun hfar
    rw [← slotReached_ring r s] at hrun
    have hv : (slotReached r s).doorbellValid r.val h = false := by
      rw [slotReached_valid, Bool.eq_false_iff, Ne, doorbellValid_iff]; exact Nat.not_le.2 hfar
    refine ⟨_, exec_ringDoorbell h ha, ?_⟩
    rw [doorbell_invalid hrun hv]
    simpa [runOf, haltBadDoorbell, slotReached_ring] using haltRing_run (code := haltBadDoorbell) hrun
  case ignored =>
    intro r h s ha hrun
    rw [← slotReached_ring r s] at hrun
    refine ⟨_, exec_ringDoorbell h ha, ?_⟩
    rw [doorbell_ignored hrun]
    exact (slotReached_kept r s).same

end Sys2Proof.Proofs
end

/-! # Locks, spec/05_rings_mailboxes_locks.md R169 to R172 -/

section
namespace Sys2Proof.Proofs

open Sys2Proof.Machine Sys2Proof.Machine.Fld Sys2Proof.Laws

/-! ## The masters, and who owns a lock -/

section
variable {s t : State} {n : Nat} {m : Req}

/-- The ID of a master of the locks is not the 0 of a free lock. -/
theorem masterId_ne_zero (hm : s.lockMaster m = true) : masterId m ≠ 0 := by
  cases m with
  | pf1 => cases hm
  | _ => decide

/-- Who masters the locks does not depend on the locks, on what was sent, nor on what accesses have captured. -/
theorem lockMaster_of_frame (h : Frame [.acc, .sem, .out] s t) (m : Req) : t.lockMaster m = s.lockMaster m := by
  have hgen : t.gen = s.gen := h .gen (by decide)
  have hpf0 : t.pf0 = s.pf0 := h .pf0 (by decide)
  have hmil : t.mil = s.mil := h .mil (by decide)
  have hprt : t.prt = s.prt := h .prt (by decide)
  simp only [State.lockMaster, State.domUp, hgen, hpf0, hmil, hprt]

theorem domUp_of_gen (h : t.gen = s.gen) (d : Nat) : t.domUp d = s.domUp d := by simp only [State.domUp, h]

theorem lockOwner_of_sem (h : t.sem = s.sem) (k : Nat) : t.lockOwner k = s.lockOwner k := by
  simp only [State.lockOwner, h]

theorem lockOwner_of_put (h : t.sem = tblPut n (masterId m) s.sem) (k : Nat) :
    t.lockOwner k = if k = n then masterId m else s.lockOwner k := by
  simp only [State.lockOwner, h]
  split
  · rename_i hk; subst hk; exact get_put_same ..
  · rename_i hk; exact get_put_other hk ..

/-! ## One reader, R169 -/

theorem mate_reaches (hm : s.lockMaster m = true) (hhp : s.domUp domHP = true) :
    (m == .mate && !(s.lockMaster .mate && s.domUp domHP)) = false := by
  by_cases h : m = .mate
  · subst h; simp [hm, hhp]
  · simp [h]

theorem serveLock_high (hm : s.lockMaster m = true) (hhp : s.domUp domHP = true) :
    s.serveLock n .high m = s.emit (.answer m 0) := by
  simp only [State.serveLock, mate_reaches hm hhp]
  simp [hm, hhp]

theorem serveLock_free (hm : s.lockMaster m = true) (hhp : s.domUp domHP = true) (ho : s.lockOwner n = 0) :
    s.serveLock n .full m = ({ s with sem := tblPut n (masterId m) s.sem }).emit (.answer m 0) := by
  simp only [State.serveLock, mate_reaches hm hhp]
  simp [hm, hhp, State.readLock, ho]

theorem serveLock_held (hm : s.lockMaster m = true) (hhp : s.domUp domHP = true) (ho : s.lockOwner n ≠ 0) :
    s.serveLock n .full m = s.emit (.answer m (BitVec.ofNat 64 (s.lockOwner n))) := by
  simp only [State.serveLock, mate_reaches hm hhp]
  simp [hm, hhp, State.readLock, ho]

/-! ## Several readers in one cycle, R170 -/

/-- The masters that read in one cycle, in the order in which they are served. -/
def turn (readers : List Req) : List Req := [Req.mill, .pf0, .mate, .dbg].filter (readers.contains ·)

theorem turn_single (hm : s.lockMaster m = true) : turn [m] = [m] := by
  cases m with
  | pf1 => cases hm
  | _ => rfl

theorem mem_of_turn {readers : List Req} (h : m ∈ turn readers) : m ∈ readers :=
  List.contains_iff_mem.1 (List.mem_filter.1 h).2

/-- Readers of a lock that is held receive its owner's ID, one after the other. -/
theorem serveLocks_held {rest : List Req} (hm : ∀ x ∈ rest, s.lockMaster x = true) (hhp : s.domUp domHP = true)
    (ho : s.lockOwner n ≠ 0) : rest.foldl (fun s m => s.serveLock n .full m) s =
      { s with out := (rest.map fun x => Out.answer x (BitVec.ofNat 64 (s.lockOwner n))).reverse ++ s.out } := by
  induction rest generalizing s with
  | nil => rfl
  | cons x rest ih =>
    obtain ⟨hx, hrest⟩ := List.forall_mem_cons.1 hm
    rw [List.foldl_cons, serveLock_held hx hhp ho, ih (s := s.emit _) hrest hhp ho]
    simp [State.emit, State.lockOwner]

/-- Of the readers of a free lock the first in turn becomes its owner, and the others receive the owner's ID. -/
theorem semLockRead_free {n : Fin 64} {readers rest : List Req} (hm : ∀ x ∈ readers, s.lockMaster x = true)
    (hhp : s.domUp domHP = true) (ho : s.lockOwner n.val = 0) (hturn : turn readers = m :: rest) :
    semLockRead n readers .full s = { s with
      sem := tblPut n.val (masterId m) s.sem
      out := (rest.map fun x => Out.answer x (BitVec.ofNat 64 (masterId m))).reverse ++ .answer m 0 :: s.out } := by
  have hall : ∀ x ∈ m :: rest, s.lockMaster x = true := fun x hx => hm x (mem_of_turn (hturn ▸ hx))
  obtain ⟨hfirst, hrest⟩ := List.forall_mem_cons.1 hall
  have heq : semLockRead n readers .full s = (turn readers).foldl (fun s m => s.serveLock n.val .full m) s := rfl
  rw [heq, hturn, List.foldl_cons, serveLock_free hfirst hhp ho]
  generalize hu : State.emit _ _ = u
  have howner : u.lockOwner n.val = masterId m := by rw [← hu]; exact get_put_same ..
  rw [serveLocks_held (by subst hu; exact hrest) (by subst hu; exact hhp) (howner ▸ masterId_ne_zero hfirst), howner]
  subst hu; rfl

theorem semLockRead_single {n : Fin 64} (part : RdPart) (hm : s.lockMaster m = true) :
    semLockRead n [m] part s = s.serveLock n.val part m := by
  have heq : semLockRead n [m] part s = (turn [m]).foldl (fun s m => s.serveLock n.val part m) s := rfl
  rw [heq, turn_single hm, List.foldl_cons, List.foldl_nil]

/-- PF0 reaches the locks exactly where it answers requests. -/
theorem mayAccess_of_lockMaster_pf0 (hm : s.lockMaster .pf0 = true) (hhp : s.domUp domHP = true) :
    s.mayAccess .pf0 = true := by
  simpa [State.lockMaster, State.mayAccess, State.fnAnswers, State.fn, hhp] using hm

/-- Masters that reach the lock only release what they captured before they are served. -/
theorem lockReaders_kept {n : Fin 64} {readers : List Req} (hm : ∀ x ∈ readers, s.lockMaster x = true)
    (hhp : s.domUp domHP = true) : Kept [.acc] s (s.lockReaders n readers) := by
  unfold State.lockReaders
  rw [if_neg]
  · exact (Kept.refl _ s).foldl fun _ _ hk => State.release_kept hk (by decide)
  · intro h
    obtain ⟨hin, hno⟩ := Bool.and_eq_true_iff.1 h
    simp [mayAccess_of_lockMaster_pf0 (hm _ (List.contains_iff_mem.1 hin)) hhp] at hno

theorem exec_semLockRead (n : Fin 64) (readers : List Req) (part : RdPart) (s : State) :
    exec (.semLockRead n readers part) s = .next (semLockRead n readers part (s.lockReaders n readers)) := rfl

/-! ## Releases, R172 -/

/-- A lock is free. -/
def unlocked (s : State) (n : Nat) : State := { s with sem := tblDel n s.sem }

theorem unlocked_frame (s : State) (n : Nat) : Frame [.sem] s (unlocked s n) := fun p hp => by
  cases p with
  | sem => exact absurd (List.mem_singleton.2 rfl) hp
  | _ => rfl

/-- Freeing a lock leaves the other locks, and everything else. -/
theorem unlocked_frees (s : State) (n : Nat) : (unlocked s n).lockOwner n = 0 ∧
    (∀ k, k ≠ n → (unlocked s n).lockOwner k = s.lockOwner k) ∧ Frame [.sem] s (unlocked s n) := by
  refine ⟨?_, fun k hk => ?_, unlocked_frame s n⟩
  · exact congrArg (Option.getD · 0) (find_del_same n s.sem)
  · exact congrArg (Option.getD · 0) (find_del_other hk s.sem)

theorem rel_owner {n : Fin 64} (hm : s.lockMaster m = true) (hhp : s.domUp domHP = true)
    (ho : s.lockOwner n.val = masterId m) : rel m n s = unlocked s n.val := by
  simp [rel, hm, hhp, State.releaseLock, ho, masterId_ne_zero hm, unlocked]

theorem rel_foreign {n : Fin 64} (hm : s.lockMaster m = true) (hhp : s.domUp domHP = true)
    (ho : s.lockOwner n.val ≠ masterId m) : rel m n s = s.count SEM_FOREIGN_COUNT ix0 1 := by
  simp [rel, hm, hhp, State.releaseLock, ho]

theorem force_mill {n : Fin 64} (hml : s.domUp domML = true) (hhp : s.domUp domHP = true) :
    force .mill n s = unlocked s n.val := by
  simp [force, State.lockMaster, hml, hhp, unlocked]

/-- A force by another master than the Mill frees nothing. -/
theorem force_other {n : Fin 64} (hm : m ≠ .mill) : (force m n s).sem = s.sem := by
  unfold force
  rw [if_neg hm]
  split
  · rfl
  · exact count_sem ..

/-- A counter reads one more, unless it stands at all ones. -/
theorem fld_count {f : Field} (hf : f.lsb + f.width ≤ 64) (s : State) (ix : Ix) (k : Nat) :
    (s.count f ix k).fld f ix = satAdd f.width (s.fld f ix) k := by
  refine (fld_set_same hf ..).trans (Nat.mod_eq_of_lt ?_)
  have := Nat.two_pow_pos f.width
  unfold satAdd; omega

/-! ## A write of SEM_RELEASE, on its way -/

/-- A pending write to a register of the lock block takes effect in its register alone. -/
theorem rwEffect_sem_gen {inst : Nat} {p : RwPend} (hp : pendOf .sem inst p = true) : (s.rwEffect p).gen = s.gen := by
  have htake : (s.takeRw p).gen = s.gen :=
    (State.takeRw_kept (pts := [.regs, .pf0, .pf1, .out]) (Kept.refl ..) (by decide)).same .gen (by decide)
  unfold pendOf at hp
  unfold State.rwEffect
  split
  · rfl
  · rename_i r ix hr
    rw [hr] at hp
    have hblock : r.info.block = .sem := by simp at hp; exact hp.1
    extract_lets old t new en
    split
    case h_7 => exact htake
    all_goals exact absurd hblock (by decide)

/-- A write of SEM_RELEASE waits for nothing that changes the module. -/
theorem arrived_semRelease_gen (s : State) (q : Req) (ix : Ix) : (s.arrived q .semRelease ix).gen = s.gen := by
  have hheard : (s.heard q .semRelease ix).gen = s.gen := rfl
  have hfold (l : List RwPend) (hl : ∀ p ∈ l, pendOf .sem ix.inst p = true) (t : State) :
      (l.foldl State.rwEffect t).gen = t.gen := by
    induction l generalizing t with
    | nil => rfl
    | cons p l ih =>
      obtain ⟨hp, hl⟩ := List.forall_mem_cons.1 hl
      exact (ih hl _).trans (rwEffect_sem_gen hp)
  exact (hfold _ (fun p hp => (List.mem_filter.1 hp).2) _).trans hheard

theorem exec_rel {n : Fin 64} (hm : m ≠ .mate) (h : s.arrives m .semRelease (ixI n.val) = true) :
    exec (.rel m n) s = .next (rel m n (s.arrived m .semRelease (ixI n.val))) :=
  congrArg Host.Outcome.next ((if_neg (by simpa using hm)).trans (own_arrives h))

theorem exec_force {n : Fin 64} (hm : m ≠ .mate) (h : s.arrives m .semRelease (ixI n.val) = true) :
    exec (.force m n) s = .next (force m n (s.arrived m .semRelease (ixI n.val))) :=
  congrArg Host.Outcome.next ((if_neg (by simpa using hm)).trans (own_arrives h))

/-- The Mill still runs when its write of SEM_RELEASE is judged. -/
theorem millUp_of_arrives {ix : Ix} (h : s.arrives .mill .semRelease ix = true) :
    (s.arrived .mill .semRelease ix).domUp domML = true :=
  (domUp_of_gen (arrived_semRelease_gen ..) _).trans (mayAccess_of_arrives h)

end

/-! ## The statement -/

/-- Readers of a free lock, as the command serves them: the owner, the answers, and what stays. -/
theorem exec_semLockRead_free {n : Fin 64} {readers rest : List Req} {m : Req} {s : State}
    (hhp : s.domUp domHP = true) (ho : s.lockOwner n.val = 0) (hm : ∀ x ∈ readers, s.lockMaster x = true)
    (hturn : turn readers = m :: rest) :
    ∃ t, exec (.semLockRead n readers .full) s = .next t ∧ t.lockOwner n.val = masterId m ∧
      t.out = (rest.map fun x => Out.answer x (BitVec.ofNat 64 (masterId m))).reverse ++ .answer m 0 :: s.out ∧
      (∀ k, k ≠ n.val → t.lockOwner k = s.lockOwner k) ∧ Frame [.acc, .sem, .out] s t := by
  have hk := lockReaders_kept (n := n) hm hhp
  have hsem : (s.lockReaders n readers).sem = s.sem := hk.same .sem (by decide)
  have hout : (s.lockReaders n readers).out = s.out := hk.same .out (by decide)
  have heq := semLockRead_free
    (fun x hx => (lockMaster_of_frame (hk.mono (by decide)).same x).trans (hm x hx))
    ((domUp_of_gen (hk.same .gen (by decide)) _).trans hhp) ((lockOwner_of_sem hsem _).trans ho) hturn
  have hput : (semLockRead n readers .full (s.lockReaders n readers)).sem = tblPut n.val (masterId m) s.sem := by
    rw [heq, hsem]
  refine ⟨_, exec_semLockRead .., ?_, ?_, fun k hne => ?_, ?_⟩
  · rw [lockOwner_of_put hput, if_pos rfl]
  · rw [heq, hout]
  · rw [lockOwner_of_put hput, if_neg hne]
  · exact (semLockRead_kept (hk.mono (by decide)) (by decide)).same

/-- A reader that is only answered, with the value `v`. -/
theorem exec_semLockRead_answers {n : Fin 64} {m : Req} {part : RdPart} {v : W64} {s : State}
    (hm : s.lockMaster m = true) (hhp : s.domUp domHP = true)
    (hserve : ∀ u : State, u.lockMaster m = true → u.domUp domHP = true → u.sem = s.sem →
      u.serveLock n.val part m = u.emit (.answer m v)) :
    ∃ t, exec (.semLockRead n [m] part) s = .next t ∧ t.out = .answer m v :: s.out ∧ Frame [.acc, .out] s t := by
  have hk := lockReaders_kept (n := n) (readers := [m]) (by simpa using hm) hhp
  have hm' := (lockMaster_of_frame (hk.mono (by decide)).same m).trans hm
  have heq := (semLockRead_single (n := n) part hm').trans
    (hserve _ hm' ((domUp_of_gen (hk.same .gen (by decide)) _).trans hhp) (hk.same .sem (by decide)))
  refine ⟨_, exec_semLockRead .., ?_, ?_⟩
  · rw [heq, emit_out, hk.same .out (by decide)]
  · rw [heq]
    exact (State.emit_kept (hk.mono (by decide)) (by decide)).same

/-- Settles O30: reads of a free lock by the turn of the readers, other reads by what answers them, and releases in the
state in which their write is judged. -/
theorem locksAreReadInTurnAndReleased : Obligations.LocksAreReadInTurnAndReleased := by
  unfold Obligations.LocksAreReadInTurnAndReleased
  refine ⟨⟨rfl, rfl, rfl, rfl⟩, ?free, ?held, ?high, ?several, ?released, ?foreign, ?forced, ?ignored⟩
  case free =>
    intro n m s hm hhp ho
    exact exec_semLockRead_free hhp ho (by simpa using hm) (turn_single hm)
  case held =>
    intro n m s hm hhp ho
    refine exec_semLockRead_answers hm hhp fun u hum huhp husem => ?_
    rw [← lockOwner_of_sem husem] at ho ⊢
    exact serveLock_held hum huhp ho
  case high =>
    intro n m s hm hhp
    exact exec_semLockRead_answers hm hhp fun u hum huhp _ => serveLock_high hum huhp
  case several =>
    intro n readers rest m s hhp ho hm hturn
    exact exec_semLockRead_free hhp ho hm hturn
  case released =>
    rintro m n s u hne harr rfl hm hhp ho
    refine ⟨_, exec_rel hne harr, ?_⟩
    rw [rel_owner hm hhp ho]
    exact unlocked_frees ..
  case foreign =>
    intro n s hhp hfelt ho
    refine ⟨_, congrArg Host.Outcome.next (rel_foreign (m := .mate) hfelt hhp ho), count_sem .., ?_, ?_⟩
    · exact fld_count (by decide) ..
    · exact (State.count_kept (Kept.refl ..) (by decide)).same
  case forced =>
    rintro n s u harr rfl hhp
    refine ⟨_, exec_force (by decide) harr, ?_⟩
    rw [force_mill (millUp_of_arrives harr) hhp]
    exact unlocked_frees ..
  case ignored =>
    intro n s _
    exact ⟨_, rfl, force_other (by decide)⟩

end Sys2Proof.Proofs
end

/-! # How a parse starts, branches and ends, spec/08_parser.md R224 to R239 -/

section
namespace Sys2Proof.Proofs

open Sys2Proof.Machine Sys2Proof.Machine.Fld Sys2Proof.Laws

/-! ## The first packet that satisfies a predicate, changed -/

section
variable {α : Type} {q q' : α → Bool} {f : α → α} {l : List α} {x : α}

theorem mem_modFirst (h : l.find? q = some x) : f x ∈ modFirst q f l := by
  induction l with
  | nil => cases h
  | cons y l ih =>
    simp only [List.find?_cons, modFirst] at h ⊢
    split at h <;> rename_i hy
    · cases h; simp [hy]
    · simp [hy, ih h]

/-- Where `q'` holds of nothing older than the changed element, it finds that element. -/
theorem find?_modFirst (h : l.find? q = some x) (hq : ∀ y ∈ l, q' y = true → q y = true) (hx : q' (f x) = true) :
    (modFirst q f l).find? q' = some (f x) := by
  induction l with
  | nil => cases h
  | cons y l ih =>
    simp only [List.find?_cons, modFirst] at h ⊢
    split at h <;> rename_i hy
    · cases h; simp [hy, hx]
    · have hy' : q' y = false := Bool.eq_false_iff.2 fun h => by simp [hq y List.mem_cons_self h] at hy
      simp [hy, hy', ih h fun z hz => hq z (List.mem_cons_of_mem _ hz)]

end

section
variable {s : State} {e : Nat} {p : Pkt} {q : Pkt → Bool} {f : Pkt → Pkt}

theorem mem_modPkt (h : s.ing.pkts.find? q = some p) : f p ∈ (s.modPkt q f).ing.pkts := mem_modFirst h

theorem modPkt_frame (s : State) (q : Pkt → Bool) (f : Pkt → Pkt) : Frame [.ing] s (s.modPkt q f) :=
  (State.modPkt_kept (Kept.refl _ s) (List.Subset.refl _)).same

theorem stage_of_inEngine (h : s.ing.pkts.find? (inEngine e) = some p) : p.stage = .parsing e := by
  simpa [inEngine] using List.find?_some h

/-- A change that leaves the packet in its engine leaves it the packet of that engine. -/
theorem find?_modPkt_inEngine (h : s.ing.pkts.find? (inEngine e) = some p) (hf : (f p).stage = p.stage) :
    (s.modPkt (inEngine e) f).ing.pkts.find? (inEngine e) = some (f p) :=
  find?_modFirst h (fun _ _ h => h) (by simp [inEngine, hf, stage_of_inEngine h])

theorem inService_eq {g : State → State} (hi : s.gen.phase ≠ .isolate) (hp : s.gen.phase ≠ .park) :
    s.inService g = g s := by
  simp [State.inService, State.clocked, hi, hp]

/-! ## The end of a parse, R233, R239 -/

theorem regAddr_malAct (k c : Nat) : regAddr .prsMalAct (ixNI k c) = 0x3000000 + 0x20000 * k + 0x400 + 8 * c := rfl

theorem regAddr_malCnt (k c : Nat) : regAddr .prsMalCnt (ixNI k c) = 0x3000000 + 0x20000 * k + 0x200 + 8 * c := rfl

theorem regAddr_prsIntStatus (k : Nat) : regAddr .prsIntStatus (ixN k) = 0x3000000 + 0x20000 * k := rfl

/-- Counting a malformed parse and flagging it leave the action for its code (R239). -/
theorem malAct_of_seen (s : State) (k c : Nat) :
    ((s.count PRS_MAL_CNT_COUNT (ixNI k c) 1).raiseAt PRS_INT_STATUS_MAL_SEEN k 0 0 0).fld PRS_MAL_ACT_ACTION
      (ixNI k c) = s.fld PRS_MAL_ACT_ACTION (ixNI k c) := by
  have hact := regAddr_malAct k c
  have hcnt : regAddr .prsMalAct (ixNI k c) ≠ regAddr PRS_MAL_CNT_COUNT.reg (ixNI k c) := by
    rw [show PRS_MAL_CNT_COUNT.reg = .prsMalCnt from rfl, regAddr_malCnt]; omega
  have hint : regAddr .prsMalAct (ixNI k c) ≠ regAddr PRS_INT_STATUS_MAL_SEEN.reg (ixN k) := by
    rw [show PRS_INT_STATUS_MAL_SEEN.reg = .prsIntStatus from rfl, regAddr_prsIntStatus]; omega
  have hlost : regAddr .prsMalAct (ixNI k c) ≠ regAddr .rngIntStatus ix0 := by
    rw [show regAddr .rngIntStatus ix0 = 0x280000 from rfl]; omega
  unfold State.fld State.raiseAt
  rw [show PRS_MAL_ACT_ACTION.reg = .prsMalAct from rfl, raiseN_rd_other 3 hint hlost, rd_count_other hcnt]

theorem seen_ing (s : State) (f g : Field) (ix : Ix) (k : Nat) : ((s.count f ix 1).raiseAt g k 0 0 0).ing = s.ing :=
  raiseAt_same _ _ _ _ _ _ .ing (by decide)

/-- The packet goes on after the end `x` of its parse: always, but for one that is MALFORMED by the action for its code
(R239). -/
def GoesOn (s : State) (p : Pkt) (x : ParseEnd) : Prop :=
  ∀ c, x = .malformed c → s.fld PRS_MAL_ACT_ACTION (ixNI p.slice c) = 2

theorem goesOn_normal (c : Nat) : GoesOn s p (.normal c) := fun _ h => nomatch h

theorem goesOn_truncated (r : Nat) : GoesOn s p (.truncated r) := fun _ h => nomatch h

theorem goesOn_malformed {c : Nat} (h : s.fld PRS_MAL_ACT_ACTION (ixNI p.slice c) = 2) : GoesOn s p (.malformed c) := by
  rintro _ ⟨⟩
  exact h

/-- A parse that ends records how it ended, and its packet, where it goes on, keeps its engine until its result is
delivered (R225). -/
theorem mem_parseFin {x : ParseEnd} (h : s.ing.pkts.find? (inEngine e) = some p) (hx : GoesOn s p x) :
    { p with fin := some x, stage := .ended e } ∈ (s.parseFin e x).ing.pkts := by
  simp only [State.parseFin, h]
  cases x with
  | normal c => exact mem_modPkt (f := fun q => { q with fin := some (.normal c), stage := .ended e }) h
  | truncated r =>
    refine mem_modPkt (f := fun q => { q with fin := some (.truncated r), stage := .ended e }) ?_
    rw [seen_ing]
    exact h
  | malformed c =>
    simp only [State.malformed, malAct_of_seen, hx c rfl, if_true]
    refine mem_modPkt (f := fun q => { q with fin := some (.malformed c), stage := .ended e }) ?_
    rw [seen_ing]
    exact h

/-- Where the program goes on nothing happens, and where it ends the engine's state stays (R233). -/
theorem fetchCheck_engineIs (h : s.ing.pkts.find? (inEngine e) = some p) : EngineIs p p.eng (s.fetchCheck e) := by
  simp only [State.fetchCheck, h]
  split
  · exact ⟨p, List.mem_of_find?_eq_some h, rfl, rfl⟩
  · exact ⟨_, mem_parseFin h (goesOn_truncated _), rfl, rfl⟩

theorem fetchCheck_of_word {v : Ver} (h : s.ing.pkts.find? (inEngine e) = some p) (hpc : p.eng.pc < 8192)
    (hw : s.verAt (tkey tStore (8192 * p.slice + p.eng.pc)) (p.ream % 16) = some v) : s.fetchCheck e = s := by
  simp [State.fetchCheck, h, hpc, hw]

/-! ## One instruction, R229, R234 -/

theorem count_if_ing {c : Bool} {g : Field} {ix : Ix} : (if c then s.count g ix 1 else s).ing = s.ing := by
  split <;> rfl

/-- An instruction that does not end the parse leaves the engine in the state it computes, one step further. -/
theorem parseInstr_ok {op : ParseOp} {w code : Nat} {x : EngSt} (hat : ParsesAt e p w s) (hcode : bitsOf w 60 4 = code)
    (hop : op w p.arr.bytes p.arr.port p.eng = .ok x) :
    EngineIs p { x with steps := p.eng.steps + 1 } (s.parseInstr code op e false) := by
  obtain ⟨-, -, hfind, hsteps, hpc, n, v, hv, hgood, rfl⟩ := hat
  simp only [State.parseInstr, hfind, Nat.not_le.2 hsteps, Nat.not_le.2 hpc, hv, hgood, hcode, hop, if_false,
    Bool.or_self, bne_self_eq_false, Bool.false_eq_true]
  generalize ht : (if x.trimmed && !p.eng.trimmed then s.count PRS_TRIM_CNT_COUNT (ixN p.slice) 1 else s) = t
  have hfind' : t.ing.pkts.find? (inEngine e) = some p := by rw [← ht, count_if_ing]; exact hfind
  split
  · have := find?_modPkt_inEngine (f := fun q => { q with eng := { x with steps := p.eng.steps + 1 } }) hfind' rfl
    exact fetchCheck_engineIs this
  · exact ⟨_, mem_modPkt hfind', rfl, rfl⟩

/-- An instruction that ends the parse ends it so. -/
theorem parseInstr_error {op : ParseOp} {w code : Nat} {x : ParseEnd} (hat : ParsesAt e p w s)
    (hcode : bitsOf w 60 4 = code) (hop : op w p.arr.bytes p.arr.port p.eng = .error x)
    (hx : GoesOn s p x) :
    ParseEnded p x (s.parseInstr code op e false) := by
  obtain ⟨-, -, hfind, hsteps, hpc, n, v, hv, hgood, rfl⟩ := hat
  simp only [State.parseInstr, hfind, Nat.not_le.2 hsteps, Nat.not_le.2 hpc, hv, hgood, hcode, hop, if_false,
    Bool.or_self, bne_self_eq_false, Bool.false_eq_true]
  have := find?_modPkt_inEngine (f := fun q => { q with eng := { p.eng with steps := p.eng.steps + 1 } }) hfind rfl
  exact ⟨_, mem_parseFin this hx, rfl, rfl⟩

end

/-! ## A command that is one instruction -/

section
variable {e : Fin 8192} {s : State} {p : Pkt} {w code : Nat} {op : ParseOp} {cmd : Instr}

theorem inService_of_parsesAt (hat : ParsesAt e.val p w s) (g : State → State) : s.inService g = g s := by
  obtain ⟨hisolate, hpark, -⟩ := hat
  exact inService_eq hisolate hpark

theorem exec_continues {x y : EngSt} (hcmd : exec cmd s = .next (s.inService (State.parseInstr · code op e.val false)))
    (hat : ParsesAt e.val p w s) (hcode : bitsOf w 60 4 = code) (hop : op w p.arr.bytes p.arr.port p.eng = .ok x)
    (hy : { x with steps := p.eng.steps + 1 } = y) : ∃ t, exec cmd s = .next t ∧ EngineIs p y t :=
  ⟨_, hcmd, by rw [inService_of_parsesAt hat, ← hy]; exact parseInstr_ok hat hcode hop⟩

theorem exec_ends {x : ParseEnd} (hcmd : exec cmd s = .next (s.inService (State.parseInstr · code op e.val false)))
    (hat : ParsesAt e.val p w s) (hcode : bitsOf w 60 4 = code) (hop : op w p.arr.bytes p.arr.port p.eng = .error x)
    (hx : GoesOn s p x) :
    ∃ t, exec cmd s = .next t ∧ ParseEnded p x t :=
  ⟨_, hcmd, by rw [inService_of_parsesAt hat]; exact parseInstr_error hat hcode hop hx⟩

end

/-! ## What the instructions make of the engine's state, R230 to R232, R236 -/

section
variable {w port : Nat} {win : List Byte} {x : EngSt}

theorem branch_eq (x : EngSt) (taken : Bool) (target : Nat) :
    x.branch taken target = { x with pc := if taken then target else x.pc + 1 } := by
  cases taken <;> rfl

/-- A read inside the frame and the window is good (R234). -/
theorem readCheck_ok {i n : Nat} (hend : i + n ≤ x.fend) (hwin : i + n ≤ 256) : readCheck x i n = .ok () := by
  simp [readCheck, Nat.not_lt.2 hend, Nat.not_lt.2 hwin]

theorem opBrw_ok {i n : Nat} (hi : i = x.cur + bitsOf w 48 8) (hn : n = if bitAt w 56 then 1 else 2)
    (hend : i + n ≤ x.fend) (hwin : i + n ≤ 256) :
    opBrw w win port x = .ok (x.branch (condHolds (bitsOf w 57 3)
      (BitVec.ofNat 16 (beNat (bytesAt win i n)) &&& BitVec.ofNat 16 (bitsOf w 32 16)) (wIMM w)) (wTarget w)) := by
  subst hi hn
  simp only [opBrw, readCheck_ok hend hwin]
  rfl

theorem opChk_fails (h : condHolds (wOp3 w) (x.reg (wGS w)) (x.opB w) = true) :
    opChk w win port x = .error (.malformed (wCause w)) := if_pos h

theorem opChk_passes (h : condHolds (wOp3 w) (x.reg (wGS w)) (x.opB w) = false) : opChk w win port x = .ok x.step :=
  if_neg (Bool.eq_false_iff.1 h)

/-- A new frame end before the cursor or beyond the frame is malformed (R236). -/
theorem opTrim_fails (h : (x.reg (wGS w)).toNat + (wIMM w).toInt < 0 ∨
      (x.fend : Int) < (x.cur : Int) + ((x.reg (wGS w)).toNat : Int) + (wIMM w).toInt) :
    opTrim w win port x = .error (.malformed (wCause w)) := by
  refine if_pos (Bool.or_eq_true_iff.2 (h.imp (fun hneg => decide_eq_true ?_) decide_eq_true))
  omega

theorem opDone_normal (hkind : bitsOf w 46 2 = 0) (hclass : bitsOf w 32 8 < 0xFE) :
    opDone w win port x = .error (.normal (bitsOf w 32 8)) := by
  simp [opDone, hkind, Nat.not_le.2 hclass]

theorem opDone_reserved (hkind : bitsOf w 46 2 = 0) (hclass : 0xFE ≤ bitsOf w 32 8) :
    opDone w win port x = .error (.truncated truncProgram) := by
  simp [opDone, hkind, hclass]

theorem opDone_malformed (hkind : bitsOf w 46 2 = 2) : opDone w win port x = .error (.malformed (wCause w)) := by
  simp [opDone, hkind]

/-- A cause code is never 0 (R232). -/
theorem wCause_range (w : Nat) : 1 ≤ wCause w ∧ wCause w ≤ 0x3F := by
  have : bitsOf w 0 6 < 2 ^ 6 := Nat.mod_lt _ (Nat.two_pow_pos 6)
  unfold wCause
  split <;> omega

end

/-! ## The start of a parse, R224 to R228 -/

section
variable {s : State} {p : Pkt} {e : Nat}

/-- The engine that a pipeline's next packet gets holds none (R224). -/
theorem not_inEngine_of_nextFree {full : Nat} (h : s.nextFree full = some e) :
    ∀ y ∈ s.ing.pkts, inEngine e y = false := by
  intro y hy
  have := List.find?_some h
  simp only [Bool.not_eq_true', List.any_eq_false, Bool.or_eq_true, not_or] at this
  exact Bool.eq_false_iff.2 (this y hy).1

/-- The packet of a pipeline that waits for an engine (R224). -/
def waitsForEngine (full : Nat) (p : Pkt) : Bool := p.stage == .dispatched && 4 * p.slice + p.pipe == full

/-- The state once the pipeline's rotation has passed engine `e` (R224). -/
def engineTaken (full e : Nat) (s : State) : State :=
  { s with ing := { s.ing with nextEng := tblPut full ((e + 1) % 128) s.ing.nextEng } }

/-- The engine's state for a packet at the start of the program that the image of its entry names (R227, R228). -/
def startEng (p : Pkt) (img : Nat) : EngSt :=
  { EngSt.init with
    pc := bitsOf img 0 13, fend := min 16379 p.arr.bytes.length, profile := BitVec.ofNat 16 (bitsOf img 16 16) }

/-- The packet in engine `e`, whose state is `x`. -/
def enters (e : Nat) (x : EngSt) (p : Pkt) : Pkt := { p with stage := .parsing e, eng := x }

/-- Where its entry is good and valid, a packet enters the engine, which fetches the first word (R228). -/
theorem parseStart_valid {pipe : Fin 64} {n : Nat} {v : Ver}
    (hfind : s.ing.pkts.find? (waitsForEngine pipe.val) = some p) (hfree : s.nextFree pipe.val = some e)
    (hentry : s.verIdx (tkey tEntry (32 * p.slice + entryOf p.arr.port)) (p.ream % 16) = some (n, v))
    (hgood : v.bad = false) (hvalid : bitAt v.img 32 = true) :
    parseStart pipe false s =
      ((engineTaken pipe.val e s).modPkt (waitsForEngine pipe.val) (enters e (startEng p v.img))).fetchCheck e := by
  have hentry' : (engineTaken pipe.val e s).verIdx _ _ = some (n, v) := hentry
  unfold waitsForEngine at hfind
  unfold engineTaken at hentry'
  simp only [parseStart, hfind, hfree, hentry', hgood, hvalid, Bool.or_self, Bool.false_eq_true, if_false, if_true]
  rfl

/-- Where its program has a first word too, the packet is in the engine at that word. -/
theorem mem_parseStart {pipe : Fin 64} {n : Nat} {v w : Ver}
    (hfind : s.ing.pkts.find? (waitsForEngine pipe.val) = some p) (hfree : s.nextFree pipe.val = some e)
    (hentry : s.verIdx (tkey tEntry (32 * p.slice + entryOf p.arr.port)) (p.ream % 16) = some (n, v))
    (hgood : v.bad = false) (hvalid : bitAt v.img 32 = true)
    (hword : s.verAt (tkey tStore (8192 * p.slice + bitsOf v.img 0 13)) (p.ream % 16) = some w) :
    enters e (startEng p v.img) p ∈ (parseStart pipe false s).ing.pkts := by
  have hin := find?_modFirst (q' := inEngine e) (f := enters e (startEng p v.img)) hfind
    (fun y hy h => by simp [not_inEngine_of_nextFree hfree y hy] at h) (by simp [inEngine, enters])
  have hpc : bitsOf v.img 0 13 < 8192 := Nat.mod_lt _ (Nat.two_pow_pos 13)
  rw [parseStart_valid hfind hfree hentry hgood hvalid, fetchCheck_of_word hin hpc hword]
  exact List.mem_of_find?_eq_some hin

end

/-! ## The delivery of a result, R225 -/

/-- The packets of a pipeline that wait for an engine or hold one. -/
def awaitsResult (full : Nat) (p : Pkt) : Bool :=
  4 * p.slice + p.pipe == full && (match p.stage with | .dispatched | .parsing _ | .ended _ => true | _ => false)

theorem parseResultDelivery_ended {pipe : Fin 64} {s : State} {p : Pkt} {k : Nat}
    (hfind : s.ing.pkts.find? (awaitsResult pipe.val) = some p) (hend : p.stage = .ended k) :
    parseResultDelivery pipe s = s.modPkt (awaitsResult pipe.val) (fun q => { q with stage := .parsed }) := by
  unfold parseResultDelivery
  extract_lets mine
  have hmine : mine = awaitsResult pipe.val := by
    funext q
    simp only [mine, awaitsResult]
    cases q.stage <;> rfl
  simp only [hmine, hfind, hend]

/-! ## The statement -/

/-- Settles O34: a parse's start, its branches and its ends, and the codes that its instructions give. -/
theorem parsesStartBranchAndEnd : Obligations.ParsesStartBranchAndEnd := by
  unfold Obligations.ParsesStartBranchAndEnd
  refine ⟨?start, ?stepLimit, ?delivery, ?br, ?jmp, ?brw, ?dec, ?chk, ?done, ?doneReserved, ?malformed⟩
  case start =>
    intro pipe p e n v w s hi hp hfind hfree hentry hgood hvalid hword
    have := mem_parseStart hfind hfree hentry hgood hvalid hword
    exact ⟨_, enters e (startEng p v.img) p, congrArg Host.Outcome.next (inService_eq hi hp), this, rfl, rfl, rfl⟩
  case stepLimit =>
    intro e p s hi hp hfind hsteps
    refine ⟨_, congrArg Host.Outcome.next (inService_eq hi hp), ?_⟩
    simp only [parseStepLimit, hfind, hsteps, if_true]
    exact ⟨_, mem_parseFin hfind (goesOn_truncated _), rfl, rfl⟩
  case delivery =>
    intro pipe p k s hi hp hfind hend
    have hmoves := (inService_eq hi hp).trans (parseResultDelivery_ended hfind hend)
    exact ⟨_, congrArg Host.Outcome.next hmoves, mem_modPkt hfind, modPkt_frame _ _ _⟩
  case br =>
    intro e p w s hat hcode
    exact exec_continues (op := opBr) rfl hat hcode rfl (by rw [branch_eq]; rfl)
  case jmp =>
    intro e p w s hat hcode
    exact exec_continues (op := opJmp) rfl hat hcode rfl rfl
  case brw =>
    intro e p w i n s hat hcode hi hn hend hwin
    exact exec_continues (op := opBrw) rfl hat hcode (opBrw_ok hi hn hend hwin)
      (by rw [branch_eq]; rfl)
  case dec =>
    intro e p w s hat hcode
    refine exec_continues (op := opDec) rfl hat hcode rfl ?_
    simp only [branch_eq, bne_iff_ne, wGD, wTarget]
    rfl
  case chk =>
    intro e p w s hat hcode hcond
    exact exec_continues (op := opChk) rfl hat hcode (opChk_passes hcond) rfl
  case done =>
    rintro e p w c s hat hcode hkind rfl hclass
    exact exec_ends (op := opDone) rfl hat hcode (opDone_normal hkind hclass) (goesOn_normal _)
  case doneReserved =>
    intro e p w s hat hcode hkind hclass
    exact exec_ends (op := opDone) rfl hat hcode (opDone_reserved hkind hclass) (goesOn_truncated _)
  case malformed =>
    intro e p w c x s hat hc hact hx
    obtain rfl : c = wCause w := hc
    refine ⟨(wCause_range w).1, (wCause_range w).2, ?_⟩
    have hgoesOn : GoesOn s p (.malformed (wCause w)) := goesOn_malformed hact
    obtain ⟨rfl, hcode, hcond⟩ | ⟨rfl, hcode, hout⟩ | ⟨rfl, hcode, hkind⟩ := hx
    · exact exec_ends (op := opChk) rfl hat hcode (opChk_fails hcond) hgoesOn
    · exact exec_ends (op := opTrim) rfl hat hcode (opTrim_fails hout) hgoesOn
    · exact exec_ends (op := opDone) rfl hat hcode (opDone_malformed hkind) hgoesOn

end Sys2Proof.Proofs
end

/-! # Links that are STOPPED or disabled, spec/15_fabric.md R455 -/

section
namespace Sys2Proof.Proofs

open Sys2Proof.Machine Sys2Proof.Machine.Fld Sys2Proof.Laws

/-! ## Fields of a word made of two -/

theorem get_eq_extract (f : Field) (v : W64) : f.get v = (v.extractLsb' f.lsb f.width).toNat := rfl

theorem blend_getLsbD (old new mask : W64) (i : Nat) :
    (blend old new mask).getLsbD i = if mask.getLsbD i then new.getLsbD i else old.getLsbD i := by
  by_cases hi : i < 64
  · simp only [blend, BitVec.getLsbD_or, BitVec.getLsbD_and, BitVec.getLsbD_not, hi, decide_true, Bool.true_and]
    cases mask.getLsbD i <;> simp
  · simp [BitVec.getLsbD_of_ge, Nat.le_of_not_lt hi]

/-- A write of nothing new in the masked bits. -/
theorem blend_of_same {old new mask : W64} (h : (old ^^^ new) &&& mask = 0) : blend old new mask = old := by
  refine BitVec.eq_of_getLsbD_eq fun i hi => ?_
  rw [blend_getLsbD]
  split
  · rename_i hm
    have hbit : ((old ^^^ new) &&& mask).getLsbD i = false := by rw [h]; simp
    simp only [BitVec.getLsbD_and, BitVec.getLsbD_xor, hm, Bool.and_true, bne_eq_false_iff_eq] at hbit
    exact hbit.symm
  · rfl

theorem blend_zero (old new : W64) : blend old new 0 = old := blend_of_same (by simp)

section
variable {f : Field} {mask : W64} (old new : W64)

/-- A field that the mask covers is the new one. -/
theorem get_blend_of_covered (h : ∀ i < f.width, mask.getLsbD (f.lsb + i) = true) :
    f.get (blend old new mask) = f.get new := by
  rw [get_eq_extract, get_eq_extract]
  congr 1
  refine BitVec.eq_of_getLsbD_eq fun i hi => ?_
  simp [blend_getLsbD, hi, h i hi]

/-- A field that the mask does not touch is the old one. -/
theorem get_blend_of_untouched (h : ∀ i < f.width, mask.getLsbD (f.lsb + i) = false) :
    f.get (blend old new mask) = f.get old := by
  rw [get_eq_extract, get_eq_extract]
  congr 1
  refine BitVec.eq_of_getLsbD_eq fun i hi => ?_
  simp [blend_getLsbD, hi, h i hi]

end

/-! ## A register write, field by field, R6, R7, R10 -/

section
variable {s : State} {req : Req} {r : Reg} {ix : Ix} {v skip : W64}

/-- The RWX fields of a register whose block is STOPPED take what is written (R10). -/
theorem writeRwx_rd (h : s.rwxOpen r ix = true) :
    (s.writeRwx r ix v).rd r ix = blend (s.rd r ix) v (classMask r .rwx) := by
  simp only [State.writeRwx, h, if_true]
  split
  · rename_i hsame; exact (blend_of_same hsame).symm
  · exact rd_wr_same ..

theorem writeRws_of_unstaged (h : classMask r .rws = 0) : s.writeRws req r ix v = s := by
  simp [State.writeRws, h]

/-- Where the row decides every RW field itself, the write leaves the register as it is. -/
theorem writeRw_rd_of_skipped (h : classMask r .rw &&& ~~~skip = 0) : (s.writeRw r ix v skip).rd r ix = s.rd r ix := by
  rw [State.writeRw, rd_wr_same, h, blend_zero]

/-- A register of RWX and RW fields takes the former at once; the latter wait (R6, R10). -/
theorem writeFields_rd {off : Nat} (hx : s.rwxOpen r ix = true) (hs : classMask r .rws = 0) :
    (s.writeFields req off r ix v skip).rd r ix = blend (s.rd r ix) v (classMask r .rwx) := by
  unfold State.writeFields
  extract_lets t m p
  have ht : t.rd r ix = blend (s.rd r ix) v (classMask r .rwx) := by
    simp only [t]; rw [writeRws_of_unstaged hs, writeRwx_rd hx]
  split
  · exact ht
  · exact ht

end

/-! ## RW writes that a block has received, R6, R43 -/

section
variable {s : State} {b : Block} {inst : Nat}

theorem flushRw_of_none (h : ∀ p ∈ s.acc.rwPend, pendOf b inst p = false) : s.flushRw b inst = s := by
  have hmine : s.acc.rwPend.filter (pendOf b inst) = [] := List.filter_eq_nil_iff.2 fun p hp => by simp [h p hp]
  have hrest : s.acc.rwPend.filter (fun p => !pendOf b inst p) = s.acc.rwPend :=
    List.filter_eq_self.2 fun p hp => by simp [h p hp]
  simp only [State.flushRw, hmine, hrest, List.foldl_nil]

theorem flushHooked_acc (s : State) (b : Block) (inst : Nat) : (s.flushHooked b inst).acc =
    { s.acc with rwPend := s.acc.rwPend.filter fun p => !pendOf b inst p } := by
  unfold State.flushHooked
  exact ((Kept.refl [.freeCtr, .regs, .gen, .pf0, .pf1, .rng, .sem, .fab, .prt, .pmn, .tim, .mil, .out] _).foldl
    fun _ _ hk => State.rwEffect_kept hk (List.Subset.refl _)).same .acc (by decide)

/-- Where a write has arrived none waits for its block any more. -/
theorem flushRw_arrived (s : State) (req : Req) (r : Reg) (ix : Ix) :
    (s.arrived req r ix).flushRw r.info.block ix.inst = s.arrived req r ix := by
  refine flushRw_of_none fun p hp => ?_
  rw [State.arrived, flushHooked_acc] at hp
  simpa using (List.mem_filter.1 hp).2

end

/-! ## Where a whole write to a register outside the FX die gets, R42 -/

theorem offDomain_of_findReg {off : Nat} {r : Reg} {ix : Ix} (h : findReg off = some ⟨r, ix⟩) :
    offDomain off = some (regDomain r ix.inst) := by
  unfold offDomain
  split
  · rename_i hb; simp [findReg, hb] at h
  · simp only [h]

theorem registerWrite_arrives {s : State} {req : Req} {off : BitVec 28} {r : Reg} {ix : Ix} (v : W64)
    (hoff : off.toNat = regAddr r ix) (hfind : findReg (regAddr r ix) = some ⟨r, ix⟩)
    (hfx : isFx (regDomain r ix.inst) = false) (harr : s.arrives req r ix = true) :
    registerWrite req off v s = (s.heard req r ix).writeReg req (regAddr r ix) r ix v := by
  have hdom := offDomain_of_findReg hfind
  have hheard : s.heard req r ix = (s.release req).dropLow req (regAddr r ix) := by simp [State.heard, hfx]
  have hreach : (s.heard req r ix).offReachable (regAddr r ix) (regDomain r ix.inst) = true := by
    have hr : (s.heard req r ix).regReachable r ix.inst = true := (Bool.and_eq_true_iff.1 harr).2
    simp [State.offReachable, hfind, hr]
  rw [registerWrite, if_pos (mayAccess_of_arrives harr), State.write64, hoff, ← hheard]
  simp [State.issueWrite, hdom, hfx, State.wordFor, State.writeAt, hreach, hfind]

/-! ## The registers of a link, spec/20_register_map.md R606 -/

/-- The blocks that stand before FAB end before it begins (spec/20_register_map.md R598). -/
theorem findBlock_fab {o : Nat} (h : o < 0x800000) : findBlock (0xC000000 + o) = some .fab := by
  have hbelow : ∀ b ∈ allBlocks.take 23, (blockInfo b).base + (blockInfo b).size ≤ 0xC000000 := by decide
  refine List.find?_eq_some_iff_append.2 ⟨?_, allBlocks.take 23, allBlocks.drop 24, rfl, fun b hb => ?_⟩
  · exact Bool.and_eq_true_iff.2 ⟨decide_eq_true (Nat.le_add_right ..), decide_eq_true (Nat.add_lt_add_left h _)⟩
  · have := hbelow b hb
    simp; omega

theorem instOf_fab {n o : Nat} (h : o < 0x100000) : instOf .fab (0xC000000 + 0x100000 * n + o) = (n, o) := by
  have hmany : ¬ (blockInfo .fab).count ≤ 1 := by decide
  simp only [instOf]
  rw [if_neg hmany]
  refine Prod.ext ?_ ?_
  · change (0xC000000 + 0x100000 * n + o - 0xC000000) / 0x100000 = n
    omega
  · change (0xC000000 + 0x100000 * n + o - 0xC000000) % 0x100000 = o
    omega

/-- A register that is not an array is at its own offset only. -/
theorem idxOf_none {o : Nat} (h : o ≠ 0) (s1 s2 : Nat) : idxOf o 1 s1 1 s2 = none := by simp [idxOf, h]

theorem findIn_skip {inst off : Nat} {r : Reg} {rs : List Reg}
    (h : idxOf (off - r.info.off) r.info.n1 r.info.s1 r.info.n2 r.info.s2 = none) :
    findIn inst off (r :: rs) = findIn inst off rs := by
  simp [findIn, h]

theorem findIn_fabLinkCfg (n : Nat) {j : Nat} (h : j < 64) :
    findIn n (0x100 + 8 * j) (blockRegs .fab) = some ⟨.fabLinkCfg, ixNI n j⟩ := by
  have hidx : idxOf (8 * j) 64 8 1 8 = some (j, 0) := by
    simp [idxOf, h, Nat.mul_comm]
  rw [blockRegs, findIn_skip (idxOf_none (by simp only [Reg.info]; omega) ..),
    findIn_skip (idxOf_none (by simp only [Reg.info]; omega) ..),
    findIn_skip (idxOf_none (by simp only [Reg.info]; omega) ..)]
  simp [findIn, Reg.info, hidx, regExists, ixNI]

theorem regAddr_fabLinkCfg (l : Nat) :
    regAddr .fabLinkCfg (linkIx l) = 0xC000000 + 0x100000 * (l / 64) + 0x100 + 8 * (l % 64) := rfl

/-- The register at the address of a link's FAB_LINK_CFG is that one. -/
theorem findReg_fabLinkCfg (l : Fin 320) :
    findReg (regAddr .fabLinkCfg (linkIx l.val)) = some ⟨.fabLinkCfg, linkIx l.val⟩ := by
  have haddr : regAddr .fabLinkCfg (linkIx l.val) =
      0xC000000 + 0x100000 * (l.val / 64) + (0x100 + 8 * (l.val % 64)) :=
    (regAddr_fabLinkCfg _).trans (Nat.add_assoc ..)
  have hcount : l.val / 64 < (blockInfo .fab).count := by simp only [blockInfo]; omega
  have hblock := findBlock_fab (o := 0x100000 * (l.val / 64) + (0x100 + 8 * (l.val % 64))) (by omega)
  rw [← Nat.add_assoc] at hblock
  simp only [haddr, findReg, hblock, instOf_fab (show 0x100 + 8 * (l.val % 64) < 0x100000 by omega), hcount, if_true]
  exact findIn_fabLinkCfg _ (Nat.mod_lt _ (by decide))

theorem regDomain_fabLinkCfg (l : Nat) : regDomain .fabLinkCfg (linkIx l).inst = 21 + l / 64 := rfl

theorem rwxOpen_fabMacroCtrl (s : State) (n : Nat) :
    s.rwxOpen .fabMacroCtrl (ixN n) = !s.flag FAB_MACRO_CTRL_RUN (ixN n) := rfl

theorem rwxOpen_fabLinkCfg (s : State) (l : Nat) :
    s.rwxOpen .fabLinkCfg (linkIx l) = !s.flag FAB_MACRO_CTRL_RUN (ixN (l / 64)) := rfl

theorem writeReg_fabLinkCfg (s : State) (req : Req) (off l : Nat) (v : W64) :
    s.writeReg req off .fabLinkCfg (linkIx l) v =
      (s.flushHooked .fab (linkIx l).inst).writeFields req off .fabLinkCfg (linkIx l) v 0 := rfl

theorem flag_en_eq_bit (v : W64) : (FAB_LINK_CFG_EN.get v != 0) = bitAt v.toNat 0 := by
  simp [FAB_LINK_CFG_EN, Field.get, bitsOf, bitAt]

/-! ## STOPPED links, R455 -/

section
variable {s : State} {l : Fin 320}

theorem linkRuns_of_stopped (h : s.flag FAB_MACRO_CTRL_RUN (ixN (l.val / 64)) = false) : s.linkRuns l.val = false := by
  simp [State.linkRuns, State.macroRuns, h]

theorem linkRuns_of_disabled (h : s.flag FAB_LINK_CFG_EN (linkIx l.val) = false) : s.linkRuns l.val = false := by
  simp [State.linkRuns, h]

theorem exec_cellTransmit_silent (h : s.linkRuns l.val = false) : exec (.cellTransmit l) s = .next s := by
  have hcell : cellTransmit l s = s := if_pos (by simp [State.linkTx, h])
  have hserve : s.inService (fun s => cellTransmit l s) = s := by
    simp only [State.inService, State.clocked, hcell, ite_self]
  exact congrArg Host.Outcome.next hserve

theorem exec_cellReceive_silent (c : List Byte) (h : s.linkRuns l.val = false) :
    exec (.cellReceive l c) s = .next s :=
  congrArg Host.Outcome.next (if_pos (by simp [h]))

theorem exec_markerReceive_silent (pos : Fin 174080) (m : List Byte) (h : s.linkRuns l.val = false) :
    exec (.markerReceive (.fab l) pos m) s = .next s :=
  congrArg Host.Outcome.next (if_pos (by simp [State.laneOn, h]))

theorem exec_searchWindowEnd_silent (h : s.linkRuns l.val = false) : exec (.searchWindowEnd (.fab l)) s = .next s :=
  congrArg Host.Outcome.next (if_pos (by simp [State.laneOn, h]))

end

/-- FAB_MACRO_CTRL as a write of it leaves it while STOPPED, before RUN is looked at. -/
theorem ownWrite_fabMacroCtrl_rd {s : State} {req : Req} {n : Nat} {v : W64}
    (hflush : s.flushRw .fab n = s) (hstop : s.flag FAB_MACRO_CTRL_RUN (ixN n) = false) :
    (s.ownWrite req .fabMacroCtrl (ixN n) v FAB_MACRO_CTRL_RUN.mask).rd .fabMacroCtrl (ixN n) =
      blend (s.rd .fabMacroCtrl (ixN n)) v (classMask .fabMacroCtrl .rwx) := by
  have hflush : s.flushRw Reg.fabMacroCtrl.info.block (ixN n).inst = s := hflush
  have hopen : s.rwxOpen .fabMacroCtrl (ixN n) = true := by
    rw [rwxOpen_fabMacroCtrl, hstop]; rfl
  rw [State.ownWrite, hflush, writeRw_rd_of_skipped (by decide), writeRws_of_unstaged (by decide), writeRwx_rd hopen]

/-- A write that asks for STOPPED to stay sets LEGACY and does nothing else. -/
theorem fabMacroRun_stays_stopped {s : State} {req : Req} {n : Fin 5} {v : W64}
    (hup : s.domUp (domFB n.val) = true) (hrun : FAB_MACRO_CTRL_RUN.get v = 0)
    (hstop : (s.ownWrite req .fabMacroCtrl (ixN n.val) v FAB_MACRO_CTRL_RUN.mask).flag FAB_MACRO_CTRL_RUN (ixN n.val) =
      false) :
    fabMacroRun req n v s = s.ownWrite req .fabMacroCtrl (ixN n.val) v FAB_MACRO_CTRL_RUN.mask := by
  simp [fabMacroRun, hup, hrun, State.macroRuns, hstop]

theorem exec_fabMacroRun {s : State} {req : Req} {n : Fin 5} (v : W64)
    (h : s.arrives req .fabMacroCtrl (ixN n.val) = true) :
    exec (.fabMacroRun req n v) s = .next (fabMacroRun req n v (s.arrived req .fabMacroCtrl (ixN n.val))) :=
  congrArg Host.Outcome.next (own_arrives h)

/-! ## A link that is closed, and the spray sets, R455, R468 -/

/-- EN of a link is 0, and the links are listed in rising order. -/
structure Closed (l : Nat) (s : State) : Prop where
  off : s.flag FAB_LINK_CFG_EN (linkIx l) = false
  sorted : rises s.fab.links = true

section
variable {l k : Nat} {s t : State}

theorem Closed.of_same (h : Closed l s) (hr : t.regs = s.regs) (hf : t.fab.links = s.fab.links) : Closed l t :=
  ⟨by rw [State.flag, fld_of_regs hr]; exact h.off, by rw [hf]; exact h.sorted⟩

theorem Closed.ite {c : Prop} [Decidable c] (h : Closed l s) (k : Closed l t) : Closed l (if c then s else t) := by
  split <;> assumption

/-- A cause is in no register of a link. -/
theorem Closed.then_raiseAt (h : Closed l s) (f : Field) (inst bit a b : Nat)
    (hf : regAddr .fabLinkCfg (linkIx l) ≠ regAddr f.reg (ixN inst)) : Closed l (s.raiseAt f inst bit a b) := by
  have hlost : regAddr .fabLinkCfg (linkIx l) ≠ regAddr .rngIntStatus ix0 := by
    rw [regAddr_fabLinkCfg, show regAddr .rngIntStatus ix0 = 0x280000 from rfl]; omega
  have hrd : (s.raiseAt f inst bit a b).rd .fabLinkCfg (linkIx l) = s.rd .fabLinkCfg (linkIx l) :=
    raiseN_rd_other 3 hf hlost
  have hfab : (s.raiseAt f inst bit a b).fab = s.fab := raiseAt_same s f inst bit a b .fab (by decide)
  refine ⟨?_, by rw [hfab]; exact h.sorted⟩
  rw [State.flag, State.fld, show FAB_LINK_CFG_EN.reg = .fabLinkCfg from rfl, hrd]
  exact h.off

theorem fabLinkCfg_ne_fabIntStatus (l inst : Nat) :
    regAddr .fabLinkCfg (linkIx l) ≠ regAddr .fabIntStatus (ixN inst) := by
  rw [regAddr_fabLinkCfg, show regAddr .fabIntStatus (ixN inst) = 0xC000000 + 0x100000 * inst from rfl]; omega

theorem fabLinkCfg_ne_pmnIntStatus (l : Nat) : regAddr .fabLinkCfg (linkIx l) ≠ regAddr .pmnIntStatus (ixN 0) := by
  rw [regAddr_fabLinkCfg, show regAddr .pmnIntStatus (ixN 0) = 0x2100000 + Reg.pmnIntStatus.info.off from rfl]
  simp only [Reg.info]; omega

theorem Closed.then_modLink (h : Closed l s) (k : Nat) (f : LinkSt → LinkSt) : Closed l (s.modLink k f) := by
  refine ⟨h.off, ?_⟩
  change rises (if f (s.link k) = LinkSt.init then _ else _) = true
  split
  · exact rises_del _ _ h.sorted
  · exact rises_put _ _ _ h.sorted

theorem Closed.then_newMarkers (h : Closed l s) (k : Nat) : Closed l (s.newMarkers k) :=
  .ite (h.of_same rfl rfl) h

theorem Closed.then_linkReset (h : Closed l s) (k : Nat) : Closed l (s.linkReset k) := by
  have hunlock : Closed l (s.linkUnlock k) := by
    unfold State.linkUnlock
    extract_lets t rx
    have ht : Closed l t := h.then_modLink ..
    have hrx : Closed l { t with fab := { t.fab with rx := rx } } := ht.of_same rfl rfl
    have hraise := hrx.then_raiseAt FAB_INT_STATUS_LOCK_CHG (k / 64) 0 k 0 (fabLinkCfg_ne_fabIntStatus l _)
    exact .ite h (hraise.then_newMarkers k)
  exact hunlock.then_modLink ..

/-! ### What follows for the signal of a link -/

theorem Closed.then_setEnt (h : Closed l s) (e : Nat) (x : EntSt) : Closed l (s.setEnt e x) := h.of_same rfl rfl

theorem Closed.then_sfSettle (h : Closed l s) (k : Nat) (was : Bool) : Closed l (s.sfSettle (entLink k) was) := by
  unfold State.sfSettle
  extract_lets now s1 x hadSd held s2 s3 s4
  have h1 : Closed l s1 := .ite h (h.then_setEnt ..)
  have h3 : Closed l s3 := (h1.then_setEnt ..).then_raiseAt _ _ _ _ _ (fabLinkCfg_ne_pmnIntStatus l)
  have h4 : Closed l s4 := .ite (h3.then_raiseAt _ _ _ _ _ (fabLinkCfg_ne_pmnIntStatus l)) h3
  have hlink : ¬ entLink k < 256 := by simp only [entLink]; omega
  rw [if_neg hlink]
  exact .ite h1 h4

theorem Closed.then_groupsSd (h : Closed l s) : Closed l s.groupsSd :=
  List.foldlRecOn _ _ h fun _ ht _ _ =>
    .ite ht ((ht.then_setEnt ..).then_raiseAt _ _ _ _ _ (fabLinkCfg_ne_pmnIntStatus l))

theorem Closed.then_watchSf {f : State → State} (h : Closed l (f s)) (k : Nat) :
    Closed l (s.watchSf [entLink k] f) :=
  (h.then_sfSettle k _).then_groupsSd

/-! ### The spray sets follow -/

theorem link_modLink_same (s : State) (k : Nat) (f : LinkSt → LinkSt) : (s.modLink k f).link k = f (s.link k) := by
  change tblGet LinkSt.init (if f (s.link k) = LinkSt.init then _ else _) k = _
  split
  · rename_i hinit; simp [tblGet, hinit]
  · exact get_put_same ..

theorem link_modLink_other (h : l ≠ k) (s : State) (f : LinkSt → LinkSt) : (s.modLink k f).link l = s.link l := by
  change tblGet LinkSt.init (if f (s.link k) = LinkSt.init then _ else _) l = _
  split
  · simp only [tblGet, find_del_other h]; rfl
  · exact get_put_other h ..

theorem link_raiseAt (s : State) (f : Field) (inst bit a b : Nat) : (s.raiseAt f inst bit a b).link l = s.link l := by
  have hfab : (s.raiseAt f inst bit a b).fab = s.fab := raiseAt_same s f inst bit a b .fab (by decide)
  rw [State.link, hfab]; rfl

theorem inSpray_of_disabled (h : s.flag FAB_LINK_CFG_EN (linkIx l) = false) : s.inSpray l = false := by
  simp [State.inSpray, State.linkRuns, h]

/-- What of the spray sets is still to be judged: a closed link is in them only while its entry is to come. -/
structure Leaving (l : Nat) (es : List (Nat × LinkSt)) (s : State) : Prop extends Closed l s where
  todo : (s.link l).sprayed = true → ∃ x, (l, x) ∈ es ∧ x.sprayed = true

/-- A link's spray state follows its conditions. -/
def sprayTo (s : State) (e : Nat × LinkSt) : State :=
  let on := s.inSpray e.1
  if on == e.2.sprayed then s
  else (s.modLink e.1 fun x => { x with sprayed := on }).raiseAt FAB_INT_STATUS_SPRAY_CHG (e.1 / 64) 0 e.1 0

theorem settleSpray_eq (s : State) : s.settleSpray = s.fab.links.foldl sprayTo s := rfl

theorem Leaving.then_sprayTo {e : Nat × LinkSt} {es : List (Nat × LinkSt)} (h : Leaving l (e :: es) s) :
    Leaving l es (sprayTo s e) := by
  have hclosed : Closed l (sprayTo s e) :=
    .ite h.toClosed ((h.then_modLink ..).then_raiseAt _ _ _ _ _ (fabLinkCfg_ne_fabIntStatus l _))
  refine ⟨hclosed, fun hon => ?_⟩
  have hother (hne : ∀ x, x.sprayed = true → e ≠ (l, x)) (hs : (s.link l).sprayed = true) :
      ∃ x, (l, x) ∈ es ∧ x.sprayed = true := by
    obtain ⟨x, hmem, hx⟩ := h.todo hs
    exact ⟨x, (List.mem_cons.1 hmem).resolve_left (hne x hx).symm, hx⟩
  obtain ⟨k, y⟩ := e
  unfold sprayTo at hon
  by_cases hk : k = l
  · subst hk
    simp only [inSpray_of_disabled h.off] at hon
    split at hon
    · rename_i hy
      exact hother (fun x hx he => by cases he; simp [hx] at hy) hon
    · rw [link_raiseAt, link_modLink_same] at hon; cases hon
  · refine hother (fun x _ he => hk (congrArg Prod.fst he)) ?_
    extract_lets at hon
    split at hon
    · exact hon
    · rwa [link_raiseAt, link_modLink_other (Ne.symm hk)] at hon

theorem mem_of_find {α : Type} {v : α} {es : List (Nat × α)} (h : tblFind k es = some v) : (k, v) ∈ es := by
  induction es with
  | nil => cases h
  | cons e es ih =>
    simp only [tblFind] at h
    split at h
    · rename_i hk; subst hk; cases h; exact List.mem_cons_self
    · exact List.mem_cons_of_mem _ (ih h)

/-- In a table in rising order an entry is what its key finds. -/
theorem find_of_mem {α : Type} {v : α} {es : List (Nat × α)} (hr : rises es = true) (h : (k, v) ∈ es) :
    tblFind k es = some v := by
  rw [rises_iff] at hr
  induction es with
  | nil => cases h
  | cons e es ih =>
    obtain ⟨hlt, hr⟩ := List.pairwise_cons.1 hr
    simp only [tblFind]
    rcases List.mem_cons.1 h with rfl | h
    · simp
    · have hne : e.1 ≠ k := Nat.ne_of_lt (hlt _ h)
      rw [if_neg hne, ih hr h]

/-- Once the spray sets have followed, no entry of a closed link is in them. -/
theorem Closed.settleSpray_out (h : Closed l s) : ∀ x, (l, x) ∈ s.settleSpray.fab.links → x.sprayed = false := by
  have hstart : Leaving l s.fab.links s := ⟨h, fun hon => by
    simp only [State.link, tblGet] at hon
    cases hfind : tblFind l s.fab.links with
    | none => rw [hfind] at hon; cases hon
    | some x => rw [hfind] at hon; exact ⟨x, mem_of_find hfind, hon⟩⟩
  have hfold (es : List (Nat × LinkSt)) : ∀ s, Leaving l es s → Leaving l [] (es.foldl sprayTo s) := by
    induction es with
    | nil => exact fun _ h => h
    | cons e es ih => exact fun s h => ih _ h.then_sprayTo
  have hend : Leaving l [] s.settleSpray := hfold _ s hstart
  intro x hx
  have hlink : s.settleSpray.link l = x := by rw [State.link, tblGet, find_of_mem hend.sorted hx]; rfl
  rw [Bool.eq_false_iff]
  intro hon
  obtain ⟨_, hmem, _⟩ := hend.todo (hlink ▸ hon)
  cases hmem

/-- Reachability and heartbeats follow the links and change none. -/
theorem settleFab_links (s : State) : s.settleFab.fab.links = s.settleSpray.fab.links := by
  unfold State.settleFab State.settleReach
  extract_lets up gone f t
  have hk : Kept [.freeCtr, .regs, .pf0, .pf1, .rng, .tim, .mil, .out] t
      (gone.foldl (fun s a => s.raiseAt FABCMN_INT_STATUS_UNREACH 0 0 (a / 2) 0) t).masterSettle :=
    State.masterSettle_kept ((Kept.refl _ t).foldl fun _ _ hk => State.raiseAt_kept hk (by decide)) (by decide)
  have hfab : State.fab _ = t.fab := hk.same .fab (by decide)
  rw [hfab]
  rfl

/-- What judging protection may change before the module leaves. -/
def judgeParts : List Part := [.regs, .pf0, .pf1, .rng, .sem, .prt, .mil, .out]

/-- Judging protection does not bear on the fabric, unless the module is to be isolated. -/
theorem protJudge_fab (h : s.prt.leaving = none) : s.protJudge.fab = s.fab := by
  unfold State.protJudge
  split
  · rfl
  extract_lets s1 s2 s3
  have k1 : Kept judgeParts s s1 := State.pairSettle_kept (State.signs_kept (Kept.refl _ s) (by decide)) (by decide)
  have k2 : Kept judgeParts s s2 :=
    .ite (k1.foldl fun _ _ hk => .ite (State.initRole_kept hk (by decide)) hk) k1
  have k3 : Kept judgeParts s s3 := k2.foldl fun _ _ hk => State.judgeGroup_kept hk (by decide)
  have h1 : Stays s s1 := (signs_stays s).trans (pairSettle_stays _)
  have h2 : Stays s s2 :=
    .ite (h1.trans (Stays.foldl_range fun _ _ hg => .ite (initRole_stays _ _ hg) (.refl _))) h1
  have h3 : Stays s s3 := h2.trans (Stays.foldl fun _ _ => judgeGroup_stays ..)
  have hleave : s3.leaveSettle = s3 := by rw [State.leaveSettle, h3.leaving, h]
  rw [hleave]
  exact k3.same .fab (by decide)

theorem not_mem_sprayFor (h : ∀ x, (l, x) ∈ s.fab.links → x.sprayed = false) (a : Nat) : l ∉ s.sprayFor a := by
  have hspray (leg : Bool) : l ∉ s.spray a leg := fun hin => by
    obtain ⟨⟨_, x⟩, hmem, rfl⟩ := List.mem_map.1 hin
    obtain ⟨hmem, hcond⟩ := List.mem_filter.1 hmem
    simp [h x hmem] at hcond
  unfold State.sprayFor
  split
  · exact hspray true
  · exact hspray false

end

/-! ## EN written to 0 takes effect -/

theorem takeRw_fabLinkCfg {s : State} {p : RwPend} {l : Nat} (h : findStored p.addr = some ⟨.fabLinkCfg, linkIx l⟩) :
    s.takeRw p = s.wr .fabLinkCfg (linkIx l) (blend (s.rd .fabLinkCfg (linkIx l)) p.val p.mask) := by
  simp only [State.takeRw, h]
  rfl

/-- What a change of EN brings about (R455, R459). -/
theorem rwEffect_en_changed {s : State} {p : RwPend} {l : Nat} (h : findStored p.addr = some ⟨.fabLinkCfg, linkIx l⟩)
    (hen : ((s.takeRw p).flag FAB_LINK_CFG_EN (linkIx l) != s.flag FAB_LINK_CFG_EN (linkIx l)) = true) :
    s.rwEffect p =
      (((s.takeRw p).watchSf [entLink l] fun s => s.linkReset l).newMarkers l).settleFab.protJudge := by
  have hl : 64 * (linkIx l).inst + (linkIx l).i = l := Nat.div_add_mod l 64
  have hbit (t : State) : bitAt (t.rd .fabLinkCfg (linkIx l)).toNat 0 = t.flag FAB_LINK_CFG_EN (linkIx l) :=
    (flag_en_eq_bit _).symm
  unfold State.rwEffect
  simp only [h, hl, hbit]
  rw [bne_comm, if_pos hen]

/-- A link whose EN goes to 0 is in no spray set afterwards. -/
theorem rwEffect_closes {s : State} {p : RwPend} {l : Nat} (hrises : rises s.fab.links = true)
    (hfind : findStored p.addr = some ⟨.fabLinkCfg, linkIx l⟩) (hon : s.flag FAB_LINK_CFG_EN (linkIx l) = true)
    (hoff : FAB_LINK_CFG_EN.get (blend (s.rd .fabLinkCfg (linkIx l)) p.val p.mask) = 0)
    (hleaving : s.prt.leaving = none) (a : Nat) : l ∉ (s.rwEffect p).sprayFor a := by
  have htake := takeRw_fabLinkCfg (s := s) hfind
  have hen : (s.takeRw p).flag FAB_LINK_CFG_EN (linkIx l) = false := by
    rw [htake, State.flag, State.fld, show FAB_LINK_CFG_EN.reg = .fabLinkCfg from rfl, rd_wr_same, hoff]; rfl
  have hclosed : Closed l (s.takeRw p) := ⟨hen, by rw [htake]; exact hrises⟩
  rw [rwEffect_en_changed hfind (by rw [hen, hon]; rfl)]
  have hk : Kept [.regs, .pf0, .pf1, .rng, .fab, .pmn, .mil, .out] s
      (((s.takeRw p).watchSf [entLink l] fun s => s.linkReset l).newMarkers l) :=
    State.newMarkers_kept (State.watchSf_kept (State.takeRw_kept (Kept.refl _ s) (by decide)) (by decide)
      fun _ hk => State.linkReset_kept hk (by decide)) (by decide)
  have hwatch : Closed l ((s.takeRw p).watchSf [entLink l] fun s => s.linkReset l) :=
    .then_watchSf (hclosed.then_linkReset l) l
  have hout := (hwatch.then_newMarkers l).settleSpray_out
  have hprt := hk.same .prt (by decide)
  generalize State.newMarkers _ l = w at hk hout hprt ⊢
  have hstay : w.settleFab.prt.leaving = none := by
    rw [(settleFab_gen w).2, show w.prt = s.prt from hprt, hleaving]
  refine not_mem_sprayFor (fun x hx => hout x ?_) a
  rwa [protJudge_fab hstay, settleFab_links] at hx

/-! ## The statement -/

/-- Settles O48: links that are STOPPED or disabled by their not running, writes by the fields that they carry, EN
written to 0 by what the spray sets follow. -/
theorem stoppedMacrosAreSilent : Obligations.StoppedMacrosAreSilent := by
  unfold Obligations.StoppedMacrosAreSilent
  refine ⟨?stopped, ?run, ?linkCfg, ?disabled, ?closing⟩
  case stopped =>
    intro l c m pos s hstop
    have hidle := linkRuns_of_stopped hstop
    exact ⟨exec_cellTransmit_silent hidle, exec_cellReceive_silent c hidle, exec_markerReceive_silent pos m hidle,
      exec_searchWindowEnd_silent hidle⟩
  case run =>
    rintro req n v s u harr rfl hstop hup hrun
    have hrd := ownWrite_fabMacroCtrl_rd (req := req) (v := v) (flushRw_arrived s req .fabMacroCtrl (ixN n.val)) hstop
    have hstays : ((s.arrived req .fabMacroCtrl (ixN n.val)).ownWrite req .fabMacroCtrl (ixN n.val) v
        FAB_MACRO_CTRL_RUN.mask).flag FAB_MACRO_CTRL_RUN (ixN n.val) = false := by
      rw [← hstop]
      exact congrArg (· != 0) ((congrArg FAB_MACRO_CTRL_RUN.get hrd).trans (get_blend_of_untouched _ _ (by decide)))
    refine ⟨_, exec_fabMacroRun v harr, ?_⟩
    rw [fabMacroRun_stays_stopped hup hrun hstays]
    exact ⟨hstays, (congrArg FAB_MACRO_CTRL_LEGACY.get hrd).trans (get_blend_of_covered _ _ (by decide))⟩
  case linkCfg =>
    rintro req off l v s u hoff harr rfl hstop
    have hfx : isFx (regDomain .fabLinkCfg (linkIx l.val).inst) = false := by
      rw [regDomain_fabLinkCfg, isFx, decide_eq_false_iff_not]; omega
    have hopen : (s.arrived req .fabLinkCfg (linkIx l.val)).rwxOpen .fabLinkCfg (linkIx l.val) = true := by
      rw [rwxOpen_fabLinkCfg, hstop]; rfl
    refine ⟨_, congrArg Host.Outcome.next (registerWrite_arrives v hoff (findReg_fabLinkCfg l) hfx harr), ?_⟩
    rw [writeReg_fabLinkCfg]
    exact writeFields_rd hopen (by decide)
  case disabled =>
    intro l s hoff
    exact ⟨exec_cellTransmit_silent (linkRuns_of_disabled hoff), inSpray_of_disabled hoff⟩
  case closing =>
    intro off p rest l s hrises htake hfind hon hoff hleaving
    refine ⟨_, rfl, ?_⟩
    simp only [rwFieldEffect, htake]
    exact rwEffect_closes hrises hfind hon hoff hleaving

end Sys2Proof.Proofs
end
